-- ==== Sys2Proof/Word.lean ====
section
/-! DEFINITION. The word types of the GK9 and the sparse tables its register file and memories are kept in. -/

namespace Sys2Proof

/-- A 32-bit register or memory word (R11). -/
abbrev Word := BitVec 32

/-- One octet. -/
abbrev Byte := BitVec 8

/-- A sparse table: (key, value) pairs, keys strictly rising, no value equal to what an unlisted key reads as. -/
abbrev Sparse (α : Type) := List (Nat × α)

end Sys2Proof
end

