-- ==== Sys2Proof/Machine/Sparse.lean ====
section
/-! DEFINITION. Sparse tables in one canonical form: the read, the write and the form itself. -/

namespace Sys2Proof.Machine

open Sys2Proof

/-- What key `k` reads as; an unlisted key reads as `d k`. -/
def sget {α : Type} (d : Nat → α) : Sparse α → Nat → α
  | [], k => d k
  | (a, v) :: r, k => if a = k then v else sget d r k

/-- Keep the entries whose key satisfies `p`; every other key returns to what an unlisted key reads as. -/
def skeep {α : Type} (p : Nat → Bool) (t : Sparse α) : Sparse α :=
  t.filter fun e => p e.1

/-- Enter a key before the first greater one. -/
def senter {α : Type} (k : Nat) (v : α) : Sparse α → Sparse α
  | [] => [(k, v)]
  | (a, w) :: r => if k < a then (k, v) :: (a, w) :: r else (a, w) :: senter k v r

/-- Write `v` at key `k`, keeping the canonical form: writing what an unlisted key reads as removes the entry. -/
def sput {α : Type} [DecidableEq α] (d : Nat → α) (t : Sparse α) (k : Nat) (v : α) : Sparse α :=
  let r := skeep (fun a => a ≠ k) t
  if v = d k then r else senter k v r

/-- Every key of the table is above `b`. -/
def sabove {α : Type} (b : Nat) : Sparse α → Bool
  | [] => true
  | (a, _) :: _ => b < a

/-- The canonical form: keys strictly rising, no value equal to what an unlisted key reads as. -/
def swf {α : Type} [DecidableEq α] (d : Nat → α) : Sparse α → Bool
  | [] => true
  | (a, v) :: r => decide (v ≠ d a) && sabove a r && swf d r

/-- Write a list of values at consecutive keys from `k`. -/
def sputs {α : Type} [DecidableEq α] (d : Nat → α) (t : Sparse α) (k : Nat) : List α → Sparse α
  | [] => t
  | v :: vs => sputs d (sput d t k v) (k + 1) vs

/-- The `n` values at consecutive keys from `k`. -/
def sgets {α : Type} (d : Nat → α) (t : Sparse α) (k n : Nat) : List α :=
  (List.range n).map fun i => sget d t (k + i)

end Sys2Proof.Machine
end

