-- ==== Sys2Proof/Machine/RegFile.lean ====
section
/-! DEFINITION. The register file: one entry per register field, keyed by the field's bit address. -/

namespace Sys2Proof.Machine

open Sys2Proof

/-- A register field: the bit address of its lowest bit (octet offset in BAR0 times 8, plus the bit) and its width. -/
structure Fld where
  key : Nat
  w : Nat
deriving DecidableEq, Repr

/-- The access types of R14. -/
inductive Access where
  | ro | rw | w1c | wo | rwi | rwl
deriving DecidableEq, Repr

/-- Which function group owns a register's RWL fields (R84): none, one group, or one group per first index. -/
inductive GroupOf where
  | none
  | fixed (g : Nat)
  | first (base : Nat)
deriving DecidableEq, Repr

/-- A field of a register row: lowest bit, width, access type, Reset column as a set of letters
(P = 1, H = 2, S = 4, W = 8, C = 16, Z = 32; 0 = kept). -/
structure FieldRow where
  lo : Nat
  w : Nat
  acc : Access
  rst : Nat
deriving DecidableEq, Repr

/-- A register, or an array of registers (dimensions as count and stride, outermost first). -/
structure RegRow where
  name : String
  off : Nat
  dims : List (Nat × Nat)
  grp : GroupOf
  fields : List FieldRow
deriving DecidableEq, Repr

/-- The register file: field bit address to value. -/
abbrev RegFile := Sparse Word

/-- A field's value at reset: 0 but for the fields whose tables state another value, or whose "none" is not 0. -/
def resetValueOf : Nat → Word
  -- GLB_ID.MAP_MAJOR
  | 0x0 => 0x4
  -- GLB_ID.FAMILY
  | 0x8 => 0x474B39
  -- GLB_VARIANT.LANES
  | 0x20 => 0x40
  -- GLB_VARIANT.ANTENNAS
  | 0x28 => 0x4
  -- GLB_VARIANT.EVAL
  | 0x2C => 0x1
  -- GLB_VARIANT.STEP_LETTER
  | 0x30 => 0x2
  -- GLB_VARIANT.STEP_DIGIT
  | 0x34 => 0x1
  -- CLK_RAMP.DWELL
  | 0x80060 => 0xA
  -- RST_CAUSE.CAUSE
  | 0x100000 => 0x1
  -- SEC_STATUS.ENTROPY_OK
  | 0x18001C => 0x1
  -- IMG_CAPS.MAX_MINOR3
  | 0x200140 => 0x2
  -- IMG_CAPS.MAX_MINOR2
  | 0x200148 => 0x4
  -- GNS_DIFF_AGE.AGE_MS
  | 0xC00520 => 0xFFFFFFFF
  -- TIM_EST_ERR.VALUE
  | 0x1000220 => 0xFFFFFFFF
  -- JNL_HEAD.CYC
  | 0x1300060 => 0xFFFFFFFF
  -- JNL_MIRROR.CYC
  | 0x1300080 => 0xFFFFFFFF
  -- JNL_CKPT0.CYC
  | 0x13000A0 => 0xFFFFFFFF
  -- JNL_CKPT1.CYC
  | 0x13000C0 => 0xFFFFFFFF
  -- RED_CKPT_NAND.CYC
  | 0x13801E0 => 0xFFFFFFFF
  -- RED_FEED.VAON_B_OK
  | 0x138021E => 0x1
  -- RED_FEED.VAON_A_OK
  | 0x138021F => 0x1
  -- PST_MC_TARGET.K
  | 0x1400240 => 0xFFFFFFFF
  -- REC_FROZEN_CYC.CYC
  | 0x1480080 => 0xFFFFFFFF
  -- HST_MAP_IMPL.OFF_MAX
  | 0x1580044 => 0x1
  -- HST_MAP_IMPL.OFF_MAJOR
  | 0x158004C => 0x4
  -- HST_MAP_IMPL.IMPL_MAX
  | 0x1580054 => 0x1
  -- HST_MAP_IMPL.IMPL_MIN
  | 0x1580058 => 0x0
  -- HST_MAP_IMPL.IMPL_MAJOR
  | 0x158005C => 0x4
  | _ => 0

/-- What an unlisted field reads as: its reset value. An MSI-X table entry is masked at reset (PRESUMED: the PCI Express Base
Specification, which the spec names, resets the Mask bit of a vector control word to 1; notes/assumptions/7). -/
def resetValue (k : Nat) : Word :=
  if 0x2B1000 * 8 ≤ k ∧ k < 0x2B1200 * 8 ∧ k % 128 = 96 then 1 else resetValueOf k

/-- The value of a field. -/
def RegFile.get (r : RegFile) (f : Fld) : Nat := (sget resetValue r f.key).toNat

/-- Write a field; the value is cut to the field's width. -/
def RegFile.set (r : RegFile) (f : Fld) (v : Nat) : RegFile :=
  sput resetValue r f.key (BitVec.ofNat 32 (v % 2 ^ f.w))

/-- The indices, outermost first, at which an octet distance from a register array's base meets a register; none when it does not. -/
def dimIdx : List (Nat × Nat) → Nat → Option (List Nat)
  | [], x => if x = 0 then some [] else none
  | (c, st) :: r, x =>
    if x / st < c then (dimIdx r (x % st)).map fun l => x / st :: l else none

/-- The register row at an offset, with its indices. -/
def findReg (t : List RegRow) (off : Nat) : Option (RegRow × List Nat) :=
  t.findSome? fun r =>
    if r.off ≤ off then (dimIdx r.dims (off - r.off)).map fun l => (r, l) else none

/-- The group that owns a register's RWL fields at the given indices, by its bit of R84. -/
def GroupOf.at (g : GroupOf) (idx : List Nat) : Option Nat :=
  match g with
  | .none => Option.none
  | .fixed n => some n
  | .first b => some (b + idx.headD 0)

end Sys2Proof.Machine
end

