-- ==== Sys2Proof/Machine/Types.lean ====
section
/-! DEFINITION. The plain data that the state and the commands of the GK9 are made of. -/

namespace Sys2Proof

/-- An access path to the registers (spec/18): the PCIe endpoint, the QSPI target, or host-channel session i. -/
inductive Path where
  | pcie
  | qspi
  | sess (i : Nat)
  /-- Tunnelled accesses of another device (R434), by its address. -/
  | tun (src : Nat)
  /-- The debug access port (R483). -/
  | debug
deriving DecidableEq, Repr

/-- The common header fields of a received PTP message that the slave uses (R322, R323): version, domain, sender's
clockIdentity and port number, sequence number, correctionField in 2^−16 ns, logMessageInterval. -/
structure PtpHdr where
  version : Nat
  domain : Nat
  clock : Nat
  port : Nat
  seq : Nat
  corr : Int
  logInt : Int
deriving DecidableEq, Repr

/-- The grandmaster data of an Announce (R323), in the order in which the data set comparison reads them. -/
structure PtpData where
  prio1 : Nat
  cls : Nat
  accuracy : Nat
  variance : Nat
  prio2 : Nat
  gmId : Nat
  steps : Nat
deriving DecidableEq, Repr

/-- What reading an encoder brings (R261, R263): the data line high before the first edge, the word, the data line low at the zero
check. -/
structure EncWord where
  idle : Bool
  word : Nat
  zero : Bool
deriving DecidableEq, Repr

/-- What one channel measures at an epoch (R142, R143): channel, transmit second, whole chips, chip fraction, carrier phase in 2^−16
cycle without the half-cycle correction of R140, Doppler in mHz. -/
structure GnsMeas where
  c : Nat
  tx : Nat
  ci : Nat
  cf : Nat
  phase : Int
  dop : Int
deriving DecidableEq, Repr

/-- What a navigation word brings (R137, R140, R145): bit or secondary-code synchronisation, the message preamble and whether the
polarity is inverted, the transmit second and the whole chips within it, an ephemeris or an almanac entry with its issue of data, the Klobuchar and UTC parameters,
an SBAS type-9 message. -/
inductive NavWord where
  | sync
  | preamble (inverted : Bool)
  | tow (sec : Nat) (ci : Nat)
  | eph (iod : Nat) (words : List Nat)
  | alm (prn : Nat) (iod : Nat) (words : List Nat)
  | iono (words : List Nat)
  | range (words : List Nat)
deriving DecidableEq, Repr

/-- The area of SRAM that holds an uncorrectable word, with what R364 needs to act (R364, R373, R374, R376, R378): lane memory read
by a job, OCE memory, FIR memory of a channel (none: the shared datapath), an intake slot, a tracking channel, a position channel's
sample, a received or a sent Ethernet frame, a received CAN frame or a transmit buffer, a block of an open journal record, an input
that no block holds yet, a final record by slot, the snapshot of a cycle, a checkpoint buffer, configuration memory, host memory. -/
inductive UeArea where
  | lane (lane : Nat) (j : Nat) (n : Nat)
  | oce (n : Nat)
  | fir (n : Nat) (ch : Option Nat)
  | slot (i : Nat)
  | track (c : Nat)
  | position (e : Nat) (n : Nat)
  | ethRx (p : Nat)
  | ethTx (p : Nat)
  | canRx (c : Nat)
  | canTx (c : Nat) (b : Nat)
  | block (n : Nat) (typ : Nat)
  | input (n : Nat) (unit : Nat) (index : Nat)
  | record (slot : Nat)
  | snapshot (n : Nat)
  | checkpoint (k : Nat)
  | config
  | host
deriving DecidableEq, Repr

end Sys2Proof

namespace Sys2Proof.Machine

open Sys2Proof

/-- One incident entry (R513) before it has a number: corrected time of the event (2^−16 ns units, 0 while UNSET), cycle number
(none outside any), condition code, source word, detail. -/
structure Incident where
  time : Nat
  cyc : Option Nat
  code : Nat
  source : Nat
  detail : Nat
deriving DecidableEq, Repr

/-- The incident log (R513 to R518). Entry numbers run modulo 2^32. -/
structure LogSt where
  /-- Entries on the die, newest first, each with its ISEQ. -/
  held : List (Nat × Incident)
  /-- The ISEQ the next entry takes. -/
  next : Nat
  /-- How many of the newest entries are not yet free. -/
  fill : Nat
  /-- How many of the newest entries are not yet acknowledged. -/
  unacked : Nat
  /-- How many of the newest entries are not yet in the NAND incident ring. -/
  unmirrored : Nat
  /-- Entries lost in the present LOG_FULL run. -/
  lostRun : Nat
  /-- The NAND incident ring, newest first. -/
  ring : List (Nat × Incident)
  /-- Index, from 0, of the next word REC_LOG_RD_DATA returns within its entry. -/
  rdWord : Nat
deriving DecidableEq, Repr

/-- The per-path record of R543: the last code reported for a discarded or refused access. -/
structure PathRun where
  pcie : Nat
  qspi : Nat
  sess : List Nat
  tun : Nat
  debug : Nat
deriving DecidableEq, Repr

/-- The QSPI target's own state (R526 to R529): sticky status bits, a write that waits, and its map registers. -/
structure QspiSt where
  denied : Bool
  timeout : Bool
  refused : Bool
  frameErr : Bool
  busy : Bool
  mapSel : Nat
  settled : Option (Nat × Nat)
deriving DecidableEq, Repr

/-- A host access held by a stopped domain (R456). -/
structure HeldAcc where
  path : Path
  off : Nat
  data : Option Nat
  since : Nat
  dom : Nat
deriving DecidableEq, Repr

/-- A REG record of a session in hand (R488): the operations that have yet to execute and the results so far. One whose operation waits for a
clock (R456) goes on when the access completes; a later record of the session waits behind it. -/
structure RegJob where
  id : Nat
  place : Nat
  rest : List (List Byte)
  out : List Byte
deriving DecidableEq, Repr

/-- The host interface beside its registers (spec/18). -/
structure HstSt where
  run : PathRun
  q : QspiSt
  /-- Latched high words (R12, R307): path, offset of the high word, value. -/
  latch : List (Path × Nat × Nat)
  msixEn : Bool
  funcMask : Bool
  busMaster : Bool
  d3hot : Bool
  /-- Vectors whose message has been sent or deferred since they became asserted, as a bit set. -/
  sentMask : Nat
  /-- Vectors with a message deferred to the end of their holdoff. -/
  deferMask : Nat
  /-- CNT until which no message is sent on a vector (R539). -/
  holdUntil : List (Nat × Nat)
  irq0 : Bool
  irq1 : Bool
  /-- The BAR2 windows that are plain memory: mailboxes, security windows, shared SRAM, host staging (R523). -/
  mem : List Host.Cell
  held : List HeldAcc
  /-- The access in hand was discarded by its register's own rule (R529, bit REFUSED). -/
  mark : Bool
  /-- Outbound mailboxes waiting for an answer: mailbox, CNT of sending. -/
  mbxWait : List (Nat × Nat)
  /-- REG records that wait for an access of their session (R456, R488), oldest first. -/
  jobs : List RegJob
deriving DecidableEq, Repr

/-- One time source slot (R310): consecutive valid offsets, the CNT of the last valid one, since when it is qualified,
and the corrected time of its last servo update. -/
structure SrcSt where
  consec : Nat
  lastValid : Option Nat
  qualSince : Option Nat
  lastUpd : Option Int
deriving DecidableEq, Repr

/-- An armed step (R313, R317): its amount in 2^−16 ns, and E_0 when the host set it. -/
structure StepSt where
  theta : Int
  host : Option Nat
deriving DecidableEq, Repr

/-- One TCAP ball (R327): captures oldest first (CNT, rising), a target armed, a pulse high until a CNT, overflow run. -/
structure TcapSt where
  fifo : List (Nat × Bool)
  armed : Bool
  late : Bool
  highUntil : Option Nat
  lostRun : Bool
  lastSec : Option Int
deriving DecidableEq, Repr

/-- A foreign master (R323): identity, port, its data, the CNT of its last Announces, newest first, and their interval. -/
structure ForeignSt where
  clock : Nat
  port : Nat
  data : PtpData
  times : List Nat
  logInt : Int
  utc : Option (Nat × Bool × Bool)
deriving DecidableEq, Repr

/-- A Delay_Req that has been sent (R324): its sequence number, the CNT at which it was handed over, and its MDI egress time-stamp in
2^−16 ns once it has left. -/
structure DelayReqSt where
  seq : Nat
  sentAt : Nat
  t3 : Option Int
deriving DecidableEq, Repr

/-- The PTP slave (R322 to R324). -/
structure PtpSt where
  foreign : List ForeignSt
  sel : Option (Nat × Nat)
  /-- The latest Sync: sequence, t1 when known, correction, t2, each in 2^−16 ns. -/
  sync : Option (Nat × Option Int × Int × Int)
  dreq : Option DelayReqSt
  dreqLog : Int
  nextSeq : Nat
  /-- The filtered mean path delay in 2^−16 ns, none before the first exchange after qualification starts. -/
  mpdF : Option Int
deriving DecidableEq, Repr

/-- The coarse time the always-on domain keeps (R318): corrected time at SLEEP entry and the measured
length of one SRC tick in 2^−16 ns. -/
structure CoarseSt where
  time : Int
  ratio : Nat
deriving DecidableEq, Repr

/-- The time base beside its registers (spec/10). -/
structure TimSt where
  /-- The counter CNT, 64 bits. -/
  cnt : Nat
  /-- The anchor (CNT_A, T_A) and RATE (R305). -/
  cntA : Nat
  tA : Int
  rate : Int
  /-- The anchor in force before the last step (TIM_STEP_LAST). -/
  stepCntA : Nat
  stepTA : Int
  /-- The rate before the last step, and the count of its tick (R314). -/
  stepRate : Int
  stepAt : Nat
  /-- The servo integrator, binary64 bits (R311). -/
  integ : Nat
  srcs : List SrcSt
  step : Option StepSt
  /-- The next valid offset is applied as a step whatever its size (R308). -/
  forceStep : Bool
  /-- |θ| of the last updates, newest first, 2^−16 ns (R315). -/
  recent : List Nat
  /-- E_0 in ns and the corrected time at entry of HOLDOVER or FREERUN (R316); the flag says EST_ERR is unknown (R308). -/
  e0 : Nat
  e0At : Int
  unknown : Bool
  /-- PPS_OUT: high until a CNT; the last second pulsed; seconds below this one give no pulse. -/
  ppsHigh : Option Nat
  ppsLast : Option Int
  ppsMin : Int
  /-- Seconds of the last suppressed PPS second (R325); 0 = none. -/
  suppr : Nat
  /-- PPS_IN: CNT of the last valid edge; a run of bad edges. -/
  ppsInLast : Option Nat
  ppsInRun : Bool
  tcap : List TcapSt
  ptp : PtpSt
  coarse : Option CoarseSt
deriving DecidableEq, Repr

/-- One section of the loaded structure (R54): type, instance, plaintext. -/
structure Section where
  typ : Nat
  inst : Nat
  data : List Byte
deriving DecidableEq, Repr

/-- A NAND image slot (R76): state (0 EMPTY, 1 VALID, 2 TRIAL, 3 BAD), TRIED flag, generation, contents. -/
structure SlotSt where
  state : Nat
  tried : Bool
  gen : Nat
  data : List Byte
deriving DecidableEq, Repr

/-- A load, check or store that runs (R80 to R82): command (1 LOAD, 2 CHECK, 3 STORE), source, and for a load at boot the slots
still to try. -/
structure LoadJob where
  cmd : Nat
  src : Nat
  boot : Bool
  rest : List Nat
  fallback : Bool
deriving DecidableEq, Repr

/-- The image and the function groups beside their registers (spec/02). -/
structure ImgSt where
  secs : List Section
  slotA : SlotSt
  slotB : SlotSt
  /-- The cascade staging area (R75). -/
  staged : List Byte
  /-- The load that runs, and beside it the check or store that runs (R81, R82). -/
  job : Option LoadJob
  chk : Option LoadJob
  /-- Groups that take no part in the cycles from the T0 that took their stop, as a bit set (R85). -/
  taken : Nat
  /-- Groups whose restart waits for the next T0 (R87). -/
  restart : Nat
  /-- Groups held stopped by a cascade PREPARE (R437). -/
  heldGroups : Nat
  /-- Held groups whose staged values are voted on and take no more writes (R438). -/
  votedGroups : Nat
  /-- IMG SOURCE_TIMEOUT has been reported (R75). -/
  timedOut : Bool
deriving DecidableEq, Repr

/-- The live value of an intake slot (R98): components, arrival and source time (2^−16 ns), INVALID, an arrival since cold start,
arrivals since the last latch, the arrival time at which a component last changed (R117), and the count of the slot write (R99). -/
structure SlotLive where
  vals : List Nat
  tArr : Int
  tSrc : Option Int
  invalid : Bool
  ever : Bool
  upd : Nat
  chg : Int
  wrote : Nat
deriving DecidableEq, Repr

/-- The held value of a slot in a cycle (R98, R99). -/
structure HeldSlot where
  slot : Nat
  vals : List Nat
  tArr : Int
  tSrc : Option Int
  invalid : Bool
  stale : Bool
  never : Bool
  upd : Nat
  chg : Int
deriving DecidableEq, Repr

/-- One filter input sample (R103): channel, tick index, BAD, the binary32 value taken, the validity instant of the slot value (R395). -/
structure FirSample where
  ch : Nat
  m : Nat
  bad : Bool
  x : Nat
  tv : Int
deriving DecidableEq, Repr

/-- A comparator (R111): consecutive beyond outputs, ACTIVE, entries. -/
structure CmpSt where
  count : Nat
  active : Bool
  enter : Nat
deriving DecidableEq, Repr

/-- One filter channel (R104 to R108): delay line newest first (value with 23 fraction bits, BAD), samples since cold start,
saturated samples, the newest output with its validity instant, and the two comparators. -/
structure FltCh where
  line : List (Int × Bool)
  count : Nat
  sat : Nat
  valid : Bool
  fresh : Bool
  osat : Bool
  out : Nat
  tv : Int
  cmp : List CmpSt
deriving DecidableEq, Repr

/-- A comparator event (R112): channel, comparator, entry or exit, its instant. -/
structure CmpEvent where
  ch : Nat
  j : Nat
  enter : Bool
  tv : Int
deriving DecidableEq, Repr

/-- Innovation statistics of a reference (R116), binary32: variance, mean (north and east, or the heading mean first). -/
structure RefStat where
  s2 : Nat
  mu1 : Nat
  mu2 : Nat
deriving DecidableEq, Repr

/-- Reference voting between cycles: re-acceptance counts (HDG0 to HDG3, then POS0 to POS7), and the statistics and observer
heading as they stood after the hand-overs of cycles, newest first. -/
structure RefSt where
  left : List Nat
  hist : List (Int × List RefStat × Nat)
deriving DecidableEq, Repr

/-- What voting says of one reference in a cycle (R115 to R123). -/
structure RefVote where
  defd : Bool
  reason : Nat
  left : Nat
  weight : Nat
  sigma : Nat
  drift : Nat
  v1 : Nat
  v2 : Nat
  tv : Int
  var : Nat
deriving DecidableEq, Repr

/-- The result of voting in a cycle: references in the order HDG0 to HDG3, POS0 to POS7, the voted heading, the flags. -/
structure VoteOut where
  refs : List RefVote
  psi : Nat
  fallback : Bool
  pairPos : Bool
  pairHdg : Bool
  spreadPos : Bool
  spreadHdg : Bool
deriving DecidableEq, Repr

/-- Intake and filtering beside the registers: live slots, channels, the next tick of each channel, and samples that wait for
stage 2 of their cycle, oldest first. -/
structure FltSt where
  live : List SlotLive
  ch : List FltCh
  next : List Nat
  smp : List FirSample
deriving DecidableEq, Repr

/-- A block-floating operand (R167): shared exponent and mantissas in row-major order. -/
structure Blk where
  e : Int
  m : List Int
deriving DecidableEq, Repr

/-- The observer and control engine's foreground state (spec/05): operand blocks of state and scratch memory and the demand, the
anchors, the cycle at whose T0 the estimate is valid, and what its rules count or remember between cycles. -/
structure OceSt where
  blks : List (Nat × Blk)
  nA : Nat
  eA : Nat
  psiA : Nat
  valid : Int
  init : Bool
  /-- A reinitialisation acts from the next stage 4 (R172). -/
  reinit : Bool
  dr : Nat
  skips : Nat
  /-- Rows in a run of LATE cycles, as a bit set (R176). -/
  lateRun : Nat
  notInit : Bool
  intRun : Bool
  tauRun : Bool
  /-- Degrees of freedom under closed-loop control in the last cycle, as a bit set (R190). -/
  closed : Nat
  /-- The demand of the last cycle whose stage 5 completed without saturation (R172). -/
  tau : List Nat
deriving DecidableEq, Repr

/-- What stages 4 and 5 of a cycle say beside the state (OCE_STATUS, OCE_MROWr, the demand). -/
structure OceOut where
  dr : Bool
  repeated : Bool
  intClamp : Bool
  tauClamp : Bool
  sat4 : Bool
  sat5 : Bool
  nonfin : Bool
  gap : Bool
  rowsUsed : Nat
  /-- Used, mask reason, delay in µs, row by row. -/
  mrows : List (Bool × Nat × Int)
  tau : List Nat
  tauFF : List Nat
  /-- Innovations formed: reference, north or heading, east (R183). -/
  innov : List (Nat × Nat × Nat)
  /-- Condition codes that the stage reports, in order, each with its measurement row. -/
  conds : List (Nat × Nat)
  /-- The state as the cycle's own stages leave it, which its stage 5 uses and its commit shows (R178). -/
  st : OceSt
deriving DecidableEq, Repr

/-- A quadratic programme in the order of R196 and R199 to R206: data in binary32, and where the selector finds its parts. -/
structure Prob where
  n : Nat
  p : Nat
  m : Nat
  hd : List Nat
  g : List Nat
  ma : List (List Nat)
  b : List Nat
  mg : List (List Nat)
  h : List Nat
  /-- Force variables: thruster, first variable, how many. -/
  fofs : List (Nat × Nat × Nat)
  /-- Force slacks: force row, variable. -/
  sofs : List (Nat × Nat)
  /-- Power slacks: island, variable. -/
  pofs : List (Nat × Nat)
  /-- Islands: index, sections, right side of R204 in kW. -/
  isl : List (Nat × List Nat × Nat)
  /-- Index of the first power row among the inequalities; island k has row prow + k. -/
  prow : Nat
deriving DecidableEq, Repr

/-- One measurement of a WLS fit (R148, R149): channel, signal, satellite; the pseudorange or range rate with its corrections in
2^−20 m or 2^−20 m/s; the weight 1/σ²; what the satellite model takes: the satellite's words, transmit and receive time of week in
2^−16 ns, and whether the atmosphere is modelled (SPP), with the Klobuchar words. -/
structure FitRow where
  c : Nat
  sig : Nat
  prn : Nat
  rho : Int
  w : Nat
  nav : List Nat
  tTx : Int
  tRx : Int
  spp : Bool
  air : List Nat
deriving DecidableEq, Repr

/-- The problem of a WLS or CLS job (R232, R233): N, M, COUNT and RADIUS of its descriptor; for WLS the start point in 2^−20 m, the
position at which a velocity fit stands, the systems with a term of their own, and the measurements; for CLS the data words. -/
structure LsProb where
  n : Nat
  m : Nat
  count : Nat
  radius : Nat
  pt : List Int
  pos : List Int
  sys : List Nat
  rows : List FitRow
  data : List Nat
deriving DecidableEq, Repr

/-- The outcome of a lane job (R230, R248), with the words the SLV job registers show. -/
structure JobRes where
  status : Nat
  reg : Bool
  warm : Bool
  ovf : Bool
  input : Bool
  cert : Bool
  dlPoint : Nat
  illCol : Nat
  certRow : Nat
  regCnt : Nat
  iter : Nat
  endNs : Nat
  mu : Nat
  /-- The final iterate x, y, z, s, and τ, κ under EMBED; for a GNSS job its result words in x. -/
  x : List Nat
  y : List Nat
  z : List Nat
  s : List Nat
  tk : List Nat
  /-- The point that a WLS job has brought the GNSS block to, in 2^−20 m (R243). -/
  pt : List Int
deriving DecidableEq, Repr

/-- A job of a lane: lane, place in its job table, TYPE (1 QP, 2 WLS, 3 CLS), JOB_ID, EMBED, cycle, deadline in counts, data,
start, outcome. -/
structure Job where
  lane : Nat
  j : Nat
  typ : Nat
  id : Nat
  embed : Bool
  /-- The descriptor's WARM bit and ITER_CAP (R232). -/
  warm : Bool
  cap : Nat
  /-- A GNSS job: 0 = PVT, 1 = re-solve, 2 = velocity, 3 = search batch, 4 = fixed baseline, 5 = attitude (CLS of kind 2). -/
  sub : Nat
  cyc : Nat
  deadline : Nat
  prob : Prob
  /-- The problem of a WLS or CLS job. -/
  ls : LsProb
  /-- The data words that staging brings (R233, R235). -/
  words : List Nat
  started : Option Nat
  res : Option JobRes
deriving DecidableEq, Repr

/-- The memory map of a lane (R231, R234): address of each job area with its worst-case iterate words, address and size of the first
staging buffer, number of buffers. -/
structure LaneMap where
  areas : List (Nat × Nat)
  stage : Nat
  size : Nat
  bufs : Nat
deriving DecidableEq, Repr

/-- One committed cycle as later cycles refer to it (R197, R213, R179): force variables and angle command per thruster, achieved
force, standing scenario. -/
structure AllocRef where
  n : Nat
  mode : Nat
  scen : Nat
  f : List (List Nat)
  theta : List Nat
  tauA : List Nat
deriving DecidableEq, Repr

/-- A unit's membership of the failure set (R215, R216): the sources that placed it, and how many samples each source has read
healthy since. -/
structure UnitSt where
  placed : Nat
  runs : List Nat
deriving DecidableEq, Repr

/-- The failure set: thrusters, sections and generators as bit sets. -/
structure LSet where
  thr : Nat
  sect : Nat
  gen : Nat
deriving DecidableEq, Repr

/-- Source words of R215: for each of the seven sources, the units it reports, as bit sets over thrusters, then sections, then
generators (bits 0 to 63, 64 to 71, 72 to 87). -/
structure SrcWord where
  src : List Nat
  /-- TIME_STATE, EST_ERR, SUPPR_SEC and MISS_CNT as latched at the sample (R505). -/
  tel : List Nat
deriving DecidableEq, Repr

/-- The forces of one thruster. -/
structure ThrForce where
  thr : Nat
  f : List Nat
deriving DecidableEq, Repr

/-- What R219 and R220 read of a scenario: its effective set, COVER, a condition variant, its comparator ACTIVE. -/
structure SelRow where
  e : LSet
  cover : Nat
  cond : Bool
  active : Bool
deriving DecidableEq, Repr

/-- One row of a WIDEN table (R225): 0 = lane 0, 1 = lane 1, 2 + k = scenario k; eligible; its lane and REG; the forces of the device's
thrusters. -/
structure TableRow where
  src : Nat
  ok : Bool
  lane : Nat
  reg : Bool
  f : List ThrForce
deriving DecidableEq, Repr

/-- A thruster as a WIDEN table gives it: its kind, its section and T_WEDGE_MIN (R198, R211). -/
structure WidenThr where
  kind : Nat
  sect : Nat
  wedgeMin : Nat
deriving DecidableEq, Repr

/-- The master's table of a cycle (R225): whether it allocates, its standing scenario and RETURN_N, the thrusters, each generator's section,
each scenario, and the results. A device whose image has no ALLOCATION and SCENARIOS needs these to apply R211, R216, R219 and R220 to the
same table (notes/assumptions/94). -/
structure WidenTable where
  runs : Bool
  stand : Nat
  returnN : Nat
  thr : List WidenThr
  gens : List Nat
  scens : List SelRow
  rows : List TableRow
deriving DecidableEq, Repr

/-- Allocation beside the registers (spec/06): committed cycles newest first, units (thrusters 0 to 63, sections 64 to 71,
generators 72 to 87), runs of missing feedback and of deviation per thruster, runs of stale power items, the last summary, and
under DEEPEN and WIDEN what the string has brought. -/
structure AllocSt where
  past : List AllocRef
  units : List UnitSt
  fbMiss : List Nat
  dev : List Nat
  pwrRun : Nat
  /-- The cycle after the newest one whose power items have been looked at (R217). -/
  pwrNext : Nat
  summary : Nat
  /-- Descriptors ask for a warm start: the first dispatch after a cold start has been made (R89, R236). -/
  warm : Bool
  /-- DEEPEN, master: per thruster of kind 4 its reported box (CAP_NEG, CAP_POS per force row). -/
  boxes : List (Nat × List Nat × List Nat)
  /-- DEEPEN, group: shares by master cycle, newest first. -/
  shares : List (Nat × List Nat)
  /-- WIDEN, device: eligibility tables by cycle. -/
  tables : List (Nat × WidenTable)
  /-- Thrusters of kind 4 whose group has reported a box since the last sample (R226). -/
  boxNew : Nat
  /-- The lanes that lane 0's and lane 1's job last ran on (R209). -/
  prim : List Nat
  /-- The memory map of each lane, as the image build lays it out (R231, R234). -/
  maps : List LaneMap
deriving DecidableEq, Repr

/-- One scenario's judgement in a cycle (R218, R223). -/
structure Verdict where
  verdict : Nat
  force : Bool
  power : Bool
  reg : Bool
  cls : Nat
  shortPm : Nat
  margin : Nat
deriving DecidableEq, Repr

/-- What a read of an encoder brings (R261, R263): the data line before the first edge, the word, the zero check. -/
structure EncXfer where
  cyc : Nat
  k : Nat
  tFirst : Int
  shared : Bool
deriving DecidableEq, Repr

/-- A forwarded transfer of the drive (R266): its first falling edge, and its word once it has been read. -/
structure RelaySt where
  tFirst : Int
  word : Option EncWord
deriving DecidableEq, Repr

/-- The result of the k = 0 sample of a position channel (R264). -/
structure EncRes where
  pos : Nat
  spd : Nat
  tArr : Int
  valid : Bool
  spdValid : Bool
  qerr : Bool
  shared : Bool
  still : Bool
  held : Bool
  reason : Nat
deriving DecidableEq, Repr

/-- A position channel beside its registers (R261 to R271). Times are corrected, in 2^−16 ns; edge times are raw. -/
structure ChanSt where
  /-- The transfer whose word is awaited. -/
  xfer : Option EncXfer
  owns : Bool
  /-- Raw end of the last monoflop and of the last deferred clocking. -/
  monoEnd : Int
  relay : Option RelaySt
  deferRun : Bool
  bad : Bool
  lastV : Option (Nat × Int)
  prevOk : Bool
  jump : Option Nat
  count : Nat
  a : Bool
  b : Bool
  /-- Legal edges since the last reversal, newest first: raw time. -/
  edges : List Int
  dir : Option Bool
  legal : Nat
  lastEdge : Option Int
  qerr : Bool
  illRun : Bool
  spd : Option Nat
  /-- The cycle of the last sample, its T0 and the next sample of that cycle (R261). -/
  base : Option (Nat × Int × Nat)
deriving DecidableEq, Repr

/-- A compare unit beside its registers (R272, R273): the previous valid angle since arming. -/
structure CmpuSt where
  prev : Option Nat
deriving DecidableEq, Repr

/-- A compare event (R274): its cycle, instant, unit and routes. -/
structure FldEvent where
  cyc : Nat
  tv : Int
  u : Nat
  log : Bool
  irq : Bool
deriving DecidableEq, Repr

/-- A PWM pin (R260): the newest committed high time, the high time of the running period, both in FLD clocks. -/
structure PwmSt where
  pin : Nat
  next : Nat
  cur : Nat
deriving DecidableEq, Repr

/-- The live feedback of an axis (R279): value, type, validity, instant. -/
structure AxisFb where
  val : Nat
  ctype : Nat
  valid : Bool
  t : Int
deriving DecidableEq, Repr

/-- A drive (R276): port and DRIVE_ID (8 + controller and axis for feedback over CAN, R351), last accepted FB_SEQ, STATUS bits, a valid
frame since the last failure sample, the runs of rejected and of unavailable frames, rejected and duplicate frames, the settled
format of this device and of the partner, and the format in force since the last commit (R445, 0 = none). -/
structure DriveSt where
  port : Nat
  id : Nat
  rej : Nat
  dup : Nat
  fmt : Nat
  pfmt : Nat
  inForce : Nat
  seq : Option Nat
  status : Nat
  fresh : Bool
  rejRun : Bool
  unavRun : Bool
deriving DecidableEq, Repr

/-- Field pins, channels, compare units and drives beside the registers (spec/08). -/
structure FldSt where
  ch : List ChanSt
  cmp : List CmpuSt
  events : List FldEvent
  /-- Levels that the DOUT pins drive, as a bit set, and the pins a compare unit has driven since the last commit. -/
  out : Nat
  pwm : List PwmSt
  /-- The output pins stand at their hold policy or SAFE_LEVEL (R89, R257). -/
  parked : Bool
  fb : List AxisFb
  drives : List DriveSt
  /-- FLD_EVT bits of missed cycles, to be set at the next commit. -/
  evtDue : Nat
deriving DecidableEq, Repr

/-- A frame in a transmit queue (R338 to R341): octets from the destination address to the last payload octet, target count of a timed
frame, frame definition, cycle, and whether it was handed over after its target. -/
structure TxFrame where
  data : List Byte
  target : Option Nat
  def_ : Option Nat
  cyc : Option Nat
  late : Bool
  /-- The sequence number of the Delay_Req that the frame carries (R323). -/
  dreq : Option Nat
deriving DecidableEq, Repr

/-- An Ethernet port beside its registers (spec/11): queues 0 to 7, the frame on the wire, runs of reported losses. -/
structure PortSt where
  q : List (List TxFrame)
  wire : Option TxFrame
  rxRun : Bool
  fullRun : Bool
  lateRun : Bool
  dropRun : Bool
deriving DecidableEq, Repr

/-- One MDIO frame (R333): from the host or an initialisation write of a port, Clause 45, operation, PHY address, register or DEVAD,
data, and the value a read-back must give. -/
structure MdioOp where
  host : Bool
  port : Nat
  c45 : Bool
  op : Nat
  phy : Nat
  reg : Nat
  data : Nat
  verify : Option Nat
deriving DecidableEq, Repr

/-- The Ethernet side: ports, MDIO frames waiting (the head is on the wire), and octets for the Ethernet RTCM parser (R158). -/
structure NetSt where
  ports : List PortSt
  mdio : List MdioOp
  rtcm : List Byte
deriving DecidableEq, Repr

/-- A CAN frame as received (R352): word 0 and word 1 of its record, arrival count, data. -/
structure CanRec where
  w0 : Nat
  w1 : Nat
  cnt : Nat
  data : List Byte
deriving DecidableEq, Repr

/-- A transmit buffer beside its registers (R350, R354, R355): the target of content that waits for its instant, content that waits
for the end of an attempt, a pending request, a cancel that waits for the end of the attempt, attempts in limited-retry service,
and the cycle of a CYCLE content. -/
structure TxBufSt where
  target : Option Nat
  next : Option (List Byte × Nat × Nat)
  pend : Bool
  cancel : Bool
  lim : Nat
  cyc : Nat
deriving DecidableEq, Repr

/-- A message-set probe (R447): a probe still to be sent, one being sent under an attempt limit, the count until which a reply is
awaited, and whether the set is settled. -/
structure ProbeSt where
  due : Bool
  sending : Bool
  waitTo : Option Nat
  settled : Bool
  /-- A reply that answers a partner's probe, still to be sent. -/
  reply : Bool
  /-- Attempts of the probe that have failed (R350, R447). -/
  lim : Nat
deriving DecidableEq, Repr

/-- A CAN controller beside its registers (spec/11). -/
structure CanSt where
  rxq : List (List CanRec)
  hpb : Option CanRec
  bufs : List TxBufSt
  probe : ProbeSt
  recovering : Bool
  pexRun : Bool
  lateRun : Bool
  ovfRun : Bool
  tdcRun : Bool
  /-- The count at which the controller stopped or fell silent: an attempt begun by then still ends (R89, R356, R358). -/
  endAt : Nat
deriving DecidableEq, Repr

/-- A safety function beside its registers (R288 to R292): state code, fault reason, the reset it waits for, SYNC_WAIT, the SAFE
clock of its trip, the starts of its pairs' discrepancies, the clocks at which its pairs became permissive, and whether all its
channels have been at rest since it left RUN. -/
structure SafFn where
  state : Nat
  why : Nat
  manual : Bool
  syncWait : Bool
  syncSaid : Bool
  tripAt : Nat
  disc : List (Option Nat)
  perm : List (Option Nat)
  rested : Bool
deriving DecidableEq, Repr

/-- A queued safety event (R301): code, function, tick number. -/
structure SafEvent where
  code : Nat
  fn : Nat
  tick : Nat
deriving DecidableEq, Repr

/-- The safety evaluator (spec/09): its active configuration, SAFE clocks and ticks, input levels, functions, outputs, test pulses
and event queue. Balls are numbered 2x for SIxA, 2x + 1 for SIxB; output switches 2o and 2o + 1. -/
structure SafSt where
  conf : Option (List Byte)
  clk : Nat
  tick : Nat
  raw : Nat
  acc : Nat
  fns : List SafFn
  internal : Bool
  cmd : Nat
  rb : Nat
  /-- Ticks for which each switch has read against its command. -/
  wrong : List Nat
  /-- Ticks for which each output's switches have both read an off command. -/
  offOk : List Nat
  rbFault : Nat
  stp : Nat
  /-- Per STP: balls checked and balls watched for a cross-short in the running pulse. -/
  own : List Nat
  cross : List Nat
  miss : List Nat
  /-- The switch whose dark pulse comes next, per output. -/
  darkSide : Nat
  press : Option Nat
  stuck : Bool
  queue : List SafEvent
  /-- SAFE clocks of the last tick, of the last test pulse per STP and of the last dark pulse per output (R282, R289, R297). -/
  tickAt : Option Nat
  pulseAt : List (Option Nat)
  darkAt : List (Option Nat)
deriving DecidableEq, Repr



/-- The inputs of a cycle, as its journal record keeps them (R372), with the settings in force at its T0 (R377). -/
structure CycIn where
  t0c : Int
  cfg : RegFile
  mode : Nat
  sps : List Nat
  /-- Corrected T0 at which the set in force was taken (R42). -/
  spT0 : Int
  /-- Groups that take part, as a bit set of R84, and their settings generations. -/
  runs : Nat
  gens : List Nat
  took : Bool
  swap : Bool
  reinit : Bool
  bank : Nat
  din : Nat
  dout : Nat
  held : List HeldSlot
  smp : List FirSample
  enc : List (Nat × EncRes)
  fb : List AxisFb
deriving DecidableEq, Repr

/-- How far a cycle has come: the last stage that started (0 before T0 is through), whether it runs, its start in counts, the hand-over
of R30, and the marks of replay and re-run. -/
structure CycRun where
  stage : Nat
  running : Bool
  began : Nat
  handed : Bool
  /-- A replay of this cycle is in progress (R379). -/
  again : Bool
  /-- This cycle was squashed and re-runs (R380). -/
  rerun : Bool
  replays : Nat
  /-- The cycle waits for the end of the replay of its predecessor. -/
  wait : Bool
  ready : Bool
  snapOk : Bool
  /-- Pairs (R395, R396): agreement of the cycle is settled; it was SOLO; L(n) was SOLO. -/
  agreed : Bool
  solo : Bool
  srcSolo : Bool
  /-- Its outputs are sent (R90, R391, R404). -/
  sends : Bool
  /-- Stages that have ended, with their END in µs (R507). -/
  ends : List (Nat × Nat)
  /-- The anchor in force at T0, which turns the cycle's deadlines into counts (R314), and what time steps have added since. -/
  aCnt : Nat
  aT : Int
  aRate : Int
  step : Int
deriving DecidableEq, Repr

/-- What stages 2 to 7 of a cycle have produced. -/
structure CycOut where
  chans : List FltCh
  events : List CmpEvent
  vote : Option VoteOut
  oce : Option OceOut
  tau : List Nat
  jobs : List Job
  /-- The lanes that lane 0's and lane 1's job of this cycle went to (R209, R250). -/
  prim : List Nat
  standing : Nat
  verdicts : List Verdict
  /-- The telemetry payload from SOURCE_ID to FORCES, and CA_BITS (R504). -/
  tele : List Byte
  caBits : List Byte
deriving DecidableEq, Repr

/-- The snapshot of a cycle (R376): filter channels, voting state and observer as its stages 2, 3 and 4 found them. -/
structure CycSnap where
  ch : List FltCh
  ref : RefSt
  oce : OceSt
deriving DecidableEq, Repr

/-- The failure sample of a cycle (R214): own source words, the partner's, and L(n). -/
structure CycFail where
  own : SrcWord
  partner : Option SrcWord
  /-- The source words of other devices of a string (R225). -/
  peers : List SrcWord
  /-- L(n) has been formed. -/
  formed : Bool
  l : LSet
deriving DecidableEq, Repr

/-- A committed axis command (R253, R255). -/
structure AxisRes where
  val : Nat
  stby : Bool
deriving DecidableEq, Repr

/-- What a commit decides (R220, R221). -/
structure CommitRec where
  scen : Nat
  noMatch : Bool
  src : Nat
  lane : Nat
  reg : Bool
  f : List (List Nat)
  theta : List Nat
  tauA : List Nat
  /-- Thrusters at standby, as a bit set. -/
  dropped : Nat
  /-- Commands repeated (R275). -/
  repeated : Bool
  axes : List AxisRes
deriving DecidableEq, Repr

/-- A cycle in flight (R28). -/
structure Cyc where
  n : Nat
  /-- CNT of T0(n). -/
  t0 : Nat
  missed : Bool
  committed : Bool
  /-- Further register values that appear together at the commit (O5, R33). -/
  results : List (Fld × Nat)
  /-- Incident entries that wait for the commit or the miss (R515), oldest first. -/
  entries : List Incident
  /-- Codes already reported for this cycle, with their unit and detail (R379). -/
  reported : List (Nat × Nat)
  inp : CycIn
  run : CycRun
  out : CycOut
  snap : CycSnap
  fail : Option CycFail
  commit : Option CommitRec
deriving DecidableEq, Repr

/-- The sequencer beside its registers. -/
structure SeqSt where
  /-- Cycles in flight, oldest first, at most two (R28). -/
  cycs : List Cyc
  /-- An OCE_CTRL.REINIT request waits for the next T0 (R184). -/
  reinit : Bool
  /-- Corrected T0 of the next cycle, in 2^−16 ns, and the number it takes. -/
  nextT0 : Int
  nextN : Nat
  /-- What the phase walk still has to add to the chain (R20). -/
  walk : Int
  /-- Consecutive missed cycles (R39). -/
  missRun : Nat
  /-- Missed cycles whose predecessor is still undecided (R39). -/
  missNext : Nat
  /-- Incident entries of a missed cycle that wait for those of its predecessor (O6, R515). -/
  late : List Incident
  spT0 : Int
  /-- Settings generations of the groups (R377), by their bits of R84. -/
  gens : List Nat
  /-- Commands as last committed, repeated by HOLD and the hold rows of R220. -/
  last : Option CommitRec
  /-- FLT_EVT bits of missed cycles, to be set at the next commit (R113), and the level of ALIVE (R386). -/
  evtDue : Nat
  alive : Bool
  /-- A W or C reset asks for the restart of R383; that restart has failed, which holds FAULT_N low (R386). -/
  resumeDue : Bool
  restartFail : Bool
deriving DecidableEq, Repr

/-- A record of the cycle journal (R371, R372): cycle, STATUS, FLAGS, CNT at T0, IMAGE_TAG, and what its blocks hold: the inputs (HELD,
SAMPLES, FIELD, HOST), the failure words and L(n), the commit; copied to NAND; a word of it became uncorrectable. -/
structure JnlRec where
  n : Nat
  status : Nat
  flags : Nat
  t0 : Nat
  tag : Nat
  inp : Option CycIn
  fail : Option CycFail
  commit : Option CommitRec
  digest : Nat
  copied : Bool
  bad : Bool
deriving DecidableEq, Repr

/-- A checkpoint (R376, R378): the snapshot of cycle `n` with the counters of R215 and R216 and the committed cycles behind it. -/
structure Ckpt where
  n : Nat
  lost : Bool
  snap : CycSnap
  units : List UnitSt
  fbMiss : List Nat
  dev : List Nat
  past : List AllocRef
  last : Option CommitRec
  mode : Nat
  sps : List Nat
  spT0 : Int
deriving DecidableEq, Repr

/-- A fault that is detected (R361 to R369): mechanism, unit and index as ERR_LAST codes them, the cycle whose work failed, the word or
page, found by the Mower, injected, and whether R364 asks for a replay. -/
structure FaultIn where
  mech : Nat
  unit : Nat
  index : Nat
  cyc : Option Nat
  addr : Nat
  mower : Bool
  inj : Bool
  replay : Bool
deriving DecidableEq, Repr

/-- Fault handling beside the registers (R363, R368, R388): class T faults of the last 1,000 cycles (unit, index, cycle), words
corrected in the running Mower pass, the hard-bit table, an injection that waits for its unit's next operation, the journal block
(cycle, type) that has been rewritten once, and a class S fault that came from the JTAG port (R387). -/
structure ErrSt where
  hist : List (Nat × Nat × Nat)
  corr : List Nat
  hard : List Nat
  inj : Option (Nat × Nat × Nat)
  rewrote : Option (Nat × Nat)
  jtag : Bool
deriving DecidableEq, Repr

/-- The cycle journal and the checkpoints (R371 to R378): records on the die by slot, the NAND copies newest first, the two
checkpoint buffers, the buffer the next checkpoint takes, and a run of mirror gaps. -/
structure JnlSt where
  ring : List (Nat × JnlRec)
  nand : List JnlRec
  ckpt : List (Option Ckpt)
  next : Nat
  gapRun : Bool
deriving DecidableEq, Repr

/-- An input agreement block (R395): HELD, SAMPLES, FIELD (words, DIN levels and the DIN pins assigned, compare events) or HOST. -/
inductive AgreeBlk where
  | held (l : List HeldSlot)
  | samples (l : List FirSample)
  | field (enc : List (Nat × EncRes)) (din : Nat) (pins : Nat) (ev : List FldEvent)
  | host (took : Bool) (mode : Nat) (sps : List Nat) (swap : Bool) (reinit : Bool) (dout : Nat)
deriving DecidableEq, Repr

/-- What the partner has sent of a cycle (R395 to R400): its agreement blocks, its failure word, its digest (none of a MISSED marker)
with CLEAN, its COMMIT block. -/
structure PartCyc where
  n : Nat
  blks : List AgreeBlk
  src : Option SrcWord
  dig : Option (Option Nat × Bool)
  commit : Option CommitRec
deriving DecidableEq, Repr

/-- Resynchronisation in hand (R403): the checkpoint received, records received in order, saved iterates, and the tag announced. -/
structure ResyncSt where
  ckpt : Option Ckpt
  recs : List JnlRec
  tag : Nat
  broken : Bool
deriving DecidableEq, Repr

/-- Pairs, Reserve and feeds beside the registers (spec/13). -/
structure RedSt where
  parts : List PartCyc
  /-- Own digests by cycle, with CLEAN; none for a miss. -/
  digs : List (Nat × Option Nat × Bool)
  /-- Missed cycles whose commit may still be adopted. -/
  missed : List Nat
  /-- A promotion or stand-down waits for the next T0 (R404); this member stops sending at the next T0 (R391, R393, R399). -/
  promote : Bool
  standDown : Bool
  stop : Bool
  /-- LEAD from the next commit (R401). -/
  leadNext : Bool
  resync : Option ResyncSt
  /-- The partner's SEQ state and whether it sends, as its last HELLO says. -/
  pState : Nat
  pSends : Bool
  /-- Resynchronisation attempts have ended (R403). -/
  gaveUp : Bool
  activated : Bool
  /-- Piste training of an activated Reserve: CNT (R408). -/
  since : Option Nat
  /-- A mirror session runs (R405); its sending member reports fewer than two sending members (R407). -/
  mirror : Bool
  few : Bool
  /-- WAKE_N fell during the session (R413). -/
  wakeN : Bool
  /-- Skipped wakes that the next session reports. -/
  skips : Nat
  nandCk : List (Option Ckpt)
  /-- LAST_GASP has been written and no feed has been out of warning for t_RET since (R412). -/
  gasp : Bool
  /-- Main feeds lost and not restored since, as a bit set (R411). -/
  down : Nat
  /-- MIRROR_I · P in ns, as the always-on wake timer of a sleeping Reserve keeps it (R405); 0 = no timer. -/
  wakeI : Nat
deriving DecidableEq, Repr

/-- The routing header of a received Piste frame (R419): port (0 A, 1 B, 2 through the string head), addresses, broadcast flags, hops,
cycle. -/
structure PstHdr where
  port : Nat
  src : Nat
  dst : Nat
  bstr : Bool
  ball : Bool
  hops : Nat
  cyc : Nat
deriving DecidableEq, Repr

/-- The content of a HELLO (R418): role, MASTER_EN, STRUCT_TAG, PAIR_ADDR, offered versions (major, lowest and highest minor), P, C and
SEQ_T0_PHASE, the change held and the change last applied; and the sender's SEQ state and whether it sends. -/
structure HelloData where
  role : Nat
  masterEn : Bool
  tag : Nat
  pair : Nat
  offers : List (Nat × Nat × Nat)
  period : Nat
  commit : Nat
  phase : Nat
  held : Option Nat
  applied : Option Nat
  state : Nat
  sends : Bool
deriving DecidableEq, Repr

/-- A Piste port beside its registers (R415 to R425); the third is the way through the string head (R424). -/
structure PstPort where
  peer : Option HelloData
  /-- CNT of the last HELLO and of the start of the running training step. -/
  helloAt : Nat
  stepAt : Nat
  failRun : Bool
  addrBad : Bool
  masterBad : Bool
  timingBad : Bool
  /-- The last values of d, newest first (R425). -/
  d : List Int
deriving DecidableEq, Repr

/-- A cascade change on the master (R436 to R439). -/
structure McMaster where
  id : Nat
  groups : Nat
  devs : List Nat
  wait : List Nat
  since : Nat
  sealing : Bool
  k : Option Nat
  applied : List Nat
deriving DecidableEq, Repr

/-- A change that this device holds (R437 to R439): identifier, groups, whether ACK has been sent, the vote, k, COMMIT received. -/
structure McHeld where
  id : Nat
  groups : Nat
  src : Nat
  acked : Bool
  voted : Bool
  k : Option Nat
  commit : Bool
deriving DecidableEq, Repr

/-- An imported job (R152, R433): exporter or reference node, its scenario or job number, the job, and whether a residue fault has made it run
once more. -/
structure ImpJob where
  src : Nat
  scen : Nat
  job : Job
  again : Bool
deriving DecidableEq, Repr

/-- Piste and the cascade beside the registers (spec/14). -/
structure PstSt where
  ports : List PstPort
  noRoute : List Nat
  /-- ALIGN received in the running cycle; ALIGN_LOST reported for the run. -/
  got : Bool
  lostRun : Bool
  masterLost : Bool
  /-- The device that acts as master by its notice or its ALIGN, when that is not MASTER_ADDR (R428). -/
  backup : Option Nat
  handback : Bool
  /-- A group stop, hold or release that PREPARE, COMMIT or ABORT brings at the next T0. -/
  master : Option McMaster
  held : Option McHeld
  lastApplied : Option Nat
  nextId : Nat
  /-- The device holds groups stopped for a change it was refused or lost (R440). -/
  tunAt : Option Nat
  /-- Image distribution: targets yet to answer. -/
  imgd : List Nat
  /-- SHA-384 of the octets distributed (R435). -/
  imgdDig : List Byte
  /-- JOIN sent and unanswered; JOINs to answer at the next T0 (R431). -/
  joining : Bool
  joins : List Nat
  /-- The cycle at which a joining device enters RUN, with its T0. -/
  joinAt : Option (Nat × Int)
  imports : List ImpJob
deriving DecidableEq, Repr

/-- What a SHARE frame brings (R225, R226): the eligibility table of a WIDEN cycle, a group's box by thruster (CAP_NEG and CAP_POS), a
group's share. The spec names no frame type for the intake slots that another device offers (R95, kind 4): the model brings them here, slot
`i` of the sender with its values, t_arr, t_src and INVALID (notes/assumptions/87). -/
inductive ShareMsg where
  | table (w : WidenTable)
  | box (thr : Nat) (neg : List Nat) (pos : List Nat)
  | share (f : List Nat)
  | slot (i : Nat) (vals : List Nat) (tArr : Int) (tSrc : Option Int) (invalid : Bool)
deriving DecidableEq, Repr

/-- What a TUNNEL frame brings (R434, R542): an access, its answer with TUN_STS.RESULT's code, a mailbox message for inbound mailbox `m`,
its answer with the mailbox result code. -/
inductive TunMsg where
  | req (write : Bool) (ofs : Nat) (data : Nat)
  | ans (result : Nat) (data : Nat)
  | mbx (m : Nat) (data : List Byte)
  | mbxAns (m : Nat) (result : Nat)
deriving DecidableEq, Repr

/-- What an IMAGE frame brings (R435): octets of the image at an offset, the last ones marked; a target's digest. -/
inductive ImgMsg where
  | part (off : Nat) (b : List Byte) (last : Bool)
  | digest (b : List Byte)
deriving DecidableEq, Repr
/-- An entry of the ephemeris and almanac store (R145): system, satellite, almanac or ephemeris, issue of data, content, confirmed by a
broadcast since the start, and in effect (from the first cycle epoch after its decode). -/
structure NavEntry where
  sig : Nat
  prn : Nat
  alm : Bool
  iod : Nat
  words : List Nat
  confirmed : Bool
  inForce : Bool
deriving DecidableEq, Repr

/-- A tracking channel (R135 to R140, R142). `sig` 0 = idle. `pull`: the FLL acts alone, until the count `pullEnd`. The replica at the
count `since`: `code` its code phase in 2^−32 chip of the week (before TOW_KNOWN modulo the primary code), `car` its carrier in 2^−32
cycle, `dop` the carrier's frequency in 2^−16 mHz, `vel` and `acc` the integrators of its filter in 2^−16 mHz and 2^−16 mHz/s, `cr` the
code rate that the DLL adds in 2^−32 chip/s. `prompts`: the last 50 prompts; `up` and `low`: runs of C/N0 at or above CN0_LOCK and below
CN0_LOSS; `bj`: run of R135; `slip`: a slip cause since the last epoch; `clean`: epochs without slip since LOCK_RESTART set; `lockAt`:
count from which LOCK_MS counts; `half`: the data polarity is not resolved; `inv`: 0.5 cycle is added; `smooth`: smoothed pseudorange in
2^−20 m, the phase it stands at, and its epochs (R149). -/
structure GnsCh where
  sig : Nat
  prn : Nat
  pull : Bool
  pullEnd : Nat
  since : Nat
  code : Nat
  car : Int
  dop : Int
  vel : Int
  acc : Int
  cr : Int
  prompts : List (Int × Int)
  cn0 : Nat
  up : Nat
  low : Nat
  codeLock : Bool
  carrLock : Bool
  bj : Nat
  slip : Bool
  restart : Bool
  clean : Nat
  lockAt : Option Nat
  slips : Nat
  half : Bool
  inv : Bool
  tow : Bool
  sync : Bool
  range : List Nat
  smooth : Option (Int × Int × Nat)
deriving DecidableEq, Repr

/-- An acquisition job (R132 to R134): class (1 aided, 2 warm, 3 cold), antenna, signal, satellite, the pass that runs, of how many, the
grid's origin (the code phase of code bin 0 in 2^−32 chip and the Doppler of Doppler bin 0 in mHz), and a detection whose verification pass
runs: mean, code bin, Doppler bin. -/
structure AcqJob where
  cls : Nat
  ant : Nat
  sig : Nat
  prn : Nat
  pass : Nat
  passes : Nat
  code0 : Nat
  dop0 : Int
  ver : Option (Nat × Nat × Int)
deriving DecidableEq, Repr

/-- A front-end write (R130): antenna, address, data, read-back, and whether it is a gain write. -/
structure SpiOp where
  ant : Nat
  addr : Nat
  data : Nat
  back : Bool
  gain : Bool
deriving DecidableEq, Repr

/-- A satellite of a double difference with its integer (R154, R156): signal, PRN; the integer counts from a common zero of the system,
so that a difference of two is a double difference's integer whatever the reference. -/
structure HeldSat where
  sig : Nat
  prn : Nat
  n : Int
deriving DecidableEq, Repr

/-- A fitted candidate of a search (R154, R155): residual Ω, baseline b, its place among the survivors. -/
structure FitCand where
  omega : Nat
  b : List Nat
  i : Nat
deriving DecidableEq, Repr

/-- A baseline (R154 to R156): fixed, the fixed set with its integers, epochs in a row with the residual above OMEGA_MAX, its current b in
binary32 m, and of the running search the survivors in order, each as the fixed set it would give, and the fits so far. -/
structure BaseSt where
  fixed : Bool
  sats : List HeldSat
  high : Nat
  b : List Nat
  cands : List (List HeldSat)
  fits : List FitCand
deriving DecidableEq, Repr

/-- A GNSS job of an epoch that has not been dispatched (R146): kind (0 PVT, 1 re-solve, 2 velocity, 3 search, 4 fixed baseline,
5 attitude), baseline, batch; it was run once already after a residue fault. -/
structure GnsPlan where
  kind : Nat
  base : Nat
  batch : Nat
deriving DecidableEq, Repr

/-- The position solution as the GNS_PVT registers show it (R148 to R151). -/
structure GnsSol where
  mode : Nat
  excluded : Bool
  nsat : Nat
  exclCh : Nat
  sys : Nat
  n : Nat
  e : Nat
  d : Nat
  sigH : Nat
  clk : Nat
  vn : Nat
  ve : Nat
  vd : Nat
deriving DecidableEq, Repr

/-- The attitude solution as the GNS_ATT registers show it (R154 to R157). -/
structure GnsAtt where
  valid : Bool
  fixed : Nat
  trunc : Bool
  surv : Nat
  hdg : Nat
  pitch : Nat
  roll : Nat
  sigH : Nat
deriving DecidableEq, Repr

/-- A record latched at an epoch (R143): channel, system, satellite, validity and flags of R138 to R140, slip, measurement, C/N0. -/
structure GnsRec where
  c : Nat
  sig : Nat
  prn : Nat
  valid : Bool
  codeLock : Bool
  carrLock : Bool
  half : Bool
  restart : Bool
  slip : Bool
  tow : Bool
  cn0 : Nat
  m : GnsMeas
  /-- Pseudorange in 2^−20 m, smoothed where SMOOTH_T asks for it (R149). -/
  rho : Int
deriving DecidableEq, Repr

/-- The work of one cycle epoch (R146): cycle, the number of its next epoch (R141), its records, corrected time, channels the PVT uses, the
one excluded, jobs still to be dispatched, PVT valid, no more attitude. -/
structure GnsEpoch where
  n : Nat
  kNext : Nat
  t : Int
  recs : List GnsRec
  used : List Nat
  excl : Option Nat
  plan : List GnsPlan
  pvt : Option Bool
  redo : List Nat
  /-- New fixes of this epoch have been judged (R155). -/
  judged : Bool
deriving DecidableEq, Repr

/-- A satellite of a base epoch (R159): signal, PRN, the base's pseudorange in 2^−20 m. -/
structure BaseSat where
  sig : Nat
  prn : Nat
  rho : Int
deriving DecidableEq, Repr

/-- A base epoch of differential corrections (R159, R160): station, time of week in ms of GPS time, the satellites it observed. -/
structure BaseEpoch where
  station : Nat
  tow : Nat
  sats : List BaseSat
deriving DecidableEq, Repr

/-- The GNSS baseband beside its registers (spec/04). -/
structure GnsSt where
  /-- GCLK is present; the rate is out of tolerance (R127). -/
  lost : Bool
  rateBad : Bool
  /-- Per antenna: windows in a row out of range and in range, fault by occupancy, fault by FE_SPI (R129, R130). -/
  out : List Nat
  good : List Nat
  occBad : List Bool
  spiBad : List Bool
  spi : List SpiOp
  /-- The bank's job and the satellites that ended absent, oldest first: class, antenna, signal, PRN (R133). -/
  acq : Option AcqJob
  absent : List (Nat × Nat × Nat × Nat)
  chs : List (Nat × GnsCh)
  store : List NavEntry
  nand : List NavEntry
  /-- The count at which the store is next due for NAND (R145). -/
  saveAt : Nat
  iono : List Nat
  fifo : List Byte
  station : Option (Nat × List Byte)
  building : Option BaseEpoch
  base : Option BaseEpoch
  aged : Bool
  /-- SIGNALS_RETURN is due at the next valid PVT. -/
  back : Bool
  sol : GnsSol
  att : GnsAtt
  /-- Corrected time of the last valid PVT, and its position words. -/
  lastPvt : Option Int
  bases : List BaseSt
  epoch : Option GnsEpoch
  /-- GNSS jobs of the newest epoch; a node's stand for those its lane device runs (R152), on lanes from 64. -/
  jobs : List Job
  /-- Jobs of reference nodes that wait for a free GNSS lane, by source address, oldest first (R146, R152). -/
  wait : List (Nat × Job)
deriving DecidableEq, Repr

/-- A key slot of the OTP (R474): purpose (0 = empty), compressed public key, REVOKED. -/
structure KeySlot where
  purpose : Nat
  key : List Byte
  revoked : Bool
deriving DecidableEq, Repr

/-- An audit entry (R490): number, time words as one corrected time (0 while UNSET), code, detail, chain value. -/
structure AuditEnt where
  aseq : Nat
  time : Nat
  code : Nat
  detail : Nat
  chain : List Byte
deriving DecidableEq, Repr

/-- A handshake that waits for FIN (R486): session number, port, HOST slot, transcript hash, secret of the session keys, format 3 minor,
CNT of RESP. -/
structure HandSt where
  id : Nat
  port : Nat
  slot : Nat
  th : List Byte
  secret : List Byte
  minor : Nat
  since : Nat
deriving DecidableEq, Repr

/-- An open session (R487): number, place n of SEC_SESSn, port, slot, keys of both directions, the highest SEQ accepted and those of the
64 below it, records accepted and sent, the settled telemetry minor, CNT of opening and of the last valid record. -/
structure SessSt where
  id : Nat
  place : Nat
  port : Nat
  slot : Nat
  keyIn : List Byte
  keyOut : List Byte
  high : Nat
  seen : List Nat
  nIn : Nat
  nOut : Nat
  minor : Nat
  openAt : Nat
  lastAt : Nat
deriving DecidableEq, Repr

/-- The security block beside its registers (spec/16). -/
structure SecSt where
  /-- LIFECYCLE: two bits per transition. -/
  life : Nat
  slots : List KeySlot
  /-- IMG_KEY_WRAP: the image key as it stands in the OTP, wrapped under K("WRAP") (R474). -/
  imgKey : List Byte
  /-- The MIN_SECVER words programmed, in order. -/
  minVer : List Nat
  /-- Number of challenges, ephemeral keys and nonces drawn; the challenge in force is the draw `chal`. -/
  draws : Nat
  chal : Nat
  /-- Refused and failed unlocks since the last P, H, S or Z reset (R484). -/
  unlocks : Nat
  hand : List HandSt
  sess : List SessSt
  nextId : Nat
  /-- Per port: consecutive failed handshakes, and the CNT at which a lockout began. -/
  fails : List Nat
  lockAt : List (Option Nat)
  /-- The on-die audit ring and the NAND ring, newest first; entries not yet copied; a run of lost entries; next word of the entry
  read. -/
  ring : List AuditEnt
  nand : List AuditEnt
  uncopied : Nat
  lostRun : Bool
  rdWord : Nat
  /-- A first image BUILD has taken place since the reset (R492). -/
  built : Bool
deriving DecidableEq, Repr


/-- The recorder and the background activities beside the registers (spec/17): histogram bins (256·h + b) with the snapshot of bins and of
instrument registers, clears that wait for the next commit, misses seen at the last commit, the slack of stage 9 of the last committed
cycle in µs, the Mower, the run of readings above 155 °C, the CNT at which the next FRC trim, temperature reading and SerDes adaptation
(lanes as in SERDES_ADAPT) are due, and the NAND layout: its geometry (blocks, page and block size in KiB; none before the first layout),
the block size and the blocks of the journal area. -/
structure RecSt where
  bins : Sparse Word
  snapBins : Sparse Word
  snapRegs : RegFile
  clrHist : Nat
  clrTrk : Nat
  missSeen : Nat
  slack9 : Option Nat
  mowerAt : Option Nat
  mowerNext : Nat
  mowerDue : Bool
  tempRead : Bool
  hot : Nat
  trimNext : Nat
  tempNext : Nat
  serdesNext : List Nat
  geom : List Nat
  blockKib : Nat
  jnlBlocks : Nat
  patrolAt : Int
deriving DecidableEq, Repr

/-- A clock domain beside its register (R453 to R461): gated by the host, gated for DOZE, a requested gate (1 host, 2 DOZE), a ramp onto
FRC, a ramp that is a return, a source that tripped while the domain was gated. -/
structure DomSt where
  host : Bool
  doze : Bool
  pend : Nat
  toFall : Bool
  ret : Bool
  trip : Bool
deriving DecidableEq, Repr

/-- Clocks, resets and power beside the registers (spec/15, spec/19): sources running and proven (bits 0 to 5: FRC, SRC, XA, XB, GCLK, the
PCIe reference), the CNT since which each source (0 to 5) and each PLL (6 to 10) is clean, the domains, rails good, main die released,
the CNT at which SLEEP entry completed, a wake cause that waits (1 WAKE_N, 2 the wake timer), a START written in DOZE, a measurement's
start, and the balls PHY_RST, GFE_RST_N and GFE_EN. -/
structure ClkSt where
  run : Nat
  proven : Nat
  since : List Nat
  doms : List DomSt
  rails : Bool
  released : Bool
  off : Option Nat
  wake : Nat
  startDue : Bool
  phyRst : Bool
  gfeRst : Bool
  gfeEn : Nat
deriving DecidableEq, Repr
/-- What a Piste frame carries beside numbers (R395, R398, R400, R403, R418): a HELLO's content, an agreement block, a digest (none of a MISSED
marker) with CLEAN and the settled drive formats, a COMMIT block, a checkpoint with the tag, the number of sending members and the saved-iterate
words by lane-memory address, a journal record. -/
inductive PstData where
  | hello (d : HelloData)
  | agree (b : AgreeBlk)
  | digest (d : Option Nat) (clean : Bool) (fmts : List (Nat × Nat))
  | commit (r : CommitRec)
  | ckpt (k : Ckpt) (tag : Nat) (senders : Nat) (its : List (Nat × Nat))
  | record (r : JnlRec)
deriving DecidableEq, Repr

/-- What the device puts on its outside interfaces, in order (the model's own record; notes/assumptions/6). -/
inductive Emit where
  /-- A register read completes with a value (R11, R12). -/
  | read (p : Path) (v : Nat)
  /-- An MSI-X message (R539). -/
  | msix (v : Nat)
  /-- A frame starts on the wire of an Ethernet port (R339). -/
  | frame (p : Nat) (b : List Byte)
  /-- The frame on the wire of a port ends with an inverted FCS (R364). -/
  | badFcs (p : Nat)
  /-- An MDIO frame (R333): Clause 45, operation, PHY address, register, data. -/
  | mdio (c45 : Bool) (op : Nat) (phy : Nat) (reg : Nat) (data : Nat)
  /-- A CAN frame has been sent (R354): controller, word 0 of its record, data. -/
  | can (c : Nat) (w0 : Nat) (b : List Byte)
  /-- A front-end SPI frame (R66, R130): antenna, address, data. -/
  | spi (a : Nat) (addr : Nat) (data : Nat)
  /-- A Piste frame is handed to the link (R420): TYPE, message within it, destination (16384 BCAST_STRING, 16385 BCAST_ALL), CYC, and
  its numbers. -/
  | piste (typ : Nat) (sub : Nat) (dst : Nat) (cyc : Nat) (c : List Nat)
  /-- A Piste frame with blocks or records. -/
  | pisteData (typ : Nat) (dst : Nat) (cyc : Nat) (d : PstData)
  /-- A host-channel record goes out on an Ethernet port (R485): TYPE, SESSION_ID, SEQ, payload, tag (notes/assumptions/30). -/
  | record (port : Nat) (typ : Nat) (sess : Nat) (seq : Nat) (pay : List Byte) (tag : List Byte)
  /-- The octets that the QSPI target drives in a frame (R528, R529). -/
  | qspi (b : List Byte)
deriving DecidableEq, Repr
end Sys2Proof.Machine
end

