-- ==== Sys2Proof/Syntax.lean ====
section
/-! DEFINITION. The commands of the GK9: one constructor per row of spec/opcode_table.json. A command carries what the outside
supplies to it (an address, a value, a measured quantity, a received frame, the count of CNT at which it happens); everything
the spec computes is computed by its meaning. -/

namespace Sys2Proof

open Sys2Proof.Machine

/-- The commands of the block: one constructor per row of spec/opcode_table.json. -/
inductive Instr where
  /-- REGISTER_WRITE (R14). A host write to a register with no row of its own acts on each field by its access type; RWL and RWI writes, pending-setpoint writes while ARM is 1, and W1C clears are handled here. -/
  | registerWrite (p : Path) (off v : Nat) (whole : Bool) (t : Nat)
  /-- PAIR_LOW_WORD_READ (R12). A read of the low word of a 64-bit register pair latches the high word for the read that follows. -/
  | pairLowWordRead (p : Path) (off : Nat) (whole : Bool) (t : Nat)
  /-- SEQ_START (R19). A write of SEQ_CTRL.START checks the staged values, refuses or makes a cold RUN entry into ARMING, fixes T0(0), and in a cascade broadcasts START. -/
  | seqStart (p : Path) (t : Nat)
  /-- SEQ_HALT (R42). A write of SEQ_CTRL.HALT starts no further cycle and lets the cycles in flight finish before the power state HOLD is entered. -/
  | seqHalt (p : Path) (t : Nat)
  /-- HALT_COMPLETE (R467). The last cycle in flight leaves flight after HALT, and the device enters the power state HOLD with SEQ in IDLE. -/
  | haltComplete (t : Nat)
  /-- T0 (R22). The sample instant T0(n) increments CYC, starts stage 1 of the cycle, and applies the inputs that take effect at a T0. -/
  | t0 (t : Nat)
  /-- STAGE_START (R25). A stage of cycle n starts at the latest of its start offset, the end of the preceding stage and the waits of R25. -/
  | stageStart (n k t : Nat)
  /-- STAGE_END (R25). A stage completes its work; an end past its budget reports SEQ OVER_BUDGET, and stage 7 makes the journal record READY. -/
  | stageEnd (n k : Nat) (att : List (Nat × Nat)) (t : Nat)
  /-- STAGE_DEADLINE (R27). A stage deadline arrives with the stage not ended, and the GK9 stops the stage, declares the cycle missed or withdraws outputs. -/
  | stageDeadline (n k t : Nat)
  /-- FAILURE_SAMPLE (R214). At T_S(n) the failure set L(n) is sampled, journalled and exchanged with the Pairs partner. -/
  | failureSample (n t : Nat)
  /-- COMMIT (R21). At T0(n) + C the sequencer matches L(n) to a scenario, commits the chosen result, and releases the cycle's results together. -/
  | commit (n t : Nat)
  /-- SEQ_WATCHDOG (R41). No commit or miss decision for cycle n by T0(n) + 2·P raises a WDT reset. -/
  | seqWatchdog (n t : Nat)
  /-- SP_ARM (R43). A write of SEQ_SP_CTRL.ARM = 1 arms the pending mode and setpoint set for the next T0. -/
  | spArm (p : Path) (t : Nat)
  /-- SP_DISARM (R44). A write of ARM = 0 before the T0 withdraws an armed set. -/
  | spDisarm (p : Path) (t : Nat)
  /-- IMG_LOAD (R81). CMD = LOAD starts a load from the named source in IDLE, or is refused with LOAD_BUSY or BAD_REQUEST. -/
  | imgLoad (p : Path) (src t : Nat)
  /-- IMG_CHECK (R82). CMD = CHECK runs phases 1 to 5 on the named source in background, without building. -/
  | imgCheck (p : Path) (src t : Nat)
  /-- IMG_STORE (R79). CMD = STORE checks the host staging area and writes it to the inactive NAND slot as TRIAL. -/
  | imgStore (p : Path) (src t : Nat)
  /-- IMG_CONFIRM (R77). CMD = CONFIRM makes the TRIAL slot of the loaded image VALID. -/
  | imgConfirm (p : Path) (src t : Nat)
  /-- IMG_ABANDON (R82). CMD = ABANDON ends a running check without a result. -/
  | imgAbandon (p : Path) (src t : Nat)
  /-- LOAD_COMPLETE (R80). A load ends at its first failing phase with a rejection, or at BUILD with the new structure in place. -/
  | loadComplete (bad : Option Nat) (t : Nat)
  /-- CHECK_COMPLETE (R82). A running CHECK ends with its result code. -/
  | checkComplete (bad : Option Nat) (t : Nat)
  /-- STORE_COMPLETE (R79). A STORE ends with the slot written TRIAL, or with the check code or IMG NAND_WRITE. -/
  | storeComplete (good : Bool) (t : Nat)
  /-- SOURCE_TIMEOUT (R75). No cascade image has arrived 10 s after link training, and IMG SOURCE_TIMEOUT is reported. -/
  | sourceTimeout (t : Nat)
  /-- FUNC_STOP (R85). A write to IMG_FUNC_STOP makes the named groups pending, to leave service from the next T0. -/
  | funcStop (p : Path) (v : Nat) (t : Nat)
  /-- GROUP_STOPPED (R85). The last cycle in flight that used a pending group leaves flight, and the group reads stopped. -/
  | groupStopped (g : Nat) (t : Nat)
  /-- FUNC_RESTART (R87). A write to IMG_FUNC_RESTART requests the restart of stopped groups at the next T0, or is refused. -/
  | funcRestart (p : Path) (v : Nat) (t : Nat)
  /-- FIR_SAMPLE (R103). At its tick plus skew, a filter channel samples its slot into the delay line. -/
  | firSample (k : Nat) (m : Nat) (t : Nat)
  /-- GCLK_RATE_CHECK (R127). Each second of corrected time, GCLK is measured against FS_HZ and channels are marked not VALID while out of tolerance. -/
  | gclkRateCheck (edges : Nat) (t : Nat)
  /-- OCCUPANCY_WINDOW (R129). Each 100 ms window measures antenna occupancy, sets or clears FAULT, and steps the front-end gain. -/
  | occupancyWindow (a : Nat) (rise fall : List Nat) (t : Nat)
  /-- FE_SPI_DONE (R130). A front-end initialisation or gain write completes, and a read-back mismatch reports GNS FE_SPI. -/
  | feSpiDone (data : Nat) (t : Nat)
  /-- ACQ_PASS_DONE (R133). An acquisition pass ends, with verification, hand-off to a channel, resumption, or the job ending absent and the next job taken. -/
  | acqPassDone (peak : Nat) (mean : Nat) (cb : Nat) (db : Int) (t : Nat)
  /-- LOOP_UPDATE (R137). A channel's loops update once per integration interval, with C/N0 and lock indicators set or cleared. -/
  | loopUpdate (c : Nat) (ip q : Int) (ee ll ve vl : Nat) (t : Nat)
  /-- PULL_IN_END (R137). PULL_IN_MS after hand-off the PLL joins the FLL. -/
  | pullInEnd (c : Nat) (t : Nat)
  /-- GNSS_EPOCH (R141). At each epoch every channel is latched to one instant, slips are declared, and at the cycle epoch ALL_LOST is judged. -/
  | gnssEpoch (n k t : Nat)
  /-- GNSS_JOB_DISPATCH (R146). At T0(n) + JOB_OFS the PVT, velocity and attitude jobs are dispatched to the GNSS lanes. -/
  | gnssJobDispatch (n : Nat) (t : Nat)
  /-- NAV_WORD_DECODED (R145). A navigation word passes parity or CRC and updates the ephemeris or almanac store. -/
  | navWordDecoded (c : Nat) (w : NavWord) (good : Bool) (t : Nat)
  /-- EPHEMERIS_SAVE (R145). Every 300 s the ephemeris store is written to NAND. -/
  | ephemerisSave (t : Nat)
  /-- GNS_RTCM_DATA (R158). A write of GNS_RTCM_DATA places one octet in the host RTCM FIFO, or sets OVERFLOW when it is full. -/
  | gnsRtcmData (p : Path) (v : Nat) (t : Nat)
  /-- RTCM_FRAME (R158). A parser completes an RTCM frame, checks its CRC, and uses or counts its message. -/
  | rtcmFrame (eth : Bool) (t : Nat)
  /-- OCE_REINIT (R184). A write of OCE_CTRL.REINIT reinitialises the observer from the next T0. -/
  | oceReinit (p : Path) (t : Nat)
  /-- OCE_BANK_SWAP (R192). A write of OCE_BANK_CTRL.SWAP requests the other bank for the next T0. -/
  | oceBankSwap (p : Path) (t : Nat)
  /-- OCE_BANK_SEAL (R193). A write of OCE_BANK_CTRL.SEAL checks the standby bank and seals it with a new generation, or reports BANK_FORMAT. -/
  | oceBankSeal (p : Path) (t : Nat)
  /-- BANK_WORD_WRITE (R193). A host write to a bank word is accepted into the unused standby bank, clearing SEALED, or discarded with BANK_BUSY. -/
  | bankWordWrite (p : Path) (b : Nat) (w : Nat) (v : Nat) (t : Nat)
  /-- LANE_JOB_START (R235). A lane starts a job once its data is complete and its previous job has ended, checking the data for non-finite words. -/
  | laneJobStart (lane j n t : Nat)
  /-- LANE_JOB_END (R248). A lane job ends with one status, writes its end word and saved iterate, and its result feeds the selector or a GNSS slot. -/
  | laneJobEnd (lane j n t : Nat)
  /-- LANE_JOB_DEADLINE (R246). The deadline arrives at a lane whose job has not ended, which aborts it and every later job of the cycle as DEADLINE. -/
  | laneJobDeadline (lane j n point iter t : Nat)
  /-- LANE_MEM_DATA_READ (R231). A read of SLV_LANEi_MEM_DATA returns the lane word at ADDR and increments ADDR. -/
  | laneMemDataRead (p : Path) (l : Nat) (t : Nat)
  /-- LANE_RESIDUE_FAULT (R249). A residue or parity check fails in a lane, ending the job RESIDUE and passing the fault for classing. -/
  | laneResidueFault (lane : Nat) (j : Nat) (n : Nat) (mech : Nat) (t : Nat)
  /-- OCE_CHECK_FAULT (R361). A residue or parity check fails in an OCE step, which stops and is classed. -/
  | oceCheckFault (n : Nat) (mech : Nat) (t : Nat)
  /-- FIR_CHECK_FAULT (R361). A residue check fails in the FIR engine, and the output is discarded and the fault classed. -/
  | firCheckFault (n : Nat) (ch : Option Nat) (mech : Nat) (t : Nat)
  /-- SEQ_COMPARE (R369). The two copies of the sequencer and selector disagree, a class S fault. -/
  | seqCompare (t : Nat)
  /-- SRAM_CORRECTED (R362). A read corrects a single-bit SRAM error and writes back the word; a repeat enters the hard-bit table. -/
  | sramCorrected (unit : Nat) (index : Nat) (addr : Nat) (n : Option Nat) (mower : Bool) (t : Nat)
  /-- SRAM_UNCORRECTABLE (R364). A read meets an uncorrectable SRAM word and acts by the area that holds it. -/
  | sramUncorrectable (a : UeArea) (syn : Bool) (addr : Nat) (mower : Bool) (t : Nat)
  /-- FORCE_S (R369). A write of ERR_CTRL.FORCE_S raises a class S fault. -/
  | forceS (p : Path) (t : Nat)
  /-- CLR_CNT (R367). A write of ERR_CTRL.CLR_CNT clears the fault-class counters. -/
  | clrCnt (p : Path) (t : Nat)
  /-- ERR_INJ_ARM (R388). A write of ERR_INJ.ARM arms one injected fault for the next T0, or is refused with INJECT_REFUSED. -/
  | errInjArm (p : Path) (v : Nat) (t : Nat)
  /-- JNL_RD_DATA_READ (R371). A read of JNL_RD_DATA returns a journal word and increments WORD within the slot. -/
  | jnlRdDataRead (p : Path) (t : Nat)
  /-- JOURNAL_MIRROR_COPY (R375). A final journal record's NAND program completes, or fails and is retried on the next good block. -/
  | journalMirrorCopy (good : Bool) (t : Nat)
  /-- RESTART_RESUME (R383). After a W or C reset the rebuild from checkpoint and journal ends, and the device resumes at the next T0 or enters IDLE with RESTART_FAIL. -/
  | restartResume (t : Nat)
  /-- MOWER_PASS_START (R497). Every 2 s a Mower pass starts, or waits for a late pass to end. -/
  | mowerPassStart (t : Nat)
  /-- MOWER_PASS_END (R497). A Mower pass ends and BKG_MOWER records its duration and skipped memories. -/
  | mowerPassEnd (skipped : Nat) (t : Nat)
  /-- ENC_SAMPLE (R261). At a sample instant an absolute channel starts a transfer, takes a forwarded word, or latches its quadrature counter. -/
  | encSample (e : Nat) (n : Nat) (k : Nat) (t : Nat)
  /-- ENC_TRANSFER_END (R263). An encoder transfer completes; the word is decoded and checked, and compare units are evaluated. -/
  | encTransferEnd (e : Nat) (w : EncWord) (t : Nat)
  /-- MONOFLOP_END (R261). MONO after the last rising edge, a channel may clock again and releases the line to relay forwarding. -/
  | monoflopEnd (e : Nat) (t : Nat)
  /-- RELAY_TRANSFER (R266). An RLY_CLK edge from the drive is forwarded to the encoder and read, or counted as a deferral during ownership. -/
  | relayTransfer (e : Nat) (w : Option EncWord) (t : Nat)
  /-- RELAY_ABORT (R267). RLY_CLK stays high longer than MONO before a forwarded transfer ends, and the transfer is abandoned. -/
  | relayAbort (e : Nat) (t : Nat)
  /-- QUAD_EDGE (R268). An accepted change of QUAD_A or QUAD_B counts up or down, or is illegal. -/
  | quadEdge (e : Nat) (a : Bool) (b : Bool) (t : Nat)
  /-- QUAD_Z_EDGE (R268). A rising QUAD_Z edge copies the counter to ZCOUNT and may clear it. -/
  | quadZEdge (e : Nat) (t : Nat)
  /-- PIN_LEVEL_ACCEPT (R258). A pin input level has stood for FILT + 1 clocks and is accepted. -/
  | pinLevelAccept (p : Nat) (level : Bool) (t : Nat)
  /-- PWM_PERIOD_START (R260). A PWM period begins, applying the newest committed duty. -/
  | pwmPeriodStart (p : Nat) (t : Nat)
  /-- SAFE_TICK (R282). Every 250 µs the evaluator evaluates functions and outputs on both paths and publishes the trip word. -/
  | safeTick (raw : Nat) (rb : Nat) (agree : Bool) (ecc : Bool) (c : Nat)
  /-- SAFE_INPUT_ACCEPT (R287). A safety input has stood at a new level for F_US and the level is accepted. -/
  | safeInputAccept (x : Nat) (level : Bool) (c : Nat)
  /-- DISCREPANCY_TIMEOUT (R288). A discrepancy lasts longer than T_DISC, and the function enters FAULT. -/
  | discrepancyTimeout (f : Nat) (c : Nat)
  /-- TEST_PULSE_START (R289). An STP output starts its low test pulse once every TP_PERIOD. -/
  | testPulseStart (p : Nat) (raw : Nat) (c : Nat)
  /-- TEST_PULSE_END (R289). A test-pulse window ends and each tested channel is judged for TP_FAULT or CROSS_SHORT. -/
  | testPulseEnd (p : Nat) (low : Nat) (c : Nat)
  /-- STOP1_EXPIRED (R290). T_STOP1 has run from the trip, and a STOPPING function enters STOP. -/
  | stop1Expired (f : Nat) (c : Nat)
  /-- RESET_PRESS_END (R294). The trailing edge of a reset press of 50 ms to 3,000 ms moves ARMED functions to RUN and eligible FAULT functions to STOP. -/
  | resetPressEnd (c : Nat)
  /-- RESET_STUCK (R293). A reset press lasts 3,000 ms and SAF RESET_STUCK is reported. -/
  | resetStuck (c : Nat)
  /-- TWO_HAND_SYNC_TIMEOUT (R292). 500 ms after one pair of a TWO_HAND function is permissive the second is not, and SYNC_WAIT sets. -/
  | twoHandSyncTimeout (f : Nat) (c : Nat)
  /-- READBACK_FAULT (R297). An output switch reads against its command for more than 2 ticks, and the output and its functions go to FAULT. -/
  | readbackFault (o : Nat) (c : Nat)
  /-- DARK_PULSE (R297). Once a second an on output's switch is driven low for 200 µs and must read low. -/
  | darkPulse (o : Nat) (side : Bool) (low : Bool) (c : Nat)
  /-- SAFE_CLOCK_CHECK (R284). Each 100 ms window compares FRC with SRC and takes an internal fault when out of ratio. -/
  | safeClockCheck (frc : Nat) (src : Nat) (c : Nat)
  /-- SAFE_EVENT_DRAIN (R301). A queued safety event is drained to the incident log while the main die runs. -/
  | safeEventDrain (t : Nat)
  /-- FRC_STOP_WATCHDOG (R457). FRC stops outside a deliberate stop, and the always-on watchdog drives every safety output off. -/
  | frcStopWatchdog (t : Nat)
  /-- SOURCE_OFFSET (R311). A valid offset of a time source qualifies it and, when selected, updates the servo or arms a step. -/
  | sourceOffset (slot : Nat) (theta : Int) (t : Nat)
  /-- SOURCE_LOSS_TIMEOUT (R310). No valid offset for LOSS_T ends a source's qualification and may leave no source selected. -/
  | sourceLossTimeout (slot : Nat) (t : Nat)
  /-- SOURCE_REVERT (R310). A lower slot has stayed qualified for REVERT_S and becomes the selected source. -/
  | sourceRevert (slot : Nat) (t : Nat)
  /-- TIME_STEP (R313). At the next whole second an armed step adds its amount to T_A and suppresses that second's pulse. -/
  | timeStep (t : Nat)
  /-- HOLDOVER_LIMIT (R315). EST_ERR in HOLDOVER exceeds HOLD_LIMIT and the state becomes FREERUN. -/
  | holdoverLimit (t : Nat)
  /-- PPS_OUT_PULSE (R325). At each whole second less PPS_ADV, PPS_OUT rises. -/
  | ppsOutPulse (t : Nat)
  /-- PPS_WIDTH_END (R325). PPS_WIDTH after its rise, PPS_OUT falls. -/
  | ppsWidthEnd (t : Nat)
  /-- TIM_SET (R317). A write of TIM_CTRL.SET arms a host step to the written time, or is refused. -/
  | timSet (p : Path) (t : Nat)
  /-- TIM_NOW_READ (R307). A read of TIM_NOW_NS latches the full corrected time for the following words. -/
  | timNowRead (p : Path) (t : Nat)
  /-- TIM_CONV_READ (R320). A read of TIM_CONV_CNT_LO converts the written corrected time to a count under the present anchor. -/
  | timConvRead (p : Path) (t : Nat)
  /-- PTP_SYNC (R324). A Sync message from the selected master is time-stamped toward an offset. -/
  | ptpSync (h : PtpHdr) (t1 : Option Int) (t2 : Nat) (t : Nat)
  /-- PTP_FOLLOW_UP (R323). A Follow_Up completes a two-step Sync and a Delay_Req is sent. -/
  | ptpFollowUp (h : PtpHdr) (t1 : Int) (t : Nat)
  /-- PTP_ANNOUNCE (R323). An Announce updates the foreign masters and the data set comparison selects a master. -/
  | ptpAnnounce (h : PtpHdr) (d : PtpData) (utc : Option (Nat × Bool × Bool)) (t : Nat)
  /-- PTP_DELAY_RESP (R324). A Delay_Resp pairing the latest Delay_Req completes an exchange and yields an offset or a BAD_DELAY discard. -/
  | ptpDelayResp (h : PtpHdr) (t4 : Int) (mine : Bool) (t : Nat)
  /-- PTP_ANNOUNCE_TIMEOUT (R323). No Announce for ANNOUNCE_TO intervals removes a foreign master. -/
  | ptpAnnounceTimeout (clock : Nat) (port : Nat) (t : Nat)
  /-- PPS_IN_EDGE (R326). A filtered PPS_IN rising edge is validated and yields an offset. -/
  | ppsInEdge (t : Nat) (dur : Nat)
  /-- TCAP_CAPTURE (R327). A selected TCAP edge is captured into the FIFO, or discarded when it is full. -/
  | tcapCapture (b : Nat) (rising : Bool) (t : Nat)
  /-- TCAP_TRIGGER (R327). A trigger target or second-aligned instant arrives and the ball pulses for WIDTH ticks. -/
  | tcapTrigger (b : Nat) (t : Nat)
  /-- TCAP_ARM (R327). A write of TIM_TCAPb_TGT_HI arms a count target, late when already past. -/
  | tcapArm (p : Path) (b : Nat) (v : Nat) (t : Nat)
  /-- TCAP_CAP_READ (R328). A read of TIM_TCAPb_CAP_LO pops the oldest capture and latches its high word. -/
  | tcapCapRead (p : Path) (b : Nat) (t : Nat)
  /-- ETH_LINK_UP (R332). An SGMII link comes up in an accepted mode and the port sends again. -/
  | ethLinkUp (p : Nat) (mbps : Nat) (full : Bool) (t : Nat)
  /-- ETH_LINK_DOWN (R332). An SGMII link goes down or reports an unsupported mode, and frames are dropped at launch. -/
  | ethLinkDown (p : Nat) (mode : Bool) (t : Nat)
  /-- MDIO_ADDRESS (R333). An MDIO command with OP = 0 sends a Clause 45 address frame. -/
  | mdioAddress (a : Path) (phy : Nat) (dev : Nat) (v : Nat) (t : Nat)
  /-- MDIO_WRITE (R333). An MDIO command with OP = 1 writes a PHY register. -/
  | mdioWrite (a : Path) (c45 : Bool) (phy : Nat) (reg : Nat) (v : Nat) (t : Nat)
  /-- MDIO_READ (R333). An MDIO command with OP = 2 reads a PHY register. -/
  | mdioRead (a : Path) (c45 : Bool) (phy : Nat) (reg : Nat) (t : Nat)
  /-- MDIO_DONE (R333). An MDIO frame completes, clearing GO_BUSY or recording NORESP, and verifies an initialisation write. -/
  | mdioDone (data : Nat) (noresp : Bool) (t : Nat)
  /-- ETH_FRAME_RX (R336). A received Ethernet frame is classified and passed to its user, or counted and discarded. -/
  | ethFrameRx (p : Nat) (b : List Byte) (fcs : Bool) (full : Bool) (ts : Nat) (t : Nat)
  /-- ETH_LAUNCH (R340). A timed frame's target arrives and the frame becomes due, or is dropped after LATE_MAX. -/
  | ethLaunch (p : Nat) (t : Nat)
  /-- ETH_TX_COMPLETE (R339). A frame leaves the wire and the transmitter selects the next due head under the guard rules. -/
  | ethTxComplete (p : Nat) (ts : Nat) (t : Nat)
  /-- CAN_FRAME_RX (R351). A valid received CAN frame is matched to the high-priority buffer or a filter pair for queues, intake and feedback. -/
  | canFrameRx (c : Nat) (w0 : Nat) (dlc : Nat) (esi : Bool) (rtr : Bool) (data : List Byte) (sof : Nat) (t : Nat)
  /-- CAN_INTEGRATED (R348). A controller has seen 11 recessive bits and takes part in frames, sending a message-set probe when due. -/
  | canIntegrated (c : Nat) (t : Nat)
  /-- CAN_ERROR (R348). A bus error or lost arbitration moves the error counters and the bus state and counts an attempt. -/
  | canError (c : Nat) (lec : Nat) (phase : Bool) (tx : Option Nat) (dom : Bool) (t : Nat)
  /-- CAN_BUSOFF_RECOVERED (R349). After 128 sequences of 11 recessive bits the controller clears its counters and becomes error active. -/
  | canBusoffRecovered (c : Nat) (t : Nat)
  /-- CAN_PROTOCOL_EXCEPTION (R344). A recessive res bit with PEX_EN = 1 is counted and the controller integrates again. -/
  | canProtocolException (c : Nat) (t : Nat)
  /-- CAN_TX_LAUNCH (R354). A CYCLE buffer's target arrives and the buffer is requested. -/
  | canTxLaunch (c : Nat) (b : Nat) (t : Nat)
  /-- CAN_TX_DONE (R354). A frame attempt succeeds and the buffer records TX_DONE and its start-of-frame count. -/
  | canTxDone (c : Nat) (b : Nat) (sof : Nat) (tdcv : Nat) (t : Nat)
  /-- CAN_TX_REQ (R354). A write to CAN_TX_REQ requests HOST buffers. -/
  | canTxReq (a : Path) (c : Nat) (v : Nat) (t : Nat)
  /-- CAN_TX_CANCEL (R355). A write to CAN_TX_CANCEL cancels HOST buffers as their state allows. -/
  | canTxCancel (a : Path) (c : Nat) (v : Nat) (att : Option Nat) (t : Nat)
  /-- CAN_RXQ_POP (R352). A write of POP to a receive queue releases its head record. -/
  | canRxqPop (a : Path) (c : Nat) (q : Nat) (t : Nat)
  /-- CAN_HPB_POP (R353). A write of POP to CAN_HPB_STS releases the held high-priority frame. -/
  | canHpbPop (a : Path) (c : Nat) (t : Nat)
  /-- CAN_PROBE_TIMEOUT (R447). No probe reply within 200 ms settles the GK5-compatible message set. -/
  | canProbeTimeout (c : Nat) (t : Nat)
  /-- AGREE_DEADLINE (R395). At T0(n) + AGREE_DL stage 2 computes on the agreed set, or SOLO when partner blocks are missing. -/
  | agreeDeadline (n : Nat) (t : Nat)
  /-- RED_PROMOTE (R404). A write of RED_CTRL.PROMOTE makes a SYNCED member send from the next T0, or is refused. -/
  | redPromote (p : Path) (t : Nat)
  /-- RED_STAND_DOWN (R404). A write of RED_CTRL.STAND_DOWN makes a sending member STANDBY from the next T0, or is refused. -/
  | redStandDown (p : Path) (t : Nat)
  /-- RED_RESYNC (R403). A write of RED_CTRL.RESYNC resumes resynchronisation attempts. -/
  | redResync (p : Path) (t : Nat)
  /-- RED_SLEEP (R407). A write of RED_CTRL.SLEEP returns an unpaired activated Reserve to SLEEP, or is refused. -/
  | redSleep (p : Path) (t : Nat)
  /-- CLR_FEED (R411). A write of RED_CTRL.CLR_FEED clears RED_FEED_CNT. -/
  | clrFeed (p : Path) (t : Nat)
  /-- RESYNC_COPY_DONE (R403). The copied checkpoint and journal are rebuilt, and the member joins agreement in CONFIRMING. -/
  | resyncCopyDone (t : Nat)
  /-- RESERVE_WAKE_TIMER (R405). The Reserve's wake timer expires after MIRROR_I × P and wakes it for a mirror session, or the wake is skipped. -/
  | reserveWakeTimer (t : Nat)
  /-- MIRROR_DONE (R405). The mirrored checkpoint is programmed and read back in NAND, and the Reserve returns to SLEEP. -/
  | mirrorDone (ok : Bool) (t : Nat)
  /-- WAKE_N (R407). WAKE_N held low for 1 ms wakes the device from SLEEP and activates a Reserve. -/
  | wakeN (t : Nat)
  /-- NO_PARTNER_TIMEOUT (R408). An activated Reserve finds no sending member within 5 s and rebuilds alone with NO_PARTNER. -/
  | noPartnerTimeout (recs : List JnlRec) (t : Nat)
  /-- VAON_LOSS (R409). One VAON input falls below V_AONL and is reported and counted. -/
  | vaonLoss (x : Nat) (low : Bool) (t : Nat)
  /-- FEED_WARNING (R410). A main feed enters warning; with both in warning a LAST_GASP marker is programmed. -/
  | feedWarning (x : Nat) (on : Bool) (t : Nat)
  /-- FEED_LOSS (R411). A main feed becomes lost and its FEEDSEL falls unless both are lost. -/
  | feedLoss (x : Nat) (on : Bool) (t : Nat)
  /-- FEED_RESTORED (R411). A feed has been good for t_RET and its FEEDSEL rises again. -/
  | feedRestored (x : Nat) (t : Nat)
  /-- PISTE_TRAINED (R416). A port completes training and is TRAINED or MGMT_ONLY. -/
  | pisteTrained (p : Nat) (l0 l1 : Bool) (t : Nat)
  /-- PISTE_TRAIN_TIMEOUT (R416). A training step has not completed in 50 ms, and the port counts TRAIN_FAIL and restarts after 100 ms. -/
  | pisteTrainTimeout (p : Nat) (t : Nat)
  /-- PISTE_LANE_RETRY (R416). Every 1 s a degraded port retries its failed lane. -/
  | pisteLaneRetry (p : Nat) (ok : Bool) (t : Nat)
  /-- PISTE_LINK_LOSS (R417). Invalid sync headers or a fifth failed transmission make the port lose training. -/
  | pisteLinkLoss (p : Nat) (t : Nat)
  /-- HELLO_SEND (R417). Every 1 ms a trained port repeats HELLO. -/
  | helloSend (p : Nat) (t : Nat)
  /-- HELLO_TIMEOUT (R417). No HELLO for 10 ms makes the port lose training. -/
  | helloTimeout (p : Nat) (t : Nat)
  /-- PISTE_FRAME_ERROR (R421). A CRC error or LSEQ gap requests replay from the first unacknowledged frame. -/
  | pisteFrameError (p : Nat) (tx : Option Nat) (t : Nat)
  /-- DELAY_TIMER (R425). Every 125 ms a trained port runs a link-delay exchange. -/
  | delayTimer (p : Nat) (t : Nat)
  /-- HELLO (R418). A received HELLO is checked for address, master and timing conflicts and pairs members by their structure tags. -/
  | hello (h : PstHdr) (d : HelloData) (t : Nat)
  /-- NOTICE_FAIL_SILENT (R401). A partner's FAIL_SILENT notice declares it lost. -/
  | noticeFailSilent (h : PstHdr) (t : Nat)
  /-- NOTICE_OUT_OF_STEP (R441). A device's OUT_OF_STEP notice is taken by its peers. -/
  | noticeOutOfStep (h : PstHdr) (t : Nat)
  /-- NOTICE_ACTING_MASTER (R428). The backup's ACTING_MASTER notice makes devices accept it as master and abort unvoted changes. -/
  | noticeActingMaster (h : PstHdr) (t : Nat)
  /-- NOTICE_MASTER_LOST (R428). A MASTER_LOST notice makes devices run on their own T0 chains and abort unvoted changes. -/
  | noticeMasterLost (h : PstHdr) (t : Nat)
  /-- DELAY (R425). A DELAY frame of the link-delay exchange updates the mean link delay. -/
  | delay (p : Nat) (t1 t2 t3 t4 : Int) (t : Nat)
  /-- ALIGN (R426). A received ALIGN forms the Piste time offset, checks CYC for step, and is forwarded. -/
  | align (h : PstHdr) (launch corr : Int) (valid : Bool) (t : Nat)
  /-- MODE_START (R430). The master's START frame makes an IDLE loaded device enter ARMING for T0(0). -/
  | modeStart (h : PstHdr) (t0 : Option Int) (t : Nat)
  /-- JOIN (R431). A device's JOIN is answered by the master at its next T0 with JOIN(k), and the device enters RUN at T0(k). -/
  | join (h : PstHdr) (k : Option (Nat × Int)) (t : Nat)
  /-- PREPARE (R437). A received PREPARE stops and holds the named groups, answered by ACK or NACK. -/
  | prepare (h : PstHdr) (id groups : Nat) (t : Nat)
  /-- ACK (R437). The master collects ACKs and reports MC_PREPARED when all are in. -/
  | ack (h : PstHdr) (id : Nat) (t : Nat)
  /-- NACK (R437). A NACK makes the master send ABORT. -/
  | nack (h : PstHdr) (id : Nat) (t : Nat)
  /-- SEAL (R438). A received SEAL checks the staged values of the held groups and votes READY or REFUSED. -/
  | seal (h : PstHdr) (id k : Nat) (t : Nat)
  /-- VOTE (R438). The master collects votes and sends COMMIT when all are READY before T0(k − 1), else ABORT. -/
  | vote (h : PstHdr) (id : Nat) (ready : Bool) (t : Nat)
  /-- MC_COMMIT (R439). A received COMMIT before T0(k) schedules the staged values to apply at T0(k); a late one makes the device OUT_OF_STEP. -/
  | mcCommit (h : PstHdr) (id k : Nat) (t : Nat)
  /-- MC_ABORT (R439). A received ABORT restarts the held groups with their old settings at the next T0. -/
  | mcAbort (h : PstHdr) (id : Nat) (t : Nat)
  /-- APPLIED (R439). The master takes a device's APPLIED for the change. -/
  | applied (h : PstHdr) (id : Nat) (t : Nat)
  /-- RELOAD (R441). A received RELOAD makes the device take a CAS reset. -/
  | reload (h : PstHdr) (t : Nat)
  /-- AGREE (R395). A partner's input agreement block of a cycle is received. -/
  | agree (h : PstHdr) (b : AgreeBlk) (t : Nat)
  /-- SRCWORD (R396). A partner's failure-source word, or a cascade device's word, is received for L(n). -/
  | srcword (h : PstHdr) (w : SrcWord) (t : Nat)
  /-- DIGEST (R399). A partner's commit digest or MISSED marker is received and compared, which may make a member yield. -/
  | digest (h : PstHdr) (dig : Option Nat) (clean : Bool) (fmts : List (Nat × Nat)) (t : Nat)
  /-- COMMITBLK (R400). A partner's COMMIT block is received and adopted for a cycle this member missed. -/
  | commitblk (h : PstHdr) (r : CommitRec) (t : Nat)
  /-- SHARE (R432). A WIDEN table, DEEPEN share or box report is received for its cycle, or discarded as late. -/
  | share (h : PstHdr) (m : ShareMsg) (t : Nat)
  /-- MULT_JOB (R433). An exported job's descriptor and data are received and run on the server's lane. -/
  | multJob (h : PstHdr) (scen : Nat) (d6 : Int) (warm : Bool) (cap : Nat) (prob : Prob) (t : Nat)
  /-- MULT_RES (R433). An exported job's outcome is received by the exporter. -/
  | multRes (h : PstHdr) (scen : Nat) (r : JobRes) (t : Nat)
  /-- GNSS_REC (R152). Reference-node records or their results are received over Piste. -/
  | gnssRec (h : PstHdr) (id : Nat) (ls : LsProb) (r : Option JobRes) (t : Nat)
  /-- CKPT (R403). A checkpoint frame is received for resynchronisation or mirroring. -/
  | ckpt (h : PstHdr) (k : Option Ckpt) (tag senders : Nat) (its : List (Nat × Nat)) (bad : List Nat) (t : Nat)
  /-- JREC (R403). A journal record frame is received and rebuilt. -/
  | jrec (h : PstHdr) (r : JnlRec) (ok : Bool) (t : Nat)
  /-- TUNNEL (R434). A tunnelled register access, its answer, or a mailbox message is received and executed or placed. -/
  | tunnel (h : PstHdr) (m : TunMsg) (t : Nat)
  /-- IMAGE (R435). An image distribution frame is written into the cascade staging area, answered by its digest at the end. -/
  | image (h : PstHdr) (m : ImgMsg) (t : Nat)
  /-- HANDBACK (R428). A write of PST_CTRL.HANDBACK returns master duties to the promoted master at the next T0. -/
  | handback (p : Path) (t : Nat)
  /-- PST_RELOAD (R441). A write of PST_CTRL.RELOAD on the master sends RELOAD to every device in PST_DEVSET. -/
  | pstReload (p : Path) (t : Nat)
  /-- MC_PREPARE (R436). CMD = PREPARE on the master opens a change and sends PREPARE, or is refused. -/
  | mcPrepare (p : Path) (groups : Nat) (t : Nat)
  /-- MC_SEAL (R438). CMD = SEAL on the master sends SEAL(id, k) at its next T0. -/
  | mcSeal (p : Path) (t : Nat)
  /-- MC_HOST_ABORT (R438). CMD = ABORT on the master aborts an open change before COMMIT. -/
  | mcHostAbort (p : Path) (t : Nat)
  /-- PREP_DL_TIMEOUT (R437). An ACK is missing PREP_DL after PREPARE, and the master sends ABORT. -/
  | prepDlTimeout (t : Nat)
  /-- APPLIED_CHECK (R439). At T0(k) + PREP_DL the master sets in PST_OOS every device without APPLIED. -/
  | appliedCheck (t : Nat)
  /-- TUNNEL_READ (R434). PST_TUN_CTRL.GO with WRITE = 0 sends a tunnelled register read. -/
  | tunnelRead (p : Path) (dst t : Nat)
  /-- TUNNEL_WRITE (R434). PST_TUN_CTRL.GO with WRITE = 1 sends a tunnelled register write. -/
  | tunnelWrite (p : Path) (dst t : Nat)
  /-- TUNNEL_TIMEOUT (R434). No tunnel answer within 10 ms ends the access TIMEOUT. -/
  | tunnelTimeout (t : Nat)
  /-- IMGD_GO (R435). A write of PST_IMGD_CTRL.GO on the master distributes the staged image to the targets. -/
  | imgdGo (p : Path) (t : Nat)
  /-- SOURCE_PROVEN (R449). A clock source's start-up delay or proving condition completes, and gated domains may switch to it. -/
  | sourceProven (k t : Nat)
  /-- PLL_LOCKED (R452). A PLL locks and its domains may start or return. -/
  | pllLocked (x t : Nat)
  /-- CLOCK_MONITOR_TRIP (R454). A clock monitor trips on a source or PLL, and its domains fall back or are gated. -/
  | clockMonitorTrip (k t : Nat)
  /-- NO_CLOCK_TIMEOUT (R457). FRC has not become proven 100 ms after its start while a source has failed, and the domain reads NO_CLOCK. -/
  | noClockTimeout (t : Nat)
  /-- CLOCK_RETURN (R458). A primary source clean for 10 ms takes its domain back from fallback. -/
  | clockReturn (d t : Nat)
  /-- RAMP_STEP (R459). DWELL expires and a ramping domain moves to its next divide step. -/
  | rampStep (d t : Nat)
  /-- CLK_GATE_REQ (R461). A write to CLK_GATE_REQ requests gating or ungating of permitted domains, or is refused. -/
  | clkGateReq (p : Path) (v t : Nat)
  /-- GATE_DONE (R460). Every block of a domain signals idle and the domain is gated. -/
  | gateDone (d t : Nat)
  /-- GATE_BUSY (R460). The idle handshake does not complete within 4,096 clocks and the gate request fails. -/
  | gateBusy (d t : Nat)
  /-- ACCESS_TIMEOUT (R456). A host access held by a gated domain for 2 ms completes with read data 0. -/
  | accessTimeout (t : Nat)
  /-- FMEAS_GO (R462). A write of CLK_FMEAS_CTRL.GO starts a frequency measurement, or is refused. -/
  | fmeasGo (p : Path) (v t : Nat)
  /-- FMEAS_ABORT (R462). A write of CLK_FMEAS_CTRL.ABORT abandons the measurement. -/
  | fmeasAbort (p : Path) (t : Nat)
  /-- FMEAS_DONE (R462). The gate of REFCNT clocks ends and COUNT holds the result. -/
  | fmeasDone (count t : Nat)
  /-- POR (R464). Both VAON inputs fall below V_AONL and the whole device resets. -/
  | por
  /-- PIN_RESET (R464). RST_N low for t_RSTN resets every domain except AON. -/
  | pinReset
  /-- SYS_RESET (R464). A write of RST_CTRL.SYS with the right key resets as PIN, or is discarded with RESET_KEY. -/
  | sysReset (p : Path) (key t : Nat)
  /-- MAIN_DIE_RELEASE (R465). The main die leaves reset when rails, XB, XA and PLLs are ready or 100 ms have passed, samples the straps and seeks an image. -/
  | mainDieRelease (straps : Nat) (solv : Bool) (blocks page block bad : Nat) (chain : Bool) (t : Nat)
  /-- PHY_RESET_RELEASE (R550). 10 ms after main-die release the PHY resets are released. -/
  | phyResetRelease (t : Nat)
  /-- RAILS_GOOD (R555). Every monitored main rail has stood above V_RG for t_RG. -/
  | railsGood (t : Nat)
  /-- RAIL_UNDERVOLTAGE (R555). A monitored rail falls below V_UV for t_UV and a PIN reset is taken, or SLEEP entry skips to step 4. -/
  | railUndervoltage (src t : Nat)
  /-- PWR_DOZE (R468). A write of RST_PWR_CTRL.DOZE in HOLD gates SOLV and GNSS-C and stops their PLLs, or is refused. -/
  | pwrDoze (p : Path) (t : Nat)
  /-- PWR_WAKE (R468). A write of RST_PWR_CTRL.WAKE in DOZE restarts the PLLs and ungates the domains. -/
  | pwrWake (p : Path) (t : Nat)
  /-- PWR_SLEEP (R469). A write of RST_PWR_CTRL.SLEEP in HOLD or DOZE runs the irrevocable SLEEP entry, or is refused. -/
  | pwrSleep (p : Path) (t : Nat)
  /-- SLEEP_ENTRY_COMPLETE (R469). SLEEP entry finishes its NAND copying and drops FEEDSEL and the PCIe link. -/
  | sleepEntryComplete (src t : Nat)
  /-- SLEEP_EXIT (R470). A wake cause after t_OFF starts the reset sequence from step 2. -/
  | sleepExit (src : Nat)
  /-- GET_ID (R479). Security command 1 returns the identity public key and device certificate. -/
  | getId (p : Path) (t : Nat)
  /-- PROVISION (R479). Security command 2 programs the key slots, wrapped key, minimum version and clock fields and enters PROVISIONED. -/
  | provision (p : Path) (bad : Option Nat) (t : Nat)
  /-- ADD_KEY (R479). Security command 3 programs the lowest empty key slot. -/
  | addKey (p : Path) (bad : Option Nat) (t : Nat)
  /-- REVOKE (R479). Security command 4 revokes the named key slot. -/
  | revoke (p : Path) (bad : Option Nat) (t : Nat)
  /-- RAISE_SECVER (R479). Security command 5 programs the next minimum SEC_VERSION word. -/
  | raiseSecver (p : Path) (bad : Option Nat) (t : Nat)
  /-- SET_CLOCK_OTP (R479). Security command 6 programs clock OTP fields that still read 0. -/
  | setClockOtp (p : Path) (bad : Option Nat) (t : Nat)
  /-- DEPLOY (R479). Security command 7 moves the lifecycle to DEPLOYED. -/
  | deploy (p : Path) (bad : Option Nat) (t : Nat)
  /-- RETIRE (R479). Security command 8 moves the lifecycle to RETIRED. -/
  | retire (p : Path) (bad : Option Nat) (t : Nat)
  /-- DEBUG_UNLOCK (R484). Security command 9 unlocks the debug port, or is refused with DEBUG_DENIED. -/
  | debugUnlock (p : Path) (t : Nat)
  /-- DEBUG_LOCK (R484). Security command 10 locks the debug port. -/
  | debugLock (p : Path) (t : Nat)
  /-- AUDIT_SEAL (R491). Security command 11 returns the identity signature over the newest audit chain value and the challenge. -/
  | auditSeal (p : Path) (t : Nat)
  /-- JTAG_EXTEST (R483). Entering EXTEST or INTEST raises a class S fault and drives every safety output off. -/
  | jtagExtest (t : Nat)
  /-- INIT (R486). A host-channel INIT record is answered with RESP, unless the port is locked out or full. -/
  | init (port : Nat) (good : Bool) (pay : List Byte) (t : Nat)
  /-- FIN (R486). A FIN record that verifies opens the session; a failure reports AUTH_FAIL and may lock out the port. -/
  | fin (id : Nat) (sig : List Byte) (t : Nat)
  /-- REG (R488). A REG record's operations execute as host accesses and are answered by REG_RESULT. -/
  | reg (id seq : Nat) (ct tag : List Byte) (t : Nat)
  /-- CLOSE (R487). A CLOSE record closes the session. -/
  | close (id seq : Nat) (ct tag : List Byte) (t : Nat)
  /-- FIN_TIMEOUT (R486). No FIN within 2 s of RESP fails the handshake. -/
  | finTimeout (id t : Nat)
  /-- SESS_IDLE_TIMEOUT (R487). A session without a valid record for SESS_IDLE, or open for 86,400 s, is closed. -/
  | sessIdleTimeout (id t : Nat)
  /-- LOCKOUT_END (R487). LOCKOUT_S after a lockout the port takes INIT again. -/
  | lockoutEnd (port t : Nat)
  /-- ENTROPY_RETEST (R489). Every 1 s after a health failure the noise-source tests run again. -/
  | entropyRetest (ok : Bool) (t : Nat)
  /-- AUDIT_ACK (R491). A write of SEC_AUDIT_ACK acknowledges audit entries up to the written ASEQ. -/
  | auditAck (p : Path) (v : Nat) (t : Nat)
  /-- AUDIT_RD_DATA_READ (R491). A read of SEC_AUDIT_RD_DATA returns the next word of an audit entry and advances ENTRY after the eighth. -/
  | auditRdDataRead (p : Path) (t : Nat)
  /-- FRC_TRIM (R499). The FRC trim task measures FRC and sets or steps the trim code. -/
  | frcTrim (code : Nat) (err : Int) (t : Nat)
  /-- SERDES_ADAPT (R499). Every 1 s, and at training, SerDes receiver equalisation adapts. -/
  | serdesAdapt (p : Nat) (ok train : Bool) (t : Nat)
  /-- TEMP_READING (R500). Every 100 ms the junction temperature is read and the warning, high and critical thresholds judged. -/
  | tempReading (v : Int) (t : Nat)
  /-- NAND_PATROL (R503). Every 7 days the static NAND areas are read once and worn pages queued for refresh. -/
  | nandPatrol (worn : Nat) (t : Nat)
  /-- NAND_REFRESH (R503). A queued block copy reads back clean and the block map switches to it. -/
  | nandRefresh (maxE minE : Nat) (t : Nat)
  /-- NAND_BAD_BLOCK (R502). An erase or program fails and the block is replaced from the spare pool. -/
  | nandBadBlock (t : Nat)
  /-- INCIDENT_MIRROR_COPY (R516). An incident entry is copied to the NAND incident ring and may become free. -/
  | incidentMirrorCopy (t : Nat)
  /-- FREEZE (R512). A write of REC_CTRL.FREEZE requests a snapshot of every instrument at the next commit. -/
  | freeze (p : Path) (t : Nat)
  /-- CLR_LOST (R516). A write of REC_CTRL.CLR_LOST clears REC_LOG_LOST. -/
  | clrLost (p : Path) (t : Nat)
  /-- REC_CLR (R512). A write to REC_CLR_HIST or REC_CLR_TRK clears instruments at the next commit. -/
  | recClr (p : Path) (trk : Bool) (w v : Nat) (t : Nat)
  /-- REC_LOG_ACK (R517). A write of REC_LOG_ACK frees acknowledged incident entries, or reports ACK_RANGE. -/
  | recLogAck (p : Path) (v : Nat) (t : Nat)
  /-- REC_LOG_RD_DATA_READ (R517). A read of REC_LOG_RD_DATA returns the next word of an incident entry and advances ENTRY after the eighth. -/
  | recLogRdDataRead (p : Path) (t : Nat)
  /-- BAR2_WRITE (R524). A BAR2 write lands in its window, or is discarded as unmapped, poisoned or blocked by staging. -/
  | bar2Write (off : Nat) (b : List (Option Byte)) (ep : Bool) (t : Nat)
  /-- PERST (R525). PERST_N resets the PCIe core and endpoint state only. -/
  | perst (t : Nat)
  /-- PCIE_LINK_UP (R525). The PCIe link comes up and HST LINK_UP is reported. -/
  | pcieLinkUp (gen width t : Nat)
  /-- PCIE_LINK_DOWN (R525). The PCIe link goes down and HST LINK_DOWN is reported. -/
  | pcieLinkDown (t : Nat)
  /-- QSPI_READ (R528). A QSPI frame with opcode 0x0B reads one BAR0 register on one line. -/
  | qspiRead (off n t : Nat)
  /-- QSPI_QUAD_READ (R528). A QSPI frame with opcode 0xEB reads one BAR0 register on four lines. -/
  | qspiQuadRead (off n t : Nat)
  /-- QSPI_WRITE (R529). A QSPI frame with opcode 0x02 writes one BAR0 register at the rising edge of QS_CS_N. -/
  | qspiWrite (off v t : Nat)
  /-- QSPI_QUAD_WRITE (R529). A QSPI frame with opcode 0x32 writes one BAR0 register on four lines. -/
  | qspiQuadWrite (off v t : Nat)
  /-- QSPI_READ_STATUS (R529). A QSPI frame with opcode 0x05 returns the status octet and clears its sticky bits. -/
  | qspiReadStatus (t : Nat)
  /-- QSPI_FRAME_ERROR (R527). An unknown opcode or a frame ending inside a phase is discarded with FRAME_ERR. -/
  | qspiFrameError (off t : Nat)
  /-- HST_MAP_SEL (R533). A write of HST_MAP_SEL.GO settles the path's register-map version, or reports MAP_NO_COMMON. -/
  | hstMapSel (p : Path) (major lo hi t : Nat)
  /-- MSIX_UNMASK (R539). Unmasking a vector or the function sends the pending message of a still-asserted vector. -/
  | msixUnmask (v : Option Nat) (en mask bm : Bool) (t : Nat)
  /-- HOLDOFF_END (R539). A vector's HOLD interval ends and a deferred message is sent if the vector is still asserted. -/
  | holdoffEnd (v t : Nat)
  /-- MBX_SEND (R542). A write of HST_MBX_OUTm.GO sends the outbound message to its destination. -/
  | mbxSend (p : Path) (m len dst t : Nat)
  /-- MBX_TIMEOUT (R542). No answer to a mailbox message within 10 ms ends it TIMEOUT. -/
  | mbxTimeout (m t : Nat)
  /-- MBX_FREE (R542). Writing 1 to a FULL bit of HST_MBX_IN_STS frees that inbound mailbox. -/
  | mbxFree (p : Path) (v t : Nat)
  /-- AUDIT_MIRROR_COPY (R491). An audit entry is copied from the on-die ring to the NAND audit ring, and an unacknowledged entry that it overwrites increments LOST with SEC AUDIT_LOST. -/
  | auditMirrorCopy (t : Nat)
  /-- ENTROPY_FAIL (R489). A continuous health test of the noise source fails, clearing ENTROPY_OK and refusing INIT and challenge-needing commands. -/
  | entropyFail (t : Nat)
  /-- D3HOT (R525). A configuration write of the Power Management capability moves the endpoint between D0 and D3hot, in which BAR accesses complete as Unsupported Request and no MSI-X message is sent. -/
  | d3hot (on : Bool) (t : Nat)
deriving DecidableEq, Repr

end Sys2Proof
end

