-- ==== Sys2Proof/WellFormed.lean ====
section
/-! DEFINITION. Which operand values the outside can supply: numbers of units the device has, fields no wider than the interface that
carries them. The meanings are total and take any operand; a command that is not well formed stands for nothing outside. -/

namespace Sys2Proof

open Sys2Proof.Machine

/-- An access path that exists: four host-channel sessions (R487), 14-bit addresses (R423). -/
def Path.wf : Path → Bool
  | .sess i => i < 4
  | .tun src => src < 2 ^ 14
  | .pcie | .qspi | .debug => true

/-- The common header of a PTP message: 4-bit version, 8-bit domain, 64-bit identity, 16-bit port and sequence number (R322). -/
def PtpHdr.wf (h : PtpHdr) : Bool :=
  h.version < 16 && h.domain < 256 && h.clock < 2 ^ 64 && h.port < 2 ^ 16 && h.seq < 2 ^ 16

/-- The routing header of a Piste frame: port A, port B or the string head, 14-bit addresses (R419, R423). -/
def Machine.PstHdr.wf (h : PstHdr) : Bool := h.port < 3 && h.src < 2 ^ 14 && h.dst < 2 ^ 14

/-- The command's operands are values the outside can supply. -/
def Instr.wf : Instr → Bool
  | .registerWrite p off v _ _ => p.wf && off < 0x400000 && v < 2 ^ 32
  | .pairLowWordRead p off _ _ => p.wf && off < 0x400000
  | .seqStart p _ => p.wf
  | .seqHalt p _ => p.wf
  | .haltComplete _ => true
  | .t0 _ => true
  | .stageStart _ k _ => 1 ≤ k && k ≤ 9
  | .stageEnd _ k _ _ => 1 ≤ k && k ≤ 9
  | .stageDeadline _ k _ => 1 ≤ k && k ≤ 9
  | .failureSample _ _ => true
  | .commit _ _ => true
  | .seqWatchdog _ _ => true
  | .spArm p _ => p.wf
  | .spDisarm p _ => p.wf
  | .imgLoad p src _ => p.wf && src < 8
  | .imgCheck p src _ => p.wf && src < 8
  | .imgStore p src _ => p.wf && src < 8
  | .imgConfirm p src _ => p.wf && src < 8
  | .imgAbandon p src _ => p.wf && src < 8
  | .loadComplete _ _ => true
  | .checkComplete _ _ => true
  | .storeComplete _ _ => true
  | .sourceTimeout _ => true
  | .funcStop p v _ => p.wf && v < 2 ^ 32
  | .groupStopped g _ => g < 20
  | .funcRestart p v _ => p.wf && v < 2 ^ 32
  | .firSample k _ _ => k < 48
  | .gclkRateCheck _ _ => true
  | .occupancyWindow a rise fall _ => a < 4 && rise.length ≤ 8 && fall.length ≤ 8
  | .feSpiDone data _ => data < 2 ^ 24
  | .acqPassDone _ _ _ _ _ => true
  | .loopUpdate c _ _ _ _ _ _ _ => c < 256
  | .pullInEnd c _ => c < 256
  | .gnssEpoch _ _ _ => true
  | .gnssJobDispatch _ _ => true
  | .navWordDecoded c _ _ _ => c < 256
  | .ephemerisSave _ => true
  | .gnsRtcmData p v _ => p.wf && v < 2 ^ 32
  | .rtcmFrame _ _ => true
  | .oceReinit p _ => p.wf
  | .oceBankSwap p _ => p.wf
  | .oceBankSeal p _ => p.wf
  | .bankWordWrite p b w v _ => p.wf && b < 2 && w < 16384 && v < 2 ^ 32
  | .laneJobStart lane _ _ _ => lane < 64
  | .laneJobEnd lane _ _ _ => lane < 64
  | .laneJobDeadline lane _ _ _ _ _ => lane < 64
  | .laneMemDataRead p l _ => p.wf && l < 64
  | .laneResidueFault lane _ _ _ _ => lane < 64
  | .oceCheckFault _ _ _ => true
  | .firCheckFault _ ch _ _ => (ch.all fun x => x < 48)
  | .seqCompare _ => true
  | .sramCorrected _ _ _ _ _ _ => true
  | .sramUncorrectable _ _ _ _ _ => true
  | .forceS p _ => p.wf
  | .clrCnt p _ => p.wf
  | .errInjArm p v _ => p.wf && v < 2 ^ 32
  | .jnlRdDataRead p _ => p.wf
  | .journalMirrorCopy _ _ => true
  | .restartResume _ => true
  | .mowerPassStart _ => true
  | .mowerPassEnd _ _ => true
  | .encSample e _ _ _ => e < 32
  | .encTransferEnd e _ _ => e < 32
  | .monoflopEnd e _ => e < 32
  | .relayTransfer e _ _ => e < 32
  | .relayAbort e _ => e < 32
  | .quadEdge e _ _ _ => e < 32
  | .quadZEdge e _ => e < 32
  | .pinLevelAccept p _ _ => p < 64
  | .pwmPeriodStart p _ => p < 64
  | .safeTick raw rb _ _ _ => raw < 2 ^ 16 && rb < 2 ^ 8
  | .safeInputAccept x _ _ => x < 16
  | .discrepancyTimeout f _ => f < 8
  | .testPulseStart p raw _ => p < 2 && raw < 2 ^ 16
  | .testPulseEnd p low _ => p < 2 && low < 2 ^ 16
  | .stop1Expired f _ => f < 8
  | .resetPressEnd _ => true
  | .resetStuck _ => true
  | .twoHandSyncTimeout f _ => f < 8
  | .readbackFault o _ => o < 4
  | .darkPulse o _ _ _ => o < 4
  | .safeClockCheck _ _ _ => true
  | .safeEventDrain _ => true
  | .frcStopWatchdog _ => true
  | .sourceOffset slot _ _ => slot < 4
  | .sourceLossTimeout slot _ => slot < 4
  | .sourceRevert slot _ => slot < 4
  | .timeStep _ => true
  | .holdoverLimit _ => true
  | .ppsOutPulse _ => true
  | .ppsWidthEnd _ => true
  | .timSet p _ => p.wf
  | .timNowRead p _ => p.wf
  | .timConvRead p _ => p.wf
  | .ptpSync h _ _ _ => h.wf
  | .ptpFollowUp h _ _ => h.wf
  | .ptpAnnounce h _ _ _ => h.wf
  | .ptpDelayResp h _ _ _ => h.wf
  | .ptpAnnounceTimeout _ _ _ => true
  | .ppsInEdge _ _ => true
  | .tcapCapture b _ _ => b < 4
  | .tcapTrigger b _ => b < 4
  | .tcapArm p b v _ => p.wf && b < 4 && v < 2 ^ 32
  | .tcapCapRead p b _ => p.wf && b < 4
  | .ethLinkUp p mbps _ _ => p < 4 && (mbps = 100 || mbps = 1000)
  | .ethLinkDown p _ _ => p < 4
  | .mdioAddress a phy dev v _ => a.wf && phy < 32 && dev < 32 && v < 2 ^ 16
  | .mdioWrite a _ phy rg v _ => a.wf && phy < 32 && rg < 32 && v < 2 ^ 16
  | .mdioRead a _ phy rg _ => a.wf && phy < 32 && rg < 32
  | .mdioDone data _ _ => data < 2 ^ 16
  | .ethFrameRx p _ _ _ _ _ => p < 4
  | .ethLaunch p _ => p < 4
  | .ethTxComplete p _ _ => p < 4
  | .canFrameRx c w0 dlc _ _ data _ _ => c < 8 && w0 < 2 ^ 32 && dlc < 16 && data.length ≤ 64
  | .canIntegrated c _ => c < 8
  | .canError c lec _ tx _ _ => c < 8 && lec < 8 && (tx.all fun x => x < 32)
  | .canBusoffRecovered c _ => c < 8
  | .canProtocolException c _ => c < 8
  | .canTxLaunch c b _ => c < 8 && b < 32
  | .canTxDone c b _ _ _ => c < 8 && b < 32
  | .canTxReq a c v _ => a.wf && c < 8 && v < 2 ^ 32
  | .canTxCancel a c v att _ => a.wf && c < 8 && v < 2 ^ 32 && (att.all fun x => x < 32)
  | .canRxqPop a c q _ => a.wf && c < 8 && q < 2
  | .canHpbPop a c _ => a.wf && c < 8
  | .canProbeTimeout c _ => c < 8
  | .agreeDeadline _ _ => true
  | .redPromote p _ => p.wf
  | .redStandDown p _ => p.wf
  | .redResync p _ => p.wf
  | .redSleep p _ => p.wf
  | .clrFeed p _ => p.wf
  | .resyncCopyDone _ => true
  | .reserveWakeTimer _ => true
  | .mirrorDone _ _ => true
  | .wakeN _ => true
  | .noPartnerTimeout _ _ => true
  | .vaonLoss x _ _ => x < 2
  | .feedWarning x _ _ => x < 2
  | .feedLoss x _ _ => x < 2
  | .feedRestored x _ => x < 2
  | .pisteTrained p _ _ _ => p < 2
  | .pisteTrainTimeout p _ => p < 2
  | .pisteLaneRetry p _ _ => p < 2
  | .pisteLinkLoss p _ => p < 2
  | .helloSend p _ => p < 2
  | .helloTimeout p _ => p < 2
  | .pisteFrameError p _ _ => p < 2
  | .delayTimer p _ => p < 2
  | .hello h _ _ => h.wf
  | .noticeFailSilent h _ => h.wf
  | .noticeOutOfStep h _ => h.wf
  | .noticeActingMaster h _ => h.wf
  | .noticeMasterLost h _ => h.wf
  | .delay p _ _ _ _ _ => p < 2
  | .align h _ _ _ _ => h.wf
  | .modeStart h _ _ => h.wf
  | .join h _ _ => h.wf
  | .prepare h id groups _ => h.wf && id < 2 ^ 32 && groups < 2 ^ 20
  | .ack h id _ => h.wf && id < 2 ^ 32
  | .nack h id _ => h.wf && id < 2 ^ 32
  | .seal h id _ _ => h.wf && id < 2 ^ 32
  | .vote h id _ _ => h.wf && id < 2 ^ 32
  | .mcCommit h id _ _ => h.wf && id < 2 ^ 32
  | .mcAbort h id _ => h.wf && id < 2 ^ 32
  | .applied h id _ => h.wf && id < 2 ^ 32
  | .reload h _ => h.wf
  | .agree h _ _ => h.wf
  | .srcword h _ _ => h.wf
  | .digest h dig _ _ _ => h.wf && (dig.all fun x => x < 2 ^ 32)
  | .commitblk h _ _ => h.wf
  | .share h _ _ => h.wf
  | .multJob h _ _ _ _ _ _ => h.wf
  | .multRes h _ _ _ => h.wf
  | .gnssRec h _ _ _ _ => h.wf
  | .ckpt h _ _ _ _ _ _ => h.wf
  | .jrec h _ _ _ => h.wf
  | .tunnel h _ _ => h.wf
  | .image h _ _ => h.wf
  | .handback p _ => p.wf
  | .pstReload p _ => p.wf
  | .mcPrepare p groups _ => p.wf && groups < 2 ^ 20
  | .mcSeal p _ => p.wf
  | .mcHostAbort p _ => p.wf
  | .prepDlTimeout _ => true
  | .appliedCheck _ => true
  | .tunnelRead p dst _ => p.wf && dst < 2 ^ 14
  | .tunnelWrite p dst _ => p.wf && dst < 2 ^ 14
  | .tunnelTimeout _ => true
  | .imgdGo p _ => p.wf
  | .sourceProven k _ => k < 11
  | .pllLocked x _ => x < 5
  | .clockMonitorTrip k _ => k < 11
  | .noClockTimeout _ => true
  | .clockReturn d _ => d < 12
  | .rampStep d _ => d < 12
  | .clkGateReq p v _ => p.wf && v < 2 ^ 32
  | .gateDone d _ => d < 12
  | .gateBusy d _ => d < 12
  | .accessTimeout _ => true
  | .fmeasGo p v _ => p.wf && v < 2 ^ 32
  | .fmeasAbort p _ => p.wf
  | .fmeasDone _ _ => true
  | .por => true
  | .pinReset => true
  | .sysReset p key _ => p.wf && key < 2 ^ 32
  | .mainDieRelease straps _ _ _ _ _ _ _ => straps < 2 ^ 8
  | .phyResetRelease _ => true
  | .railsGood _ => true
  | .railUndervoltage _ _ => true
  | .pwrDoze p _ => p.wf
  | .pwrWake p _ => p.wf
  | .pwrSleep p _ => p.wf
  | .sleepEntryComplete _ _ => true
  | .sleepExit _ => true
  | .getId p _ => p.wf
  | .provision p _ _ => p.wf
  | .addKey p _ _ => p.wf
  | .revoke p _ _ => p.wf
  | .raiseSecver p _ _ => p.wf
  | .setClockOtp p _ _ => p.wf
  | .deploy p _ _ => p.wf
  | .retire p _ _ => p.wf
  | .debugUnlock p _ => p.wf
  | .debugLock p _ => p.wf
  | .auditSeal p _ => p.wf
  | .jtagExtest _ => true
  | .init port _ _ _ => port < 4
  | .fin _ sig _ => sig.length = 96
  | .reg _ _ _ tag _ => tag.length = 16
  | .close _ _ _ tag _ => tag.length = 16
  | .finTimeout _ _ => true
  | .sessIdleTimeout _ _ => true
  | .lockoutEnd port _ => port < 4
  | .entropyRetest _ _ => true
  | .auditAck p v _ => p.wf && v < 2 ^ 32
  | .auditRdDataRead p _ => p.wf
  | .frcTrim _ _ _ => true
  | .serdesAdapt p _ _ _ => p < 7
  | .tempReading _ _ => true
  | .nandPatrol _ _ => true
  | .nandRefresh _ _ _ => true
  | .nandBadBlock _ => true
  | .incidentMirrorCopy _ => true
  | .freeze p _ => p.wf
  | .clrLost p _ => p.wf
  | .recClr p _ w v _ => p.wf && w < 4 && v < 2 ^ 32
  | .recLogAck p v _ => p.wf && v < 2 ^ 32
  | .recLogRdDataRead p _ => p.wf
  | .bar2Write off _ _ _ => off < 0x4000000
  | .perst _ => true
  | .pcieLinkUp gen width _ => 1 ≤ gen && gen ≤ 3 && 1 ≤ width && width ≤ 2
  | .pcieLinkDown _ => true
  | .qspiRead off _ _ => off < 0x1000000
  | .qspiQuadRead off _ _ => off < 0x1000000
  | .qspiWrite off v _ => off < 0x1000000 && v < 2 ^ 32
  | .qspiQuadWrite off v _ => off < 0x1000000 && v < 2 ^ 32
  | .qspiReadStatus _ => true
  | .qspiFrameError off _ => off < 0x1000000
  | .hstMapSel p major lo hi _ => p.wf && major < 16 && lo < 16 && hi < 16
  | .msixUnmask v _ _ _ _ => (v.all fun x => x < 32)
  | .holdoffEnd v _ => v < 32
  | .mbxSend p m len dst _ => p.wf && m < 4 && len < 2 ^ 11 && dst < 2 ^ 14
  | .mbxTimeout m _ => m < 4
  | .mbxFree p v _ => p.wf && v < 2 ^ 32
  | .auditMirrorCopy _ => true
  | .entropyFail _ => true
  | .d3hot _ _ => true

end Sys2Proof
end

