-- ==== Sys2Proof/Decode.lean ====
section
/-! DEFINITION. The command that a word spells by the bits of spec/opcode_table.json. No row of the table gives bits: the commands are register
accesses, frames, pin and clock events, and no word spells one. -/

namespace Sys2Proof

/-- The command spelled by the `nbits`-bit word `w`: none, since no row of the table gives bits. -/
def decodeTableWord (_nbits _w : Nat) : Option Instr := none

end Sys2Proof
end

