-- ==== Sys2Proof/Machine/Float.lean ====
section
/-! DEFINITION. IEEE 754 binary32 and binary64 by exact integer arithmetic: decoding, rounding to nearest even and the
operations the spec names (its results in binary32 and binary64 are rounded to nearest even, subnormals kept). -/

namespace Sys2Proof.Machine

open Sys2Proof

/-- A floating-point value: not a number, an infinity, or (−1)^neg · m · 2^e. -/
inductive FVal where
  | nan
  | inf (neg : Bool)
  | fin (neg : Bool) (m : Nat) (e : Int)
deriving DecidableEq, Repr

/-- A binary format: fraction bits, exponent bits. -/
structure FFmt where
  mb : Nat
  eb : Nat
deriving DecidableEq, Repr

/-- binary32. -/
def fmt32 : FFmt := ⟨23, 8⟩
/-- binary64. -/
def fmt64 : FFmt := ⟨52, 11⟩

/-- The exponent bias of a format. -/
def FFmt.bias (f : FFmt) : Nat := 2 ^ (f.eb - 1) - 1

/-- Decode the bits `b` of format `f`. -/
def fdec (f : FFmt) (b : Nat) : FVal :=
  let m := b % 2 ^ f.mb
  let e := b / 2 ^ f.mb % 2 ^ f.eb
  let neg := b / 2 ^ (f.mb + f.eb) % 2 = 1
  if e = 2 ^ f.eb - 1 then (if m = 0 then .inf neg else .nan)
  else if e = 0 then .fin neg m (1 - f.bias - f.mb)
  else .fin neg (m + 2 ^ f.mb) ((e : Int) - f.bias - f.mb)

/-- The quiet NaN the operations answer. -/
def fnanBits (f : FFmt) : Nat := (2 ^ (f.eb + 1) - 1) * 2 ^ (f.mb - 1)

/-- The bits of an infinity. -/
def finfBits (f : FFmt) (neg : Bool) : Nat :=
  (if neg then 2 ^ (f.mb + f.eb) else 0) + (2 ^ f.eb - 1) * 2 ^ f.mb

/-- `m / 2^k` rounded to nearest, ties to even; `st` says that a nonzero part below `m` was cut off before. -/
def shrRne (m k : Nat) (st : Bool) : Nat :=
  let q := m / 2 ^ k
  let r := 2 * (m % 2 ^ k)
  let h := 2 ^ k
  if k = 0 then q
  else if r > h ∨ (r = h ∧ (st ∨ q % 2 = 1)) then q + 1 else q

/-- Round (−1)^neg · (m, plus a nonzero part below it if `st`) · 2^e to format `f`, to nearest even; overflow gives an infinity. -/
def fround (f : FFmt) (neg : Bool) (m : Nat) (e : Int) (st : Bool) : Nat :=
  let sgn := if neg then 2 ^ (f.mb + f.eb) else 0
  if m = 0 then sgn
  else
    let emin : Int := 1 - f.bias - f.mb
    -- bring a short significand up to mb + 3 bits so that `st` lies below the rounding bit
    let pad := (f.mb + 3) - Nat.log2 m
    let m := m * 2 ^ pad
    let e := e - pad
    let l := Nat.log2 m
    let cut := max ((l : Int) - f.mb) (emin - e)
    let q := shrRne m cut.toNat st
    let e' := e + cut.toNat
    -- q may have grown one bit by the rounding
    let (q, e') := if q ≥ 2 ^ (f.mb + 1) then (q / 2, e' + 1) else (q, e')
    if q < 2 ^ f.mb then sgn + q
    else
      let be := e' + f.bias + f.mb
      if be ≥ 2 ^ f.eb - 1 then finfBits f neg
      else sgn + be.toNat * 2 ^ f.mb + (q - 2 ^ f.mb)

/-- The bits of a value in format `f`. -/
def fenc (f : FFmt) : FVal → Nat
  | .nan => fnanBits f
  | .inf n => finfBits f n
  | .fin n m e => fround f n m e false

/-- The signed integer significand of a finite value. -/
def fsig (neg : Bool) (m : Nat) : Int := if neg then -(m : Int) else m

/-- The exact sum of two finite values, as a signed significand and an exponent. -/
def dyAdd (a : Int × Int) (b : Int × Int) : Int × Int :=
  let e := min a.2 b.2
  (a.1 * 2 ^ (a.2 - e).toNat + b.1 * 2 ^ (b.2 - e).toNat, e)

/-- Round a signed significand times a power of two; an exact zero takes the sign `zneg`. -/
def froundI (f : FFmt) (v : Int × Int) (zneg : Bool) : Nat :=
  if v.1 = 0 then fround f zneg 0 0 false else fround f (v.1 < 0) v.1.natAbs v.2 false

/-- a + b in format `f`. -/
def fadd (f : FFmt) (a b : Nat) : Nat :=
  match fdec f a, fdec f b with
  | .nan, _ => fnanBits f
  | _, .nan => fnanBits f
  | .inf x, .inf y => if x = y then finfBits f x else fnanBits f
  | .inf x, _ => finfBits f x
  | _, .inf y => finfBits f y
  | .fin n m e, .fin n' m' e' => froundI f (dyAdd (fsig n m, e) (fsig n' m', e')) (n && n')

/-- −a: the sign bit turned over. -/
def fneg (f : FFmt) (a : Nat) : Nat :=
  let s := 2 ^ (f.mb + f.eb)
  if a / s % 2 = 1 then a - s else a + s

/-- |a|: the sign bit cleared. -/
def fabs (f : FFmt) (a : Nat) : Nat := a % 2 ^ (f.mb + f.eb)

/-- a − b. -/
def fsub (f : FFmt) (a b : Nat) : Nat := fadd f a (fneg f b)

/-- a · b. -/
def fmul (f : FFmt) (a b : Nat) : Nat :=
  match fdec f a, fdec f b with
  | .nan, _ => fnanBits f
  | _, .nan => fnanBits f
  | .inf x, .inf y => finfBits f (x != y)
  | .inf x, .fin y m _ => if m = 0 then fnanBits f else finfBits f (x != y)
  | .fin x m _, .inf y => if m = 0 then fnanBits f else finfBits f (x != y)
  | .fin n m e, .fin n' m' e' => fround f (n != n') (m * m') (e + e') false

/-- a · b + c with one rounding. -/
def ffma (f : FFmt) (a b c : Nat) : Nat :=
  match fdec f a, fdec f b, fdec f c with
  | .fin n m e, .fin n' m' e', .fin n'' m'' e'' =>
    froundI f (dyAdd (fsig (n != n') (m * m'), e + e') (fsig n'' m'', e'')) ((n != n') && n'')
  | .fin _ _ _, .fin _ _ _, .inf y => finfBits f y
  | _, _, _ => fadd f (fmul f a b) c

/-- a / b. -/
def fdiv (f : FFmt) (a b : Nat) : Nat :=
  match fdec f a, fdec f b with
  | .nan, _ => fnanBits f
  | _, .nan => fnanBits f
  | .inf _, .inf _ => fnanBits f
  | .inf x, .fin y _ _ => finfBits f (x != y)
  | .fin x _ _, .inf y => fround f (x != y) 0 0 false
  | .fin n m e, .fin n' m' e' =>
    if m' = 0 then (if m = 0 then fnanBits f else finfBits f (n != n'))
    else
      let k := 2 * f.mb + 8 + Nat.log2 m'
      let q := m * 2 ^ k / m'
      fround f (n != n') q (e - e' - k) (m * 2 ^ k % m' ≠ 0)

/-- √a. -/
def fsqrt (f : FFmt) (a : Nat) : Nat :=
  match fdec f a with
  | .nan => fnanBits f
  | .inf n => if n then fnanBits f else finfBits f false
  | .fin n m e =>
    if m = 0 then fround f n 0 0 false
    else if n then fnanBits f
    else
      -- make the exponent even and the significand long enough
      let k := 2 * f.mb + 8 + (if e % 2 = 0 then 0 else 1)
      let k := if (e - k) % 2 = 0 then k else k + 1
      let w := m * 2 ^ k
      let r := Nat.sqrt w
      fround f false r ((e - k) / 2) (r * r ≠ w)

/-- The value is finite. -/
def ffinite (f : FFmt) (a : Nat) : Bool :=
  match fdec f a with
  | .fin _ _ _ => true
  | _ => false

/-- The value is +0 or −0. -/
def fzero (f : FFmt) (a : Nat) : Bool := fabs f a = 0

/-- a < b; false when either is not a number. -/
def flt (f : FFmt) (a b : Nat) : Bool :=
  match fdec f a, fdec f b with
  | .nan, _ => false
  | _, .nan => false
  | .inf x, .inf y => x && !y
  | .inf x, .fin _ _ _ => x
  | .fin _ _ _, .inf y => !y
  | .fin n m e, .fin n' m' e' =>
    (dyAdd (fsig n m, e) (fsig (!n') m', e')).1 < 0

/-- a = b as values; false when either is not a number. -/
def feq (f : FFmt) (a b : Nat) : Bool :=
  match fdec f a, fdec f b with
  | .nan, _ => false
  | _, .nan => false
  | _, _ => !flt f a b && !flt f b a

/-- a ≤ b. -/
def fle (f : FFmt) (a b : Nat) : Bool := flt f a b || feq f a b

/-- max, min by value, the first where equal. -/
def fmax (f : FFmt) (a b : Nat) : Nat := if flt f a b then b else a
/-- The smaller of two values, the first where equal. -/
def fmin (f : FFmt) (a b : Nat) : Nat := if flt f b a then b else a

/-- An integer in format `f`, to nearest even. -/
def fofInt (f : FFmt) (i : Int) : Nat := fround f (i < 0) i.natAbs 0 false

/-- i · 2^e in format `f`, to nearest even. -/
def fofDy (f : FFmt) (i : Int) (e : Int) : Nat := fround f (i < 0) i.natAbs e false

/-- The quotient of two integers (the second positive) in format `f`, one rounding. -/
def fofRat (f : FFmt) (p : Int) (q : Nat) : Nat :=
  let k := 2 * f.mb + 8 + Nat.log2 q
  fround f (p < 0) (p.natAbs * 2 ^ k / q) (-(k : Int)) (p.natAbs * 2 ^ k % q ≠ 0)

/-- ⌊value⌋ of a finite value as an integer, none when not finite. -/
def ffloor (f : FFmt) (a : Nat) : Option Int :=
  match fdec f a with
  | .fin n m e => some (if 0 ≤ e then fsig n m * 2 ^ e.toNat else fsig n m / 2 ^ (-e).toNat)
  | _ => none

/-- The nearest integer, ties to even, none when not finite. -/
def frne (f : FFmt) (a : Nat) : Option Int :=
  match fdec f a with
  | .fin n m e => some (fsig n (if 0 ≤ e then m * 2 ^ e.toNat else shrRne m (-e).toNat false))
  | _ => none

/-- Convert between formats, rounding to nearest even. -/
def fconv (f g : FFmt) (a : Nat) : Nat :=
  match fdec f a with
  | .nan => fnanBits g
  | .inf n => finfBits g n
  | .fin n m e => fround g n m e false

/-- Short name of the binary32 format. -/
abbrev f32 := fmt32

/-- binary32 sum. -/
def a32 (a b : Nat) : Nat := fadd fmt32 a b
/-- binary32 difference. -/
def s32 (a b : Nat) : Nat := fsub fmt32 a b
/-- binary32 product. -/
def m32 (a b : Nat) : Nat := fmul fmt32 a b
/-- binary32 quotient. -/
def d32 (a b : Nat) : Nat := fdiv fmt32 a b
/-- binary32 fused multiply-add. -/
def ma32 (a b c : Nat) : Nat := ffma fmt32 a b c
/-- binary32 absolute value. -/
def abs32 (a : Nat) : Nat := fabs fmt32 a
/-- binary32 order. -/
def lt32 (a b : Nat) : Bool := flt fmt32 a b
/-- binary32 order, with equality. -/
def le32 (a b : Nat) : Bool := fle fmt32 a b
/-- binary32 of an integer. -/
def i32 (i : Int) : Nat := fofInt fmt32 i
/-- binary32 1.0. -/
def one32 : Nat := 0x3F800000

end Sys2Proof.Machine
end

