-- ==== Sys2Proof/Machine/RegTable.lean ====
section
/-! DEFINITION. The register table: every register's offset, array dimensions, owning group and fields with access type (R14)
and Reset column, from the register tables of spec/00 to spec/18. -/

namespace Sys2Proof.Machine

open Sys2Proof

/-- Part 0 of the register table. -/
def regTable0 : List RegRow :=
  [ ⟨"GLB_VARIANT", 0x4, [], .none, [⟨20, 4, .ro, 0⟩, ⟨16, 4, .ro, 0⟩, ⟨12, 1, .ro, 0⟩, ⟨8, 4, .ro, 0⟩, ⟨0, 8, .ro, 0⟩]⟩
  , ⟨"SEQ_CTRL", 0x50000, [], .none, [⟨1, 1, .wo, 63⟩, ⟨0, 1, .wo, 63⟩]⟩
  , ⟨"SEQ_STATUS", 0x50004, [], .none, [⟨13, 1, .ro, 63⟩, ⟨12, 1, .w1c, 63⟩, ⟨11, 1, .ro, 39⟩, ⟨10, 1, .ro, 63⟩, ⟨9, 1, .w1c, 63⟩, ⟨8, 1, .w1c, 63⟩, ⟨4, 1, .ro, 63⟩, ⟨0, 2, .ro, 63⟩]⟩
  , ⟨"SEQ_PERIOD", 0x50008, [], .none, [⟨0, 21, .rwi, 39⟩]⟩
  , ⟨"SEQ_COMMIT_OFS", 0x5000C, [], .none, [⟨0, 21, .rwi, 39⟩]⟩
  , ⟨"SEQ_T0_PHASE", 0x50010, [], .none, [⟨0, 21, .rwi, 39⟩]⟩
  , ⟨"SEQ_CYC_LO", 0x50014, [], .none, [⟨0, 32, .ro, 39⟩]⟩
  , ⟨"SEQ_CYC_HI", 0x50018, [], .none, [⟨0, 16, .ro, 39⟩]⟩
  , ⟨"SEQ_MISS_CFG", 0x50024, [], .none, [⟨0, 8, .rwi, 39⟩]⟩
  , ⟨"SEQ_COND", 0x50028, [], .none, [⟨0, 16, .ro, 63⟩]⟩
  , ⟨"SEQ_MODE_REQ", 0x50030, [], .none, [⟨0, 3, .rw, 63⟩]⟩
  , ⟨"SEQ_MODE_ACT", 0x50034, [], .none, [⟨8, 6, .rwi, 39⟩, ⟨0, 3, .ro, 39⟩]⟩
  , ⟨"SEQ_SP_CTRL", 0x50038, [], .none, [⟨1, 1, .w1c, 63⟩, ⟨0, 1, .rw, 63⟩]⟩
  , ⟨"SEQ_STG_LAST", 0x5011C, [(9, 0x10)], .none, [⟨31, 1, .ro, 63⟩, ⟨30, 1, .ro, 63⟩, ⟨0, 21, .ro, 63⟩]⟩
  , ⟨"IMG_CTRL", 0x40000, [], .none, [⟨4, 3, .rw, 63⟩, ⟨0, 4, .wo, 63⟩]⟩
  , ⟨"IMG_STATUS", 0x40004, [], .none, [⟨17, 1, .ro, 39⟩, ⟨16, 1, .w1c, 39⟩, ⟨12, 3, .ro, 39⟩, ⟨8, 1, .ro, 63⟩, ⟨4, 3, .ro, 63⟩, ⟨0, 2, .ro, 39⟩]⟩
  , ⟨"IMG_SLOT_STS", 0x40024, [], .none, [⟨24, 8, .ro, 39⟩, ⟨18, 1, .ro, 39⟩, ⟨16, 2, .ro, 39⟩, ⟨8, 8, .ro, 39⟩, ⟨2, 1, .ro, 39⟩, ⟨0, 2, .ro, 39⟩]⟩
  , ⟨"IMG_CAPS", 0x40028, [], .none, [⟨8, 8, .ro, 0⟩, ⟨0, 8, .ro, 0⟩]⟩
  , ⟨"IMG_COND", 0x4002C, [], .none, [⟨0, 16, .ro, 63⟩]⟩
  , ⟨"IMG_FUNC_ERR", 0x40040, [], .none, [⟨24, 5, .ro, 63⟩, ⟨0, 24, .ro, 63⟩]⟩
  , ⟨"FLT_STATUS", 0x60000, [], .none, [⟨8, 8, .ro, 39⟩, ⟨0, 6, .ro, 39⟩]⟩
  , ⟨"FLT_EVT", 0x60010, [(3, 0x4)], .none, [⟨0, 32, .w1c, 63⟩]⟩
  , ⟨"FLT_EVT_EN", 0x60020, [(3, 0x4)], .none, [⟨0, 32, .rw, 63⟩]⟩
  , ⟨"FLT_CH_CFG", 0x61000, [(48, 0x20)], .fixed 0, [⟨24, 8, .rwl, 39⟩, ⟨16, 8, .rwl, 39⟩, ⟨0, 2, .rwl, 39⟩]⟩
  , ⟨"FLT_CH_SHAPE", 0x61004, [(48, 0x20)], .fixed 0, [⟨16, 9, .rwl, 39⟩, ⟨0, 7, .rwl, 39⟩]⟩
  , ⟨"FLT_CH_TICK", 0x61008, [(48, 0x20)], .fixed 0, [⟨0, 20, .rwl, 39⟩]⟩
  , ⟨"FLT_CH_GD", 0x6100C, [(48, 0x20)], .none, [⟨0, 32, .ro, 39⟩]⟩
  , ⟨"FLT_CH_SKEW", 0x61010, [(48, 0x20)], .none, [⟨0, 32, .ro, 39⟩]⟩
  , ⟨"FLT_CH_STS", 0x61014, [(48, 0x20)], .none, [⟨31, 1, .ro, 39⟩, ⟨30, 1, .ro, 39⟩, ⟨29, 1, .ro, 39⟩, ⟨28, 1, .ro, 39⟩, ⟨0, 16, .ro, 39⟩]⟩
  , ⟨"FLT_CH_OUT", 0x61018, [(48, 0x20)], .none, [⟨0, 32, .ro, 39⟩]⟩ ]

/-- Part 1 of the register table. -/
def regTable1 : List RegRow :=
  [ ⟨"FLT_TH_CFG", 0x62008, [(48, 0x20), (2, 0x10)], .fixed 0, [⟨31, 1, .rwl, 39⟩, ⟨18, 1, .rwl, 39⟩, ⟨17, 1, .rwl, 39⟩, ⟨16, 1, .rwl, 39⟩, ⟨8, 1, .rwl, 39⟩, ⟨0, 8, .rwl, 39⟩]⟩
  , ⟨"FLT_TH_STS", 0x6200C, [(48, 0x20), (2, 0x10)], .none, [⟨31, 1, .ro, 39⟩, ⟨0, 16, .ro, 39⟩]⟩
  , ⟨"INT_SLOT_STS", 0x6D01C, [(256, 0x20)], .none, [⟨29, 3, .ro, 39⟩, ⟨28, 1, .ro, 39⟩, ⟨27, 1, .ro, 39⟩, ⟨26, 1, .ro, 39⟩, ⟨25, 1, .ro, 39⟩, ⟨16, 8, .ro, 39⟩, ⟨0, 3, .ro, 39⟩]⟩
  , ⟨"REF_STATUS", 0x70000, [], .none, [⟨31, 1, .ro, 39⟩, ⟨30, 1, .ro, 39⟩, ⟨29, 1, .ro, 39⟩, ⟨28, 1, .ro, 39⟩, ⟨27, 1, .ro, 39⟩, ⟨8, 3, .ro, 39⟩, ⟨0, 4, .ro, 39⟩]⟩
  , ⟨"REF_SELECT", 0x70004, [], .fixed 0, [⟨8, 4, .rwl, 39⟩, ⟨0, 8, .rwl, 39⟩]⟩
  , ⟨"REF_POS_CFG", 0x70100, [(8, 0x20)], .none, [⟨31, 1, .rwi, 39⟩, ⟨0, 8, .rwi, 39⟩]⟩
  , ⟨"REF_HDG_CFG", 0x70200, [(4, 0x20)], .none, [⟨31, 1, .rwi, 39⟩, ⟨0, 8, .rwi, 39⟩]⟩
  , ⟨"REF_POS_LEVER", 0x70104, [(8, 0x20), (3, 0x4)], .none, [⟨0, 32, .rwi, 39⟩]⟩
  , ⟨"REF_HDG_OFFSET", 0x70204, [(4, 0x20)], .none, [⟨0, 32, .rwi, 39⟩]⟩
  , ⟨"REF_POS_REASON", 0x70110, [(8, 0x20)], .none, [⟨8, 8, .ro, 39⟩, ⟨0, 8, .ro, 39⟩]⟩
  , ⟨"REF_HDG_REASON", 0x70208, [(4, 0x20)], .none, [⟨8, 8, .ro, 39⟩, ⟨0, 8, .ro, 39⟩]⟩
  , ⟨"REF_POS_WEIGHT", 0x70114, [(8, 0x20)], .none, [⟨0, 32, .ro, 39⟩]⟩
  , ⟨"REF_HDG_WEIGHT", 0x7020C, [(4, 0x20)], .none, [⟨0, 32, .ro, 39⟩]⟩
  , ⟨"REF_POS_SIGMA", 0x70118, [(8, 0x20)], .none, [⟨0, 32, .ro, 39⟩]⟩
  , ⟨"REF_HDG_SIGMA", 0x70210, [(4, 0x20)], .none, [⟨0, 32, .ro, 39⟩]⟩
  , ⟨"REF_POS_DRIFT", 0x7011C, [(8, 0x20)], .none, [⟨0, 32, .ro, 39⟩]⟩
  , ⟨"REF_HDG_DRIFT", 0x70214, [(4, 0x20)], .none, [⟨0, 32, .ro, 39⟩]⟩
  , ⟨"GNS_STATUS", 0x180000, [], .none, [⟨28, 1, .ro, 63⟩, ⟨24, 4, .ro, 63⟩, ⟨23, 1, .ro, 63⟩, ⟨0, 9, .ro, 63⟩]⟩
  , ⟨"GNS_CFG", 0x180004, [], .none, [⟨20, 4, .rwi, 39⟩, ⟨16, 4, .rwi, 39⟩, ⟨0, 10, .rwi, 39⟩]⟩
  , ⟨"GNS_LANES_LO", 0x180008, [], .none, [⟨4, 28, .rwi, 39⟩]⟩
  , ⟨"GNS_LANES_HI", 0x18000C, [], .none, [⟨0, 32, .rwi, 39⟩]⟩
  , ⟨"GNS_COND", 0x180010, [], .none, [⟨0, 16, .ro, 63⟩]⟩
  , ⟨"GNS_RTCM_DATA", 0x180014, [], .none, [⟨0, 8, .wo, 0⟩]⟩
  , ⟨"GNS_RTCM_STS", 0x180018, [], .none, [⟨18, 14, .ro, 63⟩, ⟨17, 1, .w1c, 63⟩, ⟨8, 8, .ro, 63⟩, ⟨0, 8, .ro, 63⟩]⟩
  , ⟨"GNS_ANT_STS", 0x180020, [(4, 0x4)], .none, [⟨31, 1, .ro, 63⟩, ⟨30, 1, .ro, 39⟩, ⟨16, 8, .ro, 63⟩, ⟨0, 10, .ro, 63⟩]⟩
  , ⟨"GNS_PVT_STS", 0x180040, [], .none, [⟨30, 2, .ro, 39⟩, ⟨29, 1, .ro, 39⟩, ⟨16, 8, .ro, 39⟩, ⟨8, 8, .ro, 39⟩, ⟨0, 4, .ro, 39⟩]⟩
  , ⟨"GNS_ATT_STS", 0x180080, [], .none, [⟨31, 1, .ro, 39⟩, ⟨28, 3, .ro, 39⟩, ⟨27, 1, .ro, 39⟩, ⟨0, 16, .ro, 39⟩]⟩
  , ⟨"GNS_DIFF_STS", 0x1800A0, [], .none, [⟨31, 1, .ro, 63⟩, ⟨30, 1, .ro, 63⟩, ⟨16, 12, .ro, 63⟩]⟩
  , ⟨"GNS_DIFF_AGE", 0x1800A4, [], .none, [⟨0, 32, .ro, 63⟩]⟩
  , ⟨"GNS_LOOP_PLL", 0x180110, [(4, 0x10)], .none, [⟨31, 1, .rwi, 39⟩, ⟨30, 1, .rwi, 39⟩, ⟨16, 8, .rwi, 39⟩, ⟨0, 16, .rwi, 39⟩]⟩ ]

/-- Part 2 of the register table. -/
def regTable2 : List RegRow :=
  [ ⟨"GNS_LOOP_DLL", 0x180114, [(4, 0x10)], .none, [⟨16, 8, .rwi, 39⟩, ⟨0, 16, .rwi, 39⟩]⟩
  , ⟨"GNS_LOOP_COR", 0x180118, [(4, 0x10)], .none, [⟨16, 8, .rwi, 39⟩, ⟨8, 8, .rwi, 39⟩, ⟨0, 8, .rwi, 39⟩]⟩
  , ⟨"GNS_CH_STS", 0x181000, [(256, 0x40)], .none, [⟨31, 1, .ro, 63⟩, ⟨30, 1, .ro, 63⟩, ⟨29, 1, .ro, 63⟩, ⟨28, 1, .ro, 63⟩, ⟨27, 1, .ro, 63⟩, ⟨26, 1, .ro, 63⟩, ⟨25, 1, .ro, 63⟩, ⟨24, 1, .ro, 63⟩, ⟨20, 2, .ro, 63⟩, ⟨16, 4, .ro, 63⟩, ⟨8, 8, .ro, 63⟩]⟩
  , ⟨"GNS_CH_TX_SEC", 0x181004, [(256, 0x40)], .none, [⟨0, 20, .ro, 63⟩]⟩
  , ⟨"GNS_CH_CODE_INT", 0x181008, [(256, 0x40)], .none, [⟨0, 32, .ro, 63⟩]⟩
  , ⟨"GNS_CH_CODE_FRAC", 0x18100C, [(256, 0x40)], .none, [⟨0, 32, .ro, 63⟩]⟩
  , ⟨"GNS_CH_PHASE_LO", 0x181010, [(256, 0x40)], .none, [⟨0, 32, .ro, 63⟩]⟩
  , ⟨"GNS_CH_PHASE_HI", 0x181014, [(256, 0x40)], .none, [⟨0, 32, .ro, 63⟩]⟩
  , ⟨"GNS_CH_DOPPLER", 0x181018, [(256, 0x40)], .none, [⟨0, 32, .ro, 63⟩]⟩
  , ⟨"GNS_CH_CN0", 0x18101C, [(256, 0x40)], .none, [⟨16, 16, .ro, 63⟩, ⟨0, 16, .ro, 63⟩]⟩
  , ⟨"GNS_CH_LOCK_MS", 0x181020, [(256, 0x40)], .none, [⟨0, 32, .ro, 63⟩]⟩
  , ⟨"OCE_STATUS", 0x80000, [], .none, [⟨31, 1, .ro, 39⟩, ⟨30, 1, .ro, 39⟩, ⟨29, 1, .ro, 39⟩, ⟨28, 1, .ro, 39⟩, ⟨27, 1, .ro, 39⟩, ⟨26, 1, .ro, 39⟩, ⟨25, 1, .ro, 39⟩, ⟨24, 1, .ro, 39⟩, ⟨23, 1, .ro, 39⟩, ⟨8, 5, .ro, 39⟩, ⟨0, 2, .ro, 39⟩]⟩
  , ⟨"OCE_CTRL", 0x80004, [], .none, [⟨0, 1, .wo, 63⟩]⟩
  , ⟨"OCE_COND", 0x80008, [], .none, [⟨0, 16, .ro, 63⟩]⟩
  , ⟨"OCE_CFG", 0x8000C, [], .none, [⟨26, 6, .rwi, 39⟩, ⟨20, 6, .rwi, 39⟩, ⟨15, 5, .rwi, 39⟩, ⟨12, 3, .rwi, 39⟩, ⟨8, 4, .rwi, 39⟩, ⟨0, 1, .rwi, 39⟩]⟩
  , ⟨"OCE_LIMITS", 0x80010, [], .none, [⟨16, 16, .rwi, 39⟩, ⟨0, 16, .rwi, 39⟩]⟩
  , ⟨"OCE_BANK_CTRL", 0x80014, [], .none, [⟨8, 1, .ro, 39⟩, ⟨1, 1, .wo, 63⟩, ⟨0, 1, .wo, 63⟩]⟩
  , ⟨"OCE_BANK_STS", 0x80018, [], .none, [⟨24, 8, .ro, 39⟩, ⟨16, 8, .ro, 39⟩, ⟨8, 8, .ro, 63⟩, ⟨6, 1, .ro, 39⟩, ⟨5, 1, .ro, 63⟩, ⟨4, 1, .ro, 39⟩, ⟨3, 1, .ro, 39⟩, ⟨2, 1, .ro, 63⟩, ⟨1, 1, .ro, 63⟩, ⟨0, 1, .ro, 39⟩]⟩
  , ⟨"OCE_COUNT", 0x8001C, [], .none, [⟨16, 16, .ro, 39⟩, ⟨0, 16, .ro, 39⟩]⟩
  , ⟨"OCE_MROW", 0x80080, [(24, 0x4)], .none, [⟨31, 1, .ro, 39⟩, ⟨24, 3, .ro, 39⟩, ⟨0, 24, .ro, 39⟩]⟩
  , ⟨"SLV_SEL_STATUS", 0x140000, [], .none, [⟨24, 8, .ro, 39⟩, ⟨16, 8, .ro, 39⟩, ⟨12, 1, .ro, 39⟩, ⟨11, 1, .ro, 39⟩, ⟨8, 3, .ro, 39⟩, ⟨0, 6, .ro, 39⟩]⟩
  , ⟨"SLV_SEL_CFG", 0x140004, [], .none, [⟨23, 9, .rwi, 39⟩, ⟨15, 8, .rwi, 39⟩, ⟨8, 4, .rwi, 39⟩, ⟨0, 5, .rwi, 39⟩]⟩
  , ⟨"SLV_SEL_TIMING", 0x140008, [], .none, [⟨16, 16, .rwi, 39⟩, ⟨14, 2, .ro, 39⟩, ⟨0, 10, .rwi, 39⟩]⟩
  , ⟨"SLV_SEL_COND", 0x14000C, [], .none, [⟨0, 16, .ro, 63⟩]⟩
  , ⟨"SLV_SEL_LOST_LO", 0x140010, [], .none, [⟨0, 32, .ro, 39⟩]⟩
  , ⟨"SLV_SEL_LOST_HI", 0x140014, [], .none, [⟨0, 32, .ro, 39⟩]⟩
  , ⟨"SLV_SEL_LOST_PWR", 0x140018, [], .none, [⟨8, 16, .ro, 39⟩, ⟨0, 8, .ro, 39⟩]⟩
  , ⟨"SLV_CA_SUMMARY", 0x14001C, [], .none, [⟨30, 2, .ro, 39⟩, ⟨16, 8, .ro, 39⟩, ⟨8, 8, .ro, 39⟩, ⟨0, 8, .ro, 39⟩]⟩
  , ⟨"SLV_CA_VERDICT", 0x141000, [(256, 0x8)], .none, [⟨30, 2, .ro, 39⟩, ⟨29, 1, .ro, 39⟩, ⟨28, 1, .ro, 39⟩, ⟨27, 1, .ro, 39⟩, ⟨24, 3, .ro, 39⟩, ⟨0, 16, .ro, 39⟩]⟩
  , ⟨"SLV_LANE_STATUS", 0x100000, [(64, 0x1000)], .none, [⟨31, 1, .ro, 39⟩, ⟨30, 1, .ro, 63⟩, ⟨28, 2, .rwi, 39⟩, ⟨0, 15, .ro, 39⟩]⟩ ]

/-- Part 3 of the register table. -/
def regTable3 : List RegRow :=
  [ ⟨"SLV_LANE_CFG", 0x100004, [(64, 0x1000)], .none, [⟨0, 7, .rwi, 39⟩]⟩
  , ⟨"SLV_LANE_COND", 0x100008, [(64, 0x1000)], .none, [⟨0, 16, .ro, 63⟩]⟩
  , ⟨"SLV_LANE_CNT", 0x10000C, [(64, 0x1000)], .none, [⟨16, 16, .ro, 39⟩, ⟨0, 16, .ro, 39⟩]⟩
  , ⟨"SLV_LANE_MEM_ADDR", 0x100010, [(64, 0x1000)], .none, [⟨0, 15, .rw, 63⟩]⟩
  , ⟨"SLV_LANE_MEM_DATA", 0x100014, [(64, 0x1000)], .none, [⟨0, 32, .ro, 0⟩]⟩
  , ⟨"SLV_JOB_STS", 0x100100, [(64, 0x1000), (64, 0x10)], .none, [⟨28, 4, .ro, 63⟩, ⟨26, 2, .ro, 63⟩, ⟨25, 1, .ro, 63⟩, ⟨24, 1, .ro, 63⟩, ⟨23, 1, .ro, 63⟩, ⟨22, 1, .ro, 63⟩, ⟨21, 1, .ro, 63⟩, ⟨19, 2, .ro, 63⟩, ⟨8, 8, .ro, 63⟩, ⟨0, 8, .ro, 63⟩]⟩
  , ⟨"SLV_JOB_ITER", 0x100104, [(64, 0x1000), (64, 0x10)], .none, [⟨23, 9, .ro, 63⟩, ⟨8, 8, .ro, 63⟩, ⟨0, 6, .ro, 63⟩]⟩
  , ⟨"SLV_JOB_END", 0x100108, [(64, 0x1000), (64, 0x10)], .none, [⟨0, 32, .ro, 63⟩]⟩
  , ⟨"SLV_JOB_MU", 0x10010C, [(64, 0x1000), (64, 0x10)], .none, [⟨0, 32, .ro, 63⟩]⟩
  , ⟨"FLD_STATUS", 0x230000, [], .none, [⟨24, 8, .rwi, 39⟩, ⟨16, 8, .rwi, 39⟩, ⟨8, 8, .rwi, 39⟩, ⟨0, 8, .rwi, 39⟩]⟩
  , ⟨"FLD_COND", 0x230004, [], .none, [⟨0, 16, .ro, 63⟩]⟩
  , ⟨"FLD_EVT", 0x230008, [(2, 0x4)], .none, [⟨0, 32, .w1c, 63⟩]⟩
  , ⟨"FLD_EVT_EN", 0x230010, [(2, 0x4)], .none, [⟨0, 32, .rw, 63⟩]⟩
  , ⟨"FLD_DOUT", 0x230020, [(2, 0x4)], .none, [⟨0, 32, .rw, 63⟩]⟩
  , ⟨"FLD_LVL", 0x230028, [(2, 0x4)], .none, [⟨0, 32, .ro, 0⟩]⟩
  , ⟨"FLD_AX_CFG", 0x230100, [(64, 0x10)], .none, [⟨28, 4, .rwi, 39⟩, ⟨27, 1, .rwi, 39⟩, ⟨24, 3, .rwi, 39⟩, ⟨16, 8, .rwi, 39⟩, ⟨8, 6, .rwi, 39⟩, ⟨6, 2, .rwi, 39⟩, ⟨0, 5, .rwi, 39⟩]⟩
  , ⟨"FLD_AX_CMD", 0x230104, [(64, 0x10)], .none, [⟨0, 32, .ro, 39⟩]⟩
  , ⟨"FLD_AX_FB", 0x230108, [(64, 0x10)], .none, [⟨0, 32, .ro, 39⟩]⟩
  , ⟨"FLD_AX_STS", 0x23010C, [(64, 0x10)], .none, [⟨31, 1, .ro, 39⟩, ⟨30, 1, .ro, 39⟩, ⟨29, 1, .ro, 39⟩, ⟨28, 1, .ro, 39⟩, ⟨16, 8, .ro, 39⟩, ⟨8, 8, .ro, 39⟩]⟩
  , ⟨"FLD_PIN_CFG", 0x230800, [(64, 0x8)], .fixed 4, [⟨28, 4, .rwi, 39⟩, ⟨27, 1, .rwi, 39⟩, ⟨26, 1, .rwi, 39⟩, ⟨25, 1, .rwi, 39⟩, ⟨16, 8, .rwl, 39⟩]⟩
  , ⟨"FLD_PIN_TIM", 0x230804, [(64, 0x8)], .fixed 4, [⟨0, 24, .rwl, 39⟩]⟩
  , ⟨"FLD_POS_CFG", 0x231000, [(32, 0x40)], .fixed 4, [⟨31, 1, .rwi, 39⟩, ⟨30, 1, .rwi, 39⟩, ⟨29, 1, .rwl, 39⟩, ⟨28, 1, .rwl, 39⟩, ⟨26, 2, .rwl, 39⟩, ⟨25, 1, .rwl, 39⟩, ⟨16, 6, .rwl, 39⟩, ⟨8, 6, .rwl, 39⟩, ⟨0, 5, .rwl, 39⟩]⟩
  , ⟨"FLD_POS_PINS", 0x231004, [(32, 0x40)], .none, [⟨0, 32, .rwi, 39⟩]⟩
  , ⟨"FLD_POS_TIM", 0x231008, [(32, 0x40)], .fixed 4, [⟨24, 8, .rwl, 39⟩, ⟨16, 8, .rwl, 39⟩, ⟨0, 16, .rwl, 39⟩]⟩
  , ⟨"FLD_POS_DLY", 0x23100C, [(32, 0x40)], .fixed 4, [⟨24, 8, .rwl, 39⟩, ⟨23, 1, .rwl, 39⟩, ⟨0, 9, .rwl, 39⟩]⟩
  , ⟨"FLD_POS_OFS", 0x231010, [(32, 0x40)], .fixed 4, [⟨0, 32, .rwl, 39⟩]⟩
  , ⟨"FLD_POS_JUMP", 0x231014, [(32, 0x40)], .fixed 4, [⟨0, 32, .rwl, 39⟩]⟩
  , ⟨"FLD_POS_CPR", 0x231018, [(32, 0x40)], .fixed 4, [⟨0, 32, .rwl, 39⟩]⟩
  , ⟨"FLD_POS_QTIM", 0x23101C, [(32, 0x40)], .fixed 4, [⟨16, 16, .rwl, 39⟩, ⟨0, 16, .rwl, 39⟩]⟩
  , ⟨"FLD_POS_VAL", 0x231020, [(32, 0x40)], .none, [⟨0, 32, .ro, 39⟩]⟩ ]

/-- Part 4 of the register table. -/
def regTable4 : List RegRow :=
  [ ⟨"FLD_POS_SPD", 0x231024, [(32, 0x40)], .none, [⟨0, 32, .ro, 39⟩]⟩
  , ⟨"FLD_POS_STS", 0x231034, [(32, 0x40)], .none, [⟨31, 1, .ro, 39⟩, ⟨30, 1, .ro, 39⟩, ⟨29, 1, .ro, 39⟩, ⟨28, 1, .ro, 39⟩, ⟨27, 1, .ro, 39⟩, ⟨26, 1, .ro, 39⟩, ⟨25, 1, .ro, 39⟩, ⟨0, 3, .ro, 39⟩]⟩
  , ⟨"FLD_POS_CNT", 0x231038, [(32, 0x40)], .none, [⟨16, 16, .ro, 63⟩, ⟨8, 8, .ro, 63⟩, ⟨0, 8, .ro, 63⟩]⟩
  , ⟨"FLD_POS_ZCOUNT", 0x23103C, [(32, 0x40)], .none, [⟨0, 32, .ro, 63⟩]⟩
  , ⟨"FLD_CMP_VALUE", 0x232000, [(64, 0x10)], .fixed 4, [⟨0, 32, .rwl, 39⟩]⟩
  , ⟨"FLD_CMP_HYST", 0x232004, [(64, 0x10)], .fixed 4, [⟨0, 32, .rwl, 39⟩]⟩
  , ⟨"FLD_CMP_CFG", 0x232008, [(64, 0x10)], .fixed 4, [⟨31, 1, .rwl, 39⟩, ⟨30, 1, .rwl, 39⟩, ⟨16, 5, .rwl, 39⟩, ⟨15, 1, .rwl, 39⟩, ⟨14, 1, .rwl, 39⟩, ⟨13, 1, .rwl, 39⟩, ⟨12, 1, .rwl, 39⟩, ⟨0, 6, .rwl, 39⟩]⟩
  , ⟨"FLD_CMP_STS", 0x23200C, [(64, 0x10)], .none, [⟨31, 1, .ro, 63⟩, ⟨30, 1, .ro, 63⟩, ⟨29, 1, .ro, 63⟩, ⟨28, 1, .ro, 63⟩, ⟨0, 16, .ro, 63⟩]⟩
  , ⟨"SAF_STATUS", 0x240000, [], .none, [⟨31, 1, .ro, 39⟩, ⟨30, 1, .ro, 39⟩, ⟨16, 8, .ro, 39⟩, ⟨8, 8, .ro, 39⟩, ⟨0, 4, .ro, 39⟩]⟩
  , ⟨"SAF_COND", 0x240004, [], .none, [⟨0, 16, .ro, 39⟩]⟩
  , ⟨"SAF_EVT", 0x240008, [], .none, [⟨17, 1, .w1c, 39⟩, ⟨16, 1, .w1c, 39⟩, ⟨8, 8, .w1c, 39⟩, ⟨0, 8, .w1c, 39⟩]⟩
  , ⟨"SAF_EVT_EN", 0x24000C, [], .none, [⟨17, 1, .rw, 39⟩, ⟨16, 1, .rw, 39⟩, ⟨8, 8, .rw, 39⟩, ⟨0, 8, .rw, 39⟩]⟩
  , ⟨"SAF_IN", 0x240010, [], .none, [⟨16, 16, .ro, 0⟩, ⟨0, 16, .ro, 0⟩]⟩
  , ⟨"SAF_OUT", 0x240014, [], .none, [⟨16, 2, .ro, 0⟩, ⟨8, 8, .ro, 0⟩, ⟨0, 8, .ro, 0⟩]⟩
  , ⟨"SAF_CFG", 0x240018, [], .none, [⟨28, 4, .ro, 39⟩, ⟨8, 4, .ro, 39⟩, ⟨4, 1, .ro, 39⟩, ⟨0, 4, .ro, 39⟩]⟩
  , ⟨"SAF_TP", 0x24001C, [], .none, [⟨26, 2, .ro, 39⟩, ⟨16, 10, .ro, 39⟩, ⟨0, 10, .ro, 39⟩]⟩
  , ⟨"SAF_OUTMAP", 0x240020, [], .none, [⟨0, 32, .ro, 39⟩]⟩
  , ⟨"SAF_CNT", 0x240024, [], .none, [⟨16, 16, .ro, 39⟩, ⟨8, 8, .ro, 39⟩, ⟨0, 8, .ro, 39⟩]⟩
  , ⟨"SAF_FN_STS", 0x240100, [(8, 0x10)], .none, [⟨29, 3, .ro, 39⟩, ⟨26, 3, .ro, 39⟩, ⟨25, 1, .ro, 39⟩, ⟨24, 1, .ro, 39⟩, ⟨0, 16, .ro, 39⟩]⟩
  , ⟨"SAF_FN_CFG", 0x240104, [(8, 0x10)], .none, [⟨28, 4, .ro, 39⟩, ⟨27, 1, .ro, 39⟩, ⟨26, 1, .ro, 39⟩, ⟨25, 1, .ro, 39⟩, ⟨24, 1, .ro, 39⟩, ⟨22, 2, .ro, 39⟩, ⟨20, 2, .ro, 39⟩, ⟨18, 2, .ro, 39⟩, ⟨8, 4, .ro, 39⟩, ⟨0, 3, .ro, 39⟩]⟩
  , ⟨"SAF_FN_TIM", 0x240108, [(8, 0x10)], .none, [⟨16, 16, .ro, 39⟩, ⟨0, 16, .ro, 39⟩]⟩
  , ⟨"SAF_FN_FILT", 0x24010C, [(8, 0x10)], .none, [⟨0, 15, .ro, 39⟩]⟩
  , ⟨"TIM_STATUS", 0x200000, [], .none, [⟨31, 1, .ro, 39⟩, ⟨3, 1, .ro, 39⟩, ⟨0, 2, .ro, 39⟩]⟩
  , ⟨"TIM_CTRL", 0x200004, [], .none, [⟨0, 1, .wo, 63⟩]⟩
  , ⟨"TIM_COND", 0x200008, [], .none, [⟨0, 16, .ro, 63⟩]⟩
  , ⟨"TIM_CFG", 0x20000C, [], .none, [⟨24, 8, .rwi, 39⟩, ⟨16, 8, .rwi, 39⟩, ⟨14, 2, .rwi, 39⟩, ⟨12, 2, .rwi, 39⟩, ⟨0, 3, .rwi, 39⟩]⟩
  , ⟨"TIM_QUAL", 0x200040, [], .none, [⟨29, 3, .ro, 39⟩, ⟨28, 1, .w1c, 39⟩, ⟨27, 1, .ro, 39⟩]⟩
  , ⟨"TIM_UTC", 0x200048, [], .none, [⟨31, 1, .ro, 39⟩, ⟨29, 2, .ro, 39⟩, ⟨28, 1, .ro, 39⟩, ⟨27, 1, .ro, 39⟩, ⟨0, 8, .ro, 39⟩]⟩
  , ⟨"TIM_PPS_CFG", 0x2000A0, [], .none, [⟨16, 16, .rwi, 39⟩, ⟨0, 16, .rwi, 39⟩]⟩
  , ⟨"TIM_PPS_STS", 0x2000A4, [], .none, [⟨31, 1, .w1c, 39⟩, ⟨0, 31, .ro, 39⟩]⟩ ]

/-- Part 5 of the register table. -/
def regTable5 : List RegRow :=
  [ ⟨"TIM_PPSIN_CFG", 0x2000A8, [], .none, [⟨24, 8, .rwi, 39⟩, ⟨12, 12, .rwi, 39⟩, ⟨0, 12, .rwi, 39⟩]⟩
  , ⟨"TIM_SRC_CFG", 0x2000C0, [(4, 0x10)], .none, [⟨29, 3, .rwi, 39⟩, ⟨28, 1, .ro, 39⟩, ⟨16, 12, .rwi, 39⟩, ⟨0, 16, .rwi, 39⟩]⟩
  , ⟨"TIM_SRC_ACC", 0x2000C4, [(4, 0x10)], .none, [⟨16, 16, .rwi, 39⟩, ⟨0, 16, .rwi, 39⟩]⟩
  , ⟨"TIM_SRC_OFS", 0x2000C8, [(4, 0x10)], .none, [⟨0, 32, .ro, 39⟩]⟩
  , ⟨"TIM_SRC_CNT", 0x2000CC, [(4, 0x10)], .none, [⟨16, 16, .ro, 39⟩, ⟨0, 16, .ro, 39⟩]⟩
  , ⟨"TIM_TCAP_CFG", 0x200200, [(4, 0x20)], .none, [⟨30, 2, .rwi, 39⟩, ⟨28, 2, .rwi, 39⟩, ⟨0, 24, .rw, 39⟩]⟩
  , ⟨"TIM_TCAP_PERIOD", 0x20020C, [(4, 0x20)], .none, [⟨0, 32, .rw, 39⟩]⟩
  , ⟨"TIM_TCAP_PHASE", 0x200210, [(4, 0x20)], .none, [⟨0, 32, .rw, 39⟩]⟩
  , ⟨"TIM_TCAP_STS", 0x200214, [(4, 0x20)], .none, [⟨31, 1, .w1c, 39⟩, ⟨30, 1, .ro, 39⟩, ⟨0, 8, .ro, 39⟩]⟩
  , ⟨"TIM_PTP_CFG", 0x200300, [], .none, [⟨31, 1, .rwi, 39⟩, ⟨24, 7, .rwi, 39⟩, ⟨20, 4, .rwi, 39⟩, ⟨0, 20, .rwi, 39⟩]⟩
  , ⟨"TIM_PTP_STS", 0x200304, [], .none, [⟨31, 1, .ro, 39⟩, ⟨0, 8, .ro, 39⟩]⟩
  , ⟨"TIM_PTP_MPD", 0x200310, [], .none, [⟨0, 32, .ro, 39⟩]⟩
  , ⟨"TIM_PTP_CNT", 0x200314, [], .none, [⟨16, 16, .ro, 39⟩, ⟨0, 16, .ro, 39⟩]⟩
  , ⟨"NET_STATUS", 0x210000, [(4, 0x1000)], .none, [⟨31, 1, .ro, 63⟩, ⟨29, 2, .ro, 63⟩, ⟨28, 1, .ro, 39⟩, ⟨0, 9, .rwi, 39⟩]⟩
  , ⟨"NET_CFG", 0x210004, [(4, 0x1000)], .none, [⟨8, 5, .rwi, 39⟩, ⟨0, 2, .rwi, 39⟩]⟩
  , ⟨"NET_COND", 0x210008, [(4, 0x1000)], .none, [⟨0, 16, .ro, 63⟩]⟩
  , ⟨"NET_TXQ_CFG", 0x210020, [(4, 0x1000), (8, 0x8)], .none, [⟨31, 1, .rwi, 39⟩, ⟨0, 16, .rwi, 39⟩]⟩
  , ⟨"NET_TXQ_STS", 0x210024, [(4, 0x1000), (8, 0x8)], .none, [⟨16, 16, .ro, 63⟩, ⟨8, 8, .ro, 63⟩, ⟨0, 6, .ro, 63⟩]⟩
  , ⟨"NET_FDEF_STS", 0x210400, [(4, 0x1000), (256, 0x4)], .none, [⟨16, 16, .ro, 63⟩, ⟨15, 1, .ro, 63⟩, ⟨0, 3, .rwi, 39⟩]⟩
  , ⟨"NET_MDIO_CMD", 0x214000, [], .none, [⟨31, 1, .rw, 63⟩, ⟨30, 1, .rw, 63⟩, ⟨28, 2, .rw, 63⟩, ⟨27, 1, .ro, 63⟩, ⟨16, 5, .rw, 63⟩, ⟨0, 5, .rw, 63⟩]⟩
  , ⟨"NET_MDIO_DATA", 0x214004, [], .none, [⟨0, 16, .rw, 63⟩]⟩
  , ⟨"CAN_STATUS", 0x220000, [(8, 0x1000)], .none, [⟨29, 3, .ro, 63⟩, ⟨28, 1, .ro, 63⟩, ⟨27, 1, .ro, 39⟩, ⟨16, 8, .ro, 63⟩, ⟨8, 8, .ro, 63⟩, ⟨0, 7, .ro, 63⟩]⟩
  , ⟨"CAN_CFG", 0x220004, [(8, 0x1000)], .first 8, [⟨26, 6, .rwi, 39⟩, ⟨19, 7, .rwi, 39⟩, ⟨12, 7, .rwl, 39⟩, ⟨11, 1, .rwi, 39⟩, ⟨9, 2, .rwl, 39⟩, ⟨8, 1, .rwl, 39⟩, ⟨0, 8, .rwl, 39⟩]⟩
  , ⟨"CAN_NBT", 0x22000C, [(8, 0x1000)], .first 8, [⟨24, 8, .rwl, 39⟩, ⟨16, 8, .rwl, 39⟩, ⟨8, 7, .rwl, 39⟩, ⟨0, 7, .rwl, 39⟩]⟩
  , ⟨"CAN_DBT", 0x220010, [(8, 0x1000)], .first 8, [⟨31, 1, .rwl, 39⟩, ⟨30, 1, .rwl, 39⟩, ⟨24, 5, .rwl, 39⟩, ⟨16, 6, .rwl, 39⟩, ⟨8, 5, .rwl, 39⟩, ⟨0, 5, .rwl, 39⟩]⟩
  , ⟨"CAN_COND", 0x220008, [(8, 0x1000)], .none, [⟨0, 16, .ro, 63⟩]⟩
  , ⟨"CAN_CNT", 0x220014, [(8, 0x1000)], .none, [⟨24, 8, .ro, 63⟩, ⟨16, 8, .ro, 63⟩, ⟨8, 8, .ro, 63⟩, ⟨0, 8, .ro, 63⟩]⟩
  , ⟨"CAN_ERR", 0x220018, [(8, 0x1000)], .none, [⟨16, 16, .ro, 63⟩, ⟨8, 8, .ro, 63⟩, ⟨3, 1, .ro, 63⟩, ⟨0, 3, .ro, 63⟩]⟩
  , ⟨"CAN_RXQ_STS", 0x220040, [(8, 0x1000), (3, 0x4)], .none, [⟨31, 1, .wo, 63⟩, ⟨30, 1, .w1c, 63⟩, ⟨0, 6, .ro, 63⟩]⟩
  , ⟨"CAN_FLT_MATCH", 0x220200, [(8, 0x1000), (64, 0x10)], .first 8, [⟨29, 1, .rwl, 39⟩, ⟨0, 29, .rwl, 39⟩]⟩ ]

/-- Part 6 of the register table. -/
def regTable6 : List RegRow :=
  [ ⟨"CAN_FLT_MASK", 0x220204, [(8, 0x1000), (64, 0x10)], .first 8, [⟨0, 29, .rwl, 39⟩]⟩
  , ⟨"CAN_FLT_CFG", 0x220208, [(8, 0x1000), (64, 0x10)], .first 8, [⟨16, 2, .rwl, 39⟩, ⟨8, 6, .rwl, 39⟩, ⟨3, 1, .rwl, 39⟩, ⟨2, 1, .rwi, 39⟩, ⟨0, 2, .rwl, 39⟩]⟩
  , ⟨"CAN_TXB_HDR", 0x220600, [(8, 0x1000), (32, 0x50)], .none, [⟨31, 1, .rwi, 39⟩, ⟨30, 1, .rwi, 39⟩, ⟨29, 1, .rwi, 39⟩, ⟨0, 29, .rwi, 39⟩]⟩
  , ⟨"CAN_TXB_STS", 0x220604, [(8, 0x1000), (32, 0x50)], .none, [⟨30, 2, .rwi, 39⟩, ⟨26, 4, .rwi, 39⟩, ⟨8, 8, .ro, 63⟩, ⟨5, 1, .ro, 63⟩, ⟨4, 1, .ro, 63⟩, ⟨0, 4, .ro, 63⟩]⟩
  , ⟨"CAN_TXB_TIME_LO", 0x220608, [(8, 0x1000), (32, 0x50)], .none, [⟨0, 32, .ro, 63⟩]⟩
  , ⟨"CAN_TXB_TIME_HI", 0x22060C, [(8, 0x1000), (32, 0x50)], .none, [⟨0, 32, .ro, 63⟩]⟩
  , ⟨"CAN_TXB_DATA", 0x220610, [(8, 0x1000), (32, 0x50), (16, 0x4)], .none, [⟨0, 32, .rw, 63⟩]⟩
  , ⟨"ERR_STATUS", 0x250000, [], .none, [⟨31, 1, .ro, 55⟩, ⟨30, 1, .ro, 63⟩, ⟨24, 4, .ro, 39⟩]⟩
  , ⟨"ERR_CTRL", 0x250004, [], .none, [⟨1, 1, .wo, 63⟩, ⟨0, 1, .wo, 63⟩]⟩
  , ⟨"ERR_COND", 0x250008, [], .none, [⟨0, 16, .ro, 63⟩]⟩
  , ⟨"ERR_HARD", 0x250018, [], .none, [⟨24, 8, .ro, 39⟩, ⟨0, 24, .ro, 39⟩]⟩
  , ⟨"ERR_LAST", 0x25001C, [], .none, [⟨28, 4, .ro, 39⟩, ⟨24, 4, .ro, 39⟩, ⟨16, 8, .ro, 39⟩, ⟨8, 8, .ro, 39⟩, ⟨7, 1, .ro, 39⟩, ⟨6, 1, .ro, 39⟩, ⟨5, 1, .ro, 39⟩]⟩
  , ⟨"ERR_LAST_CYC", 0x250020, [], .none, [⟨0, 32, .ro, 39⟩]⟩
  , ⟨"ERR_LAST_ADDR", 0x250024, [], .none, [⟨0, 32, .ro, 39⟩]⟩
  , ⟨"ERR_INJ", 0x250028, [], .none, [⟨31, 1, .rw, 63⟩, ⟨24, 4, .rw, 63⟩, ⟨16, 8, .rw, 63⟩, ⟨8, 8, .rw, 63⟩]⟩
  , ⟨"JNL_STATUS", 0x260000, [], .none, [⟨31, 1, .ro, 39⟩, ⟨30, 1, .ro, 39⟩, ⟨29, 1, .ro, 39⟩, ⟨0, 7, .ro, 39⟩]⟩
  , ⟨"JNL_COND", 0x260004, [], .none, [⟨0, 16, .ro, 63⟩]⟩
  , ⟨"JNL_CFG", 0x260008, [], .none, [⟨0, 17, .rwi, 39⟩]⟩
  , ⟨"JNL_RD_ADDR", 0x26001C, [], .none, [⟨26, 6, .rw, 63⟩, ⟨0, 14, .rw, 63⟩]⟩
  , ⟨"JNL_RD_DATA", 0x260020, [], .none, [⟨0, 32, .ro, 0⟩]⟩
  , ⟨"JNL_NAND_PTR", 0x260024, [], .none, [⟨0, 32, .ro, 0⟩]⟩
  , ⟨"JNL_CNT", 0x260028, [], .none, [⟨24, 8, .ro, 39⟩, ⟨16, 8, .ro, 39⟩, ⟨0, 16, .ro, 39⟩]⟩
  , ⟨"RED_STATUS", 0x270000, [], .none, [⟨29, 3, .ro, 63⟩, ⟨28, 1, .ro, 63⟩, ⟨27, 1, .ro, 63⟩, ⟨26, 1, .ro, 63⟩, ⟨24, 2, .ro, 63⟩, ⟨23, 1, .ro, 39⟩, ⟨22, 1, .ro, 39⟩, ⟨21, 1, .ro, 63⟩, ⟨0, 14, .rwi, 39⟩]⟩
  , ⟨"RED_CTRL", 0x270004, [], .none, [⟨5, 1, .wo, 0⟩, ⟨4, 1, .wo, 63⟩, ⟨3, 1, .wo, 63⟩, ⟨1, 1, .wo, 63⟩, ⟨0, 1, .wo, 63⟩]⟩
  , ⟨"RED_COND", 0x270008, [], .none, [⟨0, 16, .ro, 63⟩]⟩
  , ⟨"RED_CFG", 0x27000C, [], .none, [⟨16, 16, .rwi, 39⟩, ⟨8, 8, .rwi, 39⟩]⟩
  , ⟨"RED_MIRROR_CFG", 0x270010, [], .none, [⟨16, 16, .rwi, 39⟩, ⟨0, 14, .rwi, 39⟩]⟩
  , ⟨"RED_CNT", 0x270034, [], .none, [⟨24, 8, .ro, 39⟩, ⟨16, 8, .ro, 39⟩, ⟨8, 8, .ro, 39⟩, ⟨0, 8, .ro, 39⟩]⟩
  , ⟨"RED_RESYNC", 0x270038, [], .none, [⟨16, 16, .ro, 63⟩, ⟨8, 8, .ro, 63⟩, ⟨0, 8, .ro, 63⟩]⟩
  , ⟨"RED_FEED", 0x270040, [], .none, [⟨31, 1, .ro, 0⟩, ⟨30, 1, .ro, 0⟩, ⟨29, 1, .ro, 0⟩, ⟨28, 1, .ro, 0⟩, ⟨27, 1, .ro, 0⟩, ⟨26, 1, .ro, 0⟩, ⟨25, 1, .ro, 0⟩, ⟨24, 1, .ro, 0⟩]⟩ ]

/-- Part 7 of the register table. -/
def regTable7 : List RegRow :=
  [ ⟨"RED_FEED_CNT", 0x270044, [], .none, [⟨24, 8, .ro, 0⟩, ⟨16, 8, .ro, 0⟩, ⟨8, 8, .ro, 0⟩, ⟨0, 8, .ro, 0⟩]⟩
  , ⟨"RED_MIRROR_CNT", 0x270048, [], .none, [⟨16, 16, .ro, 0⟩, ⟨0, 16, .ro, 0⟩]⟩
  , ⟨"PST_STATUS", 0x280000, [], .none, [⟨31, 1, .ro, 55⟩, ⟨30, 1, .ro, 39⟩, ⟨29, 1, .ro, 63⟩, ⟨0, 14, .rwi, 39⟩]⟩
  , ⟨"PST_CTRL", 0x280004, [], .none, [⟨1, 1, .wo, 63⟩, ⟨0, 1, .wo, 63⟩]⟩
  , ⟨"PST_COND", 0x280008, [], .none, [⟨0, 16, .ro, 63⟩]⟩
  , ⟨"PST_CFG", 0x28000C, [], .none, [⟨29, 3, .rwi, 39⟩, ⟨28, 1, .rwi, 39⟩, ⟨27, 1, .rwi, 39⟩, ⟨26, 1, .rwi, 39⟩, ⟨23, 3, .rwi, 39⟩, ⟨8, 8, .rwi, 39⟩, ⟨0, 8, .rwi, 39⟩]⟩
  , ⟨"PST_MASTER", 0x280010, [], .none, [⟨16, 16, .rwi, 39⟩, ⟨0, 14, .rwi, 39⟩]⟩
  , ⟨"PST_ALIGN", 0x280014, [], .none, [⟨24, 8, .ro, 63⟩, ⟨16, 8, .ro, 63⟩, ⟨0, 16, .ro, 63⟩]⟩
  , ⟨"PST_PORT_STS", 0x280020, [(2, 0x10)], .none, [⟨29, 3, .ro, 63⟩, ⟨28, 1, .ro, 63⟩, ⟨27, 1, .ro, 63⟩, ⟨0, 14, .ro, 63⟩]⟩
  , ⟨"PST_PORT_VER", 0x280024, [(2, 0x10)], .none, [⟨24, 8, .ro, 63⟩, ⟨16, 8, .ro, 63⟩, ⟨8, 8, .ro, 63⟩, ⟨0, 8, .ro, 63⟩]⟩
  , ⟨"PST_PORT_DELAY", 0x280028, [(2, 0x10)], .none, [⟨0, 16, .ro, 63⟩]⟩
  , ⟨"PST_PORT_CNT", 0x28002C, [(2, 0x10)], .none, [⟨24, 8, .ro, 39⟩, ⟨16, 8, .ro, 39⟩, ⟨8, 8, .ro, 39⟩, ⟨0, 8, .ro, 39⟩]⟩
  , ⟨"PST_MC_CTRL", 0x280040, [], .none, [⟨28, 4, .wo, 63⟩, ⟨0, 20, .wo, 63⟩]⟩
  , ⟨"PST_MC_STS", 0x280044, [], .none, [⟨29, 3, .ro, 63⟩, ⟨24, 1, .ro, 63⟩, ⟨16, 8, .ro, 63⟩, ⟨0, 16, .ro, 63⟩]⟩
  , ⟨"PST_MC_TARGET", 0x280048, [], .none, [⟨0, 32, .ro, 63⟩]⟩
  , ⟨"PST_MC_OOS_CNT", 0x28004C, [], .none, [⟨0, 15, .ro, 39⟩]⟩
  , ⟨"PST_TUN_CTRL", 0x280050, [], .none, [⟨31, 1, .rw, 63⟩, ⟨30, 1, .rw, 63⟩, ⟨0, 14, .rw, 63⟩]⟩
  , ⟨"PST_TUN_ADDR", 0x280054, [], .none, [⟨0, 24, .rw, 63⟩]⟩
  , ⟨"PST_TUN_DATA", 0x280058, [], .none, [⟨0, 32, .rw, 63⟩]⟩
  , ⟨"PST_TUN_STS", 0x28005C, [], .none, [⟨0, 3, .ro, 63⟩]⟩
  , ⟨"PST_IMGD_CTRL", 0x280060, [], .none, [⟨0, 1, .wo, 63⟩]⟩
  , ⟨"PST_IMGD_STS", 0x280064, [], .none, [⟨31, 1, .ro, 63⟩, ⟨15, 15, .ro, 63⟩, ⟨0, 15, .ro, 63⟩]⟩
  , ⟨"CLK_STATUS", 0x10000, [], .none, [⟨31, 1, .ro, 39⟩, ⟨30, 1, .ro, 39⟩, ⟨29, 1, .ro, 1⟩, ⟨28, 1, .ro, 39⟩, ⟨27, 1, .ro, 39⟩, ⟨16, 5, .ro, 39⟩, ⟨0, 12, .ro, 39⟩]⟩
  , ⟨"CLK_COND", 0x10004, [], .none, [⟨0, 16, .ro, 63⟩]⟩
  , ⟨"CLK_OTP", 0x10008, [], .none, [⟨16, 16, .ro, 0⟩, ⟨8, 8, .ro, 0⟩, ⟨0, 8, .ro, 0⟩]⟩
  , ⟨"CLK_RAMP", 0x1000C, [], .none, [⟨0, 8, .rw, 39⟩]⟩
  , ⟨"CLK_GATE_REQ", 0x10010, [], .none, [⟨8, 1, .rw, 39⟩, ⟨5, 1, .rw, 39⟩, ⟨4, 1, .rw, 39⟩, ⟨3, 1, .rw, 39⟩]⟩
  , ⟨"CLK_FRC_TRIM", 0x10020, [], .none, [⟨31, 1, .ro, 39⟩, ⟨16, 8, .ro, 39⟩, ⟨0, 16, .ro, 39⟩]⟩
  , ⟨"CLK_FMEAS_CTRL", 0x10014, [], .none, [⟨31, 1, .rw, 63⟩, ⟨30, 1, .wo, 63⟩, ⟨29, 1, .ro, 63⟩, ⟨24, 4, .rw, 63⟩, ⟨20, 4, .rw, 63⟩, ⟨0, 10, .rw, 63⟩]⟩
  , ⟨"CLK_FMEAS_CNT", 0x10018, [], .none, [⟨0, 32, .ro, 63⟩]⟩ ]

/-- Part 8 of the register table. -/
def regTable8 : List RegRow :=
  [ ⟨"CLK_FMEAS_REFCNT", 0x1001C, [], .none, [⟨0, 32, .ro, 63⟩]⟩
  , ⟨"CLK_PLL_CFG", 0x10040, [(5, 0x8)], .none, [⟨31, 1, .ro, 39⟩, ⟨30, 1, .ro, 39⟩, ⟨24, 4, .ro, 39⟩, ⟨0, 9, .ro, 39⟩]⟩
  , ⟨"CLK_PLL_FRAC", 0x10044, [(5, 0x8)], .none, [⟨0, 24, .ro, 39⟩]⟩
  , ⟨"CLK_DOM_STS", 0x10100, [(12, 0x4)], .none, [⟨29, 3, .ro, 39⟩, ⟨28, 1, .ro, 63⟩, ⟨27, 1, .w1c, 39⟩, ⟨24, 3, .ro, 39⟩, ⟨0, 16, .ro, 39⟩]⟩
  , ⟨"RST_CAUSE", 0x20000, [], .none, [⟨0, 6, .ro, 0⟩]⟩
  , ⟨"RST_CTRL", 0x20004, [], .none, [⟨16, 16, .wo, 0⟩, ⟨0, 1, .wo, 0⟩]⟩
  , ⟨"RST_PWR_CTRL", 0x20008, [], .none, [⟨2, 1, .wo, 63⟩, ⟨1, 1, .wo, 63⟩, ⟨0, 1, .wo, 63⟩]⟩
  , ⟨"RST_PWR_STS", 0x2000C, [], .none, [⟨29, 3, .ro, 39⟩, ⟨28, 1, .w1c, 39⟩]⟩
  , ⟨"RST_CNT", 0x20010, [], .none, [⟨24, 8, .ro, 1⟩, ⟨16, 8, .ro, 1⟩, ⟨8, 8, .ro, 1⟩, ⟨0, 8, .ro, 1⟩]⟩
  , ⟨"RST_CNT2", 0x20014, [], .none, [⟨0, 16, .ro, 1⟩]⟩
  , ⟨"SEC_STATUS", 0x30000, [], .none, [⟨30, 2, .ro, 0⟩, ⟨29, 1, .ro, 39⟩, ⟨28, 1, .ro, 39⟩, ⟨24, 4, .ro, 39⟩, ⟨0, 3, .ro, 39⟩]⟩
  , ⟨"SEC_COND", 0x30004, [], .none, [⟨0, 16, .ro, 63⟩]⟩
  , ⟨"SEC_EVAL_STS", 0x30008, [], .none, [⟨30, 2, .ro, 39⟩, ⟨8, 8, .ro, 39⟩, ⟨0, 8, .ro, 39⟩]⟩
  , ⟨"SEC_POLICY", 0x3000C, [], .none, [⟨24, 8, .rwi, 39⟩, ⟨16, 8, .rwi, 39⟩, ⟨12, 4, .rwi, 39⟩, ⟨0, 3, .rwi, 39⟩]⟩
  , ⟨"SEC_CMD", 0x30010, [], .none, [⟨31, 1, .rw, 63⟩, ⟨30, 1, .w1c, 63⟩, ⟨0, 8, .ro, 63⟩]⟩
  , ⟨"SEC_MINVER", 0x30014, [], .none, [⟨0, 32, .ro, 0⟩]⟩
  , ⟨"SEC_CHALLENGE", 0x30020, [(4, 0x4)], .none, [⟨0, 32, .ro, 39⟩]⟩
  , ⟨"SEC_DEVFP", 0x30030, [(4, 0x4)], .none, [⟨0, 32, .ro, 0⟩]⟩
  , ⟨"SEC_SLOT", 0x30040, [(8, 0x4)], .none, [⟨30, 2, .ro, 0⟩, ⟨27, 3, .ro, 0⟩, ⟨0, 24, .ro, 0⟩]⟩
  , ⟨"SEC_AUDIT_HEAD", 0x30060, [], .none, [⟨0, 32, .ro, 0⟩]⟩
  , ⟨"SEC_AUDIT_ACK", 0x30064, [], .none, [⟨0, 32, .rw, 0⟩]⟩
  , ⟨"SEC_AUDIT_LOST", 0x30068, [], .none, [⟨0, 32, .ro, 0⟩]⟩
  , ⟨"SEC_AUDIT_RD_ADDR", 0x3006C, [], .none, [⟨0, 10, .rw, 63⟩]⟩
  , ⟨"SEC_AUDIT_RD_DATA", 0x30070, [], .none, [⟨0, 32, .ro, 0⟩]⟩
  , ⟨"SEC_SESS", 0x30080, [(4, 0x4)], .none, [⟨31, 1, .ro, 39⟩, ⟨28, 3, .ro, 39⟩, ⟨26, 2, .ro, 39⟩, ⟨0, 16, .ro, 39⟩]⟩
  , ⟨"REC_STATUS", 0x290000, [], .none, [⟨31, 1, .ro, 39⟩, ⟨30, 1, .ro, 39⟩, ⟨29, 1, .ro, 39⟩]⟩
  , ⟨"REC_CTRL", 0x290004, [], .none, [⟨1, 1, .wo, 0⟩, ⟨0, 1, .wo, 63⟩]⟩
  , ⟨"REC_COND", 0x290008, [], .none, [⟨0, 16, .ro, 63⟩]⟩
  , ⟨"REC_CFG", 0x29000C, [], .none, [⟨8, 8, .rwi, 39⟩, ⟨0, 8, .rwi, 39⟩]⟩
  , ⟨"REC_FROZEN_CYC", 0x290010, [], .none, [⟨0, 32, .ro, 39⟩]⟩ ]

/-- Part 9 of the register table. -/
def regTable9 : List RegRow :=
  [ ⟨"REC_BANK_SEQ", 0x290014, [], .none, [⟨0, 32, .ro, 39⟩]⟩
  , ⟨"REC_CLR_HIST", 0x290018, [(2, 0x4)], .none, [⟨0, 32, .wo, 0⟩]⟩
  , ⟨"REC_CLR_TRK", 0x290020, [(4, 0x4)], .none, [⟨0, 32, .wo, 0⟩]⟩
  , ⟨"REC_LOG_STS", 0x290040, [], .none, [⟨16, 15, .ro, 39⟩, ⟨0, 15, .ro, 39⟩]⟩
  , ⟨"REC_LOG_HEAD", 0x290044, [], .none, [⟨0, 32, .ro, 0⟩]⟩
  , ⟨"REC_LOG_ACK", 0x290048, [], .none, [⟨0, 32, .rw, 39⟩]⟩
  , ⟨"REC_LOG_LOST", 0x29004C, [], .none, [⟨0, 32, .ro, 0⟩]⟩
  , ⟨"REC_LOG_RD_ADDR", 0x290050, [], .none, [⟨0, 14, .rw, 63⟩]⟩
  , ⟨"REC_LOG_RD_DATA", 0x290054, [], .none, [⟨0, 32, .ro, 0⟩]⟩
  , ⟨"REC_LOG_MIRROR", 0x290058, [], .none, [⟨0, 32, .ro, 0⟩]⟩
  , ⟨"REC_EVT", 0x290060, [], .none, [⟨2, 1, .w1c, 63⟩, ⟨1, 1, .w1c, 63⟩, ⟨0, 1, .w1c, 63⟩]⟩
  , ⟨"REC_EVT_EN", 0x290064, [], .none, [⟨2, 1, .rw, 63⟩, ⟨1, 1, .rw, 63⟩, ⟨0, 1, .rw, 63⟩]⟩
  , ⟨"REC_HIST_CFG", 0x291000, [(64, 0x20)], .none, [⟨24, 8, .rwi, 39⟩, ⟨8, 16, .rwi, 39⟩, ⟨0, 8, .rwi, 39⟩]⟩
  , ⟨"REC_TRK_CFG", 0x292000, [(128, 0x40)], .none, [⟨24, 8, .rwi, 39⟩, ⟨8, 16, .rwi, 39⟩, ⟨0, 8, .rwi, 39⟩]⟩
  , ⟨"REC_HIST_LO", 0x291004, [(64, 0x20)], .none, [⟨0, 32, .rwi, 39⟩]⟩
  , ⟨"REC_HIST_HI", 0x291008, [(64, 0x20)], .none, [⟨0, 32, .rwi, 39⟩]⟩
  , ⟨"REC_HIST_SEQ", 0x29100C, [(64, 0x20)], .none, [⟨0, 32, .ro, 39⟩]⟩
  , ⟨"REC_TRK_SEQ", 0x292004, [(128, 0x40)], .none, [⟨0, 32, .ro, 39⟩]⟩
  , ⟨"REC_HIST_UNDER", 0x291010, [(64, 0x20)], .none, [⟨0, 32, .ro, 39⟩]⟩
  , ⟨"REC_HIST_OVER", 0x291014, [(64, 0x20)], .none, [⟨0, 32, .ro, 39⟩]⟩
  , ⟨"REC_HIST_INVALID", 0x291018, [(64, 0x20)], .none, [⟨0, 32, .ro, 39⟩]⟩
  , ⟨"REC_HIST_MISSED", 0x29101C, [(64, 0x20)], .none, [⟨0, 32, .ro, 39⟩]⟩
  , ⟨"REC_TRK_MIN", 0x292008, [(128, 0x40)], .none, [⟨0, 32, .ro, 39⟩]⟩
  , ⟨"REC_TRK_MAX", 0x29201C, [(128, 0x40)], .none, [⟨0, 32, .ro, 39⟩]⟩
  , ⟨"REC_TRK_MIN_CYC", 0x29200C, [(128, 0x40)], .none, [⟨0, 32, .ro, 39⟩]⟩
  , ⟨"REC_TRK_MAX_CYC", 0x292020, [(128, 0x40)], .none, [⟨0, 32, .ro, 39⟩]⟩
  , ⟨"REC_TRK_COUNT", 0x292030, [(128, 0x40)], .none, [⟨0, 32, .ro, 39⟩]⟩
  , ⟨"BKG_STATUS", 0x2A0000, [], .none, [⟨31, 1, .ro, 39⟩, ⟨30, 1, .ro, 39⟩, ⟨29, 1, .ro, 39⟩, ⟨28, 1, .w1c, 39⟩]⟩
  , ⟨"BKG_COND", 0x2A0004, [], .none, [⟨0, 16, .ro, 63⟩]⟩
  , ⟨"BKG_SHARE", 0x2A0008, [], .none, [⟨0, 16, .ro, 39⟩]⟩ ]

/-- Part 10 of the register table. -/
def regTable10 : List RegRow :=
  [ ⟨"BKG_MOWER", 0x2A000C, [], .none, [⟨24, 8, .ro, 39⟩, ⟨12, 12, .ro, 39⟩, ⟨0, 12, .ro, 39⟩]⟩
  , ⟨"BKG_TEMP", 0x2A0010, [], .none, [⟨16, 16, .ro, 39⟩, ⟨0, 16, .ro, 39⟩]⟩
  , ⟨"BKG_NAND_GEOM", 0x2A0014, [], .none, [⟨8, 24, .ro, 39⟩, ⟨0, 8, .ro, 39⟩]⟩
  , ⟨"BKG_NAND_STS", 0x2A0018, [], .none, [⟨16, 16, .ro, 39⟩, ⟨0, 16, .ro, 39⟩]⟩
  , ⟨"BKG_NAND_WEAR", 0x2A001C, [], .none, [⟨16, 16, .ro, 39⟩, ⟨0, 16, .ro, 39⟩]⟩
  , ⟨"BKG_NAND_REFRESH", 0x2A0020, [], .none, [⟨16, 16, .ro, 39⟩, ⟨0, 16, .ro, 39⟩]⟩
  , ⟨"BKG_SERDES", 0x2A0024, [], .none, [⟨8, 1, .ro, 39⟩, ⟨4, 2, .ro, 39⟩, ⟨0, 4, .ro, 39⟩]⟩
  , ⟨"GLB_ID", 0x0, [], .none, [⟨8, 24, .ro, 0⟩, ⟨0, 8, .ro, 0⟩]⟩
  , ⟨"GLB_UID_LO", 0x8, [], .none, [⟨0, 32, .ro, 0⟩]⟩
  , ⟨"GLB_UID_HI", 0xC, [], .none, [⟨0, 32, .ro, 0⟩]⟩
  , ⟨"GLB_STRAP", 0x10, [], .none, [⟨3, 1, .ro, 39⟩, ⟨0, 3, .ro, 39⟩]⟩
  , ⟨"GLB_SUMMARY", 0x14, [], .none, [⟨30, 2, .ro, 0⟩, ⟨28, 2, .ro, 0⟩, ⟨25, 3, .ro, 0⟩, ⟨24, 1, .ro, 0⟩, ⟨21, 3, .ro, 0⟩, ⟨18, 3, .ro, 0⟩, ⟨16, 2, .ro, 0⟩, ⟨15, 1, .ro, 0⟩, ⟨14, 1, .ro, 0⟩]⟩
  , ⟨"GLB_SCRATCH", 0x18, [], .none, [⟨0, 32, .rw, 39⟩]⟩
  , ⟨"HST_STATUS", 0x2B0000, [], .none, [⟨31, 1, .ro, 39⟩, ⟨28, 3, .ro, 39⟩, ⟨26, 2, .ro, 39⟩, ⟨25, 1, .ro, 39⟩]⟩
  , ⟨"HST_COND", 0x2B0004, [], .none, [⟨0, 16, .ro, 63⟩]⟩
  , ⟨"HST_ERR", 0x2B0014, [], .none, [⟨30, 2, .ro, 63⟩, ⟨0, 24, .ro, 63⟩]⟩
  , ⟨"HST_SRC_PEND_LO", 0x2B0020, [], .none, [⟨0, 32, .w1c, 39⟩]⟩
  , ⟨"HST_SRC_PEND_HI", 0x2B0024, [], .none, [⟨0, 7, .w1c, 39⟩]⟩
  , ⟨"HST_VEC_STS", 0x2B0030, [], .none, [⟨0, 32, .ro, 39⟩]⟩
  , ⟨"HST_MBX_OUT", 0x2B0040, [(4, 0x4)], .none, [⟨31, 1, .rw, 39⟩, ⟨28, 3, .ro, 39⟩, ⟨14, 10, .rw, 39⟩, ⟨0, 14, .rw, 39⟩]⟩
  , ⟨"HST_MBX_IN_STS", 0x2B0050, [], .none, [⟨0, 4, .w1c, 39⟩]⟩
  , ⟨"HST_MBX_IN", 0x2B0054, [(4, 0x4)], .none, [⟨14, 10, .ro, 39⟩, ⟨0, 14, .ro, 39⟩]⟩
  , ⟨"HST_SRC_ROUTE", 0x2B0100, [(39, 0x4)], .none, [⟨31, 1, .rw, 39⟩, ⟨8, 2, .rw, 39⟩, ⟨0, 5, .rw, 39⟩]⟩
  , ⟨"HST_VEC_HOLD", 0x2B0200, [(32, 0x4)], .none, [⟨0, 16, .rw, 39⟩]⟩
  , ⟨"SEQ_LAST_COMMIT", 0x5001C, [], .none, [⟨0, 32, .ro, 39⟩]⟩
  , ⟨"SEQ_MISS_CNT", 0x50020, [], .none, [⟨0, 32, .ro, 39⟩]⟩
  , ⟨"SEQ_SP_TAKEN", 0x5003C, [], .none, [⟨0, 32, .ro, 63⟩]⟩
  , ⟨"SEQ_SP_PEND", 0x50040, [(8, 0x4)], .none, [⟨0, 32, .rw, 63⟩]⟩
  , ⟨"SEQ_SP_ACT", 0x50080, [(8, 0x4)], .none, [⟨0, 32, .ro, 39⟩]⟩
  , ⟨"SEQ_STG_START", 0x50110, [(9, 0x10)], .none, [⟨0, 21, .rwi, 39⟩]⟩ ]

/-- Part 11 of the register table. -/
def regTable11 : List RegRow :=
  [ ⟨"SEQ_STG_BUDGET", 0x50114, [(9, 0x10)], .none, [⟨0, 21, .rwi, 39⟩]⟩
  , ⟨"SEQ_STG_DEADLINE", 0x50118, [(9, 0x10)], .none, [⟨0, 21, .rwi, 39⟩]⟩
  , ⟨"IMG_REJECT", 0x40008, [], .none, [⟨16, 16, .ro, 39⟩, ⟨0, 16, .ro, 39⟩]⟩
  , ⟨"IMG_REJECT_OFS", 0x4000C, [], .none, [⟨0, 32, .ro, 39⟩]⟩
  , ⟨"IMG_ID_LO", 0x40010, [], .none, [⟨0, 32, .ro, 39⟩]⟩
  , ⟨"IMG_ID_HI", 0x40014, [], .none, [⟨0, 32, .ro, 39⟩]⟩
  , ⟨"IMG_FORMAT", 0x40018, [], .none, [⟨16, 16, .ro, 39⟩, ⟨0, 16, .ro, 39⟩]⟩
  , ⟨"IMG_SECVER", 0x4001C, [], .none, [⟨0, 32, .ro, 39⟩]⟩
  , ⟨"IMG_COMPOSER", 0x40020, [], .none, [⟨0, 32, .ro, 39⟩]⟩
  , ⟨"IMG_DIGEST", 0x40080, [(12, 0x4)], .none, [⟨0, 32, .ro, 39⟩]⟩
  , ⟨"IMG_FUNC_STOP", 0x40030, [], .none, [⟨16, 4, .wo, 63⟩, ⟨8, 8, .wo, 63⟩, ⟨0, 6, .wo, 63⟩]⟩
  , ⟨"IMG_FUNC_RESTART", 0x40034, [], .none, [⟨16, 4, .wo, 63⟩, ⟨8, 8, .wo, 63⟩, ⟨0, 6, .wo, 63⟩]⟩
  , ⟨"IMG_FUNC_STATE", 0x40038, [], .none, [⟨16, 4, .ro, 63⟩, ⟨8, 8, .ro, 63⟩, ⟨0, 6, .ro, 63⟩]⟩
  , ⟨"IMG_FUNC_PEND", 0x4003C, [], .none, [⟨16, 4, .ro, 63⟩, ⟨8, 8, .ro, 63⟩, ⟨0, 6, .ro, 63⟩]⟩
  , ⟨"FLT_TH_LEVEL", 0x62000, [(48, 0x20), (2, 0x10)], .fixed 0, [⟨0, 32, .rwl, 39⟩]⟩
  , ⟨"FLT_TH_HYST", 0x62004, [(48, 0x20), (2, 0x10)], .fixed 0, [⟨0, 32, .rwl, 39⟩]⟩
  , ⟨"FLT_COEF", 0x64000, [(9216, 0x4)], .fixed 0, [⟨0, 32, .rwl, 39⟩]⟩
  , ⟨"INT_SLOT_VAL", 0x6D000, [(256, 0x20), (4, 0x4)], .none, [⟨0, 32, .ro, 39⟩]⟩
  , ⟨"INT_SLOT_ARRIVAL", 0x6D010, [(256, 0x20), (3, 0x4)], .none, [⟨0, 32, .ro, 39⟩]⟩
  , ⟨"REF_MED_POS", 0x70010, [], .fixed 0, [⟨0, 32, .rwl, 39⟩]⟩
  , ⟨"REF_MED_HDG", 0x70014, [], .fixed 0, [⟨0, 32, .rwl, 39⟩]⟩
  , ⟨"REF_VAR_POS", 0x70018, [], .fixed 0, [⟨0, 32, .rwl, 39⟩]⟩
  , ⟨"REF_VAR_HDG", 0x7001C, [], .fixed 0, [⟨0, 32, .rwl, 39⟩]⟩
  , ⟨"REF_DRIFT_POS", 0x70020, [], .fixed 0, [⟨0, 32, .rwl, 39⟩]⟩
  , ⟨"REF_DRIFT_HDG", 0x70024, [], .fixed 0, [⟨0, 32, .rwl, 39⟩]⟩
  , ⟨"REF_SIGMA_MIN_POS", 0x70028, [], .fixed 0, [⟨0, 32, .rwl, 39⟩]⟩
  , ⟨"REF_SIGMA_MIN_HDG", 0x7002C, [], .fixed 0, [⟨0, 32, .rwl, 39⟩]⟩
  , ⟨"REF_SIGMA0_POS", 0x70030, [], .fixed 0, [⟨0, 32, .rwl, 39⟩]⟩
  , ⟨"REF_SIGMA0_HDG", 0x70034, [], .fixed 0, [⟨0, 32, .rwl, 39⟩]⟩
  , ⟨"REF_BETA_V", 0x70038, [], .fixed 0, [⟨0, 32, .rwl, 39⟩]⟩ ]

/-- Part 12 of the register table. -/
def regTable12 : List RegRow :=
  [ ⟨"REF_BETA_D", 0x7003C, [], .fixed 0, [⟨0, 32, .rwl, 39⟩]⟩
  , ⟨"REF_FROZEN_T", 0x70040, [], .fixed 0, [⟨0, 32, .rwl, 39⟩]⟩
  , ⟨"REF_REACCEPT", 0x70044, [], .fixed 0, [⟨0, 8, .rwl, 39⟩]⟩
  , ⟨"GNS_PVT_N", 0x180044, [], .none, [⟨0, 32, .ro, 39⟩]⟩
  , ⟨"GNS_PVT_E", 0x180048, [], .none, [⟨0, 32, .ro, 39⟩]⟩
  , ⟨"GNS_PVT_D", 0x18004C, [], .none, [⟨0, 32, .ro, 39⟩]⟩
  , ⟨"GNS_PVT_SIGH", 0x180050, [], .none, [⟨0, 32, .ro, 39⟩]⟩
  , ⟨"GNS_PVT_CLK", 0x180054, [], .none, [⟨0, 32, .ro, 39⟩]⟩
  , ⟨"GNS_PVT_VN", 0x180058, [], .none, [⟨0, 32, .ro, 39⟩]⟩
  , ⟨"GNS_PVT_VE", 0x18005C, [], .none, [⟨0, 32, .ro, 39⟩]⟩
  , ⟨"GNS_PVT_VD", 0x180060, [], .none, [⟨0, 32, .ro, 39⟩]⟩
  , ⟨"GNS_ATT_HDG", 0x180084, [], .none, [⟨0, 32, .ro, 39⟩]⟩
  , ⟨"GNS_ATT_PITCH", 0x180088, [], .none, [⟨0, 32, .ro, 39⟩]⟩
  , ⟨"GNS_ATT_ROLL", 0x18008C, [], .none, [⟨0, 32, .ro, 39⟩]⟩
  , ⟨"GNS_ATT_SIGH", 0x180090, [], .none, [⟨0, 32, .ro, 39⟩]⟩
  , ⟨"OCE_EST_N", 0x80020, [], .none, [⟨0, 32, .ro, 39⟩]⟩
  , ⟨"OCE_EST_E", 0x80024, [], .none, [⟨0, 32, .ro, 39⟩]⟩
  , ⟨"OCE_EST_HDG", 0x80028, [], .none, [⟨0, 32, .ro, 39⟩]⟩
  , ⟨"OCE_EST_U", 0x8002C, [], .none, [⟨0, 32, .ro, 39⟩]⟩
  , ⟨"OCE_EST_V", 0x80030, [], .none, [⟨0, 32, .ro, 39⟩]⟩
  , ⟨"OCE_EST_R", 0x80034, [], .none, [⟨0, 32, .ro, 39⟩]⟩
  , ⟨"OCE_EST_BN", 0x80038, [], .none, [⟨0, 32, .ro, 39⟩]⟩
  , ⟨"OCE_EST_BE", 0x8003C, [], .none, [⟨0, 32, .ro, 39⟩]⟩
  , ⟨"OCE_EST_BZ", 0x80040, [], .none, [⟨0, 32, .ro, 39⟩]⟩
  , ⟨"OCE_TAU", 0x80050, [(6, 0x4)], .none, [⟨0, 32, .ro, 39⟩]⟩
  , ⟨"OCE_TAUFF", 0x80068, [(3, 0x4)], .none, [⟨0, 32, .ro, 39⟩]⟩
  , ⟨"OCE_STATE", 0x83000, [(32, 0x4)], .none, [⟨0, 32, .ro, 39⟩]⟩
  , ⟨"OCE_STEP", 0x81000, [(32, 0x10), (4, 0x4)], .none, [⟨0, 32, .rwi, 39⟩]⟩
  , ⟨"OCE_OPND", 0x82000, [(256, 0x8), (2, 0x4)], .none, [⟨0, 32, .rwi, 39⟩]⟩
  , ⟨"SLV_SEL_TAUA", 0x140020, [(6, 0x4)], .none, [⟨0, 32, .ro, 39⟩]⟩ ]

/-- Part 13 of the register table. -/
def regTable13 : List RegRow :=
  [ ⟨"SLV_PWR_BUDGET", 0x140100, [(8, 0x8)], .none, [⟨0, 32, .ro, 39⟩]⟩
  , ⟨"SLV_PWR_USED", 0x140104, [(8, 0x8)], .none, [⟨0, 32, .ro, 39⟩]⟩
  , ⟨"SLV_THR_F", 0x140800, [(64, 0x8), (2, 0x4)], .none, [⟨0, 32, .ro, 39⟩]⟩
  , ⟨"SLV_CA_MARGIN", 0x141004, [(256, 0x8)], .none, [⟨0, 32, .ro, 39⟩]⟩
  , ⟨"TIM_CNT_LO", 0x200010, [], .none, [⟨0, 32, .ro, 39⟩]⟩
  , ⟨"TIM_CNT_HI", 0x200014, [], .none, [⟨0, 32, .ro, 39⟩]⟩
  , ⟨"TIM_NOW_NS", 0x200018, [], .none, [⟨0, 32, .ro, 39⟩]⟩
  , ⟨"TIM_NOW_SEC", 0x20001C, [], .none, [⟨0, 32, .ro, 39⟩]⟩
  , ⟨"TIM_NOW_HI", 0x200020, [], .none, [⟨0, 32, .ro, 39⟩]⟩
  , ⟨"TIM_ANCHOR_T0", 0x200024, [], .none, [⟨0, 32, .ro, 39⟩]⟩
  , ⟨"TIM_ANCHOR_T1", 0x200028, [], .none, [⟨0, 32, .ro, 39⟩]⟩
  , ⟨"TIM_ANCHOR_T2", 0x20002C, [], .none, [⟨0, 32, .ro, 39⟩]⟩
  , ⟨"TIM_ANCHOR_CNT_LO", 0x200030, [], .none, [⟨0, 32, .ro, 39⟩]⟩
  , ⟨"TIM_ANCHOR_CNT_HI", 0x200034, [], .none, [⟨0, 32, .ro, 39⟩]⟩
  , ⟨"TIM_RATE_LO", 0x200038, [], .none, [⟨0, 32, .ro, 39⟩]⟩
  , ⟨"TIM_RATE_HI", 0x20003C, [], .none, [⟨0, 32, .ro, 39⟩]⟩
  , ⟨"TIM_EST_ERR", 0x200044, [], .none, [⟨0, 32, .ro, 39⟩]⟩
  , ⟨"TIM_STEP_THR", 0x20004C, [], .none, [⟨0, 32, .rwi, 39⟩]⟩
  , ⟨"TIM_SLEW_MAX", 0x200050, [], .none, [⟨0, 32, .rwi, 39⟩]⟩
  , ⟨"TIM_RATE_LIM", 0x200054, [], .none, [⟨0, 32, .rwi, 39⟩]⟩
  , ⟨"TIM_KP", 0x200058, [], .none, [⟨0, 32, .rwi, 39⟩]⟩
  , ⟨"TIM_KI", 0x20005C, [], .none, [⟨0, 32, .rwi, 39⟩]⟩
  , ⟨"TIM_SET", 0x200060, [(3, 0x4)], .none, [⟨0, 32, .rw, 39⟩]⟩
  , ⟨"TIM_SET_ERR", 0x20006C, [], .none, [⟨0, 32, .rw, 39⟩]⟩
  , ⟨"TIM_CONV_TIME", 0x200070, [(3, 0x4)], .none, [⟨0, 32, .rw, 39⟩]⟩
  , ⟨"TIM_CONV_CNT_LO", 0x200080, [], .none, [⟨0, 32, .ro, 39⟩]⟩
  , ⟨"TIM_CONV_CNT_HI", 0x200084, [], .none, [⟨0, 32, .ro, 39⟩]⟩
  , ⟨"TIM_STEP_LAST", 0x200088, [(5, 0x4)], .none, [⟨0, 32, .ro, 39⟩]⟩
  , ⟨"TIM_PHY_LAT1G", 0x200100, [(4, 0x8)], .first 16, [⟨16, 16, .rwl, 39⟩, ⟨0, 16, .rwl, 39⟩]⟩
  , ⟨"TIM_PHY_LAT100", 0x200104, [(4, 0x8)], .first 16, [⟨16, 16, .rwl, 39⟩, ⟨0, 16, .rwl, 39⟩]⟩ ]

/-- Part 14 of the register table. -/
def regTable14 : List RegRow :=
  [ ⟨"NET_IPV4", 0x21000C, [(4, 0x1000)], .none, [⟨0, 32, .rwi, 39⟩]⟩
  , ⟨"NET_MAC_LO", 0x210010, [(4, 0x1000)], .none, [⟨0, 32, .rwi, 39⟩]⟩
  , ⟨"NET_MAC_HI", 0x210014, [(4, 0x1000)], .none, [⟨0, 16, .rwi, 39⟩]⟩
  , ⟨"NET_CNT", 0x210060, [(4, 0x1000), (8, 0x4)], .none, [⟨0, 32, .ro, 63⟩]⟩
  , ⟨"CAN_TX_REQ", 0x220020, [(8, 0x1000)], .none, [⟨0, 32, .wo, 63⟩]⟩
  , ⟨"CAN_TX_CANCEL", 0x220024, [(8, 0x1000)], .none, [⟨0, 32, .wo, 63⟩]⟩
  , ⟨"CAN_TX_PEND", 0x220028, [(8, 0x1000)], .none, [⟨0, 32, .ro, 63⟩]⟩
  , ⟨"CAN_TX_DONE", 0x22002C, [(8, 0x1000)], .none, [⟨0, 32, .w1c, 63⟩]⟩
  , ⟨"CAN_EVT", 0x220030, [(8, 0x1000)], .none, [⟨0, 6, .w1c, 63⟩]⟩
  , ⟨"CAN_EVT_EN", 0x220034, [(8, 0x1000)], .none, [⟨0, 6, .rw, 63⟩]⟩
  , ⟨"ERR_CNT_C", 0x25000C, [], .none, [⟨0, 32, .ro, 39⟩]⟩
  , ⟨"ERR_CNT_T", 0x250010, [], .none, [⟨0, 32, .ro, 39⟩]⟩
  , ⟨"ERR_CNT_P", 0x250014, [], .none, [⟨0, 32, .ro, 39⟩]⟩
  , ⟨"ERR_FENCE_LANE", 0x250040, [(2, 0x4)], .none, [⟨0, 32, .ro, 39⟩]⟩
  , ⟨"ERR_FENCE_FLT", 0x250048, [(2, 0x4)], .none, [⟨0, 32, .ro, 39⟩]⟩
  , ⟨"ERR_FENCE_TRK", 0x250050, [(8, 0x4)], .none, [⟨0, 32, .ro, 39⟩]⟩
  , ⟨"ERR_FENCE_POS", 0x250070, [], .none, [⟨0, 32, .ro, 39⟩]⟩
  , ⟨"JNL_HEAD", 0x26000C, [], .none, [⟨0, 32, .ro, 39⟩]⟩
  , ⟨"JNL_MIRROR", 0x260010, [], .none, [⟨0, 32, .ro, 39⟩]⟩
  , ⟨"JNL_CKPT0", 0x260014, [], .none, [⟨0, 32, .ro, 39⟩]⟩
  , ⟨"JNL_CKPT1", 0x260018, [], .none, [⟨0, 32, .ro, 39⟩]⟩
  , ⟨"RED_TAG_LO", 0x270014, [], .none, [⟨0, 32, .ro, 39⟩]⟩
  , ⟨"RED_TAG_HI", 0x270018, [], .none, [⟨0, 32, .ro, 39⟩]⟩
  , ⟨"RED_PTAG_LO", 0x27001C, [], .none, [⟨0, 32, .ro, 39⟩]⟩
  , ⟨"RED_PTAG_HI", 0x270020, [], .none, [⟨0, 32, .ro, 39⟩]⟩
  , ⟨"RED_DIG_LO", 0x270024, [], .none, [⟨0, 32, .ro, 39⟩]⟩
  , ⟨"RED_DIG_HI", 0x270028, [], .none, [⟨0, 32, .ro, 39⟩]⟩
  , ⟨"RED_PDIG_LO", 0x27002C, [], .none, [⟨0, 32, .ro, 39⟩]⟩
  , ⟨"RED_PDIG_HI", 0x270030, [], .none, [⟨0, 32, .ro, 39⟩]⟩
  , ⟨"RED_CKPT_NAND", 0x27003C, [], .none, [⟨0, 32, .ro, 0⟩]⟩ ]

/-- Part 15 of the register table. -/
def regTable15 : List RegRow :=
  [ ⟨"PST_DRV_FMT", 0x280100, [(4, 0x20), (8, 0x4)], .none, [⟨0, 32, .ro, 63⟩]⟩
  , ⟨"PST_DEVSET", 0x281000, [(512, 0x4)], .none, [⟨0, 32, .rw, 63⟩]⟩
  , ⟨"PST_OOS", 0x281800, [(512, 0x4)], .none, [⟨0, 32, .ro, 39⟩]⟩
  , ⟨"HST_MAP_IMPL", 0x2B0008, [], .none, [⟨28, 4, .ro, 0⟩, ⟨24, 4, .ro, 0⟩, ⟨20, 4, .ro, 0⟩, ⟨12, 4, .ro, 39⟩, ⟨8, 4, .ro, 39⟩, ⟨4, 4, .ro, 39⟩]⟩
  , ⟨"HST_MAP_SEL", 0x2B000C, [], .none, [⟨31, 1, .wo, 39⟩, ⟨12, 4, .rw, 39⟩, ⟨8, 4, .rw, 39⟩, ⟨4, 4, .rw, 39⟩]⟩
  , ⟨"HST_MSIX_TABLE", 0x2B1000, [(32, 0x10), (4, 0x4)], .none, [⟨0, 32, .rw, 39⟩]⟩
  , ⟨"HST_MSIX_PBA", 0x2B2000, [(2, 0x4)], .none, [⟨0, 32, .ro, 39⟩]⟩
  , ⟨"FLD_POS_TIME", 0x231028, [(32, 0x40), (3, 0x4)], .none, [⟨0, 32, .ro, 39⟩]⟩
  , ⟨"TIM_TCAP_TGT_LO", 0x200204, [(4, 0x20)], .none, [⟨0, 32, .rw, 39⟩]⟩
  , ⟨"TIM_TCAP_TGT_HI", 0x200208, [(4, 0x20)], .none, [⟨0, 8, .rw, 39⟩]⟩
  , ⟨"TIM_TCAP_CAP_LO", 0x200218, [(4, 0x20)], .none, [⟨0, 32, .ro, 0⟩]⟩
  , ⟨"TIM_TCAP_CAP_HI", 0x20021C, [(4, 0x20)], .none, [⟨0, 32, .ro, 0⟩]⟩
  , ⟨"TIM_PTP_MASTER_LO", 0x200308, [], .none, [⟨0, 32, .ro, 39⟩]⟩
  , ⟨"TIM_PTP_MASTER_HI", 0x20030C, [], .none, [⟨0, 32, .ro, 39⟩]⟩
  , ⟨"REC_TRK_MIN_T", 0x292010, [(128, 0x40), (3, 0x4)], .none, [⟨0, 32, .ro, 39⟩]⟩
  , ⟨"REC_TRK_MAX_T", 0x292024, [(128, 0x40), (3, 0x4)], .none, [⟨0, 32, .ro, 39⟩]⟩
  , ⟨"HST_MAP_SET", 0x2B0010, [], .none, [⟨31, 1, .ro, 39⟩, ⟨12, 4, .ro, 39⟩, ⟨8, 4, .ro, 39⟩]⟩
  , ⟨"ERR_FENCE_PORT", 0x250074, [], .none, [⟨8, 8, .ro, 39⟩, ⟨0, 4, .ro, 39⟩]⟩ ]

/-- The register table: every register of BAR0 that holds state. -/
def regTable : List RegRow :=
  regTable0 ++ regTable1 ++ regTable2 ++ regTable3 ++ regTable4 ++ regTable5 ++ regTable6 ++ regTable7 ++ regTable8 ++ regTable9 ++ regTable10 ++ regTable11 ++ regTable12 ++ regTable13 ++ regTable14 ++ regTable15

end Sys2Proof.Machine
end

