-- ==== Sys2Proof/Machine/Regs.lean ====
section
/-! DEFINITION. The register fields of the GK9, each at its bit address, from the register tables of spec/00 to spec/18. -/

namespace Sys2Proof.Machine

open Sys2Proof

/-- GLB_VARIANT.STEP_DIGIT [23:20], RO, reset kept. Stepping digit, 0–9. -/
def GLB_VARIANT_STEP_DIGIT : Fld := ⟨(0x4) * 8 + 20, 4⟩
/-- GLB_VARIANT.STEP_LETTER [19:16], RO, reset kept. Stepping letter: 0x1 = A, 0x2 = B, and so on. 0x0 is never read. -/
def GLB_VARIANT_STEP_LETTER : Fld := ⟨(0x4) * 8 + 16, 4⟩
/-- GLB_VARIANT.EVAL [12], RO, reset kept. 1 = S variant, 0 = N variant. -/
def GLB_VARIANT_EVAL : Fld := ⟨(0x4) * 8 + 12, 1⟩
/-- GLB_VARIANT.ANTENNAS [11:8], RO, reset kept. Bonded GNSS antenna inputs: 4 or 0. 0 means no GNSS inputs. -/
def GLB_VARIANT_ANTENNAS : Fld := ⟨(0x4) * 8 + 8, 4⟩
/-- GLB_VARIANT.LANES [7:0], RO, reset kept. Solver lanes: 64, 32 or 0. 0 means no lanes and no observer and control engine. -/
def GLB_VARIANT_LANES : Fld := ⟨(0x4) * 8 + 0, 8⟩
/-- SEQ_CTRL.HALT [1], WO, reset P H S W C Z. 1 = let the cycles in flight finish, start no further cycle, then enter the power state HOLD (Clocks, Resets and Power States). This is not HOLD mode of R42. Wr -/
def SEQ_CTRL_HALT : Fld := ⟨(0x50000) * 8 + 1, 1⟩
/-- SEQ_CTRL.START [0], WO, reset P H S W C Z. 1 = cold RUN entry. Refused with SEQ START_REFUSED when no valid image is loaded, when the state is not IDLE, or when a staged value fails its check under R88. -/
def SEQ_CTRL_START : Fld := ⟨(0x50000) * 8 + 0, 1⟩
/-- SEQ_STATUS.RESYNCED [13], RO, reset P H S W C Z. 1 = RUN was entered by resynchronisation from a partner or by a cascade join (R22, R431). 0 after a cold RUN entry or a checkpoint restart. -/
def SEQ_STATUS_RESYNCED : Fld := ⟨(0x50004) * 8 + 13, 1⟩
/-- SEQ_STATUS.REPLAY [12], W1C, reset P H S W C Z. 1 = a replay has taken place since last cleared. -/
def SEQ_STATUS_REPLAY : Fld := ⟨(0x50004) * 8 + 12, 1⟩
/-- SEQ_STATUS.RESUMED [11], RO, reset P H S Z. 1 = CYC continued from restored state under R22. -/
def SEQ_STATUS_RESUMED : Fld := ⟨(0x50004) * 8 + 11, 1⟩
/-- SEQ_STATUS.PHASE_WALK [10], RO, reset P H S W C Z. 1 = the T0 chain is walking under R20. -/
def SEQ_STATUS_PHASE_WALK : Fld := ⟨(0x50004) * 8 + 10, 1⟩
/-- SEQ_STATUS.OVER_BUDGET [9], W1C, reset P H S W C Z. 1 = a stage exceeded its budget since last cleared. -/
def SEQ_STATUS_OVER_BUDGET : Fld := ⟨(0x50004) * 8 + 9, 1⟩
/-- SEQ_STATUS.MISS [8], W1C, reset P H S W C Z. 1 = a cycle was missed since last cleared. -/
def SEQ_STATUS_MISS : Fld := ⟨(0x50004) * 8 + 8, 1⟩
/-- SEQ_STATUS.TWO_IN_FLIGHT [4], RO, reset P H S W C Z. 1 = two cycles are in flight at the time of the read. -/
def SEQ_STATUS_TWO_IN_FLIGHT : Fld := ⟨(0x50004) * 8 + 4, 1⟩
/-- SEQ_STATUS.STATE [1:0], RO, reset P H S W C Z. 0 = IDLE, 1 = ARMING (waiting for T0(0)), 2 = RUNNING, 3 = HALTING. -/
def SEQ_STATUS_STATE : Fld := ⟨(0x50004) * 8 + 0, 2⟩
/-- SEQ_PERIOD.VALUE [20:0], RWI, reset P H S Z. In µs. SEQ_PERIOD: 1,000 to 1,000,000. SEQ_COMMIT_OFS: 0.2·P to 1.8·P. SEQ_T0_PHASE: 0 to P − 1, where 0 is a legal phase. For SEQ_PERIOD and SEQ_COMMIT_OFS, 0  -/
def SEQ_PERIOD_VALUE : Fld := ⟨(0x50008) * 8 + 0, 21⟩
/-- SEQ_COMMIT_OFS.VALUE [20:0], RWI, reset P H S Z. In µs. SEQ_PERIOD: 1,000 to 1,000,000. SEQ_COMMIT_OFS: 0.2·P to 1.8·P. SEQ_T0_PHASE: 0 to P − 1, where 0 is a legal phase. For SEQ_PERIOD and SEQ_COMMIT_OFS, 0  -/
def SEQ_COMMIT_OFS_VALUE : Fld := ⟨(0x5000C) * 8 + 0, 21⟩
/-- SEQ_T0_PHASE.VALUE [20:0], RWI, reset P H S Z. In µs. SEQ_PERIOD: 1,000 to 1,000,000. SEQ_COMMIT_OFS: 0.2·P to 1.8·P. SEQ_T0_PHASE: 0 to P − 1, where 0 is a legal phase. For SEQ_PERIOD and SEQ_COMMIT_OFS, 0  -/
def SEQ_T0_PHASE_VALUE : Fld := ⟨(0x50010) * 8 + 0, 21⟩
/-- SEQ_CYC_LO.CYC_LO [31:0], RO, reset P H S Z. CYC[31:0]. On W and C, restored from the checkpoint under R22. -/
def SEQ_CYC_LO_CYC_LO : Fld := ⟨(0x50014) * 8 + 0, 32⟩
/-- SEQ_CYC_HI.CYC_HI [15:0], RO, reset P H S Z. CYC[47:32]. On W and C, restored as CYC_LO. -/
def SEQ_CYC_HI_CYC_HI : Fld := ⟨(0x50018) * 8 + 0, 16⟩
/-- SEQ_MISS_CFG.MISS_LIMIT [7:0], RWI, reset P H S Z. Consecutive missed cycles that raise a class S fault under R39, 1 to 255. 0 is rejected with IMG ZERO_FIELD. -/
def SEQ_MISS_CFG_MISS_LIMIT : Fld := ⟨(0x50024) * 8 + 0, 8⟩
/-- SEQ_COND.LAST_CODE [15:0], RO, reset P H S W C Z. Last SEQ condition code reported; 0x0000 = none. -/
def SEQ_COND_LAST_CODE : Fld := ⟨(0x50028) * 8 + 0, 16⟩
/-- SEQ_MODE_REQ.MODE [2:0], RW, reset P H S W C Z. Requested mode code (R42), taken with the armed set. -/
def SEQ_MODE_REQ_MODE : Fld := ⟨(0x50030) * 8 + 0, 3⟩
/-- SEQ_MODE_ACT.PERMIT [13:8], RWI, reset P H S Z. Bit 8 + m = 1 permits mode code m. STANDBY's bit is always 1. -/
def SEQ_MODE_ACT_PERMIT : Fld := ⟨(0x50034) * 8 + 8, 6⟩
/-- SEQ_MODE_ACT.MODE [2:0], RO, reset P H S Z. Active mode. At cold RUN entry, 0. On W and C, restored from the checkpoint. -/
def SEQ_MODE_ACT_MODE : Fld := ⟨(0x50034) * 8 + 0, 3⟩
/-- SEQ_SP_CTRL.REFUSED [1], W1C, reset P H S W C Z. 1 = the last armed set was refused under R45. -/
def SEQ_SP_CTRL_REFUSED : Fld := ⟨(0x50038) * 8 + 1, 1⟩
/-- SEQ_SP_CTRL.ARM [0], RW, reset P H S W C Z. 1 = a pending set awaits the next T0. The GK9 clears it when the set is taken or refused. -/
def SEQ_SP_CTRL_ARM : Fld := ⟨(0x50038) * 8 + 0, 1⟩
/-- SEQ_STG_LAST.LATE [31], RO, reset P H S W C Z. 1 = the stage overran its deadline in the last cycle that ran it. -/
def SEQ_STG_LAST_LATE (i : Nat) : Fld := ⟨(0x5011C + i * 0x10) * 8 + 31, 1⟩
/-- SEQ_STG_LAST.OVER [30], RO, reset P H S W C Z. 1 = the stage exceeded its budget in that cycle. -/
def SEQ_STG_LAST_OVER (i : Nat) : Fld := ⟨(0x5011C + i * 0x10) * 8 + 30, 1⟩
/-- SEQ_STG_LAST.END [20:0], RO, reset P H S W C Z. End of the stage in that cycle, in µs after T0. -/
def SEQ_STG_LAST_END (i : Nat) : Fld := ⟨(0x5011C + i * 0x10) * 8 + 0, 21⟩
/-- IMG_CTRL.SOURCE [6:4], RW, reset P H S W C Z. 1 = slot A, 2 = slot B, 3 = host staging, 4 = cascade staging. 0 and 5–7 make any command refused with IMG BAD_REQUEST. -/
def IMG_CTRL_SOURCE : Fld := ⟨(0x40000) * 8 + 4, 3⟩
/-- IMG_CTRL.CMD [3:0], WO, reset P H S W C Z. 1 = LOAD, 2 = CHECK, 3 = STORE (SOURCE must be 3; with any other SOURCE, refused with IMG BAD_REQUEST, R79), 4 = CONFIRM, 5 = ABANDON. 0 = no command. Other val -/
def IMG_CTRL_CMD : Fld := ⟨(0x40000) * 8 + 0, 4⟩
/-- IMG_STATUS.V2 [17], RO, reset P H S Z. 1 = the loaded image is version 2.x. -/
def IMG_STATUS_V2 : Fld := ⟨(0x40004) * 8 + 17, 1⟩
/-- IMG_STATUS.FALLBACK [16], W1C, reset P H S Z. 1 = the last NAND load used the fallback slot. -/
def IMG_STATUS_FALLBACK : Fld := ⟨(0x40004) * 8 + 16, 1⟩
/-- IMG_STATUS.SRC [14:12], RO, reset P H S Z. Source of the loaded image, coded as SOURCE; 0 = none. -/
def IMG_STATUS_SRC : Fld := ⟨(0x40004) * 8 + 12, 3⟩
/-- IMG_STATUS.CHECK_BUSY [8], RO, reset P H S W C Z. 1 = a CHECK or STORE is running. -/
def IMG_STATUS_CHECK_BUSY : Fld := ⟨(0x40004) * 8 + 8, 1⟩
/-- IMG_STATUS.PHASE [6:4], RO, reset P H S W C Z. Phase of the running load or check (R80); 0 = none. -/
def IMG_STATUS_PHASE : Fld := ⟨(0x40004) * 8 + 4, 3⟩
/-- IMG_STATUS.STATE [1:0], RO, reset P H S Z. 0 = EMPTY, 1 = LOADING, 2 = LOADED. -/
def IMG_STATUS_STATE : Fld := ⟨(0x40004) * 8 + 0, 2⟩
/-- IMG_SLOT_STS.B_GEN [31:24], RO, reset P H S Z. Slot B generation, read from NAND at boot. -/
def IMG_SLOT_STS_B_GEN : Fld := ⟨(0x40024) * 8 + 24, 8⟩
/-- IMG_SLOT_STS.B_TRIED [18], RO, reset P H S Z. Slot B TRIED flag. -/
def IMG_SLOT_STS_B_TRIED : Fld := ⟨(0x40024) * 8 + 18, 1⟩
/-- IMG_SLOT_STS.B_STATE [17:16], RO, reset P H S Z. 0 = EMPTY, 1 = VALID, 2 = TRIAL, 3 = BAD. -/
def IMG_SLOT_STS_B_STATE : Fld := ⟨(0x40024) * 8 + 16, 2⟩
/-- IMG_SLOT_STS.A_GEN [15:8], RO, reset P H S Z. Slot A generation. -/
def IMG_SLOT_STS_A_GEN : Fld := ⟨(0x40024) * 8 + 8, 8⟩
/-- IMG_SLOT_STS.A_TRIED [2], RO, reset P H S Z. Slot A TRIED flag. -/
def IMG_SLOT_STS_A_TRIED : Fld := ⟨(0x40024) * 8 + 2, 1⟩
/-- IMG_SLOT_STS.A_STATE [1:0], RO, reset P H S Z. As B_STATE. -/
def IMG_SLOT_STS_A_STATE : Fld := ⟨(0x40024) * 8 + 0, 2⟩
/-- IMG_CAPS.MAX_MINOR2 [15:8], RO, reset kept. Highest accepted 2.x minor; 4 on stepping B1. -/
def IMG_CAPS_MAX_MINOR2 : Fld := ⟨(0x40028) * 8 + 8, 8⟩
/-- IMG_CAPS.MAX_MINOR3 [7:0], RO, reset kept. Highest accepted 3.x minor; 2 on stepping B1. -/
def IMG_CAPS_MAX_MINOR3 : Fld := ⟨(0x40028) * 8 + 0, 8⟩
/-- IMG_COND.LAST_CODE [15:0], RO, reset P H S W C Z. Last IMG condition code reported; 0x0000 = none. -/
def IMG_COND_LAST_CODE : Fld := ⟨(0x4002C) * 8 + 0, 16⟩
/-- IMG_FUNC_ERR.GROUP [28:24], RO, reset P H S W C Z. Bit position (R84) of the group whose restart was refused. -/
def IMG_FUNC_ERR_GROUP : Fld := ⟨(0x40040) * 8 + 24, 5⟩
/-- IMG_FUNC_ERR.REG_OFS [23:0], RO, reset P H S W C Z. BAR0 offset of the first staged register that failed its check. -/
def IMG_FUNC_ERR_REG_OFS : Fld := ⟨(0x40040) * 8 + 0, 24⟩
/-- FLT_STATUS.SLOTS [15:8], RO, reset P H S Z. Defined slots, 1 to 256, coded 0 to 255 as count − 1. -/
def FLT_STATUS_SLOTS : Fld := ⟨(0x60000) * 8 + 8, 8⟩
/-- FLT_STATUS.CHANNELS [5:0], RO, reset P H S Z. Defined filter channels, 0 to 48; 0 = no filtering. The value 48 is coded as 0x30. -/
def FLT_STATUS_CHANNELS : Fld := ⟨(0x60000) * 8 + 0, 6⟩
/-- FLT_EVT.EVT [31:0], W1C, reset P H S W C Z. 1 = the comparator entered ACTIVE with route IRQ; set at commit (R113). -/
def FLT_EVT_EVT (i : Nat) : Fld := ⟨(0x60010 + i * 0x4) * 8 + 0, 32⟩
/-- FLT_EVT_EN.EN [31:0], RW, reset P H S W C Z. 1 = the EVT bit contributes to the FLT interrupt source (Host Interface and Register Map). -/
def FLT_EVT_EN_EN (i : Nat) : Fld := ⟨(0x60020 + i * 0x4) * 8 + 0, 32⟩
/-- FLT_CH_CFG.E_IN [31:24], RWL, reset P H S Z. Input scale exponent, two's complement, −126 to +127. -/
def FLT_CH_CFG_E_IN (i : Nat) : Fld := ⟨(0x61000 + i * 0x20) * 8 + 24, 8⟩
/-- FLT_CH_CFG.SLOT [23:16], RWL, reset P H S Z. Input slot. -/
def FLT_CH_CFG_SLOT (i : Nat) : Fld := ⟨(0x61000 + i * 0x20) * 8 + 16, 8⟩
/-- FLT_CH_CFG.COMP [1:0], RWL, reset P H S Z. Input component. -/
def FLT_CH_CFG_COMP (i : Nat) : Fld := ⟨(0x61000 + i * 0x20) * 8 + 0, 2⟩
/-- FLT_CH_SHAPE.TAPS [24:16], RWL, reset P H S Z. N, 1 to 384; 0 is refused at restart. -/
def FLT_CH_SHAPE_TAPS (i : Nat) : Fld := ⟨(0x61004 + i * 0x20) * 8 + 16, 9⟩
/-- FLT_CH_SHAPE.DECIM [6:0], RWL, reset P H S Z. D, 1 to 64; 0 is refused at restart. -/
def FLT_CH_SHAPE_DECIM (i : Nat) : Fld := ⟨(0x61004 + i * 0x20) * 8 + 0, 7⟩
/-- FLT_CH_TICK.TICK [19:0], RWL, reset P H S Z. Ti in µs, 20 to 1,000,000; 0 is refused at restart. -/
def FLT_CH_TICK_TICK (i : Nat) : Fld := ⟨(0x61008 + i * 0x20) * 8 + 0, 20⟩
/-- FLT_CH_GD.GD_NS [31:0], RO, reset P H S Z. (N − 1) × Ti × 500 ns. 0 for N = 1. -/
def FLT_CH_GD_GD_NS (i : Nat) : Fld := ⟨(0x6100C + i * 0x20) * 8 + 0, 32⟩
/-- FLT_CH_SKEW.SKEW_NS [31:0], RO, reset P H S Z. k × 250 ns. -/
def FLT_CH_SKEW_SKEW_NS (i : Nat) : Fld := ⟨(0x61010 + i * 0x20) * 8 + 0, 32⟩
/-- FLT_CH_STS.FENCED [31], RO, reset P H S Z. 1 = channel fenced (Fault Detection, Replay and Fencing); outputs invalid and comparators inactive. -/
def FLT_CH_STS_FENCED (i : Nat) : Fld := ⟨(0x61014 + i * 0x20) * 8 + 31, 1⟩
/-- FLT_CH_STS.VALID [30], RO, reset P H S Z. 1 = the newest output of the last committed cycle is valid (R107). -/
def FLT_CH_STS_VALID (i : Nat) : Fld := ⟨(0x61014 + i * 0x20) * 8 + 30, 1⟩
/-- FLT_CH_STS.NEW [29], RO, reset P H S Z. 1 = that cycle had an output (R108). -/
def FLT_CH_STS_NEW (i : Nat) : Fld := ⟨(0x61014 + i * 0x20) * 8 + 29, 1⟩
/-- FLT_CH_STS.OSAT [28], RO, reset P H S Z. 1 = that output saturated (R104). -/
def FLT_CH_STS_OSAT (i : Nat) : Fld := ⟨(0x61014 + i * 0x20) * 8 + 28, 1⟩
/-- FLT_CH_STS.SAT_CNT [15:0], RO, reset P H S Z. Saturated input samples since cold start, saturating at 0xFFFF; cleared at REF restart; 0 = none. -/
def FLT_CH_STS_SAT_CNT (i : Nat) : Fld := ⟨(0x61014 + i * 0x20) * 8 + 0, 16⟩
/-- FLT_CH_OUT.OUT [31:0], RO, reset P H S Z. Newest output, binary32; a cycle result. -/
def FLT_CH_OUT_OUT (i : Nat) : Fld := ⟨(0x61018 + i * 0x20) * 8 + 0, 32⟩
/-- FLT_TH_CFG.EN [31], RWL, reset P H S Z. 1 = comparator in use. -/
def FLT_TH_CFG_EN (i : Nat) (j : Nat) : Fld := ⟨(0x62008 + i * 0x20 + j * 0x10) * 8 + 31, 1⟩
/-- FLT_TH_CFG.SEL [18], RWL, reset P H S Z. Route to the scenario selector. -/
def FLT_TH_CFG_SEL (i : Nat) (j : Nat) : Fld := ⟨(0x62008 + i * 0x20 + j * 0x10) * 8 + 18, 1⟩
/-- FLT_TH_CFG.IRQ [17], RWL, reset P H S Z. Route to FLT_EVT. -/
def FLT_TH_CFG_IRQ (i : Nat) (j : Nat) : Fld := ⟨(0x62008 + i * 0x20 + j * 0x10) * 8 + 17, 1⟩
/-- FLT_TH_CFG.LOG [16], RWL, reset P H S Z. Route to the incident log. -/
def FLT_TH_CFG_LOG (i : Nat) (j : Nat) : Fld := ⟨(0x62008 + i * 0x20 + j * 0x10) * 8 + 16, 1⟩
/-- FLT_TH_CFG.DIR [8], RWL, reset P H S Z. 0 = rising, 1 = falling. -/
def FLT_TH_CFG_DIR (i : Nat) (j : Nat) : Fld := ⟨(0x62008 + i * 0x20 + j * 0x10) * 8 + 8, 1⟩
/-- FLT_TH_CFG.DWELL [7:0], RWL, reset P H S Z. 0 to 255; 0 = enters ACTIVE at the first beyond output (R111). -/
def FLT_TH_CFG_DWELL (i : Nat) (j : Nat) : Fld := ⟨(0x62008 + i * 0x20 + j * 0x10) * 8 + 0, 8⟩
/-- FLT_TH_STS.ACTIVE [31], RO, reset P H S Z. State after the last committed cycle. -/
def FLT_TH_STS_ACTIVE (i : Nat) (j : Nat) : Fld := ⟨(0x6200C + i * 0x20 + j * 0x10) * 8 + 31, 1⟩
/-- FLT_TH_STS.ENTER_CNT [15:0], RO, reset P H S Z. Entries to ACTIVE since cold start, saturating at 0xFFFF; 0 = none. -/
def FLT_TH_STS_ENTER_CNT (i : Nat) (j : Nat) : Fld := ⟨(0x6200C + i * 0x20 + j * 0x10) * 8 + 0, 16⟩
/-- INT_SLOT_STS.KIND [31:29], RO, reset P H S Z. Source kind (R95); 0 = slot undefined. -/
def INT_SLOT_STS_KIND (i : Nat) : Fld := ⟨(0x6D01C + i * 0x20) * 8 + 29, 3⟩
/-- INT_SLOT_STS.SRC_TIME [28], RO, reset P H S Z. 1 = ARRIVAL holds t_src (R97). -/
def INT_SLOT_STS_SRC_TIME (i : Nat) : Fld := ⟨(0x6D01C + i * 0x20) * 8 + 28, 1⟩
/-- INT_SLOT_STS.INVALID [27], RO, reset P H S Z. R98. -/
def INT_SLOT_STS_INVALID (i : Nat) : Fld := ⟨(0x6D01C + i * 0x20) * 8 + 27, 1⟩
/-- INT_SLOT_STS.STALE [26], RO, reset P H S Z. R99. -/
def INT_SLOT_STS_STALE (i : Nat) : Fld := ⟨(0x6D01C + i * 0x20) * 8 + 26, 1⟩
/-- INT_SLOT_STS.NEVER [25], RO, reset P H S Z. No arrival since cold start. -/
def INT_SLOT_STS_NEVER (i : Nat) : Fld := ⟨(0x6D01C + i * 0x20) * 8 + 25, 1⟩
/-- INT_SLOT_STS.UPD [23:16], RO, reset P H S Z. Arrivals between the previous latch and this one, saturating at 255; 0 = no new arrival. -/
def INT_SLOT_STS_UPD (i : Nat) : Fld := ⟨(0x6D01C + i * 0x20) * 8 + 16, 8⟩
/-- INT_SLOT_STS.NCOMP [2:0], RO, reset P H S Z. Components, 1 to 4; 0 = slot undefined. -/
def INT_SLOT_STS_NCOMP (i : Nat) : Fld := ⟨(0x6D01C + i * 0x20) * 8 + 0, 3⟩
/-- REF_STATUS.HDG_FALLBACK [31], RO, reset P H S Z. R119. -/
def REF_STATUS_HDG_FALLBACK : Fld := ⟨(0x70000) * 8 + 31, 1⟩
/-- REF_STATUS.POS_PAIR_DISAGREE [30], RO, reset P H S Z. R121. -/
def REF_STATUS_POS_PAIR_DISAGREE : Fld := ⟨(0x70000) * 8 + 30, 1⟩
/-- REF_STATUS.HDG_PAIR_DISAGREE [29], RO, reset P H S Z. R121. -/
def REF_STATUS_HDG_PAIR_DISAGREE : Fld := ⟨(0x70000) * 8 + 29, 1⟩
/-- REF_STATUS.POS_SPREAD [28], RO, reset P H S Z. R121. -/
def REF_STATUS_POS_SPREAD : Fld := ⟨(0x70000) * 8 + 28, 1⟩
/-- REF_STATUS.HDG_SPREAD [27], RO, reset P H S Z. R121. -/
def REF_STATUS_HDG_SPREAD : Fld := ⟨(0x70000) * 8 + 27, 1⟩
/-- REF_STATUS.HDG_ACCEPTED [10:8], RO, reset P H S Z. Accepted heading references, 0 to 4; 0 = none. -/
def REF_STATUS_HDG_ACCEPTED : Fld := ⟨(0x70000) * 8 + 8, 3⟩
/-- REF_STATUS.POS_ACCEPTED [3:0], RO, reset P H S Z. Accepted position references, 0 to 8; 0 = none. -/
def REF_STATUS_POS_ACCEPTED : Fld := ⟨(0x70000) * 8 + 0, 4⟩
/-- REF_SELECT.HDG [11:8], RWL, reset P H S Z. 1 = HDGj selected. The image value selects every defined reference. -/
def REF_SELECT_HDG : Fld := ⟨(0x70004) * 8 + 8, 4⟩
/-- REF_SELECT.POS [7:0], RWL, reset P H S Z. 1 = POSi selected. A bit for an undefined reference is refused at restart. -/
def REF_SELECT_POS : Fld := ⟨(0x70004) * 8 + 0, 8⟩
/-- REF_POS_CFG.DEFINED [31], RWI, reset P H S Z. 1 = the reference is defined by the image. -/
def REF_POS_CFG_DEFINED (i : Nat) : Fld := ⟨(0x70100 + i * 0x20) * 8 + 31, 1⟩
/-- REF_POS_CFG.SLOT [7:0], RWI, reset P H S Z. Source slot. -/
def REF_POS_CFG_SLOT (i : Nat) : Fld := ⟨(0x70100 + i * 0x20) * 8 + 0, 8⟩
/-- REF_HDG_CFG.DEFINED [31], RWI, reset P H S Z. 1 = the reference is defined by the image. -/
def REF_HDG_CFG_DEFINED (i : Nat) : Fld := ⟨(0x70200 + i * 0x20) * 8 + 31, 1⟩
/-- REF_HDG_CFG.SLOT [7:0], RWI, reset P H S Z. Source slot. -/
def REF_HDG_CFG_SLOT (i : Nat) : Fld := ⟨(0x70200 + i * 0x20) * 8 + 0, 8⟩
/-- REF_POS_LEVER.LEVER [31:0], RWI, reset P H S Z. Lever arm, binary32 m, body frame (POSi only). -/
def REF_POS_LEVER_LEVER (i : Nat) (j : Nat) : Fld := ⟨(0x70104 + i * 0x20 + j * 0x4) * 8 + 0, 32⟩
/-- REF_HDG_OFFSET.OFFSET [31:0], RWI, reset P H S Z. Alignment offset, binary angle (HDGj only). -/
def REF_HDG_OFFSET_OFFSET (i : Nat) : Fld := ⟨(0x70204 + i * 0x20) * 8 + 0, 32⟩
/-- REF_POS_REASON.REACC_LEFT [15:8], RO, reset P H S Z. Remaining re-acceptance count; 0 = none. -/
def REF_POS_REASON_REACC_LEFT (i : Nat) : Fld := ⟨(0x70110 + i * 0x20) * 8 + 8, 8⟩
/-- REF_POS_REASON.REASON [7:0], RO, reset P H S Z. R115. -/
def REF_POS_REASON_REASON (i : Nat) : Fld := ⟨(0x70110 + i * 0x20) * 8 + 0, 8⟩
/-- REF_HDG_REASON.REACC_LEFT [15:8], RO, reset P H S Z. Remaining re-acceptance count; 0 = none. -/
def REF_HDG_REASON_REACC_LEFT (i : Nat) : Fld := ⟨(0x70208 + i * 0x20) * 8 + 8, 8⟩
/-- REF_HDG_REASON.REASON [7:0], RO, reset P H S Z. R115. -/
def REF_HDG_REASON_REASON (i : Nat) : Fld := ⟨(0x70208 + i * 0x20) * 8 + 0, 8⟩
/-- REF_POS_WEIGHT.WEIGHT [31:0], RO, reset P H S Z. w_i, binary32; 0.0 when not accepted. -/
def REF_POS_WEIGHT_WEIGHT (i : Nat) : Fld := ⟨(0x70114 + i * 0x20) * 8 + 0, 32⟩
/-- REF_HDG_WEIGHT.WEIGHT [31:0], RO, reset P H S Z. w_i, binary32; 0.0 when not accepted. -/
def REF_HDG_WEIGHT_WEIGHT (i : Nat) : Fld := ⟨(0x7020C + i * 0x20) * 8 + 0, 32⟩
/-- REF_POS_SIGMA.SIGMA [31:0], RO, reset P H S Z. σ_i, binary32, as read by the last committed cycle. -/
def REF_POS_SIGMA_SIGMA (i : Nat) : Fld := ⟨(0x70118 + i * 0x20) * 8 + 0, 32⟩
/-- REF_HDG_SIGMA.SIGMA [31:0], RO, reset P H S Z. σ_i, binary32, as read by the last committed cycle. -/
def REF_HDG_SIGMA_SIGMA (i : Nat) : Fld := ⟨(0x70210 + i * 0x20) * 8 + 0, 32⟩
/-- REF_POS_DRIFT.DRIFT [31:0], RO, reset P H S Z. abs(μ_i), binary32. -/
def REF_POS_DRIFT_DRIFT (i : Nat) : Fld := ⟨(0x7011C + i * 0x20) * 8 + 0, 32⟩
/-- REF_HDG_DRIFT.DRIFT [31:0], RO, reset P H S Z. abs(μ_i), binary32. -/
def REF_HDG_DRIFT_DRIFT (i : Nat) : Fld := ⟨(0x70214 + i * 0x20) * 8 + 0, 32⟩
/-- GNS_STATUS.ALL_LOST [28], RO, reset P H S W C Z. 1 = no channel had CODE_LOCK at the last cycle epoch (R161). -/
def GNS_STATUS_ALL_LOST : Fld := ⟨(0x180000) * 8 + 28, 1⟩
/-- GNS_STATUS.ANT_FAULT [27:24], RO, reset P H S W C Z. Bit a = FAULT of antenna a (R129). -/
def GNS_STATUS_ANT_FAULT : Fld := ⟨(0x180000) * 8 + 24, 4⟩
/-- GNS_STATUS.GCLK_OK [23], RO, reset P H S W C Z. 1 = GCLK present and within rate (R127). -/
def GNS_STATUS_GCLK_OK : Fld := ⟨(0x180000) * 8 + 23, 1⟩
/-- GNS_STATUS.TRACKED [8:0], RO, reset P H S W C Z. Channels with CODE_LOCK at the last committed cycle epoch, 0 to 256; 0 = none. -/
def GNS_STATUS_TRACKED : Fld := ⟨(0x180000) * 8 + 0, 9⟩
/-- GNS_CFG.SIG_EN [23:20], RWI, reset P H S Z. Bit s − 1 = signal code s enabled. -/
def GNS_CFG_SIG_EN : Fld := ⟨(0x180004) * 8 + 20, 4⟩
/-- GNS_CFG.ANT_EN [19:16], RWI, reset P H S Z. Bit a = antenna a in use (CH[a] > 0). -/
def GNS_CFG_ANT_EN : Fld := ⟨(0x180004) * 8 + 16, 4⟩
/-- GNS_CFG.EPOCH_DIV [9:0], RWI, reset P H S Z. E, 1 to 1,000 (R141); 0 is rejected with IMG ZERO_FIELD. -/
def GNS_CFG_EPOCH_DIV : Fld := ⟨(0x180004) * 8 + 0, 10⟩
/-- GNS_LANES_LO.LANES [31:4], RWI, reset P H S Z. Bit i = lane i in the GNSS set (R146). -/
def GNS_LANES_LO_LANES : Fld := ⟨(0x180008) * 8 + 4, 28⟩
/-- GNS_LANES_HI.LANES [31:0], RWI, reset P H S Z. Bit i = lane 32 + i; reads 0 on 32-lane variants. An all-zero set means no GNSS lane jobs. -/
def GNS_LANES_HI_LANES : Fld := ⟨(0x18000C) * 8 + 0, 32⟩
/-- GNS_COND.LAST_CODE [15:0], RO, reset P H S W C Z. Last GNS condition code reported; 0x0000 = none. -/
def GNS_COND_LAST_CODE : Fld := ⟨(0x180010) * 8 + 0, 16⟩
/-- GNS_RTCM_DATA.OCTET [7:0], WO, reset —. Next octet of the host RTCM stream (R158). -/
def GNS_RTCM_DATA_OCTET : Fld := ⟨(0x180014) * 8 + 0, 8⟩
/-- GNS_RTCM_STS.FILL [31:18], RO, reset P H S W C Z. Octets in the FIFO, 0 to 8,192; 0 = empty. -/
def GNS_RTCM_STS_FILL : Fld := ⟨(0x180018) * 8 + 18, 14⟩
/-- GNS_RTCM_STS.OVERFLOW [17], W1C, reset P H S W C Z. 1 = octets discarded on a full FIFO. -/
def GNS_RTCM_STS_OVERFLOW : Fld := ⟨(0x180018) * 8 + 17, 1⟩
/-- GNS_RTCM_STS.CRC_CNT [15:8], RO, reset P H S W C Z. Frames failing CRC, saturating at 255; cleared at GNSS restart; 0 = none. -/
def GNS_RTCM_STS_CRC_CNT : Fld := ⟨(0x180018) * 8 + 8, 8⟩
/-- GNS_RTCM_STS.OTHER_CNT [7:0], RO, reset P H S W C Z. Messages not used (R159), saturating at 255; cleared at GNSS restart; 0 = none. -/
def GNS_RTCM_STS_OTHER_CNT : Fld := ⟨(0x180018) * 8 + 0, 8⟩
/-- GNS_ANT_STS.FAULT [31], RO, reset P H S W C Z. R129, R130. -/
def GNS_ANT_STS_FAULT (i : Nat) : Fld := ⟨(0x180020 + i * 0x4) * 8 + 31, 1⟩
/-- GNS_ANT_STS.USED [30], RO, reset P H S Z. 1 = CH[a] > 0. -/
def GNS_ANT_STS_USED (i : Nat) : Fld := ⟨(0x180020 + i * 0x4) * 8 + 30, 1⟩
/-- GNS_ANT_STS.GAIN [23:16], RO, reset P H S W C Z. Last gain code written (R130); 0 when no gain write is defined. -/
def GNS_ANT_STS_GAIN (i : Nat) : Fld := ⟨(0x180020 + i * 0x4) * 8 + 16, 8⟩
/-- GNS_ANT_STS.OCC [9:0], RO, reset P H S W C Z. Occupancy of the last window, 0.1 %, 0 to 1,000. -/
def GNS_ANT_STS_OCC (i : Nat) : Fld := ⟨(0x180020 + i * 0x4) * 8 + 0, 10⟩
/-- GNS_PVT_STS.MODE [31:30], RO, reset P H S Z. 0 = NONE, 1 = SPP, 2 = DGNSS; 3 is not used. -/
def GNS_PVT_STS_MODE : Fld := ⟨(0x180040) * 8 + 30, 2⟩
/-- GNS_PVT_STS.EXCLUDED [29], RO, reset P H S Z. 1 = one measurement excluded (R150). -/
def GNS_PVT_STS_EXCLUDED : Fld := ⟨(0x180040) * 8 + 29, 1⟩
/-- GNS_PVT_STS.NSAT [23:16], RO, reset P H S Z. Measurements used, 0 to 64; 0 = no solution. -/
def GNS_PVT_STS_NSAT : Fld := ⟨(0x180040) * 8 + 16, 8⟩
/-- GNS_PVT_STS.EXCL_CH [15:8], RO, reset P H S Z. Channel excluded; valid when EXCLUDED = 1. -/
def GNS_PVT_STS_EXCL_CH : Fld := ⟨(0x180040) * 8 + 8, 8⟩
/-- GNS_PVT_STS.SYS [3:0], RO, reset P H S Z. Bit s − 1 = signal code s used. -/
def GNS_PVT_STS_SYS : Fld := ⟨(0x180040) * 8 + 0, 4⟩
/-- GNS_ATT_STS.VALID [31], RO, reset P H S Z. 1 = attitude valid (R156). -/
def GNS_ATT_STS_VALID : Fld := ⟨(0x180080) * 8 + 31, 1⟩
/-- GNS_ATT_STS.FIXED [30:28], RO, reset P H S Z. Bit k − 1 = baseline k fixed. -/
def GNS_ATT_STS_FIXED : Fld := ⟨(0x180080) * 8 + 28, 3⟩
/-- GNS_ATT_STS.TRUNC [27], RO, reset P H S Z. 1 = the last search exceeded CAND_MAX. -/
def GNS_ATT_STS_TRUNC : Fld := ⟨(0x180080) * 8 + 27, 1⟩
/-- GNS_ATT_STS.SURV [15:0], RO, reset P H S Z. Survivors of the last search, saturating at 0xFFFF; 0 = none or no search. -/
def GNS_ATT_STS_SURV : Fld := ⟨(0x180080) * 8 + 0, 16⟩
/-- GNS_DIFF_STS.BASE_KNOWN [31], RO, reset P H S W C Z. 1 = station position received. -/
def GNS_DIFF_STS_BASE_KNOWN : Fld := ⟨(0x1800A0) * 8 + 31, 1⟩
/-- GNS_DIFF_STS.USED [30], RO, reset P H S W C Z. 1 = DGNSS used at the last cycle epoch. -/
def GNS_DIFF_STS_USED : Fld := ⟨(0x1800A0) * 8 + 30, 1⟩
/-- GNS_DIFF_STS.STATION [27:16], RO, reset P H S W C Z. Station of the newest complete base epoch. -/
def GNS_DIFF_STS_STATION : Fld := ⟨(0x1800A0) * 8 + 16, 12⟩
/-- GNS_DIFF_AGE.AGE_MS [31:0], RO, reset P H S W C Z. Base epoch age at the last cycle epoch, in ms; 0xFFFF_FFFF = no base epoch. -/
def GNS_DIFF_AGE_AGE_MS : Fld := ⟨(0x1800A4) * 8 + 0, 32⟩
/-- GNS_LOOP_PLL.PLL_ORD3 [31], RWI, reset P H S Z. 1 = third-order PLL, 0 = second-order. -/
def GNS_LOOP_PLL_PLL_ORD3 (i : Nat) : Fld := ⟨(0x180110 + i * 0x10) * 8 + 31, 1⟩
/-- GNS_LOOP_PLL.FLL_ORD2 [30], RWI, reset P H S Z. 1 = second-order FLL, 0 = first-order. -/
def GNS_LOOP_PLL_FLL_ORD2 (i : Nat) : Fld := ⟨(0x180110 + i * 0x10) * 8 + 30, 1⟩
/-- GNS_LOOP_PLL.FLL_BW [23:16], RWI, reset P H S Z. 0.1 Hz, 5 to 200; 0 rejected with IMG ZERO_FIELD. -/
def GNS_LOOP_PLL_FLL_BW (i : Nat) : Fld := ⟨(0x180110 + i * 0x10) * 8 + 16, 8⟩
/-- GNS_LOOP_PLL.PLL_BW [15:0], RWI, reset P H S Z. 0.1 Hz, 10 to 500; 0 rejected with IMG ZERO_FIELD. -/
def GNS_LOOP_PLL_PLL_BW (i : Nat) : Fld := ⟨(0x180110 + i * 0x10) * 8 + 0, 16⟩
/-- GNS_LOOP_DLL.T_INT [23:16], RWI, reset P H S Z. ms, from the set of R137; 0 rejected with IMG ZERO_FIELD. -/
def GNS_LOOP_DLL_T_INT (i : Nat) : Fld := ⟨(0x180114 + i * 0x10) * 8 + 16, 8⟩
/-- GNS_LOOP_DLL.DLL_BW [15:0], RWI, reset P H S Z. 0.01 Hz, 2 to 500; 0 rejected with IMG ZERO_FIELD. -/
def GNS_LOOP_DLL_DLL_BW (i : Nat) : Fld := ⟨(0x180114 + i * 0x10) * 8 + 0, 16⟩
/-- GNS_LOOP_COR.BJ_N [23:16], RWI, reset P H S Z. 1 to 255 (R135); 0 rejected with IMG ZERO_FIELD. -/
def GNS_LOOP_COR_BJ_N (i : Nat) : Fld := ⟨(0x180118 + i * 0x10) * 8 + 16, 8⟩
/-- GNS_LOOP_COR.D_VEL [15:8], RWI, reset P H S Z. 1/64 chip, D_EL to 128. -/
def GNS_LOOP_COR_D_VEL (i : Nat) : Fld := ⟨(0x180118 + i * 0x10) * 8 + 8, 8⟩
/-- GNS_LOOP_COR.D_EL [7:0], RWI, reset P H S Z. 1/64 chip, 4 to 64. -/
def GNS_LOOP_COR_D_EL (i : Nat) : Fld := ⟨(0x180118 + i * 0x10) * 8 + 0, 8⟩
/-- GNS_CH_STS.VALID [31], RO, reset P H S W C Z. 1 = the record holds a measurement. -/
def GNS_CH_STS_VALID (i : Nat) : Fld := ⟨(0x181000 + i * 0x40) * 8 + 31, 1⟩
/-- GNS_CH_STS.CODE_LOCK [30], RO, reset P H S W C Z. R138. -/
def GNS_CH_STS_CODE_LOCK (i : Nat) : Fld := ⟨(0x181000 + i * 0x40) * 8 + 30, 1⟩
/-- GNS_CH_STS.CARR_LOCK [29], RO, reset P H S W C Z. R138. -/
def GNS_CH_STS_CARR_LOCK (i : Nat) : Fld := ⟨(0x181000 + i * 0x40) * 8 + 29, 1⟩
/-- GNS_CH_STS.HALF_CYC [28], RO, reset P H S W C Z. R140. -/
def GNS_CH_STS_HALF_CYC (i : Nat) : Fld := ⟨(0x181000 + i * 0x40) * 8 + 28, 1⟩
/-- GNS_CH_STS.LOCK_RESTART [27], RO, reset P H S W C Z. R139. -/
def GNS_CH_STS_LOCK_RESTART (i : Nat) : Fld := ⟨(0x181000 + i * 0x40) * 8 + 27, 1⟩
/-- GNS_CH_STS.SLIP [26], RO, reset P H S W C Z. Slip declared at this epoch (R139). -/
def GNS_CH_STS_SLIP (i : Nat) : Fld := ⟨(0x181000 + i * 0x40) * 8 + 26, 1⟩
/-- GNS_CH_STS.TOW_KNOWN [25], RO, reset P H S W C Z. 1 = TX_SEC valid. -/
def GNS_CH_STS_TOW_KNOWN (i : Nat) : Fld := ⟨(0x181000 + i * 0x40) * 8 + 25, 1⟩
/-- GNS_CH_STS.FENCED [24], RO, reset P H S W C Z. 1 = channel fenced (Fault Detection, Replay and Fencing). -/
def GNS_CH_STS_FENCED (i : Nat) : Fld := ⟨(0x181000 + i * 0x40) * 8 + 24, 1⟩
/-- GNS_CH_STS.ANT [21:20], RO, reset P H S W C Z. Antenna, c / 64. -/
def GNS_CH_STS_ANT (i : Nat) : Fld := ⟨(0x181000 + i * 0x40) * 8 + 20, 2⟩
/-- GNS_CH_STS.SIG [19:16], RO, reset P H S W C Z. Signal code (R131); 0 = channel idle. -/
def GNS_CH_STS_SIG (i : Nat) : Fld := ⟨(0x181000 + i * 0x40) * 8 + 16, 4⟩
/-- GNS_CH_STS.PRN [15:8], RO, reset P H S W C Z. Satellite number. -/
def GNS_CH_STS_PRN (i : Nat) : Fld := ⟨(0x181000 + i * 0x40) * 8 + 8, 8⟩
/-- GNS_CH_TX_SEC.TX_SEC [19:0], RO, reset P H S W C Z. Second of week, 0 to 604,799 (R144). -/
def GNS_CH_TX_SEC_TX_SEC (i : Nat) : Fld := ⟨(0x181004 + i * 0x40) * 8 + 0, 20⟩
/-- GNS_CH_CODE_INT.CODE_INT [31:0], RO, reset P H S W C Z. Whole chips, 0 to 1,022,999. -/
def GNS_CH_CODE_INT_CODE_INT (i : Nat) : Fld := ⟨(0x181008 + i * 0x40) * 8 + 0, 32⟩
/-- GNS_CH_CODE_FRAC.CODE_FRAC [31:0], RO, reset P H S W C Z. 2^−32 chip. -/
def GNS_CH_CODE_FRAC_CODE_FRAC (i : Nat) : Fld := ⟨(0x18100C + i * 0x40) * 8 + 0, 32⟩
/-- GNS_CH_PHASE_LO.PHASE [31:0], RO, reset P H S W C Z. 64-bit two's complement, 2^−16 cycle. -/
def GNS_CH_PHASE_LO_PHASE (i : Nat) : Fld := ⟨(0x181010 + i * 0x40) * 8 + 0, 32⟩
/-- GNS_CH_PHASE_HI.PHASE [31:0], RO, reset P H S W C Z. 64-bit two's complement, 2^−16 cycle. -/
def GNS_CH_PHASE_HI_PHASE (i : Nat) : Fld := ⟨(0x181014 + i * 0x40) * 8 + 0, 32⟩
/-- GNS_CH_DOPPLER.DOPPLER [31:0], RO, reset P H S W C Z. Two's complement, 1 mHz. -/
def GNS_CH_DOPPLER_DOPPLER (i : Nat) : Fld := ⟨(0x181018 + i * 0x40) * 8 + 0, 32⟩
/-- GNS_CH_CN0.SLIP_CNT [31:16], RO, reset P H S W C Z. Slips, wrapping at 2^16. -/
def GNS_CH_CN0_SLIP_CNT (i : Nat) : Fld := ⟨(0x18101C + i * 0x40) * 8 + 16, 16⟩
/-- GNS_CH_CN0.CN0 [15:0], RO, reset P H S W C Z. 0.1 dB-Hz. -/
def GNS_CH_CN0_CN0 (i : Nat) : Fld := ⟨(0x18101C + i * 0x40) * 8 + 0, 16⟩
/-- GNS_CH_LOCK_MS.LOCK_MS [31:0], RO, reset P H S W C Z. ms since the last slip, saturating; 0 = slip at this epoch. -/
def GNS_CH_LOCK_MS_LOCK_MS (i : Nat) : Fld := ⟨(0x181020 + i * 0x40) * 8 + 0, 32⟩
/-- OCE_STATUS.INIT [31], RO, reset P H S Z. 1 = observer initialised (R185). -/
def OCE_STATUS_INIT : Fld := ⟨(0x80000) * 8 + 31, 1⟩
/-- OCE_STATUS.DR [30], RO, reset P H S Z. 1 = dead-reckoning cycle (R186). -/
def OCE_STATUS_DR : Fld := ⟨(0x80000) * 8 + 30, 1⟩
/-- OCE_STATUS.REPEATED [29], RO, reset P H S Z. 1 = demand repeated (R172). -/
def OCE_STATUS_REPEATED : Fld := ⟨(0x80000) * 8 + 29, 1⟩
/-- OCE_STATUS.INT_CLAMP [28], RO, reset P H S Z. R187. -/
def OCE_STATUS_INT_CLAMP : Fld := ⟨(0x80000) * 8 + 28, 1⟩
/-- OCE_STATUS.TAU_CLAMP [27], RO, reset P H S Z. R188. -/
def OCE_STATUS_TAU_CLAMP : Fld := ⟨(0x80000) * 8 + 27, 1⟩
/-- OCE_STATUS.SAT [26], RO, reset P H S Z. 1 = EXP_SAT in the cycle (R169). -/
def OCE_STATUS_SAT : Fld := ⟨(0x80000) * 8 + 26, 1⟩
/-- OCE_STATUS.INPUT_NONFINITE [25], RO, reset P H S Z. R168, R188. -/
def OCE_STATUS_INPUT_NONFINITE : Fld := ⟨(0x80000) * 8 + 25, 1⟩
/-- OCE_STATUS.GAP [24], RO, reset P H S Z. 1 = prediction over more than one interval (R180). -/
def OCE_STATUS_GAP : Fld := ⟨(0x80000) * 8 + 24, 1⟩
/-- OCE_STATUS.BANK [23], RO, reset P H S Z. Bank used by the cycle: 0 = A, 1 = B. -/
def OCE_STATUS_BANK : Fld := ⟨(0x80000) * 8 + 23, 1⟩
/-- OCE_STATUS.ROWS_USED [12:8], RO, reset P H S Z. Measurement rows that updated the state, 0 to 24, each row counted once. A position reference whose north and east rows both update therefore counts 2. 0 = none -/
def OCE_STATUS_ROWS_USED : Fld := ⟨(0x80000) * 8 + 8, 5⟩
/-- OCE_STATUS.K_C [1:0], RO, reset P H S Z. ⌈C/P⌉ (R179). -/
def OCE_STATUS_K_C : Fld := ⟨(0x80000) * 8 + 0, 2⟩
/-- OCE_CTRL.REINIT [0], WO, reset P H S W C Z. 1 = reinitialise the observer from the next T0 (R184). -/
def OCE_CTRL_REINIT : Fld := ⟨(0x80004) * 8 + 0, 1⟩
/-- OCE_COND.LAST_CODE [15:0], RO, reset P H S W C Z. Last OCE condition code reported; 0x0000 = none. -/
def OCE_COND_LAST_CODE : Fld := ⟨(0x80008) * 8 + 0, 16⟩
/-- OCE_CFG.STEPS [31:26], RWI, reset P H S Z. 1 to 32. 0 is rejected with IMG ZERO_FIELD. -/
def OCE_CFG_STEPS : Fld := ⟨(0x8000C) * 8 + 26, 6⟩
/-- OCE_CFG.STATES [25:20], RWI, reset P H S Z. 1 to 32. 0 is rejected with IMG ZERO_FIELD. -/
def OCE_CFG_STATES : Fld := ⟨(0x8000C) * 8 + 20, 6⟩
/-- OCE_CFG.MEAS [19:15], RWI, reset P H S Z. 1 to 24. 0 is rejected with IMG ZERO_FIELD. -/
def OCE_CFG_MEAS : Fld := ⟨(0x8000C) * 8 + 15, 5⟩
/-- OCE_CFG.FORCES [14:12], RWI, reset P H S Z. 1 to 6. 0 is rejected with IMG ZERO_FIELD. -/
def OCE_CFG_FORCES : Fld := ⟨(0x8000C) * 8 + 12, 3⟩
/-- OCE_CFG.GAP_MAX [11:8], RWI, reset P H S Z. 1 to 8. 0 is rejected with IMG ZERO_FIELD. -/
def OCE_CFG_GAP_MAX : Fld := ⟨(0x8000C) * 8 + 8, 4⟩
/-- OCE_CFG.JOY_FF [0], RWI, reset P H S Z. 1 = τ_ff added in JOYSTICK (R189). -/
def OCE_CFG_JOY_FF : Fld := ⟨(0x8000C) * 8 + 0, 1⟩
/-- OCE_LIMITS.DR_LIMIT [31:16], RWI, reset P H S Z. Cycles, 1 to 65,535; 0 = no limit report (R186). -/
def OCE_LIMITS_DR_LIMIT : Fld := ⟨(0x80010) * 8 + 16, 16⟩
/-- OCE_LIMITS.DELAY_MAX [15:0], RWI, reset P H S Z. ms, 1 to 10,000. 0 is rejected with IMG ZERO_FIELD (R176). -/
def OCE_LIMITS_DELAY_MAX : Fld := ⟨(0x80010) * 8 + 0, 16⟩
/-- OCE_BANK_CTRL.HOST_WR [8], RO, reset P H S Z. 1 = SECURITY_POLICY permits host bank writes (R193). -/
def OCE_BANK_CTRL_HOST_WR : Fld := ⟨(0x80014) * 8 + 8, 1⟩
/-- OCE_BANK_CTRL.SEAL [1], WO, reset P H S W C Z. 1 = check and seal the standby bank (R193). -/
def OCE_BANK_CTRL_SEAL : Fld := ⟨(0x80014) * 8 + 1, 1⟩
/-- OCE_BANK_CTRL.SWAP [0], WO, reset P H S W C Z. 1 = make the other bank active at the next T0 (R192). -/
def OCE_BANK_CTRL_SWAP : Fld := ⟨(0x80014) * 8 + 0, 1⟩
/-- OCE_BANK_STS.GEN_B [31:24], RO, reset P H S Z. Bank B generation; 0 after load. -/
def OCE_BANK_STS_GEN_B : Fld := ⟨(0x80018) * 8 + 24, 8⟩
/-- OCE_BANK_STS.GEN_A [23:16], RO, reset P H S Z. Bank A generation; 0 after load. -/
def OCE_BANK_STS_GEN_A : Fld := ⟨(0x80018) * 8 + 16, 8⟩
/-- OCE_BANK_STS.FMT_OFS [15:8], RO, reset P H S W C Z. Word offset / 64 of the first failing word of the last refused seal. -/
def OCE_BANK_STS_FMT_OFS : Fld := ⟨(0x80018) * 8 + 8, 8⟩
/-- OCE_BANK_STS.B_EMPTY [6], RO, reset P H S Z. 1 = bank B length 0. -/
def OCE_BANK_STS_B_EMPTY : Fld := ⟨(0x80018) * 8 + 6, 1⟩
/-- OCE_BANK_STS.SWAP_PEND [5], RO, reset P H S W C Z. 1 = a swap awaits the next T0. -/
def OCE_BANK_STS_SWAP_PEND : Fld := ⟨(0x80018) * 8 + 5, 1⟩
/-- OCE_BANK_STS.B_SEALED [4], RO, reset P H S Z. R193. -/
def OCE_BANK_STS_B_SEALED : Fld := ⟨(0x80018) * 8 + 4, 1⟩
/-- OCE_BANK_STS.A_SEALED [3], RO, reset P H S Z. R193. -/
def OCE_BANK_STS_A_SEALED : Fld := ⟨(0x80018) * 8 + 3, 1⟩
/-- OCE_BANK_STS.B_INUSE [2], RO, reset P H S W C Z. R193. -/
def OCE_BANK_STS_B_INUSE : Fld := ⟨(0x80018) * 8 + 2, 1⟩
/-- OCE_BANK_STS.A_INUSE [1], RO, reset P H S W C Z. R193. -/
def OCE_BANK_STS_A_INUSE : Fld := ⟨(0x80018) * 8 + 1, 1⟩
/-- OCE_BANK_STS.ACTIVE [0], RO, reset P H S Z. 0 = A, 1 = B. On W and C, restored from the checkpoint. -/
def OCE_BANK_STS_ACTIVE : Fld := ⟨(0x80018) * 8 + 0, 1⟩
/-- OCE_COUNT.DR_CNT [31:16], RO, reset P H S Z. Consecutive dead-reckoning cycles, saturating at 0xFFFF; 0 = none. Restored on W and C. -/
def OCE_COUNT_DR_CNT : Fld := ⟨(0x8001C) * 8 + 16, 16⟩
/-- OCE_COUNT.SKIP_CNT [15:0], RO, reset P H S Z. Rows skipped under R182 since cold start, saturating at 0xFFFF; cleared at OCE restart; 0 = none. -/
def OCE_COUNT_SKIP_CNT : Fld := ⟨(0x8001C) * 8 + 0, 16⟩
/-- OCE_MROW.USED [31], RO, reset P H S Z. 1 = the row updated the state in the last committed cycle. -/
def OCE_MROW_USED (i : Nat) : Fld := ⟨(0x80080 + i * 0x4) * 8 + 31, 1⟩
/-- OCE_MROW.MASK [26:24], RO, reset P H S Z. 0 = used, 1 = not accepted, 2 = source invalid, 3 = NEW = 0, 4 = LATE, 5 = SKIP, 6 = uninitialised, 7 = row undefined (R176). -/
def OCE_MROW_MASK (i : Nat) : Fld := ⟨(0x80080 + i * 0x4) * 8 + 24, 3⟩
/-- OCE_MROW.DELAY_US [23:0], RO, reset P H S Z. Δ_r in µs, two's complement (R181). -/
def OCE_MROW_DELAY_US (i : Nat) : Fld := ⟨(0x80080 + i * 0x4) * 8 + 0, 24⟩
/-- SLV_SEL_STATUS.STANDING [31:24], RO, reset P H S Z. Standing scenario of the last committed cycle (R213). -/
def SLV_SEL_STATUS_STANDING : Fld := ⟨(0x140000) * 8 + 24, 8⟩
/-- SLV_SEL_STATUS.SCEN [23:16], RO, reset P H S Z. Matched scenario k (R219); 0 when NO_MATCH = 1. -/
def SLV_SEL_STATUS_SCEN : Fld := ⟨(0x140000) * 8 + 16, 8⟩
/-- SLV_SEL_STATUS.NO_MATCH [12], RO, reset P H S Z. 1 = no scenario contained E(L). -/
def SLV_SEL_STATUS_NO_MATCH : Fld := ⟨(0x140000) * 8 + 12, 1⟩
/-- SLV_SEL_STATUS.REG_USED [11], RO, reset P H S Z. 1 = the committed result was SOLVED_REG. -/
def SLV_SEL_STATUS_REG_USED : Fld := ⟨(0x140000) * 8 + 11, 1⟩
/-- SLV_SEL_STATUS.SRC [10:8], RO, reset P H S Z. 0 = no allocation (R222), 1 to 6 as R220; 7 is not used. -/
def SLV_SEL_STATUS_SRC : Fld := ⟨(0x140000) * 8 + 8, 3⟩
/-- SLV_SEL_STATUS.LANE [5:0], RO, reset P H S Z. Lane of the committed result; 0 when SRC is 0, 5 or 6. -/
def SLV_SEL_STATUS_LANE : Fld := ⟨(0x140000) * 8 + 0, 6⟩
/-- SLV_SEL_CFG.NSCEN [31:23], RWI, reset P H S Z. Scenarios, 1 to 256; 0 is rejected with IMG ZERO_FIELD. -/
def SLV_SEL_CFG_NSCEN : Fld := ⟨(0x140004) * 8 + 23, 9⟩
/-- SLV_SEL_CFG.RATE_H [22:15], RWI, reset P H S Z. 1 to 255; 0 is rejected with IMG ZERO_FIELD. -/
def SLV_SEL_CFG_RATE_H : Fld := ⟨(0x140004) * 8 + 15, 8⟩
/-- SLV_SEL_CFG.NSECT [11:8], RWI, reset P H S Z. Sections, 0 to 8; 0 = no power model. -/
def SLV_SEL_CFG_NSECT : Fld := ⟨(0x140004) * 8 + 8, 4⟩
/-- SLV_SEL_CFG.NGEN [4:0], RWI, reset P H S Z. Generators, 0 to 16; 0 = none. -/
def SLV_SEL_CFG_NGEN : Fld := ⟨(0x140004) * 8 + 0, 5⟩
/-- SLV_SEL_TIMING.RETURN_N [31:16], RWI, reset P H S Z. 1 to 65,535 (R216); 0 is rejected with IMG ZERO_FIELD. -/
def SLV_SEL_TIMING_RETURN_N : Fld := ⟨(0x140008) * 8 + 16, 16⟩
/-- SLV_SEL_TIMING.K_S [15:14], RO, reset P H S Z. R197; 1 or 2. -/
def SLV_SEL_TIMING_K_S : Fld := ⟨(0x140008) * 8 + 14, 2⟩
/-- SLV_SEL_TIMING.SEL_LEAD [9:0], RWI, reset P H S Z. µs, 10 to 1,000 (R214); 0 is rejected with IMG ZERO_FIELD. -/
def SLV_SEL_TIMING_SEL_LEAD : Fld := ⟨(0x140008) * 8 + 0, 10⟩
/-- SLV_SEL_COND.LAST_CODE [15:0], RO, reset P H S W C Z. Last selector condition code reported; 0x0000 = none. -/
def SLV_SEL_COND_LAST_CODE : Fld := ⟨(0x14000C) * 8 + 0, 16⟩
/-- SLV_SEL_LOST_LO.THR [31:0], RO, reset P H S Z. Bit t = thruster t in L of the last committed cycle; read under R12. -/
def SLV_SEL_LOST_LO_THR : Fld := ⟨(0x140010) * 8 + 0, 32⟩
/-- SLV_SEL_LOST_HI.THR [31:0], RO, reset P H S Z. Bit t = thruster t in L of the last committed cycle; read under R12. -/
def SLV_SEL_LOST_HI_THR : Fld := ⟨(0x140014) * 8 + 0, 32⟩
/-- SLV_SEL_LOST_PWR.GEN [23:8], RO, reset P H S Z. Bit g = generator g in L. -/
def SLV_SEL_LOST_PWR_GEN : Fld := ⟨(0x140018) * 8 + 8, 16⟩
/-- SLV_SEL_LOST_PWR.SECT [7:0], RO, reset P H S Z. Bit i = section i in L. -/
def SLV_SEL_LOST_PWR_SECT : Fld := ⟨(0x140018) * 8 + 0, 8⟩
/-- SLV_CA_SUMMARY.SUMMARY [31:30], RO, reset P H S Z. 0 = NONE, 1 = HOLDS, 2 = SHORT, 3 = UNKNOWN (R224). -/
def SLV_CA_SUMMARY_SUMMARY : Fld := ⟨(0x14001C) * 8 + 30, 2⟩
/-- SLV_CA_SUMMARY.WORST [23:16], RO, reset P H S Z. Worst scenario; valid when SUMMARY = 2. -/
def SLV_CA_SUMMARY_WORST : Fld := ⟨(0x14001C) * 8 + 16, 8⟩
/-- SLV_CA_SUMMARY.N_SHORT [15:8], RO, reset P H S Z. SHORT verdicts, saturating at 255; 0 = none. -/
def SLV_CA_SUMMARY_N_SHORT : Fld := ⟨(0x14001C) * 8 + 8, 8⟩
/-- SLV_CA_SUMMARY.N_UNKNOWN [7:0], RO, reset P H S Z. UNKNOWN verdicts, saturating at 255; 0 = none. -/
def SLV_CA_SUMMARY_N_UNKNOWN : Fld := ⟨(0x14001C) * 8 + 0, 8⟩
/-- SLV_CA_VERDICT.VERDICT [31:30], RO, reset P H S Z. 0 = UNKNOWN, 1 = HOLDS, 2 = SHORT, 3 = NOT_EVALUATED (R223). -/
def SLV_CA_VERDICT_VERDICT (i : Nat) : Fld := ⟨(0x141000 + i * 0x8) * 8 + 30, 2⟩
/-- SLV_CA_VERDICT.FORCE_SHORT [29], RO, reset P H S Z. R223. -/
def SLV_CA_VERDICT_FORCE_SHORT (i : Nat) : Fld := ⟨(0x141000 + i * 0x8) * 8 + 29, 1⟩
/-- SLV_CA_VERDICT.POWER_SHORT [28], RO, reset P H S Z. R223. -/
def SLV_CA_VERDICT_POWER_SHORT (i : Nat) : Fld := ⟨(0x141000 + i * 0x8) * 8 + 28, 1⟩
/-- SLV_CA_VERDICT.REG [27], RO, reset P H S Z. 1 = class SOLVED_REG. -/
def SLV_CA_VERDICT_REG (i : Nat) : Fld := ⟨(0x141000 + i * 0x8) * 8 + 27, 1⟩
/-- SLV_CA_VERDICT.CLASS [26:24], RO, reset P H S Z. 0 = SOLVED, 1 = SOLVED_REG, 2 = INFEASIBLE, 3 = NO_RESULT, 4 = NOT_RUN (R218); 5 to 7 are not used. -/
def SLV_CA_VERDICT_CLASS (i : Nat) : Fld := ⟨(0x141000 + i * 0x8) * 8 + 24, 3⟩
/-- SLV_CA_VERDICT.SHORT_PM [15:0], RO, reset P H S Z. ‰ of demand, saturating at 65,535; 0 when the verdict is not HOLDS or SHORT. -/
def SLV_CA_VERDICT_SHORT_PM (i : Nat) : Fld := ⟨(0x141000 + i * 0x8) * 8 + 0, 16⟩
/-- SLV_LANE_STATUS.FENCED [31], RO, reset P H S Z. 1 = lane fenced (R250); kept over W and C. -/
def SLV_LANE_STATUS_FENCED (i : Nat) : Fld := ⟨(0x100000 + i * 0x1000) * 8 + 31, 1⟩
/-- SLV_LANE_STATUS.BUSY [30], RO, reset P H S W C Z. 1 = a job is running at the time of the read. -/
def SLV_LANE_STATUS_BUSY (i : Nat) : Fld := ⟨(0x100000 + i * 0x1000) * 8 + 30, 1⟩
/-- SLV_LANE_STATUS.ROLE [29:28], RWI, reset P H S Z. 0 = unused, 1 = primary, 2 = allocation scenarios, 3 = GNSS. -/
def SLV_LANE_STATUS_ROLE (i : Nat) : Fld := ⟨(0x100000 + i * 0x1000) * 8 + 28, 2⟩
/-- SLV_LANE_STATUS.USED [14:0], RO, reset P H S Z. Worst-case words in use under R234; 0 = no job. -/
def SLV_LANE_STATUS_USED (i : Nat) : Fld := ⟨(0x100000 + i * 0x1000) * 8 + 0, 15⟩
/-- SLV_LANE_CFG.NJOBS [6:0], RWI, reset P H S Z. Jobs per cycle, 0 to 64; 0 = the lane carries no job. -/
def SLV_LANE_CFG_NJOBS (i : Nat) : Fld := ⟨(0x100004 + i * 0x1000) * 8 + 0, 7⟩
/-- SLV_LANE_COND.LAST_CODE [15:0], RO, reset P H S W C Z. Last lane condition code reported; 0x0000 = none. -/
def SLV_LANE_COND_LAST_CODE (i : Nat) : Fld := ⟨(0x100008 + i * 0x1000) * 8 + 0, 16⟩
/-- SLV_LANE_CNT.DL_CNT [31:16], RO, reset P H S Z. Jobs ended DEADLINE since cold RUN entry, saturating at 0xFFFF; 0 = none. -/
def SLV_LANE_CNT_DL_CNT (i : Nat) : Fld := ⟨(0x10000C + i * 0x1000) * 8 + 16, 16⟩
/-- SLV_LANE_CNT.REG_JOBS [15:0], RO, reset P H S Z. Jobs ended with REG set since cold RUN entry, saturating at 0xFFFF; 0 = none. -/
def SLV_LANE_CNT_REG_JOBS (i : Nat) : Fld := ⟨(0x10000C + i * 0x1000) * 8 + 0, 16⟩
/-- SLV_LANE_MEM_ADDR.ADDR [14:0], RW, reset P H S W C Z. Word address, 0 to 24,575. A value above 24,575 makes MEM_DATA read 0. -/
def SLV_LANE_MEM_ADDR_ADDR (i : Nat) : Fld := ⟨(0x100010 + i * 0x1000) * 8 + 0, 15⟩
/-- SLV_LANE_MEM_DATA.DATA [31:0], RO, reset —. The word at ADDR; each read then increments ADDR by 1. Reads use spare lane-memory cycles and never delay a job. They show memory as it stands at the read, not  -/
def SLV_LANE_MEM_DATA_DATA (i : Nat) : Fld := ⟨(0x100014 + i * 0x1000) * 8 + 0, 32⟩
/-- SLV_JOB_STS.STATUS [31:28], RO, reset P H S W C Z. R248; 0 = no job; 10 to 15 are not used. -/
def SLV_JOB_STS_STATUS (i : Nat) (j : Nat) : Fld := ⟨(0x100100 + i * 0x1000 + j * 0x10) * 8 + 28, 4⟩
/-- SLV_JOB_STS.TYPE [27:26], RO, reset P H S W C Z. 1 = QP, 2 = WLS, 3 = CLS; 0 = no job. -/
def SLV_JOB_STS_TYPE (i : Nat) (j : Nat) : Fld := ⟨(0x100100 + i * 0x1000 + j * 0x10) * 8 + 26, 2⟩
/-- SLV_JOB_STS.REG [25], RO, reset P H S W C Z. R241. -/
def SLV_JOB_STS_REG (i : Nat) (j : Nat) : Fld := ⟨(0x100100 + i * 0x1000 + j * 0x10) * 8 + 25, 1⟩
/-- SLV_JOB_STS.WARM [24], RO, reset P H S W C Z. 1 = the job warm-started (R236). -/
def SLV_JOB_STS_WARM (i : Nat) (j : Nat) : Fld := ⟨(0x100100 + i * 0x1000 + j * 0x10) * 8 + 24, 1⟩
/-- SLV_JOB_STS.OVF [23], RO, reset P H S W C Z. R242. -/
def SLV_JOB_STS_OVF (i : Nat) (j : Nat) : Fld := ⟨(0x100100 + i * 0x1000 + j * 0x10) * 8 + 23, 1⟩
/-- SLV_JOB_STS.INPUT [22], RO, reset P H S W C Z. R235. -/
def SLV_JOB_STS_INPUT (i : Nat) (j : Nat) : Fld := ⟨(0x100100 + i * 0x1000 + j * 0x10) * 8 + 22, 1⟩
/-- SLV_JOB_STS.CERT [21], RO, reset P H S W C Z. 1 = certificate written (R239). -/
def SLV_JOB_STS_CERT (i : Nat) (j : Nat) : Fld := ⟨(0x100100 + i * 0x1000 + j * 0x10) * 8 + 21, 1⟩
/-- SLV_JOB_STS.DL_POINT [20:19], RO, reset P H S W C Z. R246; valid when STATUS = 6. -/
def SLV_JOB_STS_DL_POINT (i : Nat) (j : Nat) : Fld := ⟨(0x100100 + i * 0x1000 + j * 0x10) * 8 + 19, 2⟩
/-- SLV_JOB_STS.ILL_COL [15:8], RO, reset P H S W C Z. Failing column, 0 to N + P − 1; valid when STATUS = 3. -/
def SLV_JOB_STS_ILL_COL (i : Nat) (j : Nat) : Fld := ⟨(0x100100 + i * 0x1000 + j * 0x10) * 8 + 8, 8⟩
/-- SLV_JOB_STS.JOB_ID [7:0], RO, reset P H S W C Z. Low octet of JOB_ID. -/
def SLV_JOB_STS_JOB_ID (i : Nat) (j : Nat) : Fld := ⟨(0x100100 + i * 0x1000 + j * 0x10) * 8 + 0, 8⟩
/-- SLV_JOB_ITER.CERT_ROW [31:23], RO, reset P H S W C Z. R239; valid when CERT = 1. -/
def SLV_JOB_ITER_CERT_ROW (i : Nat) (j : Nat) : Fld := ⟨(0x100104 + i * 0x1000 + j * 0x10) * 8 + 23, 9⟩
/-- SLV_JOB_ITER.REG_CNT [15:8], RO, reset P H S W C Z. Substituted pivots in the job, saturating at 255; 0 = none. -/
def SLV_JOB_ITER_REG_CNT (i : Nat) (j : Nat) : Fld := ⟨(0x100104 + i * 0x1000 + j * 0x10) * 8 + 8, 8⟩
/-- SLV_JOB_ITER.ITER [5:0], RO, reset P H S W C Z. Completed iterations, 0 to 63; 0 = none completed. -/
def SLV_JOB_ITER_ITER (i : Nat) (j : Nat) : Fld := ⟨(0x100104 + i * 0x1000 + j * 0x10) * 8 + 0, 6⟩
/-- SLV_JOB_END.END_NS [31:0], RO, reset P H S W C Z. End of the job in ns after T0 of its cycle; 0 = not ended. -/
def SLV_JOB_END_END_NS (i : Nat) (j : Nat) : Fld := ⟨(0x100108 + i * 0x1000 + j * 0x10) * 8 + 0, 32⟩
/-- SLV_JOB_MU.MU [31:0], RO, reset P H S W C Z. binary32: μ of the last complete iterate (QP), Ω (WLS), smallest Ω_c (CLS kind 1), or eigenvalue (CLS kind 2); 0.0 when no iteration completed. -/
def SLV_JOB_MU_MU (i : Nat) (j : Nat) : Fld := ⟨(0x10010C + i * 0x1000 + j * 0x10) * 8 + 0, 32⟩
/-- FLD_STATUS.CMPS [31:24], RWI, reset P H S Z. Compare units defined, 0 to 64; 0 = none. -/
def FLD_STATUS_CMPS : Fld := ⟨(0x230000) * 8 + 24, 8⟩
/-- FLD_STATUS.AXES [23:16], RWI, reset P H S Z. Axes defined, 0 to 64; 0 = none. -/
def FLD_STATUS_AXES : Fld := ⟨(0x230000) * 8 + 16, 8⟩
/-- FLD_STATUS.CHANNELS [15:8], RWI, reset P H S Z. Position channels, 0 to 32; 0 = none. -/
def FLD_STATUS_CHANNELS : Fld := ⟨(0x230000) * 8 + 8, 8⟩
/-- FLD_STATUS.PINS [7:0], RWI, reset P H S Z. Pins assigned, 0 to 64; 0 = none. -/
def FLD_STATUS_PINS : Fld := ⟨(0x230000) * 8 + 0, 8⟩
/-- FLD_COND.LAST_CODE [15:0], RO, reset P H S W C Z. Last FLD condition code; 0x0000 = none. -/
def FLD_COND_LAST_CODE : Fld := ⟨(0x230004) * 8 + 0, 16⟩
/-- FLD_EVT.EVT [31:0], W1C, reset P H S W C Z. 1 = the unit fired with route IRQ; set at commit (R274). -/
def FLD_EVT_EVT (i : Nat) : Fld := ⟨(0x230008 + i * 0x4) * 8 + 0, 32⟩
/-- FLD_EVT_EN.EN [31:0], RW, reset P H S W C Z. 1 = EVT contributes to the FLD interrupt source. -/
def FLD_EVT_EN_EN (i : Nat) : Fld := ⟨(0x230010 + i * 0x4) * 8 + 0, 32⟩
/-- FLD_DOUT.LEVEL [31:0], RW, reset P H S W C Z. Pending host level for DOUT pins (R259); other bits are ignored. -/
def FLD_DOUT_LEVEL (i : Nat) : Fld := ⟨(0x230020 + i * 0x4) * 8 + 0, 32⟩
/-- FLD_LVL.LEVEL [31:0], RO, reset —. Accepted pin level at the time of the read; not a cycle result. -/
def FLD_LVL_LEVEL (i : Nat) : Fld := ⟨(0x230028 + i * 0x4) * 8 + 0, 32⟩
/-- FLD_AX_CFG.TYPE [31:28], RWI, reset P H S Z. R253; 0 = axis undefined. -/
def FLD_AX_CFG_TYPE (i : Nat) : Fld := ⟨(0x230100 + i * 0x10) * 8 + 28, 4⟩
/-- FLD_AX_CFG.UNIT [27], RWI, reset P H S Z. 0 = rpm, 1 = % pitch. -/
def FLD_AX_CFG_UNIT (i : Nat) : Fld := ⟨(0x230100 + i * 0x10) * 8 + 27, 1⟩
/-- FLD_AX_CFG.SINK [26:24], RWI, reset P H S Z. R256; 0 is rejected with IMG ZERO_FIELD for a defined axis. -/
def FLD_AX_CFG_SINK (i : Nat) : Fld := ⟨(0x230100 + i * 0x10) * 8 + 24, 3⟩
/-- FLD_AX_CFG.SINK_REF [23:16], RWI, reset P H S Z. Drive frame definition, CAN buffer or pin. -/
def FLD_AX_CFG_SINK_REF (i : Nat) : Fld := ⟨(0x230100 + i * 0x10) * 8 + 16, 8⟩
/-- FLD_AX_CFG.THRUSTER [13:8], RWI, reset P H S Z. Thruster index. -/
def FLD_AX_CFG_THRUSTER (i : Nat) : Fld := ⟨(0x230100 + i * 0x10) * 8 + 8, 6⟩
/-- FLD_AX_CFG.FB_SRC [7:6], RWI, reset P H S Z. 0 = none, 1 = drive frame, 2 = position channel; 3 is rejected with IMG RANGE. -/
def FLD_AX_CFG_FB_SRC (i : Nat) : Fld := ⟨(0x230100 + i * 0x10) * 8 + 6, 2⟩
/-- FLD_AX_CFG.CHAN [4:0], RWI, reset P H S Z. Position channel when FB_SRC = 2. -/
def FLD_AX_CFG_CHAN (i : Nat) : Fld := ⟨(0x230100 + i * 0x10) * 8 + 0, 5⟩
/-- FLD_AX_CMD.VALUE [31:0], RO, reset P H S Z. Committed command, in the axis unit. -/
def FLD_AX_CMD_VALUE (i : Nat) : Fld := ⟨(0x230104 + i * 0x10) * 8 + 0, 32⟩
/-- FLD_AX_FB.VALUE [31:0], RO, reset P H S Z. Held feedback of the last committed cycle. -/
def FLD_AX_FB_VALUE (i : Nat) : Fld := ⟨(0x230108 + i * 0x10) * 8 + 0, 32⟩
/-- FLD_AX_STS.STANDBY [31], RO, reset P H S Z. 1 = STBY commanded (R255). -/
def FLD_AX_STS_STANDBY (i : Nat) : Fld := ⟨(0x23010C + i * 0x10) * 8 + 31, 1⟩
/-- FLD_AX_STS.FB_VALID [30], RO, reset P H S Z. 1 = the held feedback is valid. -/
def FLD_AX_STS_FB_VALID (i : Nat) : Fld := ⟨(0x23010C + i * 0x10) * 8 + 30, 1⟩
/-- FLD_AX_STS.DP_AVAILABLE [29], RO, reset P H S Z. From the last accepted feedback frame. -/
def FLD_AX_STS_DP_AVAILABLE (i : Nat) : Fld := ⟨(0x23010C + i * 0x10) * 8 + 29, 1⟩
/-- FLD_AX_STS.DRIVE_FAULT [28], RO, reset P H S Z. STATUS bit 1 of that frame. -/
def FLD_AX_STS_DRIVE_FAULT (i : Nat) : Fld := ⟨(0x23010C + i * 0x10) * 8 + 28, 1⟩
/-- FLD_AX_STS.FB_REJ [23:16], RO, reset P H S Z. Rejected feedback frames, saturating at 255; cleared at FIELD restart; 0 = none. -/
def FLD_AX_STS_FB_REJ (i : Nat) : Fld := ⟨(0x23010C + i * 0x10) * 8 + 16, 8⟩
/-- FLD_AX_STS.FB_DUP [15:8], RO, reset P H S Z. Duplicate feedback frames, as FB_REJ. -/
def FLD_AX_STS_FB_DUP (i : Nat) : Fld := ⟨(0x23010C + i * 0x10) * 8 + 8, 8⟩
/-- FLD_PIN_CFG.FUNC [31:28], RWI, reset P H S Z. R258. -/
def FLD_PIN_CFG_FUNC (i : Nat) : Fld := ⟨(0x230800 + i * 0x8) * 8 + 28, 4⟩
/-- FLD_PIN_CFG.INV [27], RWI, reset P H S Z. 1 = pin inverted. -/
def FLD_PIN_CFG_INV (i : Nat) : Fld := ⟨(0x230800 + i * 0x8) * 8 + 27, 1⟩
/-- FLD_PIN_CFG.SAFE_LEVEL [26], RWI, reset P H S Z. Output level at fail-silent (R257) and the safe hold policy. -/
def FLD_PIN_CFG_SAFE_LEVEL (i : Nat) : Fld := ⟨(0x230800 + i * 0x8) * 8 + 26, 1⟩
/-- FLD_PIN_CFG.HOLD_LAST [25], RWI, reset P H S Z. 1 = hold the last committed value while FIELD is stopped; 0 = SAFE_LEVEL. -/
def FLD_PIN_CFG_HOLD_LAST (i : Nat) : Fld := ⟨(0x230800 + i * 0x8) * 8 + 25, 1⟩
/-- FLD_PIN_CFG.FILT [23:16], RWL, reset P H S Z. 0 to 255; 0 = no filter (R258). -/
def FLD_PIN_CFG_FILT (i : Nat) : Fld := ⟨(0x230800 + i * 0x8) * 8 + 16, 8⟩
/-- FLD_PIN_TIM.PERIOD [23:0], RWL, reset P H S Z. PWM period in FLD clocks, 1,600 to 16,000,000; 0 is refused at restart (R260). -/
def FLD_PIN_TIM_PERIOD (i : Nat) : Fld := ⟨(0x230804 + i * 0x8) * 8 + 0, 24⟩
/-- FLD_POS_CFG.MODE [31], RWI, reset P H S Z. 0 = absolute, 1 = quadrature. -/
def FLD_POS_CFG_MODE (i : Nat) : Fld := ⟨(0x231000 + i * 0x40) * 8 + 31, 1⟩
/-- FLD_POS_CFG.RELAY [30], RWI, reset P H S Z. R266. -/
def FLD_POS_CFG_RELAY (i : Nat) : Fld := ⟨(0x231000 + i * 0x40) * 8 + 30, 1⟩
/-- FLD_POS_CFG.GRAY [29], RWL, reset P H S Z. R262. -/
def FLD_POS_CFG_GRAY (i : Nat) : Fld := ⟨(0x231000 + i * 0x40) * 8 + 29, 1⟩
/-- FLD_POS_CFG.INV [28], RWL, reset P H S Z. R262. -/
def FLD_POS_CFG_INV (i : Nat) : Fld := ⟨(0x231000 + i * 0x40) * 8 + 28, 1⟩
/-- FLD_POS_CFG.PARITY [27:26], RWL, reset P H S Z. 0 = none, 1 = even, 2 = odd; 3 is refused. -/
def FLD_POS_CFG_PARITY (i : Nat) : Fld := ⟨(0x231000 + i * 0x40) * 8 + 26, 2⟩
/-- FLD_POS_CFG.ZCLR [25], RWL, reset P H S Z. R268. -/
def FLD_POS_CFG_ZCLR (i : Nat) : Fld := ⟨(0x231000 + i * 0x40) * 8 + 25, 1⟩
/-- FLD_POS_CFG.WORD_LEN [21:16], RWL, reset P H S Z. 8 to 32; 0 is refused. -/
def FLD_POS_CFG_WORD_LEN (i : Nat) : Fld := ⟨(0x231000 + i * 0x40) * 8 + 16, 6⟩
/-- FLD_POS_CFG.POS_BITS [13:8], RWL, reset P H S Z. 8 to 32; 0 is refused. -/
def FLD_POS_CFG_POS_BITS (i : Nat) : Fld := ⟨(0x231000 + i * 0x40) * 8 + 8, 6⟩
/-- FLD_POS_CFG.POS_SHIFT [4:0], RWL, reset P H S Z. 0 to 24. -/
def FLD_POS_CFG_POS_SHIFT (i : Nat) : Fld := ⟨(0x231000 + i * 0x40) * 8 + 0, 5⟩
/-- FLD_POS_PINS.PINS [31:0], RWI, reset P H S Z. Four octets, from high to low: ENC_CLK or QUAD_A, ENC_DATA or QUAD_B, RLY_CLK or QUAD_Z, RLY_DATA. Octet bit 7 = used, bits 5:0 = pin. -/
def FLD_POS_PINS_PINS (i : Nat) : Fld := ⟨(0x231004 + i * 0x40) * 8 + 0, 32⟩
/-- FLD_POS_TIM.MONO [31:24], RWL, reset P H S Z. µs, 1 to 100; 0 is refused. -/
def FLD_POS_TIM_MONO (i : Nat) : Fld := ⟨(0x231008 + i * 0x40) * 8 + 24, 8⟩
/-- FLD_POS_TIM.DIV [23:16], RWL, reset P H S Z. 1 to 64; 0 is refused. -/
def FLD_POS_TIM_DIV (i : Nat) : Fld := ⟨(0x231008 + i * 0x40) * 8 + 16, 8⟩
/-- FLD_POS_TIM.CLKDIV [15:0], RWL, reset P H S Z. Even, 16 to 1,600. -/
def FLD_POS_TIM_CLKDIV (i : Nat) : Fld := ⟨(0x231008 + i * 0x40) * 8 + 0, 16⟩
/-- FLD_POS_DLY.ERR_BIT [31:24], RWL, reset P H S Z. 0 to 31; 0xFF = none. -/
def FLD_POS_DLY_ERR_BIT (i : Nat) : Fld := ⟨(0x23100C + i * 0x40) * 8 + 24, 8⟩
/-- FLD_POS_DLY.ERR_LEVEL [23], RWL, reset P H S Z. R263. -/
def FLD_POS_DLY_ERR_LEVEL (i : Nat) : Fld := ⟨(0x23100C + i * 0x40) * 8 + 23, 1⟩
/-- FLD_POS_DLY.DLY [8:0], RWL, reset P H S Z. FLD clocks, 0 to 320. -/
def FLD_POS_DLY_DLY (i : Nat) : Fld := ⟨(0x23100C + i * 0x40) * 8 + 0, 9⟩
/-- FLD_POS_OFS.OFS [31:0], RWL, reset P H S Z. Binary angle (R262). -/
def FLD_POS_OFS_OFS (i : Nat) : Fld := ⟨(0x231010 + i * 0x40) * 8 + 0, 32⟩
/-- FLD_POS_JUMP.JUMP_MAX [31:0], RWL, reset P H S Z. Binary angle; 0 = test off. -/
def FLD_POS_JUMP_JUMP_MAX (i : Nat) : Fld := ⟨(0x231014 + i * 0x40) * 8 + 0, 32⟩
/-- FLD_POS_CPR.CPR [31:0], RWL, reset P H S Z. 4 to 2^31 (quadrature); 0 is refused on quadrature channels. -/
def FLD_POS_CPR_CPR (i : Nat) : Fld := ⟨(0x231018 + i * 0x40) * 8 + 0, 32⟩
/-- FLD_POS_QTIM.SPD_WIN [31:16], RWL, reset P H S Z. 10 µs units, 1 to 65,535; 0 is refused. -/
def FLD_POS_QTIM_SPD_WIN (i : Nat) : Fld := ⟨(0x23101C + i * 0x40) * 8 + 16, 16⟩
/-- FLD_POS_QTIM.SPD_STILL [15:0], RWL, reset P H S Z. ms, 1 to 65,535; 0 is refused. -/
def FLD_POS_QTIM_SPD_STILL (i : Nat) : Fld := ⟨(0x23101C + i * 0x40) * 8 + 0, 16⟩
/-- FLD_POS_VAL.POS [31:0], RO, reset P H S Z. Angle (absolute) or counter (quadrature). -/
def FLD_POS_VAL_POS (i : Nat) : Fld := ⟨(0x231020 + i * 0x40) * 8 + 0, 32⟩
/-- FLD_POS_SPD.SPD [31:0], RO, reset P H S Z. binary32 rpm (R270, R271). -/
def FLD_POS_SPD_SPD (i : Nat) : Fld := ⟨(0x231024 + i * 0x40) * 8 + 0, 32⟩
/-- FLD_POS_STS.FENCED [31], RO, reset P H S Z. Channel fenced (Fault Detection, Replay and Fencing). -/
def FLD_POS_STS_FENCED (i : Nat) : Fld := ⟨(0x231034 + i * 0x40) * 8 + 31, 1⟩
/-- FLD_POS_STS.VALID [30], RO, reset P H S Z. Word or count valid. -/
def FLD_POS_STS_VALID (i : Nat) : Fld := ⟨(0x231034 + i * 0x40) * 8 + 30, 1⟩
/-- FLD_POS_STS.SPD_VALID [29], RO, reset P H S Z. Speed valid. -/
def FLD_POS_STS_SPD_VALID (i : Nat) : Fld := ⟨(0x231034 + i * 0x40) * 8 + 29, 1⟩
/-- FLD_POS_STS.QERR [28], RO, reset P H S Z. R269. -/
def FLD_POS_STS_QERR (i : Nat) : Fld := ⟨(0x231034 + i * 0x40) * 8 + 28, 1⟩
/-- FLD_POS_STS.SHARED [27], RO, reset P H S Z. R267. -/
def FLD_POS_STS_SHARED (i : Nat) : Fld := ⟨(0x231034 + i * 0x40) * 8 + 27, 1⟩
/-- FLD_POS_STS.STILL [26], RO, reset P H S Z. R270. -/
def FLD_POS_STS_STILL (i : Nat) : Fld := ⟨(0x231034 + i * 0x40) * 8 + 26, 1⟩
/-- FLD_POS_STS.HELD [25], RO, reset P H S Z. R270. -/
def FLD_POS_STS_HELD (i : Nat) : Fld := ⟨(0x231034 + i * 0x40) * 8 + 25, 1⟩
/-- FLD_POS_STS.REASON [2:0], RO, reset P H S Z. R263; 0 = valid. -/
def FLD_POS_STS_REASON (i : Nat) : Fld := ⟨(0x231034 + i * 0x40) * 8 + 0, 3⟩
/-- FLD_POS_CNT.ILLEGAL [31:16], RO, reset P H S W C Z. Illegal changes, saturating at 0xFFFF; 0 = none. -/
def FLD_POS_CNT_ILLEGAL (i : Nat) : Fld := ⟨(0x231038 + i * 0x40) * 8 + 16, 16⟩
/-- FLD_POS_CNT.RELAY_CNT [15:8], RO, reset P H S W C Z. Deferred drive transfers, saturating at 255; 0 = none. -/
def FLD_POS_CNT_RELAY_CNT (i : Nat) : Fld := ⟨(0x231038 + i * 0x40) * 8 + 8, 8⟩
/-- FLD_POS_CNT.BAD_WORDS [7:0], RO, reset P H S W C Z. Invalid words, saturating at 255; 0 = none. -/
def FLD_POS_CNT_BAD_WORDS (i : Nat) : Fld := ⟨(0x231038 + i * 0x40) * 8 + 0, 8⟩
/-- FLD_POS_ZCOUNT.ZCOUNT [31:0], RO, reset P H S W C Z. Counter at the last QUAD_Z edge. -/
def FLD_POS_ZCOUNT_ZCOUNT (i : Nat) : Fld := ⟨(0x23103C + i * 0x40) * 8 + 0, 32⟩
/-- FLD_CMP_VALUE.VALUE [31:0], RWL, reset P H S Z. Binary angle. -/
def FLD_CMP_VALUE_VALUE (i : Nat) : Fld := ⟨(0x232000 + i * 0x10) * 8 + 0, 32⟩
/-- FLD_CMP_HYST.HYST [31:0], RWL, reset P H S Z. Binary angle, 0 to 2^29; 0 = none. -/
def FLD_CMP_HYST_HYST (i : Nat) : Fld := ⟨(0x232004 + i * 0x10) * 8 + 0, 32⟩
/-- FLD_CMP_CFG.EN [31], RWL, reset P H S Z. 1 = unit in use. -/
def FLD_CMP_CFG_EN (i : Nat) : Fld := ⟨(0x232008 + i * 0x10) * 8 + 31, 1⟩
/-- FLD_CMP_CFG.FIRE_IF_BEHIND [30], RWL, reset P H S Z. R273. -/
def FLD_CMP_CFG_FIRE_IF_BEHIND (i : Nat) : Fld := ⟨(0x232008 + i * 0x10) * 8 + 30, 1⟩
/-- FLD_CMP_CFG.CHAN [20:16], RWL, reset P H S Z. Absolute channel (R272). -/
def FLD_CMP_CFG_CHAN (i : Nat) : Fld := ⟨(0x232008 + i * 0x10) * 8 + 16, 5⟩
/-- FLD_CMP_CFG.LOG [15], RWL, reset P H S Z. R274. -/
def FLD_CMP_CFG_LOG (i : Nat) : Fld := ⟨(0x232008 + i * 0x10) * 8 + 15, 1⟩
/-- FLD_CMP_CFG.IRQ [14], RWL, reset P H S Z. R274. -/
def FLD_CMP_CFG_IRQ (i : Nat) : Fld := ⟨(0x232008 + i * 0x10) * 8 + 14, 1⟩
/-- FLD_CMP_CFG.PIN_EN [13], RWL, reset P H S Z. R274. -/
def FLD_CMP_CFG_PIN_EN (i : Nat) : Fld := ⟨(0x232008 + i * 0x10) * 8 + 13, 1⟩
/-- FLD_CMP_CFG.PIN_LEVEL [12], RWL, reset P H S Z. R274. -/
def FLD_CMP_CFG_PIN_LEVEL (i : Nat) : Fld := ⟨(0x232008 + i * 0x10) * 8 + 12, 1⟩
/-- FLD_CMP_CFG.PIN [5:0], RWL, reset P H S Z. DOUT pin of the pin action. -/
def FLD_CMP_CFG_PIN (i : Nat) : Fld := ⟨(0x232008 + i * 0x10) * 8 + 0, 6⟩
/-- FLD_CMP_STS.ARMED [31], RO, reset P H S W C Z. R273. -/
def FLD_CMP_STS_ARMED (i : Nat) : Fld := ⟨(0x23200C + i * 0x10) * 8 + 31, 1⟩
/-- FLD_CMP_STS.BEHIND [30], RO, reset P H S W C Z. R273. -/
def FLD_CMP_STS_BEHIND (i : Nat) : Fld := ⟨(0x23200C + i * 0x10) * 8 + 30, 1⟩
/-- FLD_CMP_STS.WAIT_DIR [29], RO, reset P H S W C Z. R273. -/
def FLD_CMP_STS_WAIT_DIR (i : Nat) : Fld := ⟨(0x23200C + i * 0x10) * 8 + 29, 1⟩
/-- FLD_CMP_STS.LATCHED [28], RO, reset P H S W C Z. R272. -/
def FLD_CMP_STS_LATCHED (i : Nat) : Fld := ⟨(0x23200C + i * 0x10) * 8 + 28, 1⟩
/-- FLD_CMP_STS.FIRE_CNT [15:0], RO, reset P H S W C Z. Firings, saturating at 0xFFFF; 0 = none. -/
def FLD_CMP_STS_FIRE_CNT (i : Nat) : Fld := ⟨(0x23200C + i * 0x10) * 8 + 0, 16⟩
/-- SAF_STATUS.CONFIGURED [31], RO, reset P H S Z. 1 = a SAFETY configuration is active. -/
def SAF_STATUS_CONFIGURED : Fld := ⟨(0x240000) * 8 + 31, 1⟩
/-- SAF_STATUS.INTERNAL [30], RO, reset P H S Z. 1 = internal fault (R284). -/
def SAF_STATUS_INTERNAL : Fld := ⟨(0x240000) * 8 + 30, 1⟩
/-- SAF_STATUS.TRIPPED [23:16], RO, reset P H S Z. Trip word (R299). -/
def SAF_STATUS_TRIPPED : Fld := ⟨(0x240000) * 8 + 16, 8⟩
/-- SAF_STATUS.FAULT [15:8], RO, reset P H S Z. Bit f = function f in FAULT. -/
def SAF_STATUS_FAULT : Fld := ⟨(0x240000) * 8 + 8, 8⟩
/-- SAF_STATUS.OUT_ON [3:0], RO, reset P H S Z. Bit o = output o on (R296). -/
def SAF_STATUS_OUT_ON : Fld := ⟨(0x240000) * 8 + 0, 4⟩
/-- SAF_COND.LAST_CODE [15:0], RO, reset P H S Z. Last SAF condition code drained; 0x0000 = none. -/
def SAF_COND_LAST_CODE : Fld := ⟨(0x240004) * 8 + 0, 16⟩
/-- SAF_EVT.INTERNAL [17], W1C, reset P H S Z. An internal fault occurred. -/
def SAF_EVT_INTERNAL : Fld := ⟨(0x240008) * 8 + 17, 1⟩
/-- SAF_EVT.RESET_DONE [16], W1C, reset P H S Z. A function entered RUN. -/
def SAF_EVT_RESET_DONE : Fld := ⟨(0x240008) * 8 + 16, 1⟩
/-- SAF_EVT.FAULT [15:8], W1C, reset P H S Z. Bit f = function f entered FAULT. -/
def SAF_EVT_FAULT : Fld := ⟨(0x240008) * 8 + 8, 8⟩
/-- SAF_EVT.TRIP [7:0], W1C, reset P H S Z. Bit f = function f tripped. -/
def SAF_EVT_TRIP : Fld := ⟨(0x240008) * 8 + 0, 8⟩
/-- SAF_EVT_EN.INTERNAL [17], RW, reset P H S Z. An internal fault occurred. -/
def SAF_EVT_EN_INTERNAL : Fld := ⟨(0x24000C) * 8 + 17, 1⟩
/-- SAF_EVT_EN.RESET_DONE [16], RW, reset P H S Z. A function entered RUN. -/
def SAF_EVT_EN_RESET_DONE : Fld := ⟨(0x24000C) * 8 + 16, 1⟩
/-- SAF_EVT_EN.FAULT [15:8], RW, reset P H S Z. Bit f = function f entered FAULT. -/
def SAF_EVT_EN_FAULT : Fld := ⟨(0x24000C) * 8 + 8, 8⟩
/-- SAF_EVT_EN.TRIP [7:0], RW, reset P H S Z. Bit f = function f tripped. -/
def SAF_EVT_EN_TRIP : Fld := ⟨(0x24000C) * 8 + 0, 8⟩
/-- SAF_IN.RAW [31:16], RO, reset —. Ball levels at the last tick, unfiltered. -/
def SAF_IN_RAW : Fld := ⟨(0x240010) * 8 + 16, 16⟩
/-- SAF_IN.ACCEPTED [15:0], RO, reset —. Filtered levels (R287). The reset ball shows its 5 ms filtered level. A ball named by no function, and not the reset ball, shows its unfiltered level (R287). -/
def SAF_IN_ACCEPTED : Fld := ⟨(0x240010) * 8 + 0, 16⟩
/-- SAF_OUT.STP [17:16], RO, reset —. STP0, STP1 levels at the last tick. -/
def SAF_OUT_STP : Fld := ⟨(0x240014) * 8 + 16, 2⟩
/-- SAF_OUT.READBACK [15:8], RO, reset —. Switch readback. -/
def SAF_OUT_READBACK : Fld := ⟨(0x240014) * 8 + 8, 8⟩
/-- SAF_OUT.COMMAND [7:0], RO, reset —. Switch command. -/
def SAF_OUT_COMMAND : Fld := ⟨(0x240014) * 8 + 0, 8⟩
/-- SAF_CFG.NFN [31:28], RO, reset P H S Z. Functions, 1 to 8; 0 = no configuration. -/
def SAF_CFG_NFN : Fld := ⟨(0x240018) * 8 + 28, 4⟩
/-- SAF_CFG.DARK_EN [11:8], RO, reset P H S Z. R297. -/
def SAF_CFG_DARK_EN : Fld := ⟨(0x240018) * 8 + 8, 4⟩
/-- SAF_CFG.RESET_USED [4], RO, reset P H S Z. 1 = a reset ball is named. -/
def SAF_CFG_RESET_USED : Fld := ⟨(0x240018) * 8 + 4, 1⟩
/-- SAF_CFG.RESET_BALL [3:0], RO, reset P H S Z. 2x = SIxA, 2x + 1 = SIxB. -/
def SAF_CFG_RESET_BALL : Fld := ⟨(0x240018) * 8 + 0, 4⟩
/-- SAF_TP.STP_EN [27:26], RO, reset P H S Z. 0 = no test pulses. -/
def SAF_TP_STP_EN : Fld := ⟨(0x24001C) * 8 + 26, 2⟩
/-- SAF_TP.TP_PERIOD [25:16], RO, reset P H S Z. ms; 0 = no test pulses. -/
def SAF_TP_TP_PERIOD : Fld := ⟨(0x24001C) * 8 + 16, 10⟩
/-- SAF_TP.TP_WIDTH [9:0], RO, reset P H S Z. µs; 0 = no test pulses. -/
def SAF_TP_TP_WIDTH : Fld := ⟨(0x24001C) * 8 + 0, 10⟩
/-- SAF_OUTMAP.OUT_MAP [31:0], RO, reset P H S Z. Octet o = functions gating output o; 0 = unused. -/
def SAF_OUTMAP_OUT_MAP : Fld := ⟨(0x240020) * 8 + 0, 32⟩
/-- SAF_CNT.TRIP_CNT [31:16], RO, reset P H S Z. Trips since configuration start, saturating at 0xFFFF; 0 = none. -/
def SAF_CNT_TRIP_CNT : Fld := ⟨(0x240024) * 8 + 16, 16⟩
/-- SAF_CNT.FAULT_CNT [15:8], RO, reset P H S Z. Entries to FAULT, saturating at 255; 0 = none. -/
def SAF_CNT_FAULT_CNT : Fld := ⟨(0x240024) * 8 + 8, 8⟩
/-- SAF_CNT.EVT_DROP [7:0], RO, reset P H S Z. Queue entries dropped (R301), saturating at 255; 0 = none. -/
def SAF_CNT_EVT_DROP : Fld := ⟨(0x240024) * 8 + 0, 8⟩
/-- SAF_FN_STS.STATE [31:29], RO, reset P H S Z. R290; 5 to 7 are not used. -/
def SAF_FN_STS_STATE (i : Nat) : Fld := ⟨(0x240100 + i * 0x10) * 8 + 29, 3⟩
/-- SAF_FN_STS.WHY [28:26], RO, reset P H S Z. Fault reason: 0 = none, 1 = DISCREPANCY, 2 = TP_FAULT, 3 = CROSS_SHORT, 4 = LOCK_MISMATCH, 5 = OUTPUT, 6 = INTERNAL; 7 is not used. -/
def SAF_FN_STS_WHY (i : Nat) : Fld := ⟨(0x240100 + i * 0x10) * 8 + 26, 3⟩
/-- SAF_FN_STS.DISC_RUN [25], RO, reset P H S Z. 1 = a discrepancy timer is running (R288). -/
def SAF_FN_STS_DISC_RUN (i : Nat) : Fld := ⟨(0x240100 + i * 0x10) * 8 + 25, 1⟩
/-- SAF_FN_STS.SYNC_WAIT [24], RO, reset P H S Z. R292. -/
def SAF_FN_STS_SYNC_WAIT (i : Nat) : Fld := ⟨(0x240100 + i * 0x10) * 8 + 24, 1⟩
/-- SAF_FN_STS.STOP_LEFT [15:0], RO, reset P H S Z. ms left of T_STOP1 in STOPPING; 0 otherwise. -/
def SAF_FN_STS_STOP_LEFT (i : Nat) : Fld := ⟨(0x240100 + i * 0x10) * 8 + 0, 16⟩
/-- SAF_FN_CFG.TYPE [31:28], RO, reset P H S Z. R286. -/
def SAF_FN_CFG_TYPE (i : Nat) : Fld := ⟨(0x240104 + i * 0x10) * 8 + 28, 4⟩
/-- SAF_FN_CFG.CAT [27], RO, reset P H S Z. Stop category. -/
def SAF_FN_CFG_CAT (i : Nat) : Fld := ⟨(0x240104 + i * 0x10) * 8 + 27, 1⟩
/-- SAF_FN_CFG.AUTO_RESET [26], RO, reset P H S Z. R291. -/
def SAF_FN_CFG_AUTO_RESET (i : Nat) : Fld := ⟨(0x240104 + i * 0x10) * 8 + 26, 1⟩
/-- SAF_FN_CFG.LOCK [25], RO, reset P H S Z. R291. -/
def SAF_FN_CFG_LOCK (i : Nat) : Fld := ⟨(0x240104 + i * 0x10) * 8 + 25, 1⟩
/-- SAF_FN_CFG.START_MANUAL [24], RO, reset P H S Z. R291. -/
def SAF_FN_CFG_START_MANUAL (i : Nat) : Fld := ⟨(0x240104 + i * 0x10) * 8 + 24, 1⟩
/-- SAF_FN_CFG.ANTI [23:22], RO, reset P H S Z. R287. -/
def SAF_FN_CFG_ANTI (i : Nat) : Fld := ⟨(0x240104 + i * 0x10) * 8 + 22, 2⟩
/-- SAF_FN_CFG.TP_A [21:20], RO, reset P H S Z. 0 = none. -/
def SAF_FN_CFG_TP_A (i : Nat) : Fld := ⟨(0x240104 + i * 0x10) * 8 + 20, 2⟩
/-- SAF_FN_CFG.TP_B [19:18], RO, reset P H S Z. 0 = none. -/
def SAF_FN_CFG_TP_B (i : Nat) : Fld := ⟨(0x240104 + i * 0x10) * 8 + 18, 2⟩
/-- SAF_FN_CFG.PAIR1 [11:8], RO, reset P H S Z. 0 to 7; 0xF = none. -/
def SAF_FN_CFG_PAIR1 (i : Nat) : Fld := ⟨(0x240104 + i * 0x10) * 8 + 8, 4⟩
/-- SAF_FN_CFG.PAIR0 [2:0], RO, reset P H S Z. 0 to 7. -/
def SAF_FN_CFG_PAIR0 (i : Nat) : Fld := ⟨(0x240104 + i * 0x10) * 8 + 0, 3⟩
/-- SAF_FN_TIM.T_STOP1 [31:16], RO, reset P H S Z. ms; 0 = CAT 0. -/
def SAF_FN_TIM_T_STOP1 (i : Nat) : Fld := ⟨(0x240108 + i * 0x10) * 8 + 16, 16⟩
/-- SAF_FN_TIM.T_DISC [15:0], RO, reset P H S Z. ms, 10 to 2,000. -/
def SAF_FN_TIM_T_DISC (i : Nat) : Fld := ⟨(0x240108 + i * 0x10) * 8 + 0, 16⟩
/-- SAF_FN_FILT.F_US [14:0], RO, reset P H S Z. µs, 500 to 20,000. -/
def SAF_FN_FILT_F_US (i : Nat) : Fld := ⟨(0x24010C + i * 0x10) * 8 + 0, 15⟩
/-- TIM_STATUS.STEP_ARMED [31], RO, reset P H S Z. 1 = a step awaits its second boundary (R313). -/
def TIM_STATUS_STEP_ARMED : Fld := ⟨(0x200000) * 8 + 31, 1⟩
/-- TIM_STATUS.SEL_VALID [3], RO, reset P H S Z. 1 = a source is selected (R310). -/
def TIM_STATUS_SEL_VALID : Fld := ⟨(0x200000) * 8 + 3, 1⟩
/-- TIM_STATUS.SEL_SLOT [1:0], RO, reset P H S Z. Slot of the selected source; valid when SEL_VALID = 1. -/
def TIM_STATUS_SEL_SLOT : Fld := ⟨(0x200000) * 8 + 0, 2⟩
/-- TIM_CTRL.SET [0], WO, reset P H S W C Z. 1 = apply TIM_SET under R317. -/
def TIM_CTRL_SET : Fld := ⟨(0x200004) * 8 + 0, 1⟩
/-- TIM_COND.LAST_CODE [15:0], RO, reset P H S W C Z. Last TIM condition code reported; 0x0000 = none. -/
def TIM_COND_LAST_CODE : Fld := ⟨(0x200008) * 8 + 0, 16⟩
/-- TIM_CFG.QUAL_N [31:24], RWI, reset P H S Z. 1 to 255; 0 is rejected with IMG ZERO_FIELD. -/
def TIM_CFG_QUAL_N : Fld := ⟨(0x20000C) * 8 + 24, 8⟩
/-- TIM_CFG.LOCK_N [23:16], RWI, reset P H S Z. 1 to 255; 0 is rejected with IMG ZERO_FIELD. -/
def TIM_CFG_LOCK_N : Fld := ⟨(0x20000C) * 8 + 16, 8⟩
/-- TIM_CFG.OSC_CLASS [15:14], RWI, reset P H S Z. R316. -/
def TIM_CFG_OSC_CLASS : Fld := ⟨(0x20000C) * 8 + 14, 2⟩
/-- TIM_CFG.TIME_PORT [13:12], RWI, reset P H S Z. Ethernet port of PTP. -/
def TIM_CFG_TIME_PORT : Fld := ⟨(0x20000C) * 8 + 12, 2⟩
/-- TIM_CFG.NSRC [2:0], RWI, reset P H S Z. Sources, 1 to 4; 0 is rejected with IMG ZERO_FIELD. -/
def TIM_CFG_NSRC : Fld := ⟨(0x20000C) * 8 + 0, 3⟩
/-- TIM_QUAL.STATE [31:29], RO, reset P H S Z. R315; 5 to 7 are not used. At Z, set under R318. -/
def TIM_QUAL_STATE : Fld := ⟨(0x200040) * 8 + 29, 3⟩
/-- TIM_QUAL.STEPPED [28], W1C, reset P H S Z. R313. -/
def TIM_QUAL_STEPPED : Fld := ⟨(0x200040) * 8 + 28, 1⟩
/-- TIM_QUAL.CLK_FAULT [27], RO, reset P H S Z. R308. -/
def TIM_QUAL_CLK_FAULT : Fld := ⟨(0x200040) * 8 + 27, 1⟩
/-- TIM_UTC.VALID [31], RO, reset P H S Z. 1 = TAI − UTC is known. -/
def TIM_UTC_VALID : Fld := ⟨(0x200048) * 8 + 31, 1⟩
/-- TIM_UTC.SRC [30:29], RO, reset P H S Z. 0 = none, 1 = GNSS (LNAV), 2 = PTP; 3 is not used. -/
def TIM_UTC_SRC : Fld := ⟨(0x200048) * 8 + 29, 2⟩
/-- TIM_UTC.LEAP61 [28], RO, reset P H S Z. A positive leap second is announced. -/
def TIM_UTC_LEAP61 : Fld := ⟨(0x200048) * 8 + 28, 1⟩
/-- TIM_UTC.LEAP59 [27], RO, reset P H S Z. A negative leap second is announced. -/
def TIM_UTC_LEAP59 : Fld := ⟨(0x200048) * 8 + 27, 1⟩
/-- TIM_UTC.TAI_UTC [7:0], RO, reset P H S Z. TAI − UTC in s. -/
def TIM_UTC_TAI_UTC : Fld := ⟨(0x200048) * 8 + 0, 8⟩
/-- TIM_PPS_CFG.PPS_ADV [31:16], RWI, reset P H S Z. ns, 0 to 65,535; 0 = no advance. -/
def TIM_PPS_CFG_PPS_ADV : Fld := ⟨(0x2000A0) * 8 + 16, 16⟩
/-- TIM_PPS_CFG.PPS_WIDTH [15:0], RWI, reset P H S Z. µs, 1 to 500,000 coded as value ÷ 8 rounded up; 0 = PPS_OUT disabled. -/
def TIM_PPS_CFG_PPS_WIDTH : Fld := ⟨(0x2000A0) * 8 + 0, 16⟩
/-- TIM_PPS_STS.SUPPRESSED [31], W1C, reset P H S Z. 1 = a pulse was suppressed (R325). -/
def TIM_PPS_STS_SUPPRESSED : Fld := ⟨(0x2000A4) * 8 + 31, 1⟩
/-- TIM_PPS_STS.SEC [30:0], RO, reset P H S Z. Low 31 bits of the seconds of the last suppressed second. -/
def TIM_PPS_STS_SEC : Fld := ⟨(0x2000A4) * 8 + 0, 31⟩
/-- TIM_PPSIN_CFG.FILT [31:24], RWI, reset P H S Z. TIME clocks, 0 to 255; 0 = no filter. -/
def TIM_PPSIN_CFG_FILT : Fld := ⟨(0x2000A8) * 8 + 24, 8⟩
/-- TIM_PPSIN_CFG.WMAX [23:12], RWI, reset P H S Z. Units of 250 µs, 1 to 3,600; 0 is rejected with IMG ZERO_FIELD. -/
def TIM_PPSIN_CFG_WMAX : Fld := ⟨(0x2000A8) * 8 + 12, 12⟩
/-- TIM_PPSIN_CFG.WMIN [11:0], RWI, reset P H S Z. Units of 100 ns, 1 to 4,095; 0 is rejected with IMG ZERO_FIELD. -/
def TIM_PPSIN_CFG_WMIN : Fld := ⟨(0x2000A8) * 8 + 0, 12⟩
/-- TIM_SRC_CFG.KIND [31:29], RWI, reset P H S Z. R309; 0 = slot unused. -/
def TIM_SRC_CFG_KIND (i : Nat) : Fld := ⟨(0x2000C0 + i * 0x10) * 8 + 29, 3⟩
/-- TIM_SRC_CFG.QUALIFIED [28], RO, reset P H S Z. R310. -/
def TIM_SRC_CFG_QUALIFIED (i : Nat) : Fld := ⟨(0x2000C0 + i * 0x10) * 8 + 28, 1⟩
/-- TIM_SRC_CFG.REVERT_S [27:16], RWI, reset P H S Z. s, 0 to 3,600; 0 = revert at once. -/
def TIM_SRC_CFG_REVERT_S (i : Nat) : Fld := ⟨(0x2000C0 + i * 0x10) * 8 + 16, 12⟩
/-- TIM_SRC_CFG.LOSS_T [15:0], RWI, reset P H S Z. ms, 1 to 60,000; 0 is rejected with IMG ZERO_FIELD. -/
def TIM_SRC_CFG_LOSS_T (i : Nat) : Fld := ⟨(0x2000C0 + i * 0x10) * 8 + 0, 16⟩
/-- TIM_SRC_ACC.DLY [31:16], RWI, reset P H S Z. Signed ns, subtracted from θ; 0 = none. -/
def TIM_SRC_ACC_DLY (i : Nat) : Fld := ⟨(0x2000C4 + i * 0x10) * 8 + 16, 16⟩
/-- TIM_SRC_ACC.SRC_ACC [15:0], RWI, reset P H S Z. ns; 0 is legal. -/
def TIM_SRC_ACC_SRC_ACC (i : Nat) : Fld := ⟨(0x2000C4 + i * 0x10) * 8 + 0, 16⟩
/-- TIM_SRC_OFS.THETA [31:0], RO, reset P H S Z. Last valid θ, signed ns, saturating at ±(2^31 − 1). -/
def TIM_SRC_OFS_THETA (i : Nat) : Fld := ⟨(0x2000C8 + i * 0x10) * 8 + 0, 32⟩
/-- TIM_SRC_CNT.VALID_CNT [31:16], RO, reset P H S Z. Valid offsets, wrapping at 2^16. -/
def TIM_SRC_CNT_VALID_CNT (i : Nat) : Fld := ⟨(0x2000CC + i * 0x10) * 8 + 16, 16⟩
/-- TIM_SRC_CNT.DISCARD [15:0], RO, reset P H S Z. Offsets discarded under R313 or R326, saturating at 0xFFFF; 0 = none. -/
def TIM_SRC_CNT_DISCARD (i : Nat) : Fld := ⟨(0x2000CC + i * 0x10) * 8 + 0, 16⟩
/-- TIM_TCAP_CFG.MODE [31:30], RWI, reset P H S Z. R327. -/
def TIM_TCAP_CFG_MODE (i : Nat) : Fld := ⟨(0x200200 + i * 0x20) * 8 + 30, 2⟩
/-- TIM_TCAP_CFG.EDGE [29:28], RWI, reset P H S Z. 1 = rising, 2 = falling, 3 = both; 0 is refused in MODE 1. -/
def TIM_TCAP_CFG_EDGE (i : Nat) : Fld := ⟨(0x200200 + i * 0x20) * 8 + 28, 2⟩
/-- TIM_TCAP_CFG.WIDTH [23:0], RW, reset P H S Z. Ticks, 1 to 2^24 − 1; 0 is refused (R327). -/
def TIM_TCAP_CFG_WIDTH (i : Nat) : Fld := ⟨(0x200200 + i * 0x20) * 8 + 0, 24⟩
/-- TIM_TCAP_PERIOD.PERIOD [31:0], RW, reset P H S Z. Ticks; 0 = one-shot. -/
def TIM_TCAP_PERIOD_PERIOD (i : Nat) : Fld := ⟨(0x20020C + i * 0x20) * 8 + 0, 32⟩
/-- TIM_TCAP_PHASE.PHASE_NS [31:0], RW, reset P H S Z. MODE 3 phase, ns, 0 to 999,999,999. -/
def TIM_TCAP_PHASE_PHASE_NS (i : Nat) : Fld := ⟨(0x200210 + i * 0x20) * 8 + 0, 32⟩
/-- TIM_TCAP_STS.LATE [31], W1C, reset P H S Z. R327. -/
def TIM_TCAP_STS_LATE (i : Nat) : Fld := ⟨(0x200214 + i * 0x20) * 8 + 31, 1⟩
/-- TIM_TCAP_STS.EMPTY [30], RO, reset P H S Z. 1 = capture FIFO empty. -/
def TIM_TCAP_STS_EMPTY (i : Nat) : Fld := ⟨(0x200214 + i * 0x20) * 8 + 30, 1⟩
/-- TIM_TCAP_STS.CAP_LOST [7:0], RO, reset P H S Z. Saturating at 255; 0 = none. -/
def TIM_TCAP_STS_CAP_LOST (i : Nat) : Fld := ⟨(0x200214 + i * 0x20) * 8 + 0, 8⟩
/-- TIM_PTP_CFG.UDP [31], RWI, reset P H S Z. 0 = IEEE 802.3, 1 = UDP/IPv4. -/
def TIM_PTP_CFG_UDP : Fld := ⟨(0x200300) * 8 + 31, 1⟩
/-- TIM_PTP_CFG.DOMAIN [30:24], RWI, reset P H S Z. 0 to 127. -/
def TIM_PTP_CFG_DOMAIN : Fld := ⟨(0x200300) * 8 + 24, 7⟩
/-- TIM_PTP_CFG.ANNOUNCE_TO [23:20], RWI, reset P H S Z. 2 to 10; 0 is rejected with IMG ZERO_FIELD. -/
def TIM_PTP_CFG_ANNOUNCE_TO : Fld := ⟨(0x200300) * 8 + 20, 4⟩
/-- TIM_PTP_CFG.MPD_MAX [19:0], RWI, reset P H S Z. Units of 10 ns, 10 to 1,000,000; 0 is rejected with IMG ZERO_FIELD. -/
def TIM_PTP_CFG_MPD_MAX : Fld := ⟨(0x200300) * 8 + 0, 20⟩
/-- TIM_PTP_STS.MASTER_VALID [31], RO, reset P H S Z. 1 = a master is selected (R323). -/
def TIM_PTP_STS_MASTER_VALID : Fld := ⟨(0x200304) * 8 + 31, 1⟩
/-- TIM_PTP_STS.LOG_SYNC [7:0], RO, reset P H S Z. logMessageInterval of the master's Sync, two's complement. -/
def TIM_PTP_STS_LOG_SYNC : Fld := ⟨(0x200304) * 8 + 0, 8⟩
/-- TIM_PTP_MPD.MPD_F [31:0], RO, reset P H S Z. Filtered mean path delay, ns (R324). -/
def TIM_PTP_MPD_MPD_F : Fld := ⟨(0x200310) * 8 + 0, 32⟩
/-- TIM_PTP_CNT.IGNORED [31:16], RO, reset P H S Z. Messages discarded under R322, saturating; 0 = none. -/
def TIM_PTP_CNT_IGNORED : Fld := ⟨(0x200314) * 8 + 16, 16⟩
/-- TIM_PTP_CNT.BAD_DELAY [15:0], RO, reset P H S Z. Exchanges discarded under R324, saturating; 0 = none. -/
def TIM_PTP_CNT_BAD_DELAY : Fld := ⟨(0x200314) * 8 + 0, 16⟩
/-- NET_STATUS.LINK [31], RO, reset P H S W C Z. 1 = link up under R331. -/
def NET_STATUS_LINK (i : Nat) : Fld := ⟨(0x210000 + i * 0x1000) * 8 + 31, 1⟩
/-- NET_STATUS.SPEED [30:29], RO, reset P H S W C Z. 0 = no link, 1 = 100 Mb/s, 2 = 1,000 Mb/s; 3 is not used. -/
def NET_STATUS_SPEED (i : Nat) : Fld := ⟨(0x210000 + i * 0x1000) * 8 + 29, 2⟩
/-- NET_STATUS.TIME_PORT [28], RO, reset P H S Z. 1 = this port is the PTP time port (R322). -/
def NET_STATUS_TIME_PORT (i : Nat) : Fld := ⟨(0x210000 + i * 0x1000) * 8 + 28, 1⟩
/-- NET_STATUS.NDEF [8:0], RWI, reset P H S Z. Frame definitions, 0 to 256; 0 = none. -/
def NET_STATUS_NDEF (i : Nat) : Fld := ⟨(0x210000 + i * 0x1000) * 8 + 0, 9⟩
/-- NET_CFG.PHY_ADDR [12:8], RWI, reset P H S Z. 0 to 31. -/
def NET_CFG_PHY_ADDR (i : Nat) : Fld := ⟨(0x210004 + i * 0x1000) * 8 + 8, 5⟩
/-- NET_CFG.SPEED_SEL [1:0], RWI, reset P H S Z. R331; 3 is not used. -/
def NET_CFG_SPEED_SEL (i : Nat) : Fld := ⟨(0x210004 + i * 0x1000) * 8 + 0, 2⟩
/-- NET_COND.LAST_CODE [15:0], RO, reset P H S W C Z. Last NET condition code reported; 0x0000 = none. -/
def NET_COND_LAST_CODE (i : Nat) : Fld := ⟨(0x210008 + i * 0x1000) * 8 + 0, 16⟩
/-- NET_TXQ_CFG.GUARD [31], RWI, reset P H S Z. R339. -/
def NET_TXQ_CFG_GUARD (i : Nat) (j : Nat) : Fld := ⟨(0x210020 + i * 0x1000 + j * 0x8) * 8 + 31, 1⟩
/-- NET_TXQ_CFG.LATE_MAX [15:0], RWI, reset P H S Z. µs; 0 = never dropped (R340). -/
def NET_TXQ_CFG_LATE_MAX (i : Nat) (j : Nat) : Fld := ⟨(0x210020 + i * 0x1000 + j * 0x8) * 8 + 0, 16⟩
/-- NET_TXQ_STS.LATE_CNT [31:16], RO, reset P H S W C Z. Late frames, saturating at 0xFFFF; cleared at NETp restart; 0 = none. -/
def NET_TXQ_STS_LATE_CNT (i : Nat) (j : Nat) : Fld := ⟨(0x210024 + i * 0x1000 + j * 0x8) * 8 + 16, 16⟩
/-- NET_TXQ_STS.DROP_CNT [15:8], RO, reset P H S W C Z. Frames dropped under R340, saturating at 255; 0 = none. -/
def NET_TXQ_STS_DROP_CNT (i : Nat) (j : Nat) : Fld := ⟨(0x210024 + i * 0x1000 + j * 0x8) * 8 + 8, 8⟩
/-- NET_TXQ_STS.FILL [5:0], RO, reset P H S W C Z. Frames queued, 0 to 32; 0 = empty. -/
def NET_TXQ_STS_FILL (i : Nat) (j : Nat) : Fld := ⟨(0x210024 + i * 0x1000 + j * 0x8) * 8 + 0, 6⟩
/-- NET_FDEF_STS.FRAMES [31:16], RO, reset P H S W C Z. Frames taken (RX) or sent (TX) since NETp start, wrapping at 2^16. -/
def NET_FDEF_STS_FRAMES (i : Nat) (j : Nat) : Fld := ⟨(0x210400 + i * 0x1000 + j * 0x4) * 8 + 16, 16⟩
/-- NET_FDEF_STS.LATE [15], RO, reset P H S W C Z. 1 = the last frame sent was late (R340). -/
def NET_FDEF_STS_LATE (i : Nat) (j : Nat) : Fld := ⟨(0x210400 + i * 0x1000 + j * 0x4) * 8 + 15, 1⟩
/-- NET_FDEF_STS.CLASS [2:0], RWI, reset P H S Z. R335; 0 = definition undefined. -/
def NET_FDEF_STS_CLASS (i : Nat) (j : Nat) : Fld := ⟨(0x210400 + i * 0x1000 + j * 0x4) * 8 + 0, 3⟩
/-- NET_MDIO_CMD.GO_BUSY [31], RW, reset P H S W C Z. Write 1 to start; reads 1 until done. A write while it reads 1 is discarded. -/
def NET_MDIO_CMD_GO_BUSY : Fld := ⟨(0x214000) * 8 + 31, 1⟩
/-- NET_MDIO_CMD.C45 [30], RW, reset P H S W C Z. 1 = Clause 45 frame. -/
def NET_MDIO_CMD_C45 : Fld := ⟨(0x214000) * 8 + 30, 1⟩
/-- NET_MDIO_CMD.OP [29:28], RW, reset P H S W C Z. 0 = address (Clause 45 only), 1 = write, 2 = read; 3 is refused with NET MDIO_NORESP. -/
def NET_MDIO_CMD_OP : Fld := ⟨(0x214000) * 8 + 28, 2⟩
/-- NET_MDIO_CMD.NORESP [27], RO, reset P H S W C Z. 1 = no turnaround response to the last read. -/
def NET_MDIO_CMD_NORESP : Fld := ⟨(0x214000) * 8 + 27, 1⟩
/-- NET_MDIO_CMD.PHYAD [20:16], RW, reset P H S W C Z. PHY address. -/
def NET_MDIO_CMD_PHYAD : Fld := ⟨(0x214000) * 8 + 16, 5⟩
/-- NET_MDIO_CMD.REGAD [4:0], RW, reset P H S W C Z. Register (Clause 22) or DEVAD (Clause 45). -/
def NET_MDIO_CMD_REGAD : Fld := ⟨(0x214000) * 8 + 0, 5⟩
/-- NET_MDIO_DATA.DATA [15:0], RW, reset P H S W C Z. Write value, or read result. -/
def NET_MDIO_DATA_DATA : Fld := ⟨(0x214004) * 8 + 0, 16⟩
/-- CAN_STATUS.STATE [31:29], RO, reset P H S W C Z. 0 = STOPPED, 1 = INTEGRATING, 2 = ERROR_ACTIVE, 3 = ERROR_PASSIVE, 4 = BUS_OFF, 5 = MONITOR (R356); 6 and 7 are not used. -/
def CAN_STATUS_STATE (i : Nat) : Fld := ⟨(0x220000 + i * 0x1000) * 8 + 29, 3⟩
/-- CAN_STATUS.LIMITED [28], RO, reset P H S W C Z. 1 = limited-retry service (R350). -/
def CAN_STATUS_LIMITED (i : Nat) : Fld := ⟨(0x220000 + i * 0x1000) * 8 + 28, 1⟩
/-- CAN_STATUS.MSGSET [27], RO, reset P H S Z. 0 = native, 1 = GK5-compatible. -/
def CAN_STATUS_MSGSET (i : Nat) : Fld := ⟨(0x220000 + i * 0x1000) * 8 + 27, 1⟩
/-- CAN_STATUS.TEC [23:16], RO, reset P H S W C Z. Transmit error count; 255 while bus-off. -/
def CAN_STATUS_TEC (i : Nat) : Fld := ⟨(0x220000 + i * 0x1000) * 8 + 16, 8⟩
/-- CAN_STATUS.REC [15:8], RO, reset P H S W C Z. Receive error count, saturating at 255. -/
def CAN_STATUS_REC (i : Nat) : Fld := ⟨(0x220000 + i * 0x1000) * 8 + 8, 8⟩
/-- CAN_STATUS.TDCV [6:0], RO, reset P H S W C Z. R346. -/
def CAN_STATUS_TDCV (i : Nat) : Fld := ⟨(0x220000 + i * 0x1000) * 8 + 0, 7⟩
/-- CAN_CFG.NTXB [31:26], RWI, reset P H S Z. 0 to 32; 0 = nothing sent. -/
def CAN_CFG_NTXB (i : Nat) : Fld := ⟨(0x220004 + i * 0x1000) * 8 + 26, 6⟩
/-- CAN_CFG.NFILT [25:19], RWI, reset P H S Z. 0 to 64; 0 = nothing received. -/
def CAN_CFG_NFILT (i : Nat) : Fld := ⟨(0x220004 + i * 0x1000) * 8 + 19, 7⟩
/-- CAN_CFG.TDCO [18:12], RWL, reset P H S Z. FLD clocks, 0 to 127. -/
def CAN_CFG_TDCO (i : Nat) : Fld := ⟨(0x220004 + i * 0x1000) * 8 + 12, 7⟩
/-- CAN_CFG.HPB_EN [11], RWI, reset P H S Z. R353. -/
def CAN_CFG_HPB_EN (i : Nat) : Fld := ⟨(0x220004 + i * 0x1000) * 8 + 11, 1⟩
/-- CAN_CFG.LOOPBACK [10:9], RWL, reset P H S Z. R357; 3 is refused at restart. -/
def CAN_CFG_LOOPBACK (i : Nat) : Fld := ⟨(0x220004 + i * 0x1000) * 8 + 9, 2⟩
/-- CAN_CFG.PEX_EN [8], RWL, reset P H S Z. R344. -/
def CAN_CFG_PEX_EN (i : Nat) : Fld := ⟨(0x220004 + i * 0x1000) * 8 + 8, 1⟩
/-- CAN_CFG.RETRY_LIMIT [7:0], RWL, reset P H S Z. 0 to 255; 0 = a single attempt (R350). -/
def CAN_CFG_RETRY_LIMIT (i : Nat) : Fld := ⟨(0x220004 + i * 0x1000) * 8 + 0, 8⟩
/-- CAN_NBT.NBRP [31:24], RWL, reset P H S Z. 1 to 256. -/
def CAN_NBT_NBRP (i : Nat) : Fld := ⟨(0x22000C + i * 0x1000) * 8 + 24, 8⟩
/-- CAN_NBT.NTSEG1 [23:16], RWL, reset P H S Z. 2 to 256; a code of 0 is refused at restart. -/
def CAN_NBT_NTSEG1 (i : Nat) : Fld := ⟨(0x22000C + i * 0x1000) * 8 + 16, 8⟩
/-- CAN_NBT.NTSEG2 [14:8], RWL, reset P H S Z. 1 to 128. -/
def CAN_NBT_NTSEG2 (i : Nat) : Fld := ⟨(0x22000C + i * 0x1000) * 8 + 8, 7⟩
/-- CAN_NBT.NSJW [6:0], RWL, reset P H S Z. 1 to NTSEG2. -/
def CAN_NBT_NSJW (i : Nat) : Fld := ⟨(0x22000C + i * 0x1000) * 8 + 0, 7⟩
/-- CAN_DBT.TDC_EN [31], RWL, reset P H S Z. R346. -/
def CAN_DBT_TDC_EN (i : Nat) : Fld := ⟨(0x220010 + i * 0x1000) * 8 + 31, 1⟩
/-- CAN_DBT.FD_EN [30], RWL, reset P H S Z. 1 = DBRP ≠ 0; 0 = classical only. -/
def CAN_DBT_FD_EN (i : Nat) : Fld := ⟨(0x220010 + i * 0x1000) * 8 + 30, 1⟩
/-- CAN_DBT.DBRP [28:24], RWL, reset P H S Z. 1 to 32. -/
def CAN_DBT_DBRP (i : Nat) : Fld := ⟨(0x220010 + i * 0x1000) * 8 + 24, 5⟩
/-- CAN_DBT.DTSEG1 [21:16], RWL, reset P H S Z. 1 to 64. -/
def CAN_DBT_DTSEG1 (i : Nat) : Fld := ⟨(0x220010 + i * 0x1000) * 8 + 16, 6⟩
/-- CAN_DBT.DTSEG2 [12:8], RWL, reset P H S Z. 1 to 32. -/
def CAN_DBT_DTSEG2 (i : Nat) : Fld := ⟨(0x220010 + i * 0x1000) * 8 + 8, 5⟩
/-- CAN_DBT.DSJW [4:0], RWL, reset P H S Z. 1 to DTSEG2. -/
def CAN_DBT_DSJW (i : Nat) : Fld := ⟨(0x220010 + i * 0x1000) * 8 + 0, 5⟩
/-- CAN_COND.LAST_CODE [15:0], RO, reset P H S W C Z. Last CAN condition code reported; 0x0000 = none. -/
def CAN_COND_LAST_CODE (i : Nat) : Fld := ⟨(0x220008 + i * 0x1000) * 8 + 0, 16⟩
/-- CAN_CNT.BUSOFF_CNT [31:24], RO, reset P H S W C Z. Entries to bus-off (R349). -/
def CAN_CNT_BUSOFF_CNT (i : Nat) : Fld := ⟨(0x220014 + i * 0x1000) * 8 + 24, 8⟩
/-- CAN_CNT.RX_LOST [23:16], RO, reset P H S W C Z. Frames lost to full queues (R352). -/
def CAN_CNT_RX_LOST (i : Nat) : Fld := ⟨(0x220014 + i * 0x1000) * 8 + 16, 8⟩
/-- CAN_CNT.PEX_CNT [15:8], RO, reset P H S W C Z. Protocol exceptions (R344). -/
def CAN_CNT_PEX_CNT (i : Nat) : Fld := ⟨(0x220014 + i * 0x1000) * 8 + 8, 8⟩
/-- CAN_CNT.REMOTE_CNT [7:0], RO, reset P H S W C Z. Remote frames discarded (R344). -/
def CAN_CNT_REMOTE_CNT (i : Nat) : Fld := ⟨(0x220014 + i * 0x1000) * 8 + 0, 8⟩
/-- CAN_ERR.BUSOFF_DROP [31:16], RO, reset P H S W C Z. CYCLE contents not handed over while bus-off (R349). -/
def CAN_ERR_BUSOFF_DROP (i : Nat) : Fld := ⟨(0x220018 + i * 0x1000) * 8 + 16, 16⟩
/-- CAN_ERR.LATE_CNT [15:8], RO, reset P H S W C Z. Late CYCLE requests (R354). -/
def CAN_ERR_LATE_CNT (i : Nat) : Fld := ⟨(0x220018 + i * 0x1000) * 8 + 8, 8⟩
/-- CAN_ERR.PHASE [3], RO, reset P H S W C Z. Phase of the last error: 0 = nominal, 1 = data. -/
def CAN_ERR_PHASE (i : Nat) : Fld := ⟨(0x220018 + i * 0x1000) * 8 + 3, 1⟩
/-- CAN_ERR.LEC [2:0], RO, reset P H S W C Z. Last error: 0 = none, 1 = stuff, 2 = form, 3 = ACK, 4 = bit 1, 5 = bit 0, 6 = CRC; 7 is not used. -/
def CAN_ERR_LEC (i : Nat) : Fld := ⟨(0x220018 + i * 0x1000) * 8 + 0, 3⟩
/-- CAN_RXQ_STS.POP [31], WO, reset P H S W C Z. 1 = release the head record. -/
def CAN_RXQ_STS_POP (i : Nat) (j : Nat) : Fld := ⟨(0x220040 + i * 0x1000 + j * 0x4) * 8 + 31, 1⟩
/-- CAN_RXQ_STS.OVR [30], W1C, reset P H S W C Z. RXQ: a frame was lost; HPB: a held frame was overwritten (R353). -/
def CAN_RXQ_STS_OVR (i : Nat) (j : Nat) : Fld := ⟨(0x220040 + i * 0x1000 + j * 0x4) * 8 + 30, 1⟩
/-- CAN_RXQ_STS.FILL [5:0], RO, reset P H S W C Z. Records held: 0 to 32 for RXQ, 0 or 1 for HPB; 0 = empty. -/
def CAN_RXQ_STS_FILL (i : Nat) (j : Nat) : Fld := ⟨(0x220040 + i * 0x1000 + j * 0x4) * 8 + 0, 6⟩
/-- CAN_FLT_MATCH.IDE [29], RWL, reset P H S Z. R351. -/
def CAN_FLT_MATCH_IDE (i : Nat) (j : Nat) : Fld := ⟨(0x220200 + i * 0x1000 + j * 0x10) * 8 + 29, 1⟩
/-- CAN_FLT_MATCH.ID [28:0], RWL, reset P H S Z. Identifier; base identifiers in [28:18]. -/
def CAN_FLT_MATCH_ID (i : Nat) (j : Nat) : Fld := ⟨(0x220200 + i * 0x1000 + j * 0x10) * 8 + 0, 29⟩
/-- CAN_FLT_MASK.MASK [28:0], RWL, reset P H S Z. 1 = bit compared; 0 = every identifier of that IDE matches. -/
def CAN_FLT_MASK_MASK (i : Nat) (j : Nat) : Fld := ⟨(0x220204 + i * 0x1000 + j * 0x10) * 8 + 0, 29⟩
/-- CAN_FLT_CFG.FMT [17:16], RWL, reset P H S Z. 0 = any, 1 = classical, 2 = FD; 3 is refused. -/
def CAN_FLT_CFG_FMT (i : Nat) (j : Nat) : Fld := ⟨(0x220208 + i * 0x1000 + j * 0x10) * 8 + 16, 2⟩
/-- CAN_FLT_CFG.FB_AXIS [13:8], RWL, reset P H S Z. Axis, when FB = 1. -/
def CAN_FLT_CFG_FB_AXIS (i : Nat) (j : Nat) : Fld := ⟨(0x220208 + i * 0x1000 + j * 0x10) * 8 + 8, 6⟩
/-- CAN_FLT_CFG.FB [3], RWL, reset P H S Z. R351. -/
def CAN_FLT_CFG_FB (i : Nat) (j : Nat) : Fld := ⟨(0x220208 + i * 0x1000 + j * 0x10) * 8 + 3, 1⟩
/-- CAN_FLT_CFG.INTAKE [2], RWI, reset P H S Z. R351; set only by the image, because it routes intake. -/
def CAN_FLT_CFG_INTAKE (i : Nat) (j : Nat) : Fld := ⟨(0x220208 + i * 0x1000 + j * 0x10) * 8 + 2, 1⟩
/-- CAN_FLT_CFG.DEST [1:0], RWL, reset P H S Z. 0 = no queue, 1 = RXQ0, 2 = RXQ1; 3 is refused. -/
def CAN_FLT_CFG_DEST (i : Nat) (j : Nat) : Fld := ⟨(0x220208 + i * 0x1000 + j * 0x10) * 8 + 0, 2⟩
/-- CAN_TXB_HDR.BRS [31], RWI, reset P H S Z. Bit-rate switch. -/
def CAN_TXB_HDR_BRS (i : Nat) (j : Nat) : Fld := ⟨(0x220600 + i * 0x1000 + j * 0x50) * 8 + 31, 1⟩
/-- CAN_TXB_HDR.FDF [30], RWI, reset P H S Z. FD format. -/
def CAN_TXB_HDR_FDF (i : Nat) (j : Nat) : Fld := ⟨(0x220600 + i * 0x1000 + j * 0x50) * 8 + 30, 1⟩
/-- CAN_TXB_HDR.IDE [29], RWI, reset P H S Z. Extended identifier. -/
def CAN_TXB_HDR_IDE (i : Nat) (j : Nat) : Fld := ⟨(0x220600 + i * 0x1000 + j * 0x50) * 8 + 29, 1⟩
/-- CAN_TXB_HDR.ID [28:0], RWI, reset P H S Z. Identifier. -/
def CAN_TXB_HDR_ID (i : Nat) (j : Nat) : Fld := ⟨(0x220600 + i * 0x1000 + j * 0x50) * 8 + 0, 29⟩
/-- CAN_TXB_STS.KIND [31:30], RWI, reset P H S Z. 1 = CYCLE, 2 = HOST; 0 = buffer undefined. -/
def CAN_TXB_STS_KIND (i : Nat) (j : Nat) : Fld := ⟨(0x220604 + i * 0x1000 + j * 0x50) * 8 + 30, 2⟩
/-- CAN_TXB_STS.DLC [29:26], RWI, reset P H S Z. 0 to 15; 0 = empty frame. -/
def CAN_TXB_STS_DLC (i : Nat) (j : Nat) : Fld := ⟨(0x220604 + i * 0x1000 + j * 0x50) * 8 + 26, 4⟩
/-- CAN_TXB_STS.ATTEMPTS [15:8], RO, reset P H S W C Z. Attempts of the last request, saturating at 255. -/
def CAN_TXB_STS_ATTEMPTS (i : Nat) (j : Nat) : Fld := ⟨(0x220604 + i * 0x1000 + j * 0x50) * 8 + 8, 8⟩
/-- CAN_TXB_STS.LATE [5], RO, reset P H S W C Z. R354. -/
def CAN_TXB_STS_LATE (i : Nat) (j : Nat) : Fld := ⟨(0x220604 + i * 0x1000 + j * 0x50) * 8 + 5, 1⟩
/-- CAN_TXB_STS.CANCEL_LATE [4], RO, reset P H S W C Z. R355. -/
def CAN_TXB_STS_CANCEL_LATE (i : Nat) (j : Nat) : Fld := ⟨(0x220604 + i * 0x1000 + j * 0x50) * 8 + 4, 1⟩
/-- CAN_TXB_STS.STATUS [3:0], RO, reset P H S W C Z. 0 = idle, 1 = pending, 2 = TX_DONE, 3 = CANCELLED, 4 = NO_ACK, 5 = TX_ABORT, 6 = BUSOFF_DROP; 7 to 15 are not used. -/
def CAN_TXB_STS_STATUS (i : Nat) (j : Nat) : Fld := ⟨(0x220604 + i * 0x1000 + j * 0x50) * 8 + 0, 4⟩
/-- CAN_TXB_TIME_LO.SOF_CNT [31:0], RO, reset P H S W C Z. CNT at the start of frame of the successful attempt; read under R12; 0 = none. -/
def CAN_TXB_TIME_LO_SOF_CNT (i : Nat) (j : Nat) : Fld := ⟨(0x220608 + i * 0x1000 + j * 0x50) * 8 + 0, 32⟩
/-- CAN_TXB_TIME_HI.SOF_CNT [31:0], RO, reset P H S W C Z. CNT at the start of frame of the successful attempt; read under R12; 0 = none. -/
def CAN_TXB_TIME_HI_SOF_CNT (i : Nat) (j : Nat) : Fld := ⟨(0x22060C + i * 0x1000 + j * 0x50) * 8 + 0, 32⟩
/-- CAN_TXB_DATA.DATA [31:0], RW (HOST), RO (CYCLE), reset P H S W C Z. Octets 4k to 4k + 3, octet 4k in [7:0]. -/
def CAN_TXB_DATA_DATA (i : Nat) (j : Nat) (k : Nat) : Fld := ⟨(0x220610 + i * 0x1000 + j * 0x50 + k * 0x4) * 8 + 0, 32⟩
/-- ERR_STATUS.FAIL_SILENT [31], RO, reset P H S C Z. 1 = fail-silent (R385). -/
def ERR_STATUS_FAIL_SILENT : Fld := ⟨(0x250000) * 8 + 31, 1⟩
/-- ERR_STATUS.REPLAY [30], RO, reset P H S W C Z. 1 = a replay is in progress, or a re-run that counts as a replay under R382. A re-run after a plain squash, which is not a replay, reads 0. -/
def ERR_STATUS_REPLAY : Fld := ⟨(0x250000) * 8 + 30, 1⟩
/-- ERR_STATUS.S_CAUSE [27:24], RO, reset P H S Z. 0 = none, 1 = SEQ_COMPARE, 2 = SRAM_UE in a class S area, 3 = P in an unfenceable unit, 4 = journal read-back, 5 = MISS_LIMIT, 6 = FORCE_S, 7 = a cause from ano -/
def ERR_STATUS_S_CAUSE : Fld := ⟨(0x250000) * 8 + 24, 4⟩
/-- ERR_CTRL.CLR_CNT [1], WO, reset P H S W C Z. 1 = clear ERR_CNT_C, _T and _P. -/
def ERR_CTRL_CLR_CNT : Fld := ⟨(0x250004) * 8 + 1, 1⟩
/-- ERR_CTRL.FORCE_S [0], WO, reset P H S W C Z. 1 = class S fault now (R369). -/
def ERR_CTRL_FORCE_S : Fld := ⟨(0x250004) * 8 + 0, 1⟩
/-- ERR_COND.LAST_CODE [15:0], RO, reset P H S W C Z. Last ERR condition code reported; 0x0000 = none. -/
def ERR_COND_LAST_CODE : Fld := ⟨(0x250008) * 8 + 0, 16⟩
/-- ERR_HARD.ENTRIES [31:24], RO, reset P H S Z. Words in the hard-bit table, 0 to 64; 0 = none (R363). -/
def ERR_HARD_ENTRIES : Fld := ⟨(0x250018) * 8 + 24, 8⟩
/-- ERR_HARD.CORR_CNT [23:0], RO, reset P H S Z. Corrections of table words, saturating at 0xFF_FFFF; 0 = none. -/
def ERR_HARD_CORR_CNT : Fld := ⟨(0x250018) * 8 + 0, 24⟩
/-- ERR_LAST.CLASS [31:28], RO, reset P H S Z. 1 = C, 2 = T, 3 = P, 4 = S; 0 = no fault recorded. -/
def ERR_LAST_CLASS : Fld := ⟨(0x25001C) * 8 + 28, 4⟩
/-- ERR_LAST.MECH [27:24], RO, reset P H S Z. 1 = residue, 2 = exponent parity, 3 = SRAM corrected, 4 = SRAM_UE, 5 = ADDR, 6 = NAND corrected, 7 = NAND uncorrectable, 8 = SEQ_COMPARE, 9 = journal read-back, -/
def ERR_LAST_MECH : Fld := ⟨(0x25001C) * 8 + 24, 4⟩
/-- ERR_LAST.UNIT [23:16], RO, reset P H S Z. 1 = lane, 2 = OCE, 3 = filter channel, 4 = tracking channel, 5 = position channel, 6 = Ethernet port, 7 = CAN controller, 8 = sequencer and selector, 9 = journa -/
def ERR_LAST_UNIT : Fld := ⟨(0x25001C) * 8 + 16, 8⟩
/-- ERR_LAST.INDEX [15:8], RO, reset P H S Z. Index of the unit; 0 for single units. -/
def ERR_LAST_INDEX : Fld := ⟨(0x25001C) * 8 + 8, 8⟩
/-- ERR_LAST.INJECTED [7], RO, reset P H S Z. R388. -/
def ERR_LAST_INJECTED : Fld := ⟨(0x25001C) * 8 + 7, 1⟩
/-- ERR_LAST.MOWER [6], RO, reset P H S Z. 1 = found by the Mower (R365). -/
def ERR_LAST_MOWER : Fld := ⟨(0x25001C) * 8 + 6, 1⟩
/-- ERR_LAST.IN_REPLAY [5], RO, reset P H S Z. 1 = the fault arose during a replay, or during a re-run that counts as a replay under R382 (R368). 0 during a re-run after a plain squash. -/
def ERR_LAST_IN_REPLAY : Fld := ⟨(0x25001C) * 8 + 5, 1⟩
/-- ERR_LAST_CYC.CYC [31:0], RO, reset P H S Z. CYC[31:0] of the cycle the failing work belonged to. 0xFFFF_FFFF when the failing work belongs to no cycle: outside RUNNING, and in RUNNING for a FORCE_S write, -/
def ERR_LAST_CYC_CYC : Fld := ⟨(0x250020) * 8 + 0, 32⟩
/-- ERR_LAST_ADDR.ADDR [31:0], RO, reset P H S Z. SRAM word address or NAND page number for MECH 3 to 7; 0 otherwise. -/
def ERR_LAST_ADDR_ADDR : Fld := ⟨(0x250024) * 8 + 0, 32⟩
/-- ERR_INJ.ARM [31], RW, reset P H S W C Z. 1 = arm an injection; the GK9 clears it when the fault is injected. -/
def ERR_INJ_ARM : Fld := ⟨(0x250028) * 8 + 31, 1⟩
/-- ERR_INJ.MECH [27:24], RW, reset P H S W C Z. 1 = residue, 2 = exponent parity, 3 = SRAM corrected, 4 = SRAM_UE; other values are refused with ERR INJECT_REFUSED. -/
def ERR_INJ_MECH : Fld := ⟨(0x250028) * 8 + 24, 4⟩
/-- ERR_INJ.UNIT [23:16], RW, reset P H S W C Z. As ERR_LAST.UNIT, 1 to 7. -/
def ERR_INJ_UNIT : Fld := ⟨(0x250028) * 8 + 16, 8⟩
/-- ERR_INJ.INDEX [15:8], RW, reset P H S W C Z. Unit index. -/
def ERR_INJ_INDEX : Fld := ⟨(0x250028) * 8 + 8, 8⟩
/-- JNL_STATUS.CKPT0_OK [31], RO, reset P H S Z. 1 = checkpoint buffer 0 holds a usable checkpoint (R378). -/
def JNL_STATUS_CKPT0_OK : Fld := ⟨(0x260000) * 8 + 31, 1⟩
/-- JNL_STATUS.CKPT1_OK [30], RO, reset P H S Z. As CKPT0_OK for buffer 1. -/
def JNL_STATUS_CKPT1_OK : Fld := ⟨(0x260000) * 8 + 30, 1⟩
/-- JNL_STATUS.NAND_OK [29], RO, reset P H S Z. 1 = a NAND journal area is in service (R375). -/
def JNL_STATUS_NAND_OK : Fld := ⟨(0x260000) * 8 + 29, 1⟩
/-- JNL_STATUS.RECORDS [6:0], RO, reset P H S Z. Final records on-die, 0 to 64; 0 = none. -/
def JNL_STATUS_RECORDS : Fld := ⟨(0x260000) * 8 + 0, 7⟩
/-- JNL_COND.LAST_CODE [15:0], RO, reset P H S W C Z. Last JNL condition code reported; 0x0000 = none. -/
def JNL_COND_LAST_CODE : Fld := ⟨(0x260004) * 8 + 0, 16⟩
/-- JNL_CFG.RECORD_MAX [16:0], RWI, reset P H S Z. Worst-case record octets, 48 to 65,536 (R371). -/
def JNL_CFG_RECORD_MAX : Fld := ⟨(0x260008) * 8 + 0, 17⟩
/-- JNL_RD_ADDR.SLOT [31:26], RW, reset P H S W C Z. Record slot, CYC mod 64. -/
def JNL_RD_ADDR_SLOT : Fld := ⟨(0x26001C) * 8 + 26, 6⟩
/-- JNL_RD_ADDR.WORD [13:0], RW, reset P H S W C Z. Word within the record, 0 to 16,383. -/
def JNL_RD_ADDR_WORD : Fld := ⟨(0x26001C) * 8 + 0, 14⟩
/-- JNL_RD_DATA.DATA [31:0], RO, reset —. The word at RD_ADDR. Each read then increments WORD, which wraps to 0 within the slot. A record still OPEN reads as it stands. -/
def JNL_RD_DATA_DATA : Fld := ⟨(0x260020) * 8 + 0, 32⟩
/-- JNL_NAND_PTR.PTR [31:0], RO, reset kept. NAND journal write pointer, in records (R375). -/
def JNL_NAND_PTR_PTR : Fld := ⟨(0x260024) * 8 + 0, 32⟩
/-- JNL_CNT.WRITE_LATE [31:24], RO, reset P H S Z. Records not READY by the commit, saturating at 255; 0 = none. -/
def JNL_CNT_WRITE_LATE : Fld := ⟨(0x260028) * 8 + 24, 8⟩
/-- JNL_CNT.MIRROR_GAP [23:16], RO, reset P H S Z. Records overwritten before they were copied, saturating at 255; 0 = none. -/
def JNL_CNT_MIRROR_GAP : Fld := ⟨(0x260028) * 8 + 16, 8⟩
/-- JNL_CNT.NAND_RECORDS [15:0], RO, reset P H S Z. Capacity of the NAND journal area, in thousands of records, rounded down; 0 = no NAND area. -/
def JNL_CNT_NAND_RECORDS : Fld := ⟨(0x260028) * 8 + 0, 16⟩
/-- RED_STATUS.ROLE [31:29], RO, reset P H S W C Z. 0 = none, 1 = LEAD, 2 = SECOND, 3 = STANDBY, 4 = RESERVE (R391); 5 to 7 are not used. Set again under R402 after W and C. -/
def RED_STATUS_ROLE : Fld := ⟨(0x270000) * 8 + 29, 3⟩
/-- RED_STATUS.PAIRED [28], RO, reset P H S W C Z. R393. -/
def RED_STATUS_PAIRED : Fld := ⟨(0x270000) * 8 + 28, 1⟩
/-- RED_STATUS.PARTNER_OK [27], RO, reset P H S W C Z. R401. -/
def RED_STATUS_PARTNER_OK : Fld := ⟨(0x270000) * 8 + 27, 1⟩
/-- RED_STATUS.SENDING [26], RO, reset P H S W C Z. 1 = outputs of the present cycle are sent. -/
def RED_STATUS_SENDING : Fld := ⟨(0x270000) * 8 + 26, 1⟩
/-- RED_STATUS.SYNC [25:24], RO, reset P H S W C Z. 0 = NOT_SYNCED, 1 = COPYING, 2 = CONFIRMING, 3 = SYNCED (R403). -/
def RED_STATUS_SYNC : Fld := ⟨(0x270000) * 8 + 24, 2⟩
/-- RED_STATUS.AGREE_SOLO [23], RO, reset P H S Z. R395; a cycle result. -/
def RED_STATUS_AGREE_SOLO : Fld := ⟨(0x270000) * 8 + 23, 1⟩
/-- RED_STATUS.SRCWORD_SOLO [22], RO, reset P H S Z. R396; a cycle result. -/
def RED_STATUS_SRCWORD_SOLO : Fld := ⟨(0x270000) * 8 + 22, 1⟩
/-- RED_STATUS.NO_PARTNER [21], RO, reset P H S W C Z. R408. -/
def RED_STATUS_NO_PARTNER : Fld := ⟨(0x270000) * 8 + 21, 1⟩
/-- RED_STATUS.PARTNER_ADDR [13:0], RWI, reset P H S Z. PAIR_ADDR, string in [13:7], position in [6:0]. -/
def RED_STATUS_PARTNER_ADDR : Fld := ⟨(0x270000) * 8 + 0, 14⟩
/-- RED_CTRL.CLR_FEED [5], WO, reset —. 1 = clear RED_FEED_CNT. -/
def RED_CTRL_CLR_FEED : Fld := ⟨(0x270004) * 8 + 5, 1⟩
/-- RED_CTRL.SLEEP [4], WO, reset P H S W C Z. 1 = return an unpaired activated Reserve to SLEEP (R407); refused otherwise with RED PROMOTE_REFUSED. -/
def RED_CTRL_SLEEP : Fld := ⟨(0x270004) * 8 + 4, 1⟩
/-- RED_CTRL.RESYNC [3], WO, reset P H S W C Z. 1 = resume resynchronisation attempts (R403). -/
def RED_CTRL_RESYNC : Fld := ⟨(0x270004) * 8 + 3, 1⟩
/-- RED_CTRL.STAND_DOWN [1], WO, reset P H S W C Z. R404. -/
def RED_CTRL_STAND_DOWN : Fld := ⟨(0x270004) * 8 + 1, 1⟩
/-- RED_CTRL.PROMOTE [0], WO, reset P H S W C Z. R404. -/
def RED_CTRL_PROMOTE : Fld := ⟨(0x270004) * 8 + 0, 1⟩
/-- RED_COND.LAST_CODE [15:0], RO, reset P H S W C Z. Last RED condition code reported; 0x0000 = none. -/
def RED_COND_LAST_CODE : Fld := ⟨(0x270008) * 8 + 0, 16⟩
/-- RED_CFG.AGREE_DL [31:16], RWI, reset P H S Z. µs, 1 to 65,535 (R392); 0 is rejected with IMG ZERO_FIELD. -/
def RED_CFG_AGREE_DL : Fld := ⟨(0x27000C) * 8 + 16, 16⟩
/-- RED_CFG.RESYNC_N [15:8], RWI, reset P H S Z. Cycles, 1 to 255; 0 is rejected with IMG ZERO_FIELD. -/
def RED_CFG_RESYNC_N : Fld := ⟨(0x27000C) * 8 + 8, 8⟩
/-- RED_MIRROR_CFG.MIRROR_I [31:16], RWI, reset P H S Z. Cycles, 1 to 65,535; 0 = mirroring disabled. -/
def RED_MIRROR_CFG_MIRROR_I : Fld := ⟨(0x270010) * 8 + 16, 16⟩
/-- RED_MIRROR_CFG.RESERVE_ADDR [13:0], RWI, reset P H S Z. 0x3FFF = no Reserve. -/
def RED_MIRROR_CFG_RESERVE_ADDR : Fld := ⟨(0x270010) * 8 + 0, 14⟩
/-- RED_CNT.MISMATCH [31:24], RO, reset P H S Z. Digest mismatches, saturating at 255; 0 = none. -/
def RED_CNT_MISMATCH : Fld := ⟨(0x270034) * 8 + 24, 8⟩
/-- RED_CNT.AGREE_LATE [23:16], RO, reset P H S Z. SOLO agreements or source words, saturating at 255; 0 = none. -/
def RED_CNT_AGREE_LATE : Fld := ⟨(0x270034) * 8 + 16, 8⟩
/-- RED_CNT.ADOPTED [15:8], RO, reset P H S Z. Commits adopted (R400), saturating at 255; 0 = none. -/
def RED_CNT_ADOPTED : Fld := ⟨(0x270034) * 8 + 8, 8⟩
/-- RED_CNT.RESYNC_FAIL [7:0], RO, reset P H S Z. Failed attempts, saturating at 255; 0 = none. -/
def RED_CNT_RESYNC_FAIL : Fld := ⟨(0x270034) * 8 + 0, 8⟩
/-- RED_RESYNC.LAG [31:16], RO, reset P H S W C Z. Records still to rebuild, saturating at 0xFFFF; 0 = none. -/
def RED_RESYNC_LAG : Fld := ⟨(0x270038) * 8 + 16, 16⟩
/-- RED_RESYNC.CONFIRM [15:8], RO, reset P H S W C Z. Consecutive equal digests in CONFIRMING, saturating at 255. -/
def RED_RESYNC_CONFIRM : Fld := ⟨(0x270038) * 8 + 8, 8⟩
/-- RED_RESYNC.ATTEMPTS [7:0], RO, reset P H S W C Z. Attempts since the last RESYNC write or restart; 0 = none. -/
def RED_RESYNC_ATTEMPTS : Fld := ⟨(0x270038) * 8 + 0, 8⟩
/-- RED_FEED.VAON_A_OK [31], RO, reset —. Live; 1 = at or above V_AONL. -/
def RED_FEED_VAON_A_OK : Fld := ⟨(0x270040) * 8 + 31, 1⟩
/-- RED_FEED.VAON_B_OK [30], RO, reset —. As VAON_A_OK. -/
def RED_FEED_VAON_B_OK : Fld := ⟨(0x270040) * 8 + 30, 1⟩
/-- RED_FEED.A_WARN [29], RO, reset —. Live; feed A in warning (R410). -/
def RED_FEED_A_WARN : Fld := ⟨(0x270040) * 8 + 29, 1⟩
/-- RED_FEED.B_WARN [28], RO, reset —. As A_WARN. -/
def RED_FEED_B_WARN : Fld := ⟨(0x270040) * 8 + 28, 1⟩
/-- RED_FEED.A_LOST [27], RO, reset —. Live; feed A lost. -/
def RED_FEED_A_LOST : Fld := ⟨(0x270040) * 8 + 27, 1⟩
/-- RED_FEED.B_LOST [26], RO, reset —. As A_LOST. -/
def RED_FEED_B_LOST : Fld := ⟨(0x270040) * 8 + 26, 1⟩
/-- RED_FEED.FEEDSEL_A [25], RO, reset —. Ball level (R411). -/
def RED_FEED_FEEDSEL_A : Fld := ⟨(0x270040) * 8 + 25, 1⟩
/-- RED_FEED.FEEDSEL_B [24], RO, reset —. Ball level. -/
def RED_FEED_FEEDSEL_B : Fld := ⟨(0x270040) * 8 + 24, 1⟩
/-- RED_FEED_CNT.A_LOSS [31:24], RO, reset kept. Feed A losses, saturating at 255; cleared only by CLR_FEED; 0 = none. -/
def RED_FEED_CNT_A_LOSS : Fld := ⟨(0x270044) * 8 + 24, 8⟩
/-- RED_FEED_CNT.B_LOSS [23:16], RO, reset kept. As A_LOSS. -/
def RED_FEED_CNT_B_LOSS : Fld := ⟨(0x270044) * 8 + 16, 8⟩
/-- RED_FEED_CNT.VAON_LOSS [15:8], RO, reset kept. Single VAON losses (R409), as A_LOSS. -/
def RED_FEED_CNT_VAON_LOSS : Fld := ⟨(0x270044) * 8 + 8, 8⟩
/-- RED_FEED_CNT.LAST_GASP [7:0], RO, reset kept. R412, as A_LOSS. -/
def RED_FEED_CNT_LAST_GASP : Fld := ⟨(0x270044) * 8 + 0, 8⟩
/-- RED_MIRROR_CNT.SESSIONS [31:16], RO, reset kept. Completed mirror sessions, wrapping at 2^16. -/
def RED_MIRROR_CNT_SESSIONS : Fld := ⟨(0x270048) * 8 + 16, 16⟩
/-- RED_MIRROR_CNT.SKIPPED [15:0], RO, reset kept. Skipped wakes (R405), saturating at 0xFFFF; 0 = none. -/
def RED_MIRROR_CNT_SKIPPED : Fld := ⟨(0x270048) * 8 + 0, 16⟩
/-- PST_STATUS.OUT_OF_STEP [31], RO, reset P H S C Z. R441. -/
def PST_STATUS_OUT_OF_STEP : Fld := ⟨(0x280000) * 8 + 31, 1⟩
/-- PST_STATUS.ACTING_MASTER [30], RO, reset P H S Z. R428. -/
def PST_STATUS_ACTING_MASTER : Fld := ⟨(0x280000) * 8 + 30, 1⟩
/-- PST_STATUS.MASTER_OK [29], RO, reset P H S W C Z. 1 = ALIGN received within ALIGN_LOSS cycles (R427). -/
def PST_STATUS_MASTER_OK : Fld := ⟨(0x280000) * 8 + 29, 1⟩
/-- PST_STATUS.ADDR [13:0], RWI, reset P H S Z. Own address (R423). -/
def PST_STATUS_ADDR : Fld := ⟨(0x280000) * 8 + 0, 14⟩
/-- PST_CTRL.HANDBACK [1], WO, reset P H S W C Z. R428. -/
def PST_CTRL_HANDBACK : Fld := ⟨(0x280004) * 8 + 1, 1⟩
/-- PST_CTRL.RELOAD [0], WO, reset P H S W C Z. 1 = send RELOAD to every device in PST_DEVSET (R441); refused off the master with PST MC_REFUSED. -/
def PST_CTRL_RELOAD : Fld := ⟨(0x280004) * 8 + 0, 1⟩
/-- PST_COND.LAST_CODE [15:0], RO, reset P H S W C Z. Last PST condition code reported; 0x0000 = none. -/
def PST_COND_LAST_CODE : Fld := ⟨(0x280008) * 8 + 0, 16⟩
/-- PST_CFG.ROLE [31:29], RWI, reset P H S Z. R429. -/
def PST_CFG_ROLE : Fld := ⟨(0x28000C) * 8 + 29, 3⟩
/-- PST_CFG.PAIRS [28], RWI, reset P H S Z. R429. -/
def PST_CFG_PAIRS : Fld := ⟨(0x28000C) * 8 + 28, 1⟩
/-- PST_CFG.STRING_HEAD [27], RWI, reset P H S Z. R424. -/
def PST_CFG_STRING_HEAD : Fld := ⟨(0x28000C) * 8 + 27, 1⟩
/-- PST_CFG.RING [26], RWI, reset P H S Z. R423. -/
def PST_CFG_RING : Fld := ⟨(0x28000C) * 8 + 26, 1⟩
/-- PST_CFG.PURPOSE [25:23], RWI, reset P H S Z. 0 = none. -/
def PST_CFG_PURPOSE : Fld := ⟨(0x28000C) * 8 + 23, 3⟩
/-- PST_CFG.MODE_LEAD [15:8], RWI, reset P H S Z. 2 to 255. -/
def PST_CFG_MODE_LEAD : Fld := ⟨(0x28000C) * 8 + 8, 8⟩
/-- PST_CFG.ALIGN_LOSS [7:0], RWI, reset P H S Z. 1 to 255. -/
def PST_CFG_ALIGN_LOSS : Fld := ⟨(0x28000C) * 8 + 0, 8⟩
/-- PST_MASTER.PREP_DL [31:16], RWI, reset P H S Z. ms, 1 to 10,000. -/
def PST_MASTER_PREP_DL : Fld := ⟨(0x280010) * 8 + 16, 16⟩
/-- PST_MASTER.MASTER_ADDR [13:0], RWI, reset P H S Z. R429. -/
def PST_MASTER_MASTER_ADDR : Fld := ⟨(0x280010) * 8 + 0, 14⟩
/-- PST_ALIGN.MISS [31:24], RO, reset P H S W C Z. Consecutive cycles without ALIGN, saturating at 255; 0 = none. -/
def PST_ALIGN_MISS : Fld := ⟨(0x280014) * 8 + 24, 8⟩
/-- PST_ALIGN.HOPS [23:16], RO, reset P H S W C Z. Hops of the last ALIGN; 0 on the master. -/
def PST_ALIGN_HOPS : Fld := ⟨(0x280014) * 8 + 16, 8⟩
/-- PST_ALIGN.ERR_BOUND [15:0], RO, reset P H S W C Z. 8 ns × HOPS (R426). -/
def PST_ALIGN_ERR_BOUND : Fld := ⟨(0x280014) * 8 + 0, 16⟩
/-- PST_PORT_STS.STATE [31:29], RO, reset P H S W C Z. 0 = DOWN, 1 = TRAINING, 2 = MGMT_ONLY, 3 = TRAINED, 4 = DEGRADED; 5 to 7 are not used. -/
def PST_PORT_STS_STATE (i : Nat) : Fld := ⟨(0x280020 + i * 0x10) * 8 + 29, 3⟩
/-- PST_PORT_STS.LANE0_OK [28], RO, reset P H S W C Z. 1 = lane 0 in use. -/
def PST_PORT_STS_LANE0_OK (i : Nat) : Fld := ⟨(0x280020 + i * 0x10) * 8 + 28, 1⟩
/-- PST_PORT_STS.LANE1_OK [27], RO, reset P H S W C Z. 1 = lane 1 in use. -/
def PST_PORT_STS_LANE1_OK (i : Nat) : Fld := ⟨(0x280020 + i * 0x10) * 8 + 27, 1⟩
/-- PST_PORT_STS.PEER_ADDR [13:0], RO, reset P H S W C Z. Address from the last HELLO. -/
def PST_PORT_STS_PEER_ADDR (i : Nat) : Fld := ⟨(0x280020 + i * 0x10) * 8 + 0, 14⟩
/-- PST_PORT_VER.PEER_MAJOR [31:24], RO, reset P H S W C Z. Peer's highest major offered. -/
def PST_PORT_VER_PEER_MAJOR (i : Nat) : Fld := ⟨(0x280024 + i * 0x10) * 8 + 24, 8⟩
/-- PST_PORT_VER.PEER_MINOR [23:16], RO, reset P H S W C Z. Peer's highest minor within it. -/
def PST_PORT_VER_PEER_MINOR (i : Nat) : Fld := ⟨(0x280024 + i * 0x10) * 8 + 16, 8⟩
/-- PST_PORT_VER.MAJOR [15:8], RO, reset P H S W C Z. Settled major (R444); 0 = no common version. -/
def PST_PORT_VER_MAJOR (i : Nat) : Fld := ⟨(0x280024 + i * 0x10) * 8 + 8, 8⟩
/-- PST_PORT_VER.MINOR [7:0], RO, reset P H S W C Z. Settled minor. -/
def PST_PORT_VER_MINOR (i : Nat) : Fld := ⟨(0x280024 + i * 0x10) * 8 + 0, 8⟩
/-- PST_PORT_DELAY.DELAY_NS [15:0], RO, reset P H S W C Z. Mean link delay (R425). -/
def PST_PORT_DELAY_DELAY_NS (i : Nat) : Fld := ⟨(0x280028 + i * 0x10) * 8 + 0, 16⟩
/-- PST_PORT_CNT.TRAIN_FAIL [31:24], RO, reset P H S Z. Failed trainings, saturating at 255; 0 = none. -/
def PST_PORT_CNT_TRAIN_FAIL (i : Nat) : Fld := ⟨(0x28002C + i * 0x10) * 8 + 24, 8⟩
/-- PST_PORT_CNT.RETRAIN [23:16], RO, reset P H S Z. Losses of training (R417), as TRAIN_FAIL. -/
def PST_PORT_CNT_RETRAIN (i : Nat) : Fld := ⟨(0x28002C + i * 0x10) * 8 + 16, 8⟩
/-- PST_PORT_CNT.REPLAY [15:8], RO, reset P H S Z. Retransmissions (R421), as TRAIN_FAIL. -/
def PST_PORT_CNT_REPLAY (i : Nat) : Fld := ⟨(0x28002C + i * 0x10) * 8 + 8, 8⟩
/-- PST_PORT_CNT.DISCARD [7:0], RO, reset P H S Z. Data frames discarded (R420, R423), as TRAIN_FAIL. -/
def PST_PORT_CNT_DISCARD (i : Nat) : Fld := ⟨(0x28002C + i * 0x10) * 8 + 0, 8⟩
/-- PST_MC_CTRL.CMD [31:28], WO, reset P H S W C Z. 1 = PREPARE, 2 = SEAL, 3 = ABORT; 0 = none; others refused with PST MC_REFUSED. -/
def PST_MC_CTRL_CMD : Fld := ⟨(0x280040) * 8 + 28, 4⟩
/-- PST_MC_CTRL.GROUPS [19:0], WO, reset P H S W C Z. Layout of R84; used with PREPARE. 0 with PREPARE is refused with PST MC_REFUSED. -/
def PST_MC_CTRL_GROUPS : Fld := ⟨(0x280040) * 8 + 0, 20⟩
/-- PST_MC_STS.STATE [31:29], RO, reset P H S W C Z. 0 = IDLE, 1 = PREPARING, 2 = PREPARED, 3 = SEALING, 4 = COMMITTED, 5 = DONE, 6 = ABORTED; 7 is not used. -/
def PST_MC_STS_STATE : Fld := ⟨(0x280044) * 8 + 29, 3⟩
/-- PST_MC_STS.HELD [24], RO, reset P H S W C Z. 1 = this device holds a change (R437). -/
def PST_MC_STS_HELD : Fld := ⟨(0x280044) * 8 + 24, 1⟩
/-- PST_MC_STS.ID [23:16], RO, reset P H S W C Z. Identifier of the last change. -/
def PST_MC_STS_ID : Fld := ⟨(0x280044) * 8 + 16, 8⟩
/-- PST_MC_STS.PENDING [15:0], RO, reset P H S W C Z. Devices yet to answer the present phase; 0 = none. -/
def PST_MC_STS_PENDING : Fld := ⟨(0x280044) * 8 + 0, 16⟩
/-- PST_MC_TARGET.K [31:0], RO, reset P H S W C Z. CYC[31:0] of k; 0xFFFF_FFFF = none. -/
def PST_MC_TARGET_K : Fld := ⟨(0x280048) * 8 + 0, 32⟩
/-- PST_MC_OOS_CNT.COUNT [14:0], RO, reset P H S Z. Devices set in PST_OOS; 0 = none. -/
def PST_MC_OOS_CNT_COUNT : Fld := ⟨(0x28004C) * 8 + 0, 15⟩
/-- PST_TUN_CTRL.GO_BUSY [31], RW, reset P H S W C Z. Write 1 to start; reads 1 until the result. A write while it reads 1 is discarded. -/
def PST_TUN_CTRL_GO_BUSY : Fld := ⟨(0x280050) * 8 + 31, 1⟩
/-- PST_TUN_CTRL.WRITE [30], RW, reset P H S W C Z. 1 = write, 0 = read. -/
def PST_TUN_CTRL_WRITE : Fld := ⟨(0x280050) * 8 + 30, 1⟩
/-- PST_TUN_CTRL.DST [13:0], RW, reset P H S W C Z. Target address. -/
def PST_TUN_CTRL_DST : Fld := ⟨(0x280050) * 8 + 0, 14⟩
/-- PST_TUN_ADDR.OFS [23:0], RW, reset P H S W C Z. Target BAR0 offset. -/
def PST_TUN_ADDR_OFS : Fld := ⟨(0x280054) * 8 + 0, 24⟩
/-- PST_TUN_DATA.DATA [31:0], RW, reset P H S W C Z. Write value or read result. -/
def PST_TUN_DATA_DATA : Fld := ⟨(0x280058) * 8 + 0, 32⟩
/-- PST_TUN_STS.RESULT [2:0], RO, reset P H S W C Z. 0 = none, 1 = OK, 2 = NO_ROUTE, 3 = TIMEOUT, 4 = REFUSED (R434); 5 to 7 are not used. -/
def PST_TUN_STS_RESULT : Fld := ⟨(0x28005C) * 8 + 0, 3⟩
/-- PST_IMGD_CTRL.GO [0], WO, reset P H S W C Z. R435; refused off the master with PST MC_REFUSED. -/
def PST_IMGD_CTRL_GO : Fld := ⟨(0x280060) * 8 + 0, 1⟩
/-- PST_IMGD_STS.BUSY [31], RO, reset P H S W C Z. 1 = distribution running. -/
def PST_IMGD_STS_BUSY : Fld := ⟨(0x280064) * 8 + 31, 1⟩
/-- PST_IMGD_STS.FAILED [29:15], RO, reset P H S W C Z. Targets failed; 0 = none. -/
def PST_IMGD_STS_FAILED : Fld := ⟨(0x280064) * 8 + 15, 15⟩
/-- PST_IMGD_STS.DONE [14:0], RO, reset P H S W C Z. Targets done; 0 = none. -/
def PST_IMGD_STS_DONE : Fld := ⟨(0x280064) * 8 + 0, 15⟩
/-- CLK_STATUS.FRC_PROVEN [31], RO, reset P H S Z. R451. -/
def CLK_STATUS_FRC_PROVEN : Fld := ⟨(0x10000) * 8 + 31, 1⟩
/-- CLK_STATUS.FRC_BAD [30], RO, reset P H S Z. R454. -/
def CLK_STATUS_FRC_BAD : Fld := ⟨(0x10000) * 8 + 30, 1⟩
/-- CLK_STATUS.SRC_OK [29], RO, reset P. SRC proven and monitor-clean. -/
def CLK_STATUS_SRC_OK : Fld := ⟨(0x10000) * 8 + 29, 1⟩
/-- CLK_STATUS.XA_OK [28], RO, reset P H S Z. 0 also when no XA is fitted. -/
def CLK_STATUS_XA_OK : Fld := ⟨(0x10000) * 8 + 28, 1⟩
/-- CLK_STATUS.XB_OK [27], RO, reset P H S Z. XB proven and monitor-clean. -/
def CLK_STATUS_XB_OK : Fld := ⟨(0x10000) * 8 + 27, 1⟩
/-- CLK_STATUS.PLL_LOCK [20:16], RO, reset P H S Z. Bit x = PLL x locked. -/
def CLK_STATUS_PLL_LOCK : Fld := ⟨(0x10000) * 8 + 16, 5⟩
/-- CLK_STATUS.NOT_PRIMARY [11:0], RO, reset P H S Z. Bit d = domain d not on its primary source. -/
def CLK_STATUS_NOT_PRIMARY : Fld := ⟨(0x10000) * 8 + 0, 12⟩
/-- CLK_COND.LAST_CODE [15:0], RO, reset P H S W C Z. Last CLK condition code reported; 0x0000 = none. -/
def CLK_COND_LAST_CODE : Fld := ⟨(0x10004) * 8 + 0, 16⟩
/-- CLK_OTP.XA_FREQ_KHZ [31:16], RO, reset kept. R450; 0 = no XA. -/
def CLK_OTP_XA_FREQ_KHZ : Fld := ⟨(0x10008) * 8 + 16, 16⟩
/-- CLK_OTP.XA_START_DLY [15:8], RO, reset kept. Code; 0 = 16 ms. -/
def CLK_OTP_XA_START_DLY : Fld := ⟨(0x10008) * 8 + 8, 8⟩
/-- CLK_OTP.XB_START_DLY [7:0], RO, reset kept. Code; 0 = 16 ms. -/
def CLK_OTP_XB_START_DLY : Fld := ⟨(0x10008) * 8 + 0, 8⟩
/-- CLK_RAMP.DWELL [7:0], RW, reset P H S Z. µs, 1 to 255; 0 = no ramp (R459). Reset value 10. -/
def CLK_RAMP_DWELL : Fld := ⟨(0x1000C) * 8 + 0, 8⟩
/-- CLK_GATE_REQ.LINK [8], RW, reset P H S Z. 1 = gate LINK (R461). -/
def CLK_GATE_REQ_LINK : Fld := ⟨(0x10010) * 8 + 8, 1⟩
/-- CLK_GATE_REQ.GNSS_C [5], RW, reset P H S Z. 1 = gate GNSS-C. -/
def CLK_GATE_REQ_GNSS_C : Fld := ⟨(0x10010) * 8 + 5, 1⟩
/-- CLK_GATE_REQ.GNSS_S [4], RW, reset P H S Z. 1 = gate GNSS-S. -/
def CLK_GATE_REQ_GNSS_S : Fld := ⟨(0x10010) * 8 + 4, 1⟩
/-- CLK_GATE_REQ.SOLV [3], RW, reset P H S Z. 1 = gate SOLV. -/
def CLK_GATE_REQ_SOLV : Fld := ⟨(0x10010) * 8 + 3, 1⟩
/-- CLK_FRC_TRIM.CAL_VALID [31], RO, reset P H S Z. 1 = FRC trimmed since its start. -/
def CLK_FRC_TRIM_CAL_VALID : Fld := ⟨(0x10020) * 8 + 31, 1⟩
/-- CLK_FRC_TRIM.CODE [23:16], RO, reset P H S Z. Trim code in use. -/
def CLK_FRC_TRIM_CODE : Fld := ⟨(0x10020) * 8 + 16, 8⟩
/-- CLK_FRC_TRIM.ERR [15:0], RO, reset P H S Z. Last measured FRC error against XA, or XB when no XA is fitted; two's complement, in units of 0.01 %. -/
def CLK_FRC_TRIM_ERR : Fld := ⟨(0x10020) * 8 + 0, 16⟩
/-- CLK_FMEAS_CTRL.GO_BUSY [31], RW, reset P H S W C Z. Write 1 to start; reads 1 until done (R462). -/
def CLK_FMEAS_CTRL_GO_BUSY : Fld := ⟨(0x10014) * 8 + 31, 1⟩
/-- CLK_FMEAS_CTRL.ABORT [30], WO, reset P H S W C Z. 1 = abandon the measurement. -/
def CLK_FMEAS_CTRL_ABORT : Fld := ⟨(0x10014) * 8 + 30, 1⟩
/-- CLK_FMEAS_CTRL.DONE [29], RO, reset P H S W C Z. 1 = COUNT and REFCNT hold a completed measurement. -/
def CLK_FMEAS_CTRL_DONE : Fld := ⟨(0x10014) * 8 + 29, 1⟩
/-- CLK_FMEAS_CTRL.REF [27:24], RW, reset P H S W C Z. Clock code (R462). -/
def CLK_FMEAS_CTRL_REF : Fld := ⟨(0x10014) * 8 + 24, 4⟩
/-- CLK_FMEAS_CTRL.MEAS [23:20], RW, reset P H S W C Z. Clock code. -/
def CLK_FMEAS_CTRL_MEAS : Fld := ⟨(0x10014) * 8 + 20, 4⟩
/-- CLK_FMEAS_CTRL.GATE_MS [9:0], RW, reset P H S W C Z. 1 to 1,000; 0 is refused with CLK ZERO_FIELD. -/
def CLK_FMEAS_CTRL_GATE_MS : Fld := ⟨(0x10014) * 8 + 0, 10⟩
/-- CLK_FMEAS_CNT.COUNT [31:0], RO, reset P H S W C Z. MEAS edges within the gate. -/
def CLK_FMEAS_CNT_COUNT : Fld := ⟨(0x10018) * 8 + 0, 32⟩
/-- CLK_FMEAS_REFCNT.REFCNT [31:0], RO, reset P H S W C Z. REF clocks of the gate. -/
def CLK_FMEAS_REFCNT_REFCNT : Fld := ⟨(0x1001C) * 8 + 0, 32⟩
/-- CLK_PLL_CFG.LOCKED [31], RO, reset P H S Z. Lock detector. -/
def CLK_PLL_CFG_LOCKED (i : Nat) : Fld := ⟨(0x10040 + i * 0x8) * 8 + 31, 1⟩
/-- CLK_PLL_CFG.EN [30], RO, reset P H S Z. 1 = PLL running; 0 in DOZE for PLL-A and PLL-V, and on variants that do not use it. -/
def CLK_PLL_CFG_EN (i : Nat) : Fld := ⟨(0x10040 + i * 0x8) * 8 + 30, 1⟩
/-- CLK_PLL_CFG.POSTDIV [27:24], RO, reset P H S Z. First post-divider, coded as value − 1. -/
def CLK_PLL_CFG_POSTDIV (i : Nat) : Fld := ⟨(0x10040 + i * 0x8) * 8 + 24, 4⟩
/-- CLK_PLL_CFG.N [8:0], RO, reset P H S Z. Integer part of the feedback value (R452). -/
def CLK_PLL_CFG_N (i : Nat) : Fld := ⟨(0x10040 + i * 0x8) * 8 + 0, 9⟩
/-- CLK_PLL_FRAC.FRAC [23:0], RO, reset P H S Z. Fraction, in units of 2^−24. -/
def CLK_PLL_FRAC_FRAC (i : Nat) : Fld := ⟨(0x10044 + i * 0x8) * 8 + 0, 24⟩
/-- CLK_DOM_STS.STATE [31:29], RO, reset P H S Z. 0 = PRIMARY, 1 = RAMPING, 2 = FALLBACK, 3 = FALLBACK_WAIT, 4 = GATED, 5 = OFF, 6 = NO_CLOCK; 7 is not used. -/
def CLK_DOM_STS_STATE (i : Nat) : Fld := ⟨(0x10100 + i * 0x4) * 8 + 29, 3⟩
/-- CLK_DOM_STS.GATE_PEND [28], RO, reset P H S W C Z. 1 = a gate request awaits its handshake (R460). -/
def CLK_DOM_STS_GATE_PEND (i : Nat) : Fld := ⟨(0x10100 + i * 0x4) * 8 + 28, 1⟩
/-- CLK_DOM_STS.BUSY_FAIL [27], W1C, reset P H S Z. 1 = a gate request failed with GATE_BUSY. -/
def CLK_DOM_STS_BUSY_FAIL (i : Nat) : Fld := ⟨(0x10100 + i * 0x4) * 8 + 27, 1⟩
/-- CLK_DOM_STS.RAMP_STEP [26:24], RO, reset P H S Z. Present step, 0 to 7, while RAMPING. -/
def CLK_DOM_STS_RAMP_STEP (i : Nat) : Fld := ⟨(0x10100 + i * 0x4) * 8 + 24, 3⟩
/-- CLK_DOM_STS.TRIP_CNT [15:0], RO, reset P H S Z. Monitor trips on the domain's sources, saturating at 0xFFFF; 0 = none. -/
def CLK_DOM_STS_TRIP_CNT (i : Nat) : Fld := ⟨(0x10100 + i * 0x4) * 8 + 0, 16⟩
/-- RST_CAUSE.CAUSE [5:0], RO, reset kept. Written at each reset with one bit set: bit 0 POR, 1 PIN, 2 SYS, 3 WDT, 4 CAS, 5 SLEEP_EXIT. No other event changes it. -/
def RST_CAUSE_CAUSE : Fld := ⟨(0x20000) * 8 + 0, 6⟩
/-- RST_CTRL.KEY [31:16], WO, reset —. 0x5359 with SYS = 1 (R464). -/
def RST_CTRL_KEY : Fld := ⟨(0x20004) * 8 + 16, 16⟩
/-- RST_CTRL.SYS [0], WO, reset —. 1 = SYS reset. -/
def RST_CTRL_SYS : Fld := ⟨(0x20004) * 8 + 0, 1⟩
/-- RST_PWR_CTRL.SLEEP [2], WO, reset P H S W C Z. R469. -/
def RST_PWR_CTRL_SLEEP : Fld := ⟨(0x20008) * 8 + 2, 1⟩
/-- RST_PWR_CTRL.WAKE [1], WO, reset P H S W C Z. R468. -/
def RST_PWR_CTRL_WAKE : Fld := ⟨(0x20008) * 8 + 1, 1⟩
/-- RST_PWR_CTRL.DOZE [0], WO, reset P H S W C Z. R468. -/
def RST_PWR_CTRL_DOZE : Fld := ⟨(0x20008) * 8 + 0, 1⟩
/-- RST_PWR_STS.STATE [31:29], RO, reset P H S Z. 0 = RUN, 1 = HOLD, 2 = DOZE_ENTERING, 3 = DOZE, 4 = DOZE_EXITING, 5 = SLEEP_ENTERING; 6 and 7 are not used. -/
def RST_PWR_STS_STATE : Fld := ⟨(0x2000C) * 8 + 29, 3⟩
/-- RST_PWR_STS.REFUSED [28], W1C, reset P H S Z. 1 = a power-state request was refused. -/
def RST_PWR_STS_REFUSED : Fld := ⟨(0x2000C) * 8 + 28, 1⟩
/-- RST_CNT.PIN_CNT [31:24], RO, reset P. PIN resets, saturating at 255; 0 = none. -/
def RST_CNT_PIN_CNT : Fld := ⟨(0x20010) * 8 + 24, 8⟩
/-- RST_CNT.SYS_CNT [23:16], RO, reset P. As PIN_CNT, for SYS. -/
def RST_CNT_SYS_CNT : Fld := ⟨(0x20010) * 8 + 16, 8⟩
/-- RST_CNT.WDT_CNT [15:8], RO, reset P. As PIN_CNT, for WDT. -/
def RST_CNT_WDT_CNT : Fld := ⟨(0x20010) * 8 + 8, 8⟩
/-- RST_CNT.CAS_CNT [7:0], RO, reset P. As PIN_CNT, for CAS. -/
def RST_CNT_CAS_CNT : Fld := ⟨(0x20010) * 8 + 0, 8⟩
/-- RST_CNT2.SLEEP_CNT [15:0], RO, reset P. SLEEP exits, saturating at 0xFFFF; 0 = none. -/
def RST_CNT2_SLEEP_CNT : Fld := ⟨(0x20014) * 8 + 0, 16⟩
/-- SEC_STATUS.LIFECYCLE [31:30], RO, reset kept. R477. -/
def SEC_STATUS_LIFECYCLE : Fld := ⟨(0x30000) * 8 + 30, 2⟩
/-- SEC_STATUS.DEBUG_UNLOCKED [29], RO, reset P H S Z. R484. -/
def SEC_STATUS_DEBUG_UNLOCKED : Fld := ⟨(0x30000) * 8 + 29, 1⟩
/-- SEC_STATUS.ENTROPY_OK [28], RO, reset P H S Z. R489. -/
def SEC_STATUS_ENTROPY_OK : Fld := ⟨(0x30000) * 8 + 28, 1⟩
/-- SEC_STATUS.LOCKOUT [27:24], RO, reset P H S Z. Bit p = port p locked out (R487). -/
def SEC_STATUS_LOCKOUT : Fld := ⟨(0x30000) * 8 + 24, 4⟩
/-- SEC_STATUS.SESSIONS [2:0], RO, reset P H S Z. Open sessions, 0 to 4; 0 = none. -/
def SEC_STATUS_SESSIONS : Fld := ⟨(0x30000) * 8 + 0, 3⟩
/-- SEC_COND.LAST_CODE [15:0], RO, reset P H S W C Z. Last SEC condition code reported; 0x0000 = none. -/
def SEC_COND_LAST_CODE : Fld := ⟨(0x30004) * 8 + 0, 16⟩
/-- SEC_EVAL_STS.STATE [31:30], RO, reset P H S Z. 0 = IN, 1 = OUT, 2 = NOT_APPLICABLE; 3 is not used. -/
def SEC_EVAL_STS_STATE : Fld := ⟨(0x30008) * 8 + 30, 2⟩
/-- SEC_EVAL_STS.FIRST [15:8], RO, reset P H S Z. R492; 0 = never out. -/
def SEC_EVAL_STS_FIRST : Fld := ⟨(0x30008) * 8 + 8, 8⟩
/-- SEC_EVAL_STS.REASON [7:0], RO, reset P H S Z. R492; 0 = none. -/
def SEC_EVAL_STS_REASON : Fld := ⟨(0x30008) * 8 + 0, 8⟩
/-- SEC_POLICY.FLAGS [31:24], RWI, reset P H S Z. R482. -/
def SEC_POLICY_FLAGS : Fld := ⟨(0x3000C) * 8 + 24, 8⟩
/-- SEC_POLICY.HC_WRITE [23:16], RWI, reset P H S Z. R482. -/
def SEC_POLICY_HC_WRITE : Fld := ⟨(0x3000C) * 8 + 16, 8⟩
/-- SEC_POLICY.HC_PORTS [15:12], RWI, reset P H S Z. 0 = none. -/
def SEC_POLICY_HC_PORTS : Fld := ⟨(0x3000C) * 8 + 12, 4⟩
/-- SEC_POLICY.SESS_MAX [2:0], RWI, reset P H S Z. 0 = host channel off. -/
def SEC_POLICY_SESS_MAX : Fld := ⟨(0x3000C) * 8 + 0, 3⟩
/-- SEC_CMD.GO_BUSY [31], RW, reset P H S W C Z. Write 1 to start; reads 1 while BUSY (R478). -/
def SEC_CMD_GO_BUSY : Fld := ⟨(0x30010) * 8 + 31, 1⟩
/-- SEC_CMD.DONE [30], W1C, reset P H S W C Z. 1 = a response is ready. -/
def SEC_CMD_DONE : Fld := ⟨(0x30010) * 8 + 30, 1⟩
/-- SEC_CMD.RESULT [7:0], RO, reset P H S W C Z. Low octet of the SEC code; 0 = success. -/
def SEC_CMD_RESULT : Fld := ⟨(0x30010) * 8 + 0, 8⟩
/-- SEC_MINVER.MIN_SECVER [31:0], RO, reset kept. R474. -/
def SEC_MINVER_MIN_SECVER : Fld := ⟨(0x30014) * 8 + 0, 32⟩
/-- SEC_CHALLENGE.CHALLENGE [31:0], RO, reset P H S Z. Octets 4i to 4i + 3, octet 4i in [7:0]. -/
def SEC_CHALLENGE_CHALLENGE (i : Nat) : Fld := ⟨(0x30020 + i * 0x4) * 8 + 0, 32⟩
/-- SEC_DEVFP.DEV_FP [31:0], RO, reset kept. As CHALLENGEi. -/
def SEC_DEVFP_DEV_FP (i : Nat) : Fld := ⟨(0x30030 + i * 0x4) * 8 + 0, 32⟩
/-- SEC_SLOT.STATE [31:30], RO, reset kept. 0 = EMPTY, 1 = VALID, 2 = REVOKED; 3 is not used. -/
def SEC_SLOT_STATE (i : Nat) : Fld := ⟨(0x30040 + i * 0x4) * 8 + 30, 2⟩
/-- SEC_SLOT.PURPOSE [29:27], RO, reset kept. R474; 0 when EMPTY. -/
def SEC_SLOT_PURPOSE (i : Nat) : Fld := ⟨(0x30040 + i * 0x4) * 8 + 27, 3⟩
/-- SEC_SLOT.FP [23:0], RO, reset kept. First 3 octets of SHA-384 of the key; 0 when EMPTY. -/
def SEC_SLOT_FP (i : Nat) : Fld := ⟨(0x30040 + i * 0x4) * 8 + 0, 24⟩
/-- SEC_AUDIT_HEAD.ASEQ [31:0], RO, reset kept. Newest entry. -/
def SEC_AUDIT_HEAD_ASEQ : Fld := ⟨(0x30060) * 8 + 0, 32⟩
/-- SEC_AUDIT_ACK.ASEQ [31:0], RW, reset kept. R491. -/
def SEC_AUDIT_ACK_ASEQ : Fld := ⟨(0x30064) * 8 + 0, 32⟩
/-- SEC_AUDIT_LOST.LOST [31:0], RO, reset kept. Saturating at 0xFFFF_FFFF; 0 = none. -/
def SEC_AUDIT_LOST_LOST : Fld := ⟨(0x30068) * 8 + 0, 32⟩
/-- SEC_AUDIT_RD_ADDR.ENTRY [9:0], RW, reset P H S W C Z. On-die ring index. -/
def SEC_AUDIT_RD_ADDR_ENTRY : Fld := ⟨(0x3006C) * 8 + 0, 10⟩
/-- SEC_AUDIT_RD_DATA.DATA [31:0], RO, reset —. Successive words of the entry; after the eighth, ENTRY increments. -/
def SEC_AUDIT_RD_DATA_DATA : Fld := ⟨(0x30070) * 8 + 0, 32⟩
/-- SEC_SESS.OPEN [31], RO, reset P H S Z. 1 = session open. -/
def SEC_SESS_OPEN (i : Nat) : Fld := ⟨(0x30080 + i * 0x4) * 8 + 31, 1⟩
/-- SEC_SESS.SLOT [30:28], RO, reset P H S Z. HOST slot of the peer. -/
def SEC_SESS_SLOT (i : Nat) : Fld := ⟨(0x30080 + i * 0x4) * 8 + 28, 3⟩
/-- SEC_SESS.PORT [27:26], RO, reset P H S Z. Ethernet port. -/
def SEC_SESS_PORT (i : Nat) : Fld := ⟨(0x30080 + i * 0x4) * 8 + 26, 2⟩
/-- SEC_SESS.SESSION_ID [15:0], RO, reset P H S Z. R486. -/
def SEC_SESS_SESSION_ID (i : Nat) : Fld := ⟨(0x30080 + i * 0x4) * 8 + 0, 16⟩
/-- REC_STATUS.FREEZE_PEND [31], RO, reset P H S Z. R512; kept over W and C (R519). -/
def REC_STATUS_FREEZE_PEND : Fld := ⟨(0x290000) * 8 + 31, 1⟩
/-- REC_STATUS.FROZEN [30], RO, reset P H S Z. 1 = the bank holds a snapshot. -/
def REC_STATUS_FROZEN : Fld := ⟨(0x290000) * 8 + 30, 1⟩
/-- REC_STATUS.LOG_FULL [29], RO, reset P H S Z. R516. -/
def REC_STATUS_LOG_FULL : Fld := ⟨(0x290000) * 8 + 29, 1⟩
/-- REC_CTRL.CLR_LOST [1], WO, reset —. 1 = clear REC_LOG_LOST. -/
def REC_CTRL_CLR_LOST : Fld := ⟨(0x290004) * 8 + 1, 1⟩
/-- REC_CTRL.FREEZE [0], WO, reset P H S W C Z. R512. -/
def REC_CTRL_FREEZE : Fld := ⟨(0x290004) * 8 + 0, 1⟩
/-- REC_COND.LAST_CODE [15:0], RO, reset P H S W C Z. Last REC or BKG condition code; 0x0000 = none. -/
def REC_COND_LAST_CODE : Fld := ⟨(0x290008) * 8 + 0, 16⟩
/-- REC_CFG.NTRK [15:8], RWI, reset P H S Z. 0 to 128; 0 = none. -/
def REC_CFG_NTRK : Fld := ⟨(0x29000C) * 8 + 8, 8⟩
/-- REC_CFG.NHIST [7:0], RWI, reset P H S Z. 0 to 64; 0 = none. -/
def REC_CFG_NHIST : Fld := ⟨(0x29000C) * 8 + 0, 8⟩
/-- REC_FROZEN_CYC.CYC [31:0], RO, reset P H S Z. Cycle of the snapshot; 0xFFFF_FFFF = none. -/
def REC_FROZEN_CYC_CYC : Fld := ⟨(0x290010) * 8 + 0, 32⟩
/-- REC_BANK_SEQ.SEQ [31:0], RO, reset P H S Z. Odd during a copy. -/
def REC_BANK_SEQ_SEQ : Fld := ⟨(0x290014) * 8 + 0, 32⟩
/-- REC_CLR_HIST.CLR [31:0], WO, reset —. Bit = instrument 32·word + bit (R512). -/
def REC_CLR_HIST_CLR (i : Nat) : Fld := ⟨(0x290018 + i * 0x4) * 8 + 0, 32⟩
/-- REC_CLR_TRK.CLR [31:0], WO, reset —. Bit = instrument 32·word + bit (R512). -/
def REC_CLR_TRK_CLR (i : Nat) : Fld := ⟨(0x290020 + i * 0x4) * 8 + 0, 32⟩
/-- REC_LOG_STS.UNMIRRORED [30:16], RO, reset P H S Z. Entries not yet in NAND, 0 to 16,384; 0 = none. -/
def REC_LOG_STS_UNMIRRORED : Fld := ⟨(0x290040) * 8 + 16, 15⟩
/-- REC_LOG_STS.FILL [14:0], RO, reset P H S Z. Entries not free, 0 to 16,384; 0 = empty. -/
def REC_LOG_STS_FILL : Fld := ⟨(0x290040) * 8 + 0, 15⟩
/-- REC_LOG_HEAD.ISEQ [31:0], RO, reset kept. Newest entry; continued under R518. -/
def REC_LOG_HEAD_ISEQ : Fld := ⟨(0x290044) * 8 + 0, 32⟩
/-- REC_LOG_ACK.ISEQ [31:0], RW, reset P H S Z. R517. -/
def REC_LOG_ACK_ISEQ : Fld := ⟨(0x290048) * 8 + 0, 32⟩
/-- REC_LOG_LOST.LOST [31:0], RO, reset kept. R516; saturating; 0 = none. -/
def REC_LOG_LOST_LOST : Fld := ⟨(0x29004C) * 8 + 0, 32⟩
/-- REC_LOG_RD_ADDR.ENTRY [13:0], RW, reset P H S W C Z. ISEQ mod 16,384. -/
def REC_LOG_RD_ADDR_ENTRY : Fld := ⟨(0x290050) * 8 + 0, 14⟩
/-- REC_LOG_RD_DATA.DATA [31:0], RO, reset —. Successive words; after the eighth, ENTRY increments. -/
def REC_LOG_RD_DATA_DATA : Fld := ⟨(0x290054) * 8 + 0, 32⟩
/-- REC_LOG_MIRROR.ISEQ [31:0], RO, reset kept. Newest entry copied to NAND. -/
def REC_LOG_MIRROR_ISEQ : Fld := ⟨(0x290058) * 8 + 0, 32⟩
/-- REC_EVT.LOG_HALF [2], W1C, reset P H S W C Z. FILL reached 8,192. -/
def REC_EVT_LOG_HALF : Fld := ⟨(0x290060) * 8 + 2, 1⟩
/-- REC_EVT.LOG_FULL [1], W1C, reset P H S W C Z. R516. -/
def REC_EVT_LOG_FULL : Fld := ⟨(0x290060) * 8 + 1, 1⟩
/-- REC_EVT.FREEZE_DONE [0], W1C, reset P H S W C Z. R512. -/
def REC_EVT_FREEZE_DONE : Fld := ⟨(0x290060) * 8 + 0, 1⟩
/-- REC_EVT_EN.LOG_HALF [2], RW, reset P H S W C Z. FILL reached 8,192. -/
def REC_EVT_EN_LOG_HALF : Fld := ⟨(0x290064) * 8 + 2, 1⟩
/-- REC_EVT_EN.LOG_FULL [1], RW, reset P H S W C Z. R516. -/
def REC_EVT_EN_LOG_FULL : Fld := ⟨(0x290064) * 8 + 1, 1⟩
/-- REC_EVT_EN.FREEZE_DONE [0], RW, reset P H S W C Z. R512. -/
def REC_EVT_EN_FREEZE_DONE : Fld := ⟨(0x290064) * 8 + 0, 1⟩
/-- REC_HIST_CFG.SRC [31:24], RWI, reset P H S Z. R507; 0 = instrument undefined. -/
def REC_HIST_CFG_SRC (i : Nat) : Fld := ⟨(0x291000 + i * 0x20) * 8 + 24, 8⟩
/-- REC_HIST_CFG.ARG [23:8], RWI, reset P H S Z. R507. -/
def REC_HIST_CFG_ARG (i : Nat) : Fld := ⟨(0x291000 + i * 0x20) * 8 + 8, 16⟩
/-- REC_HIST_CFG.BINS [7:0], RWI, reset P H S Z. Histograms: BINS − 1; trackers: 0. -/
def REC_HIST_CFG_BINS (i : Nat) : Fld := ⟨(0x291000 + i * 0x20) * 8 + 0, 8⟩
/-- REC_TRK_CFG.SRC [31:24], RWI, reset P H S Z. R507; 0 = instrument undefined. -/
def REC_TRK_CFG_SRC (i : Nat) : Fld := ⟨(0x292000 + i * 0x40) * 8 + 24, 8⟩
/-- REC_TRK_CFG.ARG [23:8], RWI, reset P H S Z. R507. -/
def REC_TRK_CFG_ARG (i : Nat) : Fld := ⟨(0x292000 + i * 0x40) * 8 + 8, 16⟩
/-- REC_TRK_CFG.BINS [7:0], RWI, reset P H S Z. Histograms: BINS − 1; trackers: 0. -/
def REC_TRK_CFG_BINS (i : Nat) : Fld := ⟨(0x292000 + i * 0x40) * 8 + 0, 8⟩
/-- REC_HIST_LO.LIMIT [31:0], RWI, reset P H S Z. binary32 (R506). -/
def REC_HIST_LO_LIMIT (i : Nat) : Fld := ⟨(0x291004 + i * 0x20) * 8 + 0, 32⟩
/-- REC_HIST_HI.LIMIT [31:0], RWI, reset P H S Z. binary32 (R506). -/
def REC_HIST_HI_LIMIT (i : Nat) : Fld := ⟨(0x291008 + i * 0x20) * 8 + 0, 32⟩
/-- REC_HIST_SEQ.SEQ [31:0], RO, reset P H S Z. R511. -/
def REC_HIST_SEQ_SEQ (i : Nat) : Fld := ⟨(0x29100C + i * 0x20) * 8 + 0, 32⟩
/-- REC_TRK_SEQ.SEQ [31:0], RO, reset P H S Z. R511. -/
def REC_TRK_SEQ_SEQ (i : Nat) : Fld := ⟨(0x292004 + i * 0x40) * 8 + 0, 32⟩
/-- REC_HIST_UNDER.COUNT [31:0], RO, reset P H S Z. R508, R509; 0 = none. -/
def REC_HIST_UNDER_COUNT (i : Nat) : Fld := ⟨(0x291010 + i * 0x20) * 8 + 0, 32⟩
/-- REC_HIST_OVER.COUNT [31:0], RO, reset P H S Z. R508, R509; 0 = none. -/
def REC_HIST_OVER_COUNT (i : Nat) : Fld := ⟨(0x291014 + i * 0x20) * 8 + 0, 32⟩
/-- REC_HIST_INVALID.COUNT [31:0], RO, reset P H S Z. R508, R509; 0 = none. -/
def REC_HIST_INVALID_COUNT (i : Nat) : Fld := ⟨(0x291018 + i * 0x20) * 8 + 0, 32⟩
/-- REC_HIST_MISSED.COUNT [31:0], RO, reset P H S Z. R508, R509; 0 = none. -/
def REC_HIST_MISSED_COUNT (i : Nat) : Fld := ⟨(0x29101C + i * 0x20) * 8 + 0, 32⟩
/-- REC_TRK_MIN.VALUE [31:0], RO, reset P H S Z. binary32 (R510). -/
def REC_TRK_MIN_VALUE (i : Nat) : Fld := ⟨(0x292008 + i * 0x40) * 8 + 0, 32⟩
/-- REC_TRK_MAX.VALUE [31:0], RO, reset P H S Z. binary32 (R510). -/
def REC_TRK_MAX_VALUE (i : Nat) : Fld := ⟨(0x29201C + i * 0x40) * 8 + 0, 32⟩
/-- REC_TRK_MIN_CYC.CYC [31:0], RO, reset P H S Z. Cycle of the extreme. -/
def REC_TRK_MIN_CYC_CYC (i : Nat) : Fld := ⟨(0x29200C + i * 0x40) * 8 + 0, 32⟩
/-- REC_TRK_MAX_CYC.CYC [31:0], RO, reset P H S Z. Cycle of the extreme. -/
def REC_TRK_MAX_CYC_CYC (i : Nat) : Fld := ⟨(0x292020 + i * 0x40) * 8 + 0, 32⟩
/-- REC_TRK_COUNT.COUNT [31:0], RO, reset P H S Z. Valid samples, saturating; 0 = none. -/
def REC_TRK_COUNT_COUNT (i : Nat) : Fld := ⟨(0x292030 + i * 0x40) * 8 + 0, 32⟩
/-- BKG_STATUS.TEMP_WARN [31], RO, reset P H S Z. R500. -/
def BKG_STATUS_TEMP_WARN : Fld := ⟨(0x2A0000) * 8 + 31, 1⟩
/-- BKG_STATUS.TEMP_HIGH [30], RO, reset P H S Z. R500. -/
def BKG_STATUS_TEMP_HIGH : Fld := ⟨(0x2A0000) * 8 + 30, 1⟩
/-- BKG_STATUS.SPARES_LOW [29], RO, reset P H S Z. R502. -/
def BKG_STATUS_SPARES_LOW : Fld := ⟨(0x2A0000) * 8 + 29, 1⟩
/-- BKG_STATUS.MOWER_LATE [28], W1C, reset P H S Z. R497. -/
def BKG_STATUS_MOWER_LATE : Fld := ⟨(0x2A0000) * 8 + 28, 1⟩
/-- BKG_COND.LAST_CODE [15:0], RO, reset P H S W C Z. Last BKG condition code; 0x0000 = none. -/
def BKG_COND_LAST_CODE : Fld := ⟨(0x2A0004) * 8 + 0, 16⟩
/-- BKG_SHARE.SHARE [15:0], RO, reset P H S Z. 0.01 %, at most 300 (R496). -/
def BKG_SHARE_SHARE : Fld := ⟨(0x2A0008) * 8 + 0, 16⟩
/-- BKG_MOWER.SKIPPED [31:24], RO, reset P H S Z. Memories passed over in the last pass (R498); 0 = none. -/
def BKG_MOWER_SKIPPED : Fld := ⟨(0x2A000C) * 8 + 24, 8⟩
/-- BKG_MOWER.PASS_MS [23:12], RO, reset P H S Z. Duration of the last pass, ms. -/
def BKG_MOWER_PASS_MS : Fld := ⟨(0x2A000C) * 8 + 12, 12⟩
/-- BKG_MOWER.PASSES [11:0], RO, reset P H S Z. Completed passes, wrapping at 2^12. -/
def BKG_MOWER_PASSES : Fld := ⟨(0x2A000C) * 8 + 0, 12⟩
/-- BKG_TEMP.MAX [31:16], RO, reset P H S Z. Highest reading, two's complement, 0.25 °C. -/
def BKG_TEMP_MAX : Fld := ⟨(0x2A0010) * 8 + 16, 16⟩
/-- BKG_TEMP.NOW [15:0], RO, reset P H S Z. Last reading, as MAX. -/
def BKG_TEMP_NOW : Fld := ⟨(0x2A0010) * 8 + 0, 16⟩
/-- BKG_NAND_GEOM.BLOCKS [31:8], RO, reset P H S Z. Managed blocks; 0 = no NAND. -/
def BKG_NAND_GEOM_BLOCKS : Fld := ⟨(0x2A0014) * 8 + 8, 24⟩
/-- BKG_NAND_GEOM.PAGE_KIB [7:0], RO, reset P H S Z. Page size, KiB. -/
def BKG_NAND_GEOM_PAGE_KIB : Fld := ⟨(0x2A0014) * 8 + 0, 8⟩
/-- BKG_NAND_STS.BAD [31:16], RO, reset P H S Z. Blocks mapped out. -/
def BKG_NAND_STS_BAD : Fld := ⟨(0x2A0018) * 8 + 16, 16⟩
/-- BKG_NAND_STS.SPARE [15:0], RO, reset P H S Z. Spare blocks left; 0 = none. -/
def BKG_NAND_STS_SPARE : Fld := ⟨(0x2A0018) * 8 + 0, 16⟩
/-- BKG_NAND_WEAR.MAX_ERASE [31:16], RO, reset P H S Z. Highest erase count, saturating. -/
def BKG_NAND_WEAR_MAX_ERASE : Fld := ⟨(0x2A001C) * 8 + 16, 16⟩
/-- BKG_NAND_WEAR.MIN_ERASE [15:0], RO, reset P H S Z. Lowest erase count. -/
def BKG_NAND_WEAR_MIN_ERASE : Fld := ⟨(0x2A001C) * 8 + 0, 16⟩
/-- BKG_NAND_REFRESH.DONE [31:16], RO, reset P H S Z. Blocks refreshed, wrapping at 2^16. -/
def BKG_NAND_REFRESH_DONE : Fld := ⟨(0x2A0020) * 8 + 16, 16⟩
/-- BKG_NAND_REFRESH.QUEUED [15:0], RO, reset P H S Z. Blocks waiting; 0 = none. -/
def BKG_NAND_REFRESH_QUEUED : Fld := ⟨(0x2A0020) * 8 + 0, 16⟩
/-- BKG_SERDES.PCIE [8], RO, reset P H S Z. 1 = adaptation converged. -/
def BKG_SERDES_PCIE : Fld := ⟨(0x2A0024) * 8 + 8, 1⟩
/-- BKG_SERDES.PISTE [5:4], RO, reset P H S Z. Bit per port, A then B. -/
def BKG_SERDES_PISTE : Fld := ⟨(0x2A0024) * 8 + 4, 2⟩
/-- BKG_SERDES.NET [3:0], RO, reset P H S Z. Bit p = port p. -/
def BKG_SERDES_NET : Fld := ⟨(0x2A0024) * 8 + 0, 4⟩
/-- GLB_ID.FAMILY [31:8], RO, reset kept. 0x47_4B39 (octets "GK9"). -/
def GLB_ID_FAMILY : Fld := ⟨(0x0) * 8 + 8, 24⟩
/-- GLB_ID.MAP_MAJOR [7:0], RO, reset kept. Highest implemented register-map major; 4. -/
def GLB_ID_MAP_MAJOR : Fld := ⟨(0x0) * 8 + 0, 8⟩
/-- GLB_UID_LO.UID [31:0], RO, reset kept. 64-bit die number; read under R12. -/
def GLB_UID_LO_UID : Fld := ⟨(0x8) * 8 + 0, 32⟩
/-- GLB_UID_HI.UID [31:0], RO, reset kept. 64-bit die number; read under R12. -/
def GLB_UID_HI_UID : Fld := ⟨(0xC) * 8 + 0, 32⟩
/-- GLB_STRAP.MASTER_EN [3], RO, reset P H S Z. Level sampled at release. -/
def GLB_STRAP_MASTER_EN : Fld := ⟨(0x10) * 8 + 3, 1⟩
/-- GLB_STRAP.BOOT [2:0], RO, reset P H S Z. BOOT[2:0] sampled (R74). -/
def GLB_STRAP_BOOT : Fld := ⟨(0x10) * 8 + 0, 3⟩
/-- GLB_SUMMARY.IMG_STATE [31:30], RO, reset —. IMG_STATUS.STATE. -/
def GLB_SUMMARY_IMG_STATE : Fld := ⟨(0x14) * 8 + 30, 2⟩
/-- GLB_SUMMARY.SEQ_STATE [29:28], RO, reset —. SEQ_STATUS.STATE. -/
def GLB_SUMMARY_SEQ_STATE : Fld := ⟨(0x14) * 8 + 28, 2⟩
/-- GLB_SUMMARY.PWR_STATE [27:25], RO, reset —. RST_PWR_STS.STATE. -/
def GLB_SUMMARY_PWR_STATE : Fld := ⟨(0x14) * 8 + 25, 3⟩
/-- GLB_SUMMARY.FAIL_SILENT [24], RO, reset —. ERR_STATUS.FAIL_SILENT. -/
def GLB_SUMMARY_FAIL_SILENT : Fld := ⟨(0x14) * 8 + 24, 1⟩
/-- GLB_SUMMARY.ROLE [23:21], RO, reset —. RED_STATUS.ROLE. -/
def GLB_SUMMARY_ROLE : Fld := ⟨(0x14) * 8 + 21, 3⟩
/-- GLB_SUMMARY.TIME_STATE [20:18], RO, reset —. TIM_QUAL.STATE. -/
def GLB_SUMMARY_TIME_STATE : Fld := ⟨(0x14) * 8 + 18, 3⟩
/-- GLB_SUMMARY.EVAL [17:16], RO, reset —. SEC_EVAL_STS.STATE. -/
def GLB_SUMMARY_EVAL : Fld := ⟨(0x14) * 8 + 16, 2⟩
/-- GLB_SUMMARY.SAF_CFG [15], RO, reset —. SAF_STATUS.CONFIGURED. -/
def GLB_SUMMARY_SAF_CFG : Fld := ⟨(0x14) * 8 + 15, 1⟩
/-- GLB_SUMMARY.OUT_OF_STEP [14], RO, reset —. PST_STATUS.OUT_OF_STEP. -/
def GLB_SUMMARY_OUT_OF_STEP : Fld := ⟨(0x14) * 8 + 14, 1⟩
/-- GLB_SCRATCH.VALUE [31:0], RW, reset P H S Z. Free for host software. -/
def GLB_SCRATCH_VALUE : Fld := ⟨(0x18) * 8 + 0, 32⟩
/-- HST_STATUS.LINK_UP [31], RO, reset P H S Z. 1 = PCIe link up. -/
def HST_STATUS_LINK_UP : Fld := ⟨(0x2B0000) * 8 + 31, 1⟩
/-- HST_STATUS.GEN [30:28], RO, reset P H S Z. 1 to 3; 0 = no link. -/
def HST_STATUS_GEN : Fld := ⟨(0x2B0000) * 8 + 28, 3⟩
/-- HST_STATUS.WIDTH [27:26], RO, reset P H S Z. 1 or 2; 0 = no link. -/
def HST_STATUS_WIDTH : Fld := ⟨(0x2B0000) * 8 + 26, 2⟩
/-- HST_STATUS.QSPI_OK [25], RO, reset P H S Z. 1 = R526 permits QSPI writes. -/
def HST_STATUS_QSPI_OK : Fld := ⟨(0x2B0000) * 8 + 25, 1⟩
/-- HST_COND.LAST_CODE [15:0], RO, reset P H S W C Z. Last HST condition code reported; 0x0000 = none. -/
def HST_COND_LAST_CODE : Fld := ⟨(0x2B0004) * 8 + 0, 16⟩
/-- HST_ERR.PATH [31:30], RO, reset P H S W C Z. 0 = PCIe, 1 = QSPI, 2 = session (R543). -/
def HST_ERR_PATH : Fld := ⟨(0x2B0014) * 8 + 30, 2⟩
/-- HST_ERR.OFS [23:0], RO, reset P H S W C Z. BAR0 offset, or BAR2 offset for BAR2 codes. -/
def HST_ERR_OFS : Fld := ⟨(0x2B0014) * 8 + 0, 24⟩
/-- HST_SRC_PEND_LO.PEND [31:0], W1C (edge), RO (level), reset P H S Z. Sources 0 to 31 (R537). -/
def HST_SRC_PEND_LO_PEND : Fld := ⟨(0x2B0020) * 8 + 0, 32⟩
/-- HST_SRC_PEND_HI.PEND [6:0], W1C (edge), RO (level), reset P H S Z. Sources 32 to 38. -/
def HST_SRC_PEND_HI_PEND : Fld := ⟨(0x2B0024) * 8 + 0, 7⟩
/-- HST_VEC_STS.ASSERTED [31:0], RO, reset P H S Z. Bit v = vector v asserted (R538). -/
def HST_VEC_STS_ASSERTED : Fld := ⟨(0x2B0030) * 8 + 0, 32⟩
/-- HST_MBX_OUT.GO_BUSY [31], RW, reset P H S Z. Write 1 to send; reads 1 until RESULT. -/
def HST_MBX_OUT_GO_BUSY (i : Nat) : Fld := ⟨(0x2B0040 + i * 0x4) * 8 + 31, 1⟩
/-- HST_MBX_OUT.RESULT [30:28], RO, reset P H S Z. 0 = none, 1 = DELIVERED, 2 = NO_ROUTE, 3 = NO_SPACE, 4 = TIMEOUT; 5 to 7 are not used. -/
def HST_MBX_OUT_RESULT (i : Nat) : Fld := ⟨(0x2B0040 + i * 0x4) * 8 + 28, 3⟩
/-- HST_MBX_OUT.LEN [23:14], RW, reset P H S Z. Octets, 1 to 1,008; 0 is refused with HST ZERO_FIELD. -/
def HST_MBX_OUT_LEN (i : Nat) : Fld := ⟨(0x2B0040 + i * 0x4) * 8 + 14, 10⟩
/-- HST_MBX_OUT.DST [13:0], RW, reset P H S Z. Cascade address. -/
def HST_MBX_OUT_DST (i : Nat) : Fld := ⟨(0x2B0040 + i * 0x4) * 8 + 0, 14⟩
/-- HST_MBX_IN_STS.FULL [3:0], W1C, reset P H S Z. Bit m = inbound mailbox m holds a message; 1 written frees it. -/
def HST_MBX_IN_STS_FULL : Fld := ⟨(0x2B0050) * 8 + 0, 4⟩
/-- HST_MBX_IN.LEN [23:14], RO, reset P H S Z. Octets; 0 = empty. -/
def HST_MBX_IN_LEN (i : Nat) : Fld := ⟨(0x2B0054 + i * 0x4) * 8 + 14, 10⟩
/-- HST_MBX_IN.SRC [13:0], RO, reset P H S Z. Sender's cascade address. -/
def HST_MBX_IN_SRC (i : Nat) : Fld := ⟨(0x2B0054 + i * 0x4) * 8 + 0, 14⟩
/-- HST_SRC_ROUTE.EN [31], RW, reset P H S Z. 1 = source enabled (R538); kept over W and C. -/
def HST_SRC_ROUTE_EN (i : Nat) : Fld := ⟨(0x2B0100 + i * 0x4) * 8 + 31, 1⟩
/-- HST_SRC_ROUTE.IRQ [9:8], RW, reset P H S Z. 0 = no ball, 1 = IRQ0_N, 2 = IRQ1_N, 3 = both. -/
def HST_SRC_ROUTE_IRQ (i : Nat) : Fld := ⟨(0x2B0100 + i * 0x4) * 8 + 8, 2⟩
/-- HST_SRC_ROUTE.VECTOR [4:0], RW, reset P H S Z. MSI-X vector, 0 to 31. -/
def HST_SRC_ROUTE_VECTOR (i : Nat) : Fld := ⟨(0x2B0100 + i * 0x4) * 8 + 0, 5⟩
/-- HST_VEC_HOLD.HOLD [15:0], RW, reset P H S Z. µs, 0 to 65,535; 0 = no holdoff (R539). -/
def HST_VEC_HOLD_HOLD (i : Nat) : Fld := ⟨(0x2B0200 + i * 0x4) * 8 + 0, 16⟩
/-- SEQ_LAST_COMMIT.LAST_COMMIT [31:0], RO, reset P H S Z.  -/
def SEQ_LAST_COMMIT_LAST_COMMIT : Fld := ⟨(0x5001C) * 8 + 0, 32⟩
/-- SEQ_MISS_CNT.MISS_CNT [31:0], RO, reset P H S Z.  -/
def SEQ_MISS_CNT_MISS_CNT : Fld := ⟨(0x50020) * 8 + 0, 32⟩
/-- SEQ_SP_TAKEN.TAKEN [31:0], RO, reset P H S W C Z.  -/
def SEQ_SP_TAKEN_TAKEN : Fld := ⟨(0x5003C) * 8 + 0, 32⟩
/-- SEQ_SP_PEND.VALUE [31:0], RW, reset P H S W C Z.  -/
def SEQ_SP_PEND_VALUE (i : Nat) : Fld := ⟨(0x50040 + i * 0x4) * 8 + 0, 32⟩
/-- SEQ_SP_ACT.VALUE [31:0], RO, reset P H S Z.  -/
def SEQ_SP_ACT_VALUE (i : Nat) : Fld := ⟨(0x50080 + i * 0x4) * 8 + 0, 32⟩
/-- SEQ_STG_START.VALUE [20:0], RWI, reset P H S Z. R23 image value -/
def SEQ_STG_START_VALUE (i : Nat) : Fld := ⟨(0x50110 + i * 0x10) * 8 + 0, 21⟩
/-- SEQ_STG_BUDGET.VALUE [20:0], RWI, reset P H S Z. R23 image value -/
def SEQ_STG_BUDGET_VALUE (i : Nat) : Fld := ⟨(0x50114 + i * 0x10) * 8 + 0, 21⟩
/-- SEQ_STG_DEADLINE.VALUE [20:0], RWI, reset P H S Z. R23 image value -/
def SEQ_STG_DEADLINE_VALUE (i : Nat) : Fld := ⟨(0x50118 + i * 0x10) * 8 + 0, 21⟩
/-- IMG_REJECT.SECTION [31:16], RO, reset P H S Z.  -/
def IMG_REJECT_SECTION : Fld := ⟨(0x40008) * 8 + 16, 16⟩
/-- IMG_REJECT.CODE [15:0], RO, reset P H S Z.  -/
def IMG_REJECT_CODE : Fld := ⟨(0x40008) * 8 + 0, 16⟩
/-- IMG_REJECT_OFS.OFFSET [31:0], RO, reset P H S Z.  -/
def IMG_REJECT_OFS_OFFSET : Fld := ⟨(0x4000C) * 8 + 0, 32⟩
/-- IMG_ID_LO.ID [31:0], RO, reset P H S Z.  -/
def IMG_ID_LO_ID : Fld := ⟨(0x40010) * 8 + 0, 32⟩
/-- IMG_ID_HI.ID [31:0], RO, reset P H S Z.  -/
def IMG_ID_HI_ID : Fld := ⟨(0x40014) * 8 + 0, 32⟩
/-- IMG_FORMAT.MAJOR [31:16], RO, reset P H S Z.  -/
def IMG_FORMAT_MAJOR : Fld := ⟨(0x40018) * 8 + 16, 16⟩
/-- IMG_FORMAT.MINOR [15:0], RO, reset P H S Z.  -/
def IMG_FORMAT_MINOR : Fld := ⟨(0x40018) * 8 + 0, 16⟩
/-- IMG_SECVER.VALUE [31:0], RO, reset P H S Z.  -/
def IMG_SECVER_VALUE : Fld := ⟨(0x4001C) * 8 + 0, 32⟩
/-- IMG_COMPOSER.VALUE [31:0], RO, reset P H S Z.  -/
def IMG_COMPOSER_VALUE : Fld := ⟨(0x40020) * 8 + 0, 32⟩
/-- IMG_DIGEST.VALUE [31:0], RO, reset P H S Z.  -/
def IMG_DIGEST_VALUE (i : Nat) : Fld := ⟨(0x40080 + i * 0x4) * 8 + 0, 32⟩
/-- IMG_FUNC_STOP.NET [19:16], WO, reset P H S W C Z.  -/
def IMG_FUNC_STOP_NET : Fld := ⟨(0x40030) * 8 + 16, 4⟩
/-- IMG_FUNC_STOP.CAN [15:8], WO, reset P H S W C Z.  -/
def IMG_FUNC_STOP_CAN : Fld := ⟨(0x40030) * 8 + 8, 8⟩
/-- IMG_FUNC_STOP.CORE [5:0], WO, reset P H S W C Z.  -/
def IMG_FUNC_STOP_CORE : Fld := ⟨(0x40030) * 8 + 0, 6⟩
/-- IMG_FUNC_RESTART.NET [19:16], WO, reset P H S W C Z.  -/
def IMG_FUNC_RESTART_NET : Fld := ⟨(0x40034) * 8 + 16, 4⟩
/-- IMG_FUNC_RESTART.CAN [15:8], WO, reset P H S W C Z.  -/
def IMG_FUNC_RESTART_CAN : Fld := ⟨(0x40034) * 8 + 8, 8⟩
/-- IMG_FUNC_RESTART.CORE [5:0], WO, reset P H S W C Z.  -/
def IMG_FUNC_RESTART_CORE : Fld := ⟨(0x40034) * 8 + 0, 6⟩
/-- IMG_FUNC_STATE.NET [19:16], RO, reset P H S W C Z.  -/
def IMG_FUNC_STATE_NET : Fld := ⟨(0x40038) * 8 + 16, 4⟩
/-- IMG_FUNC_STATE.CAN [15:8], RO, reset P H S W C Z.  -/
def IMG_FUNC_STATE_CAN : Fld := ⟨(0x40038) * 8 + 8, 8⟩
/-- IMG_FUNC_STATE.CORE [5:0], RO, reset P H S W C Z.  -/
def IMG_FUNC_STATE_CORE : Fld := ⟨(0x40038) * 8 + 0, 6⟩
/-- IMG_FUNC_PEND.NET [19:16], RO, reset P H S W C Z.  -/
def IMG_FUNC_PEND_NET : Fld := ⟨(0x4003C) * 8 + 16, 4⟩
/-- IMG_FUNC_PEND.CAN [15:8], RO, reset P H S W C Z.  -/
def IMG_FUNC_PEND_CAN : Fld := ⟨(0x4003C) * 8 + 8, 8⟩
/-- IMG_FUNC_PEND.CORE [5:0], RO, reset P H S W C Z.  -/
def IMG_FUNC_PEND_CORE : Fld := ⟨(0x4003C) * 8 + 0, 6⟩
/-- FLT_TH_LEVEL.VALUE [31:0], RWL, reset P H S Z.  -/
def FLT_TH_LEVEL_VALUE (i : Nat) (j : Nat) : Fld := ⟨(0x62000 + i * 0x20 + j * 0x10) * 8 + 0, 32⟩
/-- FLT_TH_HYST.VALUE [31:0], RWL, reset P H S Z.  -/
def FLT_TH_HYST_VALUE (i : Nat) (j : Nat) : Fld := ⟨(0x62004 + i * 0x20 + j * 0x10) * 8 + 0, 32⟩
/-- FLT_COEF.VALUE [31:0], RWL, reset P H S Z.  -/
def FLT_COEF_VALUE (i : Nat) : Fld := ⟨(0x64000 + i * 0x4) * 8 + 0, 32⟩
/-- INT_SLOT_VAL.VALUE [31:0], RO, reset P H S Z.  -/
def INT_SLOT_VAL_VALUE (i : Nat) (j : Nat) : Fld := ⟨(0x6D000 + i * 0x20 + j * 0x4) * 8 + 0, 32⟩
/-- INT_SLOT_ARRIVAL.TIME [31:0], RO, reset P H S Z.  -/
def INT_SLOT_ARRIVAL_TIME (i : Nat) (j : Nat) : Fld := ⟨(0x6D010 + i * 0x20 + j * 0x4) * 8 + 0, 32⟩
/-- REF_MED_POS.VALUE [31:0], RWL, reset P H S Z.  -/
def REF_MED_POS_VALUE : Fld := ⟨(0x70010) * 8 + 0, 32⟩
/-- REF_MED_HDG.VALUE [31:0], RWL, reset P H S Z.  -/
def REF_MED_HDG_VALUE : Fld := ⟨(0x70014) * 8 + 0, 32⟩
/-- REF_VAR_POS.VALUE [31:0], RWL, reset P H S Z.  -/
def REF_VAR_POS_VALUE : Fld := ⟨(0x70018) * 8 + 0, 32⟩
/-- REF_VAR_HDG.VALUE [31:0], RWL, reset P H S Z.  -/
def REF_VAR_HDG_VALUE : Fld := ⟨(0x7001C) * 8 + 0, 32⟩
/-- REF_DRIFT_POS.VALUE [31:0], RWL, reset P H S Z.  -/
def REF_DRIFT_POS_VALUE : Fld := ⟨(0x70020) * 8 + 0, 32⟩
/-- REF_DRIFT_HDG.VALUE [31:0], RWL, reset P H S Z.  -/
def REF_DRIFT_HDG_VALUE : Fld := ⟨(0x70024) * 8 + 0, 32⟩
/-- REF_SIGMA_MIN_POS.VALUE [31:0], RWL, reset P H S Z.  -/
def REF_SIGMA_MIN_POS_VALUE : Fld := ⟨(0x70028) * 8 + 0, 32⟩
/-- REF_SIGMA_MIN_HDG.VALUE [31:0], RWL, reset P H S Z.  -/
def REF_SIGMA_MIN_HDG_VALUE : Fld := ⟨(0x7002C) * 8 + 0, 32⟩
/-- REF_SIGMA0_POS.VALUE [31:0], RWL, reset P H S Z.  -/
def REF_SIGMA0_POS_VALUE : Fld := ⟨(0x70030) * 8 + 0, 32⟩
/-- REF_SIGMA0_HDG.VALUE [31:0], RWL, reset P H S Z.  -/
def REF_SIGMA0_HDG_VALUE : Fld := ⟨(0x70034) * 8 + 0, 32⟩
/-- REF_BETA_V.VALUE [31:0], RWL, reset P H S Z.  -/
def REF_BETA_V_VALUE : Fld := ⟨(0x70038) * 8 + 0, 32⟩
/-- REF_BETA_D.VALUE [31:0], RWL, reset P H S Z.  -/
def REF_BETA_D_VALUE : Fld := ⟨(0x7003C) * 8 + 0, 32⟩
/-- REF_FROZEN_T.VALUE [31:0], RWL, reset P H S Z.  -/
def REF_FROZEN_T_VALUE : Fld := ⟨(0x70040) * 8 + 0, 32⟩
/-- REF_REACCEPT.VALUE [7:0], RWL, reset P H S Z.  -/
def REF_REACCEPT_VALUE : Fld := ⟨(0x70044) * 8 + 0, 8⟩
/-- GNS_PVT_N.VALUE [31:0], RO, reset P H S Z.  -/
def GNS_PVT_N_VALUE : Fld := ⟨(0x180044) * 8 + 0, 32⟩
/-- GNS_PVT_E.VALUE [31:0], RO, reset P H S Z.  -/
def GNS_PVT_E_VALUE : Fld := ⟨(0x180048) * 8 + 0, 32⟩
/-- GNS_PVT_D.VALUE [31:0], RO, reset P H S Z.  -/
def GNS_PVT_D_VALUE : Fld := ⟨(0x18004C) * 8 + 0, 32⟩
/-- GNS_PVT_SIGH.VALUE [31:0], RO, reset P H S Z.  -/
def GNS_PVT_SIGH_VALUE : Fld := ⟨(0x180050) * 8 + 0, 32⟩
/-- GNS_PVT_CLK.VALUE [31:0], RO, reset P H S Z.  -/
def GNS_PVT_CLK_VALUE : Fld := ⟨(0x180054) * 8 + 0, 32⟩
/-- GNS_PVT_VN.VALUE [31:0], RO, reset P H S Z.  -/
def GNS_PVT_VN_VALUE : Fld := ⟨(0x180058) * 8 + 0, 32⟩
/-- GNS_PVT_VE.VALUE [31:0], RO, reset P H S Z.  -/
def GNS_PVT_VE_VALUE : Fld := ⟨(0x18005C) * 8 + 0, 32⟩
/-- GNS_PVT_VD.VALUE [31:0], RO, reset P H S Z.  -/
def GNS_PVT_VD_VALUE : Fld := ⟨(0x180060) * 8 + 0, 32⟩
/-- GNS_ATT_HDG.VALUE [31:0], RO, reset P H S Z.  -/
def GNS_ATT_HDG_VALUE : Fld := ⟨(0x180084) * 8 + 0, 32⟩
/-- GNS_ATT_PITCH.VALUE [31:0], RO, reset P H S Z.  -/
def GNS_ATT_PITCH_VALUE : Fld := ⟨(0x180088) * 8 + 0, 32⟩
/-- GNS_ATT_ROLL.VALUE [31:0], RO, reset P H S Z.  -/
def GNS_ATT_ROLL_VALUE : Fld := ⟨(0x18008C) * 8 + 0, 32⟩
/-- GNS_ATT_SIGH.VALUE [31:0], RO, reset P H S Z.  -/
def GNS_ATT_SIGH_VALUE : Fld := ⟨(0x180090) * 8 + 0, 32⟩
/-- OCE_EST_N.VALUE [31:0], RO, reset P H S Z.  -/
def OCE_EST_N_VALUE : Fld := ⟨(0x80020) * 8 + 0, 32⟩
/-- OCE_EST_E.VALUE [31:0], RO, reset P H S Z.  -/
def OCE_EST_E_VALUE : Fld := ⟨(0x80024) * 8 + 0, 32⟩
/-- OCE_EST_HDG.VALUE [31:0], RO, reset P H S Z.  -/
def OCE_EST_HDG_VALUE : Fld := ⟨(0x80028) * 8 + 0, 32⟩
/-- OCE_EST_U.VALUE [31:0], RO, reset P H S Z.  -/
def OCE_EST_U_VALUE : Fld := ⟨(0x8002C) * 8 + 0, 32⟩
/-- OCE_EST_V.VALUE [31:0], RO, reset P H S Z.  -/
def OCE_EST_V_VALUE : Fld := ⟨(0x80030) * 8 + 0, 32⟩
/-- OCE_EST_R.VALUE [31:0], RO, reset P H S Z.  -/
def OCE_EST_R_VALUE : Fld := ⟨(0x80034) * 8 + 0, 32⟩
/-- OCE_EST_BN.VALUE [31:0], RO, reset P H S Z.  -/
def OCE_EST_BN_VALUE : Fld := ⟨(0x80038) * 8 + 0, 32⟩
/-- OCE_EST_BE.VALUE [31:0], RO, reset P H S Z.  -/
def OCE_EST_BE_VALUE : Fld := ⟨(0x8003C) * 8 + 0, 32⟩
/-- OCE_EST_BZ.VALUE [31:0], RO, reset P H S Z.  -/
def OCE_EST_BZ_VALUE : Fld := ⟨(0x80040) * 8 + 0, 32⟩
/-- OCE_TAU.VALUE [31:0], RO, reset P H S Z.  -/
def OCE_TAU_VALUE (i : Nat) : Fld := ⟨(0x80050 + i * 0x4) * 8 + 0, 32⟩
/-- OCE_TAUFF.VALUE [31:0], RO, reset P H S Z.  -/
def OCE_TAUFF_VALUE (i : Nat) : Fld := ⟨(0x80068 + i * 0x4) * 8 + 0, 32⟩
/-- OCE_STATE.VALUE [31:0], RO, reset P H S Z.  -/
def OCE_STATE_VALUE (i : Nat) : Fld := ⟨(0x83000 + i * 0x4) * 8 + 0, 32⟩
/-- OCE_STEP.WORD [31:0], RWI, reset P H S Z.  -/
def OCE_STEP_WORD (i : Nat) (j : Nat) : Fld := ⟨(0x81000 + i * 0x10 + j * 0x4) * 8 + 0, 32⟩
/-- OCE_OPND.WORD [31:0], RWI, reset P H S Z.  -/
def OCE_OPND_WORD (i : Nat) (j : Nat) : Fld := ⟨(0x82000 + i * 0x8 + j * 0x4) * 8 + 0, 32⟩
/-- SLV_SEL_TAUA.VALUE [31:0], RO, reset P H S Z.  -/
def SLV_SEL_TAUA_VALUE (i : Nat) : Fld := ⟨(0x140020 + i * 0x4) * 8 + 0, 32⟩
/-- SLV_PWR_BUDGET.VALUE [31:0], RO, reset P H S Z.  -/
def SLV_PWR_BUDGET_VALUE (i : Nat) : Fld := ⟨(0x140100 + i * 0x8) * 8 + 0, 32⟩
/-- SLV_PWR_USED.VALUE [31:0], RO, reset P H S Z.  -/
def SLV_PWR_USED_VALUE (i : Nat) : Fld := ⟨(0x140104 + i * 0x8) * 8 + 0, 32⟩
/-- SLV_THR_F.VALUE [31:0], RO, reset P H S Z.  -/
def SLV_THR_F_VALUE (i : Nat) (j : Nat) : Fld := ⟨(0x140800 + i * 0x8 + j * 0x4) * 8 + 0, 32⟩
/-- SLV_CA_MARGIN.MARGIN [31:0], RO, reset P H S Z.  -/
def SLV_CA_MARGIN_MARGIN (i : Nat) : Fld := ⟨(0x141004 + i * 0x8) * 8 + 0, 32⟩
/-- TIM_CNT_LO.VALUE [31:0], RO, reset P H S Z.  -/
def TIM_CNT_LO_VALUE : Fld := ⟨(0x200010) * 8 + 0, 32⟩
/-- TIM_CNT_HI.VALUE [31:0], RO, reset P H S Z.  -/
def TIM_CNT_HI_VALUE : Fld := ⟨(0x200014) * 8 + 0, 32⟩
/-- TIM_NOW_NS.VALUE [31:0], RO, reset P H S Z.  -/
def TIM_NOW_NS_VALUE : Fld := ⟨(0x200018) * 8 + 0, 32⟩
/-- TIM_NOW_SEC.VALUE [31:0], RO, reset P H S Z.  -/
def TIM_NOW_SEC_VALUE : Fld := ⟨(0x20001C) * 8 + 0, 32⟩
/-- TIM_NOW_HI.VALUE [31:0], RO, reset P H S Z.  -/
def TIM_NOW_HI_VALUE : Fld := ⟨(0x200020) * 8 + 0, 32⟩
/-- TIM_ANCHOR_T0.VALUE [31:0], RO, reset P H S Z.  -/
def TIM_ANCHOR_T0_VALUE : Fld := ⟨(0x200024) * 8 + 0, 32⟩
/-- TIM_ANCHOR_T1.VALUE [31:0], RO, reset P H S Z.  -/
def TIM_ANCHOR_T1_VALUE : Fld := ⟨(0x200028) * 8 + 0, 32⟩
/-- TIM_ANCHOR_T2.VALUE [31:0], RO, reset P H S Z.  -/
def TIM_ANCHOR_T2_VALUE : Fld := ⟨(0x20002C) * 8 + 0, 32⟩
/-- TIM_ANCHOR_CNT_LO.VALUE [31:0], RO, reset P H S Z.  -/
def TIM_ANCHOR_CNT_LO_VALUE : Fld := ⟨(0x200030) * 8 + 0, 32⟩
/-- TIM_ANCHOR_CNT_HI.VALUE [31:0], RO, reset P H S Z.  -/
def TIM_ANCHOR_CNT_HI_VALUE : Fld := ⟨(0x200034) * 8 + 0, 32⟩
/-- TIM_RATE_LO.VALUE [31:0], RO, reset P H S Z.  -/
def TIM_RATE_LO_VALUE : Fld := ⟨(0x200038) * 8 + 0, 32⟩
/-- TIM_RATE_HI.VALUE [31:0], RO, reset P H S Z.  -/
def TIM_RATE_HI_VALUE : Fld := ⟨(0x20003C) * 8 + 0, 32⟩
/-- TIM_EST_ERR.VALUE [31:0], RO, reset P H S Z.  -/
def TIM_EST_ERR_VALUE : Fld := ⟨(0x200044) * 8 + 0, 32⟩
/-- TIM_STEP_THR.VALUE [31:0], RWI, reset P H S Z.  -/
def TIM_STEP_THR_VALUE : Fld := ⟨(0x20004C) * 8 + 0, 32⟩
/-- TIM_SLEW_MAX.VALUE [31:0], RWI, reset P H S Z.  -/
def TIM_SLEW_MAX_VALUE : Fld := ⟨(0x200050) * 8 + 0, 32⟩
/-- TIM_RATE_LIM.VALUE [31:0], RWI, reset P H S Z.  -/
def TIM_RATE_LIM_VALUE : Fld := ⟨(0x200054) * 8 + 0, 32⟩
/-- TIM_KP.VALUE [31:0], RWI, reset P H S Z.  -/
def TIM_KP_VALUE : Fld := ⟨(0x200058) * 8 + 0, 32⟩
/-- TIM_KI.VALUE [31:0], RWI, reset P H S Z.  -/
def TIM_KI_VALUE : Fld := ⟨(0x20005C) * 8 + 0, 32⟩
/-- TIM_SET.VALUE [31:0], RW, reset P H S Z.  -/
def TIM_SET_VALUE (i : Nat) : Fld := ⟨(0x200060 + i * 0x4) * 8 + 0, 32⟩
/-- TIM_SET_ERR.VALUE [31:0], RW, reset P H S Z.  -/
def TIM_SET_ERR_VALUE : Fld := ⟨(0x20006C) * 8 + 0, 32⟩
/-- TIM_CONV_TIME.VALUE [31:0], RW, reset P H S Z.  -/
def TIM_CONV_TIME_VALUE (i : Nat) : Fld := ⟨(0x200070 + i * 0x4) * 8 + 0, 32⟩
/-- TIM_CONV_CNT_LO.VALUE [31:0], RO, reset P H S Z.  -/
def TIM_CONV_CNT_LO_VALUE : Fld := ⟨(0x200080) * 8 + 0, 32⟩
/-- TIM_CONV_CNT_HI.VALUE [31:0], RO, reset P H S Z.  -/
def TIM_CONV_CNT_HI_VALUE : Fld := ⟨(0x200084) * 8 + 0, 32⟩
/-- TIM_STEP_LAST.VALUE [31:0], RO, reset P H S Z.  -/
def TIM_STEP_LAST_VALUE (i : Nat) : Fld := ⟨(0x200088 + i * 0x4) * 8 + 0, 32⟩
/-- TIM_PHY_LAT1G.PHY_RX [31:16], RWL, reset P H S Z.  -/
def TIM_PHY_LAT1G_PHY_RX (i : Nat) : Fld := ⟨(0x200100 + i * 0x8) * 8 + 16, 16⟩
/-- TIM_PHY_LAT1G.PHY_TX [15:0], RWL, reset P H S Z.  -/
def TIM_PHY_LAT1G_PHY_TX (i : Nat) : Fld := ⟨(0x200100 + i * 0x8) * 8 + 0, 16⟩
/-- TIM_PHY_LAT100.PHY_RX [31:16], RWL, reset P H S Z.  -/
def TIM_PHY_LAT100_PHY_RX (i : Nat) : Fld := ⟨(0x200104 + i * 0x8) * 8 + 16, 16⟩
/-- TIM_PHY_LAT100.PHY_TX [15:0], RWL, reset P H S Z.  -/
def TIM_PHY_LAT100_PHY_TX (i : Nat) : Fld := ⟨(0x200104 + i * 0x8) * 8 + 0, 16⟩
/-- NET_IPV4.ADDR [31:0], RWI, reset P H S Z.  -/
def NET_IPV4_ADDR (i : Nat) : Fld := ⟨(0x21000C + i * 0x1000) * 8 + 0, 32⟩
/-- NET_MAC_LO.MAC [31:0], RWI, reset P H S Z.  -/
def NET_MAC_LO_MAC (i : Nat) : Fld := ⟨(0x210010 + i * 0x1000) * 8 + 0, 32⟩
/-- NET_MAC_HI.MAC [15:0], RWI, reset P H S Z.  -/
def NET_MAC_HI_MAC (i : Nat) : Fld := ⟨(0x210014 + i * 0x1000) * 8 + 0, 16⟩
/-- NET_CNT.COUNT [31:0], RO, reset P H S W C Z.  -/
def NET_CNT_COUNT (i : Nat) (j : Nat) : Fld := ⟨(0x210060 + i * 0x1000 + j * 0x4) * 8 + 0, 32⟩
/-- CAN_TX_REQ.BUF [31:0], WO, reset P H S W C Z.  -/
def CAN_TX_REQ_BUF (i : Nat) : Fld := ⟨(0x220020 + i * 0x1000) * 8 + 0, 32⟩
/-- CAN_TX_CANCEL.BUF [31:0], WO, reset P H S W C Z.  -/
def CAN_TX_CANCEL_BUF (i : Nat) : Fld := ⟨(0x220024 + i * 0x1000) * 8 + 0, 32⟩
/-- CAN_TX_PEND.BUF [31:0], RO, reset P H S W C Z.  -/
def CAN_TX_PEND_BUF (i : Nat) : Fld := ⟨(0x220028 + i * 0x1000) * 8 + 0, 32⟩
/-- CAN_TX_DONE.BUF [31:0], W1C, reset P H S W C Z.  -/
def CAN_TX_DONE_BUF (i : Nat) : Fld := ⟨(0x22002C + i * 0x1000) * 8 + 0, 32⟩
/-- CAN_EVT.EVT [5:0], W1C, reset P H S W C Z.  -/
def CAN_EVT_EVT (i : Nat) : Fld := ⟨(0x220030 + i * 0x1000) * 8 + 0, 6⟩
/-- CAN_EVT_EN.EN [5:0], RW, reset P H S W C Z.  -/
def CAN_EVT_EN_EN (i : Nat) : Fld := ⟨(0x220034 + i * 0x1000) * 8 + 0, 6⟩
/-- ERR_CNT_C.COUNT [31:0], RO, reset P H S Z.  -/
def ERR_CNT_C_COUNT : Fld := ⟨(0x25000C) * 8 + 0, 32⟩
/-- ERR_CNT_T.COUNT [31:0], RO, reset P H S Z.  -/
def ERR_CNT_T_COUNT : Fld := ⟨(0x250010) * 8 + 0, 32⟩
/-- ERR_CNT_P.COUNT [31:0], RO, reset P H S Z.  -/
def ERR_CNT_P_COUNT : Fld := ⟨(0x250014) * 8 + 0, 32⟩
/-- ERR_FENCE_LANE.UNIT [31:0], RO, reset P H S Z.  -/
def ERR_FENCE_LANE_UNIT (i : Nat) : Fld := ⟨(0x250040 + i * 0x4) * 8 + 0, 32⟩
/-- ERR_FENCE_FLT.UNIT [31:0], RO, reset P H S Z.  -/
def ERR_FENCE_FLT_UNIT (i : Nat) : Fld := ⟨(0x250048 + i * 0x4) * 8 + 0, 32⟩
/-- ERR_FENCE_TRK.UNIT [31:0], RO, reset P H S Z.  -/
def ERR_FENCE_TRK_UNIT (i : Nat) : Fld := ⟨(0x250050 + i * 0x4) * 8 + 0, 32⟩
/-- ERR_FENCE_POS.UNIT [31:0], RO, reset P H S Z.  -/
def ERR_FENCE_POS_UNIT : Fld := ⟨(0x250070) * 8 + 0, 32⟩
/-- JNL_HEAD.CYC [31:0], RO, reset P H S Z. 0xFFFF_FFFF = none -/
def JNL_HEAD_CYC : Fld := ⟨(0x26000C) * 8 + 0, 32⟩
/-- JNL_MIRROR.CYC [31:0], RO, reset P H S Z. 0xFFFF_FFFF = none -/
def JNL_MIRROR_CYC : Fld := ⟨(0x260010) * 8 + 0, 32⟩
/-- JNL_CKPT0.CYC [31:0], RO, reset P H S Z. 0xFFFF_FFFF = none -/
def JNL_CKPT0_CYC : Fld := ⟨(0x260014) * 8 + 0, 32⟩
/-- JNL_CKPT1.CYC [31:0], RO, reset P H S Z. 0xFFFF_FFFF = none -/
def JNL_CKPT1_CYC : Fld := ⟨(0x260018) * 8 + 0, 32⟩
/-- RED_TAG_LO.VALUE [31:0], RO, reset P H S Z.  -/
def RED_TAG_LO_VALUE : Fld := ⟨(0x270014) * 8 + 0, 32⟩
/-- RED_TAG_HI.VALUE [31:0], RO, reset P H S Z.  -/
def RED_TAG_HI_VALUE : Fld := ⟨(0x270018) * 8 + 0, 32⟩
/-- RED_PTAG_LO.VALUE [31:0], RO, reset P H S Z.  -/
def RED_PTAG_LO_VALUE : Fld := ⟨(0x27001C) * 8 + 0, 32⟩
/-- RED_PTAG_HI.VALUE [31:0], RO, reset P H S Z.  -/
def RED_PTAG_HI_VALUE : Fld := ⟨(0x270020) * 8 + 0, 32⟩
/-- RED_DIG_LO.VALUE [31:0], RO, reset P H S Z.  -/
def RED_DIG_LO_VALUE : Fld := ⟨(0x270024) * 8 + 0, 32⟩
/-- RED_DIG_HI.VALUE [31:0], RO, reset P H S Z.  -/
def RED_DIG_HI_VALUE : Fld := ⟨(0x270028) * 8 + 0, 32⟩
/-- RED_PDIG_LO.VALUE [31:0], RO, reset P H S Z.  -/
def RED_PDIG_LO_VALUE : Fld := ⟨(0x27002C) * 8 + 0, 32⟩
/-- RED_PDIG_HI.VALUE [31:0], RO, reset P H S Z.  -/
def RED_PDIG_HI_VALUE : Fld := ⟨(0x270030) * 8 + 0, 32⟩
/-- RED_CKPT_NAND.CYC [31:0], RO, reset kept. 0xFFFF_FFFF = none -/
def RED_CKPT_NAND_CYC : Fld := ⟨(0x27003C) * 8 + 0, 32⟩
/-- PST_DRV_FMT.FMT [31:0], RO, reset P H S W C Z.  -/
def PST_DRV_FMT_FMT (i : Nat) (j : Nat) : Fld := ⟨(0x280100 + i * 0x20 + j * 0x4) * 8 + 0, 32⟩
/-- PST_DEVSET.SET [31:0], RW, reset P H S W C Z.  -/
def PST_DEVSET_SET (i : Nat) : Fld := ⟨(0x281000 + i * 0x4) * 8 + 0, 32⟩
/-- PST_OOS.OOS [31:0], RO, reset P H S Z.  -/
def PST_OOS_OOS (i : Nat) : Fld := ⟨(0x281800 + i * 0x4) * 8 + 0, 32⟩
/-- HST_MAP_IMPL.IMPL_MAJOR [31:28], RO, reset kept. 4 -/
def HST_MAP_IMPL_IMPL_MAJOR : Fld := ⟨(0x2B0008) * 8 + 28, 4⟩
/-- HST_MAP_IMPL.IMPL_MIN [27:24], RO, reset kept. 0 -/
def HST_MAP_IMPL_IMPL_MIN : Fld := ⟨(0x2B0008) * 8 + 24, 4⟩
/-- HST_MAP_IMPL.IMPL_MAX [23:20], RO, reset kept. 1 -/
def HST_MAP_IMPL_IMPL_MAX : Fld := ⟨(0x2B0008) * 8 + 20, 4⟩
/-- HST_MAP_IMPL.OFF_MAJOR [15:12], RO, reset P H S Z.  -/
def HST_MAP_IMPL_OFF_MAJOR : Fld := ⟨(0x2B0008) * 8 + 12, 4⟩
/-- HST_MAP_IMPL.OFF_MIN [11:8], RO, reset P H S Z.  -/
def HST_MAP_IMPL_OFF_MIN : Fld := ⟨(0x2B0008) * 8 + 8, 4⟩
/-- HST_MAP_IMPL.OFF_MAX [7:4], RO, reset P H S Z.  -/
def HST_MAP_IMPL_OFF_MAX : Fld := ⟨(0x2B0008) * 8 + 4, 4⟩
/-- HST_MAP_SEL.GO [31], WO, reset P H S Z.  -/
def HST_MAP_SEL_GO : Fld := ⟨(0x2B000C) * 8 + 31, 1⟩
/-- HST_MAP_SEL.MAJOR [15:12], RW, reset P H S Z.  -/
def HST_MAP_SEL_MAJOR : Fld := ⟨(0x2B000C) * 8 + 12, 4⟩
/-- HST_MAP_SEL.MIN_MINOR [11:8], RW, reset P H S Z.  -/
def HST_MAP_SEL_MIN_MINOR : Fld := ⟨(0x2B000C) * 8 + 8, 4⟩
/-- HST_MAP_SEL.MAX_MINOR [7:4], RW, reset P H S Z.  -/
def HST_MAP_SEL_MAX_MINOR : Fld := ⟨(0x2B000C) * 8 + 4, 4⟩
/-- HST_MSIX_TABLE.WORD [31:0], RW, reset P H S Z.  -/
def HST_MSIX_TABLE_WORD (i : Nat) (j : Nat) : Fld := ⟨(0x2B1000 + i * 0x10 + j * 0x4) * 8 + 0, 32⟩
/-- HST_MSIX_PBA.PBA [31:0], RO, reset P H S Z.  -/
def HST_MSIX_PBA_PBA (i : Nat) : Fld := ⟨(0x2B2000 + i * 0x4) * 8 + 0, 32⟩
/-- FLD_POS_TIME.T_ARR [31:0], RO, reset P H S Z.  -/
def FLD_POS_TIME_T_ARR (i : Nat) (j : Nat) : Fld := ⟨(0x231028 + i * 0x40 + j * 0x4) * 8 + 0, 32⟩
/-- TIM_TCAP_TGT_LO.TGT [31:0], RW, reset P H S Z.  -/
def TIM_TCAP_TGT_LO_TGT (i : Nat) : Fld := ⟨(0x200204 + i * 0x20) * 8 + 0, 32⟩
/-- TIM_TCAP_TGT_HI.TGT [7:0], RW, reset P H S Z.  -/
def TIM_TCAP_TGT_HI_TGT (i : Nat) : Fld := ⟨(0x200208 + i * 0x20) * 8 + 0, 8⟩
/-- TIM_TCAP_CAP_LO.CAP [31:0], RO, reset —.  -/
def TIM_TCAP_CAP_LO_CAP (i : Nat) : Fld := ⟨(0x200218 + i * 0x20) * 8 + 0, 32⟩
/-- TIM_TCAP_CAP_HI.CAP [31:0], RO, reset —.  -/
def TIM_TCAP_CAP_HI_CAP (i : Nat) : Fld := ⟨(0x20021C + i * 0x20) * 8 + 0, 32⟩
/-- TIM_PTP_MASTER_LO.CLOCK_ID [31:0], RO, reset P H S Z.  -/
def TIM_PTP_MASTER_LO_CLOCK_ID : Fld := ⟨(0x200308) * 8 + 0, 32⟩
/-- TIM_PTP_MASTER_HI.CLOCK_ID [31:0], RO, reset P H S Z.  -/
def TIM_PTP_MASTER_HI_CLOCK_ID : Fld := ⟨(0x20030C) * 8 + 0, 32⟩
/-- REC_TRK_MIN_T.TIME [31:0], RO, reset P H S Z.  -/
def REC_TRK_MIN_T_TIME (i : Nat) (j : Nat) : Fld := ⟨(0x292010 + i * 0x40 + j * 0x4) * 8 + 0, 32⟩
/-- REC_TRK_MAX_T.TIME [31:0], RO, reset P H S Z.  -/
def REC_TRK_MAX_T_TIME (i : Nat) (j : Nat) : Fld := ⟨(0x292024 + i * 0x40 + j * 0x4) * 8 + 0, 32⟩
/-- HST_MAP_SET.SETTLED [31], RO, reset P H S Z.  -/
def HST_MAP_SET_SETTLED : Fld := ⟨(0x2B0010) * 8 + 31, 1⟩
/-- HST_MAP_SET.MAJOR [15:12], RO, reset P H S Z.  -/
def HST_MAP_SET_MAJOR : Fld := ⟨(0x2B0010) * 8 + 12, 4⟩
/-- HST_MAP_SET.MINOR [11:8], RO, reset P H S Z.  -/
def HST_MAP_SET_MINOR : Fld := ⟨(0x2B0010) * 8 + 8, 4⟩
/-- ERR_FENCE_PORT.CAN [15:8], RO, reset P H S Z.  -/
def ERR_FENCE_PORT_CAN : Fld := ⟨(0x250074) * 8 + 8, 8⟩
/-- ERR_FENCE_PORT.NET [3:0], RO, reset P H S Z.  -/
def ERR_FENCE_PORT_NET : Fld := ⟨(0x250074) * 8 + 0, 4⟩

end Sys2Proof.Machine
end

