-- ==== Sys2Proof/Config.lean ====
section
/-! DEFINITION. What one GK9 fixes outside its registers, and the free values: what the spec leaves open is an opaque constant,
so that no proof can see its value. -/

namespace Sys2Proof.Config

open Sys2Proof

/-- TIME clock ticks in one microsecond: 250 MHz (R304). -/
def ticksPerUs : Nat := 250

/-- Units of 2^−16 ns in one nanosecond (R305). -/
def nsUnit : Nat := 65536

/-- Units of 2^−16 ns in one second (R305). -/
def secUnit : Nat := 1000000000 * 65536

/-- The k-th open word: what a value the spec leaves open takes (notes/assumptions/4). -/
opaque freeWord : Nat → Word

/-- The k-th open natural number, for quantities the spec bounds but does not state. -/
opaque freeNat : Nat → Nat

/-- The error of one use of the CORDIC unit, before it is brought within its stated bound (R173; notes/assumptions/10). -/
opaque cordic : Nat → Nat → Nat → Nat

/-- The state row that OCE_EST_U, _V and _R show: the spec names no row (notes/assumptions/12). -/
opaque velRow : Nat → Nat

/-- PARAM of an INTEG step lists a state row: the spec gives the list and not its coding (R166; notes/assumptions/11). -/
opaque paramLists : Nat → Nat → Bool

/-- A term of the navigation systems' own models, which the spec names and does not give, from words and integers (R149, R160;
notes/assumptions/15): 0 to 2 a satellite's place, 3 to 5 its velocity, 6 and 7 its clock terms and their rate, 8 the Klobuchar ionosphere,
9 the troposphere, 10 to 12 the base's place, 13 the Doppler that a warm search expects, 14 the instant error of a latch. -/
opaque gnss : Nat → List Nat → List Int → Int

/-- Word i of a quantity that a rule uses and states no formula for, from some words (notes/assumptions/15): 12 the power of ten of R149,
13 the weight of a double difference, 24 the heading standard deviation, 25 the MU of a CLS job that its deadline stops,
26 the box that a DEEPEN group reports, 27 whether the read-back of a rewritten block is still open (notes/assumptions/96), 28 the open octets
of a Piste frame through a string head, 29 the residence time of a forwarded ALIGN (notes/assumptions/97); 60 the words of a journal record
(notes/assumptions/23). -/
opaque fit : Nat → List Nat → Nat → Word

/-- A device of a WIDEN string owns a thruster of the master's: no section of the master's image says so (R225; notes/assumptions/94). -/
opaque ownsThr : Nat → Nat → Bool

/-- DETAIL of an incident entry for a code and an item, where the spec says that it names the item and not how
(notes/assumptions/16). -/
opaque detailOf : Nat → Nat → Nat

/-- CODE of an incident entry for an event that has no condition code: 0 a comparator event, 1 a compare-unit event, 2 the audit entry
of a loaded image, 3 that of a clock OTP change
(R514; notes/assumptions/16). -/
opaque eventCode : Nat → Nat

/-- Words of the OCE's state memory, whose size the spec does not state (R165; notes/assumptions/25). -/
opaque oceStateWords : Nat

/-- Octets of the worst-case journal record of a structure, from the plaintexts of its sections: the spec gives the record's layout and not
the words of its blocks (R371, R372; notes/assumptions/23). -/
opaque recordMax : List (List Byte) → Nat

/-- An octet string of a length, octet by octet. -/
def octetsOf (n : Nat) (f : Nat → Byte) : List Byte := (List.range n).map f

/-- Octet i of the SHA-384 of an octet string: the primitive the spec names, uninterpreted. -/
opaque sha384Octet : List Byte → Nat → Byte

/-- SHA-384 of an octet string (R52, R474): 48 octets. -/
def sha384 (b : List Byte) : List Byte := octetsOf 48 (sha384Octet b)

/-- Octet i of DEV_ROOT. -/
opaque devRootOctet : Nat → Byte

/-- DEV_ROOT (R474): the device-unique root secret of the OTP, 32 octets. -/
def devRoot : List Byte := octetsOf 32 devRootOctet

/-- Octet string with each octet combined with a constant. -/
def xorAll (b : List Byte) (v : Byte) : List Byte := b.map fun x => x ^^^ v

/-- HMAC-SHA-384 of a message under a key (R475). -/
def hmac (key msg : List Byte) : List Byte :=
  let k := if 128 < key.length then sha384 key else key
  let k := k ++ List.replicate (128 - k.length) 0
  sha384 (xorAll k 0x5C ++ sha384 (xorAll k 0x36 ++ msg))

/-- K(label): a secret key of the device (R475). -/
def keyOf (label : List Byte) : List Byte := (hmac devRoot label).take 32

/-- K("WRAP") (R475). -/
def keyWrap : List Byte := keyOf [0x57, 0x52, 0x41, 0x50]

/-- HKDF-SHA-384 (R479, R486) for outputs of at most 48 octets: salt, input, info, length. -/
def hkdf (salt input info : List Byte) (n : Nat) : List Byte := (hmac (hmac salt input) (info ++ [1])).take n

/-- A big-endian octet string as a number. -/
def numberOf (b : List Byte) : Nat := b.foldl (fun a x => 256 * a + x.toNat) 0

/-- The order of P-384. -/
def p384Order : Nat := 0xFFFFFFFFFFFFFFFFFFFFFFFFFFFFFFFFFFFFFFFFFFFFFFFFC7634D81F4372DDF581A0DB248B0A77AECEC196ACCC52973

/-- The private scalar of the identity key (R476). -/
def idScalar : Nat :=
  numberOf (hmac (keyOf [0x49, 0x44]) [0x53, 0x43, 0x41, 0x4C, 0x41, 0x52]) % (p384Order - 1) + 1

/-- Octet i of the uncompressed P-384 point of a scalar. -/
opaque pointOctet : Nat → Nat → Byte

/-- The uncompressed P-384 point of a scalar: 97 octets. -/
def pointOf (d : Nat) : List Byte := octetsOf 97 (pointOctet d)

/-- The integrity check of AES key unwrap (RFC 3394): key-encryption key, wrapped key. -/
opaque unwrapGood : List Byte → List Byte → Bool

/-- Octet i of the key that AES key unwrap gives. -/
opaque unwrapOctet : List Byte → List Byte → Nat → Byte

/-- AES key unwrap of a key of 32 octets (R70, R474). -/
def unwrap (kek w : List Byte) : Option (List Byte) := if unwrapGood kek w then some (octetsOf 32 (unwrapOctet kek w)) else none

/-- Octet i of a key under AES key wrap. -/
opaque wrapOctet : List Byte → List Byte → Nat → Byte

/-- AES key wrap of a key (R474): 40 octets. -/
def wrap (kek key : List Byte) : List Byte := octetsOf 40 (wrapOctet kek key)

/-- ECDSA P-384 verification under SHA-384 (R52, R53): public key, message, signature (r then s). -/
opaque ecdsaVerify : List Byte → List Byte → List Byte → Bool

/-- Octet i of the ECDSA P-384 signature with a private scalar over a message. -/
opaque signOctet : Nat → List Byte → Nat → Byte

/-- ECDSA P-384 signature with the device identity key over a message, r then s (R476, R486, R491): 96 octets. -/
def deviceSign (m : List Byte) : List Byte := octetsOf 96 (signOctet idScalar m)

/-- The 64-bit die number (GLB_UID). -/
opaque dieUid : Nat

/-- The device's identity public key (R476): the uncompressed point, 97 octets. -/
def idPub : List Byte := pointOf idScalar

/-- The Welhongo device certificate that GET_ID returns (R476). -/
opaque deviceCert : List Byte

/-- The tag check of AES-256-GCM: key, nonce, additional data, ciphertext, tag. -/
opaque gcmGood : List Byte → List Byte → List Byte → List Byte → List Byte → Bool

/-- Octet i of the plaintext of an AES-256-GCM ciphertext: key, nonce, ciphertext. -/
opaque gcmPlainOctet : List Byte → List Byte → List Byte → Nat → Byte

/-- AES-256-GCM opening (R70, R488): key, nonce, additional data, ciphertext, tag; none when the tag check fails. -/
def gcmOpen (key nonce aad ct tag : List Byte) : Option (List Byte) :=
  if gcmGood key nonce aad ct tag then some (octetsOf ct.length (gcmPlainOctet key nonce ct)) else none

/-- Octet i of the ciphertext followed by the tag, of an AES-256-GCM sealing. -/
opaque gcmSealOctet : List Byte → List Byte → List Byte → List Byte → Nat → Byte

/-- AES-256-GCM sealing: key, nonce, additional data, plaintext; the ciphertext followed by the tag of 16 octets. -/
def gcmSeal (key nonce aad b : List Byte) : List Byte := octetsOf (b.length + 16) (gcmSealOctet key nonce aad b)

/-- A derived key (R479, R486): the info (0 "GK9 prov", 1 "GK9 h2d", 2 "GK9 d2h"), the secret input, the salt, the output length. -/
def derive (info : Nat) (secret salt : List Byte) (n : Nat) : List Byte :=
  let text : List Byte := if info = 0 then [0x70, 0x72, 0x6F, 0x76] else if info = 1 then [0x68, 0x32, 0x64] else [0x64, 0x32, 0x68]
  hkdf salt secret ([0x47, 0x4B, 0x39, 0x20] ++ text) n

/-- The peer's public point is valid on P-384. -/
opaque pointGood : List Byte → Bool

/-- Octet i of the shared secret of a private scalar and a public point. -/
opaque ecdhOctet : Nat → List Byte → Nat → Byte

/-- The private scalar of the k-th ephemeral key the device draws. -/
opaque ephScalar : Nat → Nat

/-- Elliptic-curve Diffie-Hellman on P-384 (R479, R486): the own key (0 the identity key, k the k-th ephemeral), the peer's public point; none
when the point is invalid. -/
def ecdh (k : Nat) (p : List Byte) : Option (List Byte) :=
  if pointGood p then some (octetsOf 48 (ecdhOctet (if k = 0 then idScalar else ephScalar k) p)) else none

/-- The public point of the k-th ephemeral key the device draws (R486, R489): 97 octets. -/
def ephPub (k : Nat) : List Byte := pointOf (ephScalar k)

/-- Octet i of the k-th octet string drawn from the DRBG. -/
opaque randomOctet : Nat → Nat → Byte

/-- The k-th octet string drawn from the DRBG, of the given length (R489). -/
def random (k n : Nat) : List Byte := octetsOf n (randomOctet k)

end Sys2Proof.Config
end

