-- ==== Sys2Proof/Machine/State.lean ====
section
/-! DEFINITION. The state of the GK9 as plain data: its register fields, the state its blocks hold beside them, the queue of
waiting commands, and the state after reset. -/

namespace Sys2Proof.Machine

open Sys2Proof

/-- The state of the block: every register field, the blocks' own state, and the waiting commands, first in first out. -/
structure State where
  pending : List Instr
  regs : RegFile
  /-- Staged values of RWL fields (R86). -/
  shadow : Sparse (Option Word)
  /-- The model's own counter of free values drawn (notes/assumptions/4). -/
  free : Nat
  /-- What has left the device, newest first (notes/assumptions/6). -/
  sent : List Emit
  log : LogSt
  hst : HstSt
  tim : TimSt
  seq : SeqSt
  img : ImgSt
  flt : FltSt
  ref : RefSt
  oce : OceSt
  /-- OCE banks A and B (R191): word index, bank B from 16384. -/
  banks : Sparse Word
  alloc : AllocSt
  /-- Lane memory (R231): word address, lane i from 24576·i. -/
  lmem : Sparse Word
  fld : FldSt
  saf : SafSt
  net : NetSt
  can : List CanSt
  err : ErrSt
  jnl : JnlSt
  red : RedSt
  pst : PstSt
  gns : GnsSt
  sec_ : SecSt
  rcd : RecSt
  clk : ClkSt
deriving DecidableEq, Repr

/-- Reasons the block stops with a fault: the spec gives none (R11, R13, R536: every access completes), so the type has no
constructor. -/
inductive Fault where
deriving DecidableEq, Repr

/-- Reasons a command has no meaning. -/
inductive Refusal where
  /-- Raised by exec for a command that has no meaning yet; safe: nothing can be proved of its effect. -/
  | notModelled (mnemonic : String)
deriving DecidableEq, Repr

/-- The incident log after power-on: no entry, numbering from 0 (R518). -/
def LogSt.reset : LogSt :=
  { held := [], next := 0, fill := 0, unacked := 0, unmirrored := 0, lostRun := 0, ring := [], rdWord := 0 }

/-- The host interface after power-on. -/
def HstSt.reset : HstSt :=
  { run := ⟨0, 0, [], 0, 0⟩, q := ⟨false, false, false, false, false, 0, none⟩, latch := [], msixEn := false, funcMask := false,
    busMaster := false, d3hot := false, sentMask := 0, deferMask := 0, holdUntil := [], irq0 := false, irq1 := false,
    mem := [], held := [], mark := false, mbxWait := [], jobs := [] }

/-- The time base after power-on: CNT 0, corrected time 0, RATE 0, STATE UNSET (R304, R315). -/
def TimSt.reset : TimSt :=
  { cnt := 0, cntA := 0, tA := 0, rate := 0, stepCntA := 0, stepTA := 0, stepRate := 0, stepAt := 0, integ := 0,
    srcs := List.replicate 4 ⟨0, none, none, none⟩, step := none, forceStep := false, recent := [], e0 := 0, e0At := 0,
    unknown := true, ppsHigh := none, ppsLast := none, ppsMin := 0, suppr := 0, ppsInLast := none, ppsInRun := false,
    tcap := List.replicate 4 ⟨[], false, false, none, false, none⟩, ptp := ⟨[], none, none, none, 0, 0, none⟩, coarse := none }

/-- The sequencer after power-on. -/
def SeqSt.reset : SeqSt :=
  { cycs := [], reinit := false, nextT0 := 0, nextN := 0, walk := 0, missRun := 0, missNext := 0, late := [], spT0 := 0, gens := [], last := none, evtDue := 0, alive := false,
    resumeDue := false, restartFail := false }

/-- The image side after power-on: no structure loaded, both NAND slots EMPTY (notes/assumptions/5). -/
def ImgSt.reset : ImgSt :=
  { secs := [], slotA := ⟨0, false, 0, []⟩, slotB := ⟨0, false, 0, []⟩, staged := [], job := none, chk := none,
    taken := 0, restart := 0, heldGroups := 0, votedGroups := 0, timedOut := false }

/-- The observer after power-on: uninitialised. -/
def OceSt.reset : OceSt :=
  { blks := [], nA := 0, eA := 0, psiA := 0, valid := 0, init := false, reinit := false, dr := 0, skips := 0, lateRun := 0,
    notInit := false, intRun := false, tauRun := false, closed := 0, tau := [] }

/-- Allocation after power-on: nothing committed, the failure set empty. -/
def AllocSt.reset : AllocSt :=
  { past := [], units := [], fbMiss := [], dev := [], pwrRun := 0, pwrNext := 0, summary := 0, warm := false, boxes := [], shares := [],
    tables := [], boxNew := 0, prim := [0, 1], maps := [] }

/-- Intake and filters after power-on. -/
def FltSt.reset : FltSt := ⟨[], [], [], []⟩

/-- Field pins after power-on: nothing configured. -/
def FldSt.reset : FldSt := ⟨[], [], [], 0, [], false, [], [], 0⟩

/-- The safety evaluator without a configuration: every output off (R283). -/
def SafSt.reset : SafSt :=
  { conf := none, clk := 0, tick := 0, raw := 0, acc := 0, fns := [], internal := false, cmd := 0, rb := 0, wrong := [], offOk := [],
    rbFault := 0, stp := 0, own := [], cross := [], miss := [], darkSide := 0, press := none, stuck := false, queue := [],
    tickAt := none, pulseAt := [], darkAt := [] }

/-- Fault handling after power-on: no fault. -/
def ErrSt.reset : ErrSt := ⟨[], [], [], none, none, false⟩

/-- The journal after power-on: no record, no checkpoint. -/
def JnlSt.reset : JnlSt := ⟨[], [], [none, none], 0, false⟩

/-- Pairs, Reserve and feeds after power-on: unpaired. -/
def RedSt.reset : RedSt :=
  { parts := [], digs := [], missed := [], promote := false, standDown := false, stop := false, leadNext := false, resync := none,
    pState := 0, pSends := false, gaveUp := false, activated := false, since := none, mirror := false, few := false, wakeN := false, skips := 0,
    nandCk := [none, none], gasp := false, down := 0, wakeI := 0 }

/-- A Piste port that is down. -/
def PstPort.reset : PstPort := ⟨none, 0, 0, false, false, false, false, []⟩

/-- Piste and the cascade after power-on. -/
def PstSt.reset : PstSt :=
  { ports := [.reset, .reset, .reset], noRoute := [], got := false, lostRun := false, masterLost := false, backup := none, handback := false,
    master := none, held := none, lastApplied := none, nextId := 0, tunAt := none, imgd := [], imgdDig := [], joining := false, joins := [],
    joinAt := none, imports := [] }

/-- No position solution. -/
def GnsSol.none : GnsSol := ⟨0, false, 0, 0, 0, 0, 0, 0, 0, 0, 0, 0, 0⟩

/-- The GNSS baseband after power-on: nothing tracked, the store empty. -/
def GnsSt.reset : GnsSt :=
  { lost := false, rateBad := false, out := [], good := [], occBad := [], spiBad := [], spi := [], acq := none, absent := [], chs := [],
    store := [], nand := [], saveAt := 0, iono := [], fifo := [], station := none, building := none, base := none, aged := false, back := false,
    sol := .none, att := ⟨false, 0, false, 0, 0, 0, 0, 0⟩, lastPvt := none, bases := [], epoch := none, jobs := [], wait := [] }

/-- The security block as it leaves manufacture (R477): BLANK, no key, no clock field (notes/assumptions/5). -/
def SecSt.reset : SecSt :=
  { life := 0, slots := [], imgKey := [], minVer := [], draws := 1, chal := 0, unlocks := 0, hand := [], sess := [], nextId := 1,
    fails := [], lockAt := [], ring := [], nand := [], uncopied := 0, lostRun := false, rdWord := 0, built := false }

/-- The recorder and the background activities after power-on. -/
def RecSt.reset : RecSt :=
  { bins := [], snapBins := [], snapRegs := [], clrHist := 0, clrTrk := 0, missSeen := 0, slack9 := none, mowerAt := none, mowerNext := 0,
    mowerDue := false, tempRead := false, hot := 0, trimNext := 0, tempNext := 0, serdesNext := List.replicate 7 0, geom := [], blockKib := 0, jnlBlocks := 0, patrolAt := 0 }

/-- Clocks at power-on: the sources start, none is proven (R451, R464). -/
def ClkSt.reset : ClkSt :=
  { run := 3, proven := 0, since := List.replicate 11 0, doms := List.replicate 12 ⟨false, false, 0, false, false, false⟩,
    rails := false, released := false, off := none, wake := 0, startDue := false, phyRst := false, gfeRst := false,
    gfeEn := 0 }

/-- The machine right after power-on reset (R464): every register field at its reset value. -/
def State.reset : State :=
  { pending := [], regs := [], shadow := [], free := 0, sent := [], log := .reset, hst := .reset, tim := .reset, seq := .reset,
    img := .reset, flt := .reset, ref := ⟨[], []⟩,
    oce := .reset, banks := [], alloc := .reset, lmem := [], fld := .reset, saf := .reset, net := ⟨[], [], []⟩, can := [],
    err := .reset, jnl := .reset, red := .reset, pst := .reset, gns := .reset, sec_ := .reset,
    rcd := .reset, clk := .reset }

end Sys2Proof.Machine
end

