-- ==== Sys2Proof/Machine/Ops.lean ====
section
/-! DEFINITION. Operations every block shares: register fields, octets, the counter and corrected time, condition codes and
incident entries, interrupt sources and vectors. -/

namespace Sys2Proof.Machine

open Sys2Proof

/-! ### Bits and octets -/

/-- Bit `i` of a number. -/
def bit (n i : Nat) : Bool := n / 2 ^ i % 2 = 1

/-- A number with bit `i` set to `b`. -/
def setBit (n i : Nat) (b : Bool) : Nat :=
  if bit n i = b then n else if b then n + 2 ^ i else n - 2 ^ i

/-- 1 or 0. -/
def b2n (b : Bool) : Nat := if b then 1 else 0

/-- Bits `hi` down to `lo` of a number. -/
def bitsOf (n hi lo : Nat) : Nat := n / 2 ^ lo % 2 ^ (hi + 1 - lo)

/-- A `w`-bit number read as two's complement. -/
def signed (w n : Nat) : Int :=
  let m := n % 2 ^ w
  if m < 2 ^ (w - 1) then m else (m : Int) - 2 ^ w

/-- An integer as `w` bits in two's complement. -/
def unsigned (w : Nat) (i : Int) : Nat := (i % (2 ^ w : Int)).toNat

/-- `n + k`, saturating at `m`. -/
def satAdd (n k m : Nat) : Nat := min (n + k) m

/-- Integer division rounded to nearest, ties to even; the divisor is positive. -/
def divRne (p : Int) (q : Nat) : Int :=
  let f := p / q
  let r := 2 * (p % q)
  if r > q ∨ (r = q ∧ f % 2 ≠ 0) then f + 1 else f

/-- Octet `o` of an octet string, 0 beyond its end. -/
def u8 (l : List Byte) (o : Nat) : Nat := (l.getD o 0).toNat
/-- Little-endian 16-bit value at octet `o` (R48). -/
def u16 (l : List Byte) (o : Nat) : Nat := u8 l o + 256 * u8 l (o + 1)
/-- Little-endian 32-bit value at octet `o`. -/
def u32 (l : List Byte) (o : Nat) : Nat := u16 l o + 65536 * u16 l (o + 2)
/-- Little-endian 64-bit value at octet `o`. -/
def u64 (l : List Byte) (o : Nat) : Nat := u32 l o + 2 ^ 32 * u32 l (o + 4)
/-- Big-endian value of `k` octets at `o` (R8). -/
def beN (l : List Byte) (o k : Nat) : Nat := (List.range k).foldl (fun a i => a * 256 + u8 l (o + i)) 0
/-- The low `k` octets of a number, least significant first. -/
def leBytes (k n : Nat) : List Byte := (List.range k).map fun i => BitVec.ofNat 8 (n / 256 ^ i)
/-- The low `k` octets of a number, most significant first. -/
def beBytes (k n : Nat) : List Byte := (leBytes k n).reverse
/-- `n` octets from `o`, as many as there are. -/
def slice (l : List Byte) (o n : Nat) : List Byte := (l.drop o).take n

/-- CRC-32C (Castagnoli, reflected, initial value and final inversion all ones) of an octet string. -/
def crc32c (l : List Byte) : Nat :=
  let step (c : Nat) : Nat := if c % 2 = 1 then (c / 2) ^^^ 0x82F63B78 else c / 2
  (l.foldl (fun c b => (List.range 8).foldl (fun c _ => step c) (c ^^^ b.toNat)) 0xFFFFFFFF) ^^^ 0xFFFFFFFF

/-! ### Register fields -/

/-- The value of a register field. -/
def State.rd (s : State) (f : Fld) : Nat := s.regs.get f

/-- Write a register field. -/
def State.wr (s : State) (f : Fld) (v : Nat) : State := { s with regs := s.regs.set f v }

/-- A register flag. -/
def State.flag (s : State) (f : Fld) : Bool := s.rd f ≠ 0

/-- Write a register flag. -/
def State.wrb (s : State) (f : Fld) (b : Bool) : State := s.wr f (b2n b)

/-- Add to a count, saturating at `m`. -/
def State.incSat (s : State) (f : Fld) (m : Nat) : State := s.wr f (satAdd (s.rd f) 1 m)

/-- Add to a count that wraps at its field's width. -/
def State.incWrap (s : State) (f : Fld) : State := s.wr f (s.rd f + 1)

/-- Write a list of fields. -/
def State.wrs (s : State) (l : List (Fld × Nat)) : State := l.foldl (fun s p => s.wr p.1 p.2) s

/-- Set one bit of a wide field. -/
def State.wrBit (s : State) (f : Fld) (i : Nat) (b : Bool) : State := s.wr f (setBit (s.rd f) i b)

/-- Put something on the outside interfaces. -/
def State.emit (s : State) (e : Emit) : State := { s with sent := e :: s.sent }

/-- Draw a free value: an opaque word of Config, and the counter advanced (notes/assumptions/4). -/
def State.draw (s : State) : Nat × State := ((Config.freeWord s.free).toNat, { s with free := s.free + 1 })

/-! ### Variant (R1 to R7) -/

/-- The solver lanes of the variant. -/
def State.lanes (s : State) : Nat := s.rd GLB_VARIANT_LANES
/-- A node variant has no lanes and no observer and control engine (R1). -/
def State.isNode (s : State) : Bool := s.lanes = 0
/-- The variant has antenna inputs. -/
def State.hasGnss (s : State) : Bool := s.rd GLB_VARIANT_ANTENNAS ≠ 0
/-- An S variant (R6). -/
def State.isEval (s : State) : Bool := s.flag GLB_VARIANT_EVAL

/-! ### The loaded structure (R54, R84) -/

/-- The plaintext of a section of the loaded structure; empty when it has none. -/
def State.sec (s : State) (typ : Nat) (inst : Nat := 0) : List Byte :=
  ((s.img.secs.find? fun x => x.typ = typ ∧ x.inst = inst).map (·.data)).getD []

/-- The loaded structure holds the section. -/
def State.hasSec (s : State) (typ : Nat) (inst : Nat := 0) : Bool :=
  s.img.secs.any fun x => x.typ = typ ∧ x.inst = inst

/-- An image is loaded: IMG_STATUS.STATE reads LOADED. -/
def State.loaded (s : State) : Bool := s.rd IMG_STATUS_STATE = 2

/-- The groups implemented on the variant, by their bits of R84. -/
def implGroups (s : State) : Nat :=
  let m := 0xFFF3F
  let m := if s.isNode then setBit (setBit m 1 false) 2 false else m
  if s.hasGnss then m else setBit m 3 false

/-- SEQ_STATUS.STATE reads IDLE. -/
def State.idle (s : State) : Bool := s.rd SEQ_STATUS_STATE = 0

/-- IMG_FUNC_STATE as it reads: every implemented group while IDLE (R88), else the groups stopped. -/
def stoppedGroups (s : State) : Nat :=
  if s.idle then implGroups s
  else s.rd IMG_FUNC_STATE_CORE + 256 * s.rd IMG_FUNC_STATE_CAN + 65536 * s.rd IMG_FUNC_STATE_NET

/-- A group counts as stopped for staging (R86). -/
def groupStopped (s : State) (g : Nat) : Bool := bit (stoppedGroups s) g

/-- The device is in SLEEP. -/
def asleep (s : State) : Bool := s.clk.off.isSome || s.rd RST_PWR_STS_STATE = 5

/-- A clock domain runs on its primary source, or ramps to it (R453). -/
def onPrimary (s : State) (d : Nat) : Bool := s.rd (CLK_DOM_STS_STATE d) ≤ 1

/-- A group takes part in the running cycles: neither stopped nor taken out by a pending stop. -/
def groupRuns (s : State) (g : Nat) : Bool := !s.idle && !bit s.img.taken g

/-! ### The counter and corrected time (R304, R305, R320) -/

/-- Corrected time at a count, in 2^−16 ns (R305). -/
def corrAt (t : TimSt) (cnt : Nat) : Int :=
  let e : Int := (cnt : Int) - t.cntA
  t.tA + e * 2 ^ 18 + e * t.rate / 2 ^ 30

/-- The corrected time of a count that was captured: one captured before the tick of the last step by the anchor that stood then (R314). -/
def corrCap (t : TimSt) (cnt : Nat) : Int :=
  if cnt < t.stepAt then corrAt { t with cntA := t.stepCntA, tA := t.stepTA, rate := t.stepRate } cnt else corrAt t cnt

/-- The count that reads corrected time `x` under the present anchor (R320): exact, ties to even. -/
def cntOf (t : TimSt) (x : Int) : Int :=
  (t.cntA : Int) + divRne ((x - t.tA) * 2 ^ 30) (2 ^ 48 + t.rate).toNat

/-- The first count whose corrected time is at or after `x`. -/
def cntFrom (t : TimSt) (x : Int) : Nat :=
  let c := (cntOf t x).toNat
  if corrAt t c < x then c + 1 else if 0 < c ∧ corrAt t (c - 1) ≥ x then c - 1 else c

/-- The count of an instant `us` µs after T0 of a cycle, under the anchor that stood at its T0 (R314). -/
def dueAt (s : State) (c : Cyc) (us : Nat) : Nat :=
  cntFrom { s.tim with cntA := c.run.aCnt, tA := c.run.aT, rate := c.run.aRate } (c.inp.t0c + ((us * 1000 * 65536 : Nat) : Int))

/-- Time passes: CNT reaches `t`; it never runs back (R304). -/
def State.at (s : State) (t : Nat) : State := { s with tim := { s.tim with cnt := max s.tim.cnt t } }

/-- Corrected time now. -/
def State.now (s : State) : Int := corrAt s.tim s.tim.cnt

/-- Microseconds in ticks of the TIME clock. -/
def usTicks (us : Nat) : Nat := us * Config.ticksPerUs

/-- The three register words of a corrected time (R9). -/
def timeWords (x : Int) : Nat × Nat × Nat :=
  let frac := (x % 65536).toNat
  let ns := x / 65536
  let sec := ns / 1000000000
  ((ns % 1000000000).toNat, (sec % 2 ^ 32).toNat, (sec / 2 ^ 32 % 65536).toNat + 65536 * frac)

/-- The corrected time that three register words spell (R9). -/
def wordsTime (w0 w1 w2 : Nat) : Int :=
  (((w1 + 2 ^ 32 * (w2 % 65536)) * 1000000000 + w0) * 65536 + w2 / 65536 : Nat)

/-! ### Condition codes and the incident log (R16, R513 to R518) -/

/-- The number of places of the on-die incident log (R516). -/
def logPlaces : Nat := 16384

/-- Append one entry under the next ISEQ; REC_EVT.LOG_HALF sets when FILL reaches 8,192. -/
def logAppend (s : State) (e : Incident) : State :=
  let l := s.log
  let s := { s with log := { l with
    held := ((l.next, e) :: l.held).take logPlaces, next := (l.next + 1) % 2 ^ 32, fill := l.fill + 1,
    unacked := l.unacked + 1, unmirrored := l.unmirrored + 1 } }
  let s := s.wrs [(REC_LOG_HEAD_ISEQ, l.next), (REC_LOG_STS_FILL, l.fill + 1), (REC_LOG_STS_UNMIRRORED, l.unmirrored + 1)]
  if l.fill + 1 = 8192 then s.wrb REC_EVT_LOG_HALF true else s

/-- Make one incident entry (R516): recorded while two places are free; the entry that would fill the last place is counted lost
and REC LOG_FULL takes the place; while LOG_FULL reads 1 entries are lost; once two places are free the next entry is preceded
by REC LOG_RESUMED. -/
def logEntry (s : State) (e : Incident) : State :=
  let lose (s : State) : State := { s.incSat REC_LOG_LOST_LOST 0xFFFFFFFF with log := { s.log with lostRun := s.log.lostRun + 1 } }
  let mark (code detail : Nat) : Incident := ⟨e.time, none, code, 0x1100, detail⟩
  let plain (s : State) : State :=
    if s.log.fill + 1 < logPlaces then logAppend s e
    else
      let s := lose { s with log := { s.log with lostRun := 0 } }
      ((logAppend s (mark 0x1101 0)).wrb REC_STATUS_LOG_FULL true).wrs [(REC_COND_LAST_CODE, 0x1101), (REC_EVT_LOG_FULL, 1)]
  if s.flag REC_STATUS_LOG_FULL then
    if s.log.fill + 2 ≤ logPlaces then
      plain (((logAppend s (mark 0x1102 s.log.lostRun)).wrb REC_STATUS_LOG_FULL false).wr REC_COND_LAST_CODE 0x1102)
    else lose s
  else plain s

/-- Set an edge interrupt source pending (R537). -/
def edgeSrc (s : State) (n : Nat) : State :=
  if n < 32 then s.wrBit HST_SRC_PEND_LO_PEND n true else s.wrBit HST_SRC_PEND_HI_PEND (n - 32) true

/-- The LAST_CODE field that shows a code of a class, for the reporting unit; the recorder and background share a class. -/
def condFields (code unit : Nat) : List Fld :=
  match code / 256 with
  | 0x01 => [IMG_COND_LAST_CODE]
  | 0x02 => [SEQ_COND_LAST_CODE]
  | 0x03 => if code % 256 < 0x81 then [SLV_LANE_COND_LAST_CODE unit] else [SLV_SEL_COND_LAST_CODE]
  | 0x04 => [OCE_COND_LAST_CODE]
  | 0x05 => [GNS_COND_LAST_CODE]
  | 0x06 => [TIM_COND_LAST_CODE]
  | 0x07 => [NET_COND_LAST_CODE unit]
  | 0x08 => [CAN_COND_LAST_CODE unit]
  | 0x09 => [FLD_COND_LAST_CODE]
  | 0x0A => [SAF_COND_LAST_CODE]
  | 0x0B => [ERR_COND_LAST_CODE]
  | 0x0C => [JNL_COND_LAST_CODE]
  | 0x0D => [RED_COND_LAST_CODE]
  | 0x0E => [PST_COND_LAST_CODE]
  | 0x0F => [CLK_COND_LAST_CODE]
  | 0x10 => [SEC_COND_LAST_CODE]
  | 0x11 => if code % 256 < 6 then [REC_COND_LAST_CODE] else [REC_COND_LAST_CODE, BKG_COND_LAST_CODE]
  | 0x12 => [HST_COND_LAST_CODE]
  | _ => []

/-- The edge source that a reported code sets (R537). -/
def codeSource (code : Nat) : Option Nat :=
  match code / 256 with
  | 0x01 => some 3
  | 0x02 => some 2
  | 0x03 => if code % 256 < 0x81 then some 8 else some 7
  | 0x04 => some 6
  | 0x05 => some 5
  | 0x06 => some 9
  | 0x07 => some 10
  | 0x0B => some 29
  | 0x0C => some 30
  | 0x0D => some 31
  | 0x0E => some 32
  | 0x0F => some 33
  | 0x10 => some 34
  | 0x11 => if code % 256 < 6 then none else some 36
  | 0x12 => some 38
  | _ => none

/-- The corrected time an entry carries: 0 while TIM_QUAL.STATE reads UNSET (R513). -/
def State.entryTime (s : State) : Nat := if s.rd TIM_QUAL_STATE = 0 then 0 else s.now.toNat

/-- The incident entry of a code that a unit reports (R513). -/
def State.incident (s : State) (cyc : Option Nat) (code unit detail : Nat) : Incident :=
  ⟨s.entryTime, cyc, code, code / 256 * 256 + unit % 256, detail⟩

/-- What a report sets besides its entry: LAST_CODE of the class and the class's edge source. -/
def reportMarks (s : State) (code unit : Nat) : State :=
  let s := s.wrs ((condFields code unit).map fun f => (f, code))
  match codeSource code with
  | some n => edgeSrc s n
  | none => s

/-- Report a condition code that belongs to no cycle (R16, R514): its entry is released at once (R515). -/
def report (s : State) (code : Nat) (unit : Nat := 0) (detail : Nat := 0) : State :=
  logEntry (reportMarks s code unit) (s.incident none code unit detail)

/-- Change one cycle in flight. -/
def updCyc (s : State) (n : Nat) (f : Cyc → Cyc) : State :=
  { s with seq := { s.seq with cycs := s.seq.cycs.map fun c => if c.n = n then f c else c } }

/-- The cycle in flight with number `n`. -/
def State.cyc? (s : State) (n : Nat) : Option Cyc := s.seq.cycs.find? fun c => c.n = n

/-- Report a condition code that belongs to cycle `n` (R515): its entry waits for the commit or the miss of `n`; a condition
already reported for the cycle, unit and item is not reported again by a replay (R379). A cycle no longer in flight releases at once, unless
its entries wait for those of its predecessor (O6). -/
def reportCyc (s : State) (n code : Nat) (unit : Nat := 0) (detail : Nat := 0) (item : Nat := detail) : State :=
  match s.cyc? n with
  | none =>
    let e := s.incident (some n) code unit detail
    if s.seq.late.any fun x => x.cyc = some n then
      let s := reportMarks s code unit
      { s with seq := { s.seq with late := s.seq.late ++ [e] } }
    else logEntry (reportMarks s code unit) e
  | some c =>
    if c.reported.contains (code, unit + 256 * item) then s
    else if c.committed || c.missed then
      logEntry (reportMarks s code unit) (s.incident (some n) code unit detail)
    else
      let e := s.incident (some n) code unit detail
      updCyc (reportMarks s code unit) n fun c =>
        { c with entries := c.entries ++ [e], reported := (code, unit + 256 * item) :: c.reported }

/-! ### Interrupt vectors (R538 to R540) -/

/-- The pending level of a level source (R537); none for an edge source. -/
def levelSrc (s : State) (n : Nat) : Option Bool :=
  if n = 4 then
    some ((List.range 3).any fun i => s.rd (FLT_EVT_EVT i) &&& s.rd (FLT_EVT_EN_EN i) ≠ 0)
  else if 11 ≤ n ∧ n ≤ 18 then some (s.rd (CAN_EVT_EVT (n - 11)) &&& s.rd (CAN_EVT_EN_EN (n - 11)) ≠ 0)
  else if 19 ≤ n ∧ n ≤ 26 then some (s.rd (CAN_RXQ_STS_FILL (n - 19) 2) = 1)
  else if n = 27 then
    some ((List.range 2).any fun i => s.rd (FLD_EVT_EVT i) &&& s.rd (FLD_EVT_EN_EN i) ≠ 0)
  else if n = 28 then
    some ((s.flag SAF_EVT_INTERNAL && s.flag SAF_EVT_EN_INTERNAL) || (s.flag SAF_EVT_RESET_DONE && s.flag SAF_EVT_EN_RESET_DONE)
      || s.rd SAF_EVT_FAULT &&& s.rd SAF_EVT_EN_FAULT ≠ 0 || s.rd SAF_EVT_TRIP &&& s.rd SAF_EVT_EN_TRIP ≠ 0)
  else if n = 35 then
    some ((s.flag REC_EVT_LOG_HALF && s.flag REC_EVT_EN_LOG_HALF) || (s.flag REC_EVT_LOG_FULL && s.flag REC_EVT_EN_LOG_FULL)
      || (s.flag REC_EVT_FREEZE_DONE && s.flag REC_EVT_EN_FREEZE_DONE))
  else none

/-- All 39 sources as a bit set: level sources from their blocks, edge sources as latched. -/
def pendSet (s : State) : Nat :=
  let latched := s.rd HST_SRC_PEND_LO_PEND + 2 ^ 32 * s.rd HST_SRC_PEND_HI_PEND
  (List.range 39).foldl (fun p n =>
    match levelSrc s n with
    | some b => setBit p n b
    | none => p) latched

/-- The vectors asserted by a set of pending sources (R538). -/
def vecSet (s : State) (pend : Nat) : Nat :=
  (List.range 39).foldl (fun v n =>
    if bit pend n && s.flag (HST_SRC_ROUTE_EN n) then setBit v (s.rd (HST_SRC_ROUTE_VECTOR n)) true else v) 0

/-- An interrupt ball is driven low (R540): bit `k` of the IRQ selection of an enabled pending source. -/
def irqLow (s : State) (pend k : Nat) : Bool :=
  (List.range 39).any fun n => bit pend n && s.flag (HST_SRC_ROUTE_EN n) && bit (s.rd (HST_SRC_ROUTE_IRQ n)) k

/-- The Mask bit of MSI-X table entry `v`: the lowest bit of its fourth word. -/
def vecMasked (s : State) (v : Nat) : Bool := bit (s.rd (HST_MSIX_TABLE_WORD v 3)) 0

/-- The message of an asserted vector (R539): sent, left in the PBA while masked, or deferred by its holdoff, of which version 4.0 has none. -/
def vecMessage (s : State) (v : Nat) : State :=
  let h := s.hst
  let until_ := (h.holdUntil.find? fun p => p.1 = v).map (·.2)
  let held : Bool := match until_ with
    | some t => s.tim.cnt < t
    | none => false
  if held then { s with hst := { h with deferMask := setBit h.deferMask v true, sentMask := setBit h.sentMask v true } }
  else if h.msixEn && h.busMaster && !h.d3hot && !h.funcMask && !vecMasked s v then
    let hold := if s.flag HST_MAP_SET_SETTLED && s.rd HST_MAP_SET_MINOR = 0 then 0 else s.rd (HST_VEC_HOLD_HOLD v)
    let s := { s with hst := { h with
      sentMask := setBit h.sentMask v true, deferMask := setBit h.deferMask v false,
      holdUntil := if hold = 0 then h.holdUntil
        else (v, s.tim.cnt + usTicks hold) :: h.holdUntil.filter fun p => p.1 ≠ v } }
    (s.wrBit (HST_MSIX_PBA_PBA 0) v false).emit (.msix v)
  else if h.funcMask || vecMasked s v then s.wrBit (HST_MSIX_PBA_PBA 0) v true
  else s

/-- The sources, vectors and balls for a set of pending sources and the vectors it asserts (R537, R538, R540). -/
def settleMarks (s : State) (pend vec : Nat) : State :=
  let s := s.wrs [(HST_SRC_PEND_LO_PEND, pend), (HST_SRC_PEND_HI_PEND, pend / 2 ^ 32), (HST_VEC_STS_ASSERTED, vec)]
  let s := { s with hst := { s.hst with
    irq0 := irqLow s pend 0, irq1 := irqLow s pend 1, sentMask := s.hst.sentMask &&& vec, deferMask := s.hst.deferMask &&& vec } }
  s.wr (HST_MSIX_PBA_PBA 0) (s.rd (HST_MSIX_PBA_PBA 0) &&& vec)

/-- The messages of the vectors that have become asserted, lowest first (R539). -/
def settleSend (vec old : Nat) (s : State) : State :=
  (List.range 32).foldl (fun s v => if bit vec v && !bit old v then vecMessage s v else s) s

/-- Bring the sources, vectors, messages and balls up to date after a command (R537 to R540). -/
def hstSettle (s : State) : State :=
  settleSend (vecSet s (pendSet s)) (s.rd HST_VEC_STS_ASSERTED) (settleMarks s (pendSet s) (vecSet s (pendSet s)))

/-- The end of every command: interrupts brought up to date, and the next state answered. -/
def done (s : State) : Host.Outcome State Fault Refusal := .next (hstSettle s)

end Sys2Proof.Machine
end

