-- ==== Sys2Proof/Machine/Access.lean ====
section
/-! DEFINITION. Host accesses: which paths reach which registers (R526, R534), how a discarded access is reported (R543), and
what a write does to each field by its access type (R14, R563). -/

namespace Sys2Proof.Machine

open Sys2Proof

/-- The lifecycle state (R477): 0 BLANK, 1 PROVISIONED, 2 DEPLOYED, 3 RETIRED, the highest whose transitions up to it show both their bits. -/
def lifecycle (s : State) : Nat :=
  let done_ (j : Nat) : Bool := s.sec_.life / 4 ^ j % 4 = 3
  if !done_ 0 then 0 else if !done_ 1 then 1 else if !done_ 2 then 2 else 3

/-- What the path of an access allows. -/
inductive Gate where
  /-- The access reaches its register. -/
  | pass
  /-- It is discarded and reported with an HST code. -/
  | code (c : Nat)
  /-- The QSPI target does not answer it (R526). -/
  | denied
  /-- The port answers nothing: the debug port locked (R483), the PCIe endpoint in D3hot (R525). -/
  | locked
  /-- The clock of the register's domain is gated or lacking, and holds the access (R456, R460; notes/assumptions/32). -/
  | held
deriving DecidableEq, Repr

/-- The offset lies in GLB or HST, which are mapped on every path (R534). -/
def inGlbHst (off : Nat) : Bool := off < 0x10000 || (0x2B0000 ≤ off && off < 0x2C0000)

/-- The offset lies within some block's range (R535). -/
def inBlocks (off : Nat) : Bool :=
  off < 0xC0000 || (0x100000 ≤ off && off < 0x150000) || (0x180000 ≤ off && off < 0x190000)
    || (0x200000 ≤ off && off < 0x2C0000)

/-- The register-map version a path has settled (R531, R533): a session uses the highest the loaded image offers. For tunnelled accesses
the spec names no version, and they are taken as a session's; the debug access port uses the highest implemented (notes/assumptions/29). -/
def mapOf (s : State) (p : Path) : Option (Nat × Nat) :=
  match p with
  | .pcie => if s.flag HST_MAP_SET_SETTLED then some (s.rd HST_MAP_SET_MAJOR, s.rd HST_MAP_SET_MINOR) else none
  | .qspi => s.hst.q.settled
  | .sess _ | .tun _ =>
    if s.rd HST_MAP_IMPL_OFF_MAJOR = 0 then none else some (s.rd HST_MAP_IMPL_OFF_MAJOR, s.rd HST_MAP_IMPL_OFF_MAX)
  | .debug => some (s.rd HST_MAP_IMPL_IMPL_MAJOR, s.rd HST_MAP_IMPL_IMPL_MAX)

/-- Registers that version 4.0 hides (R534): the holdoffs and the mailbox registers. -/
def hidden40 (off : Nat) : Bool :=
  (0x2B0200 ≤ off && off < 0x2B0280) || (0x2B0040 ≤ off && off < 0x2B0064)

/-- The QSPI target answers the access (R526). -/
def qspiAnswers (s : State) (off : Nat) (wr : Bool) : Bool :=
  if s.loaded then bit (s.rd SEC_POLICY_FLAGS) 5
  else !wr || off = 0x18 || (0x2B0000 ≤ off && off < 0x2C0000) || off = 0x40000

/-- The clock domain of a block's registers (notes/assumptions/24). -/
def domOf (off : Nat) : Nat :=
  match off / 0x10000 with
  | 0x01 | 0x02 | 0x27 => 0
  | 0x03 | 0x04 | 0x05 | 0x06 | 0x07 | 0x08 | 0x09 | 0x0A | 0x0B | 0x25 => 2
  | 0x18 => 5
  | 0x20 => 6
  | 0x21 | 0x22 => 7
  | 0x23 => 10
  | 0x24 => 1
  | 0x26 | 0x29 | 0x2A => 11
  | 0x28 => 8
  | 0x00 | 0x2B => 9
  | _ => 2

/-- The debug access port is open: in BLANK, in RETIRED, and while the device is unlocked (R483). -/
def debugOpen (s : State) : Bool := lifecycle s = 0 || lifecycle s = 3 || s.flag SEC_STATUS_DEBUG_UNLOCKED

/-- Whether an access of a path reaches its register. -/
def gate (s : State) (p : Path) (off : Nat) (wr : Bool) : Gate :=
  if p = .qspi && !qspiAnswers s off wr then .denied
  else if (p = .debug && !debugOpen s) || (p = .pcie && s.hst.d3hot) then .locked
  else if (mapOf s p).isNone && !inGlbHst off then .code 0x1208
  else if wr && hidden40 off && (mapOf s p).map (·.2) = some 0 then .code 0x1207
  else if [3, 4, 6].contains (s.rd (CLK_DOM_STS_STATE (domOf off))) then .held
  else .pass

/-- The last code of a path's run of discarded accesses (R543); 0 when its last access was not discarded. -/
def PathRun.of (r : PathRun) (p : Path) : Nat :=
  match p with
  | .pcie => r.pcie
  | .qspi => r.qspi
  | .sess i => r.sess.getD i 0
  | .tun _ => r.tun
  | .debug => r.debug

/-- Set the run of a path. -/
def PathRun.put (r : PathRun) (p : Path) (c : Nat) : PathRun :=
  match p with
  | .pcie => { r with pcie := c }
  | .qspi => { r with qspi := c }
  | .sess i => { r with sess := ((r.sess ++ List.replicate (i + 1 - r.sess.length) 0).set i c) }
  | .tun _ => { r with tun := c }
  | .debug => { r with debug := c }

/-- The path's code in HST_ERR.PATH: the register has none for tunnelled accesses and the debug port, whose field is a free value
(notes/assumptions/29). -/
def pathCode (s : State) : Path → Nat × State
  | .pcie => (0, s)
  | .qspi => (1, s)
  | .sess _ => (2, s)
  | .tun _ | .debug => let (x, s) := s.draw; (x % 4, s)

/-- Report an HST code for a discarded or refused access, once per run of one path with one code (R543). -/
def discard (s : State) (p : Path) (off code : Nat) : State :=
  let s := { s with hst := { s.hst with mark := true } }
  if s.hst.run.of p = code then s
  else
    let s := { s with hst := { s.hst with run := s.hst.run.put p code } }
    let (x, s) := pathCode (report s code) p
    s.wrs [(HST_ERR_PATH, x), (HST_ERR_OFS, off)]

/-- An access that is not discarded ends the path's run. -/
def endRun (s : State) (p : Path) : State := { s with hst := { s.hst with run := s.hst.run.put p 0 } }

/-- A register's own rule discards the write in hand, with a code of the block's class. -/
def refuse (s : State) (code : Nat) (unit : Nat := 0) (detail : Nat := 0) : State :=
  let s := report s code unit detail
  { s with hst := { s.hst with mark := true } }

/-- An access waits for the clock of its domain (R456). -/
def holdAcc (s : State) (p : Path) (off : Nat) (data : Option Nat) : State :=
  { s with hst := { s.hst with held := s.hst.held ++ [⟨p, off, data, s.tim.cnt, domOf off⟩] } }

/-- A host write of `v` by path `p` at `off`: `f` is its effect where the path lets it through. -/
def hostDo (s : State) (p : Path) (off v : Nat) (f : State → State) : State :=
  match gate s p off true with
  | .held => holdAcc s p off (some v)
  | .denied => { s with hst := { s.hst with q := { s.hst.q with denied := true } } }
  | .locked => s
  | .code c => discard s p off c
  | .pass => f (endRun s p)

/-- Latch a high word for the reads of one path (R12): each access path has latches of its own (the model's choice, notes/assumptions/64). A
later latch of the same offset replaces it. -/
def latchWord (s : State) (p : Path) (off v : Nat) : State :=
  { s with hst := { s.hst with latch := (p, off, v) :: s.hst.latch.filter fun e => ¬(e.1 = p ∧ e.2.1 = off) } }

/-- A host read of path `p` at `off`: `f` is its effect, which emits the value; discarded reads read 0 (R526, R534). -/
def hostRd (s : State) (p : Path) (off : Nat) (f : State → State) : State :=
  match gate s p off false with
  | .held => holdAcc s p off none
  | .denied => ({ s with hst := { s.hst with q := { s.hst.q with denied := true } } }).emit (.read p 0)
  | .locked => s.emit (.read p 0)
  | .code c => (discard s p off c).emit (.read p 0)
  | .pass => f (endRun s p)

/-- The value of a field as software reads it: a staged value where its group is stopped (R86). -/
def readField (s : State) (key : Nat) (acc : Access) (grp : Option Nat) : Nat :=
  let plain := (sget resetValue s.regs key).toNat
  match acc, grp with
  | .wo, _ => 0
  | .rwl, some g =>
    if groupStopped s g then
      match sget (fun _ => (none : Option Word)) s.shadow key with
      | some w => w.toNat
      | none => plain
    else plain
  | _, _ => plain

/-- A register as its stored fields read (R13, R14). -/
def readRow (s : State) (r : RegRow) (idx : List Nat) (off : Nat) : Nat :=
  r.fields.foldl (fun a f => a + readField s (off * 8 + f.lo) f.acc (r.grp.at idx) * 2 ^ f.lo) 0

/-- Stage one RWL value (R86). -/
def stage (s : State) (key v : Nat) : State :=
  { s with shadow := sput (fun _ => none) s.shadow key (some (BitVec.ofNat 32 v)) }

/-- What a write of `v` to the whole register does to one field (R14), and the code it is discarded with: 0 when it is not. -/
def writeField (s : State) (grp : Option Nat) (off : Nat) (f : FieldRow) (v : Nat) : State × Nat :=
  let key := off * 8 + f.lo
  let fld : Fld := ⟨key, f.w⟩
  let x := v / 2 ^ f.lo % 2 ^ f.w
  let old := readField s key f.acc grp
  match f.acc with
  | .ro => (s, 0)
  | .wo => (s, 0)
  | .rw => (s.wr fld x, 0)
  | .w1c => (s.wr fld (old - (old &&& x)), 0)
  | .rwi => (s, if x = old then 0 else 0x1202)
  | .rwl =>
    match grp with
    | none => (s, 0)
    | some g =>
      if bit s.img.votedGroups g then (s, if x = old then 0 else 0x1206)
      else if groupStopped s g then (stage s key x, 0)
      else (s, if x = old then 0 else 0x1201)

/-- A write of a whole register by access types (R14, R563): each field that accepts its bits takes them; discarded RWI and RWL
bits are reported when they differ from what the fields read. -/
def writeRow (s : State) (p : Path) (r : RegRow) (idx : List Nat) (off v : Nat) : State :=
  let (s, codes) := r.fields.foldl (fun (a : State × List Nat) f =>
    let (s', c) := writeField a.1 (r.grp.at idx) off f v
    (s', if c = 0 || a.2.contains c then a.2 else a.2 ++ [c])) (s, [])
  codes.foldl (fun s c => discard s p off c) s

end Sys2Proof.Machine
end

