-- ==== Sys2Proof/Machine/Audit.lean ====
section
/-! DEFINITION. The audit log of the security block (R490, R491). -/

namespace Sys2Proof.Machine

open Sys2Proof

/-- A change of the security block's own state. -/
def State.sc (s : State) (f : SecSt → SecSt) : State := { s with sec_ := f s.sec_ }

/-- The 24 octets of an entry that its chain value covers (R490). -/
def auditOctets (e : AuditEnt) : List Byte :=
  let (w0, w1, w2) := timeWords (e.time : Nat)
  leBytes 4 e.aseq ++ (if e.time = 0 then List.replicate 12 0 else leBytes 4 w0 ++ leBytes 4 w1 ++ leBytes 4 w2)
    ++ leBytes 2 e.code ++ leBytes 6 e.detail

/-- The chain value of an entry after another. -/
def chainOf (prev : List Byte) (e : AuditEnt) : List Byte := (Config.sha384 (prev ++ auditOctets e)).take 8

/-- Make an audit entry with a given previous chain value. -/
def auditFrom (s : State) (prev : List Byte) (code detail : Nat) : State :=
  let n := if s.sec_.ring.isEmpty && s.sec_.nand.isEmpty then 0 else (s.rd SEC_AUDIT_HEAD_ASEQ + 1) % 2 ^ 32
  let e : AuditEnt := ⟨n, s.entryTime, code, detail, []⟩
  let e := { e with chain := chainOf prev e }
  let s := s.sc fun x => { x with ring := (e :: x.ring).take 1024, uncopied := min (x.uncopied + 1) 1024 }
  s.wr SEC_AUDIT_HEAD_ASEQ n

/-- Make an audit entry (R490): the chain continues from the newest. -/
def audit (s : State) (code : Nat) (detail : Nat := 0) : State :=
  auditFrom s ((((s.sec_.ring ++ s.sec_.nand).head?).map (·.chain)).getD (List.replicate 8 0)) code detail

/-- Word `k` of an audit entry (R490). -/
def auditWord (e : AuditEnt) (k : Nat) : Nat := u32 (auditOctets e ++ e.chain) (4 * k)

/-! ### Host-channel sessions that close (R487) -/

/-- SEC_STATUS.SESSIONS brought up to date. -/
def sessCount (s : State) : State := s.wr SEC_STATUS_SESSIONS s.sec_.sess.length

/-- Close the sessions that a condition names (R487, R490); operations of theirs that have not executed are dropped (R493). -/
def closeSess (s : State) (f : SessSt → Bool) : State :=
  let out := s.sec_.sess.filter f
  let s := sessCount (s.sc fun x => { x with sess := x.sess.filter fun (y : SessSt) => !f y })
  let gone (i : Nat) : Bool := out.any fun x => x.place = i
  let s : State := { s with hst := { s.hst with
    jobs := s.hst.jobs.filter fun (j : RegJob) => !gone j.place,
    held := s.hst.held.filter fun (a : HeldAcc) => match a.path with
      | .sess i => !gone i
      | _ => true } }
  out.foldl (fun s x =>
    let s := s.wrs [(SEC_SESS_OPEN x.place, 0), (SEC_SESS_SLOT x.place, 0), (SEC_SESS_PORT x.place, 0), (SEC_SESS_SESSION_ID x.place, 0)]
    audit (report s 0x100E 0 x.id) 0x100E x.id) s

/-- R491: the oldest entry not yet copied goes to the NAND ring; the entry it overwrites counts as lost when it is not acknowledged. -/
def auditCopy (s : State) : State :=
  match s.sec_.uncopied with
  | 0 => s
  | k + 1 =>
    match s.sec_.ring[k]? with
    | none => s
    | some e =>
      let full : Bool := 65536 ≤ s.sec_.nand.length
      let out := (s.sec_.nand.getLast?).map (·.aseq)
      let acked : Bool := match out with
        | some a => 0 ≤ signed 32 (s.rd SEC_AUDIT_ACK_ASEQ + 2 ^ 32 - a)
        | none => true
      let s := s.sc fun x => { x with nand := (e :: x.nand).take 65536, uncopied := k }
      if full && !acked then
        let was := s.sec_.lostRun
        let s := (s.incSat SEC_AUDIT_LOST_LOST 0xFFFFFFFF).sc fun x => { x with lostRun := true }
        if was then s else report s 0x1014
      else s.sc fun x => { x with lostRun := false }

/-- R491. -/
def execAuditMirrorCopy (t : Nat) (s : State) : Host.Outcome State Fault Refusal := done (auditCopy (s.at t))

/-- R491: a write of SEC_AUDIT_ACK. -/
def auditAck (s : State) (v : Nat) : State := s.wr SEC_AUDIT_ACK_ASEQ v

/-- R491. -/
def execAuditAck (p : Path) (v t : Nat) (s : State) : Host.Outcome State Fault Refusal :=
  done (hostDo (s.at t) p 0x30064 v fun s => auditAck s v)

/-- R491: a read of SEC_AUDIT_RD_DATA answers the next word of the entry named by its place in the ring; after the eighth ENTRY advances
(an entry's place is its ASEQ modulo 1,024, notes/assumptions/21). -/
def auditRead (s : State) (p : Path) : State :=
  let i := s.rd SEC_AUDIT_RD_ADDR_ENTRY
  let k := s.sec_.rdWord
  let v := match s.sec_.ring.find? fun e => e.aseq % 1024 = i with
    | some e => auditWord e k
    | none => 0
  let s := (s.sc fun x => { x with rdWord := (k + 1) % 8 }).emit (.read p v)
  if k = 7 then s.wr SEC_AUDIT_RD_ADDR_ENTRY ((i + 1) % 1024) else s

/-- R491. -/
def execAuditRdDataRead (p : Path) (t : Nat) (s : State) : Host.Outcome State Fault Refusal :=
  done (hostRd (s.at t) p 0x30070 fun s => auditRead s p)

end Sys2Proof.Machine
end

