-- ==== Sys2Proof/Machine/Trig.lean ====
section
/-! DEFINITION. Sines, cosines and vector angles of binary angles: exact series on integers, the binary32 results of voting
(R124), and the CORDIC unit of R173 within its stated error. -/

namespace Sys2Proof.Machine

open Sys2Proof

/-- π in units of 2^−120. -/
def piFix : Int := 4175892906503776358826876457663557747

/-- The sum of the series of sin on 0 ≤ x < π/2, x and the result in units of 2^−120. -/
def sinSeries (x : Int) : Int :=
  let x2 := x * x / 2 ^ 120
  let step (a : Int × Int) (k : Nat) : Int × Int :=
    let t := -(a.1 * x2 / 2 ^ 120) / ((2 * k + 2) * (2 * k + 3))
    (t, a.2 + t)
  ((List.range 18).foldl step (x, x)).2

/-- sin of a binary angle in units of 2^−120. -/
def sinFix (a : Nat) : Int :=
  let a := a % 2 ^ 32
  let q : Nat := a / 2 ^ 30
  let r : Nat := a % 2 ^ 30
  let up := sinSeries ((r : Int) * piFix / 2 ^ 31)
  let down := if r = 0 then 2 ^ 120 else sinSeries (((2 ^ 30 - r : Nat) : Int) * piFix / 2 ^ 31)
  match q with
  | 0 => up
  | 1 => down
  | 2 => -up
  | _ => -down

/-- cos of a binary angle in units of 2^−120. -/
def cosFix (a : Nat) : Int := sinFix (a + 2 ^ 30)

/-- sin of a binary angle in binary32, to nearest even (R124; notes/assumptions/9). -/
def sin32 (a : Nat) : Nat := fofDy fmt32 (sinFix a) (-120)

/-- cos of a binary angle in binary32, to nearest even (R124; notes/assumptions/9). -/
def cos32 (a : Nat) : Nat := fofDy fmt32 (cosFix a) (-120)

/-- A free error of the CORDIC unit, from −b to b (R173; notes/assumptions/10). -/
def cordicErr (op x y : Nat) (b : Nat) : Int :=
  ((Config.cordic op x y % (2 * b + 1) : Nat) : Int) - b

/-- sin by the CORDIC unit in units of 2^−32: within 2^−28 of the sine (R173). -/
def cordicSin (a : Nat) : Int := sinFix a / 2 ^ 88 + cordicErr 0 a 0 15

/-- cos by the CORDIC unit in units of 2^−32: within 2^−28 of the cosine (R173). -/
def cordicCos (a : Nat) : Int := cosFix a / 2 ^ 88 + cordicErr 1 a 0 15

/-- The angle of the vector (x, y), from x toward y, as the largest binary angle whose direction does not pass it. -/
def angleFix (x y : Int) : Nat :=
  -- quadrant first, then a search inside it
  let (q, u, v) : Nat × Int × Int :=
    if 0 < x ∧ 0 ≤ y then (0, x, y)
    else if x ≤ 0 ∧ 0 < y then (1, y, -x)
    else if x < 0 ∧ y ≤ 0 then (2, -x, -y)
    else (3, -y, x)
  let step (r : Nat) (i : Nat) : Nat :=
    let c := r + 2 ^ (29 - i)
    -- the direction c does not pass (u, v): u·sin c ≤ v·cos c
    if u * sinFix c ≤ v * cosFix c then c else r
  if x = 0 ∧ y = 0 then 0
  else q * 2 ^ 30 + (List.range 30).foldl step 0

/-- The vector angle by the CORDIC unit: within 4 LSB (R173). -/
def cordicAngle (x y : Int) : Nat :=
  (((angleFix x y : Int) + cordicErr 2 (x % 2 ^ 64).toNat (y % 2 ^ 64).toNat 3) % 2 ^ 32).toNat

end Sys2Proof.Machine
end

