-- ==== Sys2Proof/Machine/Flt.lean ====
section
/-! DEFINITION. Sensor intake, the FIR engine and its comparators, and reference voting (spec/03). -/

namespace Sys2Proof.Machine

open Sys2Proof

/-! ### Lists with a default -/

/-- Element `i`, or the default. -/
def at_ {α : Type} (l : List α) (i : Nat) (d : α) : α := l.getD i d

/-- Set element `i`, filling up with the default. -/
def put_ {α : Type} (l : List α) (i : Nat) (d x : α) : List α := (l ++ List.replicate (i + 1 - l.length) d).set i x

/-- Change element `i`. -/
def upd_ {α : Type} (l : List α) (i : Nat) (d : α) (f : α → α) : List α := put_ l i d (f (at_ l i d))

/-! ### Slot definitions (R62, R94 to R97) -/

/-- The 80-octet entry of slot `i` in an INTAKE section. -/
def slotEntry (sec : List Byte) (i : Nat) : Option (List Byte) :=
  (List.range (u16 sec 0)).findSome? fun k =>
    let e := slice sec (8 + 80 * k) 80
    if u8 e 0 = i then some e else none

/-- The slots an INTAKE section defines, in ascending order. -/
def definedSlots (sec : List Byte) : List Nat := (List.range (u16 sec 0)).map fun k => u8 sec (8 + 80 * k)

/-- Latency L of a slot entry in 2^−16 ns. -/
def slotLat (e : List Byte) : Int := u32 e 0x0C * 65536
/-- A_MAX of a slot entry in 2^−16 ns. -/
def slotAge (e : List Byte) : Int := u32 e 0x10 * 1000 * 65536
/-- NCOMP of a slot entry. -/
def slotNcomp (e : List Byte) : Nat := u8 e 2

/-- An octet string's value of `k` octets at `o`, big-endian or little-endian (R8). -/
def rawAt (big : Bool) (b : List Byte) (o k : Nat) : Nat :=
  if big then beN b o k else beN ((slice b o k).reverse) 0 k

/-- Convert one component (R96): `c` is its 12-octet entry, `b` the payload. An integer raw value enters the multiply-add exactly, also one of
32 bits that binary32 does not hold (notes/assumptions/79). -/
def convComp (big : Bool) (c b : List Byte) : Nat :=
  let o := u16 c 0
  let scaled (i : Int) : Nat :=
    match fdec fmt32 (u32 c 4), fdec fmt32 (u32 c 8) with
    | .fin n m e, .fin n' m' e' => froundI fmt32 (dyAdd (fsig n m * i, e) (fsig n' m', e')) ((decide (i < 0) != n) && n')
    | _, _ => fnanBits fmt32
  match u8 c 2 with
  | 1 => scaled (signed 8 (rawAt big b o 1))
  | 2 => scaled (rawAt big b o 1)
  | 3 => scaled (signed 16 (rawAt big b o 2))
  | 4 => scaled (rawAt big b o 2)
  | 5 => scaled (signed 32 (rawAt big b o 4))
  | 6 => scaled (rawAt big b o 4)
  | 7 => ma32 (rawAt big b o 4) (u32 c 4) (u32 c 8)
  | 8 => rawAt big b o 2 * 65536
  | _ => rawAt big b o 4

/-- A component holds an angle, which is always finite. -/
def compAngle (c : List Byte) : Bool := 8 ≤ u8 c 2

/-- The component entries of a slot entry. -/
def slotComps (e : List Byte) : List (List Byte) := (List.range (slotNcomp e)).map fun j => slice e (0x20 + 12 * j) 12

/-- An empty live slot. -/
def slotZero : SlotLive := ⟨[0, 0, 0, 0], 0, none, false, false, 0, 0, 0⟩

/-- An arrival replaces the live value (R98). -/
def slotArrive (s : State) (i : Nat) (vals : List Nat) (tArr : Int) (tSrc : Option Int) (invalid : Bool) : State :=
  let vals := (vals ++ [0, 0, 0, 0]).take 4
  let new (o : SlotLive) : SlotLive :=
    { vals := vals, tArr := tArr, tSrc := tSrc, invalid := invalid, ever := true, upd := satAdd o.upd 1 255,
      chg := if o.ever ∧ o.vals = vals then o.chg else tArr, wrote := s.tim.cnt }
  { s with flt := { s.flt with live := upd_ s.flt.live i slotZero new } }

/-- An arrival whose raw components lie in a received frame (R96 to R98): `b` the payload, `valid` the validity bit's say. -/
def slotFrame (s : State) (i : Nat) (e b : List Byte) (big : Bool) (tArr : Int) (tSrc : Option Int) (markInvalid : Bool) : State :=
  let cs := slotComps e
  let vals := cs.map fun c => convComp big c b
  let bad := (cs.zip vals).any fun p => !compAngle p.1 && !ffinite fmt32 p.2
  slotArrive s i vals tArr tSrc (markInvalid || bad)

/-- The validity bit of a slot entry marks the frame invalid (R98). -/
def markedInvalid (e b : List Byte) : Bool :=
  u8 e 3 % 2 = 1 && (bit (u8 b (u16 e 0x14)) (u8 e 0x16 % 8) == (128 ≤ u8 e 0x16))

/-- Age test of a live value at an instant (R99). -/
def liveStale (e : List Byte) (l : SlotLive) (t : Int) : Bool := !l.ever || slotAge e < t - l.tArr

/-- The latch (R98): every defined slot's held value at T0, and the live values with their counts of arrivals cleared. -/
def latchSlots (sec : List Byte) (live : List SlotLive) (t0 : Int) : List HeldSlot :=
  (List.range (u16 sec 0)).map fun k =>
    let e := slice sec (8 + 80 * k) 80
    let l := at_ live (u8 e 0) slotZero
    ⟨u8 e 0, l.vals, l.tArr, l.tSrc, l.invalid, liveStale e l t0, !l.ever, l.upd, l.chg⟩

/-- A held slot, empty and NEVER where the slot is not defined. -/
def heldOf (h : List HeldSlot) (i : Nat) : HeldSlot :=
  (h.find? fun x => x.slot = i).getD ⟨i, [0, 0, 0, 0], 0, none, false, true, true, 0, 0⟩

/-- A held slot can be used as a value: not STALE, INVALID or NEVER. -/
def HeldSlot.ok (h : HeldSlot) : Bool := !h.stale && !h.invalid && !h.never

/-- The validity instant of an unfiltered held value (R97). -/
def heldTv (sec : List Byte) (h : HeldSlot) : Int :=
  h.tSrc.getD h.tArr - slotLat ((slotEntry sec h.slot).getD [])

/-- The slot registers that a commit shows (R100). -/
def slotResults (sec : List Byte) (held : List HeldSlot) : List (Fld × Nat) :=
  held.flatMap fun h =>
    let (a, b, c) := timeWords (h.tSrc.getD h.tArr)
    let e := (slotEntry sec h.slot).getD []
    (List.range 4).map (fun j => (INT_SLOT_VAL_VALUE h.slot j, h.vals.getD j 0)) ++
    [(INT_SLOT_ARRIVAL_TIME h.slot 0, a), (INT_SLOT_ARRIVAL_TIME h.slot 1, b), (INT_SLOT_ARRIVAL_TIME h.slot 2, c),
     (INT_SLOT_STS_SRC_TIME h.slot, b2n h.tSrc.isSome), (INT_SLOT_STS_INVALID h.slot, b2n h.invalid),
     (INT_SLOT_STS_STALE h.slot, b2n h.stale), (INT_SLOT_STS_NEVER h.slot, b2n h.never),
     (INT_SLOT_STS_UPD h.slot, h.upd), (INT_SLOT_STS_KIND h.slot, u8 e 1), (INT_SLOT_STS_NCOMP h.slot, u8 e 2)]

/-! ### The FIR engine (R102 to R113) -/

/-- A channel at cold start: delay line empty, no output, comparators inactive (R89). -/
def fltZero : FltCh := ⟨[], 0, 0, false, false, false, 0, 0, [⟨0, false, 0⟩, ⟨0, false, 0⟩]⟩

/-- A binary32 input as a 24-bit value with 23 fraction bits under E_IN, and whether it saturated (R104). -/
def firIn (eIn : Int) (x : Nat) : Int × Bool :=
  match fdec fmt32 x with
  | .fin n m e =>
    let k := e - eIn + 23
    let v := fsig n m
    let q := if 0 ≤ k then v * 2 ^ k.toNat else divRne v (2 ^ (-k).toNat)
    -- the exact comparison against −1 and 1 − 2^−23
    let hi : Bool := if 0 ≤ k then v * 2 ^ k.toNat > 2 ^ 23 - 1 else v > (2 ^ 23 - 1) * 2 ^ (-k).toNat
    let lo : Bool := if 0 ≤ k then v * 2 ^ k.toNat < -(2 ^ 23) else v < -(2 ^ 23) * 2 ^ (-k).toNat
    if hi then (2 ^ 23 - 1, true) else if lo then (-(2 ^ 23), true) else (q, false)
  | _ => (0, false)

/-- The coefficient c[i] of channel `k` (R105, R110). -/
def firCoef (cfg : RegFile) (k i : Nat) : Int := signed 24 (cfg.get (FLT_COEF_VALUE (k * 192 + i)))

/-- The output of a symmetric filter over a delay line, newest first (R105): the value with 23 fraction bits, and OSAT. -/
def firOut (cfg : RegFile) (k n : Nat) (line : List (Int × Bool)) : Int × Bool :=
  let x (j : Nat) : Int := (at_ line j (0, false)).1
  let m := n / 2
  let sum := (List.range m).foldl (fun a i => a + firCoef cfg k i * (x i + x (n - 1 - i))) 0
  let sum := if n % 2 = 1 then sum + firCoef cfg k m * x m else sum
  let q := divRne sum (2 ^ 23)
  if q > 2 ^ 23 - 1 then (2 ^ 23 - 1, true) else if q < -(2 ^ 23) then (-(2 ^ 23), true) else (q, false)

/-- GD_NS of a channel (R107). -/
def firGd (cfg : RegFile) (k : Nat) : Nat :=
  (cfg.get (FLT_CH_SHAPE_TAPS k) - 1) * cfg.get (FLT_CH_TICK_TICK k) * 500

/-- One comparator takes a channel output (R111); the events it makes. The bounds LEVEL − HYST and LEVEL + HYST are rounded to binary32 (the
model's choice, notes/assumptions/80). -/
def cmpStep (cfg : RegFile) (k j : Nat) (valid : Bool) (y : Nat) (tv : Int) (c : CmpSt) : CmpSt × List CmpEvent :=
  if cfg.get (FLT_TH_CFG_EN k j) = 0 then (c, [])
  else if !valid then ({ c with count := 0 }, [])
  else
    let level := cfg.get (FLT_TH_LEVEL_VALUE k j)
    let hyst := cfg.get (FLT_TH_HYST_VALUE k j)
    let falling := cfg.get (FLT_TH_CFG_DIR k j) = 1
    let beyond := if falling then lt32 y level else lt32 level y
    let count := if beyond then c.count + 1 else 0
    if c.active then
      let leaves := if falling then lt32 (a32 level hyst) y else lt32 y (s32 level hyst)
      if leaves then (⟨count, false, c.enter⟩, [⟨k, j, false, tv⟩]) else (⟨count, true, c.enter⟩, [])
    else if count ≥ cfg.get (FLT_TH_CFG_DWELL k j) + 1 then (⟨count, true, satAdd c.enter 1 0xFFFF⟩, [⟨k, j, true, tv⟩])
    else (⟨count, false, c.enter⟩, [])

/-- What a channel needs beside its own state in one cycle: settings, slot latency, chain time of tick 0, fenced. -/
structure FirCtx where
  cfg : RegFile
  lat : Int
  base : Int
  fenced : Bool

/-- One sample enters a channel; at a decimated tick it makes an output, and the comparators evaluate it. -/
def firSample (c : FirCtx) (k : Nat) (ch : FltCh) (x : FirSample) : FltCh × List CmpEvent :=
  let n := c.cfg.get (FLT_CH_SHAPE_TAPS k)
  let d := c.cfg.get (FLT_CH_SHAPE_DECIM k)
  let eIn := signed 8 (c.cfg.get (FLT_CH_CFG_E_IN k))
  let (q, sat) := if x.bad then (0, false) else firIn eIn x.x
  let line := ((q, x.bad) :: ch.line).take n
  let ch := { ch with line := line, count := min (ch.count + 1) n, sat := if sat then satAdd ch.sat 1 0xFFFF else ch.sat }
  if x.m % d ≠ 0 then (ch, [])
  else
    let (y, osat) := firOut c.cfg k n line
    let valid := !c.fenced && n ≤ ch.count && line.all (fun p => !p.2)
    let out := fofDy fmt32 y (eIn - 23)
    let tv := c.base + (x.m * c.cfg.get (FLT_CH_TICK_TICK k) * 1000 + k * 250 : Nat) * 65536
      - (firGd c.cfg k : Int) * 65536 - c.lat
    let ch := { ch with valid := valid, fresh := true, osat := osat, out := out, tv := tv }
    if c.fenced then ({ ch with cmp := ch.cmp.map fun z => { z with count := 0, active := false } }, [])
    else
      let (c0, e0) := cmpStep c.cfg k 0 valid out tv (at_ ch.cmp 0 ⟨0, false, 0⟩)
      let (c1, e1) := cmpStep c.cfg k 1 valid out tv (at_ ch.cmp 1 ⟨0, false, 0⟩)
      ({ ch with cmp := [c0, c1] }, e0 ++ e1)

/-- A filter channel is fenced (R384). -/
def fltFenced (s : State) (k : Nat) : Bool := bit (s.rd (ERR_FENCE_FLT_UNIT (k / 32))) (k % 32)

/-- The cycle whose outputs a tick belongs to (R108). -/
def tickCycle (period ti m : Nat) : Nat := (m * ti + period - 1) / period

/-- The corrected instant at which channel `k` samples its tick `m` (R103): on the T0 chain, its skew later. -/
def tickAt (s : State) (k m : Nat) : Int :=
  s.seq.nextT0 + ((m * s.rd (FLT_CH_TICK_TICK k) : Nat) - (s.seq.nextN * s.rd SEQ_PERIOD_VALUE : Nat) : Int) * 65536000
    + ((k * 250 : Nat) : Int) * 65536

/-- Every channel has taken the samples whose outputs are those of cycle `n` (R108). -/
def samplesTaken (s : State) (n : Nat) : Bool :=
  (List.range (s.rd FLT_STATUS_CHANNELS)).all fun k =>
    decide (n * s.rd SEQ_PERIOD_VALUE / max 1 (s.rd (FLT_CH_TICK_TICK k)) < s.flt.next.getD k 0)

/-- REF takes the samples of a tick: the group runs, or a cycle in flight that still uses it takes the tick's outputs (R85, R101). -/
def refSamples (s : State) (k m : Nat) : Bool :=
  groupRuns s 0 || s.seq.cycs.any fun c => bit c.inp.runs 0 && c.n = tickCycle (s.rd SEQ_PERIOD_VALUE) (s.rd (FLT_CH_TICK_TICK k)) m

/-- Stage 2 of a cycle over every channel (R108): the channels after it and the comparator events in the order of R113. -/
def stage2 (s : State) (cfg : RegFile) (n : Nat) (t0c : Int) (chs : List FltCh) (smp : List FirSample) :
    List FltCh × List CmpEvent :=
  let period := cfg.get SEQ_PERIOD_VALUE
  let res := (List.range (cfg.get FLT_STATUS_CHANNELS)).map fun k =>
    let e := (slotEntry (s.sec 3) (cfg.get (FLT_CH_CFG_SLOT k))).getD []
    let ctx : FirCtx := ⟨cfg, slotLat e, t0c - ((n * period * 1000 : Nat) : Int) * 65536, fltFenced s k⟩
    let ch := { at_ chs k fltZero with fresh := false }
    let ch := if ctx.fenced then { ch with valid := false, cmp := ch.cmp.map fun z => { z with count := 0, active := false } } else ch
    (smp.filter fun x => x.ch = k).foldl (fun (a : FltCh × List CmpEvent) x =>
      let (c, ev) := firSample ctx k a.1 x
      (c, a.2 ++ ev)) (ch, [])
  let evs := (res.flatMap (·.2)).mergeSort fun a b => a.tv < b.tv || (a.tv == b.tv && (a.ch < b.ch || (a.ch == b.ch && a.j ≤ b.j)))
  (res.map (·.1), evs)

/-- The filter registers that a commit shows. -/
def fltResults (s : State) (chs : List FltCh) : List (Fld × Nat) :=
  (List.range chs.length).flatMap fun k =>
    let c := at_ chs k fltZero
    [(FLT_CH_STS_FENCED k, b2n (fltFenced s k)), (FLT_CH_STS_VALID k, b2n c.valid), (FLT_CH_STS_NEW k, b2n c.fresh),
     (FLT_CH_STS_OSAT k, b2n c.osat), (FLT_CH_STS_SAT_CNT k, c.sat), (FLT_CH_OUT_OUT k, c.out)] ++
    (List.range 2).flatMap fun j =>
      let z := at_ c.cmp j ⟨0, false, 0⟩
      [(FLT_TH_STS_ACTIVE k j, b2n z.active), (FLT_TH_STS_ENTER_CNT k j, z.enter)]

/-- GD_NS and SKEW_NS of the defined channels (R107). -/
def fltDerived (s : State) : State :=
  (List.range (s.rd FLT_STATUS_CHANNELS)).foldl (fun s k =>
    s.wrs [(FLT_CH_GD_GD_NS k, firGd s.regs k), (FLT_CH_SKEW_SKEW_NS k, k * 250)]) s

/-- The engine samples channel `k` at tick `m`, once that instant has come, in hardware, whatever stage runs (R103). The sample waits for
stage 2 of its cycle. -/
def firSampleOp (k m : Nat) (s : State) : State :=
  let cfg := s.regs
  let sec := s.sec 3
  if s.rd SEQ_STATUS_STATE ≥ 2 && refSamples s k m && k < cfg.get FLT_STATUS_CHANNELS && s.flt.next.getD k 0 = m
      && tickAt s k m ≤ s.now then
    let i := cfg.get (FLT_CH_CFG_SLOT k)
    let l := at_ s.flt.live i slotZero
    let e := (slotEntry sec i).getD []
    let bad := liveStale e l s.now || l.invalid
    let x := if bad then 0 else l.vals.getD (cfg.get (FLT_CH_CFG_COMP k)) 0
    { s with flt := { s.flt with next := put_ s.flt.next k 0 (m + 1), smp := s.flt.smp ++ [⟨k, m, bad, x, l.tSrc.getD l.tArr - slotLat e⟩] } }
  else s

/-! ### Reference voting (R114 to R124) -/

/-- The register base index of reference `r`: 0 to 3 are HDG0 to HDG3, 4 to 11 are POS0 to POS7. -/
def refDefined (cfg : RegFile) (r : Nat) : Bool :=
  if r < 4 then cfg.get (REF_HDG_CFG_DEFINED r) ≠ 0 else cfg.get (REF_POS_CFG_DEFINED (r - 4)) ≠ 0
/-- The slot of reference `r`. -/
def refSlot (cfg : RegFile) (r : Nat) : Nat :=
  if r < 4 then cfg.get (REF_HDG_CFG_SLOT r) else cfg.get (REF_POS_CFG_SLOT (r - 4))
/-- The REF_SELECT bit of reference `r`. -/
def refSelected (cfg : RegFile) (r : Nat) : Bool :=
  if r < 4 then bit (cfg.get REF_SELECT_HDG) r else bit (cfg.get REF_SELECT_POS) (r - 4)

/-- Statistics at cold start (R116): variance SIGMA0², mean 0. -/
def refStat0 (cfg : RegFile) (r : Nat) : RefStat :=
  let g := if r < 4 then cfg.get REF_SIGMA0_HDG_VALUE else cfg.get REF_SIGMA0_POS_VALUE
  ⟨m32 g g, 0, 0⟩

/-- Voting at cold start: no re-acceptance wait, statistics of R116, heading 0. -/
def refCold (cfg : RegFile) (n : Int) (heading : Nat) : RefSt :=
  ⟨List.replicate 12 0, [(n, (List.range 12).map (refStat0 cfg), heading)]⟩

/-- The statistics and observer heading after the hand-over of cycle `n` − 2 (R116): the latest entry not newer than that, else
the oldest held. -/
def RefSt.seen (r : RefSt) (n : Nat) : List RefStat × Nat :=
  match r.hist.find? fun e => decide (e.1 + 2 ≤ (n : Int)) with
  | some e => e.2
  | none => match r.hist.getLast? with
    | some e => e.2
    | none => ([], 0)

/-- What stage 3 reads beside the voting state. -/
structure VoteCtx where
  cfg : RegFile
  intake : List Byte
  voting : List Byte
  n : Nat
  t0 : Int
  held : List HeldSlot
  stopped : Bool
  gnssStopped : Bool

/-- σ of a reference (binary32 square root of its variance). -/
def refSigma (st : RefStat) : Nat := fsqrt fmt32 st.s2
/-- |μ| of a reference: the Euclidean norm for a position reference (R118). -/
def refDrift (r : Nat) (st : RefStat) : Nat :=
  if r < 4 then abs32 st.mu1 else fsqrt fmt32 (a32 (m32 st.mu1 st.mu1) (m32 st.mu2 st.mu2))

/-- The first reason among the tests up to the drift test (R115 to R118); 0 when all pass. -/
def refReason (c : VoteCtx) (r : Nat) (st : RefStat) : Nat :=
  let h := heldOf c.held (refSlot c.cfg r)
  let kind := u8 ((slotEntry c.intake (refSlot c.cfg r)).getD []) 1
  let ft := c.cfg.get REF_FROZEN_T_VALUE
  if c.stopped then 1
  else if !refSelected c.cfg r then 2
  else if h.never || (5 ≤ kind && c.gnssStopped) then 3
  else if h.stale then 4
  else if h.invalid then 5
  else if ft ≠ 0 ∧ (ft * 1000 * 65536 : Int) < c.t0 - h.chg then 6
  else if lt32 (if r < 4 then c.cfg.get REF_VAR_HDG_VALUE else c.cfg.get REF_VAR_POS_VALUE) (refSigma st) then 7
  else if lt32 (if r < 4 then c.cfg.get REF_DRIFT_HDG_VALUE else c.cfg.get REF_DRIFT_POS_VALUE) (refDrift r st) then 8
  else 0

/-- The references that stay when the ⌈c/2⌉ nearest never fail (R121): `ds` pairs reference and "is before" order; `far` says the
distance is beyond the limit. Answers the failed references and whether the exception kept one. -/
def medianFail (ds : List (Nat × Bool)) : List Nat × Bool :=
  let keep := (ds.length + 1) / 2
  let rest := ds.drop keep
  ((rest.filter (·.2)).map (·.1), (ds.take keep).any (·.2))

/-- The median of sorted values: the middle one, or the mean of the two middle ones by `mean`. -/
def medianOf {α : Type} (mean : α → α → α) (d : α) (l : List α) : α :=
  let k := l.length
  if k % 2 = 1 then l.getD (k / 2) d else mean (l.getD (k / 2 - 1) d) (l.getD (k / 2) d)

/-- The aligned value of heading reference `j` (R114). -/
def hdgValue (c : VoteCtx) (j : Nat) : Nat :=
  ((heldOf c.held (refSlot c.cfg j)).vals.getD 0 0 + c.cfg.get (REF_HDG_OFFSET_OFFSET j)) % 2 ^ 32

/-- The heading median test over the candidates (R121, R124): failed references, HDG_SPREAD, HDG_PAIR_DISAGREE. The differences are signed
binary angles, converted to binary32. -/
def hdgMedian (c : VoteCtx) (psiH : Nat) (cand : List Nat) : List Nat × Bool × Bool :=
  let delta (j : Nat) : Nat := i32 (signed 32 (hdgValue c j + 2 ^ 32 - psiH))
  let lim := i32 (c.cfg.get REF_MED_HDG_VALUE)
  let apart (a b : Nat) : Nat := abs32 (s32 a b)
  if cand.length ≥ 3 then
    let med := medianOf (fun a b => m32 (a32 a b) (fofRat fmt32 1 2)) 0 ((cand.map delta).mergeSort le32)
    let d (j : Nat) : Nat := apart (delta j) med
    let order := cand.mergeSort fun a b => lt32 (d a) (d b) || (!lt32 (d b) (d a) && a ≤ b)
    let (f, sp) := medianFail (order.map fun j => (j, lt32 lim (d j)))
    (f, sp, false)
  else if cand.length = 2 then ([], false, lt32 lim (apart (delta (cand.getD 0 0)) (delta (cand.getD 1 0))))
  else ([], false, false)

/-- Roll and pitch of the motion slot, 0 without one (R114, R120). -/
def motion (c : VoteCtx) : Nat × Nat :=
  if u8 c.voting 2 % 2 = 1 then
    let h := heldOf c.held (u8 c.voting 3)
    (h.vals.getD 0 0, h.vals.getD 1 0)
  else (0, 0)

/-- A position reference moved to the vessel reference point (R120): heading, then pitch, then roll (notes/assumptions/9). -/
def posRef (c : VoteCtx) (psi : Nat) (i : Nat) : Nat × Nat :=
  let h := heldOf c.held (refSlot c.cfg (4 + i))
  let (roll, pitch) := motion c
  let x := c.cfg.get (REF_POS_LEVER_LEVER i 0)
  let y := c.cfg.get (REF_POS_LEVER_LEVER i 1)
  let z := c.cfg.get (REF_POS_LEVER_LEVER i 2)
  let sp := sin32 psi
  let cp := cos32 psi
  let st := sin32 pitch
  let ct := cos32 pitch
  let sr := sin32 roll
  let cr := cos32 roll
  -- the lever in the level, heading-aligned frame
  let fx := a32 (a32 (m32 ct x) (m32 (m32 st sr) y)) (m32 (m32 st cr) z)
  let fy := s32 (m32 cr y) (m32 sr z)
  let dn := s32 (m32 cp fx) (m32 sp fy)
  let de := a32 (m32 sp fx) (m32 cp fy)
  (s32 (h.vals.getD 0 0) dn, s32 (h.vals.getD 1 0) de)

/-- binary32 distance between two points. -/
def dist32 (a b : Nat × Nat) : Nat :=
  let dn := s32 a.1 b.1
  let de := s32 a.2 b.2
  fsqrt fmt32 (a32 (m32 dn dn) (m32 de de))

/-- The position median test over the candidates (R121). -/
def posMedian (c : VoteCtx) (val : Nat → Nat × Nat) (cand : List Nat) : List Nat × Bool × Bool :=
  let half := fofRat fmt32 1 2
  let lim := c.cfg.get REF_MED_POS_VALUE
  let sort (l : List Nat) : List Nat := l.mergeSort le32
  if cand.length ≥ 3 then
    let mean (a b : Nat) : Nat := m32 (a32 a b) half
    let med : Nat × Nat := (medianOf mean 0 (sort (cand.map fun i => (val i).1)), medianOf mean 0 (sort (cand.map fun i => (val i).2)))
    let d (i : Nat) : Nat := dist32 (val i) med
    let order := cand.mergeSort fun a b => lt32 (d a) (d b) || (!lt32 (d b) (d a) && a ≤ b)
    let (f, sp) := medianFail (order.map fun i => (i, lt32 lim (d i)))
    (f, sp, false)
  else if cand.length = 2 then ([], false, lt32 lim (dist32 (val (cand.getD 0 0)) (val (cand.getD 1 0))))
  else ([], false, false)

/-- The reason and the re-acceptance count after the tests (R122). A cycle with the reason STOPPED, DESELECTED, ABSENT, STALE or INVALID leaves
the count as it is (the model's choice, notes/assumptions/81). -/
def reaccept (limit reason left : Nat) : Nat × Nat :=
  if reason = 0 then (if left = 0 then (0, 0) else (10, left - 1))
  else if 6 ≤ reason then (reason, limit)
  else (reason, left)

/-- Weights of the accepted references among `refs` (R123): inverse variances summed in ascending order. -/
def refWeights (cfg : RegFile) (hdg : Bool) (acc : List (Nat × RefStat)) : List (Nat × Nat × Nat) :=
  let low := if hdg then cfg.get REF_SIGMA_MIN_HDG_VALUE else cfg.get REF_SIGMA_MIN_POS_VALUE
  let vars := acc.map fun p =>
    let g := fmax fmt32 (refSigma p.2) low
    (p.1, m32 g g)
  let inv := vars.map fun p => d32 one32 p.2
  let sum := inv.foldl a32 0
  vars.zipWith (fun p w => (p.1, d32 w sum, p.2)) inv

/-- Stage 3 of a cycle (R115 to R123). -/
def stage3 (c : VoteCtx) (ref : RefSt) : RefSt × VoteOut :=
  let (stats, psiH) := ref.seen c.n
  let stat (r : Nat) : RefStat := at_ stats r (refStat0 c.cfg r)
  let limit := c.cfg.get REF_REACCEPT_VALUE
  let early (r : Nat) : Nat := refReason c r (stat r)
  let cands (lo hi : Nat) : List Nat := (List.range 12).filter fun r => lo ≤ r && r < hi && refDefined c.cfg r && early r = 0
  let hc := cands 0 4
  let (hf, hs, hp) := hdgMedian c psiH hc
  let hre (r : Nat) : Nat × Nat := reaccept limit (if hf.contains r then 9 else early r) (at_ ref.left r 0)
  let hacc := hc.filter fun r => (hre r).1 = 0
  let hw := refWeights c.cfg true (hacc.map fun r => (r, stat r))
  let (psi, fallback) : Nat × Bool :=
    match hacc with
    | [] => (psiH, true)
    | a :: _ =>
      let pa := hdgValue c a
      let sum := hw.foldl (fun z p => a32 z (m32 p.2.1 (i32 (signed 32 (hdgValue c p.1 + 2 ^ 32 - pa))))) 0
      ((((pa : Int) + (frne fmt32 sum).getD 0) % 2 ^ 32).toNat, false)
  let pc := (cands 4 12).map (· - 4)
  let val (i : Nat) : Nat × Nat := posRef c psi i
  let (pf, ps, pp) := posMedian c val pc
  let pre (r : Nat) : Nat × Nat := reaccept limit (if pf.contains (r - 4) then 9 else early r) (at_ ref.left r 0)
  let pacc := (pc.map (· + 4)).filter fun r => (pre r).1 = 0
  let pw := refWeights c.cfg false (pacc.map fun r => (r, stat r))
  let one (r : Nat) : RefVote :=
    if !refDefined c.cfg r then ⟨false, 0, 0, 0, 0, 0, 0, 0, 0, 0⟩
    else
      let (reason, left) := if r < 4 then hre r else pre r
      let w := ((if r < 4 then hw else pw).find? fun p => p.1 = r).map (·.2)
      let v := if r < 4 then (hdgValue c r, 0) else val (r - 4)
      ⟨true, reason, left, (w.map (·.1)).getD 0, refSigma (stat r), refDrift r (stat r), v.1, v.2,
        heldTv c.intake (heldOf c.held (refSlot c.cfg r)), (w.map (·.2)).getD 0⟩
  let refs := (List.range 12).map one
  -- while REF is stopped voting does not run and its counts stand (R89)
  ({ ref with left := if c.stopped then ref.left else refs.map (·.left) }, ⟨refs, psi, fallback, pp, hp, ps, hs⟩)

/-- The voting registers that a commit shows. -/
def refResults (v : VoteOut) : List (Fld × Nat) :=
  let acc (lo hi : Nat) : Nat := ((List.range 12).filter fun r => lo ≤ r && r < hi &&
    match v.refs[r]? with
    | some x => x.defd && x.reason = 0
    | none => false).length
  [(REF_STATUS_HDG_FALLBACK, b2n v.fallback), (REF_STATUS_POS_PAIR_DISAGREE, b2n v.pairPos),
   (REF_STATUS_HDG_PAIR_DISAGREE, b2n v.pairHdg), (REF_STATUS_POS_SPREAD, b2n v.spreadPos),
   (REF_STATUS_HDG_SPREAD, b2n v.spreadHdg), (REF_STATUS_HDG_ACCEPTED, acc 0 4), (REF_STATUS_POS_ACCEPTED, acc 4 12)] ++
  (List.range 12).flatMap fun r =>
    match v.refs[r]? with
    | none => []
    | some x =>
      if !x.defd then []
      else if r < 4 then
        [(REF_HDG_REASON_REACC_LEFT r, x.left), (REF_HDG_REASON_REASON r, x.reason), (REF_HDG_WEIGHT_WEIGHT r, x.weight),
         (REF_HDG_SIGMA_SIGMA r, x.sigma), (REF_HDG_DRIFT_DRIFT r, x.drift)]
      else
        [(REF_POS_REASON_REACC_LEFT (r - 4), x.left), (REF_POS_REASON_REASON (r - 4), x.reason),
         (REF_POS_WEIGHT_WEIGHT (r - 4), x.weight), (REF_POS_SIGMA_SIGMA (r - 4), x.sigma),
         (REF_POS_DRIFT_DRIFT (r - 4), x.drift)]

/-- The statistics update of one reference with its innovation (R116). -/
def statStep (cfg : RegFile) (r : Nat) (st : RefStat) (e1 e2 : Nat) : RefStat :=
  let bd := cfg.get REF_BETA_D_VALUE
  let bv := cfg.get REF_BETA_V_VALUE
  let m (mu e : Nat) : Nat := a32 mu (m32 bd (s32 e mu))
  let sq := if r < 4 then m32 e1 e1 else m32 (a32 (m32 e1 e1) (m32 e2 e2)) (fofRat fmt32 1 2)
  ⟨a32 st.s2 (m32 bv (s32 sq st.s2)), m st.mu1 e1, if r < 4 then 0 else m st.mu2 e2⟩

end Sys2Proof.Machine
end

