-- ==== Sys2Proof/Machine/Lane.lean ====
section
/-! DEFINITION. The arithmetic of a solver lane (spec/07): dot products, the factorisation with its pivot rule, and the
primal-dual method with and without the embedding, and the least-squares and fixed-length jobs of GNSS. -/

namespace Sys2Proof.Machine

open Sys2Proof

/-- A dot product in the lane's order (R229): 16 partial sums by fused multiply-add, then a balanced tree. -/
def dot (a b : List Nat) : Nat :=
  let sums := ((List.range a.length).zip (a.zip b)).foldl (fun (z : List Nat) t =>
    upd_ z (t.1 % 16) 0 fun v => ma32 t.2.1 t.2.2 v) (List.replicate 16 0)
  let pair (l : List Nat) : List Nat := (List.range (l.length / 2)).map fun i => a32 (at_ l (2 * i) 0) (at_ l (2 * i + 1) 0)
  at_ (pair (pair (pair (pair sums)))) 0 0

/-- A matrix times a vector. -/
def matVec (m : List (List Nat)) (v : List Nat) : List Nat := m.map fun r => dot r v

/-- Column `j` of a matrix. -/
def colOf (m : List (List Nat)) (j : Nat) : List Nat := m.map fun r => at_ r j 0

/-- The transpose of a matrix with `c` columns. -/
def trans (m : List (List Nat)) (c : Nat) : List (List Nat) := (List.range c).map (colOf m)

/-- Element by element. -/
def zip2 (f : Nat → Nat → Nat) (a b : List Nat) : List Nat := List.zipWith f a b

/-- −v. -/
def negV (v : List Nat) : List Nat := v.map (fneg fmt32)

/-- v + a·d. -/
def axpy (a : Nat) (d v : List Nat) : List Nat := zip2 (fun di vi => ma32 a di vi) d v

/-- Every word is finite. -/
def allFin (l : List Nat) : Bool := l.all (ffinite fmt32)

/-- ‖v‖∞. -/
def normInf (v : List Nat) : Nat := v.foldl (fun m x => fmax fmt32 m (abs32 x)) 0

/-- 2^−k in binary32. -/
def pow2neg (k : Nat) : Nat := (127 - k) * 2 ^ 23

/-- The fixed tolerances of R237. -/
def epsP : Nat := pow2neg 17
/-- EPS_D. -/
def epsD : Nat := pow2neg 17
/-- EPS_G. -/
def epsG : Nat := pow2neg 20
/-- EPS_INF. -/
def epsInf : Nat := pow2neg 20
/-- ETA = 1 − 2^−7. -/
def eta : Nat := s32 one32 (pow2neg 7)
/-- PIV_REL. -/
def pivRel : Nat := pow2neg 22
/-- δ_reg. -/
def deltaReg : Nat := pow2neg 40
/-- WS_FLOOR. -/
def wsFloor : Nat := pow2neg 10

/-- An iterate of the method. -/
structure Iter where
  x : List Nat
  y : List Nat
  z : List Nat
  s : List Nat
  tk : List Nat
deriving DecidableEq, Repr

/-- Every word of an iterate. -/
def Iter.words (i : Iter) : List Nat := i.x ++ i.y ++ i.z ++ i.s ++ i.tk

/-- What a factorisation ends in: L row by row and D with the substituted pivots counted, a failed pivot, or an overflow. -/
inductive Factor where
  | ok (l : List (List Nat)) (d : List Nat) (regs : Nat)
  | ill (j : Nat)
  | ovf (regs : Nat)
deriving DecidableEq, Repr

/-- K = L·D·Lᵀ without exchange, columns ascending (R238, R240, R241): `n` columns expect a positive pivot, the rest a negative
one; `keep` says that a failing pivot stops the factorisation. Sums are dot products under R229 (notes/assumptions/13). -/
def factor (k : List (List Nat)) (n : Nat) (keep : Bool) : Factor :=
  let size := k.length
  let mu := normInf ((List.range size).map fun j => at_ (at_ k j []) j 0)
  let piv := m32 pivRel mu
  let step (f : Factor) (j : Nat) : Factor :=
    match f with
    | .ok l d regs =>
      let lj := at_ l j []
      let ld := zip2 m32 lj d
      let dj := s32 (at_ (at_ k j []) j 0) (dot lj ld)
      if !ffinite fmt32 dj || !allFin ld then .ovf regs
      else
        let sd := if j < n then dj else fneg fmt32 dj
        let fails := le32 sd 0 || lt32 sd piv
        if fails && keep then .ill j
        else
          let sub := fmax fmt32 piv deltaReg
          let dj := if fails then (if j < n then sub else fneg fmt32 sub) else dj
          let rows := (List.range size).map fun i =>
            let li := at_ l i []
            if i ≤ j then li else li ++ [d32 (s32 (at_ (at_ k i []) j 0) (dot li ld)) dj]
          if allFin (rows.map fun r => r.getLastD 0) then .ok rows (d ++ [dj]) (regs + b2n fails) else .ovf (regs + b2n fails)
    | e => e
  (List.range size).foldl step (.ok (List.replicate size []) [] 0)

/-- Solve L·D·Lᵀ·v = r. -/
def solveK (l : List (List Nat)) (d r : List Nat) : List Nat :=
  let n := d.length
  let fwd := (List.range n).foldl (fun (y : List Nat) i => y ++ [s32 (at_ r i 0) (dot (at_ l i []) y)]) []
  let mid := zip2 d32 fwd d
  (List.range n).foldl (fun (x : List Nat) t =>
    let i := n - 1 - t
    -- column i of L below the diagonal against the part already solved
    let below := (List.range (n - 1 - i)).map fun q => at_ (at_ l (i + 1 + q) []) i 0
    s32 (at_ mid i 0) (dot below x) :: x) []

/-- Residuals of R238: dual, primal, inequality. -/
def residuals (q : Prob) (t : Iter) : List Nat × List Nat × List Nat :=
  let hx := zip2 m32 q.hd t.x
  let rd := zip2 a32 (zip2 a32 (zip2 a32 hx q.g) (matVec (trans q.ma q.n) t.y)) (matVec (trans q.mg q.n) t.z)
  let rp := zip2 s32 (matVec q.ma t.x) q.b
  let ri := zip2 s32 (zip2 a32 (matVec q.mg t.x) t.s) q.h
  (rd, rp, ri)

/-- μ = sᵀz / m, absent when there is no inequality. -/
def muOf (q : Prob) (z s : List Nat) : Nat := if q.m = 0 then 0 else d32 (dot s z) (i32 q.m)

/-- The test "converged" of R238; none where one of its operations overflows (R242). -/
def converged (q : Prob) (t : Iter) : Option Bool :=
  let (rd, rp, ri) := residuals q t
  let mu := muOf q t.z t.s
  let lim (e n : Nat) : Nat := m32 e (a32 one32 n)
  let obj := a32 (m32 (fofRat fmt32 1 2) (dot t.x (zip2 m32 q.hd t.x))) (dot q.g t.x)
  let lp := lim epsP (normInf q.b)
  let li := lim epsP (normInf q.h)
  let ld := lim epsD (normInf q.g)
  let lg := lim epsG (abs32 obj)
  if !allFin (rd ++ rp ++ ri ++ [mu, obj, lp, li, ld, lg]) then none
  else some (le32 (normInf rp) lp && le32 (normInf ri) li && le32 (normInf rd) ld && le32 mu lg)

/-- K = [H + GᵀΛG, Aᵀ; A, 0]. -/
def kMatrix (q : Prob) (lam : List Nat) : List (List Nat) :=
  let gt := trans q.mg q.n
  let top := (List.range q.n).map fun i =>
    let gl := zip2 m32 (at_ gt i []) lam
    ((List.range q.n).map fun j =>
      let v := dot gl (at_ gt j [])
      if i = j then a32 (at_ q.hd i 0) v else v) ++ colOf q.ma i
  top ++ q.ma.map fun r => r ++ List.replicate q.p 0

/-- The step lengths at which the components of v + a·dv that fall reach 0. -/
def stepQuots (v dv : List Nat) : List Nat :=
  (v.zip dv).filterMap fun p => if lt32 p.2 0 then some (d32 p.1 (fneg fmt32 p.2)) else none

/-- The least of some step lengths and a limit. -/
def stepLeast (l : List Nat) (lim : Nat) : Nat := l.foldl (fmin fmt32) lim

/-- min(1, ETA · largest feasible step) for the step lengths of R238: no component that falls leaves the step unlimited. -/
def stepOf (l : List Nat) : Nat :=
  match l with
  | [] => one32
  | a :: r => fmin fmt32 one32 (m32 eta (stepLeast r a))

/-- Directions from a factor, for a right side with complementarity part `rsz`. -/
def directions (q : Prob) (l : List (List Nat)) (d : List Nat) (t : Iter) (rd rp ri lam rsz : List Nat) :
    List Nat × List Nat × List Nat × List Nat :=
  let w := zip2 s32 (zip2 m32 lam ri) (zip2 d32 rsz t.s)
  let r1 := negV (zip2 a32 rd (matVec (trans q.mg q.n) w))
  let v := solveK l d (r1 ++ negV rp)
  let dx := v.take q.n
  let dy := v.drop q.n
  let gx := matVec q.mg dx
  let ds := negV (zip2 a32 ri gx)
  let dz := zip2 s32 (zip2 m32 lam (zip2 a32 ri gx)) (zip2 d32 rsz t.s)
  (dx, dy, dz, ds)

/-- How the solver stands after some iterations. -/
inductive Run where
  | going (t : Iter) (regs : Nat)
  | ended (t : Iter) (regs : Nat) (status iters : Nat)
  | ill (t : Iter) (j iters : Nat)
  | ovf (t : Iter) (regs iters : Nat)
deriving DecidableEq, Repr

/-- One iteration of R238 from a state that has not converged. -/
def qpIter (q : Prob) (keep : Bool) (k : Nat) (t : Iter) (regs : Nat) : Run :=
  let (rd, rp, ri) := residuals q t
  let mu := muOf q t.z t.s
  let lam := zip2 d32 t.z t.s
  let km := kMatrix q lam
  if !allFin (rd ++ rp ++ ri ++ [mu] ++ lam) || !km.all allFin then .ovf t regs k
  else match factor km q.n keep with
    | .ill j => .ill t j k
    | .ovf r => .ovf t (regs + r) k
    | .ok l d r =>
      let sz := zip2 m32 t.s t.z
      let (dxa, dya, dza, dsa) := directions q l d t rd rp ri lam sz
      let qa := stepQuots t.s dsa ++ stepQuots t.z dza
      let aff := stepLeast qa one32
      let muA := if q.m = 0 then 0 else d32 (dot (axpy aff dsa t.s) (axpy aff dza t.z)) (i32 q.m)
      let ratio := if q.m = 0 then 0 else d32 muA mu
      let sigma := m32 (m32 ratio ratio) ratio
      let smu := m32 sigma mu
      let rsz := (zip2 a32 sz (zip2 m32 dsa dza)).map fun v => s32 v smu
      let (dx, dy, dz, ds) := directions q l d t rd rp ri lam rsz
      -- the largest feasible step is not limited to 1 before ETA scales it
      let qs := stepQuots t.s ds ++ stepQuots t.z dz
      let a := stepOf qs
      let t' : Iter := ⟨axpy a dx t.x, axpy a dy t.y, axpy a dz t.z, axpy a ds t.s, t.tk⟩
      if allFin (t'.words ++ sz ++ dxa ++ dya ++ dza ++ dsa ++ qa ++ rsz ++ dx ++ dy ++ dz ++ ds ++ qs ++ [muA, ratio, sigma, smu, a]) then
        .going t' (regs + r)
      else .ovf t (regs + r) k

/-- bᵀy + hᵀz. -/
def certVal (q : Prob) (t : Iter) : Nat := a32 (dot q.b t.y) (dot q.h t.z)

/-- The infeasibility test of R239; none where one of its operations overflows (R242). -/
def infeasible (q : Prob) (t : Iter) : Option Bool :=
  let v := certVal q t
  let r := zip2 a32 (matVec (trans q.ma q.n) t.y) (matVec (trans q.mg q.n) t.z)
  if !allFin (v :: r) then none
  else some (le32 (at_ t.tk 0 0) (m32 epsInf (at_ t.tk 1 0)) && lt32 v 0 && le32 (normInf r) (m32 epsD (abs32 v)))

/-- An iterate scaled by 1/τ (R239). -/
def scaled (t : Iter) : Iter :=
  let tau := at_ t.tk 0 0
  let d (v : List Nat) : List Nat := v.map fun a => d32 a tau
  ⟨d t.x, d t.y, d t.z, d t.s, t.tk⟩

/-- The certificate in the place of y and z (R239). -/
def certify (q : Prob) (t : Iter) : Iter :=
  let v := abs32 (certVal q t)
  { t with y := t.y.map fun a => d32 a v, z := t.z.map fun a => d32 a v }

/-- Residuals of the embedding: those of R238 with the data scaled by τ, and the gap κ + gᵀx + bᵀy + hᵀz + xᵀHx/τ. -/
def hsdResiduals (q : Prob) (t : Iter) : List Nat × List Nat × List Nat × Nat :=
  let tau := at_ t.tk 0 0
  let by_ (v : List Nat) : List Nat := v.map (m32 tau)
  let (rd, rp, ri) := residuals { q with g := by_ q.g, b := by_ q.b, h := by_ q.h } t
  let quad := d32 (dot t.x (zip2 m32 q.hd t.x)) tau
  (rd, rp, ri, a32 (a32 (a32 (a32 (at_ t.tk 1 0) (dot q.g t.x)) (dot q.b t.y)) (dot q.h t.z)) quad)

/-- μ of the embedding: (sᵀz + τκ)/(m + 1). -/
def hsdMu (q : Prob) (t : Iter) : Nat := d32 (a32 (dot t.s t.z) (m32 (at_ t.tk 0 0) (at_ t.tk 1 0))) (i32 (q.m + 1))

/-- A direction of the embedding: the right side of an iterate's residuals scaled by `sc`, with complementarity parts `rsz` and `rtk`, from
the direction `c` that the further solve gives for the data. -/
def hsdDir (q : Prob) (l : List (List Nat)) (d : List Nat) (t : Iter) (lam : List Nat) (c : List Nat × List Nat × List Nat × List Nat)
    (sc rtk : Nat) (rsz : List Nat) : Iter :=
  let tau := at_ t.tk 0 0
  let kap := at_ t.tk 1 0
  let (rd, rp, ri, rt) := hsdResiduals q t
  let by_ (v : List Nat) : List Nat := v.map (m32 sc)
  let (x1, y1, z1, s1) := directions q l d t (by_ rd) (by_ rp) (by_ ri) lam rsz
  let (x2, y2, z2, s2) := c
  -- the row of τ: the gradient of the gap in x is g + 2Hx/τ
  let gh := zip2 a32 q.g ((zip2 m32 q.hd t.x).map fun v => d32 (a32 v v) tau)
  let row (x y z : List Nat) : Nat := a32 (a32 (dot gh x) (dot q.b y)) (dot q.h z)
  let quad := d32 (d32 (dot t.x (zip2 m32 q.hd t.x)) tau) tau
  let num := s32 (s32 (d32 rtk tau) (m32 sc rt)) (row x1 y1 z1)
  let den := s32 (s32 (row x2 y2 z2) (d32 kap tau)) quad
  let dt := d32 num den
  let dk := fneg fmt32 (d32 (ma32 kap dt rtk) tau)
  ⟨axpy dt x2 x1, axpy dt y2 y1, axpy dt z2 z1, axpy dt s2 s1, [dt, dk]⟩

/-- One iteration of the embedding (R239): the factor and pivot rule of R238, one further solve for the data, predictor and corrector. The
directions are those of the homogeneous self-dual model of a quadratic programme, which the spec names and does not write out
(notes/assumptions/14). -/
def hsdIter (q : Prob) (keep : Bool) (k : Nat) (t : Iter) (regs : Nat) : Run :=
  let (rd, rp, ri, rt) := hsdResiduals q t
  let mu := hsdMu q t
  let lam := zip2 d32 t.z t.s
  let km := kMatrix q lam
  if !allFin (rd ++ rp ++ ri ++ [rt, mu] ++ lam) || !km.all allFin then .ovf t regs k
  else match factor km q.n keep with
    | .ill j => .ill t j k
    | .ovf r => .ovf t (regs + r) k
    | .ok l d r =>
      let (x2, y2, z2, s2) := directions q l d t q.g (negV q.b) (negV q.h) lam (List.replicate q.m 0)
      let c := (x2, y2, z2, s2)
      let sz := zip2 m32 t.s t.z
      let tk := m32 (at_ t.tk 0 0) (at_ t.tk 1 0)
      let p := hsdDir q l d t lam c one32 tk sz
      let quots (e : Iter) : List Nat := stepQuots t.s e.s ++ stepQuots t.z e.z ++ stepQuots t.tk e.tk
      let aff := stepLeast (quots p) one32
      let move (a : Nat) (e : Iter) : Iter := ⟨axpy a e.x t.x, axpy a e.y t.y, axpy a e.z t.z, axpy a e.s t.s, axpy a e.tk t.tk⟩
      let ratio := d32 (hsdMu q (move aff p)) mu
      let sigma := m32 (m32 ratio ratio) ratio
      let smu := m32 sigma mu
      let rsz := (zip2 a32 sz (zip2 m32 p.s p.z)).map fun v => s32 v smu
      let rtk := s32 (a32 tk (m32 (at_ p.tk 0 0) (at_ p.tk 1 0))) smu
      let e := hsdDir q l d t lam c (s32 one32 sigma) rtk rsz
      let a := stepOf (quots e)
      let t' := move a e
      if allFin (t'.words ++ x2 ++ y2 ++ z2 ++ s2 ++ sz ++ p.words ++ quots p ++ rsz ++ [tk, ratio, sigma, smu, rtk] ++ e.words
          ++ quots e ++ [a]) then .going t' (regs + r)
      else .ovf t (regs + r) k

/-- The tests before an iteration. -/
def testIter (q : Prob) (embed : Bool) (k : Nat) (t : Iter) (regs : Nat) : Run :=
  if embed then
    let u := scaled t
    if !allFin u.words then .ovf t regs k
    else match converged q u, infeasible q t with
      | none, _ => .ovf t regs k
      | some true, _ => .ended u regs 1 k
      | some false, none => .ovf t regs k
      | some false, some true => if allFin (certify q t).words then .ended (certify q t) regs 2 k else .ovf t regs k
      | some false, some false => .going t regs
  else match converged q t with
    | none => .ovf t regs k
    | some true => .ended t regs 1 k
    | some false => .going t regs

/-- Up to `fuel` iterations from iteration `k`. -/
def qpLoop (q : Prob) (embed keep : Bool) : Nat → Nat → Iter → Nat → Run
  | 0, k, t, regs =>
    match testIter q embed k t regs with
    | .going t regs => .ended t regs 5 k
    | e => e
  | fuel + 1, k, t, regs =>
    match testIter q embed k t regs with
    | .going t regs =>
      match (if embed then hsdIter q keep k t regs else qpIter q keep k t regs) with
      | .going t regs => qpLoop q embed keep fuel (k + 1) t regs
      | e => e
    | e => e

/-- The cold start of R236. -/
def coldIter (q : Prob) (embed : Bool) : Iter :=
  ⟨List.replicate q.n 0, List.replicate q.p 0, List.replicate q.m one32, q.h.map fun v => fmax fmt32 v one32,
    if embed then [one32, one32] else []⟩

/-- The warm start of R236 from a saved iterate. -/
def warmIter (t : Iter) (embed : Bool) : Iter :=
  let fl (v : List Nat) : List Nat := v.map fun a => if lt32 a wsFloor then wsFloor else a
  ⟨t.x, t.y, fl t.z, fl t.s, if embed then [one32, one32] else []⟩

/-! ### Least-squares jobs (R240 to R244) -/

/-- √ in binary32. -/
def q32 (a : Nat) : Nat := fsqrt fmt32 a

/-- N = JᵀWJ for the rows of J (R243, R244); only its lower triangle is read. -/
def normalOf (j : List (List Nat)) (w : List Nat) (n : Nat) : List (List Nat) :=
  let jt := trans j n
  (List.range n).map fun a => (List.range n).map fun b => dot (zip2 m32 (at_ jt a []) w) (at_ jt b [])

/-- JᵀWv. -/
def weighted (j : List (List Nat)) (w v : List Nat) (n : Nat) : List Nat :=
  (trans j n).map fun c => dot (zip2 m32 c w) v

/-- A unit vector. -/
def unitVec (n i : Nat) : List Nat := (List.replicate n 0).set i one32

/-- The lower triangle of a matrix, row by row. -/
def lowerTri (m : List (List Nat)) : List Nat := (List.range m.length).flatMap fun i => (at_ m i []).take (i + 1)

/-- What one Gauss–Newton step ends in: δ, N⁻¹, the normalised residuals and Ω; a failed pivot; an overflow (R240 to R243). -/
inductive LsStep where
  | ok (delta : List Nat) (inv : List (List Nat)) (res : List Nat) (omega : Nat)
  | ill (j : Nat)
  | ovf
deriving DecidableEq, Repr

/-- One Gauss–Newton step at a point's J, r and w (R243). -/
def lsStep (n : Nat) (j : List (List Nat)) (r w : List Nat) : LsStep :=
  let nm := normalOf j w n
  let g := weighted j w r n
  if !nm.all allFin || !allFin g then .ovf
  else match factor nm n true with
    | .ill c => .ill c
    | .ovf _ => .ovf
    | .ok l d _ =>
      let delta := solveK l d g
      let inv := trans ((List.range n).map fun i => solveK l d (unitVec n i)) n
      let res := zip2 m32 r (w.map q32)
      let omega := dot (zip2 m32 w r) r
      if allFin (delta ++ res ++ [omega]) && inv.all allFin then .ok delta inv res omega else .ovf

/-- An element of a matrix. -/
def el (m : List (List Nat)) (i j : Nat) : Nat := at_ (at_ m i []) j 0

/-- One Jacobi rotation in the plane (p, q) of a symmetric matrix, and its columns of vectors: the rotation that makes element (p, q) zero,
by its smaller angle (R244; notes/assumptions/89). -/
def jacobiAt (n : Nat) (st : List (List Nat) × List (List Nat)) (pq : Nat × Nat) : List (List Nat) × List (List Nat) :=
  let (p, q) := pq
  let a := st.1
  let d := s32 (el a q q) (el a p p)
  let h := a32 (el a p q) (el a p q)
  let den := a32 (abs32 d) (q32 (a32 (m32 d d) (m32 h h)))
  if fzero fmt32 h || fzero fmt32 den then st
  else
    let t := d32 (if lt32 d 0 then fneg fmt32 h else h) den
    let c := d32 one32 (q32 (ma32 t t one32))
    let s := m32 t c
    let cols (m : List (List Nat)) : List (List Nat) := m.map fun r =>
      let x := at_ r p 0
      let y := at_ r q 0
      (r.set p (s32 (m32 c x) (m32 s y))).set q (a32 (m32 s x) (m32 c y))
    (trans (cols (trans (cols a) n)) n, cols st.2)

/-- A number of cyclic sweeps over the pairs (i, j), i < j, in ascending order: eigenvalues and the matrix whose columns are the vectors;
none where an operation overflows (R242). -/
def jacobi (n sweeps : Nat) (a : List (List Nat)) : Option (List Nat × List (List Nat)) :=
  let pairs := (List.range n).flatMap fun i => ((List.range n).filter fun j => i < j).map fun j => (i, j)
  let (m, v) := ((List.range sweeps).flatMap fun _ => pairs).foldl (jacobiAt n) (a, (List.range n).map (unitVec n))
  if m.all allFin && v.all allFin then some ((List.range n).map fun i => el m i i, v) else none

/-- The x_i = u_i/(λ_i + ν) of R244. -/
def secular (u lam : List Nat) (nu : Nat) : List Nat := zip2 (fun a l => d32 a (a32 l nu)) u lam

/-- Newton steps on Σ x_i² = L² from ν, with at most `fuel` more (R244): where they end, whether the length has converged, how many were
made. A step that does not stay above −λ_min goes half the way there instead (notes/assumptions/89). -/
def newtonRoot (u lam : List Nat) (low len : Nat) : Nat → Nat → Nat → Option (List Nat × Bool × Nat)
  | fuel, k, nu =>
    let x := secular u lam nu
    let nb := q32 (dot x x)
    let gap := abs32 (s32 nb len)
    if !allFin (nb :: gap :: x) then none
    else if le32 gap (m32 (pow2neg 20) len) then some (x, true, k)
    else match fuel with
      | 0 => some (x, false, k)
      | fuel + 1 =>
        let f := s32 (dot x x) (m32 len len)
        let sum := dot x (zip2 (fun v l => d32 v (a32 l nu)) x lam)
        let next := a32 nu (d32 f (a32 sum sum))
        let next := if lt32 low next then next else m32 (fofRat fmt32 1 2) (a32 nu low)
        if !allFin [f, sum, next] then none else newtonRoot u lam low len fuel (k + 1) next

/-- The least and the greatest place of a list of values, ties to the lower index. -/
def argMin (l : List Nat) : Nat :=
  (((List.range l.length).zip l).foldl (fun (a : Nat × Nat) p => if lt32 p.2 a.2 then p else a) (0, at_ l 0 0)).1

/-- The index of the largest element, ties to the lower index. -/
def argMax (l : List Nat) : Nat :=
  (((List.range l.length).zip l).foldl (fun (a : Nat × Nat) p => if lt32 a.2 p.2 then p else a) (0, at_ l 0 0)).1

/-- The largest finite binary32, which stands for the Ω_c of a candidate that has not converged (R244). -/
def omegaNone : Nat := 0x7F7FFFFF

/-- A CLS job of kind 1 (R244): for each y_c the words b, Ω_c, status, and the Newton steps of the longest; none where an operation
overflows. -/
def clsOne (j : List (List Nat)) (w : List Nat) (ys : List (List Nat)) (len cap : Nat) : Option (List (List Nat) × Nat) :=
  (jacobi 3 6 (normalOf j w 3)).bind fun (lam, v) =>
    let low := fneg fmt32 (at_ lam (argMin lam) 0)
    ys.foldl (fun (o : Option (List (List Nat) × Nat)) y => o.bind fun (done, most) =>
      let u := matVec (trans v 3) (weighted j w y 3)
      (newtonRoot u lam low len cap 0 (a32 (d32 (q32 (dot u u)) len) low)).bind fun (x, ok, k) =>
        let b := matVec v x
        let e := zip2 s32 y (matVec j b)
        let omega := dot (zip2 m32 w e) e
        if allFin (omega :: b) then some (done ++ [b ++ [if ok then omega else omegaNone, if ok then 1 else 2]], max most k) else none)
      (some ([], 0))

/-- A CLS job of kind 2 (R244): the unit vector of the largest eigenvalue, its first non-zero component positive, then the eigenvalue. -/
def clsTwo (k : List (List Nat)) : Option (List Nat) :=
  (jacobi 4 8 k).map fun (lam, v) =>
    let i := argMax lam
    let q := colOf v i
    let neg : Bool := match q.find? fun x => !fzero fmt32 x with
      | some x => lt32 x 0
      | none => false
    (if neg then negV q else q) ++ [at_ lam i 0]


/-! ### QP jobs -/

/-- The data words of a problem in the order of R233. -/
def Prob.words (q : Prob) : List Nat := q.hd ++ q.g ++ q.ma.flatten ++ q.b ++ q.mg.flatten ++ q.h

/-- An outcome with nothing in it but its status. -/
def emptyRes (status : Nat) : JobRes := ⟨status, false, false, false, false, false, 0, 0, 0, 0, 0, 0, 0, [], [], [], [], [], []⟩

/-- An outcome that shows an iterate. -/
def resOf (q : Prob) (t : Iter) (status iter regs : Nat) (warm : Bool) : JobRes :=
  { emptyRes status with
    iter := iter, reg := decide (regs ≠ 0), regCnt := min regs 255, warm := warm,
    mu := (if iter = 0 then 0 else muOf q t.z t.s),
    x := t.x, y := t.y, z := t.z, s := t.s, tk := t.tk }

/-- A QP job from start to end (R235 to R242): `primary` lanes stop on a failing pivot; `saved` is the iterate a warm start takes. -/
def qpSolve (q : Prob) (cap : Nat) (embed primary : Bool) (saved : Option Iter) : JobRes :=
  if !allFin q.words then { emptyRes 4 with input := true }
  else
    let t0 := match saved with
      | some t => warmIter t embed
      | none => coldIter q embed
    let warm := saved.isSome
    match qpLoop q embed primary cap 0 t0 0 with
    | .ended t regs status k =>
      let r := resOf q t status k regs warm
      if status = 2 then { r with cert := true, certRow := argMax t.z } else r
    | .ill t j k => { resOf q t 3 k 0 warm with illCol := j }
    | .ovf t regs k => { resOf q t 4 k regs warm with ovf := true }
    | .going t regs => resOf q t 5 cap regs warm

end Sys2Proof.Machine
end

