-- ==== Sys2Proof/Machine/Oce.lean ====
section
/-! DEFINITION. The observer and control engine (spec/05): block-floating arithmetic, the program's operations, stages 4 and 5,
and the coefficient banks. -/

namespace Sys2Proof.Machine

open Sys2Proof

/-! ### The OCE section (R65, R164, R165) -/

/-- One operand table entry. -/
structure Opnd where
  kind : Nat
  rows : Nat
  cols : Nat
  sel : Nat
  ofs : Nat
deriving DecidableEq, Repr

/-- One step descriptor. -/
structure OceStep where
  op : Nat
  stg5 : Bool
  pred : Bool
  acc : Bool
  dst : Nat
  src : List Nat
  rowOfs : Nat
  param : Nat
deriving DecidableEq, Repr

/-- Steps, states, measurement rows, forces, operands of an OCE section. -/
def oceSteps (b : List Byte) : Nat := u8 b 0
/-- State count. -/
def oceStates (b : List Byte) : Nat := u8 b 1
/-- Measurement rows. -/
def oceMeas (b : List Byte) : Nat := u8 b 2
/-- Force count. -/
def oceForces (b : List Byte) : Nat := u8 b 3
/-- Operand count. -/
def oceNoper (b : List Byte) : Nat := u8 b 4
/-- GAP_MAX. -/
def oceGapMax (b : List Byte) : Nat := u8 b 5

/-- Step descriptor `i`. -/
def oceStep (b : List Byte) (i : Nat) : OceStep :=
  let d := slice b (64 + 8 * oceMeas b + 16 * i) 16
  let f := u8 d 1
  ⟨u8 d 0, bit f 0, bit f 1, bit f 2, u8 d 2, (List.range 5).map fun j => u8 d (3 + j), u16 d 8, u16 d 10⟩

/-- Operand `o`. -/
def opnd (b : List Byte) (o : Nat) : Opnd :=
  let d := slice b (64 + 8 * oceMeas b + 16 * oceSteps b + 8 * o) 8
  ⟨u8 d 0, u8 d 1, u8 d 2, u8 d 3, u16 d 4⟩

/-- The operand of KIND 5 (R165). -/
def demandOp (b : List Byte) : Nat := ((List.range (oceNoper b)).find? fun o => (opnd b o).kind = 5 && (opnd b o).cols = 1).getD 0xFF

/-! ### Block-floating values (R167 to R170) -/

/-- An exact value: significand times a power of two. -/
abbrev Dy := Int × Int

/-- Round an exact value to a mantissa under exponent `e`. -/
def mantAt (e : Int) (v : Dy) : Int :=
  let k := v.2 + 23 - e
  if 0 ≤ k then v.1 * 2 ^ k.toNat else divRne v.1 (2 ^ (-k).toNat)

/-- A mantissa is in range. -/
def mantFits (m : Int) : Bool := -(2 ^ 23) ≤ m && m < 2 ^ 23

/-- Renormalise exact values (R169): the smallest exponent under which every one fits, saturating at 127; says whether it
saturated. -/
def renorm (vs : List Dy) : Blk × Bool :=
  let nz := vs.filter fun v => v.1 ≠ 0
  if nz = [] then (⟨-128, vs.map fun _ => 0⟩, false)
  else
    -- |v| < 2^top for every value, so the exponent is top − 1, top or top + 1
    let top := nz.foldl (fun t v => max t (((Nat.log2 v.1.natAbs + 1 : Nat) : Int) + v.2)) (-100000 : Int)
    let fits (e : Int) : Bool := vs.all fun v => mantFits (mantAt e v)
    let e : Int := max (-128) (top - 1)
    let e := if fits e then e else if fits (e + 1) then e + 1 else e + 2
    if e ≤ 127 then (⟨e, vs.map (mantAt e)⟩, false)
    else (⟨127, vs.map fun v => max (-(2 ^ 23)) (min (2 ^ 23 - 1) (mantAt 127 v))⟩, true)

/-- Element `i` of a block as an exact value. -/
def Blk.val (b : Blk) (i : Nat) : Dy := (at_ b.m i 0, b.e - 23)

/-- An exact value in binary32 (R170). -/
def dy32 (v : Dy) : Nat := fofDy fmt32 v.1 v.2

/-- A binary32 value as an exact one; 0 when it is not finite (R168). -/
def dyOf (x : Nat) : Dy :=
  match fdec fmt32 x with
  | .fin n m e => (fsig n m, e)
  | _ => (0, 0)

/-- Convert binary32 elements to a block (R168); says whether an element was not finite. -/
def blkOf (xs : List Nat) : Blk × Bool := ((renorm (xs.map dyOf)).1, xs.any fun x => !ffinite fmt32 x)

/-- A term of a step (R169): exact integers with 46 fraction bits, and the exponent they carry. -/
structure Term where
  e : Int
  v : List Int

/-- A block that stands alone as a term: its mantissas brought to 46 fraction bits (notes/assumptions/11). -/
def termOf (b : Blk) : Term := ⟨b.e, b.m.map (· * 2 ^ 23)⟩

/-- Combine terms under R169: one guard bit, alignment to the largest exponent with rounding to nearest even, the sum, and
renormalisation. -/
def combine (n : Nat) (ts : List Term) : Blk × Bool :=
  let top := ts.foldl (fun t x => max t x.e) (-100000 : Int)
  let one (i : Nat) : Dy :=
    ((ts.map fun t => divRne (2 * at_ t.v i 0) (2 ^ (top - t.e).toNat)).foldl (· + ·) 0, top - 47)
  renorm ((List.range n).map one)

/-- The product term of a (r × k) and a (k × c) block. -/
def mulTerm (a b : Blk) (r k c : Nat) : Term :=
  ⟨a.e + b.e, (List.range (r * c)).map fun i =>
    (List.range k).foldl (fun z j => z + at_ a.m (i / c * k + j) 0 * at_ b.m (j * c + i % c) 0) 0⟩

/-- The transpose of an (r × c) block. -/
def transpose (a : Blk) (r c : Nat) : Blk := ⟨a.e, (List.range (r * c)).map fun i => at_ a.m (i % r * c + i / r) 0⟩

/-- The lower triangle of an n × n block mirrored into the upper. -/
def mirror (a : Blk) (n : Nat) : Blk :=
  ⟨a.e, (List.range (n * n)).map fun i => let r := i / n; let c := i % n; at_ a.m (if c ≤ r then r * n + c else c * n + r) 0⟩

/-- A binary angle difference in radians, binary32. -/
def rad32 (a : Int) : Nat := fofDy fmt32 (a * piFix) (-151)

/-- Radians, exact, as a binary angle difference, rounded to nearest. -/
def radAngle (v : Dy) : Int :=
  let num := v.1 * 2 ^ 151
  if 0 ≤ v.2 then divRne (num * 2 ^ v.2.toNat) piFix.toNat else divRne num (piFix.toNat * 2 ^ (-v.2).toNat)

/-! ### The engine's working state -/

/-- What stages 4 and 5 read beside the state: section, bank, settings, the cycle and its inputs. -/
structure OceCtx where
  sec : List Byte
  intake : List Byte
  bank : Nat → Nat
  cfg : RegFile
  n : Nat
  t0 : Int
  mode : Nat
  sps : List Nat
  /-- Time since the T0 at which the set was taken, in 2^−16 ns (R42). -/
  trackT : Int
  held : List HeldSlot
  fch : List FltCh
  vote : VoteOut

/-- The engine in the middle of a stage. -/
structure OceW where
  s : OceSt
  o : OceOut
  /-- τ_a of the interval a PRED step predicts over. -/
  tauA : List Nat
  /-- ψ̂ as it stands. -/
  psi : Nat

/-- No output yet. -/
def oceOut0 : OceOut :=
  ⟨false, false, false, false, false, false, false, false, 0, [], [], [], [], [], ⟨[], 0, 0, 0, -1, false, false, 0, 0, 0, false, false, false, 0, []⟩⟩

/-- Add a condition of the cycle, once for each row. -/
def OceW.cond (w : OceW) (c : Nat) (row : Nat := 0) : OceW :=
  if w.o.conds.contains (c, row) then w else { w with o := { w.o with conds := w.o.conds ++ [(c, row)] } }

/-- Mark an exponent saturation (R169). -/
def OceW.sat (w : OceW) (stg5 bad : Bool) : OceW :=
  if bad then ({ w with o := if stg5 then { w.o with sat5 := true } else { w.o with sat4 := true } }).cond 0x0401 else w

/-- Mark a non-finite input (R168). -/
def OceW.nonfin (w : OceW) (bad : Bool) : OceW :=
  if bad then ({ w with o := { w.o with nonfin := true } }).cond 0x0410 else w

/-- The state operand x̂ of the section. -/
def xOp (c : OceCtx) : Nat := u8 c.sec 0x14
/-- The covariance operand P. -/
def pOp (c : OceCtx) : Nat := u8 c.sec 0x15

/-- A block in state or scratch memory; zeros when nothing wrote it. -/
def OceSt.blk (s : OceSt) (o n : Nat) : Blk :=
  ((s.blks.find? fun p => p.1 = o).map (·.2)).getD ⟨-128, List.replicate n 0⟩

/-- Write a block. -/
def OceSt.put (s : OceSt) (o : Nat) (b : Blk) : OceSt :=
  { s with blks := (s.blks.filter fun p => p.1 < o) ++ (o, b) :: s.blks.filter fun p => o < p.1 }

/-- A coefficient operand from a bank (R167). -/
def coefBlk (bank : Nat → Nat) (p : Opnd) : Blk :=
  ⟨signed 8 (bank p.ofs), (List.range (p.rows * p.cols)).map fun i => signed 24 (bank (p.ofs + 1 + i))⟩

/-- The wind input word: valid, value (R65 WX and WY, R188). -/
def windIn (c : OceCtx) (w : Nat) : Bool × Nat :=
  match w % 256 with
  | 1 => let ch := at_ c.fch (w / 256 % 256) fltZero; (ch.valid, ch.out)
  | 2 => let h := heldOf c.held (w / 256 % 256); (h.ok, h.vals.getD (w / 65536 % 256) 0)
  | _ => (false, 0)

/-- The value of an input operand in binary32 (R165). -/
def inputVals (c : OceCtx) (w : OceW) (sel : Nat) : List Nat :=
  match sel with
  | 1 => (List.range (oceForces c.sec)).map fun i => at_ w.tauA i 0
  | 2 => (List.range 3).map fun i => at_ c.sps (5 + i) 0
  | _ => [(windIn c (u32 c.sec 0x1C)).2, (windIn c (u32 c.sec 0x20)).2]

/-- Read an operand, converting an input (R168). -/
def readOp (c : OceCtx) (w : OceW) (st : OceStep) (o : Nat) : Blk × OceW :=
  let p := opnd c.sec o
  match p.kind with
  | 1 => (coefBlk c.bank p, w)
  | 4 =>
    if p.sel = 4 then
      let x := w.s.blk (xOp c) (oceStates c.sec)
      (⟨x.e, (List.range p.rows).map fun i => at_ x.m (st.param + i) 0⟩, w)
    else
      let (b, bad) := blkOf (inputVals c w p.sel)
      (b, w.nonfin bad)
  | _ => (w.s.blk o (p.rows * p.cols), w)

/-- Rows of an operand. -/
def opRows (c : OceCtx) (o : Nat) : Nat := (opnd c.sec o).rows
/-- Columns of an operand. -/
def opCols (c : OceCtx) (o : Nat) : Nat := (opnd c.sec o).cols

/-- Store a result. -/
def OceW.store (w : OceW) (st : OceStep) (o : Nat) (r : Blk × Bool) : OceW := { w with s := w.s.put o r.1 }.sat st.stg5 r.2

/-- Store exact values as whole rows of the destination from ROW_OFS, added to them under ACC (R164); the other rows keep their values, and
the whole block takes one exponent (R169). -/
def OceW.storeRows (w : OceW) (c : OceCtx) (st : OceStep) (n : Nat) (vals : Nat → Dy) : OceW :=
  let cols := opCols c st.dst
  let size := opRows c st.dst * cols
  let d := w.s.blk st.dst size
  let ofs := st.rowOfs * cols
  w.store st st.dst (renorm ((List.range size).map fun i =>
    if ofs ≤ i ∧ i < ofs + n then (if st.acc then dyAdd (vals (i - ofs)) (d.val i) else vals (i - ofs)) else d.val i))

/-- Change the stored mantissas of a destination (R173). -/
def OceW.adjust (w : OceW) (c : OceCtx) (st : OceStep) (f : Blk → Blk) : OceW :=
  { w with s := w.s.put st.dst (f (w.s.blk st.dst (opRows c st.dst * opCols c st.dst))) }

/-- ψ̂: the heading anchor plus the heading error state (R177). -/
def psiHat (c : OceCtx) (s : OceSt) : Nat :=
  let x := s.blk (xOp c) (oceStates c.sec)
  (((s.psiA : Int) + radAngle (x.val (u8 c.sec 0x0E))) % 2 ^ 32).toNat

/-! ### The operations (R166) -/

/-- MV: products, a plain term and the accumulated destination, into the rows from ROW_OFS. -/
def opMv (c : OceCtx) (st : OceStep) (w : OceW) : OceW :=
  let rows := opRows c ((([0, 2, 4].map fun i => at_ st.src i 0xFF).find? fun o => o ≠ 0xFF).getD 0)
  let cols := opCols c st.dst
  let pair (w : OceW) (a b : Nat) : List Term × OceW :=
    if a = 0xFF ∨ b = 0xFF then ([], w)
    else
      let (x, w) := readOp c w st a
      let (y, w) := readOp c w st b
      ([mulTerm x y (opRows c a) (opCols c a) (opCols c b)], w)
  let (t1, w) := pair w (at_ st.src 0 0xFF) (at_ st.src 1 0xFF)
  let (t2, w) := pair w (at_ st.src 2 0xFF) (at_ st.src 3 0xFF)
  let (t3, w) : List Term × OceW :=
    if at_ st.src 4 0xFF = 0xFF then ([], w)
    else
      let (z, w) := readOp c w st (at_ st.src 4 0)
      ([termOf z], w)
  let d := w.s.blk st.dst (opRows c st.dst * cols)
  let part : Blk := ⟨d.e, (List.range (rows * cols)).map fun i => at_ d.m (st.rowOfs * cols + i) 0⟩
  let t4 := if st.acc then [termOf part] else []
  let (r, bad) := combine (rows * cols) (t1 ++ t2 ++ t3 ++ t4)
  if st.rowOfs = 0 ∧ rows = opRows c st.dst then w.store st st.dst (r, bad)
  else (w.sat st.stg5 bad).storeRows c { st with acc := false } (rows * cols) r.val

/-- The lower triangle of a term, the only part that COVP and UPDATE compute. -/
def Term.lower (t : Term) (n : Nat) : Term := ⟨t.e, (List.range (n * n)).map fun i => if i % n ≤ i / n then at_ t.v i 0 else 0⟩

/-- COVP: F·P·Fᵀ + Q, and P again under ACC; the lower triangle is computed and mirrored (notes/assumptions/11 for F·P as a block). -/
def opCovp (c : OceCtx) (st : OceStep) (w : OceW) : OceW :=
  let n := oceStates c.sec
  let (f, w) := readOp c w st (at_ st.src 0 0)
  let (q, w) := readOp c w st (at_ st.src 1 0)
  let p := w.s.blk st.dst (n * n)
  let (fp, bad) := combine (n * n) [mulTerm f p n n n]
  let (r, bad') := combine (n * n) (([mulTerm fp (transpose f n n) n n n, termOf q] ++ if st.acc then [termOf p] else []).map (·.lower n))
  w.store st st.dst (mirror r n, bad || bad')

/-- RBLK: k·R(ψ̂) into a 2 × 2 block (R166, R173). -/
def opRblk (c : OceCtx) (st : OceStep) (w : OceW) : OceW :=
  let (k, w) := readOp c w st (at_ st.src 0 0)
  let rows := opRows c st.dst
  let cols := opCols c st.dst
  let d := w.s.blk st.dst (rows * cols)
  let cs := cordicCos w.psi
  let sn := cordicSin w.psi
  let kv := k.val 0
  let put (i : Nat) : Dy :=
    let r := i / cols
    let q := i % cols
    let el (v : Int) : Dy := if st.acc then dyAdd (kv.1 * v, kv.2 - 32) (d.val i) else (kv.1 * v, kv.2 - 32)
    if r = st.rowOfs ∧ q = st.param then el cs
    else if r = st.rowOfs ∧ q = st.param + 1 then el (-sn)
    else if r = st.rowOfs + 1 ∧ q = st.param then el sn
    else if r = st.rowOfs + 1 ∧ q = st.param + 1 then el cs
    else d.val i
  w.store st st.dst (renorm ((List.range (rows * cols)).map put))

/-- A pair rotated by a binary angle, exactly (the sine and cosine to 2^−120). -/
def rotPair (psi : Nat) (back : Bool) (a b : Dy) : Dy × Dy :=
  let cs : Dy := (cosFix psi, -120)
  let sn : Dy := (if back then -sinFix psi else sinFix psi, -120)
  let mul (x y : Dy) : Dy := (x.1 * y.1, x.2 + y.2)
  let neg (x : Dy) : Dy := (-x.1, x.2)
  (dyAdd (mul cs a) (neg (mul sn b)), dyAdd (mul sn a) (mul cs b))

/-- Put the CORDIC unit's free error of at most one mantissa step on the rotated elements (R173), those of the destination that `rot` names. -/
def rotErr (psi : Nat) (rot : Nat → Bool) (b : Blk) : Blk :=
  ⟨b.e, (List.range b.m.length).map fun i =>
    let m := at_ b.m i 0
    if rot i then max (-(2 ^ 23)) (min (2 ^ 23 - 1) (m + cordicErr 3 psi ((m % 2 ^ 24).toNat + 2 ^ 24 * i) 1)) else m⟩

/-- ROT and IROT: rows in consecutive pairs rotated. -/
def opRot (back : Bool) (c : OceCtx) (st : OceStep) (w : OceW) : OceW :=
  let (a, w) := readOp c w st (at_ st.src 0 0)
  let rows := opRows c (at_ st.src 0 0)
  let cols := opCols c (at_ st.src 0 0)
  let el (i : Nat) : Dy :=
    let r := i / cols
    let q := i % cols
    let (x, y) := rotPair w.psi back (a.val (r / 2 * 2 * cols + q)) (a.val ((r / 2 * 2 + 1) * cols + q))
    if r % 2 = 0 then x else y
  let o := st.rowOfs * opCols c st.dst
  (w.storeRows c st (rows * cols) el).adjust c st (rotErr w.psi fun i => o ≤ i && i < o + rows * cols)

/-- POSERR (R187): body tracking error and body velocity reference. -/
def opPoserr (c : OceCtx) (st : OceStep) (w : OceW) : OceW :=
  let sp (i : Nat) : Nat := at_ c.sps i 0
  let track := c.mode = 5
  let t := fofRat fmt32 c.trackT Config.secUnit
  let nRef := if track then a32 (sp 0) (m32 (sp 3) t) else sp 0
  let eRef := if track then a32 (sp 1) (m32 (sp 4) t) else sp 1
  let dn := dyOf (s32 w.s.nA nRef)
  let de := dyOf (s32 w.s.eA eRef)
  let (ex, ey) := rotPair w.s.psiA true dn de
  let (ur, vr) := if track then rotPair w.s.psiA true (dyOf (sp 3)) (dyOf (sp 4)) else ((0, 0), (0, 0))
  let epsi := dyOf (rad32 (signed 32 (w.s.psiA + 2 ^ 32 - sp 2)))
  let o := st.rowOfs
  (w.storeRows c st 6 fun i => at_ [ex, ey, epsi, ur, vr, (0, 0)] i (0, 0)).adjust c st
    (rotErr w.s.psiA fun i => i = o || i = o + 1 || (track && (i = o + 3 || i = o + 4)))

/-- Degrees of freedom under closed-loop control in a mode, as a bit set (R189). -/
def closedOf (mode : Nat) : Nat :=
  match mode with
  | 3 => 4
  | 4 => 7
  | 5 => 7
  | _ => 0

/-- The state row of the integral state of degree of freedom `d`, 0xFF for none (R65). -/
def idxZ (b : List Byte) (d : Nat) : Nat := u8 b (0x10 + d)

/-- INTEG (R187): P·e_d added to the integral states under control, clamped to ZMAX, in the rows of IDX_Z that PARAM lists (notes/assumptions/11:
errors SRC0 and limits SRC1; how PARAM lists a row is not stated and is a free function). -/
def opInteg (c : OceCtx) (st : OceStep) (w : OceW) : OceW :=
  let n := oceStates c.sec
  let x := w.s.blk (xOp c) n
  let (e, w) := readOp c w st (at_ st.src 0 0)
  let (z, w) := readOp c w st (at_ st.src 1 0)
  let p := (blkOf [fofRat fmt32 (c.cfg.get SEQ_PERIOD_VALUE) 1000000]).1
  let dofs := (List.range 3).filter fun d => bit (closedOf c.mode) d && idxZ c.sec d ≠ 0xFF && Config.paramLists st.param (idxZ c.sec d)
  let add : Term := ⟨p.e + e.e, (List.range n).map fun i =>
    match dofs.find? fun d => idxZ c.sec d = i with
    | some d => at_ p.m 0 0 * at_ e.m d 0
    | none => 0⟩
  let (y, bad) := combine n [add, termOf x]
  let lt (a b : Dy) : Bool := (dyAdd a (-b.1, b.2)).1 < 0
  let cl (i : Nat) : Dy × Bool :=
    let v := y.val i
    match dofs.find? fun d => idxZ c.sec d = i with
    | some d =>
      let hi := z.val d
      let lo : Dy := (-hi.1, hi.2)
      if lt hi v then (hi, true) else if lt v lo then (lo, true) else (v, false)
    | none => (v, false)
  let cs := (List.range n).map cl
  let hit := cs.any (·.2)
  let (r, bad') := renorm (cs.map (·.1))
  let w := w.store st (xOp c) (if hit then r else y, bad || (hit && bad'))
  if hit then
    let w := if w.s.intRun then w else w.cond 0x0411
    { w with o := { w.o with intClamp := true }, s := { w.s with intRun := true } }
  else w

/-- WIND (R188): V²·T(γ). -/
def opWind (c : OceCtx) (st : OceStep) (w : OceW) : OceW :=
  let (a, w) := readOp c w st (at_ st.src 0 0)
  let (t, w) := readOp c w st (at_ st.src 1 0)
  let (vx, x) := windIn c (u32 c.sec 0x1C)
  let (vy, y) := windIn c (u32 c.sec 0x20)
  if !vx || !vy || !ffinite fmt32 x || !ffinite fmt32 y then
    (w.nonfin true).storeRows c st 3 fun _ => (0, 0)
  else
    let mx := at_ a.m 0 0
    let my := at_ a.m 1 0
    let v2 : Dy := (mx * mx + my * my, 2 * (a.e - 23))
    let g := cordicAngle mx my
    let i := g / 2 ^ 26
    let f : Int := (g / 4 % 2 ^ 24 : Nat)
    let el (k : Nat) : Dy :=
      let lo := at_ t.m (i * 3 + k) 0
      let hi := at_ t.m ((i + 1) % 64 * 3 + k) 0
      (v2.1 * (lo * 2 ^ 24 + f * (hi - lo)), v2.2 + t.e - 23 - 24)
    w.storeRows c st 3 el

/-- CLAMP: element by element to ±SRC1. -/
def opClamp (c : OceCtx) (st : OceStep) (w : OceW) : OceW :=
  let (a, w) := readOp c w st (at_ st.src 0 0)
  let (l, w) := readOp c w st (at_ st.src 1 0)
  let lt (a b : Dy) : Bool := (dyAdd a (-b.1, b.2)).1 < 0
  let cl (i : Nat) : Dy × Bool :=
    let v := a.val i
    let hi := l.val i
    let lo : Dy := (-hi.1, hi.2)
    if lt hi v then (hi, true) else if lt v lo then (lo, true) else (v, false)
  let n := opRows c (at_ st.src 0 0) * opCols c (at_ st.src 0 0)
  let hit := (List.range n).any (fun i => (cl i).2) && st.dst = demandOp c.sec
  let w := w.storeRows c st n fun i => (cl i).1
  if hit then
    let w := if w.s.tauRun then w else w.cond 0x0412
    { w with o := { w.o with tauClamp := true }, s := { w.s with tauRun := true } }
  else w

/-- FOLD (R177). -/
def opFold (c : OceCtx) (st : OceStep) (w : OceW) : OceW :=
  let n := oceStates c.sec
  let x := w.s.blk (xOp c) n
  let iN := u8 c.sec 0x0C
  let iE := u8 c.sec 0x0D
  let iP := u8 c.sec 0x0E
  let s := { w.s with
    nA := a32 w.s.nA (dy32 (x.val iN)), eA := a32 w.s.eA (dy32 (x.val iE)),
    psiA := (((w.s.psiA : Int) + radAngle (x.val iP)) % 2 ^ 32).toNat }
  let vals := (List.range n).map fun i => if i = iN ∨ i = iE ∨ i = iP then (0, 0) else x.val i
  ({ w with s := s }).store st (xOp c) (renorm vals)

/-! ### Measurement rows (R175, R176, R181 to R183) -/

/-- What one measurement row brings in a cycle: mask reason, value in the error domain, delay, variance, reference. -/
structure RowIn where
  mask : Nat
  y : Nat
  delay : Int
  var : Nat
  ref : Option Nat
  east : Bool
  /-- The delay of a value that the row's source gives exceeds DELAY_MAX (R176). -/
  late : Bool

/-- Row `r` of the section: kind, index, component, variance operand, element. -/
def measRow (b : List Byte) (r : Nat) : Nat × Nat × Nat × Nat × Nat :=
  let d := slice b (64 + 8 * r) 8
  (u8 d 0, u8 d 1, u8 d 2, u8 d 3, u16 d 4)

/-- A row's inputs in the cycle (R176, R181). -/
def rowIn (c : OceCtx) (s : OceSt) (r : Nat) : RowIn :=
  let (kind, ix, comp, vop, vix) := measRow c.sec r
  let none_ : RefVote := ⟨false, 1, 0, 0, 0, 0, 0, 0, 0, 0⟩
  let tooOld (d : Int) : Bool := (c.cfg.get OCE_LIMITS_DELAY_MAX * 1000000 * 65536 : Nat) < d
  let late (d : Int) (m : Nat) : Nat := if m ≠ 0 then m else if tooOld d then 4 else 0
  let lateRef (v : RefVote) (d : Int) : Bool := (v.reason = 0 || 6 ≤ v.reason) && tooOld d
  let coefVar : Nat := dy32 ((coefBlk c.bank (opnd c.sec vop)).val vix)
  match kind with
  | 1 =>
    let v := at_ c.vote.refs ix none_
    let d := c.t0 - v.tv
    ⟨late d (if v.reason = 0 then 0 else 1), rad32 (signed 32 (v.v1 + 2 ^ 32 - s.psiA)), d, v.var, some ix, false, lateRef v d⟩
  | 2 =>
    let v := at_ c.vote.refs (4 + ix) none_
    let d := c.t0 - v.tv
    ⟨late d (if v.reason = 0 then 0 else 1), s32 v.v1 s.nA, d, v.var, some (4 + ix), false, lateRef v d⟩
  | 3 =>
    let v := at_ c.vote.refs (4 + ix) none_
    let d := c.t0 - v.tv
    ⟨late d (if v.reason = 0 then 0 else 1), s32 v.v2 s.eA, d, v.var, some (4 + ix), true, lateRef v d⟩
  | 4 =>
    let ch := at_ c.fch ix fltZero
    let d := c.t0 - ch.tv
    ⟨late d (if !ch.valid then 2 else if !ch.fresh then 3 else 0), ch.out, d, coefVar, none, false, ch.valid && tooOld d⟩
  | _ =>
    let h := heldOf c.held ix
    let d := c.t0 - heldTv c.intake h
    ⟨late d (if h.ok then 0 else 2), h.vals.getD comp 0, d, coefVar, none, false, h.ok && tooOld d⟩

/-- The effective row h̃ = H_r − Δ·G_r, element by element in binary32, as a block (R181; notes/assumptions/11). -/
def effRow (n r : Nat) (h g : Blk) (delay : Int) : Blk :=
  let d := fofRat fmt32 delay Config.secUnit
  (blkOf ((List.range n).map fun i => s32 (dy32 (h.val (r * n + i))) (m32 d (dy32 (g.val (r * n + i)))))).1

/-- One binary32 scalar from a 1 × 1 product under R169; says whether it saturated. -/
def dotSat (n : Nat) (a b : Blk) : Nat × Bool := let (z, bad) := combine 1 [mulTerm a b 1 n 1]; (dy32 (z.val 0), bad)
/-- One binary32 scalar from a 1 × 1 product under R169. -/
def dot32 (n : Nat) (a b : Blk) : Nat := (dotSat n a b).1

/-- The innovations of R183, against the state after prediction. -/
def innovations (c : OceCtx) (w : OceW) (h g : Blk) : List (Nat × Nat × Nat) :=
  let n := oceStates c.sec
  let x := w.s.blk (xOp c) n
  let rows := List.range (oceMeas c.sec)
  let listed (reason : Nat) : Bool := reason = 0 || 6 ≤ reason
  let e (r : Nat) : Nat :=
    let i := rowIn c w.s r
    s32 i.y (dot32 n (effRow n r h g i.delay) x)
  (List.range 12).filterMap fun ref =>
    match c.vote.refs[ref]? with
    | none => none
    | some v =>
      if !v.defd || !listed v.reason then none
      else
        let find (east : Bool) : Option Nat := rows.find? fun r =>
          let i := rowIn c w.s r
          i.ref == some ref && i.east == east
        if ref < 4 then (find false).map fun r => (ref, e r, 0)
        else match find false, find true with
          | some a, some b => some (ref, e a, e b)
          | _, _ => none

/-- One scalar measurement update (R182): the new state, or a skip. -/
def updateRow (c : OceCtx) (st : OceStep) (w : OceW) (hEff : Blk) (y var : Nat) : OceW × Bool :=
  let n := oceStates c.sec
  let x := w.s.blk (xOp c) n
  let p := w.s.blk (pOp c) (n * n)
  let (ph, b1) := combine n [mulTerm p hEff n n 1]
  let (hph, b5) := dotSat n hEff ph
  let sv := a32 hph var
  if !ffinite fmt32 sv || le32 sv 0 then (w.sat st.stg5 (b1 || b5), false)
  else
    let inv := d32 one32 sv
    let k := (blkOf ((List.range n).map fun i => m32 (dy32 (ph.val i)) inv)).1
    let (hx, b6) := dotSat n hEff x
    let nu := (blkOf [s32 y hx]).1
    let (x', b2) := combine n [mulTerm k nu n 1 1, termOf x]
    let (hp, b3) := combine n [mulTerm hEff p 1 n n]
    let negK : Blk := ⟨k.e, k.m.map (fun m => -m)⟩
    let (p', b4) := combine (n * n) [(termOf p).lower n, (mulTerm negK hp n 1 n).lower n]
    let w := { w with s := (w.s.put (xOp c) x').put (pOp c) (mirror p' n) }
    (w.sat st.stg5 (b1 || b2 || b3 || b4 || b5 || b6), true)

/-- What a row did in the cycle (R176): a row that has updated the state stays used. -/
def OceW.noteRow (w : OceW) (r : Nat) (used : Bool) (m : Nat) (us : Int) : OceW :=
  let was : Bool := (at_ w.o.mrows r (false, 0, 0)).1
  let rows := put_ w.o.mrows r (false, 7, 0) (used || was, if used || was then 0 else m, us)
  { w with o := { w.o with mrows := rows, rowsUsed := (rows.filter (·.1)).length } }

/-- UPDATE (R182, R183). Innovations are formed before the first update of the cycle. -/
def opUpdate (c : OceCtx) (st : OceStep) (w : OceW) : OceW :=
  let n := oceStates c.sec
  let (h, w) := readOp c w st (at_ st.src 2 0)
  let (g, w) := readOp c w st (at_ st.src 3 0)
  let w := if w.o.mrows ≠ [] then w else { w with o := { w.o with innov := innovations c w h g } }
  let anchors := w.s
  (List.range (oceMeas c.sec)).foldl (fun w r =>
    let i := rowIn c anchors r
    let us := divRne i.delay (65536 * 1000)
    let w := if i.late && !bit w.s.lateRun r then w.cond 0x0403 r else w
    let w := { w with s := { w.s with lateRun := setBit w.s.lateRun r i.late } }
    if i.mask ≠ 0 then w.noteRow r false i.mask us
    else
      let (w, ok) := updateRow c st w (effRow n r h g i.delay) i.y i.var
      if ok then w.noteRow r true 0 us
      else ({ w.cond 0x0402 r with s := { w.s with skips := satAdd w.s.skips 1 0xFFFF } }).noteRow r false 5 us) w

/-- ψ̂ as it stands. -/
def OceW.look (w : OceW) (c : OceCtx) : OceW := { w with psi := psiHat c w.s }

/-- One step of the program, with ψ̂ as it was last looked at. -/
def runOp (c : OceCtx) (st : OceStep) (w : OceW) : OceW :=
  match st.op with
  | 1 => opMv c st w
  | 2 => opCovp c st w
  | 3 => opUpdate c st w
  | 4 => opRblk c st w
  | 5 => opRot false c st w
  | 6 => opRot true c st w
  | 7 => opPoserr c st w
  | 8 => opInteg c st w
  | 9 => opWind c st w
  | 10 => opClamp c st w
  | 11 => opFold c st w
  | _ => w

/-- One step of the program with ψ̂ as it stands. -/
def runStep (c : OceCtx) (st : OceStep) (w : OceW) : OceW := runOp c st (w.look c)

/-- The program's steps. -/
def program (b : List Byte) : List OceStep := (List.range (oceSteps b)).map (oceStep b)

/-! ### Stage 4 (R178 to R186) -/

/-- All rows masked, for a reason. -/
def maskedRows (c : OceCtx) (m : Nat) : List (Bool × Nat × Int) := (List.range (oceMeas c.sec)).map fun _ => (false, m, 0)

/-- References accepted in the cycle, among the headings or the positions. -/
def accepted (v : VoteOut) (hdg : Bool) : List (Nat × RefVote) :=
  ((List.range 12).zip v.refs).filter fun p => decide (p.1 < 4) == hdg && p.2.defd && p.2.reason == 0

/-- The initialising cycle (R185). -/
def oceInit (c : OceCtx) (w : OceW) : OceW :=
  let n := oceStates c.sec
  let pos := accepted c.vote false
  let nA := pos.foldl (fun a p => a32 a (m32 p.2.weight p.2.v1)) 0
  let eA := pos.foldl (fun a p => a32 a (m32 p.2.weight p.2.v2)) 0
  let binit := coefBlk c.bank (opnd c.sec (u8 c.sec 0x17))
  let p0 := coefBlk c.bank (opnd c.sec (u8 c.sec 0x16))
  let s := { w.s with nA := nA, eA := eA, psiA := c.vote.psi, init := true, reinit := false, valid := c.n, notInit := false }
  let s := (s.put (xOp c) ⟨binit.e, (List.range n).map fun i => at_ binit.m i 0⟩).put (pOp c) p0
  let w := ({ w with s := s }).cond 0x0405
  match (program c.sec).find? fun st => st.op = 3 with
  | some st =>
    let (h, w) := readOp c w st (at_ st.src 2 0)
    let (g, w) := readOp c w st (at_ st.src 3 0)
    { w with o := { w.o with innov := innovations c w h g, mrows := maskedRows c 6 } }
  | none => { w with o := { w.o with mrows := maskedRows c 6 } }

/-- The observer while uninitialised: this cycle initialises it when a heading and a position reference are accepted. -/
def oceUninit (c : OceCtx) (w : OceW) : OceW :=
  let w := { w with s := { w.s with dr := 0 } }
  if accepted c.vote true ≠ [] ∧ accepted c.vote false ≠ [] then oceInit c w
  else { w with o := { w.o with mrows := maskedRows c 6 } }

/-- Stage 4 of a cycle: `reinit` a host request acts, `taus` the τ_a of each interval since the state handed over. -/
def stage4 (c : OceCtx) (reinit : Bool) (taus : List (List Nat)) (s : OceSt) : OceSt × OceOut :=
  let w : OceW := ⟨s, oceOut0, [], 0⟩
  if reinit || s.reinit then
    let w := ({ w with s := { s with init := false, reinit := false } }).cond 0x0406
    let w := oceUninit c w
    (w.s, w.o)
  else if !s.init then
    let w := oceUninit c w
    (w.s, w.o)
  else
    let gap := ((c.n : Int) - s.valid).toNat
    if gap > oceGapMax c.sec then
      let w := (({ w with s := { s with init := false } }).cond 0x0408).cond 0x0406
      let w := oceUninit c w
      (w.s, w.o)
    else
      let steps := (program c.sec).filter fun st => !st.stg5
      let w := if gap > 1 then ({ w with o := { w.o with gap := true } }).cond 0x0407 else w
      let w := (taus.take gap).foldl (fun w ta =>
        -- ψ̂ as it stands at the start of the repetition (R180)
        (steps.filter (·.pred)).foldl (fun w st => runOp c st w) ({ w with tauA := ta }.look c)) w
      let w := { w with tauA := (taus.getLast?).getD [] }
      let w := (steps.filter fun st => !st.pred).foldl (fun w st => runStep c st w) w
      let posUsed := ((List.range (oceMeas c.sec)).zip w.o.mrows).any fun p =>
        p.2.1 && ((measRow c.sec p.1).1 == 2 || (measRow c.sec p.1).1 == 3)
      let dr := if posUsed then 0 else satAdd w.s.dr 1 0xFFFF
      let lim := c.cfg.get OCE_LIMITS_DR_LIMIT
      let w := if !posUsed && lim ≠ 0 && dr = lim && w.s.dr ≠ lim then w.cond 0x0409 else w
      -- on saturation the estimate is discarded; the state handed over is the one stage 4 began from (R172)
      (if w.o.sat4 then { s with reinit := true, skips := w.s.skips, lateRun := w.s.lateRun, dr := dr }
        else { w.s with valid := c.n, dr := dr }, { w.o with dr := !posUsed })

/-! ### Stage 5 (R187 to R190) -/

/-- The bias rows: the non-zero rows of B_INIT, in ascending order (R65). -/
def biasRows (c : OceCtx) : List Nat :=
  let b := coefBlk c.bank (opnd c.sec (u8 c.sec 0x17))
  (List.range (oceStates c.sec)).filter fun i => at_ b.m i 0 ≠ 0

/-- The integral states of degrees of freedom that come under control (R190). -/
def startIntegrals (c : OceCtx) (w : OceW) : OceW :=
  let n := oceStates c.sec
  let now := closedOf c.mode
  let x := w.s.blk (xOp c) n
  let br := biasRows c
  let bias (d : Nat) : Dy := match br[d]? with
    | some i => x.val i
    | none => (0, 0)
  let (bx, by_) := rotPair (psiHat c w.s) true (bias 0) (bias 1)
  let body (d : Nat) : Dy := if d = 0 then bx else if d = 1 then by_ else bias 2
  let cop := coefBlk c.bank (opnd c.sec (u8 c.sec 0x18))
  let fresh := (List.range 3).filter fun d => bit now d && !bit w.s.closed d && idxZ c.sec d ≠ 0xFF
  let val (i : Nat) : Dy :=
    match fresh.find? fun d => idxZ c.sec d = i with
    | some d => if bit (u8 c.sec 6) (1 + d) then ((cop.val d).1 * (body d).1, (cop.val d).2 + (body d).2) else (0, 0)
    | none => x.val i
  let w := if fresh = [] then w else
    let (b, bad) := renorm ((List.range n).map val)
    ({ w with s := w.s.put (xOp c) b }).sat true bad
  { w with s := { w.s with closed := now } }

/-- The demand passed to allocation (R189): `law` the demand operand, `ff` the wind feed-forward, in binary32. -/
def demandOf (c : OceCtx) (law ff : List Nat) : List Nat :=
  let joy (i : Nat) : Nat := at_ c.sps (5 + i) 0
  let joyff := bit (u8 c.sec 6) 0
  (List.range (oceForces c.sec)).map fun i =>
    match c.mode with
    | 2 => if i < 3 then (if joyff then a32 (joy i) (at_ ff i 0) else joy i) else 0
    | 3 => if i < 2 then joy i else at_ law i 0
    | _ => at_ law i 0

/-- The demand operand in binary32. -/
def lawOf (c : OceCtx) (s : OceSt) : List Nat :=
  let b := s.blk (demandOp c.sec) (oceForces c.sec)
  (List.range (oceForces c.sec)).map fun i => dy32 (b.val i)

/-- The steps that form an operand: those that write it, and what they read, back to the first step. -/
def formsOf (steps : List OceStep) (o : Nat) : List OceStep :=
  (steps.foldr (fun st (a : List OceStep × List Nat) =>
    if st.op ≠ 8 && a.2.contains st.dst then (st :: a.1, st.src ++ a.2) else a) ([], [o])).1

/-- The steps that form τ_ff (R188): WIND and, where the image adds the current feed-forward to its result, the steps that do
(notes/assumptions/93). -/
def ffSteps (steps : List OceStep) : List OceStep :=
  match steps.find? fun st => st.op = 9 with
  | some st => formsOf steps st.dst
  | none => []

/-- τ_ff (R188): the destination of the program's WIND step, with what other steps have accumulated there. -/
def ffOf (c : OceCtx) (s : OceSt) : List Nat :=
  match (program c.sec).find? fun st => st.op = 9 with
  | some st => let b := s.blk st.dst (opRows c st.dst); (List.range 3).map fun i => dy32 (b.val (st.rowOfs + i))
  | none => [0, 0, 0]

/-- Stage 5 of a cycle in a mode that allocates (R185 to R190), with τ_a of the interval that ends at its T0; modes 0 and 1 run no law (R42).
In JOYSTICK only τ_ff is formed. -/
def stage5 (c : OceCtx) (tauA : List Nat) (s : OceSt) (o : OceOut) : OceSt × OceOut :=
  let w : OceW := ⟨s, { o with conds := [] }, tauA, 0⟩
  let quiet (s : OceSt) : OceSt := { s with closed := closedOf c.mode, intRun := false, tauRun := false }
  if c.mode < 2 then (quiet s, { w.o with tau := [], tauFF := [0, 0, 0] })
  else if !s.init && 3 ≤ c.mode then
    let w := if s.notInit then w else w.cond 0x0404
    ({ quiet w.s with notInit := true }, { w.o with tau := [], tauFF := [0, 0, 0] })
  else
    let w := startIntegrals c w
    let law := (program c.sec).filter (·.stg5)
    let steps := if c.mode = 2 then ffSteps law else law
    let w := steps.foldl (fun w st => runStep c st w) w
    let w := { w with s := { w.s with intRun := w.o.intClamp, tauRun := w.o.tauClamp } }
    let ff := ffOf c w.s
    if w.o.sat5 || w.o.sat4 then (w.s, { w.o with repeated := true, tau := s.tau, tauFF := ff })
    else
      let tau := demandOf c (lawOf c w.s) ff
      ({ w.s with tau := tau }, { w.o with tau := tau, tauFF := ff })

/-- What stage 5 of a cycle leaves to the next when that one's stage 4 has ended before it: the integral states and what the control law
remembers (the model's choice, notes/assumptions/93). -/
def lawCarry (c : OceCtx) (z : Bool) (old next : OceSt) : OceSt :=
  let n := oceStates c.sec
  let x := old.blk (xOp c) n
  let y := next.blk (xOp c) n
  let rows := (List.range 3).map (idxZ c.sec)
  let s := if z && old.init && next.init then
      next.put (xOp c) (renorm ((List.range n).map fun i => if rows.contains i then x.val i else y.val i)).1
    else next
  { s with closed := old.closed, intRun := old.intRun, tauRun := old.tauRun, tau := old.tau, notInit := if next.init then next.notInit else old.notInit }

/-- The OCE registers that a commit shows, of the cycle's own state. -/
def oceResults (c : OceCtx) (bank kc : Nat) (s : OceSt) (o : OceOut) : List (Fld × Nat) :=
  let n := oceStates c.sec
  let x := s.blk (xOp c) n
  let xv (i : Nat) : Nat := if i < n then dy32 (x.val i) else 0
  let br := biasRows c
  let bias (d : Nat) : Nat := match br[d]? with
    | some i => xv i
    | none => 0
  let vel (d : Nat) : Nat := xv (Config.velRow d % max 1 n)
  [(OCE_STATUS_INIT, b2n s.init), (OCE_STATUS_DR, b2n o.dr), (OCE_STATUS_REPEATED, b2n o.repeated),
   (OCE_STATUS_INT_CLAMP, b2n o.intClamp), (OCE_STATUS_TAU_CLAMP, b2n o.tauClamp), (OCE_STATUS_SAT, b2n (o.sat4 || o.sat5)),
   (OCE_STATUS_INPUT_NONFINITE, b2n o.nonfin), (OCE_STATUS_GAP, b2n o.gap), (OCE_STATUS_BANK, bank),
   (OCE_STATUS_ROWS_USED, o.rowsUsed), (OCE_STATUS_K_C, kc), (OCE_COUNT_DR_CNT, s.dr), (OCE_COUNT_SKIP_CNT, s.skips),
   (OCE_EST_N_VALUE, a32 s.nA (xv (u8 c.sec 0x0C))), (OCE_EST_E_VALUE, a32 s.eA (xv (u8 c.sec 0x0D))),
   (OCE_EST_HDG_VALUE, psiHat c s), (OCE_EST_U_VALUE, vel 0), (OCE_EST_V_VALUE, vel 1), (OCE_EST_R_VALUE, vel 2),
   (OCE_EST_BN_VALUE, bias 0), (OCE_EST_BE_VALUE, bias 1), (OCE_EST_BZ_VALUE, bias 2)] ++
  (List.range 6).map (fun i => (OCE_TAU_VALUE i, at_ o.tau i 0)) ++
  (List.range 3).map (fun i => (OCE_TAUFF_VALUE i, at_ o.tauFF i 0)) ++
  (List.range 32).map (fun i => (OCE_STATE_VALUE i, xv i)) ++
  (List.range 24).flatMap fun r =>
    let (used, m, d) := at_ o.mrows r (false, 7, 0)
    [(OCE_MROW_USED r, b2n used), (OCE_MROW_MASK r, m), (OCE_MROW_DELAY_US r, unsigned 24 d)]

/-! ### Banks (R191 to R193) and the commands -/

/-- Word `w` of bank `b`. -/
def bankWord (s : State) (b w : Nat) : Nat := (sget (fun _ => (0 : Word)) s.banks (b * 16384 + w)).toNat

/-- Write a bank word. -/
def bankPut (s : State) (b w v : Nat) : State :=
  { s with banks := sput (fun _ => (0 : Word)) s.banks (b * 16384 + w) (BitVec.ofNat 32 v) }

/-- The SEALED flag of a bank. -/
def bankSealed (b : Nat) : Fld := if b = 0 then OCE_BANK_STS_A_SEALED else OCE_BANK_STS_B_SEALED
/-- The in-use flag of a bank. -/
def bankInUse (b : Nat) : Fld := if b = 0 then OCE_BANK_STS_A_INUSE else OCE_BANK_STS_B_INUSE
/-- The generation of a bank. -/
def bankGen (b : Nat) : Fld := if b = 0 then OCE_BANK_STS_GEN_A else OCE_BANK_STS_GEN_B

/-- A host write of a bank word (R193): permitted by the policy, to the standby bank while it is not in use. -/
def bankWrite (b w v : Nat) (s : State) : State :=
  if s.isNode then s
  else if !s.flag OCE_BANK_CTRL_HOST_WR || s.rd OCE_BANK_STS_ACTIVE = b || s.flag (bankInUse b) then refuse s 0x040D 0 w
  else (bankPut s b w v).wr (bankSealed b) 0

/-- The first word of the standby bank that breaks the format: an operand header with bits above the exponent, or a mantissa
word that is not a sign extension (R167, R193). -/
def bankBadWord (s : State) (b : Nat) : Option Nat :=
  let sec := s.sec 6
  let ops := (List.range (oceNoper sec)).map (opnd sec)
  let bads := ops.filterMap fun p =>
    if p.kind ≠ 1 then none
    else if bankWord s b p.ofs ≥ 256 then some p.ofs
    else
      ((List.range (p.rows * p.cols)).find? fun i =>
        let x := bankWord s b (p.ofs + 1 + i)
        x / 2 ^ 24 ≠ (if bit x 23 then 255 else 0)).map fun i => p.ofs + 1 + i
  bads.foldl (fun a x => match a with
    | none => some x
    | some y => some (min x y)) none

/-- OCE_BANK_CTRL.SEAL (R193). -/
def bankSeal (s : State) : State :=
  if s.isNode then s
  else
    let b := 1 - s.rd OCE_BANK_STS_ACTIVE
    match bankBadWord s b with
    | some w => report ((s.wr (bankSealed b) 0).wr OCE_BANK_STS_FMT_OFS (w / 64)) 0x040E
    | none => (s.wr (bankSealed b) 1).incWrap (bankGen b)

/-- OCE_BANK_CTRL.SWAP (R192): the request waits for the next T0. -/
def bankSwapReq (s : State) : State := if s.isNode then s else s.wr OCE_BANK_STS_SWAP_PEND 1

/-- OCE_CTRL.REINIT (R184): the request waits for the next T0. -/
def reinitReq (s : State) : State :=
  if s.isNode then s else { s with seq := { s.seq with reinit := true } }

/-- R184: a host write of OCE_CTRL.REINIT = 1. -/
def execOceReinit (p : Path) (t : Nat) (s : State) : Host.Outcome State Fault Refusal :=
  done (hostDo (s.at t) p 0x80004 1 reinitReq)

/-- R192: a host write of OCE_BANK_CTRL.SWAP = 1. -/
def execOceBankSwap (p : Path) (t : Nat) (s : State) : Host.Outcome State Fault Refusal :=
  done (hostDo (s.at t) p 0x80014 1 bankSwapReq)

/-- R193: a host write of OCE_BANK_CTRL.SEAL = 1. -/
def execOceBankSeal (p : Path) (t : Nat) (s : State) : Host.Outcome State Fault Refusal :=
  done (hostDo (s.at t) p 0x80014 2 bankSeal)

/-- R193: a host write of word `w` of bank `b`. -/
def execBankWordWrite (p : Path) (b w v t : Nat) (s : State) : Host.Outcome State Fault Refusal :=
  done (hostDo (s.at t) p (0xA0000 + b % 2 * 0x10000 + w % 16384 * 4) v (bankWrite (b % 2) (w % 16384) v))

end Sys2Proof.Machine
end

