-- ==== Sys2Proof/Machine/Alloc.lean ====
section
/-! DEFINITION. Thrust allocation (spec/06): the ALLOCATION and SCENARIOS sections as data, effective sets, power islands, and the
assembly of every quadratic programme. -/

namespace Sys2Proof.Machine

open Sys2Proof

/-- A thruster of the ALLOCATION section (R195, R227). -/
structure Thr where
  kind : Nat
  sect : Nat
  tpos : Nat
  tneg : Nat
  rt : Nat
  ra : Nat
  wedgeMin : Nat
  p0 : Nat
  pr : Nat
  w : Nat
  om : Nat
  devLim : Nat
  safFn : Nat
  /-- Forbidden sectors: start and width. -/
  sectors : List (Nat × Nat)
  verts : List (Nat × Nat)
  cols : List (List Nat)
  /-- First force variable of the thruster among all. -/
  v0 : Nat
deriving DecidableEq, Repr

/-- A switchboard section of the ALLOCATION section. -/
structure Sect where
  stsSlot : Nat
  stsComp : Nat
  loadSlot : Nat
  loadComp : Nat
  res : Nat
  rise : Nat
  feedIn : Nat
  feedPin : Nat
  feedLevel : Nat
  loadFb : Nat
deriving DecidableEq, Repr

/-- A generator of the ALLOCATION section. -/
structure Gen where
  sect : Nat
  slot : Nat
  comp : Nat
  fb : Nat
deriving DecidableEq, Repr

/-- The ALLOCATION section as data. -/
structure Alloc where
  forces : Nat
  nvar : Nat
  neq : Nat
  iterCap : Nat
  nineq : Nat
  slackEn : Nat
  fbTo : Nat
  devN : Nat
  rateH : Nat
  selLead : Nat
  returnN : Nat
  q : List Nat
  pwrTol : Nat
  qp : Nat
  cm : Nat
  slackTol : List Nat
  tauFloor : List Nat
  thr : List Thr
  sects : List Sect
  gens : List Gen
  eqRows : List (List Nat × Nat)
  ineqRows : List (List Nat × Nat)
deriving DecidableEq, Repr

/-- A SCENARIOS entry (R210). -/
structure Scen where
  lost : LSet
  ca : Bool
  cond : Bool
  lane : Nat
  order : Nat
  cover : Nat
  cmp : Nat
  pwrAdd : Nat
deriving DecidableEq, Repr

/-- Force variables of a thruster of a kind (R195). -/
def kindVars (kind forces : Nat) : Nat := if kind = 1 then 1 else if kind = 4 then forces else 2

/-- Binary32 words at consecutive places. -/
def words32 (b : List Byte) (o n : Nat) : List Nat := (List.range n).map fun i => u32 b (o + 4 * i)

/-- One thruster entry at octet `o`, and the octet behind it. -/
def thrAt (b : List Byte) (forces o v0 : Nat) : Thr × Nat :=
  let kind := u8 b o
  let nv := u8 b (o + 2)
  let cols := kindVars kind forces
  let oc := o + 68 + 8 * nv
  (⟨kind, u8 b (o + 1), u32 b (o + 8), u32 b (o + 0x0C), u32 b (o + 0x10), u32 b (o + 0x14), u32 b (o + 0x18), u32 b (o + 0x1C),
    u32 b (o + 0x20), u32 b (o + 0x24), u32 b (o + 0x28), u32 b (o + 0x3C), u8 b (o + 0x40),
    (List.range (u8 b (o + 3))).map fun i => (u32 b (o + 0x2C + 8 * i), u32 b (o + 0x30 + 8 * i)),
    (List.range nv).map fun i => (u32 b (o + 68 + 8 * i), u32 b (o + 72 + 8 * i)),
    (List.range cols).map fun c => words32 b (oc + 4 * forces * c) forces, v0⟩,
   oc + 4 * forces * cols)

/-- The ALLOCATION section (R227, R564), with the force rows of the OCE section. -/
def allocOf (b : List Byte) (forces : Nat) : Alloc :=
  let nvar := u8 b 1
  let (thr, o, _) := (List.range (u8 b 0)).foldl (fun (a : List Thr × Nat × Nat) _ =>
    let (t, o) := thrAt b forces a.2.1 a.2.2
    (a.1 ++ [t], o, a.2.2 + kindVars t.kind forces)) ([], 112, 0)
  let ns := u8 b 0x0E
  let ng := u8 b 0x0F
  let og := o + 20 * ns
  let oe := og + 8 * ng
  let row (p : Nat) : List Nat × Nat := (words32 b p nvar, u32 b (p + 4 * nvar))
  let neq := u8 b 2
  { forces := forces, nvar := nvar, neq := neq, iterCap := u8 b 3, nineq := u16 b 4, slackEn := u8 b 6, fbTo := u8 b 7,
    devN := u8 b 8, rateH := u8 b 9, selLead := u16 b 0x0A, returnN := u16 b 0x0C, q := words32 b 0x10 6,
    pwrTol := u32 b 0x28, qp := u32 b 0x2C, cm := u32 b 0x30, slackTol := words32 b 64 6, tauFloor := words32 b 88 6,
    thr := thr,
    sects := (List.range ns).map fun i =>
      let p := o + 20 * i
      ⟨u8 b p, u8 b (p + 1), u8 b (p + 2), u8 b (p + 3), u32 b (p + 4), u32 b (p + 8), u8 b (p + 12), u8 b (p + 13), u8 b (p + 14),
        u32 b (p + 16)⟩,
    gens := (List.range ng).map fun i =>
      let p := og + 8 * i
      ⟨u8 b p, u8 b (p + 1), u8 b (p + 2), u32 b (p + 4)⟩,
    eqRows := (List.range neq).map fun i => row (oe + 4 * (nvar + 1) * i),
    ineqRows := (List.range (u16 b 4)).map fun i => row (oe + 4 * (nvar + 1) * (neq + i)) }

/-- The octets that the ALLOCATION section's layout takes. -/
def allocLen (b : List Byte) (forces : Nat) : Nat :=
  let (o, _) := (List.range (u8 b 0)).foldl (fun (a : Nat × Nat) _ => ((thrAt b forces a.1 0).2, 0)) (112, 0)
  o + 20 * u8 b 0x0E + 8 * u8 b 0x0F + 4 * (u8 b 1 + 1) * (u8 b 2 + u16 b 4)

/-- The SCENARIOS section (R210). -/
def scensOf (b : List Byte) : List Scen :=
  (List.range (u16 b 0)).map fun k =>
    let p := 4 + 20 * k
    let fl := u8 b (p + 9)
    ⟨⟨u64 b p, u8 b (p + 8), u16 b (p + 0x0A)⟩, bit fl 0, bit fl 1, u8 b (p + 0x0C), u8 b (p + 0x0D), u8 b (p + 0x0E), u8 b (p + 0x0F),
      u32 b (p + 0x10)⟩

/-- The loaded ALLOCATION section. -/
def State.alloc? (s : State) : Alloc := allocOf (s.sec 7) (oceForces (s.sec 6))
/-- The loaded SCENARIOS section. -/
def State.scens (s : State) : List Scen := scensOf (s.sec 8)

/-! ### Effective sets (R211) -/

/-- No unit lost. -/
def noLoss : LSet := ⟨0, 0, 0⟩

/-- The union of two lost sets. -/
def LSet.union (a b : LSet) : LSet := ⟨a.thr ||| b.thr, a.sect ||| b.sect, a.gen ||| b.gen⟩
/-- `a` contains `b`. -/
def LSet.contains (a b : LSet) : Bool := a.thr &&& b.thr = b.thr && a.sect &&& b.sect = b.sect && a.gen &&& b.gen = b.gen
/-- The number of bits set below bit 64. -/
def popcount (n : Nat) : Nat := ((List.range 64).filter fun i => bit n i).length
/-- The number of units of a set. -/
def LSet.size (a : LSet) : Nat := popcount a.thr + popcount a.sect + popcount a.gen

/-- The effective set of a lost set (R211). -/
def effSet (a : Alloc) (l : LSet) : LSet :=
  let thr := (List.range a.thr.length).foldl (fun m i =>
    match a.thr[i]? with
    | some t => if t.sect < 8 && bit l.sect t.sect then setBit m i true else m
    | none => m) l.thr
  let gen := (List.range a.gens.length).foldl (fun m i =>
    match a.gens[i]? with
    | some g => if bit l.sect g.sect then setBit m i true else m
    | none => m) l.gen
  ⟨thr, l.sect, gen⟩

/-! ### The power plant of a cycle (R203, R217) -/

/-- The plant as the held set shows it: section status words (LIVE, closed ties), loads, available powers, and the stale items. -/
structure Plant where
  live : List Bool
  ties : List Nat
  load : List Nat
  avail : List Nat
  stale : List Nat
deriving DecidableEq, Repr

/-- Read the plant from the held set (R203, R217); a stale item is numbered generator g, 16 + section load, 24 + section status. -/
def plantOf (a : Alloc) (held : List HeldSlot) : Plant :=
  let item (slot comp : Nat) : Option Nat :=
    let h := heldOf held slot
    if h.ok then some (at_ h.vals comp 0) else none
  let sts := a.sects.map fun x => item x.stsSlot x.stsComp
  let loads := a.sects.map fun x => item x.loadSlot x.loadComp
  let gens := a.gens.map fun g => item g.slot g.comp
  let word (v : Nat) : Nat := ((ffloor fmt32 v).getD 0).toNat
  let missing (l : List (Option Nat)) (o : Nat) : List Nat :=
    ((List.range l.length).filter fun i => (at_ l i none).isNone).map fun i => o + i
  { live := sts.map fun v => match v with
      | some v => bit (word v) 0
      | none => true,
    ties := sts.map fun v => match v with
      | some v => word v / 2
      | none => 0,
    load := (a.sects.zip loads).map fun p => p.2.getD p.1.loadFb,
    avail := (a.gens.zip gens).map fun p => p.2.getD p.1.fb,
    stale := missing gens 0 ++ missing loads 16 ++ missing sts 24 }

/-- A closed tie between two sections: both status words report it (R203). -/
def tied (p : Plant) (lost i j : Nat) : Bool :=
  !bit lost i && !bit lost j && bit (at_ p.ties i 0) j && bit (at_ p.ties j 0) i

/-- The power islands of a plant without the lost sections: lists of sections, ascending by lowest section (R203). -/
def islands (a : Alloc) (p : Plant) (lost : Nat) : List (List Nat) :=
  let secs := (List.range a.sects.length).filter fun i => !bit lost i
  let grow (set : List Nat) : List Nat := secs.filter fun j => set.contains j || set.any fun i => tied p lost i j
  let close (i : Nat) : List Nat := (List.range 8).foldl (fun set _ => grow set) [i]
  secs.foldl (fun (isl : List (List Nat)) i => if isl.any fun l => l.contains i then isl else isl ++ [close i]) []

/-- The right side of R204 of one island in binary32: available power, less loads, less RES, less PWR_ADD. -/
def budget (a : Alloc) (p : Plant) (lost : LSet) (isl : List Nat) (pwrAdd : Nat) : Nat :=
  let sum (l : List Nat) : Nat := l.foldl a32 0
  let av := sum ((List.range a.gens.length).filterMap fun g =>
    match a.gens[g]? with
    | some x => if isl.contains x.sect && !bit lost.gen g then some (at_ p.avail g 0) else none
    | none => none)
  let ld := isl.foldl (fun v i => s32 v (at_ p.load i 0)) av
  let rs := isl.foldl (fun v i => match a.sects[i]? with
    | some x => s32 v x.res
    | none => v) ld
  s32 rs pwrAdd

/-! ### Constants of a thruster (R204) -/

/-- √(m·2^e) in binary32, one rounding. -/
def sqrtDy (m : Nat) (e : Int) : Nat :=
  let k : Nat := 64 + Nat.log2 (m + 1) % 2
  let k := if (e - k) % 2 = 0 then k else k + 1
  let w := m * 2 ^ k
  let r := Nat.sqrt w
  fround fmt32 false r ((e - k) / 2) (r * r ≠ w)

/-- The exact product of dyadics. -/
def dyMul (a b : Int × Int) : Int × Int := (a.1 * b.1, a.2 + b.2)

/-- The exact comparison of dyadics. -/
def dyLt (a b : Int × Int) : Bool := (dyAdd a (-b.1, b.2)).1 < 0

/-- t_max of a thruster (R204): exact for kind 1, the largest vertex distance rounded once for kinds 2 and 3. -/
def tMax (t : Thr) : Nat :=
  if t.kind = 1 then fmax fmt32 t.tpos t.tneg
  else
    let sq (v : Nat × Nat) : Int × Int := dyAdd (dyMul (dyOf v.1) (dyOf v.1)) (dyMul (dyOf v.2) (dyOf v.2))
    let m := t.verts.foldl (fun (b : Int × Int) v => if dyLt b (sq v) then sq v else b) (0, 0)
    sqrtDy m.1.toNat m.2

/-- k_i, the exact quotient (P_RATED − P0)/t_max rounded once (R204). -/
def kOf (t : Thr) : Nat :=
  let d := dyAdd (dyOf t.pr) (-(dyOf t.p0).1, (dyOf t.p0).2)
  let q := dyOf (tMax t)
  if q.1 ≤ 0 then 0
  else
    let n := d.1.natAbs
    let sh := 64 + Nat.log2 q.1.toNat
    fround fmt32 (d.1 < 0) (n * 2 ^ sh / q.1.toNat) (d.2 - q.2 - sh) (n * 2 ^ sh % q.1.toNat ≠ 0)

/-- The magnitude of a force in binary32 (R254). -/
def mag32 (f : List Nat) : Nat :=
  match f with
  | [x] => abs32 x
  | x :: y :: _ => fsqrt fmt32 (ma32 x x (m32 y y))
  | [] => 0

/-! ### Assembly (R196 to R209) -/

/-- What an assembly reads beside the image (R208). -/
structure AsmCtx where
  a : Alloc
  periodUs : Nat
  tau : List Nat
  /-- f_prev of every thruster, and θ_prev as binary angles (R197). -/
  f : List (List Nat)
  theta : List Nat
  plant : Plant
  /-- Boxes of thrusters of kind 4 (R226): CAP_NEG and CAP_POS per force row. -/
  boxes : List (Nat × List Nat × List Nat)

/-- The form of a problem: horizon, power slacks, magnitude variables; lanes 0 to 3 have none of the last. -/
structure Form where
  h : Nat
  slacks : Bool
  magn : Bool

/-- h × P in seconds, in binary32. -/
def horizon (c : AsmCtx) (f : Form) : Nat := fofRat fmt32 ((f.h * c.periodUs : Nat) : Int) 1000000
/-- ΔF_i = RT_i × h × P (R197). -/
def deltaF (c : AsmCtx) (f : Form) (t : Thr) : Nat := m32 t.rt (horizon c f)
/-- Δψ_i = RA_i × h × P as a binary angle, to nearest even (R197). -/
def deltaPsi (c : AsmCtx) (f : Form) (t : Thr) : Nat := (divRne ((t.ra * f.h * c.periodUs : Nat) : Int) 1000000).toNat

/-- f_prev of a thruster, zeros where none is known. -/
def fPrev (c : AsmCtx) (i : Nat) (t : Thr) : List Nat :=
  let l := at_ c.f i []
  (List.range (kindVars t.kind c.a.forces)).map fun j => at_ l j 0

/-- The wedge applies (R201). -/
def wedgeOn (c : AsmCtx) (f : Form) (i : Nat) (t : Thr) : Bool :=
  (t.kind = 2 || t.kind = 3) && le32 t.wedgeMin (mag32 (fPrev c i t)) && deltaPsi c f t < 2 ^ 30

/-- A row of coefficients over named columns: (variable, coefficient) pairs. -/
abbrev SRow := List (Nat × Nat)

/-- A sparse row as a dense one of `n` columns. -/
def denseRow (n : Nat) (r : SRow) : List Nat := r.foldl (fun l p => l.set p.1 (a32 (at_ l p.1 0) p.2)) (List.replicate n 0)

/-- The half-plane that keeps the thrust angle at or after `a` within half a turn: sin a·Fx − cos a·Fy ≤ 0. -/
def halfFrom (a v : Nat) : SRow := [(v, sin32 a), (v + 1, fneg fmt32 (cos32 a))]
/-- The half-plane that keeps the thrust angle at or before `a`: −sin a·Fx + cos a·Fy ≤ 0. -/
def halfTo (a v : Nat) : SRow := [(v, fneg fmt32 (sin32 a)), (v + 1, cos32 a)]

/-- The angular distance of two binary angles. -/
def angDist (a b : Nat) : Nat := let d := (a + 2 ^ 32 - b % 2 ^ 32) % 2 ^ 32; min d (2 ^ 32 - d)

/-- The half-plane of a forbidden sector (R202). -/
def sectorRow (theta v : Nat) (sec : Nat × Nat) : SRow :=
  let a1 := sec.1
  let a2 := (sec.1 + sec.2) % 2 ^ 32
  if angDist theta a1 ≤ angDist theta a2 then halfTo a1 v else halfFrom a2 v

/-- −1 in binary32. -/
def mone32 : Nat := fneg fmt32 one32

/-- Region rows of a thruster (R200), its first variable `v`. -/
def regionRows (c : AsmCtx) (i : Nat) (t : Thr) (v : Nat) : List (SRow × Nat) :=
  if t.kind = 1 then [([(v, one32)], t.tpos), ([(v, mone32)], t.tneg)]
  else if t.kind = 4 then
    let (neg, pos) := match c.boxes.find? fun b => b.1 = i with
      | some b => b.2
      | none => ([], [])
    (List.range c.a.forces).flatMap fun d => [([(v + d, one32)], at_ pos d 0), ([(v + d, mone32)], at_ neg d 0)]
  else
    let n := t.verts.length
    (List.range n).map fun j =>
      let p := at_ t.verts j (0, 0)
      let q := at_ t.verts ((j + 1) % n) (0, 0)
      let dx := s32 q.1 p.1
      let dy := s32 q.2 p.2
      -- outward normal of a counter-clockwise edge: (dy, −dx)
      ([(v, dy), (v + 1, fneg fmt32 dx)], s32 (m32 dy p.1) (m32 dx p.2))

/-- Rate rows of a thruster (R201) without the wedge. -/
def rateRows (c : AsmCtx) (f : Form) (i : Nat) (t : Thr) (v : Nat) : List (SRow × Nat) :=
  if t.kind = 4 then []
  else
    let d := deltaF c f t
    let p := fPrev c i t
    (List.range p.length).flatMap fun j => [([(v + j, one32)], a32 (at_ p j 0) d), ([(v + j, mone32)], s32 d (at_ p j 0))]

/-- The wedge of a thruster (R201). -/
def wedgeRows (c : AsmCtx) (f : Form) (i : Nat) (t : Thr) (v : Nat) : List (SRow × Nat) :=
  if wedgeOn c f i t then
    let th := at_ c.theta i 0
    let dp := deltaPsi c f t
    [(halfFrom ((th + 2 ^ 32 - dp) % 2 ^ 32) v, 0), (halfTo ((th + dp) % 2 ^ 32) v, 0)]
  else []

/-- Sector rows of a thruster (R202). -/
def sectRows (c : AsmCtx) (i : Nat) (t : Thr) (v : Nat) : List (SRow × Nat) :=
  if t.kind = 2 || t.kind = 3 then t.sectors.map fun x => (sectorRow (at_ c.theta i 0) v x, 0) else []

/-- √2 in binary32. -/
def sqrt2 : Nat := fsqrt fmt32 (i32 2)

/-- l_i of R204 on lanes 0 to 3: coefficients on the force variables, a constant, and its value at f_prev (0 for a constant). -/
def primaryLoad (c : AsmCtx) (f : Form) (i : Nat) (t : Thr) (v : Nat) : SRow × Nat × Nat :=
  let p := fPrev c i t
  let d := deltaF c f t
  if t.kind = 1 then
    let x := at_ p 0 0
    if le32 d x then ([(v, one32)], 0, x)
    else if le32 x (fneg fmt32 d) then ([(v, mone32)], 0, fneg fmt32 x)
    else ([], fmin fmt32 (a32 (abs32 x) d) (tMax t), 0)
  else if wedgeOn c f i t then
    let th := at_ c.theta i 0
    let cs := cos32 (deltaPsi c f t)
    let ux := d32 (cos32 th) cs
    let uy := d32 (sin32 th) cs
    ([(v, ux), (v + 1, uy)], 0, a32 (m32 ux (at_ p 0 0)) (m32 uy (at_ p 1 0)))
  else ([], fmin fmt32 (a32 (mag32 p) (m32 sqrt2 d)) (tMax t), 0)

/-- Magnitude rows of a scenario-lane problem (R204), magnitude variable `mv`. -/
def magnRows (t : Thr) (v mv : Nat) : List (SRow × Nat) :=
  if t.kind = 1 then [([(v, one32), (mv, mone32)], 0), ([(v, mone32), (mv, mone32)], 0)]
  else
    let cs := cos32 (2 ^ 28)
    (List.range 8).map fun q =>
      ([(v, d32 (cos32 (q * 2 ^ 29)) cs), (v + 1, d32 (sin32 (q * 2 ^ 29)) cs), (mv, mone32)], 0)

/-- A thruster that survives and its first force variable. -/
abbrev Surv := Nat × Thr × Nat

/-- The surviving thrusters with their variables in the problem. -/
def survivors (a : Alloc) (lost : LSet) : List Surv :=
  ((List.range a.thr.length).zip a.thr).foldl (fun (l : List Surv × Nat) p =>
    if bit lost.thr p.1 then l else (l.1 ++ [(p.1, p.2, l.2)], l.2 + kindVars p.2.kind a.forces)) ([], 0) |>.1

/-- Assemble one programme (R196 to R209) for the plant without the effective set `e`, with PWR_ADD. -/
def assemble (c : AsmCtx) (fm : Form) (e : LSet) (pwrAdd : Nat) : Prob :=
  let a := c.a
  let sv := survivors a e
  let nf := sv.foldl (fun k x => k + kindVars x.2.1.kind a.forces) 0
  let rows := (List.range a.forces).filter fun d => bit a.slackEn d
  let sofs := (List.range rows.length).map fun k => (at_ rows k 0, nf + k)
  let mags := if fm.magn then sv.filter fun x => x.2.1.kind ≠ 4 else []
  let om := nf + rows.length
  let mofs : List (Nat × Nat) := (List.range mags.length).map fun k => ((at_ (mags.map (·.1)) k 0), om + k)
  let isl := if a.sects.isEmpty then [] else islands a c.plant e.sect
  let op := om + mags.length
  let pofs := if fm.slacks then (List.range isl.length).map fun k => (((at_ isl k []).head?).getD 0, op + k) else []
  let n := op + pofs.length
  -- columns of the surviving force variables among all force variables
  let colMap : List (Nat × Nat) := sv.flatMap fun x => (List.range (kindVars x.2.1.kind a.forces)).map fun j => (x.2.1.v0 + j, x.2.2 + j)
  let eqForce := (List.range a.forces).map fun d =>
    let r : SRow := sv.flatMap fun x => (List.range x.2.1.cols.length).map fun j => (x.2.2 + j, at_ (at_ x.2.1.cols j []) d 0)
    let sl : SRow := (sofs.filter fun p => p.1 = d).map fun p => (p.2, one32)
    (r ++ sl, at_ c.tau d 0)
  let eqExtra := a.eqRows.map fun r => (colMap.map fun p => (p.2, at_ r.1 p.1 0), r.2)
  let eqs := eqForce ++ eqExtra
  let region := sv.flatMap fun x => regionRows c x.1 x.2.1 x.2.2
  let rate := sv.flatMap fun x => rateRows c fm x.1 x.2.1 x.2.2
  let wedge := sv.flatMap fun x => wedgeRows c fm x.1 x.2.1 x.2.2
  let sect := sv.flatMap fun x => sectRows c x.1 x.2.1 x.2.2
  let magn := mags.flatMap fun x => magnRows x.2.1 x.2.2 (((mofs.find? fun p => p.1 = x.1).map (·.2)).getD 0)
  let load (x : Surv) : SRow × Nat × Nat :=
    if fm.magn then ([(((mofs.find? fun p => p.1 = x.1).map (·.2)).getD 0, one32)], 0, 0) else primaryLoad c fm x.1 x.2.1 x.2.2
  let inIsl (l : List Nat) : List Surv := sv.filter fun x => x.2.1.kind ≠ 4 && l.contains x.2.1.sect
  let scale (k : Nat) (r : SRow) : SRow := r.map fun p => (p.1, m32 k p.2)
  let power := (List.range isl.length).map fun k =>
    let l := at_ isl k []
    let b := budget a c.plant e l pwrAdd
    let ts := inIsl l
    let rhs := ts.foldl (fun v x => s32 v (a32 x.2.1.p0 (m32 (kOf x.2.1) (load x).2.1))) b
    let sl : SRow := match pofs[k]? with
      | some p => [(p.2, mone32)]
      | none => []
    (ts.flatMap (fun x => scale (kOf x.2.1) (load x).1) ++ sl, rhs)
  let piRows := pofs.map fun p => ([(p.2, mone32)], 0)
  let rise := if fm.magn then [] else isl.filterMap fun l =>
    let r := l.foldl (fun v i => match a.sects[i]? with
      | some x => a32 v x.rise
      | none => v) 0
    if lt32 0 r then
      let ts := inIsl l
      let base := m32 (horizon c fm) r
      some (ts.flatMap (fun x => scale (kOf x.2.1) (load x).1),
        ts.foldl (fun v x => a32 v (m32 (kOf x.2.1) (load x).2.2)) base)
    else none
  let extra := a.ineqRows.filterMap fun r =>
    let sr : SRow := colMap.map fun p => (p.2, at_ r.1 p.1 0)
    if sr.all fun p => fzero fmt32 p.2 then none else some (sr, r.2)
  let ineq := region ++ rate ++ wedge ++ sect ++ magn ++ power ++ piRows ++ rise ++ extra
  let two := i32 2
  let hd := (sv.flatMap fun x => List.replicate (kindVars x.2.1.kind a.forces) (m32 two (a32 x.2.1.w x.2.1.om)))
    ++ rows.map (fun d => m32 two (at_ a.q d 0)) ++ List.replicate mags.length 0 ++ List.replicate pofs.length (m32 two a.qp)
  let g := (sv.flatMap fun x => (fPrev c x.1 x.2.1).map fun v => fneg fmt32 (m32 (m32 two x.2.1.om) v))
    ++ List.replicate rows.length 0 ++ List.replicate mags.length a.cm ++ List.replicate pofs.length 0
  { n := n, p := eqs.length, m := ineq.length, hd := hd, g := g,
    ma := eqs.map fun r => denseRow n r.1, b := eqs.map (·.2),
    mg := ineq.map fun r => denseRow n r.1, h := ineq.map (·.2),
    fofs := sv.map fun x => (x.1, x.2.2, kindVars x.2.1.kind a.forces),
    sofs := sofs, pofs := pofs,
    isl := isl.map fun l => ((l.head?).getD 0, l, budget a c.plant e l pwrAdd),
    prow := region.length + rate.length + wedge.length + sect.length + magn.length }

/-! ### Worst-case sizes (R206, R234) -/

/-- The worst-case variables, equalities and inequalities of a problem form over every cycle (R206, R234) under a period in µs: every
section its own island, the wedge of every thruster whose Δψ admits one, every load-rise row. -/
def worstShape (a : Alloc) (fm : Form) (period : Nat) (e : LSet) : Nat × Nat × Nat :=
  let sv := survivors a e
  let nf := sv.foldl (fun k x => k + kindVars x.2.1.kind a.forces) 0
  let ns := ((List.range a.sects.length).filter fun i => !bit e.sect i).length
  let real := sv.filter fun x => x.2.1.kind ≠ 4
  let mags := if fm.magn then real.length else 0
  let n := nf + ((List.range a.forces).filter fun d => bit a.slackEn d).length + mags + if fm.slacks then ns else 0
  let wedge (t : Thr) : Nat := if divRne ((t.ra * fm.h * period : Nat) : Int) 1000000 < 2 ^ 30 then 2 else 0
  let per (x : Surv) : Nat :=
    let t := x.2.1
    if t.kind = 1 then 4 + if fm.magn then 2 else 0
    else if t.kind = 4 then 2 * a.forces
    else t.verts.length + 4 + wedge t + t.sectors.length + if fm.magn then 8 else 0
  let rise := if fm.magn then 0 else (((List.range a.sects.length).zip a.sects).filter fun x => !bit e.sect x.1 && lt32 0 x.2.rise).length
  let cols := sv.flatMap fun x => (List.range (kindVars x.2.1.kind a.forces)).map fun j => x.2.1.v0 + j
  let extra := (a.ineqRows.filter fun r => cols.any fun v => !fzero fmt32 (at_ r.1 v 0)).length
  (n, a.forces + a.neq, (sv.map per).sum + ns + (if fm.slacks then ns else 0) + rise + extra)

/-- Words of data, iterate and workspace of a QP job of a shape (R233, R234). -/
def qpWords (n p m : Nat) (embed : Bool) : Nat × Nat × Nat :=
  let v := n + p + 2 * m + if embed then 2 else 0
  (2 * n + p * (n + 1) + m * (n + 1), v, 4 * v + (n + p) * (n + p + 1) / 2 + 2 * (n + p))

/-- Form of lane 0's, lane 1's and the scenario lanes' problems (R209). -/
def formOf (ks rateH lane : Nat) : Form := if lane = 0 then ⟨ks, false, false⟩ else if lane = 1 then ⟨ks, true, false⟩ else ⟨ks * rateH, true, true⟩

/-- Lane memory in use under R234. -/
def laneUse (shapes : List (Nat × Nat × Nat)) : Nat :=
  if shapes.isEmpty then 0
  else
    let b := if shapes.length = 1 then 1 else 2
    let mx (f : Nat × Nat × Nat → Nat) : Nat := (shapes.map f).foldl max 0
    256 + (shapes.map fun x => 16 + 3 * (x.2.1 + 2)).sum + b * mx (·.1) + mx (·.2.2)

end Sys2Proof.Machine
end

