-- ==== Sys2Proof/Machine/Fld.lean ====
section
/-! DEFINITION. Actuator axes and position feedback (spec/08): axis commands, field pins, position channels and compare units. -/

namespace Sys2Proof.Machine

open Sys2Proof

/-! ### The FIELD section (R68) -/

/-- A pin entry. -/
structure PinEnt where
  pin : Nat
  func : Nat
  d0 : Nat
  d1 : Nat
  dmin : Nat
  dmax : Nat
deriving DecidableEq, Repr

/-- An axis entry. -/
structure AxisEnt where
  typ : Nat
  unit : Nat
  sink : Nat
  sinkRef : Nat
  thr : Nat
  fbSrc : Nat
  chan : Nat
  drvAxis : Nat
  sinkInst : Nat
  azOfs : Nat
  stby : Nat
  rudGain : Nat
  rudMax : Nat
  curve : List (Nat × Nat)
deriving DecidableEq, Repr

/-- The pin entries of a FIELD section. -/
def pinEnts (b : List Byte) : List PinEnt :=
  (List.range (u8 b 0)).map fun i =>
    let o := 8 + 24 * i
    ⟨u8 b o, u8 b (o + 1), u32 b (o + 8), u32 b (o + 12), u32 b (o + 16), u32 b (o + 20)⟩

/-- The axis entries of a FIELD section. -/
def axisEnts (b : List Byte) : List AxisEnt :=
  ((List.range (u8 b 1)).foldl (fun (a : List AxisEnt × Nat) _ =>
    let o := a.2
    let n := u8 b (o + 7)
    (a.1 ++ [⟨u8 b o, u8 b (o + 1), u8 b (o + 2), u8 b (o + 3), u8 b (o + 4), u8 b (o + 5), u8 b (o + 6), u8 b (o + 8), u8 b (o + 9),
      u32 b (o + 0x0C), u32 b (o + 0x10), u32 b (o + 0x14), u32 b (o + 0x18),
      (List.range n).map fun j => (u32 b (o + 0x1C + 8 * j), u32 b (o + 0x20 + 8 * j))⟩], o + 28 + 8 * n)) ([], 8 + 24 * u8 b 0)).1

/-- The loaded axes. -/
def State.axes (s : State) : List AxisEnt := axisEnts (s.sec 13)
/-- The loaded pins. -/
def State.pins (s : State) : List PinEnt := pinEnts (s.sec 13)

/-! ### Axis commands (R253 to R255) -/

/-- The curve at a force (R254): the lowest segment that holds it, in binary32 in the order written. -/
def curveAt (c : List (Nat × Nat)) (f : Nat) : Nat :=
  let segs := (List.range (c.length - 1)).map fun j => (at_ c j (0, 0), at_ c (j + 1) (0, 0))
  match segs.find? fun p => le32 p.1.1 f && le32 f p.2.1 with
  | some (p, q) => a32 p.2 (m32 (s32 f p.1) (d32 (s32 q.2 p.2) (s32 q.1 p.1)))
  | none => match c.getLast? with
    | some p => if lt32 p.1 f then p.2 else (at_ c 0 (0, 0)).2
    | none => 0

/-- The force of a command under the inverse of a curve (R279). -/
def curveInv (c : List (Nat × Nat)) (v : Nat) : Nat :=
  let segs := (List.range (c.length - 1)).map fun j => (at_ c j (0, 0), at_ c (j + 1) (0, 0))
  match segs.find? fun p => le32 p.1.2 v && le32 v p.2.2 && lt32 p.1.2 p.2.2 with
  | some (p, q) => a32 p.1 (m32 (s32 v p.2) (d32 (s32 q.1 p.1) (s32 q.2 p.2)))
  | none => match c.getLast? with
    | some p => if lt32 p.2 v then p.1 else (at_ c 0 (0, 0)).1
    | none => 0

/-- The signed reading of a binary angle in binary32. -/
def signedAngle32 (a : Nat) : Nat := i32 (signed 32 a)

/-- The command of an axis for its thruster's force variables and thrust angle (R253). -/
def axisCommand (x : AxisEnt) (f : List Nat) (theta : Nat) : Nat :=
  match x.typ with
  | 1 => (theta + x.azOfs) % 2 ^ 32
  | 2 => curveAt x.curve (mag32 f)
  | 3 => curveAt x.curve (at_ f 0 0)
  | _ =>
    let r := (frne fmt32 (m32 x.rudGain (signedAngle32 theta))).getD 0
    let m : Int := x.rudMax
    unsigned 32 (max (-m) (min m r))

/-- The command of every axis at a commit: STBY for the thrusters of `drop` (R255). -/
def axisCommands (axes : List AxisEnt) (f : List (List Nat)) (theta : List Nat) (drop : Nat) : List AxisRes :=
  axes.map fun x =>
    if bit drop x.thr then ⟨x.stby, true⟩ else ⟨axisCommand x (at_ f x.thr []) (at_ theta x.thr 0), false⟩

/-- The standby angle of a thruster of kind 2 or 3 (R197): STBY of its AZIMUTH or RUDDER axis. -/
def standbyAngle (axes : List AxisEnt) (i : Nat) : Nat :=
  match axes.find? fun x => x.thr = i && (x.typ = 1 || x.typ = 4) with
  | some x => x.stby
  | none => 0

/-- The high time of a PWM pin for its axis's command (R260): clamp(D0 + D1·c, DMIN, DMAX) of PERIOD, c in degrees for a rudder. -/
def pwmHigh (p : PinEnt) (x : AxisEnt) (v period : Nat) : Nat :=
  let c := if x.typ = 4 then fofRat fmt32 (signed 32 v * 360) (2 ^ 32) else v
  let d := fmax fmt32 p.dmin (fmin fmt32 p.dmax (a32 p.d0 (m32 p.d1 c)))
  ((frne fmt32 (m32 d (i32 period))).getD 0).toNat

/-- The registers and PWM duties of committed axis commands (R259, R260): the duty takes effect at the next period. -/
def axisOutputs (s : State) (axes : List AxisRes) (dout : Nat) : State :=
  let ents := s.axes
  let pins := s.pins
  let duty := (List.range ents.length).filterMap fun i =>
    match ents[i]?, axes[i]? with
    | some x, some r => if x.sink = 3 then
        (pins.find? fun p => p.pin = x.sinkRef).map fun p => (x.sinkRef, pwmHigh p x r.val (s.rd (FLD_PIN_TIM_PERIOD x.sinkRef)))
      else none
    | _, _ => none
  let pwm := s.fld.pwm.map fun w => match duty.find? fun d => d.1 = w.pin with
    | some d => { w with next := d.2 }
    | none => w
  -- DOUT pins that no compare unit drives follow the host's levels of the cycle
  let taken := (List.range 64).filter fun u => s.flag (FLD_CMP_CFG_EN u) && s.flag (FLD_CMP_CFG_PIN_EN u)
  let out := pins.foldl (fun o p =>
    if p.func = 10 && !(taken.any fun u => s.rd (FLD_CMP_CFG_PIN u) = p.pin) then setBit o p.pin (bit dout p.pin) else o) s.fld.out
  { s with fld := { s.fld with pwm := pwm, out := out } }

/-- The output pins go to SAFE_LEVEL (R257), or while FIELD is stopped to their hold policy (R89): a pin with HOLD_LAST keeps its level, and
a PWM pin with it goes on with its last committed duty. -/
def parkPins (s : State) (safe : Bool) : State :=
  let pins := s.pins
  let out := pins.foldl (fun o p =>
    if (p.func = 8 || p.func = 10) && (safe || !s.flag (FLD_PIN_CFG_HOLD_LAST p.pin)) then
      setBit o p.pin (s.flag (FLD_PIN_CFG_SAFE_LEVEL p.pin)) else o) s.fld.out
  { s with fld := { s.fld with out := out, parked := true } }

/-- A channel at cold start (R269). -/
def chanZero : ChanSt := ⟨none, false, 0, none, false, false, none, false, none, 0, false, false, [], none, 0, none, false, false, none, none⟩

/-- The cold start of FIELD (R89, R269, R273): channels afresh, counters 0, compare units armed from the settings in force. -/
def fldCold (s : State) : State :=
  let chs := (List.range (s.rd FLD_STATUS_CHANNELS)).map fun e =>
    let lvl (o : Nat) : Bool := bit (s.rd (FLD_LVL_LEVEL ((s.rd (FLD_POS_PINS_PINS e) / 2 ^ o % 64) / 32))) ((s.rd (FLD_POS_PINS_PINS e) / 2 ^ o % 64) % 32)
    { chanZero with a := lvl 24, b := lvl 16 }
  let s := { s with fld := { s.fld with
    ch := chs, cmp := List.replicate (s.rd FLD_STATUS_CMPS) ⟨none⟩, parked := false,
    drives := s.fld.drives.map fun d => { d with rej := 0, dup := 0 }
    pwm := (s.pins.filter fun p => p.func = 8).map fun p =>
      match s.fld.pwm.find? fun w => w.pin = p.pin with
      | some w => w
      | none => ⟨p.pin, 0, 0⟩ } }
  let s := (List.range (s.rd FLD_STATUS_CHANNELS)).foldl (fun s e =>
    s.wrs [(FLD_POS_CNT_ILLEGAL e, 0), (FLD_POS_CNT_RELAY_CNT e, 0), (FLD_POS_CNT_BAD_WORDS e, 0), (FLD_POS_ZCOUNT_ZCOUNT e, 0)]) s
  let s := (List.range (s.rd FLD_STATUS_AXES)).foldl (fun s a => s.wrs [(FLD_AX_STS_FB_REJ a, 0), (FLD_AX_STS_FB_DUP a, 0)]) s
  (List.range (s.rd FLD_STATUS_CMPS)).foldl (fun s u =>
    let en := b2n (s.flag (FLD_CMP_CFG_EN u))
    s.wrs [(FLD_CMP_STS_ARMED u, en), (FLD_CMP_STS_WAIT_DIR u, en), (FLD_CMP_STS_BEHIND u, 0), (FLD_CMP_STS_LATCHED u, 0)]) s

/-- FIELD stops (R89): compare units are disarmed and the output pins take their hold policy. -/
def fldStop (s : State) : State :=
  let s := (List.range (s.rd FLD_STATUS_CMPS)).foldl (fun s u => s.wr (FLD_CMP_STS_ARMED u) 0) s
  parkPins s false

/-! ### Position channels -/

/-- Change one channel. -/
def updChan (s : State) (e : Nat) (f : ChanSt → ChanSt) : State :=
  { s with fld := { s.fld with ch := upd_ s.fld.ch e chanZero f } }

/-- Channel `e`. -/
def State.chan (s : State) (e : Nat) : ChanSt := at_ s.fld.ch e chanZero

/-- The channel is in service: FIELD runs and the channel is not fenced (R263). -/
def chanRuns (s : State) (e : Nat) : Bool := groupRuns s 4 && !bit (s.rd ERR_FENCE_POS_UNIT) e

/-- Gray decoding of a `w`-bit field (R262). -/
def grayDecode (w g : Nat) : Nat :=
  ((List.range w).foldl (fun (a : Nat × Bool) i =>
    let b := bit g (w - 1 - i) != a.2
    (2 * a.1 + b2n b, b)) (0, false)).1

/-- The angle that a word spells (R262). -/
def decodeAngle (s : State) (e w : Nat) : Nat :=
  let bits := s.rd (FLD_POS_CFG_POS_BITS e)
  let p := w / 2 ^ s.rd (FLD_POS_CFG_POS_SHIFT e) % 2 ^ bits
  let p := if s.flag (FLD_POS_CFG_GRAY e) then grayDecode bits p else p
  let a := p * 2 ^ (32 - bits)
  let a := if s.flag (FLD_POS_CFG_INV e) then (2 ^ 32 - a) % 2 ^ 32 else a
  (a + s.rd (FLD_POS_OFS_OFS e)) % 2 ^ 32

/-- The parity of the bits of a number below bit 33. -/
def oddParity (w : Nat) : Bool := ((List.range 33).filter fun i => bit w i).length % 2 = 1

/-- The first failing check of a word (R263), 0 when it is valid. -/
def wordReason (s : State) (e : Nat) (c : ChanSt) (w : EncWord) : Nat :=
  let len := s.rd (FLD_POS_CFG_WORD_LEN e)
  let v := w.word % 2 ^ len
  let par := s.rd (FLD_POS_CFG_PARITY e)
  let a := decodeAngle s e v
  let far (b : Nat) : Bool := s.rd (FLD_POS_JUMP_JUMP_MAX e) < (signed 32 (a + 2 ^ 32 - b)).natAbs
  let jump : Bool := match c.lastV with
    | some (p, _) => far p && (match c.jump with
      | some j => far j
      | none => true)
    | none => false
  if !w.idle then 1
  else if (par = 1 && oddParity v) || (par = 2 && !oddParity v) then 2
  else if s.rd (FLD_POS_DLY_ERR_BIT e) < 32 && bit v (s.rd (FLD_POS_DLY_ERR_BIT e)) == s.flag (FLD_POS_DLY_ERR_LEVEL e) then 3
  else if !w.zero then 4
  else if s.rd (FLD_POS_JUMP_JUMP_MAX e) ≠ 0 && jump then 5
  else 0

/-- The speed of an absolute channel from its previous valid sample (R271): 60·Δθ/(2^32·Δt) rpm, rounded once. -/
def absSpeed (c : ChanSt) (a : Nat) (t : Int) : Option Nat :=
  match c.lastV with
  | some (p, tp) => if c.prevOk && tp < t then
      some (fofRat fmt32 (60 * signed 32 (a + 2 ^ 32 - p) * 65536 * 1000000000) (2 ^ 32 * (t - tp).toNat))
    else none
  | none => none

/-- A compare unit fires (R274). -/
def cmpFire (s : State) (u n k : Nat) (tv : Int) : State :=
  let s := s.wrs [(FLD_CMP_STS_LATCHED u, 1), (FLD_CMP_STS_BEHIND u, 0)]
  let s := s.incSat (FLD_CMP_STS_FIRE_CNT u) 0xFFFF
  let s := if s.flag (FLD_CMP_CFG_PIN_EN u) && !s.fld.parked then
    { s with fld := { s.fld with out := setBit s.fld.out (s.rd (FLD_CMP_CFG_PIN u)) (s.flag (FLD_CMP_CFG_PIN_LEVEL u)) } } else s
  -- the event's cycle: T0(n − 1) < t_s ≤ T0(n)
  let ev : FldEvent := ⟨if k = 0 then n else n + 1, tv, u, s.flag (FLD_CMP_CFG_LOG u), s.flag (FLD_CMP_CFG_IRQ u)⟩
  { s with fld := { s.fld with events := s.fld.events ++ [ev] } }

/-- One compare unit at a valid sample of its channel (R272, R273). -/
def cmpEval (s : State) (u n k a1 : Nat) (tv : Int) : State :=
  if !s.flag (FLD_CMP_STS_ARMED u) then s
  else
    let set (s : State) : State := { s with fld := { s.fld with cmp := upd_ s.fld.cmp u ⟨none⟩ fun c => { c with prev := some a1 } } }
    match (at_ s.fld.cmp u ⟨none⟩).prev with
    | none => set s
    | some a0 =>
      let val := s.rd (FLD_CMP_VALUE_VALUE u)
      let d := signed 32 (a1 + 2 ^ 32 - a0)
      let toV := signed 32 (val + 2 ^ 32 - a0)
      let left := signed 32 (val + 2 ^ 32 - a1)
      let s := set s
      let s := if s.rd (FLD_CMP_HYST_HYST u) < left.natAbs then s.wr (FLD_CMP_STS_LATCHED u) 0 else s
      let far : Bool := 2 ^ 30 < d.natAbs
      if s.flag (FLD_CMP_STS_BEHIND u) && s.flag (FLD_CMP_CFG_FIRE_IF_BEHIND u) then
        let s := cmpFire s u n k tv
        if far then report s 0x090A u else s
      else if far then report s 0x090A u
      else
        let cross := (0 < d && 0 < toV && toV ≤ d) || (d < 0 && d ≤ toV && toV < 0)
        if s.flag (FLD_CMP_STS_WAIT_DIR u) && d ≠ 0 then
          let s := s.wr (FLD_CMP_STS_WAIT_DIR u) 0
          if cross then cmpFire s u n k tv
          else if (0 < d && left < 0) || (d < 0 && 0 < left) then report (s.wr (FLD_CMP_STS_BEHIND u) 1) 0x0909 u
          else s
        else if cross && !s.flag (FLD_CMP_STS_LATCHED u) then cmpFire s u n k tv
        else s

/-- Evaluate the compare units of a channel at a valid sample. -/
def cmpAll (s : State) (e n k a1 : Nat) (tv : Int) : State :=
  (List.range (s.rd FLD_STATUS_CMPS)).foldl (fun s u =>
    if s.rd (FLD_CMP_CFG_CHAN u) = e then cmpEval s u n k a1 tv else s) s

/-- The k = 0 result enters cycle `n` and the slots of kind 3 that name the channel (R264, R268). -/
def fieldResult (s : State) (e n : Nat) (r : EncRes) (v : Nat) : State :=
  let s := updCyc s n fun c => { c with inp := { c.inp with enc := (c.inp.enc.filter fun x => x.1 ≠ e) ++ [(e, r)] } }
  let sec := s.sec 3
  (definedSlots sec).foldl (fun s i =>
    let ent := (slotEntry sec i).getD []
    if u8 ent 1 = 3 && u8 ent 4 = e then
      let s := slotArrive s i [v] r.tArr none (!r.valid)
      let l := at_ s.flt.live i slotZero
      let h : HeldSlot := ⟨i, l.vals, l.tArr, none, l.invalid, false, false, 1, l.chg⟩
      let s := { s with flt := { s.flt with live := upd_ s.flt.live i slotZero fun l => { l with upd := 0 } } }
      updCyc s n fun c => { c with inp := { c.inp with held := c.inp.held.map fun x => if x.slot = i then h else x } }
    else s) s

/-- A sample of an absolute channel has its word, or none for a reason of its own (R263, R264, R272). -/
def absSample (s : State) (e : Nat) (x : EncXfer) (w : Option EncWord) (why : Nat) : State :=
  let c := s.chan e
  let reason := match w with
    | some w => wordReason s e c w
    | none => why
  let a := match w with
    | some w => decodeAngle s e (w.word % 2 ^ s.rd (FLD_POS_CFG_WORD_LEN e))
    | none => 0
  let ok := reason = 0
  let spd := if ok then absSpeed c a x.tFirst else none
  let s := updChan s e fun c => { c with
    xfer := none, prevOk := ok, bad := !ok, jump := if reason = 5 then some a else none,
    lastV := if ok then some (a, x.tFirst) else c.lastV }
  let s := if ok || reason = 7 then s else s.incSat (FLD_POS_CNT_BAD_WORDS e) 255
  let s := if !ok && reason ≠ 7 && !c.bad then report s (0x0900 + reason) e else s
  let s := if ok then cmpAll s e x.cyc x.k a x.tFirst else s
  if x.k = 0 then
    fieldResult s e x.cyc ⟨if ok then a else s.rd (FLD_POS_VAL_POS e), spd.getD 0, x.tFirst, ok, spd.isSome, false, x.shared, false, false, reason⟩ a
  else s

/-- T0 of the cycle of a channel's sample (R261), and the sample that comes next: the cycle's own while it is in flight. -/
def sampleBase (s : State) (e n : Nat) : Option (Int × Nat) :=
  let last := match (s.chan e).base with
    | some (m, t0, k) => if m = n then some (t0, k) else none
    | none => none
  match s.cyc? n with
  | some c => some (c.inp.t0c + c.run.step, (last.map (·.2)).getD 0)
  | none => last

/-- The instant t_s of sample `k` of a cycle with T0 `t0` (R261). -/
def sampleTime (s : State) (e : Nat) (t0 : Int) (k : Nat) : Int :=
  t0 + (((k * s.rd SEQ_PERIOD_VALUE * 1000 * 65536) / max 1 (s.rd (FLD_POS_TIM_DIV e)) : Nat) : Int)

/-- T0 of sample `k` of cycle `n`, once its instant has come: samples are taken in order, once each, and not after a fail-silent entry
(R257, R261). -/
def sampleDue (s : State) (e n k : Nat) : Option Int :=
  match sampleBase s e n with
  | some (t0, next) => if next ≤ k && sampleTime s e t0 k ≤ s.now && !s.flag ERR_STATUS_FAIL_SILENT then some t0 else none
  | none => none

/-- Every absolute channel in service has its word of a cycle, or its failure (R264). -/
def wordsIn (s : State) (c : Cyc) : Bool :=
  (List.range (s.rd FLD_STATUS_CHANNELS)).all fun e =>
    s.flag (FLD_POS_CFG_MODE e) || !chanRuns s e || c.inp.enc.any fun x => x.1 = e

/-- The speed of a quadrature channel at t_s (R270): the value, or none when invalid, with STILL and HELD. -/
def quadSpeed (s : State) (e : Nat) (c : ChanSt) (ts : Int) : Option Nat × Bool × Bool :=
  let win : Int := (s.rd (FLD_POS_QTIM_SPD_WIN e) * 10000 * 65536 : Nat)
  let still : Int := (s.rd (FLD_POS_QTIM_SPD_STILL e) * 1000000 * 65536 : Nat)
  let us := c.edges.filter fun t => ts - win < t && t ≤ ts
  if c.legal < 2 then (none, false, false)
  else match us, us.getLast? with
    | newest :: _ :: _, some oldest =>
      let k := us.length
      let dir : Int := if c.dir = some true then 1 else -1
      let num := m32 (m32 (i32 (dir * 60)) (i32 (k - 1))) (i32 1000000000)
      let den := m32 (fofRat fmt32 (newest - oldest) 65536) (i32 (s.rd (FLD_POS_CPR_CPR e)))
      (some (d32 num den), false, false)
    | _, _ =>
      let idle : Bool := match c.lastEdge with
        | some t => still < ts - t
        | none => false
      if idle then (some 0, true, false) else (c.spd, false, c.spd.isSome)

/-- The raw time of the counter in 2^−16 ns. -/
def State.rawNow (s : State) : Int := (s.tim.cnt * 4 * 65536 : Nat)

/-- Channel `e` takes sample `k` of cycle `n`, at t_s = `ts` (R261, R267, R268, R270). -/
def encTake (s : State) (e n k : Nat) (ts : Int) : State :=
    let c := s.chan e
    if s.flag (FLD_POS_CFG_MODE e) then
      let runs := chanRuns s e
      let (spd, still, held) := quadSpeed s e c (s.rawNow - (s.now - ts))
      let spd := if runs then spd else none
      let r : EncRes := ⟨c.count, spd.getD 0, ts, runs, spd.isSome, c.qerr, false, still && runs, held && runs, if runs then 0 else 7⟩
      let s := updChan s e fun c => { c with qerr := false, spd := spd }
      if k = 0 then fieldResult s e n r (i32 (signed 32 c.count)) else s
    else if !chanRuns s e then absSample s e ⟨n, k, ts, false⟩ none 7
    else match c.relay with
      | some r =>
        let x : EncXfer := ⟨n, k, r.tFirst, true⟩
        match r.word with
        | some w => absSample s e x (some w) 0
        | none => updChan s e fun c => { c with xfer := some x }
      | none => updChan s e fun c => { c with xfer := some ⟨n, k, ts, false⟩, owns := true }

/-- R261: sample instant `k` of cycle `n` on channel `e`, once it has come. -/
def encSampleOp (e n k t : Nat) (s : State) : State :=
  let s := s.at t
  if s.rd FLD_STATUS_CHANNELS ≤ e || max 1 (s.rd (FLD_POS_TIM_DIV e)) ≤ k then s
  else match sampleDue s e n k with
    | some t0 => encTake (updChan s e fun c => { c with base := some (n, t0, k + 1) }) e n k (sampleTime s e t0 k)
    | none => s

/-- R263, R264: the channel's own transfer completes. -/
def encWord (e : Nat) (w : EncWord) (s : State) : State :=
  match (s.chan e).xfer with
  | some x => if x.shared then s else absSample s e x (some w) 0
  | none => s

/-- R261, R267: MONO after the last rising edge; the line is released. -/
def execMonoflopEnd (e t : Nat) (s : State) : Host.Outcome State Fault Refusal :=
  let s := s.at t
  let raw := s.rawNow
  done (if (s.chan e).owns then updChan s e fun c => { c with owns := false, monoEnd := raw, deferRun := false }
    else updChan s e fun c => { c with relay := none })

/-- R266, R267: the drive clocks. Without a word it is the first edge of a transfer; with one it is the edge that completes it. -/
def relayTransfer (e : Nat) (w : Option EncWord) (s : State) : State :=
  let c := s.chan e
  let raw := s.rawNow
  let now := s.now
  let mono : Int := (s.rd (FLD_POS_TIM_MONO e) * 1000 * 65536 : Nat)
  if s.flag (FLD_POS_CFG_MODE e) || !s.flag (FLD_POS_CFG_RELAY e) || !groupRuns s 4 then s
  else if c.owns then
    match w with
    | some _ => s
    | none =>
      let s := s.incSat (FLD_POS_CNT_RELAY_CNT e) 255
      let s := updChan s e fun c => { c with deferRun := true, monoEnd := raw }
      if c.deferRun then s else report s 0x0907 e
  else match w, c.relay with
    | none, none => if raw - c.monoEnd < mono then updChan s e fun c => { c with monoEnd := raw } else updChan s e fun c => { c with relay := some ⟨now, none⟩ }
    | some w, some r =>
      let s := updChan s e fun c => { c with relay := some { r with word := some w } }
      match c.xfer with
      | some x => absSample s e x (some w) 0
      | none => s
    | _, _ => s

/-- R266, R267: RLY_CLK stays high too long and the forwarded transfer is abandoned. -/
def execRelayAbort (e t : Nat) (s : State) : Host.Outcome State Fault Refusal :=
  let s := s.at t
  let c := s.chan e
  done (match c.relay with
    | none => s
    | some r =>
      if r.word.isSome then s
      else
        let s := updChan s e fun c => { c with relay := none }
        match c.xfer with
        | some x => absSample s e x none 6
        | none => s)

/-- R268, R269: the accepted levels of QUAD_A and QUAD_B change. -/
def execQuadEdge (e : Nat) (a b : Bool) (t : Nat) (s : State) : Host.Outcome State Fault Refusal :=
  let s := s.at t
  let c := s.chan e
  let pins := s.rd (FLD_POS_PINS_PINS e)
  let pa := pins / 2 ^ 24 % 64
  let pb := pins / 2 ^ 16 % 64
  let tv := s.rawNow - (s.rd (FLD_PIN_CFG_FILT (if c.a == a then pb else pa)) * 409600 : Nat)
  let lvl (s : State) (p : Nat) (v : Bool) : State := s.wrBit (FLD_LVL_LEVEL (p / 32)) (p % 32) v
  let s := lvl (lvl s pa a) pb b
  done (
    if s.rd FLD_STATUS_CHANNELS ≤ e || !s.flag (FLD_POS_CFG_MODE e) then s
    else if !chanRuns s e || (c.a == a && c.b == b) then updChan s e fun c => { c with a := a, b := b }
    else if c.a != a && c.b != b then
      let s := s.incSat (FLD_POS_CNT_ILLEGAL e) 0xFFFF
      let s := updChan s e fun c => { c with a := a, b := b, qerr := true, illRun := true, legal := 0, edges := [], dir := none }
      if c.illRun then s else report s 0x0908 e
    else
      -- A leads B upward: A:B = 00, 10, 11, 01
      let up := (if c.a != a then c.b != a else c.a == b)
      let rev := c.dir != some up
      updChan s e fun c => { c with
        a := a, b := b, illRun := false, legal := c.legal + 1, dir := some up, lastEdge := some tv,
        count := (if up then c.count + 1 else c.count + 2 ^ 32 - 1) % 2 ^ 32,
        edges := if rev then [tv] else tv :: c.edges })

/-- R268: a rising QUAD_Z edge. -/
def execQuadZEdge (e t : Nat) (s : State) : Host.Outcome State Fault Refusal :=
  let s := s.at t
  done (
    if s.rd FLD_STATUS_CHANNELS ≤ e || !s.flag (FLD_POS_CFG_MODE e) || !chanRuns s e then s
    else
      let s := s.wr (FLD_POS_ZCOUNT_ZCOUNT e) (s.chan e).count
      if s.flag (FLD_POS_CFG_ZCLR e) then updChan s e fun c => { c with count := 0 } else s)

/-- R258: a pin's input level is accepted; INV turns it over. -/
def execPinLevelAccept (p : Nat) (level : Bool) (t : Nat) (s : State) : Host.Outcome State Fault Refusal :=
  let s := s.at t
  let v := level != s.flag (FLD_PIN_CFG_INV p)
  done (if p < 64 && s.rd (FLD_PIN_CFG_FUNC p) ≠ 0 then s.wrBit (FLD_LVL_LEVEL (p / 32)) (p % 32) v else s)

/-- R260: a PWM period begins with the newest committed duty. -/
def execPwmPeriodStart (p t : Nat) (s : State) : Host.Outcome State Fault Refusal :=
  let s := s.at t
  done (if s.flag ERR_STATUS_FAIL_SILENT || (s.fld.parked && !s.flag (FLD_PIN_CFG_HOLD_LAST p)) then s
    else { s with fld := { s.fld with pwm := s.fld.pwm.map fun w => if w.pin = p then { w with cur := w.next } else w } })

/-! ### Results of a cycle -/

/-- The channel and axis-feedback registers that a commit shows (R264, R279). -/
def fldResults (s : State) (inp : CycIn) : List (Fld × Nat) :=
  let chs := inp.enc.flatMap fun (e, r) =>
    let (w0, w1, w2) := timeWords r.tArr
    [(FLD_POS_VAL_POS e, r.pos), (FLD_POS_SPD_SPD e, r.spd), (FLD_POS_TIME_T_ARR e 0, w0), (FLD_POS_TIME_T_ARR e 1, w1),
     (FLD_POS_TIME_T_ARR e 2, w2), (FLD_POS_STS_FENCED e, b2n (bit (s.rd ERR_FENCE_POS_UNIT) e)), (FLD_POS_STS_VALID e, b2n r.valid),
     (FLD_POS_STS_SPD_VALID e, b2n r.spdValid), (FLD_POS_STS_QERR e, b2n r.qerr), (FLD_POS_STS_SHARED e, b2n r.shared),
     (FLD_POS_STS_STILL e, b2n r.still), (FLD_POS_STS_HELD e, b2n r.held), (FLD_POS_STS_REASON e, r.reason)]
  let axes := s.axes
  let fbs := (List.range axes.length).flatMap fun a =>
    match axes[a]? with
    | none => []
    | some x =>
      if x.fbSrc = 1 then
        let b := at_ inp.fb a ⟨0, 0, false, 0⟩
        [(FLD_AX_FB_VALUE a, b.val), (FLD_AX_STS_FB_VALID a, b2n b.valid)]
      else if x.fbSrc = 2 then
        match inp.enc.find? fun p => p.1 = x.chan with
        | some p => [(FLD_AX_FB_VALUE a, p.2.pos), (FLD_AX_STS_FB_VALID a, b2n p.2.valid)]
        | none => []
      else []
  chs ++ fbs

/-- The compare events of a cycle, in the order of R113 and R274. -/
def fldEventsOf (s : State) (n : Nat) : List FldEvent :=
  (s.fld.events.filter fun e => e.cyc = n).mergeSort fun a b => a.tv < b.tv || (a.tv == b.tv && a.u ≤ b.u)

/-- The incident entries of the compare events of cycle `n` that are routed LOG (R274, R514). -/
def fldEntries (s : State) (n : Nat) : List Incident :=
  ((fldEventsOf s n).filter (·.log)).map fun e =>
    ⟨if s.rd TIM_QUAL_STATE = 0 then 0 else e.tv.toNat, some n, Config.eventCode 1 % 65536, 0x0900 + e.u, 0⟩

/-- The FLD_EVT bits of the compare events of cycle `n` that are routed IRQ. -/
def fldBits (s : State) (n : Nat) : Nat := (fldEventsOf s n).foldl (fun m e => if e.irq then setBit m e.u true else m) 0

/-- The compare events of cycle `n` are done with. -/
def fldForget (s : State) (n : Nat) : State :=
  { s with fld := { s.fld with events := s.fld.events.filter fun e => e.cyc ≠ n } }

end Sys2Proof.Machine
end

