-- ==== Sys2Proof/Machine/Net.lean ====
section
/-! DEFINITION. The Ethernet ports (spec/11, R331 to R343): links, MDIO, classification of received frames, drive feedback (R276), transmit
queues and launches. -/

namespace Sys2Proof.Machine

open Sys2Proof

/-- The NET section of a port. -/
def State.netSec (s : State) (p : Nat) : List Byte := s.sec 11 p
/-- Port `p` works: the structure has it, and its group is not stopped. Before START it serves PTP and host channels too: R88 counts a group as
stopped in IDLE for its settings only (DEDUCED from R83 and R487; notes/assumptions/26). -/
def netOn (s : State) (p : Nat) : Bool := p < 4 && s.hasSec 11 p && !bit (s.rd IMG_FUNC_STATE_NET) p
/-- Frame definition `d` of a NET section (R335). -/
def netDef (b : List Byte) (d : Nat) : List Byte := slice b (64 + 8 * u8 b 0x0C + 32 * d) 32
/-- How many definitions a NET section holds. -/
def netNdef (b : List Byte) : Nat := u16 b 0x0E

/-- A port with nothing queued. -/
def portZero : PortSt := ⟨List.replicate 8 [], none, false, false, false, false⟩
/-- Port `p`. -/
def State.port (s : State) (p : Nat) : PortSt := at_ s.net.ports p portZero
/-- The own path and the PHY terms of a port at its speed (R321): receive and transmit, in ns. -/
def pathNs (s : State) (p : Nat) : Nat × Nat :=
  if s.rd (NET_STATUS_SPEED p) = 2 then (56 + s.rd (TIM_PHY_LAT1G_PHY_RX p), 72 + s.rd (TIM_PHY_LAT1G_PHY_TX p))
  else (520 + s.rd (TIM_PHY_LAT100_PHY_RX p), 680 + s.rd (TIM_PHY_LAT100_PHY_TX p))

/-- The time of arrival at the MDI of a frame whose start was captured at a count (R321). -/
def ingressTime (s : State) (p cnt : Nat) : Int := corrCap s.tim cnt - (pathNs s p).1 * 65536

/-- The time of departure at the MDI of a frame whose start was captured at a count (R321). -/
def egressTime (s : State) (p cnt : Nat) : Int := corrCap s.tim cnt + (pathNs s p).2 * 65536

/-- Change port `p`. -/
def updPort (s : State) (p : Nat) (f : PortSt → PortSt) : State := { s with net := { s.net with ports := upd_ s.net.ports p portZero f } }
/-- Count in NET_CNTi of a port. -/
def netCount (s : State) (p i : Nat) : State := s.incSat (NET_CNT_COUNT p i) 0xFFFFFFFF

/-- Queue `q` of a port. -/
def PortSt.queue (x : PortSt) (q : Nat) : List TxFrame := at_ x.q q []

/-- Replace queue `q` of a port, with FILL. -/
def setQueue (s : State) (p q : Nat) (l : List TxFrame) : State :=
  (updPort s p fun x => { x with q := put_ x.q q [] l }).wr (NET_TXQ_STS_FILL p q) l.length

/-! ### Versions offered (R442, R443, R445) -/

/-- The entries of INTERFACES for an interface and instance: major, lowest and highest minor. A 2.x image offers what stepping B1
implements (R73). -/
def ifaceOffers (s : State) (iface inst : Nat) : List (Nat × Nat × Nat) :=
  if s.hasSec 17 then
    let b := s.sec 17
    (List.range (u16 b 0)).filterMap fun i =>
      let o := 4 + 8 * i
      if u8 b o = iface && u8 b (o + 1) = inst then some (u8 b (o + 2), u8 b (o + 3), u8 b (o + 4)) else none
  else match iface with
    | 1 => [(2, 0, 2), (1, 0, 3)]
    | 2 => [(4, 0, 1)]
    | 3 => [(2, 0, 0), (1, 0, 0)]
    | 4 => [(3, 0, 1)]
    | 5 => [(1, 0, 1), (5, 0, 0)]
    | _ => []

/-- The highest drive-frame format offered on a port; 2 where none is. -/
def topFormat (s : State) (p : Nat) : Nat := if (ifaceOffers s 3 p).isEmpty then 2 else ((ifaceOffers s 3 p).map (·.1)).foldl max 0

/-- A drive nothing has been heard of. -/
def driveZero (p id : Nat) : DriveSt := ⟨p, id, 0, 0, 0, 0, 0, none, 0, false, false, false⟩

/-- The drive of a port with a DRIVE_ID. -/
def State.drive (s : State) (p id : Nat) : DriveSt := (s.fld.drives.find? fun d => d.port = p && d.id = id).getD (driveZero p id)

/-- Change a drive. -/
def updDrive (s : State) (p id : Nat) (f : DriveSt → DriveSt) : State :=
  let d := f (s.drive p id)
  { s with fld := { s.fld with drives := d :: s.fld.drives.filter fun x => !(x.port = p && x.id = id) } }

/-- The format in which a drive is commanded (R445): the one in force since the last commit, else the highest offered. -/
def driveFormat (s : State) (p id : Nat) : Nat :=
  let f := (s.drive p id).inForce
  if f = 0 then topFormat s p else f

/-- A commit puts the settled formats in force (R445): of the two members' the lower. -/
def driveSettle (s : State) : State :=
  { s with fld := { s.fld with drives := s.fld.drives.map fun (d : DriveSt) =>
    { d with inForce := if d.pfmt = 0 then d.fmt else min (if d.fmt = 0 then topFormat s d.port else d.fmt) d.pfmt } } }

/-- The settled formats, by port and DRIVE_ID, that a DIGEST frame carries (R445). -/
def driveFormats (s : State) : List (Nat × Nat) :=
  (s.fld.drives.filter fun d => d.port < 8 && d.fmt ≠ 0).map fun d => (65536 * d.port + d.id, d.fmt)

/-! ### Transmission (R338 to R342) -/

/-- Octets on the wire of a frame: padded to 60, with FCS; the wire time in ticks of 4 ns includes 20 octets (R339). -/
def wireTicks (s : State) (p : Nat) (f : TxFrame) : Nat :=
  let ns := (max 60 f.data.length + 4 + 20) * (if s.rd (NET_STATUS_SPEED p) = 2 then 8 else 80)
  (ns + 3) / 4

/-- A target under R319 has come: the 40-bit signed difference is at most 0. -/
def due40 (target cnt : Nat) : Bool := signed 40 (target + 2 ^ 40 - cnt % 2 ^ 40) ≤ 0

/-- The head of a queue is due now. -/
def headDue (cnt : Nat) (f : TxFrame) : Bool := match f.target with
  | some t => due40 t cnt
  | none => true

/-- A guard forbids a frame of queue `q` (R339): a guarded higher queue holds a timed head that the frame's wire time would pass. -/
def guarded (s : State) (p q : Nat) (f : TxFrame) : Bool :=
  (List.range 8).any fun g => q < g && s.flag (NET_TXQ_CFG_GUARD p g) && match (s.port p).queue g with
    | h :: _ => match h.target with
      | some t => t < s.tim.cnt + wireTicks s p f
      | none => false
    | [] => false

/-- Start a frame on the wire (R339, R340). -/
def startFrame (s : State) (p q : Nat) (f : TxFrame) (rest : List TxFrame) : State :=
  let s := setQueue s p q rest
  let s := updPort s p fun x => { x with wire := some f, lateRun := f.late, dropRun := false }
  let s := if f.late then s.incSat (NET_TXQ_STS_LATE_CNT p q) 0xFFFF else s
  let s := match f.def_ with
    | some d => s.wr (NET_FDEF_STS_LATE p d) (b2n f.late)
    | none => s
  s.emit (.frame p (f.data ++ List.replicate (60 - f.data.length) 0))

/-- Initialisation writes of a port still run or wait: it sends no frame before them (R333). -/
def initRuns (s : State) (p : Nat) : Bool := s.net.mdio.any fun o => !o.host && o.port = p

/-- The transmitter selects, while it is idle, the head of the highest queue whose head is due (R339); late and dropped frames by
R340, frames on a link that is down by R332. -/
def netSelect (s : State) (p : Nat) : Nat → State
  | 0 => s
  | fuel + 1 =>
    if (s.port p).wire.isSome || s.flag ERR_STATUS_FAIL_SILENT || bit (s.rd ERR_FENCE_PORT_NET) p || s.img.secs.isEmpty || initRuns s p then s
    else
      let cands := ((List.range 8).map fun i => 7 - i).filterMap fun q =>
        match (s.port p).queue q with
        | h :: rest => if headDue s.tim.cnt h then some (q, h, rest) else none
        | [] => none
      match cands with
      | [] => s
      | _ =>
        if !s.flag (NET_STATUS_LINK p) then
          -- each due frame is discarded at its launch
          match cands with
          | (q, _, rest) :: _ => netSelect (netCount (setQueue s p q rest) p 6) p fuel
          | [] => s
        else
          match cands.find? fun c => !guarded s p c.1 c.2.1 with
          | none => s
          | some (q, h, rest) =>
            let max_ := s.rd (NET_TXQ_CFG_LATE_MAX p q)
            let over_ : Bool := match h.target with
              | some t => max_ ≠ 0 && usTicks max_ < s.tim.cnt - t
              | none => false
            if over_ then
              let run := (s.port p).dropRun
              let s := updPort ((setQueue s p q rest).incSat (NET_TXQ_STS_DROP_CNT p q) 255) p fun x => { x with dropRun := true }
              netSelect (if run then s else report s 0x0706 p) p fuel
            else startFrame s p q h rest

/-- Let the transmitter of a port select. -/
def netTry (s : State) (p : Nat) : State := netSelect s p 256

/-- Hand a frame to a queue (R338, R340): a full queue discards it; one handed over after its target is late. -/
def netHand (s : State) (p q : Nat) (f : TxFrame) : State :=
  let l := (s.port p).queue q
  if s.flag ERR_STATUS_FAIL_SILENT || bit (s.rd ERR_FENCE_PORT_NET) p || s.img.secs.isEmpty then s
  else if 32 ≤ l.length then
    let run := (s.port p).fullRun
    let s := updPort (netCount s p 7) p fun x => { x with fullRun := true }
    if run then s else report s 0x0707 p
  else
    let late : Bool := match f.target with
      | some t => t < s.tim.cnt
      | none => false
    let run := (s.port p).lateRun
    let s := setQueue (updPort s p fun x => { x with fullRun := false, lateRun := if late then true else x.lateRun }) p q (l ++ [{ f with late := late }])
    netTry (if late && !run then report s 0x0705 p else s) p

/-- Discard every queued frame of a port (R342). -/
def netFlush (s : State) (p : Nat) : State := (List.range 8).foldl (fun s q => setQueue s p q []) s

/-- R340: a target arrives; the transmitter selects if it is idle. -/
def ethLaunchOp (p t : Nat) (s : State) : State :=
  let s := s.at t
  (if p < 4 then netTry s p else s)

/-- R339: the frame on the wire has ended, with the count `ts` captured at its start (R321), whose egress time a Delay_Req keeps as its t3
(R324); the transmitter selects the next. -/
def execEthTxComplete (p : Nat) (ts : Nat) (t : Nat) (s : State) : Host.Outcome State Fault Refusal :=
  let s := s.at t
  done (match (s.port p).wire with
    | none => s
    | some f =>
      let s := updPort s p fun x => { x with wire := none }
      let s := netCount s p 5
      let s := match f.def_ with
        | some d => s.incWrap (NET_FDEF_STS_FRAMES p d)
        | none => s
      let s := match f.dreq, s.tim.ptp.dreq with
        | some q, some d => if d.seq = q then { s with tim := { s.tim with ptp := { s.tim.ptp with dreq := some { d with t3 := some (egressTime s p ts) } } } } else s
        | _, _ => s
      netTry s p)

/-! ### Links (R331, R332) -/

/-- The link of a port goes down with a code. -/
def linkDown (s : State) (p code : Nat) : State :=
  let wire := (s.port p).wire.isSome
  let s := s.wrs [(NET_STATUS_LINK p, 0), (NET_STATUS_SPEED p, 0)]
  let s := updPort s p fun x => { x with wire := none }
  netTry (report (if wire then netCount s p 6 else s) code p) p

/-- R331, R332: a link comes up; a fixed speed overrides the link word, and half duplex or 10 Mb/s counts as down. -/
def execEthLinkUp (p mbps : Nat) (full : Bool) (t : Nat) (s : State) : Host.Outcome State Fault Refusal :=
  let s := s.at t
  let sel := s.rd (NET_CFG_SPEED_SEL p)
  let rate := if sel = 1 then 100 else if sel = 2 then 1000 else mbps
  done (
    if 4 ≤ p || !onPrimary s 7 then s
    else if !full || !(rate = 100 || rate = 1000) then
      if s.flag (NET_STATUS_LINK p) then linkDown s p 0x0703 else report s 0x0703 p
    else if s.flag (NET_STATUS_LINK p) then s
    else netTry (report (s.wrs [(NET_STATUS_LINK p, 1), (NET_STATUS_SPEED p, if rate = 1000 then 2 else 1)]) 0x0701 p) p)

/-- R331, R332: a link goes down, or reports an unsupported mode. -/
def execEthLinkDown (p : Nat) (mode : Bool) (t : Nat) (s : State) : Host.Outcome State Fault Refusal :=
  let s := s.at t
  done (if 4 ≤ p then s
    else if s.flag (NET_STATUS_LINK p) then linkDown s p (if mode then 0x0703 else 0x0702)
    else if mode then report s 0x0703 p else s)

/-! ### MDIO (R333) -/

/-- Put the frame at the head of the MDIO queue on the wire. -/
def mdioStart (s : State) : State :=
  match s.net.mdio with
  | o :: _ => s.emit (.mdio o.c45 o.op o.phy o.reg o.data)
  | [] => s

/-- Queue MDIO frames; the first starts when the master is idle. -/
def mdioQueue (s : State) (l : List MdioOp) : State :=
  let idle := s.net.mdio.isEmpty
  let s := { s with net := { s.net with mdio := s.net.mdio ++ l } }
  if idle then mdioStart s else s

/-- The initialisation writes of a port (R333, R334). -/
def mdioInit (s : State) (p : Nat) : List MdioOp :=
  let b := s.netSec p
  (List.range (u8 b 0x0C)).flatMap fun i =>
    let o := 64 + 8 * i
    let c45 := bit (u8 b o) 7
    let dev := u8 b o % 32
    let reg := u16 b (o + 2)
    let val := u16 b (o + 4)
    let ver := u8 b (o + 6) = 1
    let phy := u8 b 7
    let r := if c45 then dev else reg % 32
    (if c45 then [⟨false, p, true, 0, phy, dev, reg, none⟩] else []) ++ [⟨false, p, c45, 1, phy, r, val, none⟩]
      ++ if ver then [⟨false, p, c45, 2, phy, r, 0, some val⟩] else []

/-- The port whose PHY address an MDIO command names, port 0 where none does: the unit of its report. -/
def phyPort (s : State) (phy : Nat) : Nat := ((List.range 4).find? fun p => s.rd (NET_CFG_PHY_ADDR p) = phy).getD 0

/-- A host write of NET_MDIO_CMD with GO_BUSY = 1: discarded while busy; OP = 3 is refused with MDIO_NORESP. -/
def mdioCmd (s : State) (c45 : Bool) (op phy reg : Nat) : State :=
  if s.flag NET_MDIO_CMD_GO_BUSY then s
  else if 3 ≤ op then report s 0x0708 (phyPort s (phy % 32))
  else
    let s := s.wrs [(NET_MDIO_CMD_C45, b2n c45), (NET_MDIO_CMD_OP, op), (NET_MDIO_CMD_PHYAD, phy), (NET_MDIO_CMD_REGAD, reg),
      (NET_MDIO_CMD_NORESP, 0), (NET_MDIO_CMD_GO_BUSY, 1)]
    mdioQueue s [⟨true, phyPort s (phy % 32), c45, op, phy % 32, reg % 32, s.rd NET_MDIO_DATA_DATA, none⟩]

/-- The word of NET_MDIO_CMD that a frame takes. -/
def mdioWord (c45 : Bool) (op phy reg : Nat) : Nat := 2 ^ 31 + b2n c45 * 2 ^ 30 + op * 2 ^ 28 + phy % 32 * 2 ^ 16 + reg % 32

/-- The write of NET_MDIO_DATA that goes ahead of a frame's; a running frame keeps its data. -/
def mdioData (s : State) (a : Path) (v : Nat) : State :=
  hostDo s a 0x214004 v fun s => if s.flag NET_MDIO_CMD_GO_BUSY then s else s.wr NET_MDIO_DATA_DATA v

/-- R333: OP = 0, a Clause 45 address frame that carries register address `v`. -/
def execMdioAddress (a : Path) (phy dev v t : Nat) (s : State) : Host.Outcome State Fault Refusal :=
  done (hostDo (mdioData (s.at t) a v) a 0x214000 (mdioWord true 0 phy dev) fun s => mdioCmd s true 0 phy dev)

/-- R333: OP = 1, a write of value `v`. -/
def execMdioWrite (a : Path) (c45 : Bool) (phy reg v t : Nat) (s : State) : Host.Outcome State Fault Refusal :=
  done (hostDo (mdioData (s.at t) a v) a 0x214000 (mdioWord c45 1 phy reg) fun s => mdioCmd s c45 1 phy reg)

/-- R333: OP = 2, a read. -/
def execMdioRead (a : Path) (c45 : Bool) (phy reg t : Nat) (s : State) : Host.Outcome State Fault Refusal :=
  done (hostDo (s.at t) a 0x214000 (mdioWord c45 2 phy reg) fun s => mdioCmd s c45 2 phy reg)

/-- R333: the MDIO frame on the wire completes; a read brings data or no response. -/
def execMdioDone (data : Nat) (noresp : Bool) (t : Nat) (s : State) : Host.Outcome State Fault Refusal :=
  let s := s.at t
  done (match s.net.mdio with
    | [] => s
    | o :: rest =>
      let s := { s with net := { s.net with mdio := rest } }
      let miss := o.op = 2 && noresp
      let s := if miss then report s 0x0708 o.port else s
      let s := if o.host then
          let s := s.wrs [(NET_MDIO_CMD_GO_BUSY, 0), (NET_MDIO_CMD_NORESP, b2n miss)]
          if o.op = 2 && !miss then s.wr NET_MDIO_DATA_DATA data else s
        else match o.verify with
          | some v => if !miss && data % 65536 ≠ v then report s 0x0709 o.port else s
          | none => s
      let s := mdioStart s
      if o.host then s else netTry s o.port)

/-! ### Reception (R336, R337) -/

/-- The one's-complement sum over 16-bit big-endian words (IPv4, UDP). -/
def onesSum (l : List Byte) : Nat :=
  let n := (List.range ((l.length + 1) / 2)).foldl (fun a i => a + beN l (2 * i) 2) 0
  let n := n % 65536 + n / 65536
  n % 65536 + n / 65536

/-- Six octets all equal to 0xFF. -/
def broadcast : List Byte := List.replicate 6 0xFF

/-- A received frame after its tag is taken off: source, VLAN word if tagged, EtherType, the octets after it. -/
structure RxFrame where
  src : List Byte
  tag : Option Nat
  etype : Nat
  pay : List Byte
  /-- UDP destination port and payload, for IPv4. -/
  udp : Option (Nat × List Byte)

/-- A receive definition takes the frame (R336, step 7). -/
def defMatches (d : List Byte) (f : RxFrame) : Bool :=
  let cls := u8 d 0
  let et := u16 d 4
  let pay : Option (List Byte) := if et = 0 then (match f.udp with
      | some (port, b) => if port = u16 d 6 then some b else none
      | none => none)
    else if et = f.etype then some f.pay else none
  let vlan := u16 d 2
  let peer := slice d 8 6
  (cls = 2 || cls = 3 || cls = 5 || cls = 6) && (match pay with
    | some b => slice b (u16 d 0x14) (u8 d 0x16) = slice d 0x18 (u8 d 0x16)
    | none => false)
  && (!bit vlan 15 || (match f.tag with
    | some g => g % 4096 = vlan % 4096
    | none => false))
  && (peer.all (fun x => x.toNat = 0) || peer = f.src)

/-- The payload that a definition hands to its user. -/
def defPayload (d : List Byte) (f : RxFrame) : List Byte := if u16 d 4 = 0 then ((f.udp.map (·.2)).getD []) else f.pay

/-- A time of R10 at octet `o`, in 2^−16 ns. -/
def timeR10 (b : List Byte) (o : Nat) : Int := ((beN b o 6 * 1000000000 + beN b (o + 6) 4) * 65536 + beN b (o + 10) 2 : Nat)

/-- The record of a drive's frame at index i, at octet `o`: axis, type, flags, value. -/
def fbRecord (b : List Byte) (o : Nat) : Nat × Nat × Nat × Nat := (u8 b o, u8 b (o + 1), beN b (o + 2) 2, beN b (o + 4) 4)

/-- The axes of a device that a drive moves (R341): sink 1 through a definition of that port with the DRIVE_ID. -/
def driveAxes (s : State) (p id : Nat) : List (Nat × AxisEnt) :=
  let b := s.netSec p
  ((List.range s.axes.length).zip s.axes).filter fun x =>
    x.2.sink = 1 && x.2.sinkInst = p && u8 (netDef b x.2.sinkRef) 0 = 1 && u16 (netDef b x.2.sinkRef) 0x0E = id

/-- The drive fields of the axis registers that a commit shows: the last accepted frame's STATUS, and the counters. -/
def driveResults (s : State) : List (Fld × Nat) :=
  s.fld.drives.flatMap fun d => if 8 ≤ d.port then [] else (driveAxes s d.port d.id).flatMap fun x =>
    [(FLD_AX_STS_DP_AVAILABLE x.1, b2n (bit d.status 0)), (FLD_AX_STS_DRIVE_FAULT x.1, b2n (bit d.status 1)),
     (FLD_AX_STS_FB_REJ x.1, d.rej), (FLD_AX_STS_FB_DUP x.1, d.dup)]

/-- A drive feedback frame (R276, R278, R279). -/
def driveFeedback (s : State) (p id : Nat) (b : List Byte) (tArr : Int) : State :=
  let v := u8 b 0
  let o := if v = 1 then 12 else 0
  let nrec := u8 b (0x1A - o)
  let need := 0x1C - o + 8 * nrec + if v = 1 then 0 else 4
  let d := s.drive p id
  let okCrc := v = 1 || crc32c (b.take (need - 4)) = beN b (need - 4) 4
  let ok := (ifaceOffers s 3 p).any (fun x => x.1 = v) && u8 b 1 = 2 && beN b 2 2 = id && 1 ≤ nrec && nrec ≤ 16
    && need ≤ b.length && b.length ≤ max need 46 && okCrc
  if !ok then
    let s := updDrive s p id fun d => { d with rej := satAdd d.rej 1 255, rejRun := true }
    if d.rejRun then s else report s 0x090B (((driveAxes s p id).map (·.1)).headD 0)
  else
    let seq := beN b 4 4
    let newer : Bool := match d.seq with
      | some q => 0 < signed 32 (seq + 2 ^ 32 - q)
      | none => true
    if !newer then
      updDrive s p id fun d => { d with dup := satAdd d.dup 1 255, rejRun := false }
    else
      let sts := beN b (0x18 - o) 2
      let tv := if v = 1 then tArr else timeR10 b 0x0C
      let unav := !bit sts 0
      let s := updDrive s p id fun d => { d with
        seq := some seq, status := sts, fresh := true, rejRun := false, unavRun := unav, fmt := v }
      let s := if d.fmt ≠ 0 && d.fmt ≠ v then report s 0x0E18 p else s
      let s := if unav && !d.unavRun then report s 0x090C (((driveAxes s p id).map (·.1)).headD 0) else s
      let recs := (List.range nrec).map fun i => fbRecord b (0x1C - o + 8 * i)
      (driveAxes s p id).foldl (fun s x =>
        match recs.find? fun r => r.1 = x.2.drvAxis with
        | some r => if x.2.fbSrc = 1 then
            { s with fld := { s.fld with fb := put_ s.fld.fb x.1 ⟨0, 0, false, 0⟩ ⟨r.2.2.2, r.2.1, bit r.2.2.1 0, tv⟩ } } else s
        | none => s) s

/-- The intake slots that name a port and a definition take their fields (R95 to R98). -/
def sensorFrame (s : State) (p d : Nat) (b : List Byte) (tArr : Int) : State :=
  let sec := s.sec 3
  (definedSlots sec).foldl (fun s i =>
    let e := (slotEntry sec i).getD []
    if u8 e 1 = 2 && u8 e 4 = p && u16 e 6 = d then
      let tSrc := if bit (u8 e 3) 1 then some (timeR10 b (u16 e 0x18)) else none
      slotFrame s i e b true tArr tSrc (markedInvalid e b)
    else s) s

/-- An ARP reply to a request for the port's address (R336, step 5). -/
def arpReply (s : State) (p : Nat) (src pay : List Byte) : State :=
  let mac := slice (s.netSec p) 0 6
  let ip := beBytes 4 (u32 (s.netSec p) 8)
  let body := slice pay 0 6 ++ beBytes 2 2 ++ mac ++ ip ++ slice pay 8 6 ++ slice pay 14 4
  netHand s p 0 ⟨src ++ mac ++ beBytes 2 0x0806 ++ body, none, none, none, false, none⟩

/-- What is left of a stream from the next preamble on: 0xD3 and 6 bits of 0 (R158). -/
def rtcmSeek : List Byte → List Byte
  | [] => []
  | b :: rest => if b.toNat = 0xD3 && (match rest with
      | [] => true
      | c :: _ => c.toNat < 4) then b :: rest else rtcmSeek rest

/-- A definition takes the frame (R337). -/
def takeFrame (s : State) (p d : Nat) (ent : List Byte) (f : RxFrame) (ts : Int) : State :=
  let s := (netCount s p 0).incWrap (NET_FDEF_STS_FRAMES p d)
  let b := defPayload ent f
  match u8 ent 0 with
  | 2 => driveFeedback s p (u16 ent 0x0E) b ts
  | 3 => sensorFrame s p d b ts
  | 6 => { s with net := { s.net with rtcm := rtcmSeek (s.net.rtcm ++ b) } }
  | _ => s

/-- The frame carries PTP in the transport that the image selects (R322). -/
def isPtp (s : State) (et : Nat) (pay : List Byte) : Bool :=
  if s.flag TIM_PTP_CFG_UDP then
    et = 0x0800 && u8 pay 0 = 0x45 && u8 pay 9 = 17 && beN pay 16 4 = 0xE0000181 && (beN pay 22 2 = 319 || beN pay 22 2 = 320)
  else et = 0x88F7

/-- A PTP message of a kind that the slave does not implement (R322): peer delay, signalling or management. -/
def ptpForeign (s : State) (pay : List Byte) : Bool :=
  [2, 3, 10, 12, 13].contains (u8 (if s.flag TIM_PTP_CFG_UDP then pay.drop 28 else pay) 0 % 16)

/-- Classification of a good frame for the port (R336, steps 3 to 8). -/
def classify (s : State) (p : Nat) (b : List Byte) (ts : Int) : State :=
  let sec := s.netSec p
  let et0 := beN b 12 2
  let tag := if et0 = 0x8100 then some (beN b 14 2) else none
  let o := if tag.isSome then 18 else 14
  let et := beN b (o - 2) 2
  let pay := b.drop o
  let src := slice b 6 6
  let own := u32 sec 8
  let other (s : State) : State := netCount s p 3
  if tag.isSome && et = 0x8100 then other s
  else if tag.isNone && et = 0x88B7 && s.flag PST_CFG_STRING_HEAD && u8 (s.sec 15) 0x16 = p then
    -- a Piste frame of another string: what it carries arrives as a Piste command of port 2 (R424)
    netCount s p 0
  else if s.flag (NET_STATUS_TIME_PORT p) && isPtp s et pay then
    let s := netCount s p 0
    if ptpForeign s pay then s.incSat TIM_PTP_CNT_IGNORED 0xFFFF else s
  else if et = 0x0806 then
    if own ≠ 0 && beN pay 6 2 = 1 && beN pay 24 4 = own then
      arpReply (netCount s p 0) p src pay
    else s
  else
    let hdr := slice pay 0 20
    let len := beN pay 2 2
    let dst := beN pay 16 4
    let bad4 := et = 0x0800 && (u8 pay 0 ≠ 0x45 || onesSum hdr ≠ 0xFFFF || beN pay 6 2 % 16384 ≠ 0
      || !(own ≠ 0 && (dst = own || dst = 0xFFFFFFFF)))
    if bad4 then other s
    else
      let isUdp := et = 0x0800 && u8 pay 9 = 17
      let dg := slice pay 20 (len - 20)
      let pseudo := slice pay 12 8 ++ [0, 17] ++ beBytes 2 dg.length
      if isUdp && beN dg 6 2 ≠ 0 && onesSum (pseudo ++ dg) ≠ 0xFFFF then netCount s p 1
      else
        let f : RxFrame := ⟨src, tag, et, pay, if isUdp then some (beN dg 2 2, dg.drop 8) else none⟩
        match (List.range (netNdef sec)).find? fun d => defMatches (netDef sec d) f with
        | some d => takeFrame s p d (netDef sec d) f ts
        | none => other s

/-- R336, R337: a frame has been received: its octets without FCS, whether the FCS is good and the receive buffer full, the count
captured at its start (R321). -/
def ethFrameRxOp (p : Nat) (b : List Byte) (fcs full : Bool) (ts : Nat) (t : Nat) (s : State) : State :=
  let s := s.at t
  let n := b.length + 4
  let tagged := beN b 12 2 = 0x8100
  let dst := slice b 0 6
  (
    if !netOn s p || bit (s.rd ERR_FENCE_PORT_NET) p || !s.flag (NET_STATUS_LINK p) then s
    else if full then
      let run := (s.port p).rxRun
      let s := updPort (netCount s p 4) p fun x => { x with rxRun := true }
      if run then s else report s 0x0704 p
    else
      let s := updPort s p fun x => { x with rxRun := false }
      if !fcs || n < 64 || (if tagged then 1522 else 1518) < n then netCount s p 1
      else if !(dst = slice (s.netSec p) 0 6 || dst = broadcast || bit (u8 dst 0) 0) then netCount s p 2
      else classify s p b (ingressTime s p ts))

/-! ### Frames of a committed cycle (R275, R278, R341, R343) -/

/-- A UDP datagram on IPv4 in its packet (R343). -/
def udpPacket (own dst : List Byte) (port : Nat) (pay : List Byte) : List Byte :=
  let len := pay.length
  let ip0 := [0x45, 0] ++ beBytes 2 (len + 28) ++ [0, 0, 0x40, 0, 64, 17]
  let sum := onesSum (ip0 ++ own ++ dst)
  let ip := ip0 ++ beBytes 2 (0xFFFF - sum) ++ own ++ dst
  let udp0 := beBytes 2 port ++ beBytes 2 port ++ beBytes 2 (len + 8)
  let c := 0xFFFF - onesSum (own ++ dst ++ [0, 17] ++ beBytes 2 (len + 8) ++ udp0 ++ pay)
  ip ++ udp0 ++ beBytes 2 (if c = 0 then 0xFFFF else c) ++ pay

/-- The Delay_Req of a sequence number on the time port (R322, R323): a header of IEEE 1588-2019 and a zero originTimestamp, to the
multicast address of the transport. PRESUMED: the header's fields beside those of R322; log entry 71. -/
def delayReqFrame (s : State) (p seq : Nat) : List Byte :=
  let mac := slice (s.netSec p) 0 6
  let msg := [0x01, 0x12, 0, 44, BitVec.ofNat 8 (s.rd TIM_PTP_CFG_DOMAIN)] ++ List.replicate 15 0 ++ slice (s.sec 10) 0x34 8 ++ [0, 1]
    ++ beBytes 2 seq ++ [1, 0x7F] ++ List.replicate 10 0
  if s.flag TIM_PTP_CFG_UDP then
    [0x01, 0x00, 0x5E, 0x00, 0x01, 0x81] ++ mac ++ beBytes 2 0x0800 ++ udpPacket (beBytes 4 (u32 (s.netSec p) 8)) (beBytes 4 0xE0000181) 319 msg
  else [0x01, 0x1B, 0x19, 0, 0, 0] ++ mac ++ beBytes 2 0x88F7 ++ msg

/-- The Ethernet header of a definition, and for UDP the IPv4 and UDP headers. -/
def frameHead (s : State) (p : Nat) (d : List Byte) (pay : List Byte) : List Byte :=
  let mac := slice (s.netSec p) 0 6
  let vlan := u16 d 2
  let tag := if bit vlan 15 then beBytes 2 0x8100 ++ beBytes 2 (vlan % 32768) else []
  let head := slice d 8 6 ++ mac ++ tag
  if u16 d 4 ≠ 0 then head ++ beBytes 2 (u16 d 4) ++ pay
  else head ++ beBytes 2 0x0800 ++ udpPacket (beBytes 4 (u32 (s.netSec p) 8)) (beBytes 4 0xFFFFFFFF) (u16 d 6) pay

/-- Twelve octets of R10. -/
def timeBytes (x : Int) : List Byte :=
  let ns := x / 65536
  beBytes 6 (ns / 1000000000).toNat ++ beBytes 4 (ns % 1000000000).toNat ++ beBytes 2 (x % 65536).toNat

/-- The payload of a drive command frame (R275, R278) for the axes of definition `d`, none when it has no record. -/
def drivePayload (s : State) (p d : Nat) (ent : List Byte) (cyc mode : Nat) (commitAt : Int) (c : CommitRec) : Option (List Byte) :=
  let axes := ((List.range s.axes.length).zip s.axes).filter fun x => x.2.sink = 1 && x.2.sinkInst = p && x.2.sinkRef = d
  let fmt := driveFormat s p (u16 ent 0x0E)
  if axes.isEmpty then none
  else
    let recs := axes.flatMap fun x =>
      let r := at_ c.axes x.1 ⟨0, false⟩
      let ct := if x.2.typ = 1 || x.2.typ = 4 then 1 else if x.2.unit = 0 then 2 else 3
      [BitVec.ofNat 8 x.2.drvAxis, BitVec.ofNat 8 ct] ++ beBytes 2 (b2n r.stby) ++ beBytes 4 r.val
    let body := [BitVec.ofNat 8 fmt, 1] ++ beBytes 2 (u16 (s.sec 1) 0x0E) ++ beBytes 4 (cyc % 2 ^ 32)
      ++ (if fmt = 1 then [] else timeBytes commitAt)
      ++ [BitVec.ofNat 8 mode, BitVec.ofNat 8 (b2n c.repeated)] ++ beBytes 2 (u16 ent 0x0E) ++ [BitVec.ofNat 8 axes.length, 0, 0, 0] ++ recs
    some (if fmt = 1 then body else body ++ beBytes 4 (crc32c body))

/-- The cold start of a NETp group (R89): queues empty, counters cleared, initialisation writes queued. -/
def netCold (s : State) (p : Nat) : State :=
  let s := netFlush s p
  let s := updPort s p fun x => { x with rxRun := false, fullRun := false, lateRun := false, dropRun := false }
  let s := (List.range 8).foldl (fun s i => s.wrs [(NET_CNT_COUNT p i, 0), (NET_TXQ_STS_LATE_CNT p i, 0), (NET_TXQ_STS_DROP_CNT p i, 0)]) s
  let s := (List.range (netNdef (s.netSec p))).foldl (fun s d => s.wr (NET_FDEF_STS_FRAMES p d) 0) s
  mdioQueue s (mdioInit s p)

end Sys2Proof.Machine
end

