-- ==== Sys2Proof/Machine/Can.lean ====
section
/-! DEFINITION. The CAN FD controllers (spec/11, R344 to R358; R447): reception, error confinement, transmit buffers, retries, cancels and
the message-set probe. -/

namespace Sys2Proof.Machine

open Sys2Proof

/-- A controller with nothing queued. -/
def canZero : CanSt :=
  ⟨[[], []], none, List.replicate 32 ⟨none, none, false, false, 0, 0⟩, ⟨false, false, none, false, false, 0⟩, false, false, false, false, false, 0⟩
/-- Controller `c`. -/
def State.canOf (s : State) (c : Nat) : CanSt := at_ s.can c canZero
/-- Change controller `c`. -/
def updCan (s : State) (c : Nat) (f : CanSt → CanSt) : State := { s with can := upd_ s.can c canZero f }
/-- A buffer of a controller. -/
def State.txb (s : State) (c b : Nat) : TxBufSt := at_ (s.canOf c).bufs b ⟨none, none, false, false, 0, 0⟩
/-- Change a buffer. -/
def updTxb (s : State) (c b : Nat) (f : TxBufSt → TxBufSt) : State :=
  updCan s c fun x => { x with bufs := upd_ x.bufs b ⟨none, none, false, false, 0, 0⟩ f }

/-- CAN_STATUS.STATE codes. -/
def canState (s : State) (c : Nat) : Nat := s.rd (CAN_STATUS_STATE c)

/-- The buffer entry `b` of a CAN section (R347). -/
def canBuf (sec : List Byte) (b : Nat) : List Byte := slice sec (32 + 12 * u8 sec 0x0D + 44 * b) 44

/-- Limited-retry service (R350). -/
def canLimited (s : State) (c : Nat) : Bool :=
  s.rd SEQ_STATUS_STATE ≠ 2 || s.rd (CAN_CFG_LOOPBACK c) ≠ 0 || (s.canOf c).recovering

/-- LIMITED brought up to date; attempts are no longer counted in normal service (R350). -/
def canService (s : State) (c : Nat) : State :=
  let lim := canLimited s c
  let was := s.flag (CAN_STATUS_LIMITED c)
  let s := s.wrb (CAN_STATUS_LIMITED c) lim
  if was == lim then s else updCan s c fun x => { x with bufs := x.bufs.map fun b => { b with lim := 0 } }

/-- LIMITED of every controller, after a change of the sequencer's state (R350). -/
def canServices (s : State) : State := (List.range 8).foldl (fun s c => if s.hasSec 12 c then canService s c else s) s

/-- The sequencer takes a state; the controllers' service follows it (R350). -/
def seqState (s : State) (v : Nat) : State := canServices (s.wr SEQ_STATUS_STATE v)

/-- Words 0 to 15 of a buffer's data as octets. -/
def bufData (s : State) (c b n : Nat) : List Byte := ((List.range 16).flatMap fun k => leBytes 4 (s.rd (CAN_TXB_DATA_DATA c b k))).take n

/-- Data octets that a DLC stands for. -/
def dlcLen (fd : Bool) (dlc : Nat) : Nat :=
  if dlc ≤ 8 then dlc else if !fd then 8 else at_ [12, 16, 20, 24, 32, 48, 64] (dlc - 9) 64

/-- Word 0 of a buffer's frame. -/
def bufW0 (s : State) (c b : Nat) : Nat :=
  s.rd (CAN_TXB_HDR_ID c b) + 2 ^ 29 * s.rd (CAN_TXB_HDR_IDE c b) + 2 ^ 30 * s.rd (CAN_TXB_HDR_FDF c b) + 2 ^ 31 * s.rd (CAN_TXB_HDR_BRS c b)

/-- Write a buffer's data words. -/
def putData (s : State) (c b : Nat) (d : List Byte) : State :=
  (List.range 16).foldl (fun s k => s.wr (CAN_TXB_DATA_DATA c b k) (u32 d (4 * k))) s

/-- A buffer leaves the pending state with a status. -/
def endBuf (s : State) (c b status : Nat) : State :=
  let s := updTxb s c b fun x => { x with pend := false, cancel := false, lim := 0 }
  (s.wr (CAN_TXB_STS_STATUS c b) status).wrBit (CAN_TX_PEND_BUF c) b false

/-- A buffer is requested. -/
def reqBuf (s : State) (c b : Nat) : State :=
  let s := updTxb s c b fun x => { x with pend := true, cancel := false, lim := 0, target := none }
  (s.wrs [(CAN_TXB_STS_STATUS c b, 1), (CAN_TXB_STS_ATTEMPTS c b, 0), (CAN_TXB_STS_CANCEL_LATE c b, 0)]).wrBit (CAN_TX_PEND_BUF c) b true

/-- A cycle's CAN frame was cancelled by its successor (R40). -/
def superseded (s : State) (c b : Nat) : State := reportCyc s (s.txb c b).cyc 0x0209 c 0 b

/-- CYCLE content may be requested: not silent, not in loop-back, set settled, this device sends. -/
def cycleMaySend (s : State) (c : Nat) : Bool :=
  (canState s c = 1 || canState s c = 2 || canState s c = 3) && s.rd (CAN_CFG_LOOPBACK c) = 0 && (s.canOf c).probe.settled
    && !s.flag ERR_STATUS_FAIL_SILENT

/-- CYCLE content enters its buffer: requested at its target, or at once and late (R354). -/
def loadCycle (s : State) (c b : Nat) (d : List Byte) (cyc target : Nat) : State :=
  let s := putData s c b d
  let late := target < s.tim.cnt
  let s := updTxb s c b fun x => { x with cyc := cyc, next := none, target := some target }
  let s := s.wr (CAN_TXB_STS_LATE c b) (b2n late)
  if late then
    let run := (s.canOf c).lateRun
    let s := updCan (s.incSat (CAN_ERR_LATE_CNT c) 255) c fun x => { x with lateRun := true }
    let s := if run then s else report s 0x080C c
    if cycleMaySend s c then reqBuf s c b else s
  else updCan s c fun x => { x with lateRun := false }

/-- An attempt of a buffer has ended; content that waited for that enters it (R355). -/
def afterAttempt (s : State) (c b : Nat) : State :=
  match (s.txb c b).next with
  | some (d, cyc, target) => loadCycle (if (s.txb c b).pend then superseded (endBuf s c b 3) c b else s) c b d cyc target
  | none => s

/-- Stage 9 hands CYCLE content to a buffer (R40, R349, R354): `att` says that the buffer's frame is in an attempt. -/
def canHand (s : State) (c b : Nat) (d : List Byte) (cyc target : Nat) (att : Bool) : State :=
  if canState s c = 4 then s.incSat (CAN_ERR_BUSOFF_DROP c) 0xFFFF
  else if (s.txb c b).pend then
    if att then
      let s := match (s.txb c b).next with
        | some (_, cyc', _) => reportCyc s cyc' 0x0209 c 0 b
        | none => s
      updTxb s c b fun x => { x with cancel := true, next := some (d, cyc, target) }
    else loadCycle (superseded (endBuf s c b 3) c b) c b d cyc target
  else loadCycle s c b d cyc target

/-- The content of a CYCLE buffer for a committed cycle (R347); multi-octet fields in the byte order of the message set. -/
def cycleContent (s : State) (c b n mode : Nat) (r : CommitRec) : List Byte :=
  let e := canBuf (s.sec 12 c) b
  let fd := s.flag (CAN_TXB_HDR_FDF c b)
  let big := s.flag (CAN_STATUS_MSGSET c)
  let order (k v : Nat) : List Byte := if big then beBytes k v else leBytes k v
  let base := List.replicate (dlcLen fd (s.rd (CAN_TXB_STS_DLC c b))) (0 : Byte)
  (List.range (u8 e 6)).foldl (fun d i =>
    let o := 12 + 4 * i
    let ax := at_ r.axes (u16 e (o + 2)) ⟨0, false⟩
    let v := match u8 e o with
      | 1 => order 4 (n % 2 ^ 32)
      | 2 => order 4 ax.val
      | 4 => [BitVec.ofNat 8 mode]
      | _ => [BitVec.ofNat 8 (b2n r.repeated + 2 * b2n ax.stby)]
    d.take (u8 e (o + 1)) ++ v ++ d.drop (u8 e (o + 1) + v.length)) base

/-! ### Message sets (R447) -/

/-- The probe identifier of a controller's INTERFACES entry for the native set. -/
def probeArg (s : State) (c : Nat) : Nat :=
  let b := s.sec 17
  match (List.range (u16 b 0)).find? fun i => u8 b (4 + 8 * i) = 5 && u8 b (5 + 8 * i) = c && u8 b (6 + 8 * i) = 1 with
  | some i => u16 b (10 + 8 * i)
  | none => 0

/-- The native set is offered: its highest minor. -/
def nativeMinor (s : State) (c : Nat) : Option Nat := ((ifaceOffers s 5 c).find? fun x => x.1 = 1).map (·.2.2)
/-- The GK5-compatible set is offered. -/
def gk5Offered (s : State) (c : Nat) : Bool := (ifaceOffers s 5 c).any fun x => x.1 = 5

/-- Settle a controller's message set. -/
def settleSet (s : State) (c : Nat) (gk5 : Bool) : State :=
  updCan (s.wrb (CAN_STATUS_MSGSET c) gk5) c fun x => { x with probe := { x.probe with settled := true, due := false, waitTo := none } }

/-- R447: a controller integrates; after a start the set is settled or probed for. -/
def execCanIntegrated (c t : Nat) (s : State) : Host.Outcome State Fault Refusal :=
  let s := s.at t
  let tec := s.rd (CAN_STATUS_TEC c)
  let rec_ := s.rd (CAN_STATUS_REC c)
  done (
    if canState s c ≠ 1 then s
    else
      let s := s.wr (CAN_STATUS_STATE c) (if 128 ≤ tec || 128 ≤ rec_ then 3 else 2)
      if (s.canOf c).probe.due then
        match nativeMinor s c, gk5Offered s c with
        | some _, false => settleSet s c false
        | some _, true =>
          let to_ := s.tim.cnt + usTicks 200000
          updCan s c fun x => { x with probe := { x.probe with due := false, sending := true, lim := 0, waitTo := some to_ } }
        | none, _ => settleSet s c true
      else s)

/-- R447: no reply within 200 ms settles the GK5-compatible set. -/
def execCanProbeTimeout (c t : Nat) (s : State) : Host.Outcome State Fault Refusal :=
  let s := s.at t
  done (match (s.canOf c).probe.waitTo with
    | some w => if w ≤ s.tim.cnt then settleSet s c true else s
    | none => s)

/-! ### Reception (R344, R351 to R353) -/

/-- Place a record in a receive queue. -/
def canQueue (s : State) (c q : Nat) (r : CanRec) : State :=
  let l := at_ (s.canOf c).rxq q []
  if 32 ≤ l.length then
    let run := (s.canOf c).ovfRun
    let s := ((s.incSat (CAN_CNT_RX_LOST c) 255).wr (CAN_RXQ_STS_OVR c q) 1).wrBit (CAN_EVT_EVT c) 5 true
    let s := updCan s c fun x => { x with ovfRun := true }
    if run then s else report s 0x0808 c
  else
    let s := updCan s c fun x => { x with rxq := put_ x.rxq q [] (l ++ [r]), ovfRun := false }
    (s.wr (CAN_RXQ_STS_FILL c q) (l.length + 1)).wrBit (CAN_EVT_EVT c) (1 + q) true

/-- A filter pair matches a frame (R351). -/
def pairMatches (s : State) (c f w0 : Nat) : Bool :=
  let id := w0 % 2 ^ 29
  let fmt := s.rd (CAN_FLT_CFG_FMT c f)
  ((id ^^^ s.rd (CAN_FLT_MATCH_ID c f)) &&& s.rd (CAN_FLT_MASK_MASK c f)) = 0
    && bit w0 29 == s.flag (CAN_FLT_MATCH_IDE c f) && (fmt = 0 || (fmt = 1 && !bit w0 30) || (fmt = 2 && bit w0 30))

/-- The intake slots that a frame's identifier names (R351). -/
def canIntake (s : State) (c w0 : Nat) (d : List Byte) (tArr : Int) : State :=
  let sec := s.sec 3
  (definedSlots sec).foldl (fun s i =>
    let e := (slotEntry sec i).getD []
    if u8 e 1 = 1 && u8 e 4 = c && u32 e 8 = w0 % 2 ^ 30 then
      slotFrame s i e d (s.flag (CAN_STATUS_MSGSET c)) tArr none (markedInvalid e d)
    else s) s

/-- The frame of a probe or of its reply. -/
def probeFrames (s : State) (c w0 : Nat) (d : List Byte) : State :=
  let arg := probeArg s c
  let p := (s.canOf c).probe
  -- base identifiers lie in bits 28:18
  let base := if bit w0 29 then 0xFFFF else w0 % 2 ^ 29 / 2 ^ 18
  match nativeMinor s c with
  | none => s
  | some m =>
    if base = arg then updCan s c fun x => { x with probe := { x.probe with reply := true } }
    else if base = arg + 1 && p.waitTo.isSome then
      -- a common native version: the same major, and a minor both offer
      let low := (((ifaceOffers s 5 c).find? fun x => x.1 = 1).map (·.2.1)).getD 0
      settleSet s c (!(u8 d 0 = 1 && low ≤ min m (u8 d 1)))
    else s

/-- A valid data frame reaches a controller. -/
def canAccept (s : State) (c w0 dlc : Nat) (esi : Bool) (d : List Byte) (sof : Nat) : State :=
  let tArr := corrCap s.tim sof
  let w1 (pair : Nat) (hpb : Bool) : Nat := dlc % 16 + 16 * d.length + 2048 * b2n esi + 65536 * pair + 2 ^ 22 * b2n hpb
  let hp := s.flag (CAN_CFG_HPB_EN c) && s.flag (CAN_STATUS_MSGSET c)
  let sec := s.sec 12 c
  let hm := u32 sec 0x10
  if hp && (((w0 ^^^ hm) % 2 ^ 29) &&& (u32 sec 0x14 % 2 ^ 29)) = 0 && bit w0 29 == bit hm 29 then
    let full := (s.canOf c).hpb.isSome
    let s := updCan s c fun x => { x with hpb := some ⟨w0, w1 0 true, sof, d⟩ }
    let s := s.wr (CAN_RXQ_STS_FILL c 2) 1
    if full then report (s.wr (CAN_RXQ_STS_OVR c 2) 1) 0x0809 c else s
  else
    match (List.range (s.rd (CAN_CFG_NFILT c))).find? fun f => pairMatches s c f w0 with
    | none => s
    | some f =>
      let dest := s.rd (CAN_FLT_CFG_DEST c f)
      let s := if dest = 1 || dest = 2 then canQueue s c (dest - 1) ⟨w0, w1 f false, sof, d⟩ else s
      let s := if s.flag (CAN_FLT_CFG_INTAKE c f) && s.rd (CAN_CFG_LOOPBACK c) = 0 then canIntake s c w0 d tArr else s
      if s.flag (CAN_FLT_CFG_FB c f) then
        updDrive s (8 + c) (s.rd (CAN_FLT_CFG_FB_AXIS c f)) fun x => { x with fresh := true, status := 1 }
      else s

/-- The receive count after a good frame: one less, or back below the passive limit (ISO 11898-1; notes/assumptions/18). -/
def recDown (r : Nat) : Nat := if 127 < r then 127 else r - 1

/-- The bus state from the counts (R348), with its reports. -/
def canConfine (s : State) (c : Nat) : State :=
  let tec := s.rd (CAN_STATUS_TEC c)
  let rec_ := s.rd (CAN_STATUS_REC c)
  if canState s c = 2 && (128 ≤ tec || 128 ≤ rec_) then
    report ((s.wr (CAN_STATUS_STATE c) 3).wrBit (CAN_EVT_EVT c) 3 true) 0x0801 c
  else if canState s c = 3 && tec < 128 && rec_ < 128 then report (s.wr (CAN_STATUS_STATE c) 2) 0x0802 c
  else s

/-- The controller takes part in frames. -/
def canTakes (s : State) (c : Nat) : Bool := canState s c = 2 || canState s c = 3 || canState s c = 5

/-- R344, R351 to R353: a valid frame has been received. -/
def canFrameRxOp (c w0 dlc : Nat) (esi rtr : Bool) (data : List Byte) (sof t : Nat) (s : State) : State :=
  let s := s.at t
  (
    if !canTakes s c || s.rd (CAN_CFG_LOOPBACK c) = 1 then s
    else
      let s := s.wr (CAN_STATUS_REC c) (recDown (s.rd (CAN_STATUS_REC c)))
      let s := canService (canConfine (updCan s c fun x => { x with recovering := false, pexRun := false }) c) c
      if rtr then s.incSat (CAN_CNT_REMOTE_CNT c) 255
      else canAccept (probeFrames s c w0 data) c w0 dlc esi data sof)

/-- R344: a recessive res bit after FDF with PEX_EN = 1. -/
def execCanProtocolException (c t : Nat) (s : State) : Host.Outcome State Fault Refusal :=
  let s := s.at t
  done (
    if !canTakes s c || !s.flag (CAN_CFG_PEX_EN c) then s
    else
      let run := (s.canOf c).pexRun
      let s := updCan (s.incSat (CAN_CNT_PEX_CNT c) 255) c fun x => { x with pexRun := true }
      let s := if canState s c = 5 then s else s.wr (CAN_STATUS_STATE c) 1
      if run then s else report s 0x080A c)

/-! ### Errors and attempts (R348 to R350, R355) -/

/-- Bus-off (R349). -/
def canBusOff (s : State) (c : Nat) : State :=
  let s := (s.wrs [(CAN_STATUS_STATE c, 4), (CAN_STATUS_TEC c, 255)]).incSat (CAN_CNT_BUSOFF_CNT c) 255
  let s := (List.range 32).foldl (fun s b =>
    let x := s.txb c b
    if s.rd (CAN_TXB_STS_KIND c b) = 1 && (x.pend || x.target.isSome) then
      let s := if x.next.isSome then s.incSat (CAN_ERR_BUSOFF_DROP c) 0xFFFF else s
      updTxb (endBuf s c b 6) c b fun x => { x with target := none, next := none }
    else if x.pend && x.cancel then endBuf s c b 3
    else s) s
  report (s.wrBit (CAN_EVT_EVT c) 4 true) 0x0803 c

/-- A failed attempt of a buffer (R350, R355). -/
def failAttempt (s : State) (c b : Nat) (ack : Bool) : State :=
  let x := s.txb c b
  if !x.pend then s
  else
    let s := s.incSat (CAN_TXB_STS_ATTEMPTS c b) 255
    let cycle := s.rd (CAN_TXB_STS_KIND c b) = 1
    if x.cancel || canState s c = 5 || canState s c = 0 then
      let s := endBuf s c b 3
      let s := if x.cancel && cycle then superseded s c b else s
      afterAttempt s c b
    else
      let lim := canLimited s c
      let k := if lim then x.lim + 1 else 0
      let s := updTxb s c b fun x => { x with lim := k }
      if lim && s.rd (CAN_CFG_RETRY_LIMIT c) < k then
        afterAttempt (report (endBuf s c b (if ack then 4 else 5)) (if ack then 0x0805 else 0x0806) c) c b
      else s

/-- A failed attempt of the probe, which is in limited-retry service (R350, R447). -/
def failProbe (s : State) (c : Nat) (ack : Bool) : State :=
  let p := (s.canOf c).probe
  if !p.sending then s
  else
    let last : Bool := s.rd (CAN_CFG_RETRY_LIMIT c) < p.lim + 1
    let s := updCan s c fun x => { x with probe := { x.probe with sending := !last, lim := p.lim + 1 } }
    if last then report s (if ack then 0x0805 else 0x0806) c else s

/-- R348 to R350: an error (LEC code), or lost arbitration (0), with the buffer in the attempt if the controller sent; `dom` says that a
dominant bit followed its error flag. The counts follow ISO 11898-1 (notes/assumptions/18). -/
def execCanError (c lec : Nat) (phase : Bool) (tx : Option Nat) (dom : Bool) (t : Nat) (s : State) : Host.Outcome State Fault Refusal :=
  let s := s.at t
  let passive := canState s c = 3
  let tec := s.rd (CAN_STATUS_TEC c)
  done (
    if canState s c = 0 then tx.elim s fun b => failAttempt s c b false
    else if !canTakes s c then s
    else
      let s := if lec = 0 then s else s.wrs [(CAN_ERR_LEC c, lec), (CAN_ERR_PHASE c, b2n phase)]
      let quiet := passive && lec = 3 && !dom
      let tec' := if tx.isSome && lec ≠ 0 && !quiet then tec + 8 else tec
      let s := if tx.isNone && lec ≠ 0 && canState s c ≠ 5 then
          s.wr (CAN_STATUS_REC c) (satAdd (s.rd (CAN_STATUS_REC c)) (if dom then 8 else 1) 255) else s
      let s := s.wr (CAN_STATUS_TEC c) (min tec' 255)
      let s := canService s c
      let off : Bool := 255 < tec' && canState s c ≠ 5
      let s := match tx with
        | some b =>
          -- bus-off ends a CYCLE buffer whatever waits for the end of its attempt (R358)
          if b < 32 then (if off && s.rd (CAN_TXB_STS_KIND c b) = 1 then s.incSat (CAN_TXB_STS_ATTEMPTS c b) 255 else failAttempt s c b (lec = 3))
          else if b = 32 then failProbe s c (lec = 3)
          else s
        | none => s
      if off then canBusOff s c else canConfine s c)

/-- R349: 128 sequences of 11 recessive bits after bus-off. -/
def execCanBusoffRecovered (c t : Nat) (s : State) : Host.Outcome State Fault Refusal :=
  let s := s.at t
  done (if canState s c ≠ 4 then s
    else
      -- error active by its counts, it integrates before it takes part again (R348)
      let s := s.wrs [(CAN_STATUS_STATE c, 1), (CAN_STATUS_TEC c, 0), (CAN_STATUS_REC c, 0)]
      let s := updCan s c fun x => { x with recovering := true }
      report (canService s c) 0x0804 c)

/-! ### Transmit buffers (R354, R355) -/

/-- An attempt that began at `sof` may end: the controller takes part in frames, or has stopped or fallen silent since (R356, R358). -/
def attemptEnds (s : State) (c sof : Nat) : Bool :=
  canState s c = 2 || canState s c = 3 || ((canState s c = 0 || canState s c = 5) && sof ≤ (s.canOf c).endAt)

/-- The octets of a sent frame on the bus; in internal loop-back the transmit ball stays recessive (R357). -/
def canEmit (s : State) (c w0 : Nat) (d : List Byte) : State := if s.rd (CAN_CFG_LOOPBACK c) = 1 then s else s.emit (.can c w0 d)

/-- R354: the target of a CYCLE buffer arrives. -/
def canTxLaunchOp (c b t : Nat) (s : State) : State :=
  let s := s.at t
  (match (s.txb c b).target with
    | some x => if due40 x s.tim.cnt && !(s.txb c b).pend && b < 32 && cycleMaySend s c then reqBuf s c b else s
    | none => s)

/-- R354, R355: an attempt that began at `sof` has succeeded; 32 is the probe and 33 its reply. -/
def execCanTxDone (c b sof tdcv t : Nat) (s : State) : Host.Outcome State Fault Refusal :=
  let s := s.at t
  let good (s : State) : State :=
    let s := s.wr (CAN_STATUS_TEC c) (s.rd (CAN_STATUS_TEC c) - 1)
    canService (canConfine (updCan s c fun x => { x with recovering := false }) c) c
  let arg := probeArg s c
  let payload : List Byte := [1, BitVec.ofNat 8 ((nativeMinor s c).getD 0)]
  let to_ := s.tim.cnt + usTicks 200000
  done (
    if b = 32 && (s.canOf c).probe.sending then
      let s := good (canEmit s c (arg * 2 ^ 18) payload)
      updCan s c fun x => { x with probe := { x.probe with sending := false, waitTo := x.probe.waitTo.map fun _ => to_ } }
    else if b = 33 && (s.canOf c).probe.reply then
      let s := good (canEmit s c ((arg + 1) * 2 ^ 18) payload)
      updCan s c fun x => { x with probe := { x.probe with reply := false } }
    else if 32 ≤ b || !(s.txb c b).pend || !attemptEnds s c sof then s
    else
      let late := (s.txb c b).cancel
      let w0 := bufW0 s c b
      let dlc := s.rd (CAN_TXB_STS_DLC c b)
      let d := bufData s c b (dlcLen (bit w0 30) dlc)
      let s := (good (canEmit s c w0 d)).incSat (CAN_TXB_STS_ATTEMPTS c b) 255
      let s := endBuf s c b 2
      let s := s.wrs [(CAN_TXB_TIME_LO_SOF_CNT c b, sof), (CAN_TXB_TIME_HI_SOF_CNT c b, sof / 2 ^ 32), (CAN_TXB_STS_CANCEL_LATE c b, b2n late)]
      let s := (s.wrBit (CAN_TX_DONE_BUF c) b true).wrBit (CAN_EVT_EVT c) 0 true
      let s := if late then report s 0x0807 c else s
      let s := if s.flag (CAN_DBT_TDC_EN c) && bit w0 31 then
          let run := (s.canOf c).tdcRun
          let s := updCan (s.wr (CAN_STATUS_TDCV c) (min tdcv 127)) c fun x => { x with tdcRun := decide (127 ≤ tdcv) }
          if 127 ≤ tdcv && !run then report s 0x080B c else s
        else s
      let s := if s.rd (CAN_CFG_LOOPBACK c) ≠ 0 then canAccept s c w0 dlc false d sof else s
      afterAttempt s c b)

/-- A write of CAN_TX_REQ requests HOST buffers (R354). -/
def canTxReq (s : State) (c v : Nat) : State :=
  if groupStopped s (8 + c) then s
  else (List.range 32).foldl (fun s b =>
    if bit v b && s.rd (CAN_TXB_STS_KIND c b) = 2 && !(s.txb c b).pend then reqBuf s c b else s) s

/-- R354: a host write of CAN_TX_REQ. -/
def execCanTxReq (a : Path) (c v t : Nat) (s : State) : Host.Outcome State Fault Refusal :=
  done (hostDo (s.at t) a (0x220020 + c * 0x1000) v fun s => canTxReq s c v)

/-- A write of CAN_TX_CANCEL (R355); `att` is the buffer whose frame is on the bus. -/
def canTxCancel (s : State) (c v : Nat) (att : Option Nat) : State :=
  (List.range 32).foldl (fun s b =>
    if bit v b && s.rd (CAN_TXB_STS_KIND c b) = 2 && (s.txb c b).pend then
      if att = some b then updTxb s c b fun x => { x with cancel := true } else endBuf s c b 3
    else s) s

/-- R355: a host write of CAN_TX_CANCEL. -/
def execCanTxCancel (a : Path) (c v : Nat) (att : Option Nat) (t : Nat) (s : State) : Host.Outcome State Fault Refusal :=
  done (hostDo (s.at t) a (0x220024 + c * 0x1000) v fun s => canTxCancel s c v att)

/-- A write of POP releases the head record of a queue (R352). -/
def canPop (s : State) (c q : Nat) : State :=
  if 2 ≤ q then s
  else
    let l := (at_ (s.canOf c).rxq q []).drop 1
    (updCan s c fun x => { x with rxq := put_ x.rxq q [] l }).wr (CAN_RXQ_STS_FILL c q) l.length

/-- R352: a host write of POP. -/
def execCanRxqPop (a : Path) (c q t : Nat) (s : State) : Host.Outcome State Fault Refusal :=
  done (hostDo (s.at t) a (0x220040 + c * 0x1000 + 4 * q) 0x80000000 fun s => canPop s c q)

/-- A write of POP releases the held high-priority frame (R353). -/
def hpbPop (s : State) (c : Nat) : State := (updCan s c fun x => { x with hpb := none }).wr (CAN_RXQ_STS_FILL c 2) 0

/-- R353: a host write of POP. -/
def execCanHpbPop (a : Path) (c t : Nat) (s : State) : Host.Outcome State Fault Refusal :=
  done (hostDo (s.at t) a (0x220048 + c * 0x1000) 0x80000000 fun s => hpbPop s c)

/-- The words of a record window (R352): 0 beyond the octets held. -/
def recWord (r : Option CanRec) (k : Nat) : Nat :=
  match r with
  | none => 0
  | some r => match k with
    | 0 => r.w0
    | 1 => r.w1
    | 2 => r.cnt % 2 ^ 32
    | 3 => r.cnt / 2 ^ 32 % 2 ^ 32
    | k => u32 r.data (4 * (k - 4))

/-- The record of a window: 0 and 1 the queues' heads, 2 the high-priority buffer. -/
def recHead (s : State) (c q : Nat) : Option CanRec := if q = 2 then (s.canOf c).hpb else (at_ (s.canOf c).rxq q []).head?

/-- The cold start of a CANc group (R89, R348): counts and queues cleared; it integrates, and after a start probes for its set. -/
def canCold (s : State) (c : Nat) : State :=
  if !s.hasSec 12 c then s
  else
    let s := updCan s c fun _ => { canZero with probe := { canZero.probe with due := true } }
    let s := s.wrs [(CAN_STATUS_STATE c, 1), (CAN_STATUS_TEC c, 0), (CAN_STATUS_REC c, 0), (CAN_CNT_BUSOFF_CNT c, 0), (CAN_CNT_RX_LOST c, 0),
      (CAN_CNT_PEX_CNT c, 0), (CAN_CNT_REMOTE_CNT c, 0), (CAN_ERR_BUSOFF_DROP c, 0), (CAN_ERR_LATE_CNT c, 0), (CAN_RXQ_STS_FILL c 0, 0),
      (CAN_RXQ_STS_FILL c 1, 0), (CAN_RXQ_STS_FILL c 2, 0), (CAN_TX_PEND_BUF c, 0)]
    let s := (List.range 32).foldl (fun s b => s.wr (CAN_TXB_STS_STATUS c b) 0) s
    canService s c

/-- A controller sends no further frame: an attempt on the bus ends as it would, without retry, and nothing waits to be requested. -/
def canQuiet (s : State) (c state : Nat) : State :=
  updCan (s.wr (CAN_STATUS_STATE c) state) c fun x => { x with
    endAt := s.tim.cnt, bufs := x.bufs.map fun b => { b with target := none, next := none } }

/-- A CANc group stops (R89, R358): no further frame. Its queues keep what they hold until the restart. -/
def canStop (s : State) (c : Nat) : State := canQuiet s c 0

/-- Bus monitoring at fail-silent or on a fence (R356, R384): no attempt is retried. -/
def canMonitor (s : State) (c : Nat) : State := if canState s c = 0 || canState s c = 5 then s else canQuiet s c 5

end Sys2Proof.Machine
end

