-- ==== Sys2Proof/Machine/Saf.lean ====
section
/-! DEFINITION. The safety evaluator (spec/09): inputs, functions, reset, outputs, test pulses, its event queue and its mirror. A
command carries the SAFE clock at which it happens; what the evaluator does at a tick it does in SAFE_TICK, and what has a row of
its own in that command. -/

namespace Sys2Proof.Machine

open Sys2Proof

/-- SAFE clocks in a millisecond (R281). -/
def safMs : Nat := 48000

/-- A function entry of the active configuration (R286). -/
def fnEnt (b : List Byte) (f : Nat) : List Byte := slice b (32 + 16 * f) 16
/-- Functions of the active configuration. -/
def safNfn (b : List Byte) : Nat := u8 b 0
/-- TYPE of function f: 1 ESTOP, 2 DOOR, 3 TWO_HAND, 4 OSSD. -/
def fnType (b : List Byte) (f : Nat) : Nat := u8 (fnEnt b f) 0
/-- The input pairs that a function names. -/
def fnPairs (b : List Byte) (f : Nat) : List Nat :=
  let e := fnEnt b f
  if u8 e 3 < 8 then [u8 e 2, u8 e 3] else [u8 e 2]
/-- The reset ball, if one is named (R285). -/
def resetBall (b : List Byte) : Option Nat := if bit (u8 b 6) 7 then some (u8 b 6 % 16) else none
/-- OUT_MAP octet of an output. -/
def outMap (b : List Byte) (o : Nat) : Nat := u8 b (8 + o)

/-- The configuration in force, empty when there is none. -/
def State.sconf (s : State) : List Byte := s.saf.conf.getD []

/-- SAFE time passes. -/
def safAt (s : State) (c : Nat) : State := { s with saf := { s.saf with clk := max s.saf.clk c } }

/-- A function at configuration start (R290, R291). -/
def fnZero : SafFn := ⟨0, 0, true, false, false, 0, [none, none], [none, none], false⟩

/-- Function `f`. -/
def State.fn (s : State) (f : Nat) : SafFn := at_ s.saf.fns f fnZero

/-- Change function `f`. -/
def updFn (s : State) (f : Nat) (g : SafFn → SafFn) : State := { s with saf := { s.saf with fns := upd_ s.saf.fns f fnZero g } }

/-- The channel of pair index `i` of function `f` is permissive (R287): B is turned over when marked ANTI. -/
def chanPerm (s : State) (f i : Nat) (chB : Bool) : Bool :=
  let b := s.sconf
  let pair := at_ (fnPairs b f) i 0
  let lvl := bit s.saf.acc (2 * pair + b2n chB)
  if chB && bit (u8 (fnEnt b f) 0x0E) i then !lvl else lvl

/-- Both channels of a pair are permissive. -/
def pairPerm (s : State) (f i : Nat) : Bool := chanPerm s f i false && chanPerm s f i true
/-- Neither channel of a pair is permissive. -/
def pairRest (s : State) (f i : Nat) : Bool := !chanPerm s f i false && !chanPerm s f i true
/-- Every pair a function names, by index. -/
def pairIdx (s : State) (f : Nat) : List Nat := List.range (fnPairs s.sconf f).length
/-- Every pair is permissive: the condition of R291's third column for ESTOP, DOOR and OSSD, and of running for all. -/
def allPerm (s : State) (f : Nat) : Bool := (pairIdx s f).all (pairPerm s f)
/-- Every channel is at rest. -/
def allRest (s : State) (f : Nat) : Bool := (pairIdx s f).all (pairRest s f)

/-- Queue one event (R301). -/
def safQueue (s : State) (code f : Nat) : State :=
  if s.saf.queue.length < 16 then { s with saf := { s.saf with queue := s.saf.queue ++ [⟨code, f, s.saf.tick⟩] } }
  else s.incSat SAF_CNT_EVT_DROP 255

/-- A function leaves RUN (R290). -/
def safTrip (s : State) (f : Nat) : State :=
  ((safQueue s 0x0A02 f).incSat SAF_CNT_TRIP_CNT 0xFFFF).wrBit SAF_EVT_TRIP f true

/-- A function enters FAULT with a reason (R290); from RUN that is a trip too. The report is the reason's own code, if it has one. -/
def safFault (s : State) (f why : Nat) (code : Option Nat) : State :=
  let fn := s.fn f
  if fn.state = 4 then (if why = 6 then updFn s f fun x => { x with why := 6 } else s)
  else
    let s := if fn.state = 2 then safTrip s f else s
    let s := updFn s f fun x => { x with
      state := 4, why := why, manual := true, syncWait := x.syncWait || (fn.state = 2 && fnType s.sconf f = 3), rested := false }
    let s := (s.incSat SAF_CNT_FAULT_CNT 255).wrBit SAF_EVT_FAULT f true
    match code with
    | some c => safQueue s c f
    | none => s

/-- A function enters RUN. -/
def safRun (s : State) (f : Nat) : State :=
  let auto := bit (u8 (fnEnt s.sconf f) 4) 0
  let s := updFn s f fun x => { x with state := 2, manual := !auto, rested := false }
  (safQueue s 0x0A03 f).wr SAF_EVT_RESET_DONE 1

/-- The internal fault (R284): outputs off, every function in FAULT with reason INTERNAL. -/
def safInternal (s : State) : State :=
  if s.saf.internal then s
  else
    let s := { s with saf := { s.saf with internal := true, cmd := 0 } }
    let s := (List.range (safNfn s.sconf)).foldl (fun s f => safFault s f 6 none) s
    (safQueue s 0x0A0B 0).wr SAF_EVT_INTERNAL 1

/-- A readback fault on an output (R297). -/
def safOutFault (s : State) (o : Nat) : State :=
  if bit s.saf.rbFault o then s
  else
    let c := setBit (setBit s.saf.cmd (2 * o) false) (2 * o + 1) false
    let s := { s with saf := { s.saf with rbFault := setBit s.saf.rbFault o true, cmd := c, offOk := put_ s.saf.offOk o 0 0 } }
    let s := safQueue s 0x0A09 o
    (List.range (safNfn s.sconf)).foldl (fun s f => if bit (outMap s.sconf o) f then safFault s f 5 none else s) s

/-- The function leaves RUN because a channel left permissive (R291): STOP for category 0, STOPPING for category 1. -/
def safLeave (s : State) (f : Nat) : State :=
  let cat := u8 (fnEnt s.sconf f) 1
  let hand := fnType s.sconf f = 3
  let clk := s.saf.clk
  let s := updFn s f fun x => { x with state := if cat = 1 then 3 else 0, tripAt := clk, syncWait := x.syncWait || hand, rested := false }
  safTrip s f

/-- The second hand came within 500 ms of the first, from rest (R291, R292). -/
def handsSync (s : State) (f : Nat) : Bool :=
  let fn := s.fn f
  match at_ fn.perm 0 none, at_ fn.perm 1 none with
  | some a, some b => fn.rested && !fn.syncWait && max a b - min a b ≤ 500 * safMs
  | _, _ => false

/-- The second hand is late (R292): the function stays in STOP until both are at rest. -/
def safSync (s : State) (f : Nat) : State := safQueue (updFn s f fun x => { x with syncWait := true, syncSaid := true }) 0x0A08 f

/-- One function at a tick (R290 to R292, R565). -/
def safEval (s : State) (f : Nat) : State :=
  let b := s.sconf
  let typ := fnType b f
  let lock := bit (u8 (fnEnt b f) 4) 1
  let s := if allRest s f then updFn s f fun x => { x with syncWait := false, syncSaid := false, rested := true } else s
  let s := if typ = 2 && lock && !pairPerm s f 0 && pairPerm s f 1 then safFault s f 4 (some 0x0A07) else s
  let fn := s.fn f
  if fn.state = 2 then (if allPerm s f then s else safLeave s f)
  else if fn.state = 1 then (if allPerm s f then s else updFn s f fun x => { x with state := 0 })
  else if fn.state = 0 then
    if typ = 3 then
      if !allPerm s f then s
      else if handsSync s f then safRun s f
      else if fn.rested && !fn.syncWait then safSync s f
      else s
    else if !allPerm s f then s
    else if fn.manual then updFn s f fun x => { x with state := 1 }
    else safRun s f
  else s

/-- Output `o` is to be on (R296); none is after EXTEST or INTEST (R483). -/
def outOn (s : State) (o : Nat) : Bool :=
  let m := outMap s.sconf o
  s.saf.conf.isSome && !s.saf.internal && !s.err.jtag && m ≠ 0 && !bit s.saf.rbFault o
    && (List.range (safNfn s.sconf)).all fun f => !bit m f || (s.fn f).state = 2 || (s.fn f).state = 3

/-- The mirror of the evaluator (R299, R302). -/
def safMirror (s : State) : State :=
  let n := safNfn s.sconf
  let mask (p : Nat → Bool) : Nat := (List.range n).foldl (fun m f => setBit m f (p f)) 0
  let on := (List.range 4).foldl (fun m o => setBit m o (outOn s o)) 0
  let s := s.wrs [(SAF_STATUS_CONFIGURED, b2n s.saf.conf.isSome), (SAF_STATUS_INTERNAL, b2n s.saf.internal),
    (SAF_STATUS_TRIPPED, mask fun f => (s.fn f).state ≠ 2), (SAF_STATUS_FAULT, mask fun f => (s.fn f).state = 4),
    (SAF_STATUS_OUT_ON, on), (SAF_IN_RAW, s.saf.raw), (SAF_IN_ACCEPTED, s.saf.acc), (SAF_OUT_STP, s.saf.stp),
    (SAF_OUT_READBACK, s.saf.rb), (SAF_OUT_COMMAND, s.saf.cmd)]
  (List.range n).foldl (fun s f =>
    let fn := s.fn f
    let left := if fn.state = 3 then (u16 (fnEnt s.sconf f) 0x0A * safMs - (s.saf.clk - fn.tripAt) + safMs - 1) / safMs else 0
    s.wrs [(SAF_FN_STS_STATE f, fn.state), (SAF_FN_STS_WHY f, fn.why), (SAF_FN_STS_DISC_RUN f, b2n (fn.disc.any Option.isSome)),
      (SAF_FN_STS_SYNC_WAIT f, b2n fn.syncWait), (SAF_FN_STS_STOP_LEFT f, left)]) s

/-- Balls that a function or the reset names. -/
def namedBalls (b : List Byte) : Nat :=
  let m := (List.range (safNfn b)).foldl (fun m f => (fnPairs b f).foldl (fun m p => setBit (setBit m (2 * p) true) (2 * p + 1) true) m) 0
  match resetBall b with
  | some x => setBit m x true
  | none => m

/-- Readback at a tick (R297): runs of wrong and of off readings; a standing fault ends after more than two ticks of off. -/
def safReadback (s : State) (rb : Nat) : State :=
  let sw := List.range 8
  let wrong := sw.map fun i => if bit rb i = bit s.saf.cmd i then 0 else satAdd (at_ s.saf.wrong i 0) 1 255
  let off := (List.range 4).map fun o =>
    if !bit s.saf.cmd (2 * o) && !bit s.saf.cmd (2 * o + 1) && !bit rb (2 * o) && !bit rb (2 * o + 1) then satAdd (at_ s.saf.offOk o 0) 1 255 else 0
  let f := (List.range 4).foldl (fun m o => if 2 < at_ off o 0 then setBit m o false else m) s.saf.rbFault
  { s with saf := { s.saf with rb := rb, wrong := wrong, offOk := off, rbFault := f } }

/-- R282: one tick of the evaluator. -/
def safTick (s : State) (raw rb : Nat) (agree ecc : Bool) : State :=
  let b := s.sconf
  let named := namedBalls b
  let acc := (List.range 16).foldl (fun a i => if bit named i then a else setBit a i (bit raw i)) s.saf.acc
  let s := { s with saf := { s.saf with tick := s.saf.tick + 1, raw := raw % 65536, acc := acc } }
  let s := if !agree || !ecc then safInternal s else s
  if s.saf.conf.isNone then safMirror (safReadback s rb)
  else
    let s := safReadback s rb
    let s := if s.saf.internal then s else (List.range (safNfn b)).foldl safEval s
    let cmd := (List.range 4).foldl (fun m o => setBit (setBit m (2 * o) (outOn s o)) (2 * o + 1) (outOn s o)) 0
    safMirror { s with saf := { s.saf with cmd := cmd } }

/-- An event of the evaluator's own clocking is due: at least `every` SAFE clocks after the one before. -/
def clkDue (last : Option Nat) (every c : Nat) : Bool := (last.map fun a => decide (a + every ≤ c)).getD true

/-- R282 to R300: a tick, 12,000 SAFE clocks after the one before. The evaluator stops in SLEEP (R283). -/
def execSafeTick (raw rb : Nat) (agree ecc : Bool) (c : Nat) (s : State) : Host.Outcome State Fault Refusal :=
  let s := safAt s c
  done (if asleep s || !clkDue s.saf.tickAt 12000 c then s
    else safTick { s with saf := { s.saf with tickAt := some c } } raw rb agree ecc)

/-- Discrepancy and permissive instants of the functions after an accepted change (R288, R292). -/
def safPairs (s : State) (c : Nat) : State :=
  (List.range (safNfn s.sconf)).foldl (fun s f =>
    (pairIdx s f).foldl (fun s i =>
      let differ := chanPerm s f i false != chanPerm s f i true
      let perm := pairPerm s f i
      updFn s f fun x => { x with
        disc := upd_ x.disc i none fun d => if differ then (if d.isSome then d else some c) else none,
        perm := upd_ x.perm i none fun d => if perm then (if d.isSome then d else some c) else none }) s) s

/-- A reset acts (R294, R295). -/
def safReset (s : State) : State :=
  (List.range (safNfn s.sconf)).foldl (fun s f =>
    let fn := s.fn f
    let open_ := fn.disc.any Option.isSome
    if open_ then s
    else if fn.state = 1 then (if allPerm s f then safRun s f else updFn s f fun x => { x with state := 0 })
    else if fn.state = 4 && fn.why ≠ 6 && allRest s f
        && (List.range 4).all fun o => !(bit (outMap s.sconf o) f && bit s.saf.rbFault o) then
      updFn s f fun x => { x with state := 0, why := 0, manual := true }
    else s) s

/-- The trailing edge of a press (R293): a reset when it has lasted from 50 ms to 3,000 ms. -/
def safPressEnd (s : State) (c : Nat) : State :=
  match s.saf.press with
  | none => s
  | some p =>
    let s := { s with saf := { s.saf with press := none, stuck := false } }
    if 50 * safMs ≤ c - p && c - p ≤ 3000 * safMs then safReset s else s

/-- R287, R288: a ball has stood at a new level for its filter time. -/
def execSafeInputAccept (x : Nat) (level : Bool) (c : Nat) (s : State) : Host.Outcome State Fault Refusal :=
  let s := safAt s c
  done (
    if 16 ≤ x || s.saf.conf.isNone || !bit (namedBalls s.sconf) x || bit s.saf.acc x = level then s
    else if resetBall s.sconf = some x then
      if level then { s with saf := { s.saf with acc := setBit s.saf.acc x true, press := some c, stuck := false } }
      else safPressEnd { s with saf := { s.saf with acc := setBit s.saf.acc x false } } c
    else safPairs { s with saf := { s.saf with acc := setBit s.saf.acc x level } } c)

/-- R288: at a tick a discrepancy has lasted longer than T_DISC. -/
def execDiscrepancyTimeout (f c : Nat) (s : State) : Host.Outcome State Fault Refusal :=
  let s := safAt s c
  let t := u16 (fnEnt s.sconf f) 6 * safMs
  done (if f < safNfn s.sconf && (s.fn f).disc.any fun d => match d with
      | some a => t < c - a
      | none => false
    then safFault s f 1 (some 0x0A04) else s)

/-- The balls of a function that the test source `src` feeds (R286): 1 = STP0, 2 = STP1. -/
def testedBalls (b : List Byte) (f src : Nat) : Nat :=
  let e := fnEnt b f
  (fnPairs b f).foldl (fun m p =>
    let m := if u8 e 0x0C = src then setBit m (2 * p) true else m
    if u8 e 0x0D = src then setBit m (2 * p + 1) true else m) 0

/-- All balls fed from a test source. -/
def allTested (b : List Byte) (src : Nat) : Nat := (List.range (safNfn b)).foldl (fun m f => m ||| testedBalls b f src) 0

/-- A test pulse of STP `p` is due (R289): once every TP_PERIOD, STP1's TP_PERIOD/2 after STP0's. -/
def pulseDue (s : State) (p c : Nat) : Bool :=
  let t := u16 s.sconf 2 * safMs
  clkDue (at_ s.saf.pulseAt p none) t c && (p = 0 || clkDue (at_ s.saf.pulseAt 0 none) (t / 2) c)

/-- R289: STP p goes low; channels at level 1 are checked, and those of the other source watched. -/
def execTestPulseStart (p raw c : Nat) (s : State) : Host.Outcome State Fault Refusal :=
  let s := safAt s c
  done (
    if 2 ≤ p || s.saf.conf.isNone || !bit (u8 s.sconf 1) p || !pulseDue s p c then s
    else
      let own := allTested s.sconf (p + 1) &&& raw
      let cross := allTested s.sconf (2 - p) &&& raw
      let v := s.saf
      { s with saf := { v with
        stp := setBit v.stp p false, own := put_ v.own p 0 own, cross := put_ v.cross p 0 cross, pulseAt := put_ v.pulseAt p none (some c) } })

/-- R289: the window of a pulse ends; `low` says which balls have read 0 within it. -/
def execTestPulseEnd (p low c : Nat) (s : State) : Host.Outcome State Fault Refusal :=
  let s := safAt s c
  done (
    if 2 ≤ p || s.saf.conf.isNone || !bit (u8 s.sconf 1) p || bit s.saf.stp p
        || !clkDue (at_ s.saf.pulseAt p none) ((u16 s.sconf 4 + 50) * 48) c then s
    else
      let own := at_ s.saf.own p 0
      let cross := at_ s.saf.cross p 0
      let fed := allTested s.sconf (p + 1)
      let miss := (List.range 16).map fun i =>
        let m := at_ s.saf.miss i 0
        if !bit fed i then m else if bit own i && !bit low i then satAdd m 1 2 else 0
      let s := { s with saf := { s.saf with stp := setBit s.saf.stp p true, own := put_ s.saf.own p 0 0, cross := put_ s.saf.cross p 0 0, miss := miss } }
      (List.range (safNfn s.sconf)).foldl (fun s f =>
        let mine := testedBalls s.sconf f (p + 1)
        let theirs := testedBalls s.sconf f (2 - p)
        let s := if (List.range 16).any fun i => bit mine i && at_ miss i 0 = 2 then safFault s f 2 (some 0x0A05) else s
        if theirs &&& cross &&& low ≠ 0 then safFault s f 3 (some 0x0A06) else s) s)

/-- R290: T_STOP1 has run from the trip. -/
def execStop1Expired (f c : Nat) (s : State) : Host.Outcome State Fault Refusal :=
  let s := safAt s c
  let fn := s.fn f
  done (if f < safNfn s.sconf && fn.state = 3 && u16 (fnEnt s.sconf f) 0x0A * safMs ≤ c - fn.tripAt then
    updFn s f fun x => { x with state := 0 } else s)

/-- R293, R294: the trailing edge of the reset ball's press. -/
def execResetPressEnd (c : Nat) (s : State) : Host.Outcome State Fault Refusal :=
  let s := safAt s c
  done (match resetBall s.sconf with
    | some x => safPressEnd { s with saf := { s.saf with acc := setBit s.saf.acc x false } } c
    | none => s)

/-- R293: a press has lasted 3,000 ms. -/
def execResetStuck (c : Nat) (s : State) : Host.Outcome State Fault Refusal :=
  let s := safAt s c
  done (match s.saf.press with
    | some p => if !s.saf.stuck && 3000 * safMs ≤ c - p then safQueue { s with saf := { s.saf with stuck := true } } 0x0A0A 0 else s
    | none => s)

/-- R292: more than 500 ms after one pair became permissive the other has not. -/
def execTwoHandSyncTimeout (f c : Nat) (s : State) : Host.Outcome State Fault Refusal :=
  let s := safAt s c
  let fn := s.fn f
  let late (a b : Option Nat) : Bool := match a, b with
    | some x, none => 500 * safMs < c - x
    | _, _ => false
  let p := at_ fn.perm 0 none
  let q := at_ fn.perm 1 none
  done (if f < safNfn s.sconf && fnType s.sconf f = 3 && fn.state = 0 && fn.rested && !fn.syncWait && (late p q || late q p) then safSync s f
    else s)

/-- R297: a switch of output o has read against its command for more than two ticks. -/
def execReadbackFault (o c : Nat) (s : State) : Host.Outcome State Fault Refusal :=
  let s := safAt s c
  done (if o < 4 && s.saf.conf.isSome && (2 < at_ s.saf.wrong (2 * o) 0 || 2 < at_ s.saf.wrong (2 * o + 1) 0) then safOutFault s o else s)

/-- R297: the dark pulse of one switch of an output that is on; `low` says that the switch read low. -/
def execDarkPulse (o : Nat) (side low : Bool) (c : Nat) (s : State) : Host.Outcome State Fault Refusal :=
  let s := safAt s c
  done (if o < 4 && s.saf.conf.isSome && bit (u8 s.sconf 7) o && bit s.saf.cmd (2 * o) && bit s.saf.darkSide o == side
      && clkDue (at_ s.saf.darkAt o none) (1000 * safMs) c then
    let s := { s with saf := { s.saf with darkSide := setBit s.saf.darkSide o (!side), darkAt := put_ s.saf.darkAt o none (some c) } }
    if low then s else safOutFault s o
  else s)

/-- R284: FRC is compared with SRC over a 100 ms window; the count ratio must lie in 2,560 to 3,380. -/
def execSafeClockCheck (frc src c : Nat) (s : State) : Host.Outcome State Fault Refusal :=
  let s := safAt s c
  done (if !asleep s && (frc < 2560 * src || 3380 * src < frc) then safInternal s else s)

/-- R301: the oldest queued event is drained to the incident log, dated at the drain, with its tick number. -/
def execSafeEventDrain (t : Nat) (s : State) : Host.Outcome State Fault Refusal :=
  let s := s.at t
  done (match if asleep s then [] else s.saf.queue with
    | [] => s
    | e :: r => report { s with saf := { s.saf with queue := r } } e.code e.fn e.tick)

/-- R457: FRC stops outside a deliberate stop; every safety output goes off and the evaluator takes its internal fault. -/
def execFrcStopWatchdog (t : Nat) (s : State) : Host.Outcome State Fault Refusal :=
  done (safInternal { s.at t with saf := { s.saf with cmd := 0 } })

/-- The configuration is discarded (R283): outputs off, the mirror at its reset values. -/
def safDiscard (s : State) : State :=
  let v := s.saf
  { s with saf := { SafSt.reset with clk := v.clk, tick := v.tick, queue := v.queue, raw := v.raw, rb := v.rb, tickAt := v.tickAt } }

/-- A new configuration is applied (R283): every function in STOP, no readback fault; under an internal fault it is not applied. -/
def safConfigure (s : State) : State :=
  let b := s.sec 14
  if s.saf.internal then s
  else
    let fns := (List.range (safNfn b)).map fun f =>
      let e := fnEnt b f
      { fnZero with manual := !bit (u8 e 4) 0 || bit (u8 e 4) 2 }
    let s := { s with saf := { s.saf with
      conf := some b, fns := fns, cmd := 0, wrong := [], offOk := [], rbFault := 0, stp := u8 b 1, own := [], cross := [], miss := [],
      darkSide := 0, press := none, stuck := false, pulseAt := [], darkAt := [] } }
    let s := safPairs s s.saf.clk
    let s := s.wrs [(SAF_CFG_NFN, safNfn b), (SAF_CFG_DARK_EN, u8 b 7), (SAF_CFG_RESET_USED, b2n (resetBall b).isSome),
      (SAF_CFG_RESET_BALL, (resetBall b).getD 0), (SAF_TP_STP_EN, u8 b 1), (SAF_TP_TP_PERIOD, u16 b 2), (SAF_TP_TP_WIDTH, u16 b 4),
      (SAF_OUTMAP_OUT_MAP, u32 b 8), (SAF_CNT_TRIP_CNT, 0), (SAF_CNT_FAULT_CNT, 0), (SAF_CNT_EVT_DROP, 0)]
    let s := (List.range 8).foldl (fun s f =>
      let e := if f < safNfn b then fnEnt b f else []
      s.wrs [(SAF_FN_CFG_TYPE f, u8 e 0), (SAF_FN_CFG_CAT f, u8 e 1), (SAF_FN_CFG_AUTO_RESET f, b2n (bit (u8 e 4) 0)),
        (SAF_FN_CFG_LOCK f, b2n (bit (u8 e 4) 1)), (SAF_FN_CFG_START_MANUAL f, b2n (bit (u8 e 4) 2)), (SAF_FN_CFG_ANTI f, u8 e 0x0E),
        (SAF_FN_CFG_TP_A f, u8 e 0x0C), (SAF_FN_CFG_TP_B f, u8 e 0x0D),
        (SAF_FN_CFG_PAIR1 f, if e.isEmpty then 0 else if u8 e 3 < 8 then u8 e 3 else 15), (SAF_FN_CFG_PAIR0 f, u8 e 2),
        (SAF_FN_TIM_T_STOP1 f, u16 e 0x0A), (SAF_FN_TIM_T_DISC f, u16 e 6), (SAF_FN_FILT_F_US f, u16 e 8)]) s
    safMirror (safQueue s 0x0A01 0)

end Sys2Proof.Machine
end

