-- ==== Sys2Proof/Machine/Link.lean ====
section
/-! DEFINITION. Piste addresses, routes, and the sending and taking of frames (R415 to R424, R428, R444, of spec/14). -/

namespace Sys2Proof.Machine

open Sys2Proof

/-- The CASCADE section (R429). -/
def State.casc (s : State) : List Byte := s.sec 15
/-- The device's cascade role (R429): 0 standalone, 1 MASTER, 2 MEMBER, 3 REFERENCE_NODE, 4 IO_NODE, 5 RESERVE. -/
def cascRole (s : State) : Nat := s.rd PST_CFG_ROLE
/-- The device's own address (R423). -/
def ownAddr (s : State) : Nat := s.rd PST_STATUS_ADDR
/-- The address named as the master's. -/
def masterAddr (s : State) : Nat := s.rd PST_MASTER_MASTER_ADDR
/-- The partner's address: PAIR_ADDR, or for an activated Reserve the member it pairs with (R393, R407). -/
def partnerAddr (s : State) : Nat := s.rd RED_STATUS_PARTNER_ADDR
/-- The device is a Pairs member, or a Reserve that has been activated. -/
def isPair (s : State) : Bool := s.flag PST_CFG_PAIRS || s.red.activated
/-- A bit of PURPOSE: 0 WIDEN, 1 DEEPEN, 2 MULTIPLY. -/
def hasPurpose (s : State) (i : Nat) : Bool := bit (s.rd PST_CFG_PURPOSE) i
/-- The device is a DEEPEN group (R429). -/
def deepenGroup (s : State) : Bool := hasPurpose s 1 && cascRole s ≠ 1
/-- The peers of the section: address, role, port. -/
def peerList (s : State) : List (Nat × Nat × Nat) :=
  (List.range (u16 s.casc 0x1C)).map fun i => let o := 64 + 4 * i; (u16 s.casc o, u8 s.casc (o + 2), u8 s.casc (o + 3))
/-- The export entries of MULTIPLY (R429, R433): scenario and server. -/
def exportList (s : State) : List (Nat × Nat) :=
  let b := 64 + 4 * u16 s.casc 0x1C
  (List.range (u16 s.casc 0x1E)).map fun i => (u8 s.casc (b + 4 * i), u16 s.casc (b + 4 * i + 2))
/-- One import entry (R433). -/
structure ImpEntry where
  src : Nat
  scen : Nat
  lane : Nat
  order : Nat
  nMax : Nat
  mMax : Nat
  pMax : Nat
  retUs : Nat
deriving DecidableEq, Repr

/-- The import entries of MULTIPLY. -/
def importList (s : State) : List ImpEntry :=
  let b := 64 + 4 * u16 s.casc 0x1C + 4 * u16 s.casc 0x1E
  let d := s.casc
  (List.range (u16 d 0x20)).map fun i =>
    let o := b + 12 * i
    ⟨u16 d o, u8 d (o + 2), u8 d (o + 3), u8 d (o + 4), u8 d (o + 5), u16 d (o + 6), u8 d (o + 8), u16 d (o + 10)⟩

/-- The device acts as the master (R428): the named master, unless another device acts for it, or the backup that took over. -/
def isMaster (s : State) : Bool :=
  s.flag PST_STATUS_ACTING_MASTER || (cascRole s = 1 && s.pst.backup.isNone && s.rd RED_STATUS_ROLE ≠ 3)
/-- A device whose ALIGN and MODE frames are accepted (R428). -/
def isMasterAddr (s : State) (a : Nat) : Bool := a = masterAddr s || s.pst.backup = some a

/-- Change the Piste state. -/
def State.ps (s : State) (f : PstSt → PstSt) : State := { s with pst := f s.pst }
/-- A Piste port. -/
def State.pport (s : State) (p : Nat) : PstPort := s.pst.ports.getD p .reset
/-- Change a Piste port. -/
def updPst (s : State) (p : Nat) (f : PstPort → PstPort) : State := s.ps fun x => { x with ports := x.ports.set p (f (s.pport p)) }

/-- A frame TYPE is a data frame (R420). -/
def isData (typ : Nat) : Bool := typ = 5 || (0x10 ≤ typ && typ < 0x18)
/-- The CASCADE group is stopped: no data frame (R89, R420). -/
def cascStopped (s : State) : Bool := !s.idle && bit (stoppedGroups s) 5
/-- The Ethernet port of a string head (R424). -/
def headPort (s : State) : Nat := u8 s.casc 0x16
/-- A port carries frames of a TYPE (R420, R444): every type when TRAINED or DEGRADED, management frames in management-only form, and
HELLO, NOTICE and, with a 1.x partner, TUNNEL where the versions say no more; no data frame where the peer has the device's own address
(R418). Port 2 is the way through a string head, over its Ethernet port (R89, R424). -/
def portCarries (s : State) (p typ : Nat) : Bool :=
  if p = 2 then s.flag PST_CFG_STRING_HEAD && netOn s (headPort s)
  else if isData typ && (s.pport p).addrBad then false
  else match s.rd (PST_PORT_STS_STATE p) with
    | 3 => true
    | 4 => true
    | 2 =>
      match s.rd (PST_PORT_VER_MAJOR p) with
      | 0 => typ = 1 || typ = 2
      | 1 => typ = 1 || typ = 2 || typ = 0x30
      | _ => !isData typ
    | _ => false

/-- The number of devices in the own string. -/
def stringSize (s : State) : Nat := 1 + ((peerList s).filter fun x => x.1 / 128 = ownAddr s / 128).length

/-- The route of a frame (R423, R424): the port toward a destination, by fewer hops, ties to port A, the other direction where RING is
set and the first does not carry it. A frame for another string goes toward the string head, at position 0 (notes/assumptions/70). -/
def route (s : State) (dst typ : Nat) : Option Nat :=
  let own := ownAddr s
  let n := stringSize s
  let i := own % 128
  let away := dst / 128 ≠ own / 128
  if away && s.flag PST_CFG_STRING_HEAD then some 2
  else
    let j := if away then 0 else dst % 128
    if s.flag PST_CFG_RING then
      let ha := (j + n - i) % n
      let hb := (i + n - j) % n
      let order := if ha ≤ hb then [0, 1] else [1, 0]
      order.find? fun p => portCarries s p typ
    else
      let p := if i < j then 0 else 1
      if i = j || !portCarries s p typ then none else some p

/-- A device can be reached. -/
def reachable (s : State) (dst typ : Nat) : Bool := (route s dst typ).isSome

/-- Every device of the own string, and of the system (R419). -/
def bcastString : Nat := 16384
/-- BCAST_ALL. -/
def bcastAll : Nat := 16385

/-- The device waits in EMPTY for an image over Piste (R74, R435): it has no address yet (notes/assumptions/27). -/
def bootTarget (s : State) : Bool := !s.loaded && s.rd GLB_STRAP_BOOT = 4

/-- The class of a frame TYPE (R420). -/
def pstClass (typ : Nat) : Nat := if 2 ≤ typ && typ ≤ 5 then 0 else if 0x10 ≤ typ && typ < 0x18 then 1 else 2

/-- The Ethernet frame that carries a Piste frame through a string head (R419, R424). Its destination, VER, LSEQ and payload are free values:
the spec gives no destination address and, for most types, no layout (notes/assumptions/97). -/
def headFrame (s : State) (typ src dst cyc hops : Nat) : List Byte :=
  let free (i : Nat) : Nat := (Config.fit 28 [typ, src, dst, cyc, hops] i).toNat
  let octets (i k : Nat) : List Byte := (List.range k).map fun j => BitVec.ofNat 8 (free (i + j))
  let len := free 0 % 1025
  let flags := b2n (dst = bcastString) + 2 * b2n (dst = bcastAll) + 4 * pstClass typ
  let body := beBytes 1 typ ++ beBytes 1 flags ++ octets 1 1 ++ beBytes 1 hops ++ beBytes 2 src ++ beBytes 2 (dst % 16384) ++ beBytes 2 len
    ++ octets 2 2 ++ beBytes 4 cyc ++ octets 16 len
  octets 4 6 ++ slice (s.netSec (headPort s)) 0 6 ++ beBytes 2 0x88B7 ++ body ++ beBytes 4 (crc32c body)

/-- A frame leaves through the string head: in an Ethernet frame on queue 6 of HEAD_PORT, untimed (R424). -/
def headSend (s : State) (typ src dst cyc hops : Nat) : State :=
  netHand s (headPort s) 6 ⟨headFrame s typ src dst cyc hops, none, none, none, false, none⟩

/-- The device takes part in no data exchange of the cascade: a port's peer is the master with other timing (R418). -/
def timingBad (s : State) : Bool := s.pst.ports.any (·.timingBad)

/-- A frame goes out (R420, R421, R423): no data frame while CASCADE is stopped; one with no route is discarded, and reported once per
destination and run. -/
def pstOut (s : State) (typ dst cyc : Nat) (e : Emit) : State :=
  if bootTarget s then s.emit e
  else if cascRole s = 0 || (isData typ && (cascStopped s || timingBad s)) then s
  else if bcastString ≤ dst then
    let head : Bool := dst = bcastAll && portCarries s 2 typ
    let s' := if portCarries s 0 typ || portCarries s 1 typ || head then s.emit e else s
    if head then headSend s' typ (ownAddr s) dst cyc 0 else s'
  else match route s dst typ with
    | some p =>
      let s := (s.ps fun x => { x with noRoute := x.noRoute.filter fun d => d ≠ dst }).emit e
      if p = 2 then headSend s typ (ownAddr s) dst cyc 0 else s
    | none =>
      if s.pst.noRoute.contains dst then s
      else report (s.ps fun x => { x with noRoute := dst :: x.noRoute }) 0x0E0E 0 dst

/-- Send a frame of numbers. -/
def pstSend (s : State) (typ sub dst cyc : Nat) (ws : List Nat) : State := pstOut s typ dst cyc (.piste typ sub dst cyc ws)

/-- Send a frame with blocks or records. -/
def pstSendData (s : State) (typ dst cyc : Nat) (d : PstData) : State := pstOut s typ dst cyc (.pisteData typ dst cyc d)

/-- A data frame is discarded and counted (R420). -/
def pstDiscard (s : State) (h : PstHdr) : State := if h.port < 2 then s.incSat (PST_PORT_CNT_DISCARD h.port) 255 else s

/-- The frame is for another device. -/
def forOthers (s : State) (h : PstHdr) : Bool := !h.bstr && !h.ball && h.dst ≠ ownAddr s

/-- Pass a frame on (R423, R426): addressed to another device, or broadcast, over the other ports; `ws` is what forwarding writes into it.
A data frame with no route is counted. -/
def pstForward (s : State) (h : PstHdr) (typ : Nat) (ws : List Nat) : State :=
  let dst := if h.ball then bcastAll else if h.bstr then bcastString else h.dst
  let pass : Emit := .piste typ 255 dst h.cyc ([h.src, h.hops + 1] ++ ws)
  let head (s : State) : State := headSend s typ h.src dst h.cyc (h.hops + 1)
  if h.bstr || h.ball then
    let away : Bool := h.ball && h.port < 2 && portCarries s 2 typ
    let on : Bool := ([0, 1].filter fun p => p ≠ h.port).any fun p => portCarries s p typ
    let s := if on || away then s.emit pass else s
    if away then head s else s
  else match route s h.dst typ with
    | some p => if p = 2 then head (s.emit pass) else s.emit pass
    | none =>
      let s := if isData typ then pstDiscard s h else s
      if s.pst.noRoute.contains h.dst then s
      else report (s.ps fun x => { x with noRoute := h.dst :: x.noRoute }) 0x0E0E 0 h.dst

/-- A frame of a TYPE arrives (R418, R420, R423): not over a port that is down, nor the device's own broadcast come round the ring; data
discarded in management-only form, while CASCADE is stopped, and over a port in conflict; `f` is the effect on its user, and `ws` what
forwarding it writes. -/
def pstTakeWith (s : State) (h : PstHdr) (typ : Nat) (ws : List Nat) (f : State → State) : State :=
  let x := s.pport h.port
  if bootTarget s then (if h.port < 2 && portCarries s h.port typ && !isData typ then f s else s)
  else if cascRole s = 0 || 2 < h.port || (h.port = 2 && !portCarries s 2 typ) then s
  else if h.port < 2 && s.rd (PST_PORT_STS_STATE h.port) < 2 then s
  else if (h.bstr || h.ball) && h.src = ownAddr s then s
  else if isData typ then
    if x.addrBad || x.masterBad || timingBad s then s
    else if !portCarries s h.port typ || cascStopped s then pstDiscard s h
    else
      let s := if h.bstr || h.ball || forOthers s h then pstForward s h typ ws else s
      if forOthers s h then s else f s
  else if !portCarries s h.port typ || (x.masterBad && typ ≠ 1 && typ ≠ 2) then s
  else
    let s : State := if (h.bstr || h.ball || forOthers s h) && !x.addrBad && typ ≠ 1 && typ ≠ 3 then pstForward s h typ ws else s
    if forOthers s h then s else f s

/-- `pstTakeWith` for a frame that forwarding leaves as it is. -/
def pstTake (s : State) (h : PstHdr) (typ : Nat) (f : State → State) : State := pstTakeWith s h typ [] f

/-- The cycle that 32 bits of CYC name, nearest to the present one. -/
def fullCyc (s : State) (c : Nat) : Nat :=
  let now : Nat := s.rd SEQ_CYC_LO_CYC_LO + 2 ^ 32 * s.rd SEQ_CYC_HI_CYC_HI
  ((now : Int) + signed 32 (unsigned 32 ((c : Int) - now))).toNat

/-- P in 2^−16 ns. -/
def periodUnits (s : State) : Int := ((s.rd SEQ_PERIOD_VALUE * 1000 * 65536 : Nat) : Int)
/-- C in 2^−16 ns. -/
def commitUnits (s : State) : Int := ((s.rd SEQ_COMMIT_OFS_VALUE * 1000 * 65536 : Nat) : Int)
/-- T0 of a cycle on the present chain, in corrected time. -/
def t0At (s : State) (n : Nat) : Int := s.seq.nextT0 + ((n : Int) - s.seq.nextN) * periodUnits s
/-- CYC at a corrected time, on the present chain (R427). -/
def cycAt (s : State) (x : Int) : Int := (s.seq.nextN : Int) - 1 - (s.seq.nextT0 - x - 1) / max 1 (periodUnits s)

end Sys2Proof.Machine
end

