-- ==== Sys2Proof/Machine/Select.lean ====
section
/-! DEFINITION. Dispatch of the lane jobs, the failure set, consequence analysis and the choice at the commit (spec/06, spec/07). -/

namespace Sys2Proof.Machine

open Sys2Proof

/-! ### References (R197, R213) -/

/-- A device whose axes a WIDEN master allocates (R225, R253): its thruster indices are the master's. -/
def widenDev (s : State) : Bool := hasPurpose s 0 && !isMaster s

/-- The thrusters of a device by index: those of ALLOCATION; under WIDEN the master's, as the axes name and type them (R253). -/
def thrList (s : State) : List Thr :=
  let a := s.alloc?
  if widenDev s then
    (List.range (s.axes.foldl (fun m x => max m (x.thr + 1)) 0)).map fun i =>
      let typ (k : Nat) : Bool := s.axes.any fun x => x.thr = i && x.typ = k
      let kind := if typ 3 then 1 else if typ 1 then 2 else if typ 4 then 3 else 0
      match a.thr[i]? with
      | some t => { t with kind := kind }
      | none => ⟨kind, 255, 0, 0, 0, 0, 0, 0, 0, 0, 0, 0, 0, [], [], [], 0⟩
  else a.thr

/-- The standby references of every thruster: no force, the image-defined standby angle. -/
def refStandby (s : State) : AllocRef :=
  let thr := thrList s
  ⟨0, 0, 0, thr.map fun t => List.replicate (kindVars t.kind s.alloc?.forces) 0,
    (List.range thr.length).map (standbyAngle s.axes), []⟩

/-- The references of cycle `n` (R197): r(n), or the latest committed cycle before it. -/
def refOf (s : State) (n : Nat) : AllocRef :=
  match s.alloc.past.find? fun r => r.n + s.rd SLV_SEL_TIMING_K_S ≤ n with
  | some r => r
  | none => refStandby s

/-- The standing scenario after a restart of ALLOC or OCE is 0 (R213). -/
def selRestart (s : State) : State :=
  { s with alloc := { s.alloc with past := s.alloc.past.map fun r => { r with scen := 0 } } }

/-- Stage 6 of a cycle allocates (R222): a mode with allocation, OCE and ALLOC running, a demand, and a lane variant. -/
def allocRuns (s : State) (c : Cyc) : Bool :=
  !s.isNode && s.hasSec 7 && 2 ≤ c.inp.mode && bit c.inp.runs 1 && bit c.inp.runs 2 && !c.out.tau.isEmpty

/-- What an assembly of cycle `c` reads. -/
def asmOf (s : State) (c : Cyc) : AsmCtx :=
  let a := s.alloc?
  let r := refOf s c.n
  ⟨a, c.inp.cfg.get SEQ_PERIOD_VALUE, c.out.tau, r.f, r.theta, plantOf a c.inp.held, s.alloc.boxes⟩

/-! ### Jobs and lane memory (R209, R212, R231 to R236, R245) -/

/-- A lane is fenced. -/
def laneFenced (s : State) (i : Nat) : Bool :=
  if i < 32 then bit (s.rd (ERR_FENCE_LANE_UNIT 0)) i else bit (s.rd (ERR_FENCE_LANE_UNIT 1)) (i - 32)

/-- The lanes that run lane 0's and lane 1's job: itself, or the spares 2 and 3 in that order (R209, R250). -/
def primLanes (s : State) : List (Option Nat) :=
  let spares := [2, 3].filter fun i => !laneFenced s i
  if !laneFenced s 0 then [some 0, if laneFenced s 1 then spares.head? else some 1]
  else [spares.head?, if laneFenced s 1 then (spares.drop 1).head? else some 1]

/-- The deadline of the QP jobs of a cycle (R245): d6, or under a replay C − b7, on the counter. -/
def qpDeadline (s : State) (c : Cyc) : Nat :=
  let us := if c.run.again then s.rd SEQ_COMMIT_OFS_VALUE - s.rd (SEQ_STG_BUDGET_VALUE 6) else s.rd (SEQ_STG_DEADLINE_VALUE 5)
  dueAt s c us

/-- The end of a job that ends now, in ns after T0 of its cycle. -/
def jobEndNs (s : State) (q : Job) : Nat :=
  let t0 := match s.cyc? q.cyc with
    | some c => c.inp.t0c + c.run.step
    | none => t0At s q.cyc
  ((s.now - t0) / 65536).toNat

/-- The iteration cap of QP jobs. -/
def qpCap (s : State) : Nat := s.alloc?.iterCap

/-- No least-squares problem. -/
def LsProb.none : LsProb := ⟨0, 0, 0, 0, [], [], [], [], []⟩
/-- No quadratic programme. -/
def Prob.none : Prob := ⟨0, 0, 0, [], [], [], [], [], [], [], [], [], [], 0⟩

/-- A QP job that has not started. -/
def qpJob (s : State) (lane j id : Nat) (embed : Bool) (n dl : Nat) (p : Prob) : Job :=
  { lane := lane, j := j, typ := 1, id := id, embed := embed, warm := s.alloc.warm, cap := qpCap s, sub := 0, cyc := n, deadline := dl,
    prob := p, ls := .none, words := p.words, started := none, res := none }

/-- The server that solves a scenario under MULTIPLY (R433); none when it is solved here. -/
def serverOf (s : State) (k : Nat) : Option Nat :=
  if hasPurpose s 2 then ((exportList s).find? fun e => e.1 = k).map (·.2) else none

/-- The places of a lane's job table in ascending ORDER (R212, R433): own scenarios, and the imports that reserve a place. -/
def laneOrders (s : State) (lane : Nat) : List Nat :=
  let scens := s.scens
  let own := (((List.range scens.length).zip scens).filter fun x => x.2.lane = lane && (serverOf s x.1).isNone).map fun x => x.2.order
  (own ++ ((importList s).filter fun i => i.lane = lane).map (·.order)).mergeSort fun x y => x ≤ y

/-- The jobs of a lane in ascending ORDER (R212): place and scenario index. -/
def laneScens (s : State) (lane : Nat) : List (Nat × Nat) :=
  let scens := s.scens
  let ord := laneOrders s lane
  ((((List.range scens.length).zip scens).filter fun x => x.2.lane = lane && (serverOf s x.1).isNone).mergeSort
    fun x y => x.2.order ≤ y.2.order).map fun x => (ord.findIdx fun o => o = x.2.order, x.1)

/-- The jobs that stage 6 of a cycle dispatches (R209, R212); a job of a fenced scenario lane does not run. -/
def jobsOf (s : State) (c : Cyc) : List Job :=
  let ctx := asmOf s c
  let a := ctx.a
  let ks := s.rd SLV_SEL_TIMING_K_S
  let scens := s.scens
  let dl := qpDeadline s c
  let stand := (refOf s c.n).scen
  let e (k : Nat) : LSet := match scens[k]? with
    | some x => effSet a x.lost
    | none => noLoss
  let prim := (List.range 2).filterMap fun r =>
    match at_ (primLanes s) r none with
    | some l => some (qpJob s l 0 stand true c.n dl (assemble ctx (formOf ks a.rateH r) (e stand) 0))
    | none => none
  let add (k : Nat) : Nat := match scens[k]? with
    | some x => x.pwrAdd
    | none => 0
  let prob (k : Nat) : Prob := assemble ctx (formOf ks a.rateH 4) (e k) (add k)
  let rest := (List.range (s.lanes - 4)).flatMap fun i =>
    let lane := i + 4
    (laneScens s lane).map fun x =>
      let job := qpJob s lane x.1 x.2 false c.n dl (prob x.2)
      if laneFenced s lane then { job with res := some (emptyRes 9) } else job
  -- exported scenarios (R433): lane 64 stands for the server's lanes; an unreachable server's job does not run
  let away := (List.range scens.length).filterMap fun k => (serverOf s k).map fun srv =>
    let job := { qpJob s 64 (k % 256) k false c.n dl (prob k) with started := some s.tim.cnt }
    if reachable s srv 0x15 then job else { job with res := some (emptyRes 9) }
  prim ++ rest ++ away

/-- The key of a word of lane memory. -/
def laneKey (lane w : Nat) : Nat := 24576 * lane + w
/-- A word of lane memory. -/
def laneWord (s : State) (lane w : Nat) : Nat := if w < 24576 then (sget (fun _ => (0 : Word)) s.lmem (laneKey lane w)).toNat else 0
/-- Write words of lane memory. -/
def lanePut (s : State) (lane w : Nat) (vs : List Nat) : State :=
  { s with lmem := sputs (fun _ => (0 : Word)) s.lmem (laneKey lane w) ((vs.take (24576 - w)).map (BitVec.ofNat 32)) }

/-- The memory map of a lane's job shapes (R231, R234). -/
def laneMapOf (shapes : List (Nat × Nat × Nat)) : LaneMap :=
  let (areas, o) := shapes.foldl (fun (a : List (Nat × Nat) × Nat) x =>
    (a.1 ++ [(a.2, x.2.1)], a.2 + 16 + 3 * (x.2.1 + 2))) ([], 256)
  ⟨areas, o, (shapes.map (·.1)).foldl max 0, if shapes.length = 1 then 1 else 2⟩

/-- The memory map of a lane. -/
def State.laneMap (s : State) (lane : Nat) : LaneMap := at_ s.alloc.maps lane ⟨[], 256, 0, 2⟩

/-- A CLS job of kind 2 (R232): the attitude fit. -/
def Job.kind2 (q : Job) : Bool := q.typ = 3 && q.sub = 5
/-- N, P and M of a job's descriptor (R232). -/
def Job.dims (q : Job) : Nat × Nat × Nat := if q.typ = 1 then (q.prob.n, q.prob.p, q.prob.m) else (q.ls.n, 0, q.ls.m)

/-- Words D, V and workspace of a WLS or CLS job (R233): TYPE, whether of kind 2, N, M, COUNT. -/
def lsWords (typ : Nat) (kind2 : Bool) (n m count : Nat) : Nat × Nat × Nat :=
  let (d, v) := if typ = 2 then (m * (n + 2), n + n * (n + 1) / 2 + m) else if kind2 then (16, 5) else (4 * m + count * m, 5 * count)
  (d, v, 4 * v + n * (n + 1) / 2 + 2 * n)

/-- Iterate words V of a job (R233). -/
def Job.v (q : Job) : Nat :=
  if q.typ = 1 then q.prob.n + q.prob.p + 2 * q.prob.m + (if q.embed then 2 else 0)
  else (lsWords q.typ q.kind2 q.ls.n q.ls.m q.ls.count).2.1

/-- A descriptor breaks a range of R232. -/
def descBad (q : Job) : Bool :=
  let (n, p, m) := q.dims
  q.cap = 0 || 63 < q.cap ||
    (if q.typ = 1 then n = 0 || 96 < n || 8 < p || 256 < m
     else if q.typ = 2 then n = 0 || 16 < n || m < n + 1 || 256 < m
     else if q.kind2 then n ≠ 4 || m ≠ 0
     else n ≠ 3 || m = 0 || 256 < m || q.ls.count = 0 || 16 < q.ls.count || !lt32 0 q.ls.radius)

/-- The status word of a job (R231): the layout of SLV_LANEi_JOBj_STS. -/
def stsWord (q : Job) (r : JobRes) : Nat :=
  r.status * 2 ^ 28 + q.typ * 2 ^ 26 + b2n r.reg * 2 ^ 25 + b2n r.warm * 2 ^ 24 + b2n r.ovf * 2 ^ 23 + b2n r.input * 2 ^ 22
    + b2n r.cert * 2 ^ 21 + r.dlPoint % 4 * 2 ^ 19 + r.illCol % 256 * 256 + q.id % 256

/-- The iteration word of a job. -/
def iterWord (r : JobRes) : Nat := r.certRow % 512 * 2 ^ 23 + r.regCnt % 256 * 256 + r.iter % 64

/-- The packed tag word: JOB_ID, N, P, M and the status of the run (R232; notes/assumptions/17). -/
def tagWord (q : Job) (status : Nat) : Nat :=
  let (n, p, m) := q.dims
  q.id % 256 * 2 ^ 24 + n % 128 * 2 ^ 17 + p % 16 * 2 ^ 13 + m % 512 * 16 + status % 16

/-- The 16 descriptor words of a job (R232). -/
def descWords (s : State) (q : Job) : List Nat :=
  let map := s.laneMap q.lane
  let (n, p, m) := q.dims
  let flags := b2n q.embed + 2 * b2n q.warm + 4 * b2n q.kind2
  [q.typ + 256 * flags + 65536 * n + 2 ^ 24 * p, m + 65536 * q.cap + 2 ^ 24 * q.ls.count, q.id % 65536 + 65536 * (q.cyc % 3),
   q.deadline % 2 ^ 32, q.deadline / 2 ^ 32 % 256, (map.stage + q.j % map.bufs * map.size) % 65536, q.ls.radius, 0, 0, 0, 0, 0, 0, 0, 0, 0]

/-- The address of a job's area, and of its saved-iterate slot `k`. -/
def areaOf (s : State) (q : Job) : Nat × Nat := at_ (s.laneMap q.lane).areas q.j (256, 0)
/-- The address of saved-iterate slot `k` of a job. -/
def slotOf (s : State) (q : Job) (k : Nat) : Nat := let a := areaOf s q; a.1 + 16 + k * (a.2 + 2)

/-- Write a job's data into its staging buffer (R235). -/
def stageJob (s : State) (q : Job) : State :=
  let m := s.laneMap q.lane
  lanePut s q.lane (m.stage + q.j % m.bufs * m.size) q.words

/-- Write a dispatched job's descriptor and table entry, and its data where a buffer is free (R231, R232, R235). -/
def placeJob (s : State) (q : Job) : State :=
  let s := lanePut s q.lane (4 * q.j) [(areaOf s q).1, 0, 0, 0]
  let s := lanePut s q.lane (areaOf s q).1 (descWords s q)
  if q.typ ≠ 1 || q.j < (s.laneMap q.lane).bufs then stageJob s q else s

/-- The tags of every saved iterate of the lanes are cleared: an ALLOC restart or an image load (R236). -/
def clearTags (s : State) : State :=
  (List.range s.lanes).foldl (fun s lane => (s.laneMap lane).areas.foldl (fun s a =>
    (List.range 3).foldl (fun s k => lanePut s lane (a.1 + 16 + k * (a.2 + 2)) [0, 0]) s) s) s

/-- A restart of ALLOC: the standing scenario is 0, every tag is cleared, and the first cycle is cold (R89, R213, R236). -/
def allocRestart (s : State) : State :=
  let s := clearTags (selRestart s)
  { s with alloc := { s.alloc with warm := false } }

/-- The saved iterate a warm start takes (R236): the descriptor asks for it, and the slot of the cycle before holds an OPTIMAL result of
the same problem. -/
def savedIter (s : State) (q : Job) : Option Iter :=
  let o := slotOf s q ((q.cyc + 2) % 3)
  if q.warm && 0 < q.cyc && q.typ = 1 && laneWord s q.lane o = (q.cyc - 1) % 2 ^ 32 && laneWord s q.lane (o + 1) = tagWord q 1 then
    let w (i n : Nat) : List Nat := (List.range n).map fun k => laneWord s q.lane (o + 2 + i + k)
    let p := q.prob
    some ⟨w 0 p.n, w p.n p.p, w (p.n + p.p) p.m, w (p.n + p.p + p.m) p.m, if q.embed then w (p.n + p.p + 2 * p.m) 2 else []⟩
  else none

/-- Run a QP job for at most `cap` iterations (R238 to R242). -/
def runJob (s : State) (q : Job) (cap : Nat) : JobRes := qpSolve q.prob cap q.embed (q.lane < 4) (savedIter s q)

/-- Change the jobs of a cycle. -/
def updJobs (s : State) (n : Nat) (f : Job → Job) : State :=
  updCyc s n fun c => { c with out := { c.out with jobs := c.out.jobs.map f } }

/-- The lane condition code of an outcome (R248, R252); 0 when it has none. -/
def statusCode (r : JobRes) : Nat :=
  match r.status with
  | 2 => 0x0303
  | 3 => 0x0302
  | 4 => if r.input then 0x0305 else 0x0304
  | 5 => 0x0306
  | 6 => 0x0301
  | 7 => 0x0308
  | 8 => 0x0309
  | _ => 0

/-- What the end of a job leaves on its lane (R236, R246 to R248): table words, saved iterate and tag, counters and condition codes. -/
def laneMarks (s : State) (q : Job) (r : JobRes) : State :=
  let s := lanePut s q.lane (4 * q.j + 1) [stsWord q r, iterWord r, r.endNs]
  let s := lanePut s q.lane (slotOf s q (q.cyc % 3)) ([q.cyc % 2 ^ 32, tagWord q r.status] ++ r.x ++ r.y ++ r.z ++ r.s ++ r.tk)
  let s := if r.status = 6 then s.incSat (SLV_LANE_CNT_DL_CNT q.lane) 0xFFFF else s
  let s := if r.reg then (reportCyc s q.cyc 0x0307 q.lane q.id).incSat (SLV_LANE_CNT_REG_JOBS q.lane) 0xFFFF else s
  if statusCode r = 0 then s else reportCyc s q.cyc (statusCode r) q.lane q.id

/-- A job ends (R236, R246 to R248): its outcome goes to its cycle, and the lane keeps its marks. -/
def endJob (s : State) (q : Job) (r : JobRes) : State :=
  let s := updJobs s q.cyc fun x => if x.lane = q.lane ∧ x.j = q.j ∧ x.typ = q.typ then { x with res := some r } else x
  if 64 ≤ q.lane then s else laneMarks s q r

/-- The SLV job registers of an outcome (R248). -/
def jobFields (q : Job) (o : JobRes) : List (Fld × Nat) :=
  [(SLV_JOB_STS_STATUS q.lane q.j, o.status), (SLV_JOB_STS_TYPE q.lane q.j, q.typ), (SLV_JOB_STS_REG q.lane q.j, b2n o.reg),
   (SLV_JOB_STS_WARM q.lane q.j, b2n o.warm), (SLV_JOB_STS_OVF q.lane q.j, b2n o.ovf),
   (SLV_JOB_STS_INPUT q.lane q.j, b2n o.input), (SLV_JOB_STS_CERT q.lane q.j, b2n o.cert),
   (SLV_JOB_STS_DL_POINT q.lane q.j, o.dlPoint), (SLV_JOB_STS_ILL_COL q.lane q.j, o.illCol),
   (SLV_JOB_STS_JOB_ID q.lane q.j, q.id), (SLV_JOB_ITER_CERT_ROW q.lane q.j, o.certRow),
   (SLV_JOB_ITER_REG_CNT q.lane q.j, o.regCnt), (SLV_JOB_ITER_ITER q.lane q.j, o.iter),
   (SLV_JOB_END_END_NS q.lane q.j, o.endNs), (SLV_JOB_MU_MU q.lane q.j, o.mu)]

/-- A job that is not among its cycle's own ends, a GNSS job or an imported one: its outcome shows with that cycle (O5, R248). -/
def showJob (s : State) (q : Job) (r : JobRes) : State :=
  if 64 ≤ q.lane then s else updCyc s q.cyc fun c => { c with results := c.results ++ jobFields q r }

/-- The job registers that read 0: a cycle's jobs that no outcome shows (R248). -/
def jobBlanks (s : State) : List (Fld × Nat) :=
  (List.range s.lanes).flatMap fun lane => (List.range (s.laneMap lane).areas.length).flatMap fun j =>
    (jobFields { qpJob s lane j 0 false 0 0 .none with typ := 0 } (emptyRes 0))

/-- Dispatch the jobs of a cycle at the start of its stage 6 (R212). -/
def dispatchJobs (s : State) (c : Cyc) : State :=
  if !allocRuns s c then s
  else
    let jobs := jobsOf s c
    let prim := primLanes s
    let s := updCyc s c.n fun c => { c with out := { c.out with
      jobs := c.out.jobs ++ jobs, standing := (refOf s c.n).scen, prim := (List.range 2).map fun r => (at_ prim r none).getD 64 } }
    let s := (List.range 2).foldl (fun s r =>
      match at_ prim r none with
      | some l => if l ≠ r && at_ s.alloc.prim r r ≠ l then reportCyc s c.n 0x038D l else s
      | none => s) s
    let s := { s with alloc := { s.alloc with prim := (List.range 2).map fun r => (at_ prim r none).getD r, warm := true } }
    jobs.foldl (fun s q =>
      if q.lane < 64 then placeJob s q
      else if q.res.isSome then s
      else pstSend s 0x15 0 ((serverOf s q.id).getD 0) c.n (q.id :: q.deadline :: b2n q.warm :: q.cap :: q.words)) s

/-- The jobs of a cycle on lanes 0 to 3. -/
def primJobs (c : Cyc) : List Job := c.out.jobs.filter fun q => q.typ = 1 && q.lane < 4
/-- Every primary-lane job has ended (R25). -/
def primDone (c : Cyc) : Bool := (primJobs c).all fun q => q.res.isSome
/-- Every lane job of the cycle's allocation has ended. -/
def jobsDone (c : Cyc) : Bool := (c.out.jobs.filter fun q => q.typ = 1).all fun q => q.res.isSome

/-! ### The failure set (R214 to R217) -/

/-- The seven combined source words over units (R215). -/
def combine7 (own : SrcWord) (partner : Option SrcWord) (peers : List SrcWord) : List Nat :=
  (List.range 7).map fun k =>
    let o := at_ own.src k 0
    let p := match partner with
      | none => o
      | some w => if k = 0 ∨ k = 2 then o &&& at_ w.src k 0 else o ||| at_ w.src k 0
    peers.foldl (fun v w => v ||| at_ w.src k 0) p

/-- One unit's membership after a sample (R216): `rep` the sources that report it. -/
def unitStep (returnN : Nat) (u : UnitSt) (rep : Nat) : UnitSt :=
  let placed := u.placed ||| rep
  if placed = 0 then ⟨0, []⟩
  else
    let runs := (List.range 7).map fun k => if bit rep k then 0 else satAdd (at_ u.runs k 0) 1 65535
    if (List.range 7).all fun k => !bit placed k || returnN ≤ at_ runs k 0 then ⟨0, []⟩ else ⟨placed, runs⟩

/-- The units of a failure set as bits: thrusters 0 to 63, sections 64 to 71, generators 72 to 87. -/
def unitSet (us : List UnitSt) : LSet :=
  let m (o n : Nat) : Nat := (List.range n).foldl (fun m i => if (at_ us (o + i) ⟨0, []⟩).placed ≠ 0 then setBit m i true else m) 0
  ⟨m 0 64, m 64 8, m 72 16⟩

/-- The device has taken its own sample of a cycle (R214): the words of other devices may have come before. -/
def sampled (c : Cyc) : Bool := (c.fail.map fun f => !f.own.src.isEmpty).getD false

/-- Form L(n) from the source words of its sample (R214, R216); entries and exits of units are reported. -/
def formL (s : State) (n : Nat) : State :=
  match (s.cyc? n).bind (·.fail) with
  | none => s
  | some f =>
    if f.formed || f.own.src.isEmpty then s
    else
      let words := combine7 f.own f.partner f.peers
      let old := s.alloc.units
      let returnN := if s.hasSec 7 then s.alloc?.returnN else (s.alloc.tables.head?.map (·.2.returnN)).getD 1
      let us := (List.range 88).map fun u =>
        unitStep returnN (at_ old u ⟨0, []⟩) ((List.range 7).foldl (fun m k => if bit (at_ words k 0) u then setBit m k true else m) 0)
      let s := { s with alloc := { s.alloc with units := us } }
      let s := updCyc s n fun c => { c with fail := some { f with formed := true, l := unitSet us } }
      (List.range 88).foldl (fun s u =>
        let was := (at_ old u ⟨0, []⟩).placed ≠ 0
        let is := (at_ us u ⟨0, []⟩).placed ≠ 0
        if was = is then s
        else
          let code := if is then 0x0387 else 0x0388
          reportCyc s n code 0 (Config.detailOf code u % 2 ^ 32) u) s

/-- The axes that a drive's feedback is about, with their thrusters: frames of a port, or a CAN filter's axis (R276, R351). -/
def driveThrusters (s : State) (d : DriveSt) : List Nat :=
  if d.port < 8 then (driveAxes s d.port d.id).map (·.2.thr)
  else match s.axes[d.id]? with
    | some x => [x.thr]
    | none => []

/-- The feedback thrust of a thruster in a cycle (R279): directly, or by the inverse of the axis curve. -/
def fbThrust (s : State) (inp : CycIn) (i : Nat) : Option Nat :=
  let axes := s.axes
  ((List.range axes.length).zip axes).findSome? fun p =>
    let b := at_ inp.fb p.1 ⟨0, 0, false, 0⟩
    if p.2.thr = i && (p.2.typ = 2 || p.2.typ = 3) && p.2.fbSrc = 1 && b.valid then
      some (if b.ctype = 4 then b.val else curveInv p.2.curve b.val)
    else none

/-- The own source words of a sample (R215), with the runs of missing feedback and of deviation carried on. -/
def ownSources (s : State) (inp : CycIn) : SrcWord × State :=
  let a := s.alloc?
  let axes := s.axes
  let fresh := (s.fld.drives.filter (·.fresh)).flatMap (driveThrusters s)
  let off := (s.fld.drives.filter fun d => d.status % 2 = 0 && (d.seq.isSome || 8 ≤ d.port)).flatMap (driveThrusters s)
  let list := thrList s
  let thr := (List.range list.length).zip list
  let miss := thr.map fun p =>
    let has := if p.2.kind = 4 then true else axes.any fun x => x.thr = p.1 && (x.sink = 1 || x.sink = 2)
    let ok := if p.2.kind = 4 then bit s.alloc.boxNew p.1 else fresh.contains p.1
    if !has || ok then 0 else satAdd (at_ s.alloc.fbMiss p.1 0) 1 65535
  let last (i : Nat) : List Nat := match s.seq.last with
    | some c => at_ c.f i []
    | none => []
  let devs := thr.map fun p =>
    let off := match fbThrust s inp p.1 with
      | none => false
      | some f =>
        if fzero fmt32 p.2.devLim then false
        else if p.2.kind = 1 then lt32 p.2.devLim (abs32 (s32 f (at_ (last p.1) 0 0)))
        else lt32 p.2.devLim (abs32 (s32 (abs32 f) (mag32 (last p.1))))
    if off then satAdd (at_ s.alloc.dev p.1 0) 1 65535 else 0
  let ofThr (f : Nat × Thr → Bool) : Nat := (thr.filter f).foldl (fun m p => setBit m p.1 true) 0
  let pl := plantOf a inp.held
  let trip := s.rd SAF_STATUS_TRIPPED
  let lvl (p : Nat) : Bool := bit (s.rd (FLD_LVL_LEVEL (p / 32))) (p % 32)
  let feed (x : Sect) : Bool :=
    let level : Option Bool := match x.feedIn with
      | 1 => some (!s.flag RED_FEED_A_LOST)
      | 2 => some (!s.flag RED_FEED_B_LOST)
      | 3 => some (lvl x.feedPin)
      | _ => none
    level == some (decide (x.feedLevel ≠ 0))
  let secs := (List.range a.sects.length).zip a.sects
  let ofSec (f : Nat × Sect → Bool) : Nat := (secs.filter f).foldl (fun m p => setBit m (64 + p.1) true) 0
  let gens := (List.range a.gens.length).foldl (fun m g =>
    if !pl.stale.contains g && le32 (at_ pl.avail g 0) 0 then setBit m (72 + g) true else m) 0
  (⟨[ofThr fun p => 0 < a.fbTo && a.fbTo ≤ at_ miss p.1 0, ofThr fun p => off.contains p.1, ofThr fun p => 0 < a.devN && a.devN ≤ at_ devs p.1 0,
     ofThr fun p => p.2.safFn &&& trip ≠ 0, ofSec fun p => feed p.2, ofSec fun p => !at_ pl.live p.1 true, gens],
     []⟩,
   { s with
     alloc := { s.alloc with fbMiss := miss, dev := devs, boxNew := 0 },
     fld := { s.fld with drives := s.fld.drives.map fun d => { d with fresh := false } } })

/-- Report each power data item that has become stale with cycle `n` (R217), and carry the runs on. -/
def staleStep (s : State) (n : Nat) (stale : List Nat) : State :=
  let s := stale.foldl (fun s i =>
    if bit s.alloc.pwrRun i then s else reportCyc s n 0x038B 0 (Config.detailOf 0x038B i % 2 ^ 32) i) s
  { s with alloc := { s.alloc with pwrRun := stale.foldl (fun m i => setBit m i true) 0, pwrNext := n + 1 } }

/-- The power data items of every cycle up to `n` that has not been looked at, in cycle order, each cycle once (R217). -/
def staleItems (s : State) (n : Nat) : State :=
  ((s.seq.cycs.filter fun d => s.alloc.pwrNext ≤ d.n && d.n ≤ n).mergeSort fun a b => a.n ≤ b.n).foldl
    (fun s d => staleStep s d.n (plantOf s.alloc? d.inp.held).stale) s

/-! ### Consequence analysis (R218, R223, R224) -/

/-- The class of an outcome (R218): 0 SOLVED, 1 SOLVED_REG, 2 INFEASIBLE, 3 NO_RESULT, 4 NOT_RUN. -/
def classOf (r : Option JobRes) : Nat :=
  match r with
  | none => 4
  | some r => match r.status with
    | 1 => if r.reg then 1 else 0
    | 2 => 2
    | 9 => 4
    | _ => 3

/-- The job of scenario `k` on its scenario lane. -/
def scenJob (c : Cyc) (k : Nat) : Option Job := c.out.jobs.find? fun q => q.typ = 1 && 4 ≤ q.lane && q.id = k
/-- The job of lane 0 (`r` = 0) or lane 1 (`r` = 1), wherever it ran: lane 0's problem has no power slacks (R209). -/
def primJob (c : Cyc) (r : Nat) : Option Job :=
  c.out.jobs.find? fun q => q.typ = 1 && q.lane < 4 && c.out.prim[r]? = some q.lane

/-- A whole per mille of a binary32 value, rounded up, saturating at 65,535 (R223). -/
def perMille (q : Nat) : Nat :=
  if !ffinite fmt32 q then 65535
  else
    let (m, e) := dyOf q
    let v := m.toNat * 1000
    let r : Nat := if 0 ≤ e then v * 2 ^ e.toNat else (v + 2 ^ (-e).toNat - 1) / 2 ^ (-e).toNat
    min r 65535

/-- MARGIN of a solved problem: the smallest right side less left side of its power rows without their slacks (R223). -/
def marginOf (p : Prob) (x : List Nat) : Nat :=
  let ms := (List.range p.isl.length).map fun k =>
    let row := p.pofs.foldl (fun r o => r.set o.2 0) (at_ p.mg (p.prow + k) [])
    s32 (at_ p.h (p.prow + k) 0) (dot row x)
  match ms with
  | [] => 0
  | m :: r => r.foldl (fmin fmt32) m

/-- The judgement of a scenario whose problem was solved (R223). -/
def judge (a : Alloc) (tau : List Nat) (q : Job) (r : JobRes) : Verdict :=
  let slack (o : Nat) : Nat := abs32 (at_ r.x o 0)
  let force := q.prob.sofs.any fun o => lt32 (at_ a.slackTol o.1 0) (slack o.2)
  let power := q.prob.pofs.any fun o => lt32 a.pwrTol (at_ r.x o.2 0)
  let pm := (q.prob.sofs.map fun o =>
    perMille (d32 (slack o.2) (fmax fmt32 (abs32 (at_ tau o.1 0)) (at_ a.tauFloor o.1 0)))).foldl max 0
  ⟨if force || power then 2 else 1, force, power, r.reg, classOf (some r), pm, marginOf q.prob r.x⟩

/-- Strict containment of effective sets. -/
def strictly (a b : LSet) : Bool := a.contains b && a ≠ b

/-- The verdicts of a cycle, scenario by scenario (R222, R223). -/
def verdictsOf (s : State) (c : Cyc) : List Verdict :=
  let a := s.alloc?
  let scens := s.scens
  let es := scens.map fun x => effSet a x.lost
  let stand := at_ es c.out.standing noLoss
  (List.range scens.length).map fun k =>
    let q := scenJob c k
    let cls := classOf (q.bind (·.res))
    let inSet := (scens[k]?.map (·.ca)).getD false && strictly (at_ es k noLoss) stand
    if !inSet then ⟨3, false, false, cls = 1, cls, 0, 0⟩
    else match q, q.bind (·.res) with
      | some q, some r => if cls < 2 then judge a c.out.tau q r else ⟨0, false, false, false, cls, 0, 0⟩
      | _, _ => ⟨0, false, false, false, 4, 0, 0⟩

/-- The summary of a cycle (R224): 0 NONE, 1 HOLDS, 2 SHORT, 3 UNKNOWN; the worst scenario; how many SHORT, how many UNKNOWN. -/
def summaryOf (vs : List Verdict) : Nat × Nat × Nat × Nat :=
  let at' (v : Nat) : List (Nat × Verdict) := ((List.range vs.length).zip vs).filter fun p => p.2.verdict = v
  let short := at' 2
  let unk := at' 0
  let worse (a b : Nat × Verdict) : Bool :=
    a.2.shortPm < b.2.shortPm || (a.2.shortPm = b.2.shortPm && lt32 b.2.margin a.2.margin)
  let worst := match short with
    | [] => 0
    | p :: r => (r.foldl (fun a b => if worse a b then b else a) p).1
  (if short ≠ [] then 2 else if unk ≠ [] then 3 else if at' 1 ≠ [] then 1 else 0, worst, min short.length 255, min unk.length 255)

/-! ### Selection (R219 to R222) -/

/-- The comparator of a condition variant is ACTIVE (R112, R219). -/
def cmpActive (c : Cyc) (i : Nat) : Bool :=
  c.inp.cfg.get (FLT_TH_CFG_SEL (i / 2) (i % 2)) ≠ 0 && (at_ (at_ c.out.chans (i / 2) fltZero).cmp (i % 2) ⟨0, false, 0⟩).active

/-- The scenario that an effective set E(L(n)) matches (R219); none is NO_MATCH. -/
def matchOf (rows : List SelRow) (e : LSet) : Option Nat :=
  let all := (List.range rows.length).zip rows
  let best := (all.filter fun p => !p.2.cond).foldl (fun (b : Option (Nat × LSet)) p =>
    if p.2.e.contains e then
      match b with
      | none => some (p.1, p.2.e)
      | some (k, x) => if p.2.e.size < x.size then some (p.1, p.2.e) else some (k, x)
    else b) none
  best.map fun (k, x) =>
    ((all.find? fun p => p.2.cond && p.2.e = x && p.2.active).map (·.1)).getD k

/-- The scenarios of the device's own image as R219 and R220 read them. -/
def ownRows (s : State) (c : Cyc) : List SelRow :=
  s.scens.map fun x => ⟨effSet s.alloc? x.lost, x.cover, x.cond, x.cond && cmpActive c x.cmp⟩

/-- A result the selector may commit: its lane, regularised, the force variables of every thruster, its problem. -/
structure Cand where
  lane : Nat
  reg : Bool
  f : List (List Nat)
  prob : Option Prob

/-- The forces of a job's final iterate: zeros for thrusters that its problem leaves out. -/
def jobForces (a : Alloc) (q : Job) (r : JobRes) : List (List Nat) :=
  (List.range a.thr.length).map fun i =>
    match q.prob.fofs.find? fun o => o.1 = i with
    | some (_, o, k) => (List.range k).map fun j => at_ r.x (o + j) 0
    | none => List.replicate (match a.thr[i]? with
        | some t => kindVars t.kind a.forces
        | none => 0) 0

/-- A job as a candidate: an eligible outcome only (R218). -/
def candOf (a : Alloc) (q : Option Job) : Option Cand :=
  match q, q.bind (·.res) with
  | some q, some r => if r.status = 1 then some ⟨q.lane, r.reg, jobForces a q r, some q.prob⟩ else none
  | _, _ => none

/-- The candidates of a cycle: 0 and 1 the primary results, 2 + k the scenarios'. -/
def candsOf (s : State) (c : Cyc) (src : Nat) : Option Cand :=
  candOf s.alloc? (if src < 2 then primJob c src else scenJob c (src - 2))

/-- A row of a WIDEN table as a candidate (R225). -/
def tableCand (t : WidenTable) (src : Nat) : Option Cand :=
  match t.rows.find? fun r => r.src = src && r.ok with
  | none => none
  | some r => some ⟨r.lane, r.reg, (List.range t.thr.length).map fun i => ((r.f.find? fun x => x.thr = i).map (·.f)).getD [], none⟩

/-- The chain of R220: SRC and the candidate, for a match `k`, the standing scenario and the candidates. -/
def chain (rows : List SelRow) (k : Option Nat) (stand : Nat) (cand : Nat → Option Cand) : Nat × Option Cand :=
  match k with
  | none => (6, none)
  | some k =>
    if k = stand then
      match cand 0, cand 1 with
      | some x, _ => (1, some x)
      | none, some x => (2, some x)
      | none, none => (5, none)
    else
      let cover := (rows[k]?.map (·.cover)).getD k
      match cand (2 + k), (if cover = k then none else cand (2 + cover)) with
      | some x, _ => (3, some x)
      | none, some x => (4, some x)
      | none, none => (6, none)

/-- The thrust angle a committed force commands (R198). -/
def thrustAngle (t : Thr) (f : List Nat) (prev : Nat) : Nat :=
  if (t.kind = 2 || t.kind = 3) && le32 t.wedgeMin (mag32 f) then
    let x := dyOf (at_ f 0 0)
    let y := dyOf (at_ f 1 0)
    let e := min x.2 y.2
    cordicAngle (x.1 * 2 ^ (x.2 - e).toNat) (y.1 * 2 ^ (y.2 - e).toNat)
  else prev

/-- τ_a = B·f over the committed force variables (R221), each row as a lane dot product (R229). -/
def achieved (a : Alloc) (f : List (List Nat)) : List Nat :=
  (List.range a.forces).map fun d =>
    let cols := (List.range a.thr.length).flatMap fun i =>
      match a.thr[i]? with
      | some t => (List.range t.cols.length).map fun j => (at_ (at_ t.cols j []) d 0, at_ (at_ f i []) j 0)
      | none => []
    dot (cols.map (·.1)) (cols.map (·.2))

/-- The commands before the first commit (R220): standby of every axis, no force. -/
def standbyCommands (s : State) : CommitRec :=
  let r := refStandby s
  { scen := 0, noMatch := false, src := 0, lane := 0, reg := false, f := r.f, theta := r.theta, tauA := [], dropped := 0,
    repeated := false, axes := s.axes.map fun x => ⟨x.stby, true⟩ }

/-- What a selection reads (R219, R220): the cycle allocates; its WIDEN table has not come; the thrusters and generators; the scenarios;
the standing one; the candidates. -/
structure SelIn where
  runs : Bool
  late : Bool
  a : Alloc
  rows : List SelRow
  stand : Nat
  cand : Nat → Option Cand

/-- The selection of a device that runs its own allocation. -/
def ownSel (s : State) (c : Cyc) : SelIn := ⟨allocRuns s c, false, s.alloc?, ownRows s c, c.out.standing, candsOf s c⟩

/-- The selection of a device whose axes a WIDEN master allocates (R225): by the master's table, and without it by the last row of R220. -/
def widenSel (s : State) (c : Cyc) : SelIn :=
  let a := s.alloc?
  let own := thrList s
  let on : Bool := 2 ≤ c.inp.mode && (s.isNode || (bit c.inp.runs 1 && bit c.inp.runs 2))
  match (s.alloc.tables.find? fun x => x.1 = c.n).map (·.2) with
  | none => ⟨on, true, { a with thr := own }, ownRows s c, 0, fun _ => none⟩
  | some t =>
    let thr := (List.range t.thr.length).filterMap fun i => t.thr[i]?.map fun w =>
      match own[i]? with
      | some x => { x with kind := w.kind, sect := w.sect, wedgeMin := w.wedgeMin }
      | none => ⟨w.kind, w.sect, 0, 0, 0, 0, w.wedgeMin, 0, 0, 0, 0, 0, 0, [], [], [], 0⟩
    ⟨on && t.runs, false, { a with thr := thr, gens := t.gens.map fun g => ⟨g, 0, 0, 0⟩ }, t.scens, t.stand, tableCand t⟩

/-- What the commit of a cycle decides (R219 to R222, R42, R225). The second component is the problem committed. -/
def decide_ (s : State) (c : Cyc) (i : SelIn) : CommitRec × Option Prob :=
  let a := i.a
  let l := (c.fail.map (·.l)).getD noLoss
  let e := effSet a l
  let k := matchOf i.rows e
  let prev := s.seq.last.getD (standbyCommands s)
  let scen := k.getD 0
  let zero (f : List (List Nat)) : List (List Nat) :=
    (List.range f.length).map fun i => if bit e.thr i then (at_ f i []).map fun _ => 0 else at_ f i []
  let axes := s.axes
  let drop (l : List AxisRes) : List AxisRes := (axes.zip l).map fun p => if bit e.thr p.1.thr then ⟨p.1.stby, true⟩ else p.2
  let fin (r : CommitRec) : CommitRec := { r with scen := scen, noMatch := k.isNone, tauA := achieved a r.f }
  if c.inp.mode = 0 then
    (fin { standbyCommands s with dropped := 0 }, none)
  else if !i.runs then
    (fin { prev with src := 0, lane := 0, reg := false, repeated := true, f := zero prev.f, axes := drop prev.axes }, none)
  else
    match if i.late then (6, none) else chain i.rows k i.stand i.cand with
    | (src, some x) =>
      let f := zero x.f
      let theta := (List.range a.thr.length).map fun i =>
        match a.thr[i]? with
        | some t => thrustAngle t (at_ f i []) (at_ prev.theta i 0)
        | none => 0
      (fin { scen := scen, noMatch := false, src := src, lane := x.lane, reg := x.reg, f := f, theta := theta, tauA := [],
             dropped := 0, repeated := false, axes := axisCommands axes f theta e.thr }, x.prob)
    | (src, none) =>
      (fin { prev with
        src := src, lane := 0, reg := false, repeated := true, f := zero prev.f, axes := drop prev.axes,
        dropped := prev.dropped ||| (if src = 6 then e.thr else 0) }, none)

/-- The code a commit reports with its SRC (R220, R227). -/
def srcCode (src : Nat) : Option Nat :=
  match src with
  | 2 => some 0x0382
  | 3 => some 0x0381
  | 4 => some 0x0383
  | 5 => some 0x0384
  | 6 => some 0x0385
  | _ => none

/-- The power registers of a commit: BUDGET per section of the committed or standing problem, USED over the committed forces. -/
def powerResults (s : State) (c : Cyc) (r : CommitRec) (p : Option Prob) : List (Fld × Nat) :=
  let a := s.alloc?
  let pl := plantOf a c.inp.held
  let stand := match s.scens[c.out.standing]? with
    | some x => effSet a x.lost
    | none => noLoss
  let isl : List (List Nat × Nat) := match p with
    | some p => p.isl.map fun i => (i.2.1, i.2.2)
    | none => if a.sects.isEmpty then [] else (islands a pl stand.sect).map fun l => (l, budget a pl stand l 0)
  let out := (effSet a ((c.fail.map (·.l)).getD noLoss)).thr ||| r.dropped
  (List.range 8).flatMap fun i =>
    let used := (List.range a.thr.length).foldl (fun v t =>
      match a.thr[t]? with
      | some x => if x.sect = i && x.kind ≠ 4 && !bit out t then a32 v (a32 x.p0 (m32 (kOf x) (mag32 (at_ r.f t [])))) else v
      | none => v) 0
    [(SLV_PWR_BUDGET_VALUE i, ((isl.find? fun l => l.1.contains i).map (·.2)).getD 0), (SLV_PWR_USED_VALUE i, used)]

/-- The selector and job registers that a commit shows (R221, R224, R248). -/
def selResults (s : State) (c : Cyc) (r : CommitRec) (p : Option Prob) : List (Fld × Nat) :=
  let l := (c.fail.map (·.l)).getD noLoss
  let vs := c.out.verdicts
  let (sum, worst, ns, nu) := summaryOf vs
  let job (q : Job) : List (Fld × Nat) :=
    match q.res with
    | none => []
    | some o => jobFields q o
  [(SLV_SEL_STATUS_STANDING, c.out.standing), (SLV_SEL_STATUS_SCEN, r.scen), (SLV_SEL_STATUS_NO_MATCH, b2n r.noMatch),
   (SLV_SEL_STATUS_REG_USED, b2n r.reg), (SLV_SEL_STATUS_SRC, r.src), (SLV_SEL_STATUS_LANE, r.lane),
   (SLV_SEL_LOST_LO_THR, l.thr), (SLV_SEL_LOST_HI_THR, l.thr / 2 ^ 32), (SLV_SEL_LOST_PWR_GEN, l.gen), (SLV_SEL_LOST_PWR_SECT, l.sect),
   (SLV_CA_SUMMARY_SUMMARY, sum), (SLV_CA_SUMMARY_WORST, worst), (SLV_CA_SUMMARY_N_SHORT, ns), (SLV_CA_SUMMARY_N_UNKNOWN, nu)]
  ++ (List.range 6).map (fun d => (SLV_SEL_TAUA_VALUE d, at_ r.tauA d 0))
  ++ powerResults s c r p
  ++ (List.range 64).flatMap (fun t => (List.range 2).map fun j => (SLV_THR_F_VALUE t j, at_ (at_ r.f t []) j 0))
  ++ (List.range vs.length).flatMap (fun k =>
    let v := at_ vs k ⟨3, false, false, false, 4, 0, 0⟩
    [(SLV_CA_VERDICT_VERDICT k, v.verdict), (SLV_CA_VERDICT_FORCE_SHORT k, b2n v.force), (SLV_CA_VERDICT_POWER_SHORT k, b2n v.power),
     (SLV_CA_VERDICT_REG k, b2n v.reg), (SLV_CA_VERDICT_CLASS k, v.cls), (SLV_CA_VERDICT_SHORT_PM k, v.shortPm),
     (SLV_CA_MARGIN_MARGIN k, v.margin)])
  ++ (c.out.jobs.filter fun q => q.lane < 64).flatMap job

/-- The codes a commit reports (R219, R220, R224): SRC, NO_MATCH, and the summary's change. -/
def selReports (s : State) (c : Cyc) (r : CommitRec) : State :=
  let s := if r.noMatch then reportCyc s c.n 0x0386 else s
  let s := match srcCode r.src with
    | some code => reportCyc s c.n code r.lane
    | none => s
  let sum := (summaryOf c.out.verdicts).1
  let s := if sum ≠ s.alloc.summary then
      (if sum = 2 then reportCyc s c.n 0x0389 else if sum = 3 then reportCyc s c.n 0x038A else s) else s
  { s with alloc := { s.alloc with summary := sum } }

/-- The scenario that a commit leaves standing (R213): the index that SCEN shows, 0 after a commit in STANDBY or HOLD mode, and, like
those, after one that an uninitialised observer holds (R185). -/
def scenAfter (mode runs src scen : Nat) : Nat :=
  if mode < 2 || (src = 0 && bit runs 1 && bit runs 2) then 0 else scen

/-- A committed cycle as later cycles refer to it: STANDBY gives the standby references, HOLD the held values (R197, R213). -/
def refAfter (c : Cyc) (r : CommitRec) : AllocRef :=
  ⟨c.n, c.inp.mode, scenAfter c.inp.mode c.inp.runs r.src r.scen, r.f, r.theta, r.tauA⟩

/-- A read of SLV_LANEi_MEM_DATA (R231) returns the word at ADDR and increments ADDR; lanes the variant lacks read 0. -/
def laneMemRead (s : State) (p : Path) (i : Nat) : State :=
  if s.lanes ≤ i then s.emit (.read p 0)
  else
    let a := s.rd (SLV_LANE_MEM_ADDR_ADDR i)
    (s.wr (SLV_LANE_MEM_ADDR_ADDR i) (a + 1)).emit (.read p (laneWord s i a))

/-- R231. -/
def execLaneMemDataRead (p : Path) (i t : Nat) (s : State) : Host.Outcome State Fault Refusal :=
  done (hostRd (s.at t) p (0x100014 + i * 0x1000) fun s => laneMemRead s p i)

end Sys2Proof.Machine
end

