-- ==== Sys2Proof/Machine/Err.lean ====
section
/-! DEFINITION. Faults and their classes, fencing, fail-silent behaviour, the journal, missed cycles, replay and squash (spec/12, and
R34 to R39 of spec/01). -/

namespace Sys2Proof.Machine

open Sys2Proof

/-! ### The journal (R371 to R375) -/

/-- The record in a slot of the journal. -/
def State.jnlAt (s : State) (slot : Nat) : Option JnlRec := (s.jnl.ring.find? fun e => e.1 = slot).map (·.2)
/-- The journal record of cycle `n`, when its slot still holds it. -/
def State.jnlOf (s : State) (n : Nat) : Option JnlRec := (s.jnlAt (n % 64)).bind fun r => if r.n = n then some r else none

/-- A record whose STATUS is final (R375). -/
def JnlRec.final (r : JnlRec) : Bool := 2 ≤ r.status

/-- RECORDS brought up to date. Final records of an earlier run that wait for their NAND copy stand under their slot plus 64, and count
for nothing else (R566). -/
def jnlCount (s : State) : State := s.wr JNL_STATUS_RECORDS ((s.jnl.ring.filter fun e => e.1 < 64 && e.2.final).length)

/-- Put a record in its slot. One that overwrites a final record not yet copied leaves a gap in the NAND journal (R375). -/
def jnlPut (s : State) (r : JnlRec) : State :=
  let old := s.jnlAt (r.n % 64)
  let gap : Bool := (match old with
    | some o => o.n ≠ r.n && o.final && !o.copied
    | none => false) || (s.jnlAt (r.n % 64 + 64)).isSome
  let s := { s with jnl := { s.jnl with ring := (r.n % 64, r) :: s.jnl.ring.filter fun e => e.1 % 64 ≠ r.n % 64 } }
  let s := if gap then
      let run := s.jnl.gapRun
      let s := { s.incSat JNL_CNT_MIRROR_GAP 255 with jnl := { s.jnl with gapRun := true } }
      if run then s else report s 0x0C05
    else s
  jnlCount (if r.final then s.wr JNL_HEAD_CYC r.n else s)

/-- The first 8 octets of IMG_DIGEST, first octet lowest: IMAGE_TAG (R371). -/
def imageTag (s : State) : Nat := s.rd (IMG_DIGEST_VALUE 0) + 2 ^ 32 * s.rd (IMG_DIGEST_VALUE 1)

/-- FLAGS of the record of a cycle: REPLAYED, RERUN, RESUMED, PAIRS (R371). -/
def jnlFlags (s : State) (c : Cyc) (old : Nat) : Nat :=
  b2n (decide (0 < c.run.replays)) + 2 * b2n c.run.rerun + 4 * (old / 4 % 2)
    + 8 * b2n (s.red.parts.any fun p => p.n = c.n && p.blks ≠ [])

/-- A settings generation as the header packs it (R371): 4 bits for each of the groups `lo` to `lo + k − 1`. -/
def genField (gens : List Nat) (lo k : Nat) : Nat := (List.range k).foldl (fun a i => a + at_ gens (lo + i) 0 % 16 * 16 ^ i) 0

/-- GROUP_GEN of a record (R371). -/
def groupGen (gens : List Nat) : Nat := genField gens 0 6
/-- NET_CAN_GEN of a record (R371). -/
def netCanGen (gens : List Nat) : Nat := genField gens 16 4 + genField gens 8 8 * 65536

/-- The record of a cycle as its blocks stand, with a STATUS. -/
def jnlOfCyc (s : State) (c : Cyc) (status : Nat) : JnlRec :=
  let old := s.jnlOf c.n
  ⟨c.n, status, jnlFlags s c ((old.map (·.flags)).getD 0), c.t0, imageTag s, some c.inp, c.fail, c.commit,
    (old.map (·.digest)).getD 0, false, false⟩

/-- The journal takes a record of a cycle with a STATUS. -/
def jnlMark (s : State) (n status : Nat) : State :=
  match s.cyc? n with
  | some c => jnlPut s (jnlOfCyc s c status)
  | none => s

/-! ### Release of a cycle's entries (R113, R274, R515) -/

/-- The incident entries of the comparator events of a cycle that are routed LOG. -/
def fltEntries (s : State) (c : Cyc) : List Incident :=
  (c.out.events.filter fun e => c.inp.cfg.get (FLT_TH_CFG_LOG e.ch e.j) ≠ 0).map fun e =>
    ⟨if s.rd TIM_QUAL_STATE = 0 then 0 else e.tv.toNat, some c.n, Config.eventCode 0 % 65536, (2 * e.ch + e.j) % 256, 0⟩

/-- The FLT_EVT bits of a cycle: entries to ACTIVE routed IRQ. -/
def fltBits (c : Cyc) : Nat :=
  c.out.events.foldl (fun m e => if e.enter && c.inp.cfg.get (FLT_TH_CFG_IRQ e.ch e.j) ≠ 0 then setBit m (2 * e.ch + e.j) true else m) 0

/-- The entries of a cycle, in the order of R113. -/
def cycEntries (s : State) (c : Cyc) : List Incident :=
  (fltEntries s c ++ fldEntries s c.n).mergeSort (fun a b => a.time ≤ b.time) ++ c.entries

/-- Release the entries of a cycle, in the order of R113. -/
def releaseEntries (s : State) (c : Cyc) : State :=
  updCyc ((cycEntries s c).foldl logEntry s) c.n fun c => { c with entries := [] }

/-- The entries of a missed successor follow those of the cycle that is decided now (O6). -/
def releaseLate (s : State) : State := s.seq.late.foldl logEntry { s with seq := { s.seq with late := [] } }

/-- The entries of a cycle that is missed: at once, or behind those of its predecessor that is still undecided (O6, R515). -/
def releaseMissed (s : State) (c : Cyc) : State :=
  if s.seq.cycs.any fun d => d.n < c.n && !d.committed && !d.missed then
    { s with seq := { s.seq with late := s.seq.late ++ cycEntries s c } }
  else releaseLate (releaseEntries s c)

/-- Or bits into FLT_EVT and FLD_EVT. -/
def raiseEvents (s : State) (flt fld : Nat) : State :=
  let s := (List.range 3).foldl (fun s i => s.wr (FLT_EVT_EVT i) (s.rd (FLT_EVT_EVT i) ||| flt / 2 ^ (32 * i) % 2 ^ 32)) s
  (List.range 2).foldl (fun s i => s.wr (FLD_EVT_EVT i) (s.rd (FLD_EVT_EVT i) ||| fld / 2 ^ (32 * i) % 2 ^ 32)) s

/-- The event bits of a committed cycle become visible, with those that missed cycles left (R113). -/
def releaseBits (s : State) (c : Cyc) : State :=
  let s := raiseEvents s (fltBits c ||| s.seq.evtDue) (fldBits s c.n ||| s.fld.evtDue)
  fldForget { s with seq := { s.seq with evtDue := 0 }, fld := { s.fld with evtDue := 0 } } c.n

/-- The event bits of a missed cycle wait for the next commit (R113). -/
def deferBits (s : State) (c : Cyc) : State :=
  fldForget { s with
    seq := { s.seq with evtDue := s.seq.evtDue ||| fltBits c },
    fld := { s.fld with evtDue := s.fld.evtDue ||| fldBits s c.n } } c.n

/-- A cycle leaves flight (R28). -/
def leaveFlight (s : State) (n : Nat) : State :=
  { s with seq := { s.seq with cycs := s.seq.cycs.filter fun c => c.n ≠ n } }

/-! ### Fail-silent (R385 to R387) -/

/-- SOURCE and DETAIL free entry of a fault: the ERR code of its class, unit index the faulty unit's (R367). -/
def faultEntry (s : State) (cyc : Option Nat) (code unit : Nat) : State :=
  let s' := reportMarks s code unit
  let e := s.incident cyc code unit 0
  match cyc.bind s.cyc? with
  | some c =>
    if c.committed || c.missed then logEntry s' e
    else updCyc s' c.n fun c => { c with entries := c.entries ++ [e] }
  | none => logEntry s' e

/-- The marker of a class S fault (R385): in the slot of the oldest cycle that has neither committed nor been missed, else of the cycle
behind the newest record. -/
def silentMarker (s : State) : State :=
  match s.seq.cycs.find? fun c => !c.committed && !c.missed with
  | some c => jnlPut s { jnlOfCyc s c 4 with inp := none, fail := none, commit := none }
  | none =>
    let l := s.jnl.ring.filter fun e => e.1 < 64
    let n := if l.isEmpty then s.seq.nextN else ((l.map fun e => e.2.n).foldl max 0) + 1
    jnlPut s ⟨n, 4, 0, s.tim.cnt, imageTag s, none, none, none, 0, false, false⟩

/-- The in-use flags of the banks (R193): a bank of a cycle that has neither committed nor been missed. -/
def bankUse (s : State) : State :=
  let used (b : Nat) : Bool := s.seq.cycs.any fun c => !c.committed && !c.missed && c.inp.bank = b && bit c.inp.runs 1
  (s.wrb (bankInUse 0) (used 0)).wrb (bankInUse 1) (used 1)

/-- Outputs cease (R342, R356, R257). -/
def quietOutputs (s : State) : State :=
  let s := (List.range 4).foldl netFlush s
  let s := (List.range 8).foldl canMonitor s
  parkPins s true

/-- The device goes fail-silent (R385): entries of the cycles in flight are released, and no cycle goes on. -/
def failSilent (s : State) (cause : Nat) : State :=
  if s.flag ERR_STATUS_FAIL_SILENT then s
  else
    let s := s.wrs [(ERR_STATUS_FAIL_SILENT, 1), (ERR_STATUS_S_CAUSE, cause)]
    let s := silentMarker s
    let s := s.seq.cycs.foldl (fun s c => if c.committed || c.missed then s else fldForget (releaseEntries s c) c.n) s
    let s := releaseLate s
    let s := { s with seq := { s.seq with cycs := [], alive := false }, err := { s.err with inj := none } }
    let s := closeSess (quietOutputs s) fun _ => true
    pstSend s 2 1 bcastAll (s.rd SEQ_CYC_LO_CYC_LO) []

/-! ### Classes (R367 to R369) -/

/-- ERR_LAST and the counters of a fault; while fail-silent ERR_LAST keeps the fault that made it so (R387). -/
def noteFault (s : State) (f : FaultIn) (cls : Nat) (inReplay : Bool) : State :=
  let s := match cls with
    | 1 => s.incSat ERR_CNT_C_COUNT 0xFFFFFFFF
    | 2 => s.incSat ERR_CNT_T_COUNT 0xFFFFFFFF
    | 3 => s.incSat ERR_CNT_P_COUNT 0xFFFFFFFF
    | _ => s
  let s := if s.flag ERR_STATUS_FAIL_SILENT then s else
    s.wrs [(ERR_LAST_CLASS, cls), (ERR_LAST_MECH, f.mech), (ERR_LAST_UNIT, f.unit), (ERR_LAST_INDEX, f.index),
      (ERR_LAST_INJECTED, b2n f.inj), (ERR_LAST_MOWER, b2n f.mower), (ERR_LAST_IN_REPLAY, b2n inReplay),
      (ERR_LAST_CYC_CYC, f.cyc.getD 0xFFFFFFFF), (ERR_LAST_ADDR_ADDR, if 3 ≤ f.mech ∧ f.mech ≤ 7 then f.addr else 0)]
  let code := 0x0B00 + if cls = 4 then 5 else cls
  let s := faultEntry s f.cyc code f.index
  -- each injection makes an audit entry (R388, R490; notes/assumptions/69)
  if f.inj then audit s code (f.unit * 256 + f.index) else s

/-- The unit can be fenced (R368). -/
def fenceable (unit : Nat) : Bool := unit = 1 || (3 ≤ unit && unit ≤ 7)

/-- A replay or a re-run that counts as one is in progress in a cycle (R368, R382). -/
def repeating (s : State) (cyc : Option Nat) : Bool := ((cyc.bind s.cyc?).map fun c => c.run.again).getD false

/-- The fault would be the third of its unit within the last 1,000 values of CYC (R368). -/
def thirdFault (s : State) (f : FaultIn) : Bool :=
  let now := s.rd SEQ_CYC_LO_CYC_LO
  2 ≤ (s.err.hist.filter fun h => h.1 = f.unit && h.2.1 = f.index && now < h.2.2 + 1000).length

/-- Remember a class T fault for the third-fault rule. -/
def rememberFault (s : State) (f : FaultIn) : State :=
  let now := s.rd SEQ_CYC_LO_CYC_LO
  { s with err := { s.err with hist := (f.unit, f.index, now) :: s.err.hist.filter fun h => now < h.2.2 + 1000 } }

/-- An imported job has ended (R247, R252, R433): the lane keeps its marks as of its own job, and the outcome goes back to the exporter, or to
the reference node. -/
def endImport (s : State) (i : ImpJob) (r : JobRes) : State :=
  let s := { s with pst := { s.pst with imports := s.pst.imports.filter fun y =>
    !(y.job.lane = i.job.lane && y.job.j = i.job.j && y.job.cyc = i.job.cyc) } }
  let s := if i.job.lane < 64 && r.status ≠ 9 then showJob (laneMarks s i.job r) i.job r else s
  pstSend s (if i.job.typ = 1 then 0x16 else 0x17) 0 i.src i.job.cyc
    (i.scen :: stsWord i.job r :: iterWord r :: (r.x ++ r.y ++ r.z ++ r.s ++ r.pt.map (unsigned 64)))

/-- The GNSS and imported jobs that wait on a lane which is fenced (R250): GNSS jobs go back to be dispatched to the remaining GNSS lanes, the
device's own ahead of what is planned; an imported scenario does not run. -/
def fenceJobs (s : State) (lane : Nat) : State :=
  let idle (q : Job) : Bool := q.lane = lane && q.started.isNone && q.res.isNone
  let own := s.gns.jobs.filter idle
  let far := s.pst.imports.filter fun i => idle i.job
  let plan := own.map fun q => ⟨q.sub, q.id / 8 % 4, q.id / 32⟩
  let s := { s with
    gns := { s.gns with
      jobs := s.gns.jobs.filter fun q => !idle q
      wait := (far.filter fun i => i.job.typ ≠ 1).map (fun i => (i.src, i.job)) ++ s.gns.wait
      epoch := s.gns.epoch.map fun e => { e with plan := plan ++ e.plan } },
    pst := { s.pst with imports := s.pst.imports.filter fun i => !(i.job.typ ≠ 1 && idle i.job) } }
  (far.filter fun i => i.job.typ = 1).foldl (fun s i => endImport s i (emptyRes 9)) s

/-- A fence takes effect (R250, R384). -/
def fenceUnit (s : State) (unit index : Nat) : State :=
  let s := report s 0x0B04 index
  match unit with
  | 1 =>
    let s := report ((s.wrBit (ERR_FENCE_LANE_UNIT (index / 32)) (index % 32) true).wr (SLV_LANE_STATUS_FENCED index) 1) 0x030A index
    let s := fenceJobs s index
    { s with seq := { s.seq with cycs := s.seq.cycs.map fun c =>
        { c with out := { c.out with jobs := c.out.jobs.map fun q =>
            if q.lane = index ∧ q.started = none ∧ q.res = none then { q with res := some (emptyRes 9) } else q } } } }
  | 3 => (s.wrBit (ERR_FENCE_FLT_UNIT (index / 32)) (index % 32) true).wr (FLT_CH_STS_FENCED index) 1
  | 4 => (s.wrBit (ERR_FENCE_TRK_UNIT (index / 32)) (index % 32) true).wr (GNS_CH_STS_FENCED index) 1
  | 5 => (s.wrBit ERR_FENCE_POS_UNIT index true).wr (FLD_POS_STS_FENCED index) 1
  | 6 => netFlush (s.wrBit ERR_FENCE_PORT_NET index true) index
  | 7 => canMonitor (s.wrBit ERR_FENCE_PORT_CAN index true) index
  | _ => s

/-- A class S fault (R369). -/
def classS (s : State) (f : FaultIn) (cause : Nat) : State :=
  failSilent (noteFault s f 4 (repeating s f.cyc)) cause

/-- A class S fault that another chapter names (R369): the mechanism code is stated for none of them and is a free value. -/
def classOther (s : State) : State :=
  let (m, s) := s.draw
  classS s ⟨m % 16, 0, 0, none, 0, false, false, false⟩ 7

/-- SEQ, SOLV, FLD or JNL runs on FRC or has no clock (R455, R457). -/
def clkSlow (s : State) : Bool :=
  [2, 3, 10, 11].any fun d =>
    let st := s.rd (CLK_DOM_STS_STATE d)
    st = 2 || st = 6 || (st = 1 && ((s.clk.doms[d]?).map (·.toFall)).getD false)

/-- A fault of class P where the unit can be fenced, else S with cause 3 (R368, R369). -/
def classP (s : State) (f : FaultIn) : State :=
  if fenceable f.unit then fenceUnit (noteFault s f 3 (repeating s f.cyc)) f.unit f.index
  else classS s f 3

/-! ### Missed cycles (R37 to R39) -/

/-- The partner's commit of a missed cycle is adopted for every later reference (R400). -/
def adopt (s : State) (n : Nat) (r : CommitRec) : State :=
  let a := s.alloc?
  let prev := (s.alloc.past.find? fun x => x.n < n).getD (refStandby s)
  let theta := (List.range a.thr.length).map fun i =>
    match a.thr[i]? with
    | some t => thrustAngle t (at_ r.f i []) (at_ prev.theta i 0)
    | none => 0
  let (mode, runs) := match s.jnlOf n with
    | some j => match j.inp with
      | some i => (i.mode, i.runs)
      | none => (4, 0xFFFFF)
    | none => (4, 0xFFFFF)
  let x : AllocRef := ⟨n, mode, scenAfter mode runs r.src r.scen, r.f, theta, r.tauA⟩
  let s := { s with
    alloc := { s.alloc with past := (x :: s.alloc.past).mergeSort fun a b => b.n ≤ a.n },
    red := { s.red with missed := s.red.missed.filter fun m => m ≠ n } }
  let s := match s.jnlOf n with
    | some j => jnlPut s { j with commit := some r }
    | none => s
  reportCyc (s.incSat RED_CNT_ADOPTED 255) n 0x0D09

/-- Cycle `n` is declared missed (R37, R38): its record, counters, entries; MISS_LIMIT raises a class S fault (R39). -/
def missCycle (s : State) (n : Nat) : State :=
  match s.cyc? n with
  | none => s
  | some c =>
    if c.committed || c.missed then s
    else
      let s := reportCyc s n 0x0202
      let s := edgeSrc ((s.incSat SEQ_MISS_CNT_MISS_CNT 0xFFFFFFFF).wr SEQ_STATUS_MISS 1) 1
      -- a reinitialisation that the cycle has taken and not made acts from the next stage 4 (R184)
      let s := if c.inp.reinit && c.out.oce.isNone && bit c.inp.runs 1 then { s with oce := { s.oce with reinit := true } } else s
      let c := (s.cyc? n).getD c
      let s := jnlMark s n 3
      let early := s.seq.cycs.any fun d => d.n < n && !d.committed && !d.missed
      let s := deferBits (releaseMissed s c) c
      let s := bankUse (leaveFlight s n)
      let paired : Bool := s.flag RED_STATUS_PAIRED
      let s : State := if paired then
          let s := { s with red := { s.red with missed := n :: s.red.missed, digs := (n, none, false) :: s.red.digs.take 7 } }
          pstSendData s 0x12 (partnerAddr s) n (.digest none false (driveFormats s))
        else s
      let s : State := match (s.red.parts.find? fun p => p.n = n).bind (·.commit) with
        | some r => if paired then adopt s n r else s
        | none => s
      -- a successor that waited for the replay re-runs at once (R381)
      let before := s.seq.missRun
      let s := { s with seq := { s.seq with
        missRun := if early then before else before + 1 + s.seq.missNext,
        missNext := if early then s.seq.missNext + 1 else 0
        cycs := s.seq.cycs.map fun d => { d with run := { d.run with wait := false } } } }
      let s : State := if s.seq.cycs.any (fun d => d.run.again) then s else s.wr ERR_STATUS_REPLAY 0
      let limit := s.rd SEQ_MISS_CFG_MISS_LIMIT
      if (before < limit && limit ≤ s.seq.missRun) || (early && s.seq.missNext = limit) then
        classS (report s 0x0203) ⟨10, 8, 0, some n, 0, false, false, false⟩ 5
      else s

/-! ### Replay and squash (R34, R35, R379 to R382) -/

/-- The stages of a cycle go back to the start of stage 2; lane jobs of its allocation are aborted and their results discarded. -/
def rewind (c : Cyc) : Cyc :=
  { c with
    run := { c.run with stage := 1, running := false, handed := false, ready := false },
    out := { c.out with chans := [], events := [], vote := none, oce := none, tau := [], jobs := c.out.jobs.filter fun q => q.typ ≠ 1,
                        verdicts := [] },
    commit := none }

/-- The live state of filters, voting and observer returns to a cycle's snapshot (R376). -/
def toSnapshot (s : State) (c : Cyc) : State :=
  { s with
    flt := { s.flt with ch := if 2 ≤ c.run.stage then c.snap.ch else s.flt.ch },
    ref := if 3 ≤ c.run.stage then c.snap.ref else s.ref,
    oce := if 4 ≤ c.run.stage then c.snap.oce else s.oce }

/-- Cycle n + 1 is squashed (R380) where its head, stages 2 to 5, has started (R34): its stages stop, its latch and capture stay, and it waits
for n. One that has only been latched goes on (R29). -/
def squash (s : State) (n : Nat) : State :=
  match s.cyc? n with
  | none => s
  | some c =>
    if c.run.stage < 2 then s
    else
      let s := toSnapshot s c
      let s := updCyc s n fun c => let c := rewind c; { c with run := { c.run with wait := true, rerun := true } }
      report s 0x0B09

/-- A class T fault in the work of cycle `n` that calls for a replay (R379, R382): n goes back to its snapshot and n + 1 is squashed. -/
def startReplay (s : State) (n : Nat) : State :=
  match s.cyc? n with
  | none => s
  | some c =>
    if c.committed || c.missed then s
    else if !c.run.snapOk then missCycle (reportCyc s n 0x0C03) n
    else
      let wasAgain := ((s.cyc? (n + 1)).map fun d => d.run.again).getD false
      let s := squash s (n + 1)
      -- a squashed replay of n + 1 counts as its replay (R382)
      let s := updCyc s (n + 1) fun d => { d with run := { d.run with again := wasAgain } }
      let s := toSnapshot s c
      let s := updCyc s n fun c => let c := rewind c; { c with run := { c.run with again := true, replays := c.run.replays + 1 } }
      s.wrs [(SEQ_STATUS_REPLAY, 1), (ERR_STATUS_REPLAY, 1)]

/-- The replay of a cycle has ended: its successor re-runs (R36). -/
def endReplay (s : State) (n : Nat) : State :=
  let s := updCyc s n fun c => { c with run := { c.run with again := false } }
  let s := updCyc s (n + 1) fun c => { c with run := { c.run with wait := false } }
  if s.seq.cycs.any (fun d => d.run.again) then s else s.wr ERR_STATUS_REPLAY 0

/-- A fault that is not class S by itself (R364, R367, R368): class T, or P in a replay or as the unit's third; then the replay, the miss
or the fence. -/
def takeFault (s : State) (f : FaultIn) : State :=
  let running := s.rd SEQ_STATUS_STATE = 2
  if repeating s f.cyc then
    -- a second fault during the replay: class P, and the cycle is missed (R34)
    let s := classP s f
    match f.cyc with
    | some n => if s.flag ERR_STATUS_FAIL_SILENT then s else missCycle s n
    | none => s
  else if thirdFault s f then
    let s := classP s f
    match f.cyc with
    | some n => if s.flag ERR_STATUS_FAIL_SILENT || !running || !f.replay then s else startReplay s n
    | none => s
  else
    let s := rememberFault (noteFault s f 2 false) f
    match f.cyc with
    | some n => if running && f.replay then startReplay s n else s
    | none => s

/-- An injection that is armed on a unit is used up by its next operation (R388). -/
def takeInjection (s : State) (unit index : Nat) : Option Nat × State :=
  match s.err.inj with
  | some (m, u, i) =>
    if u = unit ∧ i = index then (some m, { s.wr ERR_INJ_ARM 0 with err := { s.err with inj := none } }) else (none, s)
  | none => (none, s)

end Sys2Proof.Machine
end

