-- ==== Sys2Proof/Machine/GnssFit.lean ====
section
/-! DEFINITION. The measurement models and fits of the GNSS solutions (R144, R148 to R157, R160): pseudoranges, lines of sight, the data of
WLS and CLS jobs, double differences and the integer search. Orbits, satellite clocks and the atmosphere are the navigation systems' own
models, which the spec names and does not give: they are free functions (notes/assumptions/15). -/

namespace Sys2Proof.Machine

open Sys2Proof

/-! ### Units and time -/

/-- A binary32 length in metres in 2^−20 m. -/
def toM (x : Nat) : Int := (frne fmt32 (m32 x (i32 (2 ^ 20)))).getD 0
/-- A length in 2^−20 m in binary32 metres. -/
def ofM (x : Int) : Nat := fofDy fmt32 x (-20)

/-- A week in 2^−16 ns. -/
def weekUnits : Int := 604800 * Config.secUnit
/-- GPS time of week of a corrected time: corrected time less 19 s, from 6 January 1980 (R144, R149). -/
def gpsTow (t : Int) : Int := (t - 315964819 * Config.secUnit) % weekUnits
/-- A difference of two times of week, within half a week. -/
def wrapWeek (d : Int) : Int := (d + weekUnits / 2) % weekUnits - weekUnits / 2

/-- The transmit time of a code phase of the week in 2^−32 chip, in GPS time: BeiDou time is GPS time less 14 s (R144). -/
def txTow (sig code : Nat) : Int :=
  ((code : Int) * Config.secUnit / (1023000 * 2 ^ 32) + if sig = 3 then 14 * Config.secUnit else 0) % weekUnits

/-- c times a time in 2^−16 ns, in 2^−20 m (R149). -/
def rangeOf (dt : Int) : Int := 299792458 * dt * 2 ^ 20 / Config.secUnit

/-- A length of carrier phase in 2^−16 cycle at λ = 0.190294 m (R153), as a fraction of metres. -/
def phaseM (p : Int) : Nat := fofRat fmt32 (p * 190294) (65536 * 1000000)
/-- λ in binary32 metres (R153). -/
def waveLen : Nat := fofRat fmt32 190294 1000000

/-! ### Satellites -/

/-- Where a satellite is, north, east and down of the origin in 2^−20 m: from its words, at its transmit time, in the earth frame of the
receive time (R149: earth rotation during signal travel). -/
def satPos (nav : List Nat) (tTx tRx : Int) : List Int := (List.range 3).map fun k => Config.gnss k nav [tTx, tRx]
/-- Its velocity in the same frame, in 2^−20 m/s. -/
def satVel (nav : List Nat) (tTx tRx : Int) : List Int := (List.range 3).map fun k => Config.gnss (3 + k) nav [tTx, tRx]
/-- Satellite clock, relativistic and group-delay terms as a pseudorange holds them, in 2^−20 m (R149). -/
def satClk (nav : List Nat) (tTx : Int) : Int := Config.gnss 6 nav [tTx]
/-- Their rate in 2^−20 m/s. -/
def satClkRate (nav : List Nat) (tTx : Int) : Int := Config.gnss 7 nav [tTx]
/-- The Klobuchar ionosphere and the standard-atmosphere troposphere of a path, in 2^−20 m (R149). -/
def airDelay (air : List Nat) (tRx : Int) (pt sat : List Int) : Int :=
  Config.gnss 8 air (tRx :: (pt ++ sat)) + Config.gnss 9 [] (pt ++ sat)

/-- A line of sight: range in 2^−20 m, unit vector in binary32, elevation as a binary angle. -/
structure Sight where
  range : Int
  u : List Nat
  el : Int

/-- The line of sight from a point to a satellite. -/
def sightOf (sat pt : List Int) : Sight :=
  let d := List.zipWith (· - ·) sat (pt.take 3)
  let sq (l : List Int) : Nat := (l.map fun x => x.natAbs * x.natAbs).sum
  let r := Nat.sqrt (sq d)
  ⟨r, d.map fun x => if r = 0 then 0 else fofRat fmt32 x r, signed 32 (angleFix (Nat.sqrt (sq (d.take 2)) : Nat) (-(d.getD 2 0)))⟩

/-- The line of sight to a satellite that is received at a time of week, seen from a point. -/
def sightAt (nav : List Nat) (tTx tRx : Int) (pt : List Int) : Sight := sightOf (satPos nav tTx tRx) pt

/-- 1/σ² = sin²(elevation)/(SIG_A² + SIG_B²·10^(−C/N0/10)) (R149). The unit that forms the power of ten is not described: it is a free
function of C/N0 (notes/assumptions/15). -/
def fitWeight (sigA sigB cn0 : Nat) (v : Sight) : Nat :=
  let up := at_ v.u 2 0
  d32 (m32 up up) (a32 (m32 sigA sigA) (m32 (m32 sigB sigB) (Config.fit 12 [cn0] 0).toNat))

/-! ### WLS jobs (R148, R149, R243) -/

/-- One row of J and r of a position fit at a point (R149): north, east, down, one clock term, one term per other system. -/
def posRow (ls : LsProb) (pt : List Int) (x : FitRow) : List Nat × Nat :=
  let sat := satPos x.nav x.tTx x.tRx
  let v := sightOf sat pt
  let term := (ls.sys.zip (pt.drop 4)).foldl (fun (a : Int) g => if g.1 = x.sig then a + g.2 else a) 0
  let model := v.range + satClk x.nav x.tTx + (if x.spp then airDelay x.air x.tRx (pt.take 3) sat else 0) + pt.getD 3 0 + term
  (negV v.u ++ one32 :: ls.sys.map fun g => if g = x.sig then one32 else 0, ofM (x.rho - model))

/-- One row of J and r of a velocity fit (R151): velocity and clock drift from Doppler. -/
def velRow (ls : LsProb) (pt : List Int) (x : FitRow) : List Nat × Nat :=
  let sat := satPos x.nav x.tTx x.tRx
  let v := sightOf sat ls.pos
  let d := List.zipWith (· - ·) sat (ls.pos.take 3)
  let rel := List.zipWith (· - ·) (satVel x.nav x.tTx x.tRx) (pt.take 3)
  let along := if v.range = 0 then 0 else (List.zipWith (· * ·) d rel).foldl (· + ·) 0 / v.range
  (negV v.u ++ [one32], ofM (x.rho - (along + satClkRate x.nav x.tTx + pt.getD 3 0)))

/-- J, r and w of a WLS job at a point (R243). -/
def lsData (vel : Bool) (ls : LsProb) (pt : List Int) : List (List Nat) × List Nat × List Nat :=
  let rows := ls.rows.map fun x => if vel then velRow ls pt x else posRow ls pt x
  (rows.map (·.1), rows.map (·.2), ls.rows.map (·.w))

/-- The staged data of a WLS job at a point (R233): J, r, w. -/
def wlsWords (vel : Bool) (ls : LsProb) (pt : List Int) : List Nat :=
  let (j, r, w) := lsData vel ls pt
  j.flatten ++ r ++ w

/-- A WLS job after a number of Gauss–Newton steps (R243): the GNSS block forms J, r and w at its point, the lane solves, the block applies
δ. -/
def wlsRun (vel : Bool) (ls : LsProb) : Nat → JobRes
  | 0 => { emptyRes 1 with pt := ls.pt }
  | k + 1 =>
    let o := wlsRun vel ls k
    if o.status ≠ 1 then o
    else
      let (j, r, w) := lsData vel ls o.pt
      match lsStep ls.n j r w with
      | .ill c => { o with status := 3, illCol := c }
      | .ovf => { o with status := 4, ovf := true }
      | .ok delta inv res omega =>
        { o with iter := k + 1, mu := omega, x := delta ++ lowerTri inv ++ res, pt := List.zipWith (· + ·) o.pt (delta.map toM) }

/-- Rows of a given length of a list of words. -/
def rowsOf (n : Nat) (l : List Nat) : List (List Nat) := (List.range (l.length / max 1 n)).map fun i => (l.drop (i * n)).take n

/-- A GNSS job after at most `cap` iterations (R235, R242 to R244): its data are tested first. -/
def gnsRun (q : Job) (cap : Nat) : JobRes :=
  let bad : JobRes := { emptyRes 4 with ovf := true }
  if !allFin q.words then { emptyRes 4 with input := true }
  else if q.typ = 2 then wlsRun (q.sub = 2) q.ls cap
  else if q.kind2 then
    match clsTwo (rowsOf 4 q.ls.data) with
    | some x => { emptyRes 1 with iter := 8, mu := at_ x 4 0, x := x }
    | none => bad
  else
    let m := q.ls.m
    let d := q.ls.data
    match clsOne (rowsOf 3 (d.take (3 * m))) ((d.drop (3 * m)).take m) (rowsOf m (d.drop (4 * m))) q.ls.radius cap with
    | some (xs, k) =>
      let om := xs.map fun x => at_ x 3 omegaNone
      { emptyRes 1 with iter := min k 63, mu := at_ om (argMin om) 0, x := xs.flatten }
    | none => bad

/-- √((C_NN + C_EE)/2) of a position fit with `n` unknowns (R151): N⁻¹ follows δ in the result. -/
def sigmaH (n : Nat) (x : List Nat) : Nat := q32 (m32 (fofRat fmt32 1 2) (a32 (at_ x n 0) (at_ x (n + 2) 0)))

/-- The normalised residuals of a WLS result (R243), one for each row. -/
def residualsOf (n : Nat) (x : List Nat) : List Nat := (x.drop (n + n * (n + 1) / 2)).map abs32

/-- A clock term in 2^−20 m in binary32 ns (R151). -/
def clockNs (m : Int) : Nat := fofRat fmt32 (m * 1000000000) (299792458 * 2 ^ 20)

/-! ### Double differences (R153, R154) -/

/-- A satellite on ANT0 and ANTk: signal, PRN, channel on ANT0, phase of ANTk less that of ANT0 in 2^−16 cycle, unit vector, elevation, and
the C/N0 of both. -/
structure BaseObs where
  sig : Nat
  prn : Nat
  c : Nat
  phi : Int
  v : Sight
  cn0 : List Nat

/-- A double difference (R154): the satellite and its reference, u_j − u_ref, phase in 2^−16 cycle, elevation, weight. -/
structure DDiff where
  sig : Nat
  prn : Nat
  ref : Nat
  c : Nat
  du : List Nat
  phi : Int
  el : Int
  w : Nat

/-- The order of R154: highest elevation first, ties to the lower channel. -/
def higher (el el' : Int) (c c' : Nat) : Bool := el' < el || (el = el' && c ≤ c')

/-- The reference of a system: its highest satellite. -/
def refSat (l : List BaseObs) (sig : Nat) : Option BaseObs :=
  ((l.filter fun x => x.sig = sig).mergeSort fun x y => higher x.v.el y.v.el x.c y.c).head?

/-- The double differences of some satellites, within each system and against its highest, by ascending channel (R153, R154). The weight of a
double difference is not stated: a free value (notes/assumptions/15). -/
def ddsOf (l : List BaseObs) : List DDiff :=
  l.filterMap fun x => match refSat l x.sig with
    | some r =>
      if r.prn = x.prn then none
      else some ⟨x.sig, x.prn, r.prn, x.c, zip2 s32 x.v.u r.v.u, x.phi - r.phi, x.v.el,
        (Config.fit 13 (x.cn0 ++ r.cn0 ++ [unsigned 32 x.v.el, unsigned 32 r.v.el]) 0).toNat⟩
    | none => none

/-- The length that a double difference shows for an integer, in binary32 metres: it is −(u_j − u_ref)·b. -/
def ddLen (x : DDiff) (n : Int) : Nat := phaseM (x.phi - n * 65536)

/-- The phase in cycles that a baseline leaves over as an integer: φ + (u_j − u_ref)·b/λ. -/
def ddCycles (x : DDiff) (b : List Nat) : Nat := a32 (fofRat fmt32 x.phi 65536) (d32 (dot x.du b) waveLen)

/-- The integer of a double difference that a baseline gives, rounded (R154). -/
def ddInt (x : DDiff) (b : List Nat) : Int := (frne fmt32 (ddCycles x b)).getD 0

/-- ⌈x⌉ of a binary32 value that is not negative. -/
def ceilNat (x : Nat) : Nat := ((ffloor fmt32 (fneg fmt32 x)).map fun i => (-i).toNat).getD 0

/-- The bound on the integer of a primary double difference: ⌈|u_j − u_ref|·L/λ⌉ + 1 (R154). -/
def intBound (x : DDiff) (len : Nat) : Nat := ceilNat (d32 (m32 (q32 (dot x.du x.du)) len) waveLen) + 1

/-- −n to n in ascending order. -/
def intsTo (n : Nat) : List Int := (List.range (2 * n + 1)).map fun i => (i : Int) - n

/-- a × b. -/
def cross3 (a b : List Nat) : List Nat :=
  let c (i j : Nat) : Nat := s32 (m32 (at_ a i 0) (at_ b j 0)) (m32 (at_ a j 0) (at_ b i 0))
  [c 1 2, c 2 0, c 0 1]

/-- The baseline of three lengths along three directions, by Cramer's rule. -/
def solve3 (a : List (List Nat)) (y : List Nat) : List Nat :=
  let r (i : Nat) : List Nat := at_ a i []
  let k := [cross3 (r 1) (r 2), cross3 (r 2) (r 0), cross3 (r 0) (r 1)]
  let det := dot (r 0) (at_ k 0 [])
  (List.range 3).map fun i => d32 (dot (colOf k i) y) det

/-- |‖b‖ − L|. -/
def lenGap (b : List Nat) (len : Nat) : Nat := abs32 (s32 (q32 (dot b b)) len)

/-- The survivors of a search (R154): triples of the primary set within their bounds whose baseline passes the length and tilt tests, by length
error and then by the triple. -/
def survivorsOf (dds : List DDiff) (len lenTol tilt zk : Nat) : List (List Int × List Nat) :=
  match (dds.mergeSort fun x y => higher x.el y.el x.c y.c).take 3 with
  | [p, q, r] =>
    let a := [negV p.du, negV q.du, negV r.du]
    let lim := m32 len (sin32 tilt)
    let all := (intsTo (intBound p len)).flatMap fun i => (intsTo (intBound q len)).flatMap fun j =>
      (intsTo (intBound r len)).filterMap fun k =>
        let b := solve3 a [ddLen p i, ddLen q j, ddLen r k]
        if allFin b && le32 (lenGap b len) lenTol && le32 (abs32 (s32 (at_ b 2 0) zk)) lim then some ([i, j, k], b) else none
    all.mergeSort fun x y => le32 (lenGap x.2 len) (lenGap y.2 len)
  | _ => []

/-- The fixed set that a candidate gives (R154): the primary integers, the others rounded from its baseline, references at 0. -/
def candSet (dds : List DDiff) (t : List Int × List Nat) : List HeldSat :=
  let prim := (dds.mergeSort fun x y => higher x.el y.el x.c y.c).take 3
  let refs := (dds.map fun x => (x.sig, x.ref)).eraseDups
  refs.map (fun x => ⟨x.1, x.2, 0⟩) ++ dds.map fun x =>
    ⟨x.sig, x.prn, match (prim.zip t.1).find? fun p => p.1.sig = x.sig && p.1.prn = x.prn with
      | some p => p.2
      | none => ddInt x t.2⟩

/-- The integer that a fixed set holds for a satellite. -/
def heldInt (l : List HeldSat) (sig prn : Nat) : Option Int := (l.find? fun x => x.sig = sig && x.prn = prn).map (·.n)

/-- The integer of a double difference under a fixed set: the satellite's less its reference's, whichever is the reference (R156). -/
def ddHeld (l : List HeldSat) (x : DDiff) : Int := (heldInt l x.sig x.prn).getD 0 - (heldInt l x.sig x.ref).getD 0

/-- The CLS job of kind 1 of some fixed sets over the same double differences (R154, R156). -/
def clsProb (dds : List DDiff) (sets : List (List HeldSat)) (len : Nat) : LsProb :=
  let ys := sets.map fun l => dds.map fun x => ddLen x (ddHeld l x)
  { LsProb.none with
    n := 3, m := dds.length, count := sets.length, radius := len,
    data := (dds.map fun x => negV x.du).flatten ++ dds.map (·.w) ++ ys.flatten }

/-- The fixed set of a fixed baseline at an epoch (R156): satellites that are not usable leave; one rejoins when its double difference lies
within 0.15 cycle of the value that the current baseline gives. -/
def heldNow (held : List HeldSat) (b : List Nat) (l : List BaseObs) : List HeldSat :=
  let stay := held.filter fun x => l.any fun y => y.sig = x.sig && y.prn = x.prn
  let base := l.filter fun y => stay.any fun x => x.sig = y.sig && x.prn = y.prn
  stay ++ l.filterMap fun y =>
    if stay.any (fun x => x.sig = y.sig && x.prn = y.prn) then none
    else match refSat base y.sig with
      | none => none
      | some r =>
        let x : DDiff := ⟨y.sig, y.prn, r.prn, y.c, zip2 s32 y.v.u r.v.u, y.phi - r.phi, y.v.el, 0⟩
        let v := ddCycles x b
        let n := (frne fmt32 v).getD 0
        if le32 (abs32 (s32 v (i32 n))) (fofRat fmt32 15 100) then some ⟨y.sig, y.prn, n + (heldInt stay y.sig r.prn).getD 0⟩ else none

/-! ### Attitude (R155 to R157) -/

/-- The direction of (x, y) in binary32, from x toward y, as a binary angle. -/
def angle32 (x y : Nat) : Nat :=
  let a := dyOf x
  let b := dyOf y
  let e := min a.2 b.2
  angleFix (a.1 * 2 ^ (a.2 - e).toNat) (b.1 * 2 ^ (b.2 - e).toNat)

/-- The angle between two vectors, 0 to 180° as a binary angle. -/
def angleBetween (a b : List Nat) : Nat := let c := cross3 a b; angle32 (dot a b) (q32 (dot c c))

/-- The largest disagreement of some baselines, as measured and as the body frame has them, in the angles between them (R155). -/
def angleOff (l : List (List Nat × List Nat)) : Nat :=
  ((l.flatMap fun x => l.map fun y => ((angleBetween x.1 y.1 : Int) - angleBetween x.2 y.2).natAbs)).foldl max 0

/-- The 4 × 4 matrix whose largest eigenvector is the unit quaternion, scalar first, that turns body vectors into measured ones (R156): the
quaternion method, which the spec names by its constraint and does not write out (notes/assumptions/89). -/
def attMatrix (l : List (List Nat × List Nat)) : List (List Nat) :=
  let s (i j : Nat) : Nat := dot (l.map fun x => at_ x.2 i 0) (l.map fun x => at_ x.1 j 0)
  let p := fun i j k l => a32 (s i j) (s k l)
  let m := fun i j k l => s32 (s i j) (s k l)
  let t (a b c : Nat) : Nat := s32 (s32 a b) c
  [[a32 (p 0 0 1 1) (s 2 2), m 1 2 2 1, m 2 0 0 2, m 0 1 1 0],
   [m 1 2 2 1, t (s 0 0) (s 1 1) (s 2 2), p 0 1 1 0, p 2 0 0 2],
   [m 2 0 0 2, p 0 1 1 0, t (s 1 1) (s 0 0) (s 2 2), p 1 2 2 1],
   [m 0 1 1 0, p 2 0 0 2, p 1 2 2 1, t (s 2 2) (s 0 0) (s 1 1)]]

/-- Heading, pitch and roll of a unit quaternion (R157): pitch positive bow up, roll positive starboard down. -/
def eulerOf (q : List Nat) : List Nat :=
  let g (i : Nat) : Nat := at_ q i 0
  let dbl (a : Nat) : Nat := a32 a a
  let sq (i : Nat) : Nat := m32 (g i) (g i)
  let r11 := s32 (s32 (a32 (sq 0) (sq 1)) (sq 2)) (sq 3)
  let r21 := dbl (a32 (m32 (g 1) (g 2)) (m32 (g 0) (g 3)))
  let r31 := dbl (s32 (m32 (g 1) (g 3)) (m32 (g 0) (g 2)))
  let r32 := dbl (a32 (m32 (g 2) (g 3)) (m32 (g 0) (g 1)))
  let r33 := a32 (s32 (s32 (sq 0) (sq 1)) (sq 2)) (sq 3)
  [angle32 r11 r21, angle32 (q32 (a32 (m32 r11 r11) (m32 r21 r21))) (fneg fmt32 r31), angle32 r33 r32]

/-! ### The bounds of R251 -/

/-- The most SOLV clocks that a job takes from its start (R251): TYPE, kind 2, N, P, M, COUNT and ITER_CAP. -/
def jobClocks (typ : Nat) (kind2 : Bool) (n p m count cap : Nat) : Nat :=
  let up (a b : Nat) : Nat := (a + b - 1) / b
  let (mac, i) : Nat × Nat := if typ = 1 then (m * n * n + up ((n + p) ^ 3) 6 + 2 * (n + p) ^ 2 + 3 * (m + p) * n, cap)
    else if typ = 2 then (m * n * n + up (n ^ 3) 6 + 2 * n * n + 3 * m * n, cap)
    else if kind2 then (384, 8) else (60 * m + 1024 * count, cap)
  1200 + i * (up mac 8 + 400 + if typ = 2 then 4 * m else 0) + 200

end Sys2Proof.Machine
end

