-- ==== Sys2Proof/Machine/GnssTrk.lean ====
section
/-! DEFINITION. The GNSS baseband up to its channels: front-ends, acquisition, tracking loops, navigation words (R125 to R140, R145 of
spec/04). -/

namespace Sys2Proof.Machine

open Sys2Proof

/-! ### The GNSS section (R66) -/

/-- The GNSS section. -/
def State.gnsSec (s : State) : List Byte := s.sec 9
/-- The block runs: the variant has antennas and the image a GNSS section (R125). -/
def gnsOn (s : State) : Bool := s.hasGnss && s.hasSec 9
/-- The group is in service (R84, R89). -/
def gnsRuns (s : State) : Bool := gnsOn s && !groupStopped s 3
/-- CH[a]. -/
def gnsCh (s : State) (a : Nat) : Nat := if a < 4 then u8 s.gnsSec (0x18 + a) else 0
/-- SIG_EN holds the signal code. -/
def sigOn (s : State) (sig : Nat) : Bool := 1 ≤ sig && sig ≤ 4 && bit (u8 s.gnsSec 1) (sig - 1)
/-- A change of the block's own state. -/
def State.gn (s : State) (f : GnsSt → GnsSt) : State := { s with gns := f s.gns }

/-- A channel that tracks nothing, with its slip count. -/
def chIdle (slips : Nat) : GnsCh :=
  { sig := 0, prn := 0, pull := false, pullEnd := 0, since := 0, code := 0, car := 0, dop := 0, vel := 0, acc := 0, cr := 0, prompts := [],
    cn0 := 0, up := 0, low := 0, codeLock := false, carrLock := false, bj := 0, slip := false, restart := false, clean := 0, lockAt := none,
    slips := slips, half := false, inv := false, tow := false, sync := false, range := [], smooth := none }

/-- Channel `c`. -/
def State.gch (s : State) (c : Nat) : GnsCh := ((s.gns.chs.find? fun e => e.1 = c).map (·.2)).getD (chIdle 0)

/-- Change channel `c`. -/
def updCh (s : State) (c : Nat) (f : GnsCh → GnsCh) : State :=
  let x := f (s.gch c)
  s.gn fun g => { g with chs := (c, x) :: g.chs.filter fun e => e.1 ≠ c }

/-- The defined channels, in ascending order (R135). -/
def gnsChans (s : State) : List Nat := (List.range 4).flatMap fun a => (List.range (gnsCh s a)).map fun i => 64 * a + i

/-- The channel is fenced (R384). -/
def chFenced (s : State) (c : Nat) : Bool := bit (s.rd (ERR_FENCE_TRK_UNIT (c / 32))) (c % 32)

/-- FAULT of an antenna (R129, R130). -/
def antFault (s : State) (a : Nat) : Bool := at_ s.gns.occBad a false || at_ s.gns.spiBad a false

/-- FAULT and ANT_FAULT brought up to date. -/
def antMarks (s : State) : State :=
  (List.range 4).foldl (fun s a =>
    (s.wrb (GNS_ANT_STS_FAULT a) (antFault s a)).wrBit GNS_STATUS_ANT_FAULT a (antFault s a)) s

/-- The GNSS clocks run: GCLK is present, GNSS-S is not gated, and GNSS-C is on its own source (R127, R455, R460, R468). -/
def gnsClocked (s : State) : Bool :=
  !s.gns.lost && s.rd (CLK_DOM_STS_STATE 4) ≠ 4 && onPrimary s 5

/-- GCLK_OK brought up to date (R127). -/
def gclkMark (s : State) : State := s.wrb GNS_STATUS_GCLK_OK (!s.gns.lost && !s.gns.rateBad)

/-! ### Acquisition (R132 to R134) -/

/-- T_COH in milliseconds. -/
def tCoh (sig : Nat) : Nat := if sig = 2 then 4 else if sig = 3 then 10 else 1
/-- Chips of the primary code (R131). -/
def codeLen (sig : Nat) : Nat := if sig = 2 then 4092 else if sig = 3 then 10230 else 1023

/-- Cells and passes of a job (R132). -/
def acqPasses (s : State) (cls sig : Nat) : Nat :=
  let span := u32 s.gnsSec (if cls = 3 then 0x2C else 0x30)
  let cells := if cls = 1 then 27 else 2 * codeLen sig * (2 * (span * 2 * tCoh sig / 1000) + 1)
  (cells + 32767) / 32768

/-- A channel of the antenna is free: the lowest that tracks nothing and is not fenced. -/
def freeCh (s : State) (a : Nat) : Option Nat :=
  ((List.range (gnsCh s a)).map fun i => 64 * a + i).find? fun c => (s.gch c).sig = 0 && !chFenced s c

/-- A signal is tracked on an antenna. -/
def trackedOn (s : State) (a sig prn : Nat) : Bool :=
  s.gns.chs.any fun e => e.1 / 64 = a && e.2.sig = sig && e.2.prn = prn
/-- A satellite is queued on an antenna by the running job. -/
def jobOn (s : State) (a sig prn : Nat) : Bool := s.gns.acq.any fun j => j.ant = a && j.sig = sig && j.prn = prn

/-- The antenna may acquire (R129, R134). -/
def antOpen (s : State) (a : Nat) : Bool := 0 < gnsCh s a && !antFault s a && (freeCh s a).isSome

/-- The PRNs of a signal (R131). -/
def prnsOf (sig : Nat) : List Nat :=
  match sig with
  | 1 => (List.range 32).map (· + 1)
  | 2 => (List.range 36).map (· + 1)
  | 3 => (List.range 45).map (· + 19)
  | 4 => (List.range 39).map (· + 120)
  | _ => []

/-- The entry of a satellite in force in the store, the ephemeris before the almanac (R145). -/
def navOf (s : State) (sig prn : Nat) : Option NavEntry :=
  let has (alm : Bool) : Option NavEntry := s.gns.store.find? fun e => e.sig = sig && e.prn = prn && e.alm = alm && e.inForce
  (has false).or (has true)

/-- The words from which a satellite is placed (R145, R148): its entry, or for code 4 the newest type-9 message of a channel. -/
def navWords (s : State) (sig prn : Nat) : Option (List Nat) :=
  if sig = 4 then (s.gns.chs.find? fun e => e.2.sig = 4 && e.2.prn = prn && e.2.range ≠ []).map fun e => e.2.range
  else (navOf s sig prn).map (·.words)

/-- The position of the last valid solution in 2^−20 m. -/
def solPoint (s : State) : List Int := [toM s.gns.sol.n, toM s.gns.sol.e, toM s.gns.sol.d]

/-- The elevation of a satellite above the last valid PVT at a corrected time, a binary angle (R134, R148; the orbit models are those of
the systems' documents, notes/assumptions/15); none without a position or words of the satellite. -/
def elevation (s : State) (sig prn : Nat) (t : Int) : Option Int :=
  match s.gns.lastPvt, navWords s sig prn with
  | some _, some w => some (sightAt w (gpsTow t) (gpsTow t) (solPoint s)).el
  | _, _ => none

/-- The modulus of a code phase (R143): the week, or before TOW_KNOWN the primary code. -/
def codeMod (sig : Nat) (tow : Bool) : Nat := (if tow then 604800 * 1023000 else codeLen sig) * 2 ^ 32

/-- How far a code goes in some counts (R142), in 2^−32 chip: the chip rate, the carrier's aiding (one chip per 1,540 cycles), and the
rate of the DLL. -/
def codeGoes (dop cr : Int) (d : Int) : Int :=
  1023000 * 2 ^ 34 * d / 1000000000 + dop * 2 ^ 34 * d / (65536 * 1000 * 1540 * 1000000000) + cr * 4 * d / 1000000000

/-- The replica of a channel at a count (R142): code and carrier go on at their rates. -/
def moveCh (x : GnsCh) (t : Int) : GnsCh :=
  let d := t - x.since
  { x with
    since := t.toNat, code := (((x.code : Int) + codeGoes x.dop x.cr d) % (codeMod x.sig x.tow : Int)).toNat,
    car := x.car + x.dop * 2 ^ 18 * d / 1000000000000 }

/-- The channel that aids a job: the lowest that tracks the signal on another antenna with CODE_LOCK (R132, R134). -/
def aidOf (s : State) (a sig prn : Nat) : Option GnsCh :=
  ((gnsChans s).find? fun c => let x := s.gch c; c / 64 ≠ a && x.sig = sig && x.prn = prn && x.codeLock).map s.gch

/-- The grid's origin (R132): an aided job is centred on the code phase and the Doppler tracked on the other antenna, ±2 chips of it; a warm
job on the Doppler that the store and the last PVT give, a cold one on 0 (notes/assumptions/90). -/
def gridOf (s : State) (cls a sig prn : Nat) : Nat × Int :=
  let m : Int := codeMod sig false
  match cls, aidOf s a sig prn with
  | 1, some x =>
    let y := moveCh x s.tim.cnt
    ((((y.code : Int) - 2 ^ 33) % m).toNat, y.dop / 65536)
  | 2, _ => (0, Config.gnss 13 ((navWords s sig prn).getD []) (gpsTow s.now :: solPoint s))
  | _, _ => (0, 0)

/-- ELEV_MASK. -/
def elevMask (s : State) : Int := u32 s.gnsSec 0x3C

/-- The jobs the bank may take, in the order of R134: class, antenna, signal, PRN. -/
def acqWanted (s : State) : List (Nat × Nat × Nat × Nat) :=
  let ants := (List.range 4).filter (antOpen s)
  let sigs := [1, 2, 3, 4].filter (sigOn s)
  let ok (a sig prn : Nat) : Bool := !trackedOn s a sig prn && !jobOn s a sig prn
  let src := (gnsChans s).filterMap fun c => let x := s.gch c; if x.sig ≠ 0 && x.codeLock then some (x.sig, x.prn) else none
  let aided := ants.flatMap fun a => (src.filter fun x => ok a x.1 x.2).map fun x => (1, a, x.1, x.2)
  let warm0 := sigs.flatMap fun g => (prnsOf g).flatMap fun p =>
    match elevation s g p s.now with
    | some e => if elevMask s < e then (ants.filter fun a => ok a g p).map fun a => (e, g, p, a) else []
    | none => []
  let warm := (warm0.mergeSort fun x y => y.1 ≤ x.1).map fun x => (2, x.2.2.2, x.2.1, x.2.2.1)
  let cold := (sigs.filter fun g => !s.gns.store.any fun e => e.sig = g && e.alm).flatMap fun g =>
    (prnsOf g).flatMap fun p => (ants.filter fun a => ok a g p).map fun a => (3, a, g, p)
  -- a satellite that ended absent stands at the tail of its class (R133)
  let order (l : List (Nat × Nat × Nat × Nat)) := (l.filter fun x => !s.gns.absent.contains x) ++ s.gns.absent.filter fun x => l.contains x
  (order aided).eraseDups ++ order warm ++ order cold

/-- The bank takes its next job when it has none. -/
def acqTake (s : State) : State :=
  if s.gns.acq.isSome || !gnsRuns s || !gnsClocked s then s
  else
    match (acqWanted s).head? with
    | none => s
    | some (cls, a, sig, prn) => s.gn fun g => { g with
        acq := some ⟨cls, a, sig, prn, 0, acqPasses s cls sig, (gridOf s cls a sig prn).1, (gridOf s cls a sig prn).2, none⟩, absent := g.absent.filter fun x => x ≠ (cls, a, sig, prn) }

/-- The job goes to its next pass, or ends absent (R133). -/
def acqNext (s : State) (j : AcqJob) : State :=
  if j.pass + 1 < j.passes then s.gn fun g => { g with acq := some { j with pass := j.pass + 1, ver := none } }
  else acqTake (s.gn fun g => { g with acq := none, absent := g.absent ++ [(j.cls, j.ant, j.sig, j.prn)] })

/-- PULL_IN_MS in counts (R137). -/
def pullTicks (s : State) : Nat := usTicks (1000 * u16 s.gnsSec 0x42)

/-- A verified detection goes to the lowest free channel (R133, R137, R139): code bins are half a chip apart, Doppler bins 1/(2·T_COH). -/
def handOff (s : State) (j : AcqJob) (cb : Nat) (db : Int) : State :=
  let s := s.gn fun g => { g with acq := none }
  match freeCh s j.ant with
  | none => acqTake s
  | some c =>
    let dop := 65536 * (j.dop0 + db * 500000 / (tCoh j.sig : Int))
    let s := updCh s c fun x => { chIdle x.slips with
      sig := j.sig, prn := j.prn, pull := true, pullEnd := s.tim.cnt + pullTicks s, since := s.tim.cnt,
      code := (j.code0 + cb * 2 ^ 31) % codeMod j.sig false, dop := dop, vel := dop, slip := true, restart := true }
    acqTake s

/-- R133: a pass ends with its peak and mean powers and the cell of the peak. -/
def execAcqPassDone (peak mean cb : Nat) (db : Int) (t : Nat) (s : State) : Host.Outcome State Fault Refusal :=
  let s := s.at t
  done (
    match s.gns.acq with
    | none => s
    | some j =>
      if !gnsRuns s || !gnsClocked s then s
      else
        let reach (m : Nat) : Bool := le32 (m32 (u32 s.gnsSec 0x38) (i32 m)) (i32 peak)
        match j.ver with
        | none => if reach mean then s.gn fun g => { g with acq := some { j with ver := some (mean, cb, db) } } else acqNext s j
        | some (m, c, d) => if reach m then handOff s j c d else acqNext s j)

/-! ### GCLK and the front-ends (R127 to R130) -/

/-- A channel stops tracking; its signal is queued anew (R138). A CARR_LOCK that clears with it is a slip of the next epoch (R139). -/
def releaseCh (s : State) (c : Nat) : State :=
  updCh s c fun x => { chIdle x.slips with slip := x.slip || x.carrLock, restart := x.restart }

/-- Every channel loses lock at once (R127, R161). -/
def loseAll (s : State) : State := (gnsChans s).foldl releaseCh (s.gn fun g => { g with acq := none })

/-- Every signal is lost (R161): GNSS-C runs on FRC, is gated in DOZE, or has no clock. -/
def allLost (s : State) : State :=
  let s := loseAll s
  if !gnsRuns s || s.flag GNS_STATUS_ALL_LOST then s
  else (report (s.wr GNS_STATUS_ALL_LOST 1) 0x0505).gn fun g => { g with back := true }

/-- The clock monitor finds GCLK absent (R127), with or without an image. -/
def gclkLoss (s : State) : State :=
  if !s.hasGnss || s.gns.lost then s
  else gclkMark (report (loseAll (s.gn fun g => { g with lost := true })) 0x0502)

/-- GCLK is back. -/
def gclkReturn (s : State) : State := acqTake (gclkMark (s.gn fun g => { g with lost := false }))

/-- R127: the measured rate over one second of corrected time. -/
def execGclkRateCheck (edges t : Nat) (s : State) : Host.Outcome State Fault Refusal :=
  let s := s.at t
  let fs : Nat := u32 s.gnsSec 4
  let dev : Nat := ((edges : Int) - (fs : Int)).natAbs * 1000000
  done (
    if !gnsOn s then s
    else if 100 * fs < dev && !s.gns.rateBad then gclkMark (report (s.gn fun g => { g with rateBad := true }) 0x0503)
    else if dev ≤ 50 * fs then gclkMark (s.gn fun g => { g with rateBad := false })
    else gclkMark s)

/-- The head of the front-end write queue goes out. -/
def spiStart (s : State) : State :=
  match s.gns.spi with
  | [] => s
  | o :: _ => s.emit (.spi o.ant o.addr o.data)

/-- Queue front-end writes; an idle interface starts at once. -/
def spiQueue (s : State) (l : List SpiOp) : State :=
  let idle := s.gns.spi.isEmpty
  let s := s.gn fun g => { g with spi := g.spi ++ l }
  if idle then spiStart s else s

/-- The initialisation writes of an antenna, then its gain code (R130; that GAIN_INIT is written last is DEDUCED,
notes/assumptions/19). -/
def spiInit (s : State) (a : Nat) : List SpiOp :=
  let g := s.gnsSec
  let before := ((List.range a).map fun i => u8 g (0xB4 + i)).foldl (· + ·) 0
  let init := (List.range (u8 g (0xB4 + a))).map fun i =>
    let o := 0x100 + 4 * (before + i)
    { ant := a, addr := u8 g o, data := u16 g (o + 1), back := bit (u8 g (o + 3)) 0, gain := false : SpiOp }
  init ++ if bit (u8 g 2) 3 && 0 < gnsCh s a then [⟨a, u8 g 0xB8, u8 g 0xBB, false, true⟩] else []

/-- The value of a sample on the three balls (R126): sign-magnitude, with 1 to 3 bits in use. -/
def sampleValue (bits raw : Nat) : Int :=
  let m : Nat := if bits = 3 then raw % 4 else if bits = 2 then raw / 2 % 2 else 0
  if bit raw 2 then -(2 * (m : Int) + 1) else 2 * (m : Int) + 1

/-- The occupancy in 0.1 % of a window in which each of the eight codes of the balls was captured so often (R129): the share at the outer
magnitude, with SAMPLE_BITS = 1 the share of negative samples. The share is rounded down (notes/assumptions/90). -/
def occupancyOf (bits : Nat) (hist : List Nat) : Nat :=
  let n (f : Int → Bool) : Nat := ((List.range 8).map fun r => if f (sampleValue bits r) then at_ hist r 0 else 0).sum
  let outer : Int := 2 ^ bits - 1
  1000 * (if bits = 1 then n (· < 0) else n fun v => v.natAbs = outer.natAbs) / max 1 (n fun _ => true)

/-- R126, R127, R129, R130: one 100 ms window of an antenna: how often each code of its I and Q balls stood at the rising and at the falling
edges of GCLK; the samples are those of the edge that GCLK_EDGE names. -/
def execOccupancyWindow (a : Nat) (rise fall : List Nat) (t : Nat) (s : State) : Host.Outcome State Fault Refusal :=
  let s := s.at t
  let g := s.gnsSec
  done (
    if !gnsRuns s || gnsCh s a = 0 then s
    else
      let occ := occupancyOf (u8 g (0x1C + a)) (if bit (u8 g 2) 0 then fall else rise)
      let s := s.wr (GNS_ANT_STS_OCC a) occ
      let inside : Bool := u16 g 0x20 ≤ occ && occ ≤ u16 g 0x22
      let out := if inside then 0 else at_ s.gns.out a 0 + 1
      let good := if inside then at_ s.gns.good a 0 + 1 else 0
      let was := at_ s.gns.occBad a false
      let bad : Bool := if was then good < 3 else 3 ≤ out
      let s := s.gn fun x => { x with out := put_ x.out a 0 (min out 3), good := put_ x.good a 0 (min good 3), occBad := put_ x.occBad a false bad }
      let s := if bad && !was then report s 0x0501 a a else s
      let s := antMarks s
      let s := acqTake s
      let code := s.rd (GNS_ANT_STS_GAIN a)
      let target := u16 g 0x24
      if !bit (u8 g 2) 3 then s
      else if occ + 20 < target && code < u8 g 0xBA then spiQueue s [⟨a, u8 g 0xB8, code + 1, false, true⟩]
      else if target + 20 < occ && u8 g 0xB9 < code then spiQueue s [⟨a, u8 g 0xB8, code - 1, false, true⟩]
      else s)

/-- R130: the front-end write on the wire completes; `data` is what a read-back brings. -/
def execFeSpiDone (data t : Nat) (s : State) : Host.Outcome State Fault Refusal :=
  let s := s.at t
  done (
    match s.gns.spi with
    | [] => s
    | o :: rest =>
      let s := s.gn fun g => { g with spi := rest }
      let s := if o.gain then s.wr (GNS_ANT_STS_GAIN o.ant) (o.data % 256) else s
      let s := if o.back && data ≠ o.data then
          antMarks (report (s.gn fun g => { g with spiBad := put_ g.spiBad o.ant false true }) 0x0504 o.ant o.ant)
        else s
      spiStart s)

/-! ### Start and stop (R89, R130, R161) -/

/-- A baseline that nothing is known of. -/
def baseNone : BaseSt := ⟨false, [], 0, [], [], []⟩

/-- Every channel acquires afresh, with LOCK_RESTART set (R139, R161): a GNSS restart, or the return from DOZE. -/
def gnsAfresh (s : State) : State :=
  (gnsChans s).foldl (fun s c => updCh (releaseCh s c) c fun x => { x with restart := true, clean := 0 }) (s.gn fun g => { g with acq := none })

/-- Cold start and restart of the group: every channel acquires afresh, the front-ends are initialised, the RTCM counts clear. -/
def gnsStart (s : State) : State :=
  if !gnsOn s then s
  else
    let s := gnsAfresh s
    let s := s.gn fun g => { g with
      acq := none, absent := [], spiBad := [], occBad := [], out := [], good := [], spi := [], epoch := none, jobs := [], wait := [],
      bases := (List.range 3).map fun _ => baseNone, att := { g.att with valid := false, fixed := 0 } }
    let s := s.wrs [(GNS_RTCM_STS_CRC_CNT, 0), (GNS_RTCM_STS_OTHER_CNT, 0)]
    let s := gclkMark (antMarks s)
    let s := spiQueue s ((List.range 4).flatMap (spiInit s))
    acqTake s

/-- The group stops: correlators, tracking, latch and jobs stop (R89). -/
def gnsStop (s : State) : State :=
  let s := loseAll s
  s.gn fun g => { g with epoch := none, jobs := [], wait := [], spi := [] }

/-! ### Tracking (R135 to R140) -/

/-- T_INT in milliseconds: T_COH until bit or secondary-code synchronisation, then the image value (R137). -/
def tInt (s : State) (x : GnsCh) : Nat := if x.sync then u8 s.gnsSec (0xC0 + 16 * (x.sig - 1) + 6) else tCoh x.sig

/-- A pilot is tracked (R131, R136). -/
def pilot (sig : Nat) : Bool := sig = 2 || sig = 3

/-- The PLL discriminator of a prompt, as a signed binary angle (R136): four-quadrant on pilots, two-quadrant on codes 1 and 4. -/
def pllDisc (sig : Nat) (i q : Int) : Int :=
  if pilot sig || 0 ≤ i then signed 32 (angleFix i q) else signed 32 (angleFix (-i) (-q))

/-- The FLL discriminator of two consecutive prompts in 2^−16 mHz (R136): cross product over dot product, over the interval in ms. -/
def fllDisc (ms : Nat) (p : Int × Int) (i q : Int) : Int :=
  let cross := p.1 * q - p.2 * i
  let dotp := p.1 * i + p.2 * q
  if dotp = 0 then 0 else cross * 65536000000 * 2 ^ 120 * dotp.sign / (dotp.natAbs * 2 * piFix * max 1 ms)

/-- A PLL discriminator above SLIP_DISC (R139). -/
def discSlip (s : State) (disc : Int) : Bool := lt32 (u32 s.gnsSec 0x50) (fofDy fmt32 disc.natAbs (-32))

/-- The lock indicator over the last 20 prompts is at least a limit (R138). -/
def pliAtLeast (l : List (Int × Int)) (lim : Nat) : Bool :=
  let i2 := l.foldl (fun a x => a + x.1 * x.1) (0 : Int)
  let q2 := l.foldl (fun a x => a + x.2 * x.2) (0 : Int)
  if i2 + q2 = 0 then false else le32 lim (fofRat fmt32 (i2 - q2) (i2 + q2).toNat)

/-- The greatest k below `n` with 10^k·q^100 ≤ p^100: ⌊100·log10(p/q)⌋, and 0 below 1. -/
def log100 (p q n : Nat) : Nat :=
  (List.range 16).foldl (fun k b => let c := k + 2 ^ (15 - b); if c < n ∧ 10 ^ c * q ^ 100 ≤ p ^ 100 then c else k) 0

/-- C/N0 in 0.1 dB-Hz from the narrowband-to-wideband power ratio over the last 50 updates of an interval in ms (R138). The estimator's form
is the usual one, on prompts whose data sign is taken away (notes/assumptions/91). -/
def cn0Of (ms : Nat) (l : List (Int × Int)) : Nat :=
  let l := l.map fun x => if x.1 < 0 then (-x.1, -x.2) else x
  let sum (f : Int × Int → Int) : Int := l.foldl (fun a x => a + f x) 0
  let wide := sum fun x => x.1 * x.1 + x.2 * x.2
  let narrow := sum (·.1) * sum (·.1) + sum (·.2) * sum (·.2)
  let p := 1000 * (narrow - wide)
  let q := max 1 ms * (l.length * wide - narrow)
  if p ≤ 0 then 0 else if q ≤ 0 then 1000 else log100 p.toNat q.toNat 1001

/-- The carrier filter of a channel over one interval (R136, R137): the FLL alone, both, or the PLL alone, at the orders and bandwidths of its
LOOPS entry. Gains are the usual ones of each order (notes/assumptions/91); frequencies in 2^−16 mHz. -/
def carrierStep (loop : List Byte) (ms : Nat) (fll pll : Bool) (f e : Int) (x : GnsCh) : GnsCh :=
  let w := u32 loop 0
  let bp : Int := w % 65536
  let bf : Int := w / 65536 % 256
  let k : Int := 65536000
  let t : Int := ms
  -- FLL: first order 4·B, second order ω = B/0.53
  let (av, vv) : Int × Int :=
    if !fll then (0, 0)
    else if bit w 30 then (t * bf * bf * 100 * f / (2809 * 1000), t * 1414 * bf * 10 * f / (53 * 1000 * 1000))
    else (0, t * 4 * bf * f / 10000)
  -- PLL: second order ω = B/0.53, third order ω = B/0.7845
  let (ap, vp, out) : Int × Int × Int :=
    if !pll then (0, 0, 0)
    else if bit w 31 then
      (k * t * (1000 * bp) ^ 3 * e / (7845 ^ 3 * 1000 * 2 ^ 32), k * t * 11 * (1000 * bp) ^ 2 * e / (10 * 7845 ^ 2 * 1000 * 2 ^ 32),
        k * 24 * 1000 * bp * e / (10 * 7845 * 2 ^ 32))
    else (0, k * t * 100 * bp ^ 2 * e / (2809 * 1000 * 2 ^ 32), k * 1414 * 10 * bp * e / (1000 * 53 * 2 ^ 32))
  let acc := x.acc + av + ap
  let vel := x.vel + vv + vp + acc * t / 1000
  { x with acc := acc, vel := vel, dop := vel + out }

/-- The code rate of the first-order, carrier-aided DLL from the early and late powers (R136), in 2^−32 chip/s: 4·B times half the normalised
early-minus-late power. -/
def codeRate (loop : List Byte) (ee ll : Nat) : Int :=
  if ee + ll = 0 then 0 else 2 ^ 32 * 2 * (u16 loop 4 : Int) * ((ee : Int) - ll) / (100 * (ee + ll))

/-- R135 to R140: one loop update of a channel, with the prompt sums I and Q of the interval and |E|², |L|², |VE|², |VL|². -/
def loopUpdateOp (c : Nat) (i q : Int) (ee ll ve vl t : Nat) (s : State) : State :=
  let s := s.at t
  let g := s.gnsSec
  (
    if !gnsRuns s || (s.gch c).sig = 0 || !gnsClocked s then s
    else
      let x := moveCh (s.gch c) s.tim.cnt
      let loop := slice g (0xC0 + 16 * (x.sig - 1)) 16
      let ms := tInt s x
      let prompts := ((i, q) :: x.prompts).take 50
      let cn0 := cn0Of ms prompts
      let up := if u16 g 0x44 ≤ cn0 then min (x.up + 1) 10 else 0
      let low := if cn0 < u16 g 0x46 then min (x.low + 1) 1000 else 0
      let code : Bool := if x.codeLock then low < u16 g 0x48 else 10 ≤ up
      if x.codeLock && !code then acqTake (releaseCh s c)
      else
        let disc := pllDisc x.sig i q
        let pli := prompts.take 20
        let lim := u32 g 0x4C
        let carr : Bool :=
          if x.carrLock then pliAtLeast pli (s32 lim (fofRat fmt32 1 10)) else pli.length = 20 && pliAtLeast pli lim
        let lost := x.carrLock && !carr
        let got := carr && !x.carrLock
        let f := match x.prompts with
          | p :: _ => fllDisc ms p i q
          | [] => 0
        let x' := carrierStep loop ms (!x.carrLock) (!x.pull) f disc x
        -- R135: the side-peak jump of a BOC replica
        let pp := (i * i + q * q).toNat
        let side := pilot x.sig && (pp < ve || pp < vl)
        let bj := if side then x.bj + 1 else 0
        let jump := side && u8 loop 10 ≤ bj
        let n := codeMod x.sig x.tow
        let moved := if ve < vl then (x.code + n - 2 ^ 31) % n else (x.code + 2 ^ 31) % n
        let s := updCh s c fun _ => { x' with
          cr := codeRate loop ee ll, prompts := prompts, cn0 := cn0, up := up, low := low, codeLock := code, carrLock := carr,
          bj := if jump then 0 else bj, code := if jump then moved else x.code, slip := x.slip || lost || discSlip s disc,
          lockAt := if got then some t else if lost then none else x.lockAt,
          half := x.half || (got && !pilot x.sig), inv := !got && x.inv }
        acqTake s)

/-- R137: the pull-in time of a channel ends, and the PLL joins the FLL. -/
def execPullInEnd (c t : Nat) (s : State) : Host.Outcome State Fault Refusal :=
  let s := s.at t
  done (if gnsRuns s && (s.gch c).sig ≠ 0 && (s.gch c).pullEnd ≤ s.tim.cnt then updCh s c fun x => { x with pull := false } else s)

/-- The entry is of the satellite and kind of another. -/
def NavEntry.same (x e : NavEntry) : Bool := x.sig = e.sig && x.prn = e.prn && x.alm = e.alm

/-- Put an entry into the store in the place of the one of its satellite and kind that stands as it does, in force or pending (R145). -/
def navPut (s : State) (e : NavEntry) : State :=
  s.gn fun g => { g with store := e :: g.store.filter fun x => !(x.same e && x.inForce = e.inForce) }

/-- The first cycle epoch after a decode (R145): a pending ephemeris takes effect in the place of the one in force. -/
def navEpoch (l : List NavEntry) : List NavEntry :=
  (l.filter fun x => !x.inForce || !(l.any fun y => y.same x && !y.inForce)).map fun x => { x with inForce := true }

/-- R137, R140, R145: a navigation word of a channel; one that fails its parity or CRC is discarded. -/
def execNavWordDecoded (c : Nat) (w : NavWord) (good : Bool) (t : Nat) (s : State) : Host.Outcome State Fault Refusal :=
  let s := s.at t
  let x := s.gch c
  done (
    if !gnsRuns s || x.sig = 0 || !good then s
    else
      match w with
      -- integration begins anew at the boundary (R137)
      | .sync => updCh s c fun x => { moveCh x s.tim.cnt with sync := true, prompts := [] }
      | .preamble inverted => if x.half then updCh s c fun x => { x with half := false, inv := inverted } else s
      | .tow sec ci => updCh s c fun x =>
        let y := moveCh x s.tim.cnt
        { y with tow := true, code := (sec % 604800 * 1023000 + ci % 1023000) * 2 ^ 32 + y.code % 2 ^ 32 }
      | .eph iod words =>
        -- a broadcast of equal issue of data confirms the entry in force; another waits for the next cycle epoch
        let same : Bool := s.gns.store.any fun e => e.sig = x.sig && e.prn = x.prn && !e.alm && e.iod = iod && e.inForce
        navPut s ⟨x.sig, x.prn, false, iod, words, true, same⟩
      | .alm prn iod words => navPut s ⟨x.sig, prn, true, iod, words, true, true⟩
      | .iono words => if x.sig = 1 then s.gn fun g => { g with iono := words } else s
      | .range words => if x.sig = 4 then updCh s c fun x => { x with range := words } else s)

/-- R145: every 300 s the store is written to NAND. -/
def execEphemerisSave (t : Nat) (s : State) : Host.Outcome State Fault Refusal :=
  let s := s.at t
  done (
    if gnsOn s && s.gns.saveAt ≤ s.tim.cnt then s.gn fun g => { g with nand := g.store, saveAt := s.tim.cnt + usTicks 300000000 } else s)

end Sys2Proof.Machine
end

