-- ==== Sys2Proof/Machine/Tim.lean ====
section
/-! DEFINITION. The time base (spec/10): servo, sources, time quality, PTP slave, PPS and the TCAP balls. -/

namespace Sys2Proof.Machine

open Sys2Proof

/-! ### Parameters of the TIME section (R67) that no register holds -/

/-- LOCK_THR in ns (R315). -/
def lockThr (s : State) : Nat := u32 (s.sec 10) 0x18
/-- HOLD_LIMIT in ns (R315). -/
def holdLimit (s : State) : Nat := u32 (s.sec 10) 0x1C
/-- clockIdentity (R322). -/
def clockId (s : State) : Nat := u64 (s.sec 10) 0x34

/-- A change of the time base's own state. -/
def State.tb (s : State) (f : TimSt → TimSt) : State := { s with tim := f s.tim }

/-- Change one source slot. -/
def updSrc (s : State) (i : Nat) (f : SrcSt → SrcSt) : State :=
  s.tb fun t => { t with srcs := t.srcs.mapIdx fun j x => if j = i then f x else x }

/-- One source slot. -/
def srcOf (s : State) (i : Nat) : SrcSt := s.tim.srcs.getD i ⟨0, none, none, none⟩

/-! ### Rate, anchor, quality (R305, R306, R315, R316) -/

/-- Load a new RATE at the present count: corrected time is continuous (R306). -/
def setRate (s : State) (rate : Int) : State :=
  s.tb fun t => { t with tA := corrAt t t.cnt, cntA := t.cnt, rate := signed 40 (unsigned 40 rate) }

/-- A rational p / q rounded to nearest, ties to even; used where the spec states a real result and a whole register
(notes/assumptions/8). -/
def ratRne (p : Int) (q : Nat) : Nat := (divRne p q).toNat

/-- The A and B of R316, each as a binary64 value in ns/s and ns/s². -/
def oscAB (s : State) : Nat × Nat :=
  match s.rd TIM_CFG_OSC_CLASS with
  | 0 => (fconv fmt32 fmt64 (u32 (s.sec 10) 0x20), fconv fmt32 fmt64 (u32 (s.sec 10) 0x24))
  | 1 => (fofInt fmt64 50, fofInt fmt64 1)
  | 2 => (fofInt fmt64 5, fofRat fmt64 1 100)
  | _ => (fofRat fmt64 1 2, fofRat fmt64 1 1000)

/-- The estimate of R316 in ns since entry of HOLDOVER or FREERUN, saturating at 0xFFFF_FFFE. -/
def holdEst (s : State) : Nat :=
  let dt := fofRat fmt64 (s.now - s.tim.e0At) Config.secUnit
  let (a, b) := oscAB s
  let lin := fmul fmt64 a dt
  let quad := fmul fmt64 (fmul fmt64 (fmul fmt64 (fofRat fmt64 1 2) b) dt) dt
  let sum := fadd fmt64 (fadd fmt64 (fofInt fmt64 s.tim.e0) lin) quad
  match frne fmt64 sum with
  | some v => min v.toNat 0xFFFFFFFE
  | none => 0xFFFFFFFE

/-- EST_ERR as it reads (R315): unknown in UNSET and under R308; in ACQUIRING and LOCKED the largest recent |θ| plus SRC_ACC. -/
def estErr (s : State) : Nat :=
  match s.rd TIM_QUAL_STATE with
  | 0 => 0xFFFFFFFF
  | 1 | 2 =>
    let m := s.tim.recent.foldl max 0
    let acc := s.rd (TIM_SRC_ACC_SRC_ACC (s.rd TIM_STATUS_SEL_SLOT))
    min ((m + 65535) / 65536 + acc) 0xFFFFFFFE
  | _ => if s.tim.unknown then 0xFFFFFFFF else holdEst s

/-- Enter FREERUN (R315). -/
def enterFreerun (s : State) : State := report (s.wr TIM_QUAL_STATE 4) 0x0604

/-- Enter HOLDOVER anew with E_0; above HOLD_LIMIT the state is FREERUN at once (R315 to R318). -/
def enterHoldover (s : State) (e0 : Nat) : State :=
  let s := s.tb fun t => { t with e0 := e0, e0At := corrAt t t.cnt, unknown := false }
  let s := report (s.wr TIM_QUAL_STATE 3) 0x0603
  if holdLimit s ≠ 0 ∧ e0 > holdLimit s then enterFreerun s else s

/-- HOLDOVER on losing the last source, from ACQUIRING or LOCKED (R315); RATE falls back to the integrator (R312). While a step is armed,
HOLDOVER follows the step (R329). -/
def noSource (s : State) : State :=
  let integ := match frne fmt64 (fmul fmt64 s.tim.integ (fofInt fmt64 (2 ^ 48))) with
    | some v => v
    | none => 0
  let e := estErr s
  let st := s.rd TIM_QUAL_STATE
  let s := setRate s integ
  let s := s.wr TIM_STATUS_SEL_VALID 0
  if (st = 1 ∨ st = 2) ∧ s.tim.step = none then enterHoldover s e else s

/-! ### Source selection (R310) -/

/-- The source slot with a code, among the slots in use. -/
def slotOfKind (s : State) (kind : Nat) : Option Nat :=
  (List.range 4).find? fun i => s.rd (TIM_SRC_CFG_KIND i) = kind

/-- The qualified slot with the lowest number. -/
def lowestQualified (s : State) : Option Nat :=
  (List.range 4).find? fun i => s.flag (TIM_SRC_CFG_QUALIFIED i)

/-- Make a slot the selected source; a change between two sources is a switch (R310). -/
def selectSrc (s : State) (i : Nat) : State :=
  let had := s.flag TIM_STATUS_SEL_VALID
  let old := s.rd TIM_STATUS_SEL_SLOT
  let s := s.wrs [(TIM_STATUS_SEL_VALID, 1), (TIM_STATUS_SEL_SLOT, i)]
  if had && old ≠ i then report s 0x0605 0 i else s

/-- Choose the selected source after a change of qualification (R310): the lowest qualified slot at once, but a lower slot waits
REVERT_S while a higher one is selected and still qualified. -/
def reselect (s : State) : State :=
  match lowestQualified s with
  | none => if s.flag TIM_STATUS_SEL_VALID then noSource s else s
  | some i =>
    let cur := s.rd TIM_STATUS_SEL_SLOT
    if s.flag TIM_STATUS_SEL_VALID && s.flag (TIM_SRC_CFG_QUALIFIED cur) && i < cur && s.rd (TIM_SRC_CFG_REVERT_S i) ≠ 0 then s
    else if s.flag TIM_STATUS_SEL_VALID && cur = i then s
    else selectSrc s i

/-- The next PTP exchange is the first after qualification starts (R324). -/
def freshDelay (s : State) (i : Nat) : State :=
  if s.rd (TIM_SRC_CFG_KIND i) = 2 then s.tb fun t => { t with ptp := { t.ptp with mpdF := none } } else s

/-- End a source's qualification (R310). -/
def unqualify (s : State) (i : Nat) : State :=
  let was := s.flag (TIM_SRC_CFG_QUALIFIED i)
  let s := freshDelay (updSrc s i fun x => { x with consec := 0, qualSince := none }) i
  if was then reselect (report (s.wr (TIM_SRC_CFG_QUALIFIED i) 0) 0x0606 0 i) else s

/-- An offset that is counted and used for nothing. -/
def discardOffset (s : State) (i : Nat) : State := s.incSat (TIM_SRC_CNT_DISCARD i) 0xFFFF

/-- An offset that is not valid: the consecutive valid offsets of R310 count anew. -/
def breakRun (s : State) (i : Nat) : State :=
  let s := updSrc s i fun x => { x with consec := 0 }
  if s.flag (TIM_SRC_CFG_QUALIFIED i) then s else freshDelay s i

/-! ### The servo (R311 to R315) -/

/-- Nanoseconds-per-second parts (ppb) as a binary64 ratio. -/
def ppb64 (n : Nat) : Nat := fofRat fmt64 n 1000000000

/-- One servo update with offset `th` (2^−16 ns) of slot `i` (R311): binary64, nearest even. -/
def servoUpdate (s : State) (i : Nat) (th : Int) : State :=
  let theta := fofRat fmt64 th Config.secUnit
  let dt := match (srcOf s i).lastUpd with
    | some t0 => fofRat fmt64 (s.now - t0) Config.secUnit
    | none => 0
  let kp := fconv fmt32 fmt64 (s.rd TIM_KP_VALUE)
  let ki := fconv fmt32 fmt64 (s.rd TIM_KI_VALUE)
  let slew := ppb64 (s.rd TIM_SLEW_MAX_VALUE)
  let lim := ppb64 (s.rd TIM_RATE_LIM_VALUE)
  let p := fmul fmt64 kp theta
  let clamped := flt fmt64 slew (fabs fmt64 p)
  let neg (x : Nat) : Bool := x / 2 ^ 63 % 2 = 1
  let p := if clamped then (if neg p then fneg fmt64 slew else slew) else p
  let integ := if clamped then s.tim.integ
    else fadd fmt64 s.tim.integ (fmul fmt64 (fmul fmt64 ki theta) dt)
  let tooFar := flt fmt64 lim (fabs fmt64 integ)
  let integ := if tooFar then (if neg integ then fneg fmt64 lim else lim) else integ
  let rate := match frne fmt64 (fmul fmt64 (fadd fmt64 integ p) (fofInt fmt64 (2 ^ 48))) with
    | some v => v
    | none => 0
  let s := if tooFar then report s 0x0607 else s
  let s := s.tb fun t => { t with integ := integ }
  let s := setRate s rate
  let s := updSrc s i fun x => { x with lastUpd := some s.now }
  -- time quality (R315)
  let n := s.rd TIM_CFG_LOCK_N
  let s := s.tb fun t => { t with recent := (th.natAbs :: t.recent).take n }
  let thr := lockThr s * 65536
  let st := s.rd TIM_QUAL_STATE
  if s.tim.recent.length = n ∧ s.tim.recent.all (· ≤ thr) ∧ st ≠ 2 then report (s.wr TIM_QUAL_STATE 2) 0x0602
  else if s.tim.recent.length = n ∧ s.tim.recent.all (· > thr) ∧ st = 2 then s.wr TIM_QUAL_STATE 1
  else s

/-- Arm a step (R313, R317). The step that R308 asks of the next valid offset is one of an offset. -/
def armStep (s : State) (th : Int) (host : Option Nat) : State :=
  (s.tb fun t => { t with step := some ⟨th, host⟩, forceStep := t.forceStep && host.isSome }).wr TIM_STATUS_STEP_ARMED 1

/-- A valid offset `raw` (2^−16 ns, before the slot's DLY) of slot `i` (R309 to R313). -/
def sourceOffset (s : State) (i : Nat) (raw : Int) : State :=
  let th := raw - signed 16 (s.rd (TIM_SRC_ACC_DLY i)) * 65536
  if s.rd (TIM_SRC_CFG_KIND i) = 0 then s
  else if s.flag TIM_QUAL_CLK_FAULT then s
  else if s.flag TIM_STATUS_STEP_ARMED then discardOffset s i
  else
    let ns := divRne th 65536
    let sat := max (-(2 ^ 31 - 1)) (min (2 ^ 31 - 1) ns)
    let s := (s.wr (TIM_SRC_OFS_THETA i) (unsigned 32 sat)).incWrap (TIM_SRC_CNT_VALID_CNT i)
    let s := updSrc s i fun x => { x with consec := x.consec + 1, lastValid := some s.tim.cnt }
    let newly := !s.flag (TIM_SRC_CFG_QUALIFIED i) && s.rd TIM_CFG_QUAL_N ≤ (srcOf s i).consec
    let s := if newly then
        reselect (updSrc (s.wr (TIM_SRC_CFG_QUALIFIED i) 1) i fun x => { x with qualSince := some s.tim.cnt })
      else s
    if s.flag TIM_STATUS_SEL_VALID && s.rd TIM_STATUS_SEL_SLOT = i then
      if s.tim.forceStep || s.rd TIM_QUAL_STATE = 0 || th.natAbs ≥ s.rd TIM_STEP_THR_VALUE * 65536 then armStep s th none
      else servoUpdate s i th
    else s

/-- R311: a valid offset of a time source. -/
def execSourceOffset (slot : Nat) (theta : Int) (t : Nat) (s : State) : Host.Outcome State Fault Refusal :=
  done (sourceOffset (s.at t) slot theta)

/-- R310: no valid offset for LOSS_T ends the qualification. -/
def execSourceLossTimeout (slot t : Nat) (s : State) : Host.Outcome State Fault Refusal :=
  let s := s.at t
  let late : Bool := match (srcOf s slot).lastValid with
    | some l => usTicks (1000 * s.rd (TIM_SRC_CFG_LOSS_T slot)) ≤ s.tim.cnt - l
    | none => true
  done (if late then unqualify s slot else s)

/-- R310: a lower slot has stayed qualified for REVERT_S. -/
def execSourceRevert (slot t : Nat) (s : State) : Host.Outcome State Fault Refusal :=
  let s := s.at t
  let stays : Bool := match (srcOf s slot).qualSince with
    | some q => usTicks (1000000 * s.rd (TIM_SRC_CFG_REVERT_S slot)) ≤ s.tim.cnt - q
    | none => false
  done (if stays && s.flag TIM_STATUS_SEL_VALID && slot < s.rd TIM_STATUS_SEL_SLOT then selectSrc s slot else s)

/-- The whole second at or before a corrected time. -/
def secOf (x : Int) : Int := x / Config.secUnit

/-- PPS_OUT emits pulses: PPS_WIDTH is not 0 and STATE does not read UNSET (R325). -/
def ppsActive (s : State) : Bool := s.rd TIM_PPS_CFG_PPS_WIDTH ≠ 0 && s.rd TIM_QUAL_STATE ≠ 0

/-- PPS_ADV in 2^−16 ns. -/
def ppsAdv (s : State) : Int := s.rd TIM_PPS_CFG_PPS_ADV * 65536

/-- R313: the armed step at the first tick that reaches the next whole second S. A pulse of S that has not risen is suppressed; the next
one is for the first second from S + 1 on that the stepped time has still to reach. The T0 chain then walks under R20. -/
def timeStep (s : State) : State :=
  match s.tim.step with
  | none => s
  | some st =>
    let sec := secOf s.now
    let supp := ppsActive s && s.tim.ppsMin ≤ sec && s.tim.ppsLast ≠ some sec
    let next := secOf (s.now + st.theta + ppsAdv s - 1) + 1
    let e := st.host
    let s := s.tb fun t => { t with
      stepCntA := t.cntA, stepTA := t.tA, stepRate := t.rate, stepAt := t.cnt, tA := t.tA + st.theta, step := none,
      ppsMin := max (sec + 1) next }
    let s := (s.wr TIM_STATUS_STEP_ARMED 0).wr TIM_QUAL_STEPPED 1
    let s := report s 0x0601
    let s := if supp then
        report ((s.tb fun t => { t with suppr := sec.toNat }).wrs [(TIM_PPS_STS_SUPPRESSED, 1), (TIM_PPS_STS_SEC, (sec % 2 ^ 31).toNat)]) 0x0608
      else s
    match e with
    | some e0 => enterHoldover s e0
    | none =>
      let s := s.wr TIM_QUAL_STATE 1
      if s.flag TIM_STATUS_SEL_VALID then s else enterHoldover s (estErr s)

/-- R315: EST_ERR in HOLDOVER exceeds HOLD_LIMIT. -/
def execHoldoverLimit (t : Nat) (s : State) : Host.Outcome State Fault Refusal :=
  let s := s.at t
  done (if s.rd TIM_QUAL_STATE = 3 ∧ holdLimit s ≠ 0 ∧ estErr s > holdLimit s then enterFreerun s else s)

/-- The whole second of the pulse that rises at the present instant (R325): the next second at or after now less PPS_ADV. -/
def ppsSecond (s : State) : Int := secOf (s.now + ppsAdv s)

/-- R325: PPS_OUT rises once for each whole second, unless that second is suppressed or past. Mode 3 triggers follow their own
command (R327). -/
def execPpsOutPulse (t : Nat) (s : State) : Host.Outcome State Fault Refusal :=
  let s := s.at t
  let sec := ppsSecond s
  done (
    if ppsActive s && s.tim.ppsMin ≤ sec && s.tim.ppsLast ≠ some sec then
      s.tb fun b => { b with ppsLast := some sec, ppsHigh := some (b.cnt + usTicks (8 * s.rd TIM_PPS_CFG_PPS_WIDTH)) }
    else s)

/-- R325: PPS_OUT falls PPS_WIDTH after its rise. -/
def execPpsWidthEnd (t : Nat) (s : State) : Host.Outcome State Fault Refusal :=
  let s := s.at t
  done (match s.tim.ppsHigh with
    | some u => if u ≤ s.tim.cnt then s.tb fun b => { b with ppsHigh := none } else s
    | none => s)

/-- R317: a write of TIM_CTRL.SET. -/
def timSet (s : State) : State :=
  let st := s.rd TIM_QUAL_STATE
  if (st = 0 ∨ st = 3 ∨ st = 4) ∧ s.tim.step = none ∧ !s.flag TIM_QUAL_CLK_FAULT then
    let v := wordsTime (s.rd (TIM_SET_VALUE 0)) (s.rd (TIM_SET_VALUE 1)) (s.rd (TIM_SET_VALUE 2))
    armStep s (v - s.now) (some (s.rd TIM_SET_ERR_VALUE))
  else refuse s 0x060B

/-- R317. -/
def execTimSet (p : Path) (t : Nat) (s : State) : Host.Outcome State Fault Refusal :=
  done (hostDo (s.at t) p 0x200004 1 timSet)

/-- R307: a read of TIM_NOW_NS answers the nanoseconds and latches the seconds and the high word. -/
def timNowRead (s : State) (p : Path) : State :=
  let (w0, w1, w2) := timeWords s.now
  (latchWord (latchWord s p 0x20001C w1) p 0x200020 w2).emit (.read p w0)

/-- R307. -/
def execTimNowRead (p : Path) (t : Nat) (s : State) : Host.Outcome State Fault Refusal :=
  done (hostRd (s.at t) p 0x200018 fun s => timNowRead s p)

/-- R320: a read of TIM_CONV_CNT_LO answers the low word of the count that would read the written time under the anchor of the
read, and latches the high word. -/
def timConvRead (s : State) (p : Path) : State :=
  let x := wordsTime (s.rd (TIM_CONV_TIME_VALUE 0)) (s.rd (TIM_CONV_TIME_VALUE 1)) (s.rd (TIM_CONV_TIME_VALUE 2))
  let c := unsigned 64 (cntOf s.tim x)
  (latchWord s p 0x200084 (c / 2 ^ 32)).emit (.read p (c % 2 ^ 32))

/-- R320. -/
def execTimConvRead (p : Path) (t : Nat) (s : State) : Host.Outcome State Fault Refusal :=
  done (hostRd (s.at t) p 0x200080 fun s => timConvRead s p)

/-! ### PPS_IN (R326) -/

/-- R326: an edge of PPS_IN captured at `t` (CNT, filter already taken off) whose pulse lasts `dur` ns. -/
def execPpsInEdge (t dur : Nat) (s : State) : Host.Outcome State Fault Refusal :=
  let s := s.at t
  done (match slotOfKind s 4 with
    | none => s
    | some i =>
      let okWidth := s.rd TIM_PPSIN_CFG_WMIN * 100 ≤ dur ∧ dur ≤ s.rd TIM_PPSIN_CFG_WMAX * 250000
      let okGap : Bool := match s.tim.ppsInLast with
        | none => true
        | some l => 999000000 ≤ 4 * (t - l) && 4 * (t - l) ≤ 1001000000
      if okWidth ∧ okGap then
        let s := s.tb fun b => { b with ppsInLast := some t, ppsInRun := false }
        let tc := corrCap s.tim t
        let th := divRne tc Config.secUnit * Config.secUnit - tc
        if s.rd TIM_QUAL_STATE ≠ 0 ∧ th.natAbs * 10 < 4 * Config.secUnit then sourceOffset s i th
        else breakRun (discardOffset s i) i
      else
        let s := breakRun (discardOffset s i) i
        if s.tim.ppsInRun then s else report (s.tb fun b => { b with ppsInRun := true }) 0x0609)

/-! ### Capture and trigger balls (R327, R328) -/

/-- Change one TCAP ball. -/
def updTcap (s : State) (b : Nat) (f : TcapSt → TcapSt) : State :=
  s.tb fun t => { t with tcap := t.tcap.mapIdx fun j x => if j = b then f x else x }

/-- One TCAP ball. -/
def tcapOf (s : State) (b : Nat) : TcapSt := s.tim.tcap.getD b ⟨[], false, false, none, false, none⟩

/-- R327, mode 1: an edge selected by EDGE enters the FIFO, or is discarded when it is full. -/
def execTcapCapture (b : Nat) (rising : Bool) (t : Nat) (s : State) : Host.Outcome State Fault Refusal :=
  let s := s.at t
  done (
    if s.rd (TIM_TCAP_CFG_MODE b) = 1 ∧ bit (s.rd (TIM_TCAP_CFG_EDGE b)) (if rising then 0 else 1) then
      let x := tcapOf s b
      if x.fifo.length < 4 then
        (updTcap s b fun x => { x with fifo := x.fifo ++ [(t, rising)], lostRun := false }).wr (TIM_TCAP_STS_EMPTY b) 0
      else
        let s := s.incSat (TIM_TCAP_STS_CAP_LOST b) 255
        if x.lostRun then s else report (updTcap s b fun x => { x with lostRun := true }) 0x060D b
    else s)

/-- The signed distance of a 40-bit target from the present count (R319). -/
def targetDist (s : State) (target : Nat) : Int := signed 40 (unsigned 40 ((target : Int) - s.tim.cnt))

/-- R327: the target of a trigger ball, as a 40-bit count. -/
def tcapTarget (s : State) (b : Nat) : Nat := s.rd (TIM_TCAP_TGT_LO_TGT b) + 2 ^ 32 * s.rd (TIM_TCAP_TGT_HI_TGT b)

/-- R327: a trigger pulse. Mode 2 fires when its target is reached; with PERIOD it advances, else it is one-shot. Mode 3 fires at
each corrected second plus PHASE_NS, suppressed with PPS_OUT at a step. -/
def execTcapTrigger (b t : Nat) (s : State) : Host.Outcome State Fault Refusal :=
  let s := s.at t
  let pulse (s : State) : State :=
    updTcap s b fun x => { x with highUntil := some (s.tim.cnt + s.rd (TIM_TCAP_CFG_WIDTH b)) }
  done (
    match s.rd (TIM_TCAP_CFG_MODE b) with
    | 2 =>
      if (tcapOf s b).armed ∧ targetDist s (tcapTarget s b) ≤ 0 then
        let s := pulse s
        let per := s.rd (TIM_TCAP_PERIOD_PERIOD b)
        if per = 0 then updTcap s b fun x => { x with armed := false }
        else
          let n := (tcapTarget s b + per) % 2 ^ 40
          s.wrs [(TIM_TCAP_TGT_LO_TGT b, n), (TIM_TCAP_TGT_HI_TGT b, n / 2 ^ 32)]
      else s
    | 3 =>
      let sec := secOf (s.now - s.rd (TIM_TCAP_PHASE_PHASE_NS b) * 65536)
      if s.rd (TIM_TCAP_CFG_WIDTH b) ≠ 0 ∧ s.rd TIM_QUAL_STATE ≠ 0 ∧ s.tim.ppsMin ≤ sec ∧ (tcapOf s b).lastSec ≠ some sec then
        updTcap (pulse s) b fun x => { x with lastSec := some sec }
      else s
    | _ => s)

/-- R327: a write of TIM_TCAPb_TGT_HI arms a count target; a late one gives its pulse at once, LATE and TRIG_LATE. A ball whose
WIDTH is 0 is refused. -/
def tcapArm (s : State) (b v : Nat) : State :=
  if s.rd (TIM_TCAP_CFG_MODE b) ≠ 2 then s.wr (TIM_TCAP_TGT_HI_TGT b) v
  else if s.rd (TIM_TCAP_CFG_WIDTH b) = 0 then refuse s 0x060B b
  else
    let s := updTcap (s.wr (TIM_TCAP_TGT_HI_TGT b) v) b fun x => { x with armed := true }
    if targetDist s (tcapTarget s b) ≤ 0 then report (s.wr (TIM_TCAP_STS_LATE b) 1) 0x060C b else s

/-- R327. -/
def execTcapArm (p : Path) (b v t : Nat) (s : State) : Host.Outcome State Fault Refusal :=
  done (hostDo (s.at t) p (0x200208 + b * 0x20) v fun s => tcapArm s b v)

/-- R328: a read of TIM_TCAPb_CAP_LO pops the oldest capture and latches its high word; an empty FIFO reads 0. -/
def tcapRead (s : State) (p : Path) (b : Nat) : State :=
  match (tcapOf s b).fifo with
  | [] => (latchWord s p (0x20021C + b * 0x20) 0).emit (.read p 0)
  | (c, r) :: rest =>
    let s := (updTcap s b fun x => { x with fifo := rest }).wrb (TIM_TCAP_STS_EMPTY b) rest.isEmpty
    (latchWord s p (0x20021C + b * 0x20) (c / 2 ^ 32 % 2 ^ 31 + 2 ^ 31 * b2n r)).emit (.read p (c % 2 ^ 32))

/-- R328. -/
def execTcapCapRead (p : Path) (b t : Nat) (s : State) : Host.Outcome State Fault Refusal :=
  done (hostRd (s.at t) p (0x200218 + b * 0x20) fun s => tcapRead s p b)

/-! ### The PTP slave (R322 to R324) -/

/-- Change the PTP slave. -/
def State.ptp (s : State) (f : PtpSt → PtpSt) : State := s.tb fun t => { t with ptp := f t.ptp }

/-- The message is of this version and domain (R322). -/
def ptpMine (s : State) (h : PtpHdr) : Bool := h.version % 16 = 2 && h.domain = s.rd TIM_PTP_CFG_DOMAIN

/-- A PTP message reaches the slave: the time port must run (R83, R89); one of another version or domain is discarded and counted (R322). -/
def ptpTake (s : State) (h : PtpHdr) (f : State → State) : State :=
  if !netOn s (s.rd TIM_CFG_TIME_PORT) then s
  else if !ptpMine s h then s.incSat TIM_PTP_CNT_IGNORED 0xFFFF
  else f s

/-- A foreign master counts once two Announces have come within four announce intervals (the standard's Announce rules, R323); one of the
device's own clock never does. -/
def qualifiedForeign (s : State) (f : ForeignSt) : Bool :=
  let span := if 0 ≤ f.logInt then 4 * 250000000 * 2 ^ f.logInt.toNat else 4 * 250000000 / 2 ^ (-f.logInt).toNat
  2 ≤ (f.times.filter fun t => s.tim.cnt - t ≤ span).length && f.data.steps < 255 && f.clock ≠ clockId s

/-- Lexicographic order. -/
def lexLt : List Nat → List Nat → Bool
  | [], [] => false
  | [], _ :: _ => true
  | _ :: _, [] => false
  | a :: r, b :: q => a < b || (a = b && lexLt r q)

/-- The grandmaster's attributes, smaller is better. -/
def gmKey (f : ForeignSt) : List Nat := [f.data.prio1, f.data.cls, f.data.accuracy, f.data.variance, f.data.prio2, f.data.gmId]

/-- The data set comparison (R323, IEEE 1588-2019; notes/assumptions/43): two of one grandmaster by steps removed and then the sender,
others by the grandmaster's attributes. -/
def betterMaster (f g : ForeignSt) : Bool :=
  if f.data.gmId = g.data.gmId then lexLt [f.data.steps, f.clock, f.port] [g.data.steps, g.clock, g.port] else lexLt (gmKey f) (gmKey g)

/-- The best qualified foreign master. -/
def bestMaster (s : State) : Option ForeignSt :=
  (s.tim.ptp.foreign.filter (qualifiedForeign s)).foldl (fun a f =>
    match a with
    | none => some f
    | some g => if betterMaster f g then some f else a) none

/-- Select the master (R323): a change is reported and ends the PTP source's qualification. -/
def ptpSelect (s : State) : State :=
  let best := bestMaster s
  let new := best.map fun f => (f.clock, f.port)
  if new = s.tim.ptp.sel then s
  else
    let s := s.ptp fun x => { x with sel := new, sync := none, dreq := none, mpdF := none }
    let s := match new with
      | some (c, _) => s.wrs [(TIM_PTP_STS_MASTER_VALID, 1), (TIM_PTP_MASTER_LO_CLOCK_ID, c), (TIM_PTP_MASTER_HI_CLOCK_ID, c / 2 ^ 32)]
      | none => s.wr TIM_PTP_STS_MASTER_VALID 0
    let s := report s 0x060E
    match slotOfKind s 2 with
    | some i => unqualify s i
    | none => s

/-- TIM_UTC from the selected master's Announce (R324). -/
def ptpUtc (s : State) (f : ForeignSt) : State :=
  match f.utc with
  | some (off, l61, l59) =>
    if s.tim.ptp.sel = some (f.clock, f.port) then
      s.wrs [(TIM_UTC_VALID, 1), (TIM_UTC_SRC, 2), (TIM_UTC_LEAP61, b2n l61), (TIM_UTC_LEAP59, b2n l59), (TIM_UTC_TAI_UTC, off)]
    else s
  | none => s

/-- R323: an Announce; `utc` holds currentUtcOffset and the leap flags when currentUtcOffsetValid is marked. -/
def execPtpAnnounce (h : PtpHdr) (d : PtpData) (utc : Option (Nat × Bool × Bool)) (t : Nat) (s : State) :
    Host.Outcome State Fault Refusal :=
  done (ptpTake (s.at t) h fun s =>
      let old := s.tim.ptp.foreign.find? fun f => f.clock = h.clock ∧ f.port = h.port
      let times := match old with
        | some f => (t :: f.times).take 4
        | none => [t]
      let f : ForeignSt := ⟨h.clock, h.port, d, times, h.logInt, utc⟩
      let s := s.ptp fun x => { x with foreign := f :: x.foreign.filter fun g => ¬(g.clock = h.clock ∧ g.port = h.port) }
      ptpUtc (ptpSelect s) f)

/-- R323: no Announce for ANNOUNCE_TO intervals removes a foreign master. -/
def execPtpAnnounceTimeout (clock port t : Nat) (s : State) : Host.Outcome State Fault Refusal :=
  let s := s.at t
  let gone (f : ForeignSt) : Bool :=
    let iv := if 0 ≤ f.logInt then 250000000 * 2 ^ f.logInt.toNat else 250000000 / 2 ^ (-f.logInt).toNat
    f.clock = clock && f.port = port && s.rd TIM_PTP_CFG_ANNOUNCE_TO * iv ≤ s.tim.cnt - f.times.headD 0
  done (ptpSelect (s.ptp fun x => { x with foreign := x.foreign.filter fun f => !gone f }))

/-- The message comes from the selected master. -/
def fromMaster (s : State) (h : PtpHdr) : Bool := s.tim.ptp.sel = some (h.clock, h.port)

/-- Send a Delay_Req when 2^logMinDelayReqInterval has passed since the last (R323). -/
def sendDelayReq (s : State) : State :=
  let x := s.tim.ptp
  let iv := if 0 ≤ x.dreqLog then 250000000 * 2 ^ x.dreqLog.toNat else 250000000 / 2 ^ (-x.dreqLog).toNat
  let due : Bool := match x.dreq with
    | some d => iv ≤ s.tim.cnt - d.sentAt
    | none => true
  if due then
    let p := s.rd TIM_CFG_TIME_PORT
    netHand (s.ptp fun y => { y with dreq := some ⟨y.nextSeq, s.tim.cnt, none⟩, nextSeq := (y.nextSeq + 1) % 65536 }) p 7
      ⟨delayReqFrame s p x.nextSeq, none, none, none, false, some x.nextSeq⟩
  else s

/-- R324: a Sync; `t1` is its originTimestamp when it is one-step (2^−16 ns), `t2` the count captured at its
start of frame (R321). -/
def execPtpSync (h : PtpHdr) (t1 : Option Int) (t2 : Nat) (t : Nat) (s : State) : Host.Outcome State Fault Refusal :=
  done (ptpTake (s.at t) h fun s =>
    if !fromMaster s h then s
    else
      let s := s.wr TIM_PTP_STS_LOG_SYNC (unsigned 8 h.logInt)
      let s := s.ptp fun x => { x with sync := some (h.seq, t1, h.corr, ingressTime s (s.rd TIM_CFG_TIME_PORT) t2) }
      if t1.isSome then sendDelayReq s else s)

/-- R323: a Follow_Up completes a two-step Sync with its preciseOriginTimestamp and its own correction. -/
def execPtpFollowUp (h : PtpHdr) (t1 : Int) (t : Nat) (s : State) : Host.Outcome State Fault Refusal :=
  done (ptpTake (s.at t) h fun s =>
    match fromMaster s h, s.tim.ptp.sync with
      | true, some (seq, none, c, t2) =>
        if seq = h.seq then sendDelayReq (s.ptp fun x => { x with sync := some (seq, some t1, c + h.corr, t2) }) else s
      | _, _ => s)

/-- An exchange whose delay is out of bounds: discarded and counted; the offset is not valid (R324). -/
def badDelay (s : State) : State :=
  let s := s.incSat TIM_PTP_CNT_BAD_DELAY 0xFFFF
  match slotOfKind s 2 with
  | some i => breakRun s i
  | none => s

/-- R324: a Delay_Resp to request `h.seq` with receiveTimestamp `t4`; `mine` says that it answers this device's port. -/
def execPtpDelayResp (h : PtpHdr) (t4 : Int) (mine : Bool) (t : Nat) (s : State) : Host.Outcome State Fault Refusal :=
  done (ptpTake (s.at t) h fun s =>
    match fromMaster s h && mine, s.tim.ptp.sync, s.tim.ptp.dreq with
      | true, some (_, some t1, cs, t2), some ⟨seq, _, some t3⟩ =>
        if seq ≠ h.seq then s
        else
          let s := s.ptp fun x => { x with dreqLog := h.logInt }
          let mpd := ((t2 - t1 - cs) + (t4 - t3 - h.corr)) / 2
          if mpd < 0 ∨ mpd > s.rd TIM_PTP_CFG_MPD_MAX * 10 * 65536 then badDelay s
          else
            let f := match s.tim.ptp.mpdF with
              | none => mpd
              | some f => f + (mpd - f) / 16
            let s := (s.ptp fun x => { x with mpdF := some f, sync := none }).wr TIM_PTP_MPD_MPD_F (divRne f 65536).toNat
            match slotOfKind s 2 with
            | some i => sourceOffset s i (t1 + cs + f - t2)
            | none => s
      | _, _, _ => s)

/-- R308: the reference of the time base has failed: FREERUN with EST_ERR unknown; an armed step is discarded (R329). -/
def timRefLoss (s : State) : State :=
  let s := s.tb fun t => { t with step := none, unknown := true }
  let s := if s.rd TIM_QUAL_STATE ≠ 4 then enterFreerun s else s
  report ((s.wrs [(TIM_QUAL_CLK_FAULT, 1), (TIM_STATUS_STEP_ARMED, 0)]).wr TIM_QUAL_STATE 4) 0x060A

/-- R308: the reference is back and PLL-T has relocked: the next valid offset is a step. -/
def timRefBack (s : State) : State :=
  if s.flag TIM_QUAL_CLK_FAULT then (s.tb fun t => { t with forceStep := true }).wr TIM_QUAL_CLK_FAULT 0 else s

end Sys2Proof.Machine
end

