-- ==== Sys2Proof/Machine/Gnss.lean ====
section
/-! DEFINITION. GNSS epochs, solutions on lanes and differential corrections (R139, R141 to R161 of spec/04). -/

namespace Sys2Proof.Machine

open Sys2Proof

/-! ### Epochs (R139, R141 to R143) -/

/-- LOCK_MS of a channel at a count (R139). -/
def lockMs (x : GnsCh) (t : Nat) : Nat :=
  match x.lockAt with
  | some a => min ((t - a) / 250000) 0xFFFFFFFF
  | none => 0

/-- A channel after an epoch (R139). -/
def epochCh (x : GnsCh) (t : Nat) : GnsCh :=
  if x.slip then
    { x with slips := (x.slips + 1) % 65536, restart := true, clean := 0, slip := false, lockAt := if x.carrLock then some t else none }
  else if x.codeLock && x.carrLock then
    let n := min (x.clean + 1) 4
    { x with clean := n, restart := x.restart && n < 4 }
  else { x with clean := 0 }

/-- The instant error of a latch, the same for every channel: within 2 ns, free (R142). -/
def latchErr (n k : Nat) : Int := Config.gnss 14 [n, k] [] % 262145 - 131072

/-- The replica of a channel extrapolated to the instant of an epoch (R142). -/
def atEpoch (s : State) (te : Int) (x : GnsCh) : GnsCh := moveCh x (cntOf s.tim te)

/-- The accumulated phase of a channel in 2^−16 cycle, of the sign of the pseudorange, without the half cycle of R140 (R143). -/
def phaseOf (x : GnsCh) : Int := -(x.car / 65536)

/-- What a channel measures at an epoch (R142, R143); before TOW_KNOWN the transmit second is not known. -/
def measOf (c : Nat) (x : GnsCh) : GnsMeas :=
  ⟨c, x.code / (1023000 * 2 ^ 32), x.code / 2 ^ 32 % 1023000, x.code % 2 ^ 32, phaseOf x, x.dop / 65536⟩

/-- The pseudorange of a channel at an epoch in 2^−20 m: c times receive time less transmit time (R149). -/
def pseudorange (te : Int) (x : GnsCh) : Int := rangeOf (wrapWeek (gpsTow te - txTow x.sig x.code))

/-- Carrier-smoothed code of a channel at an epoch (R149): none without SMOOTH_T or carrier lock; it restarts at a slip. The filter is the usual
one over SMOOTH_T (notes/assumptions/91). -/
def smoothStep (s : State) (te : Int) (x : GnsCh) : Option (Int × Int × Nat) :=
  let sec := u16 s.gnsSec 0x68
  let rho := pseudorange te x
  let ph := phaseOf x
  if sec = 0 || !x.carrLock || !x.tow then none
  else match x.smooth with
    | some (old, at', n) =>
      if x.slip then some (rho, ph, 1)
      else
        let k := min (n + 1) (max 1 (sec * 1000000 * u16 s.gnsSec 0x40 / max 1 (s.rd SEQ_PERIOD_VALUE)))
        some ((rho + ((k : Int) - 1) * (old + (ph - at') * 190294 * 16 / 1000000)) / k, ph, k)
    | none => some (rho, ph, 1)

/-- The record of a channel (R143): `x` its replica at the epoch before, `y` after the epoch's update. -/
def recOf (s : State) (te : Int) (c : Nat) (x y : GnsCh) : GnsRec :=
  let ok := x.sig ≠ 0 && gnsClocked s && !s.gns.rateBad && !antFault s (c / 64) && !chFenced s c
  let m := measOf c x
  ⟨c, x.sig, x.prn, ok, x.codeLock, x.carrLock, x.half, y.restart, x.slip, x.tow, x.cn0,
    { m with phase := m.phase + if x.inv then 32768 else 0 }, (y.smooth.map (·.1)).getD (pseudorange te x)⟩

/-- The channel registers of a record (R143). -/
def recResults (s : State) (r : GnsRec) (t : Nat) : List (Fld × Nat) :=
  let c := r.c
  let y := s.gch c
  let ph := unsigned 64 r.m.phase
  [(GNS_CH_STS_VALID c, b2n r.valid), (GNS_CH_STS_CODE_LOCK c, b2n r.codeLock), (GNS_CH_STS_CARR_LOCK c, b2n r.carrLock),
   (GNS_CH_STS_HALF_CYC c, b2n r.half), (GNS_CH_STS_LOCK_RESTART c, b2n r.restart), (GNS_CH_STS_SLIP c, b2n r.slip),
   (GNS_CH_STS_TOW_KNOWN c, b2n r.tow), (GNS_CH_STS_FENCED c, b2n (chFenced s c)), (GNS_CH_STS_ANT c, c / 64), (GNS_CH_STS_SIG c, r.sig),
   (GNS_CH_STS_PRN c, r.prn), (GNS_CH_TX_SEC_TX_SEC c, r.m.tx), (GNS_CH_CODE_INT_CODE_INT c, r.m.ci),
   (GNS_CH_CODE_FRAC_CODE_FRAC c, r.m.cf), (GNS_CH_PHASE_LO_PHASE c, ph), (GNS_CH_PHASE_HI_PHASE c, ph / 2 ^ 32),
   (GNS_CH_DOPPLER_DOPPLER c, unsigned 32 r.m.dop), (GNS_CH_CN0_SLIP_CNT c, y.slips), (GNS_CH_CN0_CN0 c, r.cn0),
   (GNS_CH_LOCK_MS_LOCK_MS c, lockMs y t)]

/-- Milliseconds of the GPS week at a corrected time (R144, R149). -/
def gpsTowMs (t : Int) : Nat := (gpsTow t / (1000000 * 65536)).toNat

/-- Age of the newest complete base epoch (R160). -/
def baseAge (s : State) (t : Int) : Option Nat :=
  s.gns.base.map fun b =>
    let d := (gpsTowMs t + 604800000 - b.tow % 604800000) % 604800000
    if d < 302400000 then d else 0

/-- The age register and DIFF_AGED (R160). -/
def diffAge (s : State) (n : Nat) (t : Int) : State :=
  match baseAge s t with
  | none => s.wr GNS_DIFF_AGE_AGE_MS 0xFFFFFFFF
  | some a =>
    let s := s.wr GNS_DIFF_AGE_AGE_MS a
    let old : Bool := 1000 * u16 s.gnsSec 0x6C < a
    let s := if old && !s.gns.aged then reportCyc s n 0x0510 else s
    s.gn fun g => { g with aged := old }

/-- An epoch latches every defined channel to one instant: slips are declared, and the code is smoothed (R139, R141, R142, R149). -/
def latchChans (s : State) (te : Int) : State :=
  (gnsChans s).foldl (fun s c => updCh s c fun y =>
    if y.sig = 0 && !y.slip then y else { epochCh y s.tim.cnt with smooth := smoothStep s te (atEpoch s te y) }) s

/-- The cycle epoch of n (R141 to R143, R161): the records, ALL_LOST, the age of the corrections. -/
def cycleEpoch (s : State) (n : Nat) (te : Int) : State :=
  let ti := te + latchErr n 0
  let before := (gnsChans s).map fun c => (c, atEpoch s ti (s.gch c))
  let s := latchChans s ti
  let recs := before.map fun x => recOf s ti x.1 x.2 (s.gch x.1)
  let s := s.gn fun g => { g with store := navEpoch g.store, epoch := some ⟨n, 1, te, recs, [], none, [], none, [], false⟩ }
  let tracked := (recs.filter fun r => r.codeLock).length
  let s := updCyc s n fun c => { c with
    results := c.results ++ recs.flatMap (fun r => recResults s r s.tim.cnt) ++ [(GNS_STATUS_TRACKED, tracked)] }
  let none_ : Bool := tracked = 0
  let s := if none_ && !s.flag GNS_STATUS_ALL_LOST then (reportCyc s n 0x0505).gn fun g => { g with back := true } else s
  diffAge (s.wrb GNS_STATUS_ALL_LOST none_) n te

/-- R139, R141 to R143, R161: epoch k of cycle n latches every channel to the instant t_e = T0(n) + k·P/E, which has come. Intermediate epochs
feed slip detection and code smoothing, also when n has left flight. -/
def execGnssEpoch (n k t : Nat) (s : State) : Host.Outcome State Fault Refusal :=
  let s := s.at t
  let e := u16 s.gnsSec 0x40
  done (
    if !gnsRuns s || e ≤ k then s
    else if k = 0 then
      match s.cyc? n with
      | none => s
      | some c =>
        if !bit c.inp.runs 3 || (s.gns.epoch.map (·.n)) = some n || s.now < c.inp.t0c + c.run.step then s else cycleEpoch s n c.inp.t0c
    else match s.gns.epoch with
      | none => s
      | some ep =>
        let te := ep.t + ((k * (s.rd SEQ_PERIOD_VALUE * 1000 * 65536) / e : Nat) : Int)
        if ep.n ≠ n || k < ep.kNext || s.now < te then s
        else (latchChans s (te + latchErr n k)).gn fun g => { g with epoch := g.epoch.map fun x => { x with kNext := k + 1 } })

/-! ### Solutions (R146 to R157) -/

/-- The GNSS lanes (R146). -/
def gnsLanes (s : State) : List Nat :=
  (List.range 64).filter fun i => bit (s.rd GNS_LANES_LO_LANES * 16 + 2 ^ 32 * s.rd GNS_LANES_HI_LANES) i

/-- A baseline in use. -/
def baseOf (s : State) (k : Nat) : BaseSt := at_ s.gns.bases k baseNone
/-- Change a baseline. -/
def updBase (s : State) (k : Nat) (f : BaseSt → BaseSt) : State := s.gn fun g => { g with bases := upd_ g.bases k baseNone f }
/-- Change the epoch at work. -/
def updEpoch (s : State) (f : GnsEpoch → GnsEpoch) : State := s.gn fun g => { g with epoch := g.epoch.map f }

/-- Above the elevation mask; without a valid solution every satellite passes (R148). -/
def aboveMask (s : State) (r : GnsRec) (t : Int) : Bool :=
  match elevation s r.sig r.prn t with
  | some e => elevMask s ≤ e
  | none => true

/-- Records the PVT may use (R148), before differential mode. -/
def pvtRecs (s : State) (ep : GnsEpoch) : List GnsRec :=
  ep.recs.filter fun r =>
    let eph := s.gns.store.any fun e => e.sig = r.sig && e.prn = r.prn && !e.alm && e.confirmed && e.inForce
    r.c / 64 = u8 s.gnsSec 3 && r.valid && r.codeLock && r.tow && !r.restart
      && (if r.sig = 4 then bit (u8 s.gnsSec 2) 2 && (s.gch r.c).range ≠ [] else eph)
      && u16 s.gnsSec 0x4A ≤ r.cn0 && aboveMask s r ep.t

/-- The systems with a term of their own among some records (R148): those other than GPS time's. -/
def sysTerms (rs : List GnsRec) : List Nat := [2, 3].filter fun g => rs.any fun r => r.sig = g

/-- Unknowns of a PVT (R148): three coordinates, GPS time, and one term for each other system. -/
def unknowns (rs : List GnsRec) : Nat := 4 + (sysTerms rs).length

/-- The measurements of an epoch and whether they are corrected (R148, R160). -/
def pvtSet (s : State) (ep : GnsEpoch) : List GnsRec × Bool :=
  let all := pvtRecs s ep
  let fresh : Bool := match baseAge s ep.t with
    | some a => a ≤ 1000 * u16 s.gnsSec 0x6C
    | none => false
  let cor := all.filter fun r => s.gns.base.any fun b => b.sats.any fun x => x.sig = r.sig && x.prn = r.prn
  if fresh && s.gns.station.isSome && unknowns cor + 1 ≤ cor.length then (cor, true) else (all, false)

/-- The transmit time of a record in GPS time of week (R144). -/
def recTx (r : GnsRec) : Int := txTow r.sig ((r.m.tx * 1023000 + r.m.ci) * 2 ^ 32 + r.m.cf)

/-- The words of a record's satellite. -/
def recNav (s : State) (r : GnsRec) : List Nat := (navWords s r.sig r.prn).getD []

/-- `w` bits at bit `o` of an octet string, most significant first. -/
def bitsBE (l : List Byte) (o w : Nat) : Nat :=
  (List.range w).foldl (fun a i => 2 * a + u8 l ((o + i) / 8) / 2 ^ (7 - (o + i) % 8) % 2) 0

/-- The station's place (R159): its earth-centred coordinates in 0.1 mm, as the reference message gives them, in the frame of the origin. -/
def basePoint (b : List Byte) : List Int :=
  let x := [34, 74, 114].map fun o => signed 38 (bitsBE b o 38)
  (List.range 3).map fun k => Config.gnss (10 + k) [] x

/-- The correction of a satellite (R160): ρ_base − |r_sat − r_base| − the satellite clock terms, from the device's own ephemeris at the
base's transmit time; 0 where the base did not observe it. -/
def corrOf (s : State) (sig prn : Nat) : Int :=
  match s.gns.base, s.gns.station with
  | some e, some (_, b) =>
    match e.sats.find? fun x => x.sig = sig && x.prn = prn with
    | some x =>
      let tRx := (e.tow : Int) * 1000000 * 65536
      let tTx := (tRx - x.rho * Config.secUnit / (299792458 * 2 ^ 20)) % weekUnits
      let nav := (navWords s sig prn).getD []
      x.rho - (sightAt nav tTx tRx (basePoint b)).range - satClk nav tTx
    | none => 0
  | _, _ => 0

/-- The point a fit starts from (R149): the last valid solution, or the origin. -/
def startPoint (s : State) : List Int :=
  match s.gns.lastPvt with
  | some _ => solPoint s ++ [(frne fmt32 (m32 s.gns.sol.clk (i32 (2 ^ 16)))).getD 0 * 299792458 * 16 / 1000000000]
  | none => [0, 0, 0, 0]

/-- A measurement of a fit (R148, R149): pseudorange with its correction, or the range rate of a Doppler; weight at the fit's start point. -/
def fitRow (s : State) (ep : GnsEpoch) (vel dgnss : Bool) (r : GnsRec) : FitRow :=
  let nav := recNav s r
  let tTx := recTx r
  let tRx := gpsTow ep.t
  let v := sightAt nav tTx tRx ((startPoint s).take 3)
  let rho : Int := if vel then -(r.m.dop * 190294 * 2 ^ 20 / 1000000000) else r.rho - if dgnss then corrOf s r.sig r.prn else 0
  ⟨r.c, r.sig, r.prn, rho, fitWeight (u32 s.gnsSec 0x70) (u32 s.gnsSec 0x74) r.cn0 v, nav, tTx, tRx, !dgnss, s.gns.iono⟩

/-- The records of the epoch's solution, in ascending channel order: those used, less the one excluded (R148, R150). -/
def usedRecs (ep : GnsEpoch) : List GnsRec := ep.recs.filter fun r => ep.used.contains r.c && ep.excl ≠ some r.c

/-- The WLS problem of a position fit, a re-solve or a velocity fit (R149 to R151). -/
def wlsProb (s : State) (ep : GnsEpoch) (vel : Bool) : LsProb :=
  let rs := usedRecs ep
  let sys := if vel then [] else sysTerms rs
  let pt := if vel then [toM s.gns.sol.vn, toM s.gns.sol.ve, toM s.gns.sol.vd, 0] else startPoint s ++ sys.map fun _ => 0
  { LsProb.none with
    n := 4 + sys.length, m := rs.length, pt := pt, pos := solPoint s, sys := sys,
    rows := rs.map (fitRow s ep vel (s.gns.sol.mode = 2)) }

/-! ### Baselines (R153 to R156) -/

/-- The body vector of baseline `k` (0 to 2), and its length (R153). -/
def bodyVec (s : State) (k : Nat) : List Nat := (List.range 3).map fun c => u32 s.gnsSec (0x90 + 12 * k + 4 * c)
/-- L_k. -/
def baseLen (s : State) (k : Nat) : Nat := let v := bodyVec s k; q32 (dot v v)

/-- Satellites of a baseline at an epoch (R154), by ascending channel of ANT0: with CARR_LOCK, HALF_CYC 0 and LOCK_RESTART clear on both
antennas, and above the mask. Lines of sight are from the last valid PVT. -/
def baseSats (s : State) (ep : GnsEpoch) (k : Nat) : List BaseObs :=
  let ok (r : GnsRec) : Bool :=
    !s.flag GNS_STATUS_ALL_LOST && r.valid && r.carrLock && !r.half && !r.restart && aboveMask s r ep.t
  ep.recs.filterMap fun r =>
    match s.gns.lastPvt, navWords s r.sig r.prn, ep.recs.find? fun q => q.c / 64 = k + 1 && ok q && q.sig = r.sig && q.prn = r.prn with
    | some _, some w, some q =>
      if r.c / 64 = 0 && ok r then
        some ⟨r.sig, r.prn, r.c, q.m.phase - r.m.phase, sightAt w (recTx r) (gpsTow ep.t) (solPoint s), [r.cn0, q.cn0]⟩
      else none
    | _, _, _ => none

/-- The satellites of a baseline that its fixed set holds. -/
def heldObs (s : State) (ep : GnsEpoch) (k : Nat) : List BaseObs :=
  (baseSats s ep k).filter fun y => (baseOf s k).sats.any fun x => x.sig = y.sig && x.prn = y.prn

/-- Batches of 16 candidates of a search (R154). -/
def batchOf (l : List (List HeldSat)) (j : Nat) : List (List HeldSat) := (l.drop (16 * j)).take 16

/-- The attitude work of an epoch, by ascending baseline and batch (R146, R154, R156). -/
def attPlan (s : State) (ep : GnsEpoch) : State × List GnsPlan :=
  let recent : Bool := match s.gns.lastPvt with
    | some t => ep.t - t ≤ 60 * Config.secUnit
    | none => false
  (List.range 3).foldl (fun (a : State × List GnsPlan) k =>
    let s := a.1
    if !bit (u8 s.gnsSec 0x67) k then a
    else
      let b := baseOf s k
      let obs := baseSats s ep k
      let held := heldNow b.sats b.b obs
      let lost := b.fixed && (ddsOf (obs.filter fun y => held.any fun x => x.sig = y.sig && x.prn = y.prn)).length < 4
      let s := if lost then reportCyc s ep.n 0x050B 0 (k + 1) else s
      if b.fixed && !lost then (updBase s k fun b => { b with sats := held }, a.2 ++ [⟨4, k, 0⟩])
      else
        let s := updBase s k fun _ => baseNone
        if !recent then (s, a.2)
        else
          let g := s.gnsSec
          let dds := ddsOf obs
          let surv := survivorsOf dds (baseLen s k) (u32 g 0x7C) (u32 g 0x80) (at_ (bodyVec s k) 2 0)
          let max := u16 g 0x6E
          let s := s.gn fun g => { g with att := { g.att with surv := min surv.length 0xFFFF, trunc := max < surv.length } }
          if max < surv.length then (reportCyc s ep.n 0x050C 0 (k + 1), a.2)
          else
            (updBase s k fun b => { b with cands := surv.map (candSet dds) },
              a.2 ++ (List.range ((surv.length + 15) / 16)).map fun j => ⟨3, k, j⟩)) (s, [])

/-- JOB_ID of a GNSS job. -/
def planId (p : GnsPlan) : Nat := p.kind + 8 * p.base + 32 * p.batch

/-- The problem of a planned job. -/
def planProb (s : State) (ep : GnsEpoch) (p : GnsPlan) : LsProb :=
  let b := baseOf s p.base
  match p.kind with
  | 0 | 1 => wlsProb s ep false
  | 2 => wlsProb s ep true
  | 3 => clsProb (ddsOf (baseSats s ep p.base)) (batchOf b.cands p.batch) (baseLen s p.base)
  | 4 => clsProb (ddsOf (heldObs s ep p.base)) [b.sats] (baseLen s p.base)
  | _ =>
    let l := ((List.range 3).filter fun k => (baseOf s k).fixed).map fun k => ((baseOf s k).b, bodyVec s k)
    { LsProb.none with n := 4, data := (attMatrix l).flatten }

/-- A planned job may start: what it needs has ended (R146). -/
def planReady (s : State) (ep : GnsEpoch) (p : GnsPlan) : Bool :=
  match p.kind with
  | 0 | 1 => true
  | 5 => !(ep.plan.any fun x => x.kind = 3 || x.kind = 4) && s.gns.jobs.all fun q => q.res.isSome || !(q.sub = 3 || q.sub = 4)
  | _ => ep.pvt.isSome

/-- The GNSS jobs of a lane: the device's own of the newest epoch, and those of reference nodes. -/
def gnsOnLane (s : State) (l : Nat) : List Job := (s.gns.jobs ++ (s.pst.imports.map (·.job)).filter fun q => q.typ ≠ 1).filter fun q => q.lane = l

/-- The lowest GNSS lane that is free and has a place in its job table; on a node, the next number of a job that its lane device runs. -/
def freeLane (s : State) : Option Nat :=
  let free (l : Nat) : Bool := !(gnsOnLane s l).any fun q => q.res.isNone
  if s.isNode then ((List.range 64).map (· + 64)).find? free
  else
    (gnsLanes s).find? fun l => l < s.lanes && !laneFenced s l && free l && (gnsOnLane s l).length < (s.laneMap l).areas.length

/-- The deadline T0(n) + JOB_DL on the counter (R146, R245). -/
def gnsDeadline (s : State) (t : Int) : Nat := cntFrom s.tim (t + ((u32 s.gnsSec 0x58 * 1000 * 65536 : Nat) : Int))

/-- A node's lane device (R152): the address its CASCADE section names as GNSS_HOST (R429). -/
def laneDevice (s : State) : Nat := u16 s.casc 0x14

/-- A GNSS job that has not started (R149, R232, R244): ITER_CAP is ITER for WLS and 16 for CLS. -/
def gnsJob (s : State) (lane id n dl : Nat) (ls : LsProb) : Job :=
  let kind := id % 8
  { lane := lane, j := (gnsOnLane s lane).length, typ := if kind < 3 then 2 else 3, id := id, embed := false, warm := false,
    cap := if kind < 3 then u8 s.gnsSec 0x64 else 16, sub := kind, cyc := n, deadline := dl, prob := .none, ls := ls,
    words := if kind < 3 then wlsWords (kind = 2) ls ls.pt else ls.data, started := none, res := none }

/-- The numbers of a problem as they travel to a lane device (R152). -/
def LsProb.numbers (ls : LsProb) : List Nat :=
  [ls.n, ls.m, ls.count, ls.radius] ++ ls.pt.map (unsigned 64) ++ ls.pos.map (unsigned 64) ++ ls.sys ++ ls.data
    ++ ls.rows.flatMap fun x => [x.c, x.sig, x.prn, unsigned 64 x.rho, x.w, x.tTx.toNat, x.tRx.toNat, b2n x.spp] ++ x.nav ++ x.air

/-- Dispatch one job to a lane (R146), or, on a node, to its lane device (R152). -/
def putJob (s : State) (ep : GnsEpoch) (p : GnsPlan) (lane : Nat) : State :=
  let q := gnsJob s lane (planId p) ep.n (gnsDeadline s ep.t) (planProb s ep p)
  let s := updEpoch s fun e => { e with plan := e.plan.filter fun x => x ≠ p }
  let s := s.gn fun g => { g with jobs := g.jobs ++ [q] }
  if s.isNode then pstSend s 0x17 0 (laneDevice s) ep.n (planId p :: q.ls.numbers) else placeJob s q

/-- A node's job takes the lane that is free (R146, R152). -/
def waitFill (s : State) : State :=
  match s.gns.wait with
  | [] => s
  | (src, q) :: rest =>
    if q.deadline ≤ s.tim.cnt then s.gn fun g => { g with wait := rest }
    else match if s.isNode then none else freeLane s with
    | none => s
    | some l =>
      let q := { q with lane := l, j := (gnsOnLane s l).length }
      placeJob ((s.gn fun g => { g with wait := rest }).ps fun x => { x with imports := x.imports ++ [⟨src, q.id, q, false⟩] }) q

/-- Dispatch what can start now, in the order of R146, then the jobs of reference nodes that wait. -/
def gnsFill (s : State) : State :=
  let s := match s.gns.epoch with
    | none => s
    | some ep =>
      ep.plan.foldl (fun s p =>
        match s.gns.epoch, freeLane s with
        | some e, some l => if planReady s e p && s.tim.cnt < gnsDeadline s e.t then putJob s e p l else s
        | _, _ => s) s
  (List.range s.gns.wait.length).foldl (fun s _ => waitFill s) s

/-- The GNSS bits of baselines that are fixed. -/
def fixedBits (s : State) : Nat := (List.range 3).foldl (fun m k => setBit m k (baseOf s k).fixed) 0

/-- The position is settled: the slot, the servo, and what follows (R148, R150, R151, R161). `x` is the result of the fit, `pt` its point. -/
def settlePvt (s : State) (ep : GnsEpoch) (ok : Bool) (x : List Nat) (pt : List Int) : State :=
  let s : State := if ok then
      let used := usedRecs ep
      let sys := used.foldl (fun m r => setBit m (r.sig - 1) true) 0
      let clk := clockNs (pt.getD 3 0)
      let sol := { s.gns.sol with
        excluded := ep.excl.isSome, nsat := used.length, exclCh := ep.excl.getD 0, sys := sys,
        n := ofM (pt.getD 0 0), e := ofM (pt.getD 1 0), d := ofM (pt.getD 2 0), sigH := sigmaH (unknowns used) x, clk := clk }
      let s := slotArrive s (u8 s.gnsSec 0x65) [sol.n, sol.e, sol.d, sol.sigH] ep.t none
        (!([sol.n, sol.e, sol.d, sol.sigH].all (ffinite fmt32)))
      let s := s.gn fun g => { g with sol := sol, lastPvt := some ep.t }
      let s := if s.gns.back then (reportCyc s ep.n 0x0506).gn fun g => { g with back := false } else s
      match slotOfKind s 1 with
      | some i => sourceOffset s i (-((frne fmt32 (m32 clk (i32 65536))).getD 0))
      | none => s
    else
      let s := s.gn fun g => { g with sol := { g.sol with mode := 0, excluded := ep.excl.isSome, exclCh := ep.excl.getD 0, nsat := 0, sys := 0 } }
      match slotOfKind s 1 with
      | some i => breakRun s i
      | none => s
  let s := updEpoch s fun e => { e with pvt := some ok }
  let (s, att) := attPlan s ep
  updEpoch s fun e => { e with plan := e.plan ++ (if ok then [⟨2, 0, 0⟩] else []) ++ att }

/-- The candidates of a baseline by ascending Ω, ties to the earlier survivor (R155). -/
def ranked (b : BaseSt) : List FitCand := b.fits.mergeSort fun x y => lt32 x.omega y.omega || (!lt32 y.omega x.omega && x.i ≤ y.i)

/-- Double differences that a fixed set gives: within each system, one fewer than its satellites. -/
def setDds (l : List HeldSat) : Nat := ([1, 2, 3, 4].map fun g => (l.filter fun x => x.sig = g).length - 1).sum

/-- The best candidate of a search when it is a fix (R155): 4 double differences, the ratio test, and OMEGA_MAX. -/
def newFix (s : State) (b : BaseSt) : Option FitCand :=
  let g := s.gnsSec
  match ranked b with
  | x :: y :: _ =>
    let m := setDds (at_ b.cands x.i [])
    if !b.fixed && 4 ≤ m && le32 (m32 (u32 g 0x84) x.omega) y.omega && le32 (d32 x.omega (i32 (m - 2))) (u32 g 0x88) then some x else none
  | _ => none

/-- New fixes of an epoch are judged once every search and re-solve has ended (R155, R156): when the baselines then fixed disagree with their
body-frame angles, every fix of the epoch is dropped. -/
def judgeFixes (s : State) : State :=
  match s.gns.epoch with
  | none => s
  | some ep =>
    if ep.judged || ep.pvt.isNone || !planReady s ep ⟨5, 0, 0⟩ then s
    else
      let new := (List.range 3).filterMap fun k => (newFix s (baseOf s k)).map fun x => (k, x)
      let vecs := (List.range 3).filterMap fun k => match new.find? fun x => x.1 = k with
        | some x => some (x.2.b, bodyVec s k)
        | none => if (baseOf s k).fixed then some ((baseOf s k).b, bodyVec s k) else none
      let off : Bool := u32 s.gnsSec 0x8C < angleOff vecs
      let s := if off && new ≠ [] then reportCyc s ep.n 0x050D
        else new.foldl (fun s x => reportCyc (updBase s x.1 fun b =>
          { b with fixed := true, high := 0, b := x.2.b, sats := at_ b.cands x.2.i [], cands := [], fits := [] }) ep.n 0x050A 0 (x.1 + 1)) s
      let bits := fixedBits s
      let two : Bool := 2 ≤ ((List.range 3).filter fun k => (baseOf s k).fixed).length
      let s := s.gn fun g => { g with att := { g.att with fixed := bits, valid := g.att.valid && two } }
      updEpoch s fun e => { e with judged := true, plan := e.plan ++ if two then [⟨5, 0, 0⟩] else [] }

/-- R146, R148, R161: the jobs of the cycle epoch of n are dispatched; with every signal lost there are none, and the PVT mode is NONE. -/
def execGnssJobDispatch (n t : Nat) (s : State) : Host.Outcome State Fault Refusal :=
  let s := s.at t
  done (
    match s.gns.epoch with
    | none => s
    | some ep =>
      if ep.n ≠ n || ep.pvt.isSome || ep.plan ≠ [] || ep.used ≠ [] || !gnsRuns s
          || s.now < ep.t + ((u32 s.gnsSec 0x54 * 1000 * 65536 : Nat) : Int) || ((gnsLanes s).isEmpty && !s.isNode) then s
      else
        let s := s.gn fun g => { g with jobs := [] }
        let (rs, dgnss) := if s.flag GNS_STATUS_ALL_LOST then ([], false) else pvtSet s ep
        let s := s.wrb GNS_DIFF_STS_USED dgnss
        let s := if unknowns rs + 1 ≤ rs.length then
            let s := s.gn fun g => { g with sol := { g.sol with mode := if dgnss then 2 else 1 } }
            updEpoch s fun e => { e with used := rs.map (·.c), plan := [⟨0, 0, 0⟩] }
          else settlePvt (s.wr GNS_DIFF_STS_USED 0) ep false [] []
        gnsFill (judgeFixes s))

/-- The end of a position fit (R150): with a redundancy of at least 2 and its largest residual above RAIM_THR, that measurement is excluded and
the fit made again; without a re-solve, or when it is still above, the solution is invalid. -/
def pvtDone (s : State) (ep : GnsEpoch) (again : Bool) (r : JobRes) : State :=
  let rs := usedRecs ep
  let n := unknowns rs
  let res := residualsOf n r.x
  let worst := argMax res
  let big := lt32 (u32 s.gnsSec 0x78) (at_ res worst 0)
  let rest := (List.range rs.length).filter (· ≠ worst) |>.filterMap fun i => rs[i]?
  if r.status ≠ 1 then settlePvt s ep false [] []
  else if !big then settlePvt s ep true r.x r.pt
  else if again || rs.length < n + 2 || rest.length < unknowns rest + 1 then settlePvt s ep false [] []
  else
    let ch := ((rs[worst]?).map (·.c)).getD 0
    updEpoch (reportCyc s ep.n 0x0509 0 ch) fun e => { e with excl := some ch, plan := ⟨1, 0, 0⟩ :: e.plan }

/-- The end of the job of a fixed baseline (R156): its b, and the fix is lost at the third residual in a row above OMEGA_MAX. -/
def heldDone (s : State) (ep : GnsEpoch) (k : Nat) (r : JobRes) : State :=
  let m := (ddsOf (heldObs s ep k)).length
  let bad := r.status ≠ 1 || lt32 (u32 s.gnsSec 0x88) (d32 (at_ r.x 3 0) (i32 (m - 2)))
  let high := if bad then (baseOf s k).high + 1 else 0
  let s := updBase s k fun b => { b with high := high, fixed := high < 3, b := if r.status = 1 then r.x.take 3 else b.b }
  if 3 ≤ high then reportCyc s ep.n 0x050B 0 (k + 1) else s

/-- The end of the attitude fit (R156, R157). The heading standard deviation has no stated formula: a free value. -/
def attDone (s : State) (ep : GnsEpoch) (r : JobRes) : State :=
  if r.status = 1 then
    let v := eulerOf (r.x.take 4)
    let sd := (Config.fit 24 (r.x ++ (List.range 3).flatMap fun k => b2n (baseOf s k).fixed :: (baseOf s k).b) 0).toNat
    let s := slotArrive s (u8 s.gnsSec 0x66) (v ++ [sd]) ep.t none (!ffinite fmt32 sd)
    s.gn fun y => { y with att := { y.att with valid := true, hdg := at_ v 0 0, pitch := at_ v 1 0, roll := at_ v 2 0, sigH := sd } }
  else s.gn fun y => { y with att := { y.att with valid := false } }

/-- What the end of a GNSS job brings (R147, R150, R151, R155 to R157): `q` with its outcome, which was in time. -/
def gnsJobDone (s : State) (q : Job) (r : JobRes) : State :=
  match s.gns.epoch with
  | none => s
  | some ep =>
    if ep.n ≠ q.cyc then s
    else
      let k := q.id / 8 % 4
      let s := match q.sub with
        | 0 => pvtDone s ep false r
        | 1 => pvtDone s ep true r
        | 2 =>
          if r.status = 1 then
            let v (i : Nat) : Nat := ofM (r.pt.getD i 0)
            s.gn fun g => { g with sol := { g.sol with vn := v 0, ve := v 1, vd := v 2 } }
          else s
        | 3 =>
          if r.status = 1 then updBase s k fun b => { b with fits := b.fits ++ (List.range q.ls.count).map fun i =>
            ⟨at_ r.x (5 * i + 3) omegaNone, (r.x.drop (5 * i)).take 3, 16 * (q.id / 32) + i⟩ }
          else s
        | 4 => heldDone s ep k r
        | _ => attDone s ep r
      gnsFill (judgeFixes s)

/-- A GNSS job has missed JOB_DL (R147): its result is discarded and the epoch's work ends; jobs still to be dispatched miss it with it. -/
def gnsJobLate (s : State) (q : Job) : State :=
  let s := reportCyc s q.cyc (if q.sub < 3 then 0x0507 else 0x0508)
  match s.gns.epoch with
  | none => s
  | some e =>
    if e.n ≠ q.cyc then s
    else
      let s := if e.plan.any (·.kind < 3) then reportCyc s q.cyc 0x0507 else s
      let s := if e.plan.any (3 ≤ ·.kind) then reportCyc s q.cyc 0x0508 else s
      updEpoch s fun e => { e with plan := [] }

/-- JOB_DL comes with jobs of an epoch still to be dispatched (R147). -/
def gnsPlanLate (s : State) (n : Nat) : State :=
  match s.gns.epoch with
  | none => s
  | some e =>
    match e.plan with
    | [] => s
    | p :: _ => if e.n = n && gnsDeadline s e.t ≤ s.tim.cnt then gnsJobLate s (gnsJob s 64 (planId p) n 0 .none) else s

/-- A residue fault in a GNSS job (R147): run once more from the same inputs while it can end by JOB_DL, else as a deadline miss. -/
def gnsJobFault (s : State) (q : Job) : State :=
  match s.gns.epoch with
  | none => s
  | some ep =>
    if ep.n = q.cyc && !ep.redo.contains q.id && s.tim.cnt < q.deadline then
      gnsFill (updEpoch s fun e => { e with redo := q.id :: e.redo, plan := ⟨q.sub, q.id / 8 % 4, q.id / 32⟩ :: e.plan })
    else gnsJobLate s q

/-- The GNS_PVT and GNS_ATT values that a cycle latches at its T0 and its commit shows (R151). -/
def gnsHeld (s : State) : List (Fld × Nat) :=
  if !gnsOn s then []
  else
    let p := s.gns.sol
    let a := s.gns.att
    [(GNS_PVT_STS_MODE, p.mode), (GNS_PVT_STS_EXCLUDED, b2n p.excluded), (GNS_PVT_STS_NSAT, p.nsat), (GNS_PVT_STS_EXCL_CH, p.exclCh),
     (GNS_PVT_STS_SYS, p.sys), (GNS_PVT_N_VALUE, p.n), (GNS_PVT_E_VALUE, p.e), (GNS_PVT_D_VALUE, p.d), (GNS_PVT_SIGH_VALUE, p.sigH),
     (GNS_PVT_CLK_VALUE, p.clk), (GNS_PVT_VN_VALUE, p.vn), (GNS_PVT_VE_VALUE, p.ve), (GNS_PVT_VD_VALUE, p.vd),
     (GNS_ATT_STS_VALID, b2n a.valid), (GNS_ATT_STS_FIXED, a.fixed), (GNS_ATT_STS_TRUNC, b2n a.trunc), (GNS_ATT_STS_SURV, a.surv),
     (GNS_ATT_HDG_VALUE, a.hdg), (GNS_ATT_PITCH_VALUE, a.pitch), (GNS_ATT_ROLL_VALUE, a.roll), (GNS_ATT_SIGH_VALUE, a.sigH)]

/-! ### Differential corrections (R158 to R160) -/

/-- CRC-24Q of an octet string (polynomial 1864CFB, initial value 0). -/
def crc24q (l : List Byte) : Nat :=
  l.foldl (fun c b => (List.range 8).foldl (fun c _ => let d := 2 * c; if 2 ^ 24 ≤ d then d ^^^ 0x1864CFB else d) (c ^^^ b.toNat * 65536)) 0

/-- R158: one octet for the host RTCM stream; without a GNSS section the write is discarded (R125). The parser drops octets that no frame can
start with as they arrive. -/
def rtcmWrite (s : State) (v : Nat) : State :=
  if !gnsOn s then s
  else if s.gns.fifo.length < 8192 then
    let s := s.gn fun g => { g with fifo := rtcmSeek (g.fifo ++ [BitVec.ofNat 8 v]) }
    s.wr GNS_RTCM_STS_FILL s.gns.fifo.length
  else
    let was := s.flag GNS_RTCM_STS_OVERFLOW
    let s := s.wr GNS_RTCM_STS_OVERFLOW 1
    if was then s else report s 0x050F

/-- R158. -/
def execGnsRtcmData (p : Path) (v t : Nat) (s : State) : Host.Outcome State Fault Refusal :=
  done (hostDo (s.at t) p 0x180014 v fun s => rtcmWrite s v)

/-- A complete RTCM frame at the head of a stream: message, CRC good, the rest. A frame whose CRC fails is dropped whole, and the next 0xD3 is
sought behind it (the model's choice, notes/assumptions/88). -/
def rtcmTake (l : List Byte) : Option (List Byte × Bool × List Byte) :=
  let l := rtcmSeek l
  let n := (u8 l 1 % 4) * 256 + u8 l 2
  if l.length < 6 + n then none
  else some (slice l 3 n, crc24q (l.take (3 + n)) = beN l (3 + n) 3, l.drop (6 + n))

/-- The system whose observations a used MSM carries (R159). -/
def msmSig (m : Nat) : Option Nat :=
  if m = 1074 ∨ m = 1077 then some 1 else if m = 1094 ∨ m = 1097 then some 2
  else if m = 1104 ∨ m = 1107 then some 4 else if m = 1124 ∨ m = 1127 then some 3 else none

/-- The signals of an MSM that R159 uses, by their bits of the signal mask: L1 C/A, E1 C and B+C, B1C pilot and data plus pilot. -/
def msmUsed (sig : Nat) : List Nat := if sig = 2 then [1, 4] else if sig = 3 then [30, 31] else [1]

/-- The pseudoranges of an MSM4 or MSM7 message in 2^−20 m (R159): for each satellite the first of its used signals, rough range plus fine
pseudorange; a range that the message marks invalid gives none. The layout is RTCM 10403's (notes/assumptions/20). -/
def msmSats (sig : Nat) (b : List Byte) : List BaseSat :=
  let seven : Bool := bitsBE b 0 12 % 10 = 7
  let sats := (List.range 64).filter fun i => bitsBE b (73 + i) 1 = 1
  let sigs := (List.range 32).filter fun i => bitsBE b (137 + i) 1 = 1
  let ns := sats.length
  let cellAt := 169
  let cells := (List.range (ns * sigs.length)).filter fun i => bitsBE b (cellAt + i) 1 = 1
  let data := cellAt + ns * sigs.length
  let rough := data + if seven then 12 * ns else 8 * ns
  let fine := rough + if seven then 24 * ns else 10 * ns
  let w := if seven then 20 else 15
  ((List.range ns).zip sats).filterMap fun (j, i) =>
    let ms := bitsBE b (data + 8 * j) 8
    let frac := bitsBE b (rough + 10 * j) 10
    let cell := ((List.range cells.length).zip cells).find? fun x =>
      x.2 / max 1 sigs.length = j && (msmUsed sig).contains (at_ sigs (x.2 % max 1 sigs.length) 32)
    match cell with
    | none => none
    | some (q, _) =>
      let f := signed w (bitsBE b (fine + w * q) w)
      if ms = 255 || f = -(2 ^ (w - 1)) then none
      else
        -- milliseconds in 2^−29
        let t : Int := (ms : Int) * 2 ^ 29 + frac * 2 ^ 19 + f * (if seven then 1 else 32)
        some ⟨sig, if sig = 4 then 120 + i else i + 1, 299792458 * t * 2 ^ 20 / (1000 * 2 ^ 29)⟩

/-- A message of the differential stream (R159). -/
def rtcmMessage (s : State) (b : List Byte) : State :=
  let m := bitsBE b 0 12
  let st := bitsBE b 12 12
  let mine : Bool := bit (u8 s.gnsSec 2) 1 || st = u16 s.gnsSec 0x6A
  if (m = 1005 ∨ m = 1006) ∧ mine then (s.gn fun g => { g with station := some (st, b) }).wr GNS_DIFF_STS_BASE_KNOWN 1
  else
    match msmSig m with
    | some sig =>
      if !mine then s.incSat GNS_RTCM_STS_OTHER_CNT 255
      else
        let raw := bitsBE b 24 30
        let tow := if sig = 3 then (raw + 14000) % 604800000 else raw
        let old : List BaseSat := match s.gns.building with
          | some x => if x.station = st ∧ x.tow = tow then x.sats else []
          | none => []
        let x : BaseEpoch := ⟨st, tow, old ++ msmSats sig b⟩
        if bitsBE b 54 1 = 0 then (s.gn fun g => { g with building := none, base := some x }).wr GNS_DIFF_STS_STATION st
        else s.gn fun g => { g with building := some x }
    | none => s.incSat GNS_RTCM_STS_OTHER_CNT 255

/-- R158: a parser completes a frame of the host or the Ethernet stream. -/
def execRtcmFrame (eth : Bool) (t : Nat) (s : State) : Host.Outcome State Fault Refusal :=
  let s := s.at t
  done (
    if !gnsOn s then s
    else
      match rtcmTake (if eth then s.net.rtcm else s.gns.fifo) with
      | none => s
      | some (b, good, rest) =>
        let s : State := if eth then { s with net := { s.net with rtcm := rest } }
          else (s.gn fun g => { g with fifo := rest }).wr GNS_RTCM_STS_FILL rest.length
        if !good then report (s.incSat GNS_RTCM_STS_CRC_CNT 255) 0x050E
        else if b.isEmpty then s
        else rtcmMessage s b)

end Sys2Proof.Machine
end

