-- ==== Sys2Proof/Machine/Faults.lean ====
section
/-! DEFINITION. Faults as they are detected (R361 to R366, R369), injection (R388), and the journal's host reads and NAND copy (R371,
R375). -/

namespace Sys2Proof.Machine

open Sys2Proof

/-- The cycle that failing work belongs to: none outside RUNNING (ERR_LAST_CYC). -/
def workCyc (s : State) (n : Nat) : Option Nat := if s.rd SEQ_STATUS_STATE = 2 then some n else none

/-! ### Lanes (R249) -/

/-- The job of a lane at a place of a cycle's job table, a GNSS job included. -/
def jobAt (s : State) (lane j n : Nat) : Option Job :=
  (((s.cyc? n).map fun c => c.out.jobs).getD [] ++ (s.gns.jobs ++ s.pst.imports.map (·.job)).filter fun q => q.cyc = n).find? fun q =>
    q.lane = lane && q.j = j && q.res.isNone

/-- The job is imported (R433). -/
def imported (s : State) (q : Job) : Option ImpJob := s.pst.imports.find? fun i => i.job.lane = q.lane && i.job.j = q.j && i.job.cyc = q.cyc

/-- A GNSS job has its outcome, which its cycle shows (R248). -/
def gnsEnd (s : State) (q : Job) (r : JobRes) : State :=
  showJob (endJob (s.gn fun g => { g with jobs := g.jobs.map fun x =>
    if x.lane = q.lane ∧ x.j = q.j ∧ x.res.isNone then { x with res := some r } else x }) q r) q r

/-- A check fails in the running job of a lane (R249). -/
def laneFault (s : State) (q : Job) (mech addr : Nat) (inj : Bool) : State :=
  let r := { emptyRes (if mech = 12 then 8 else 7) with endNs := jobEndNs s q }
  let f : FaultIn := ⟨mech, 1, q.lane, workCyc s q.cyc, addr, false, inj, q.typ = 1⟩
  match imported s q with
  | some i =>
    -- the job runs again from the data it came with (R433), a node's job once, while it can end in time (R147, R152)
    if q.typ = 1 || (!i.again && s.tim.cnt < q.deadline) then
      takeFault ((laneMarks s q r).ps fun x => { x with imports := x.imports.map fun y =>
        if y.job.lane = q.lane ∧ y.job.j = q.j ∧ y.job.cyc = q.cyc then { y with job := { y.job with started := none }, again := true } else y }) f
    else gnsFill (takeFault (endImport s i r) f)
  | none =>
    if q.typ = 1 then takeFault (endJob s q r) f
    else gnsJobFault (takeFault (gnsEnd s q r) f) q

/-- R249: a residue, parity or descriptor check fails in a job of a lane. -/
def execLaneResidueFault (lane j n mech t : Nat) (s : State) : Host.Outcome State Fault Refusal :=
  let s := s.at t
  done (match jobAt s lane j n with
    | some q => if q.started.isSome && (mech = 1 || mech = 2 || mech = 12) then laneFault s q mech 0 false else s
    | none => s)

/-! ### The engines and the sequencer (R361) -/

/-- A stage of a cycle is running. -/
def stageRuns (s : State) (n k : Nat) : Bool := ((s.cyc? n).map fun c => c.run.stage = k && c.run.running).getD false

/-- A check fails in the observer and control engine. -/
def oceFault (s : State) (n mech addr : Nat) (inj : Bool) : State := takeFault s ⟨mech, 2, 0, workCyc s n, addr, false, inj, true⟩

/-- R361: a check of stage 4 or 5 fails; its result is discarded with the stage. -/
def execOceCheckFault (n mech t : Nat) (s : State) : Host.Outcome State Fault Refusal :=
  let s := s.at t
  done (if (stageRuns s n 4 || stageRuns s n 5) && (mech = 1 || mech = 2) then oceFault s n mech 0 false else s)

/-- A check fails in the FIR engine: in a channel, or in the datapath all channels share. -/
def firFault (s : State) (n : Nat) (ch : Option Nat) (mech addr : Nat) (inj : Bool) : State :=
  takeFault s ⟨mech, if ch.isSome then 3 else 13, ch.getD 0, workCyc s n, addr, false, inj, true⟩

/-- R361: a residue check of the FIR engine fails; the output is discarded with the stage. -/
def execFirCheckFault (n : Nat) (ch : Option Nat) (mech t : Nat) (s : State) : Host.Outcome State Fault Refusal :=
  let s := s.at t
  done (if stageRuns s n 2 && mech = 1 then firFault s n ch mech 0 false else s)

/-- R361, R369: the two copies of the sequencer and selector disagree. -/
def execSeqCompare (t : Nat) (s : State) : Host.Outcome State Fault Refusal :=
  let s := s.at t
  done (classS (report s 0x0B08) ⟨8, 8, 0, workCyc s (s.rd SEQ_CYC_LO_CYC_LO), 0, false, false, false⟩ 1)

/-! ### SRAM (R362 to R365) -/

/-- A corrected word (R362, R363, R367). -/
def corrected (s : State) (f : FaultIn) : State :=
  let s := { s with err := { s.err with corr := if s.err.corr.contains f.addr then s.err.corr else f.addr :: s.err.corr } }
  noteFault s f 1 (repeating s f.cyc)

/-- R362, R363: a read corrects a single-bit error. `unit` and `index` own the word; `n` is the cycle of the work, if any. -/
def execSramCorrected (unit index addr : Nat) (n : Option Nat) (mower : Bool) (t : Nat) (s : State) : Host.Outcome State Fault Refusal :=
  let s := s.at t
  let f : FaultIn := ⟨3, unit, index, n.bind fun n => workCyc s n, addr, mower, false, false⟩
  done (
    if s.err.hard.contains addr then s.incSat ERR_HARD_CORR_CNT 0xFFFFFF
    else
      let again := s.err.corr.contains addr
      let s := corrected s f
      if again && s.err.hard.length < 64 then
        let s := { s with err := { s.err with hard := addr :: s.err.hard } }
        report (s.wr ERR_HARD_ENTRIES s.err.hard.length) 0x0B06
      else s)

/-- The unit and index that own an area, as ERR_LAST codes them; 0 where it lists none (notes/assumptions/22). -/
def areaUnit : UeArea → Nat × Nat
  | .lane l _ _ => (1, l)
  | .oce _ => (2, 0)
  | .fir _ (some c) => (3, c)
  | .fir _ none => (13, 0)
  | .slot _ => (0, 0)
  | .track c => (4, c)
  | .position e _ => (5, e)
  | .ethRx p => (6, p)
  | .ethTx p => (6, p)
  | .canRx c => (7, c)
  | .canTx c _ => (7, c)
  | .block _ _ => (9, 0)
  | .input _ u i => (u, i)
  | .record _ => (9, 0)
  | .snapshot _ => (10, 0)
  | .checkpoint _ => (10, 0)
  | .config => (11, 0)
  | .host => (12, 0)

/-- The cycle to which the failing work belongs. -/
def areaCyc : UeArea → Option Nat
  | .lane _ _ n => some n
  | .oce n => some n
  | .fir n _ => some n
  | .position _ n => some n
  | .block n _ => some n
  | .input n _ _ => some n
  | .snapshot n => some n
  | _ => none

/-- A sample of a position channel reads invalid with reason NOT_READ (R263, R364). -/
def notRead (s : State) (e n : Nat) : State :=
  let ts := match s.cyc? n with
    | some c => c.inp.t0c + c.run.step
    | none => s.now
  let s := updChan s e fun c => { c with xfer := none, prevOk := false }
  fieldResult s e n ⟨s.rd (FLD_POS_VAL_POS e), 0, ts, false, false, false, false, false, false, 7⟩ 0

/-- A checkpoint buffer holds no usable checkpoint any more (R378). -/
def ckptLost (s : State) (k : Nat) : State :=
  let s := { s with jnl := { s.jnl with ckpt := s.jnl.ckpt.mapIdx fun i (x : Option Ckpt) => if i = k then x.map (fun (c : Ckpt) => { c with lost := true }) else x } }
  report (s.wr (if k = 0 then JNL_STATUS_CKPT0_OK else JNL_STATUS_CKPT1_OK) 0) 0x0C08 0 k

/-- What an uncorrectable word does beside its class, when its user reads it (R364); the ones that act through the class alone do
nothing here. -/
def areaEffect (s : State) (a : UeArea) : State :=
  match a with
  | .slot i => { s with flt := { s.flt with live := upd_ s.flt.live i slotZero fun l => { l with invalid := true } } }
  | .track c => acqTake (releaseCh s c)
  | .position e n => notRead s e n
  | .ethRx p => netCount s p 1
  | .ethTx p => if (s.port p).wire.isSome then s.emit (.badFcs p) else s
  | .canRx c => s.incSat (CAN_CNT_RX_LOST c) 255
  | .canTx c b => if (s.txb c b).pend then endBuf s c b 0 else updTxb s c b fun x => { x with target := none, next := none }
  | _ => s

/-- The journal, snapshot and checkpoint areas lose what a word held, whoever finds it (R376, R378). -/
def areaMark (s : State) (a : UeArea) : State :=
  match a with
  | .record i =>
    let s := { s with jnl := { s.jnl with ring := s.jnl.ring.map fun e => if e.1 = i then (e.1, { e.2 with bad := true }) else e } }
    if (s.jnlAt i).any (·.final) then report s 0x0C04 0 i else s
  | .snapshot n => updCyc s n fun c => { c with run := { c.run with snapOk := false } }
  | .checkpoint k => ckptLost s k
  | _ => s

/-- R362, R364, R365, R373, R374: a read meets an uncorrectable word. -/
def execSramUncorrectable (a : UeArea) (syn : Bool) (addr : Nat) (mower : Bool) (t : Nat) (s : State) : Host.Outcome State Fault Refusal :=
  let s := s.at t
  let mech := if syn then 5 else 4
  let (unit, index) := areaUnit a
  let cyc := if mower then none else (areaCyc a).bind fun n => workCyc s n
  let f (replay : Bool) : FaultIn := ⟨mech, unit, index, cyc, addr, mower, false, replay && !mower⟩
  done (
    match a with
    | .host => if mower then s else report s 0x0B07
    | .config => classS s (f false) 2
    | .lane l j n =>
      if mower then takeFault s (f false)
      else match jobAt s l j n with
        | some q => if q.started.isSome then laneFault s q mech addr false else s
        | none => s
    | .oce n => if mower then takeFault s (f false) else if stageRuns s n 4 || stageRuns s n 5 then takeFault s (f true) else s
    | .fir n _ => if mower then takeFault s (f false) else if stageRuns s n 2 then takeFault s (f true) else s
    | .block n typ =>
      if mower then takeFault s (f false)
      else if s.err.rewrote = some (n, typ) then classS s { f false with mech := 9 } 4
      else takeFault { s with err := { s.err with rewrote := some (n, typ) } } (f false)
    | .input n _ _ =>
      match s.cyc? n with
      | some c => if c.committed || c.missed then s else
          let s := takeFault s (f false)
          if s.flag ERR_STATUS_FAIL_SILENT then s else missCycle (reportCyc s n 0x0C02) n
      | none => s
    | _ =>
      let s := areaMark s a
      takeFault (if mower then s else areaEffect s a) (f false))

/-! ### ERR_CTRL and injection (R369, R388) -/

/-- R369. -/
def forceS (s : State) : State := classS s ⟨11, 8, 0, none, 0, false, false, false⟩ 6

/-- R369: a write of ERR_CTRL.FORCE_S = 1. -/
def execForceS (p : Path) (t : Nat) (s : State) : Host.Outcome State Fault Refusal := done (hostDo (s.at t) p 0x250004 1 forceS)

/-- R367: ERR_CNT_C, _T and _P clear. -/
def clrCnt (s : State) : State := s.wrs [(ERR_CNT_C_COUNT, 0), (ERR_CNT_T_COUNT, 0), (ERR_CNT_P_COUNT, 0)]

/-- R367. -/
def execClrCnt (p : Path) (t : Nat) (s : State) : Host.Outcome State Fault Refusal := done (hostDo (s.at t) p 0x250004 2 clrCnt)

/-- R388: a write of ERR_INJ: its fields, or the refusal. -/
def injArm (s : State) (v : Nat) : State :=
  let mech := bitsOf v 27 24
  let unit := bitsOf v 23 16
  if bit v 31 && !(bit (s.rd SEC_POLICY_FLAGS) 3 && 1 ≤ mech && mech ≤ 4 && 1 ≤ unit && unit ≤ 7) then refuse s 0x0B0A
  else
    let s := s.wrs [(ERR_INJ_ARM, v / 2 ^ 31), (ERR_INJ_MECH, mech), (ERR_INJ_UNIT, unit), (ERR_INJ_INDEX, bitsOf v 15 8)]
    if bit v 31 then s else { s with err := { s.err with inj := none } }

/-- R388: a write of ERR_INJ with ARM = 1. -/
def execErrInjArm (p : Path) (v t : Nat) (s : State) : Host.Outcome State Fault Refusal :=
  done (hostDo (s.at t) p 0x250028 (v ||| 2 ^ 31) fun s => injArm s (v ||| 2 ^ 31))

/-- An operation of a unit: an injection armed on it strikes first (R388). A correction leaves the operation to run; another mechanism is
classed and the operation has the effect of a failed one. -/
def injected (unit index : Nat) (n : Option Nat) (bad op : State → State) (s : State) : State :=
  match takeInjection s unit index with
  | (none, s) => op s
  | (some m, s) =>
    let f : FaultIn := ⟨m, unit, index, n.bind fun n => workCyc s n, 0, false, true, false⟩
    if m = 3 then op (noteFault s f 1 (repeating s f.cyc)) else takeFault (bad s) f

/-- A sample of a position channel, which an injection may strike (R261, R388). -/
def encSampled (e n k t : Nat) (s : State) : State :=
  match sampleDue s e n k with
  | some t0 => injected 5 e (some n) (fun s =>
      let s := updChan s e fun c => { c with base := some (n, t0, k + 1) }
      if k = 0 then notRead s e n else s) (encSampleOp e n k t) s
  | none => s

/-- R339: a port selects a frame. -/
def execEthLaunch (p t : Nat) (s : State) : Host.Outcome State Fault Refusal :=
  done (injected 6 p none (fun s => if (s.port p).wire.isSome then s else areaEffect (netTry s p) (.ethTx p)) (ethLaunchOp p t) (s.at t))

/-- R335: a frame has been received. -/
def execEthFrameRx (p : Nat) (b : List Byte) (fcs full : Bool) (ts : Nat) (t : Nat) (s : State) : Host.Outcome State Fault Refusal :=
  done (injected 6 p none (fun s => areaEffect s (.ethRx p)) (ethFrameRxOp p b fcs full ts t) (s.at t))

/-- R352: a CAN frame has been received. -/
def execCanFrameRx (c w0 dlc : Nat) (esi rtr : Bool) (data : List Byte) (sof t : Nat) (s : State) : Host.Outcome State Fault Refusal :=
  done (injected 7 c none (fun s => areaEffect s (.canRx c)) (canFrameRxOp c w0 dlc esi rtr data sof t) (s.at t))

/-- R355: a buffer's instant has come. -/
def execCanTxLaunch (c b t : Nat) (s : State) : Host.Outcome State Fault Refusal :=
  done (injected 7 c none (fun s => areaEffect s (.canTx c b)) (canTxLaunchOp c b t) (s.at t))

/-- R137: the loops of a tracking channel update. -/
def execLoopUpdate (c : Nat) (i q : Int) (ee ll ve vl t : Nat) (s : State) : Host.Outcome State Fault Refusal :=
  done (injected 4 c none (fun s => areaEffect s (.track c)) (loopUpdateOp c i q ee ll ve vl t) (s.at t))

/-! ### The journal for the host and in NAND (R371, R375) -/

/-- Word `w` of a journal record: its header (R371); words of the blocks and of LEN and CRC are open, since R372 does not give the
blocks' layout (notes/assumptions/23). -/
def jnlWord (r : JnlRec) (w : Nat) : Nat :=
  let gens := (r.inp.map (·.gens)).getD []
  let open_ (k : Nat) : Nat := (Config.fit 60 [k, r.n, r.status, r.flags, r.t0] w).toNat
  match w with
  | 0 => 0x524A + 65536 + r.status * 2 ^ 24
  | 1 => r.flags % 256 + r.n % 65536 * 65536
  | 2 => r.n / 65536 % 2 ^ 32
  | 3 => 48 + open_ 0 % 65489
  | 4 => r.t0 % 2 ^ 32
  | 5 => r.t0 / 2 ^ 32 % 2 ^ 32
  | 6 => r.tag % 2 ^ 32
  | 7 => r.tag / 2 ^ 32 % 2 ^ 32
  | 8 => groupGen gens
  | 9 => netCanGen gens % 2 ^ 32
  | 10 => netCanGen gens / 2 ^ 32
  | _ => open_ 1

/-- R371: a read of JNL_RD_DATA answers the word at JNL_RD_ADDR; WORD then increments, wrapping within the slot. -/
def jnlRead (s : State) (p : Path) : State :=
  let w := s.rd JNL_RD_ADDR_WORD
  let v := match s.jnlAt (s.rd JNL_RD_ADDR_SLOT) with
    | some r => jnlWord r w
    | none => 0
  (s.wr JNL_RD_ADDR_WORD ((w + 1) % 16384)).emit (.read p v)

/-- R371. -/
def execJnlRdDataRead (p : Path) (t : Nat) (s : State) : Host.Outcome State Fault Refusal :=
  done (hostRd (s.at t) p 0x260020 fun s => jnlRead s p)

/-- The oldest final record not yet copied, with its place: those of an earlier run first (R566). -/
def nextCopy (s : State) : Option (Nat × JnlRec) :=
  (s.jnl.ring.filter fun e => e.2.final && !e.2.copied).foldl
    (fun b e => match b with
      | some x => if (x.1 < 64 && 64 ≤ e.1) || ((decide (x.1 < 64) == decide (e.1 < 64)) && e.2.n < x.2.n) then some e else some x
      | none => some e) none

/-- R375: the NAND program of the oldest final record not yet copied completes, or fails and is retried. -/
def journalCopy (s : State) (good : Bool) : State :=
  match nextCopy s with
  | none => s
  | some (k, r) =>
    if !s.flag JNL_STATUS_NAND_OK then s
    else if !good then report s 0x0C06
    else
      let r' := { r with copied := true }
      let s := { s with jnl := { s.jnl with
        nand := r' :: s.jnl.nand, gapRun := false,
        ring := if 64 ≤ k then s.jnl.ring.filter fun (e : Nat × JnlRec) => e.1 ≠ k
          else s.jnl.ring.map fun (e : Nat × JnlRec) => if e.1 = k then (e.1, r') else e } }
      (s.wr JNL_MIRROR_CYC r.n).incWrap JNL_NAND_PTR_PTR

/-- R375. -/
def execJournalMirrorCopy (good : Bool) (t : Nat) (s : State) : Host.Outcome State Fault Refusal := done (journalCopy (s.at t) good)

end Sys2Proof.Machine
end

