-- ==== Sys2Proof/Machine/Cycle.lean ====
section
/-! DEFINITION. What stages 2 to 5 of a cycle compute, used by the cycle itself and by a rebuild from the journal (R30, R379, R383). -/

namespace Sys2Proof.Machine

open Sys2Proof

/-- K_C = ⌈C / P⌉ (R179). -/
def kC (cfg : RegFile) : Nat :=
  (cfg.get SEQ_COMMIT_OFS_VALUE + cfg.get SEQ_PERIOD_VALUE - 1) / max 1 (cfg.get SEQ_PERIOD_VALUE)

/-- τ_a of the prediction interval that ends at T0(m) (R179). -/
def tauOf (s : State) (m : Nat) : List Nat :=
  let j := (m : Int) - kC s.regs
  match s.alloc.past.find? fun r => decide ((r.n : Int) = j) with
  | some r => if r.mode = 0 then [] else r.tauA
  | none =>
    match s.alloc.past.find? fun r => decide ((r.n : Int) < j) && 2 ≤ r.mode with
    | some r => r.tauA
    | none => []

/-- A stage of a cycle has ended. -/
def Cyc.past (c : Cyc) (k : Nat) : Bool := k < c.run.stage || (c.run.stage = k && !c.run.running)

/-- The cycle before, while it is still to end a stage that the next cycle does not wait for (R29). -/
def behind (s : State) (c : Cyc) (k : Nat) : Option Cyc :=
  s.seq.cycs.find? fun d => d.n + 1 = c.n && !d.missed && !d.committed && !d.past k

/-- A later cycle has ended a stage before this one (R29). -/
def overtaken (s : State) (c : Cyc) (k : Nat) : Bool := s.seq.cycs.any fun d => d.n = c.n + 1 && d.past k

/-- The channels after the samples of a cycle, from the channels it begins with (R108). -/
def runChans (s : State) (c : Cyc) (chs : List FltCh) : List FltCh × List CmpEvent :=
  if !bit c.inp.runs 0 then (chs, []) else stage2 s c.inp.cfg c.n c.inp.t0c chs c.inp.smp

/-- The channels that stage 2 of a cycle begins with: those the cycle before leaves, whatever its progress (R29, R376). -/
def chansBefore (s : State) (c : Cyc) : List FltCh :=
  match behind s c 2 with
  | some d => (runChans s d (if 2 ≤ d.run.stage then d.snap.ch else s.flt.ch)).1
  | none => s.flt.ch

/-- Stage 2 of a cycle (R102 to R113); while REF is stopped no channel runs (R101). -/
def stepTwo (s : State) (c : Cyc) : State × Cyc :=
  if !bit c.inp.runs 0 then (s, c)
  else
    let (chs, evs) := runChans s c c.snap.ch
    (if overtaken s c 2 then s else { s with flt := { s.flt with ch := chs } },
      { c with out := { c.out with chans := chs, events := evs } })

/-- Voting of a cycle (R114 to R124). -/
def runVote (s : State) (c : Cyc) (ref : RefSt) : RefSt × VoteOut :=
  stage3 ⟨c.inp.cfg, s.sec 3, s.sec 5, c.n, c.inp.t0c, c.inp.held, !bit c.inp.runs 0, !bit c.inp.runs 3⟩ ref

/-- The voting state that stage 3 of a cycle begins with: the counts that the cycle before leaves, whatever its progress (R29). -/
def refBefore (s : State) (c : Cyc) : RefSt :=
  match behind s c 3 with
  | some d => (runVote s d (if 3 ≤ d.run.stage then d.snap.ref else s.ref)).1
  | none => s.ref

/-- Stage 3 of a cycle. -/
def stepThree (s : State) (c : Cyc) : State × Cyc :=
  if !s.hasSec 5 then (s, c)
  else
    let (ref, v) := runVote s c { s.ref with left := c.snap.ref.left }
    (if overtaken s c 3 then s else { s with ref := ref }, { c with out := { c.out with vote := some v } })

/-- No reference is defined. -/
def voteNone : VoteOut := ⟨[], 0, true, false, false, false, false⟩

/-- What stages 4 and 5 of a cycle read. -/
def oceCtx (s : State) (c : Cyc) : OceCtx :=
  ⟨s.sec 6, s.sec 3, bankWord s c.inp.bank, c.inp.cfg, c.n, c.inp.t0c, c.inp.mode, c.inp.sps, c.inp.t0c - c.inp.spT0, c.inp.held,
    c.out.chans, c.out.vote.getD voteNone⟩

/-- The OCE runs in a cycle. -/
def oceRuns (s : State) (c : Cyc) : Bool := !s.isNode && s.hasSec 6 && bit c.inp.runs 1

/-- The statistics after the hand-over of a cycle (R116): those of the references with an innovation move. -/
def statsAfter (s : State) (c : Cyc) (innov : List (Nat × Nat × Nat)) : List RefStat :=
  let base := (s.ref.hist.head?.map (·.2.1)).getD []
  (List.range 12).map fun r =>
    let st := at_ base r (refStat0 c.inp.cfg r)
    match innov.find? fun i => i.1 = r with
    | some i => statStep c.inp.cfg r st i.2.1 i.2.2
    | none => st

/-- Stage 4 of a cycle (R178 to R186), and the state hand-over (R30). -/
def stepFour (s : State) (c : Cyc) : State × Cyc :=
  if !oceRuns s c then (s, c)
  else
    let ctx := oceCtx s c
    let gap := ((c.n : Int) - s.oce.valid).toNat
    let taus := (List.range (min gap 9)).map fun i => tauOf s (c.n + 1 + i - gap)
    let (o, out) := stage4 ctx c.inp.reinit taus s.oce
    let out := { out with st := o }
    let ref := { s.ref with hist := (((c.n : Int), statsAfter s c out.innov, psiHat ctx o) :: s.ref.hist).take 6 }
    ({ s with oce := o, ref := ref }, { c with out := { c.out with oce := some out } })

/-- Stage 5 of a cycle (R187 to R190), on the state that its own stage 4 left (R178). -/
def stepFive (s : State) (c : Cyc) : State × Cyc :=
  if !oceRuns s c then (s, c)
  else
    let ctx := oceCtx s c
    let o0 := c.out.oce.getD { oceOut0 with st := s.oce }
    let (o, out) := stage5 ctx (tauOf s c.n) o0.st o0
    let c := { c with out := { c.out with oce := some { out with st := o }, tau := out.tau } }
    match s.seq.cycs.find? fun d => d.n = c.n + 1 && 4 ≤ d.run.stage with
    | none => ({ s with oce := o }, c)
    | some d =>
      -- stage 4 of the next cycle has started: it keeps its state, and takes what the law leaves
      let z : Bool := !(((d.out.oce.map (·.conds)).getD []).contains (0x0405, 0))
      let s := updCyc s d.n fun d => { d with snap := { d.snap with oce := lawCarry ctx true o d.snap.oce } }
      ({ s with oce := lawCarry ctx z o s.oce }, c)

/-- The codes of the stage, 4 or 5, that a cycle has ended are reported (R194). -/
def oceReports (s : State) (c : Cyc) : State :=
  ((c.out.oce.map (·.conds)).getD []).foldl (fun s x =>
    reportCyc s c.n x.1 0 (if x.1 = 0x0402 || x.1 = 0x0403 then Config.detailOf x.1 x.2 % 2 ^ 32 else 0) x.2) s

/-- The working parts of a cycle that has not run. -/
def cycRun0 : CycRun :=
  { stage := 1, running := false, began := 0, handed := false, again := false, rerun := false, replays := 0, wait := false, ready := false,
    snapOk := true, agreed := false, solo := false, srcSolo := false, sends := true, ends := [], aCnt := 0, aT := 0, aRate := 0, step := 0 }

/-- No output yet. -/
def cycOut0 : CycOut := ⟨[], [], none, none, [], [], [], 0, [], [], []⟩

/-- A cycle with its inputs, whose stages have not run. -/
def cycOf (s : State) (n t0 : Nat) (inp : CycIn) : Cyc :=
  { n := n, t0 := t0, missed := false, committed := false, results := [], entries := [], reported := [], inp := inp,
    run := { cycRun0 with aCnt := s.tim.cntA, aT := s.tim.tA, aRate := s.tim.rate },
    out := cycOut0, snap := ⟨s.flt.ch, s.ref, s.oce⟩, fail := none, commit := none }

/-- A commit becomes what later cycles refer to (R197, R213, R179). -/
def remember (s : State) (c : Cyc) (r : CommitRec) : State :=
  { s with
    alloc := { s.alloc with
      past :=
        let l := refAfter c r :: s.alloc.past
        -- R179 looks back to the latest cycle that committed an allocation
        l.take 16 ++ ((l.drop 16).find? fun r => 2 ≤ r.mode).toList },
    seq := { s.seq with last := some r } }

/-- One record is rebuilt (R383 step 2): stages 2 to 5 re-run from its inputs; the allocation comes from its COMMIT block. -/
def rebuildRec (s : State) (r : JnlRec) : State :=
  match r.inp with
  | none => s
  | some inp =>
    let (s, c) := stepTwo s (cycOf s r.n r.t0 inp)
    let (s, c) := stepThree s c
    let (s, c) := stepFour s c
    let (s, c) := stepFive s c
    match r.commit with
    | none => s
    | some k =>
      let s := remember s c k
      s.wrs [(SEQ_CYC_LO_CYC_LO, r.n), (SEQ_CYC_HI_CYC_HI, r.n / 2 ^ 32), (SEQ_LAST_COMMIT_LAST_COMMIT, r.n), (SEQ_MODE_ACT_MODE, inp.mode)]

/-- A checkpoint is loaded (R376, R383). -/
def loadCkpt (s : State) (k : Ckpt) : State :=
  let s := { s with
    flt := { s.flt with ch := k.snap.ch, smp := [] }, ref := k.snap.ref, oce := k.snap.oce,
    alloc := { s.alloc with units := k.units, fbMiss := k.fbMiss, dev := k.dev, past := k.past },
    seq := { s.seq with last := k.last, spT0 := k.spT0 } }
  let s := s.wrs [(SEQ_CYC_LO_CYC_LO, k.n), (SEQ_CYC_HI_CYC_HI, k.n / 2 ^ 32), (SEQ_LAST_COMMIT_LAST_COMMIT, k.n), (SEQ_MODE_ACT_MODE, k.mode)]
  s.wrs ((List.range 8).map fun i => (SEQ_SP_ACT_VALUE i, at_ k.sps i 0))

/-- A rebuild (R383 steps 1 and 2): the checkpoint, then its records in cycle order; the first job after it starts cold. -/
def rebuild (s : State) (k : Ckpt) (recs : List JnlRec) : State :=
  let s := recs.foldl rebuildRec (loadCkpt s k)
  { s with alloc := { s.alloc with warm := false } }

/-- The records a rebuild needs (R383 step 1): from the checkpoint's cycle to the last COMMITTED record, each present, intact and of the
loaded image; none when one fails. -/
def chainFrom (s : State) (k : Ckpt) : Option (List JnlRec) :=
  let last := ((s.jnl.ring.filter fun e => e.1 < 64).map (·.2)).foldl (fun m r => if r.status = 2 && r.n ≥ m then r.n else m) k.n
  let l := (List.range (last + 1 - k.n)).map fun i => s.jnlOf (k.n + i)
  if l.all fun r => match r with
    | some r => !r.bad && r.tag = imageTag s && (r.status = 2 || r.status = 3)
    | none => false
  then some (l.filterMap id) else none

/-- The newest checkpoint that is not lost and whose chain is whole. -/
def bestCkpt (s : State) : Option (Ckpt × List JnlRec) :=
  let cs := ((s.jnl.ckpt.filterMap id).filter fun k => !k.lost).mergeSort fun a b => b.n ≤ a.n
  cs.findSome? fun k => (chainFrom s k).map fun l => (k, l)

end Sys2Proof.Machine
end

