-- ==== Sys2Proof/Machine/Chk.lean ====
section
/-! DEFINITION. Limits of settings that the loader and a restart check alike (R15, R87): values, and whole registers of staged groups. -/

namespace Sys2Proof.Machine

open Sys2Proof

/-! ### Values: 0 when a value passes, else the IMG code that rejects it (R15, R55) -/

/-- IMG ZERO_FIELD. -/
def zeroField : Nat := 0x010D
/-- IMG RANGE. -/
def rangeBad : Nat := 0x010E

/-- A value from `lo` to `hi` where zero is not allowed (R15). -/
def chkZ (lo hi v : Nat) : Nat := if v = 0 then zeroField else if v < lo ∨ hi < v then rangeBad else 0

/-- A value from `lo` to `hi`: a zero that the range excludes is ZERO_FIELD (R55). -/
def chkR (lo hi v : Nat) : Nat := if v = 0 ∧ 0 < lo then zeroField else if v < lo ∨ hi < v then rangeBad else 0

/-- IMG RANGE unless a condition holds. -/
def chkB (b : Bool) : Nat := if b then 0 else rangeBad

/-- The first code that is not 0. -/
def firstCode : List Nat → Nat
  | [] => 0
  | c :: r => if c = 0 then firstCode r else c

/-- A binary32 value above 0; +∞ is rejected with RANGE (the model's choice, notes/assumptions/83). -/
def chkPos (v : Nat) : Nat := if fzero fmt32 v then zeroField else chkB (ffinite fmt32 v && lt32 0 v)

/-- A tick length that fits the period (R102). -/
def chkTick (period ti : Nat) : Nat := firstCode [chkZ 20 1000000 ti, chkB (period % ti = 0 || ti % period = 0)]

/-- E_IN (R63): −126 to 127 as an octet. -/
def chkEin (v : Nat) : Nat := chkB (v ≠ 0x80 && v ≠ 0x81)

/-- A coefficient word (R110). -/
def chkCoef (w : Nat) : Nat := chkB (w % 2 ^ 32 = unsigned 32 (signed 24 w))

/-- Bit rates of a controller (R345, R346): nominal prescaler and segments, data prescaler (0 = classical) and segments, TDC_EN. -/
def chkRates (nb n1 n2 nj db d1 d2 dj : Nat) (tdc : Bool) : Nat :=
  let nq := nb * (1 + n1 + n2)
  let dq := db * (1 + d1 + d2)
  firstCode ([chkB (1 ≤ nj && nj ≤ n2), chkB (160000000 ≤ 1000000 * nq), chkB (20000 * nq ≤ 160000000)]
    ++ if db = 0 then [] else
      [chkB (1 ≤ dj && dj ≤ d2), chkB (160000000 ≤ 8000000 * dq), chkB (dq ≤ nq), chkB (tdc || 160000000 ≤ 2000000 * dq)])

/-- The clocks that a filter channel of N, D and Ti spends in Ti·D seconds, and Ti·D (R109). -/
def firLoad (n d ti : Nat) : Nat × Nat := (((n + 1) / 2 + 6) * 1000000, max 1 (ti * d))

/-- The exact sum of the channels' loads is at most 4 × 10^8 clocks a second (R109). -/
def firFits (l : List (Nat × Nat)) : Bool :=
  let z := l.foldl (fun a x => (a.1 * x.2 + x.1 * a.2, a.2 * x.2)) (0, 1)
  z.1 ≤ 400000000 * z.2

/-! ### Registers of a candidate setting (R87) -/

/-- Filter channels of the image. -/
def nFlt (s : State) : Nat := u8 (s.sec 4) 0
/-- Position channels of the image. -/
def nChan (s : State) : Nat := u8 (s.sec 13) 2

/-- The input of a filter channel names a component that is not an angle (R102). -/
def chkInput (s : State) (slot comp : Nat) : Nat :=
  match slotEntry (s.sec 3) slot with
  | none => 0x0117
  | some e => chkB (comp < slotNcomp e && !compAngle (at_ (slotComps e) comp []))

/-- Transfer time of an absolute channel in nanoseconds (R261). -/
def xferNs (len div mono : Nat) : Nat := (len + 1) * div * 25 / 4 + mono * 1000

/-- The load of the FIR engine under a setting (R109). -/
def chkLoad (s : State) (c : RegFile) : Nat :=
  if firFits ((List.range (nFlt s)).map fun k =>
    firLoad (c.get (FLT_CH_SHAPE_TAPS k)) (c.get (FLT_CH_SHAPE_DECIM k)) (c.get (FLT_CH_TICK_TICK k))) then 0 else 0x0119

/-- The transfer of an absolute channel fits its sample spacing and the latch (R261, R264). -/
def chkXfer (c : RegFile) (e : Nat) : Nat :=
  let p := c.get SEQ_PERIOD_VALUE
  let x := xferNs (c.get (FLD_POS_CFG_WORD_LEN e)) (c.get (FLD_POS_TIM_CLKDIV e)) (c.get (FLD_POS_TIM_MONO e))
  firstCode [chkB (x + 10000 ≤ p / c.get (FLD_POS_TIM_DIV e) * 1000), if x ≤ c.get (SEQ_STG_DEADLINE_VALUE 1) * 1000 then 0 else 0x0119]

/-- The filter registers. -/
def chkFlt (s : State) (c : RegFile) (off : Nat) (idx : List Nat) : Nat :=
  let k := at_ idx 0 0
  let j := at_ idx 1 0
  match off with
  | 0x61000 => firstCode [chkEin (c.get (FLT_CH_CFG_E_IN k)), chkInput s (c.get (FLT_CH_CFG_SLOT k)) (c.get (FLT_CH_CFG_COMP k))]
  | 0x61004 =>
    firstCode [chkZ 1 384 (c.get (FLT_CH_SHAPE_TAPS k)), chkZ 1 64 (c.get (FLT_CH_SHAPE_DECIM k)), chkLoad s c]
  | 0x61008 => chkTick (c.get SEQ_PERIOD_VALUE) (c.get (FLT_CH_TICK_TICK k))
  | 0x62000 => chkB (ffinite fmt32 (c.get (FLT_TH_LEVEL_VALUE k j)))
  | 0x62004 => let h := c.get (FLT_TH_HYST_VALUE k j); chkB (ffinite fmt32 h && le32 0 h)
  | 0x64000 => chkCoef (c.get (FLT_COEF_VALUE k))
  | _ => 0

/-- The voting registers. -/
def chkRef (c : RegFile) (off : Nat) : Nat :=
  match off with
  | 0x70004 => chkB ((List.range 12).all fun r => !refSelected c r || refDefined c r)
  | 0x70010 => chkPos (c.get REF_MED_POS_VALUE)
  | 0x70014 => chkZ 1 (2 ^ 31 - 1) (c.get REF_MED_HDG_VALUE)
  | 0x70018 => chkPos (c.get REF_VAR_POS_VALUE)
  | 0x7001C => chkPos (c.get REF_VAR_HDG_VALUE)
  | 0x70020 => chkPos (c.get REF_DRIFT_POS_VALUE)
  | 0x70024 => chkPos (c.get REF_DRIFT_HDG_VALUE)
  | 0x70028 => chkPos (c.get REF_SIGMA_MIN_POS_VALUE)
  | 0x7002C => chkPos (c.get REF_SIGMA_MIN_HDG_VALUE)
  | 0x70030 => chkPos (c.get REF_SIGMA0_POS_VALUE)
  | 0x70034 => chkPos (c.get REF_SIGMA0_HDG_VALUE)
  | 0x70038 => let v := c.get REF_BETA_V_VALUE; firstCode [chkPos v, chkB (le32 v one32)]
  | 0x7003C => let v := c.get REF_BETA_D_VALUE; firstCode [chkPos v, chkB (le32 v one32)]
  | 0x70040 => let v := c.get REF_FROZEN_T_VALUE; if v = 0 then 0 else chkR 100000 600000000 v
  | _ => 0

/-- A position channel is absolute. -/
def isAbs (c : RegFile) (e : Nat) : Bool := c.get (FLD_POS_CFG_MODE e) = 0

/-- The field registers. A field that the channel's MODE does not use must be 0 (R68). -/
def chkFld (s : State) (c : RegFile) (off : Nat) (idx : List Nat) : Nat :=
  let e := at_ idx 0 0
  let absol := isAbs c e
  let unused (v : Nat) : Nat := chkB (v = 0)
  match off with
  | 0x230804 =>
    if c.get (FLD_PIN_CFG_FUNC e) = 8 then chkZ 1600 16000000 (c.get (FLD_PIN_TIM_PERIOD e)) else unused (c.get (FLD_PIN_TIM_PERIOD e))
  | 0x231000 =>
    let len := c.get (FLD_POS_CFG_WORD_LEN e)
    let bits := c.get (FLD_POS_CFG_POS_BITS e)
    let shift := c.get (FLD_POS_CFG_POS_SHIFT e)
    let par := c.get (FLD_POS_CFG_PARITY e)
    if absol then firstCode [chkZ 8 32 len, chkZ 8 32 bits, chkR 0 24 shift, chkB (bits + shift ≤ len), chkB (par ≠ 3), chkB (par = 0 || 1 ≤ shift),
      unused (c.get (FLD_POS_CFG_ZCLR e))]
    else firstCode [unused len, unused bits, unused shift, unused par, unused (c.get (FLD_POS_CFG_GRAY e)), unused (c.get (FLD_POS_CFG_INV e))]
  | 0x231008 =>
    let div := c.get (FLD_POS_TIM_DIV e)
    let clk := c.get (FLD_POS_TIM_CLKDIV e)
    let mono := c.get (FLD_POS_TIM_MONO e)
    let p := c.get SEQ_PERIOD_VALUE
    let whole := firstCode [chkZ 1 64 div, chkB (p % div = 0)]
    if absol then
      firstCode [chkZ 1 100 mono, whole, chkR 16 1600 clk, chkB (clk % 2 = 0), chkXfer c e]
    else firstCode [whole, unused clk, unused mono]
  | 0x23100C =>
    let b := c.get (FLD_POS_DLY_ERR_BIT e)
    if absol then firstCode [chkB (b ≤ 31 || b = 255), chkR 0 320 (c.get (FLD_POS_DLY_DLY e))]
    else firstCode [unused b, unused (c.get (FLD_POS_DLY_ERR_LEVEL e)), unused (c.get (FLD_POS_DLY_DLY e))]
  | 0x231010 => if absol then 0 else unused (c.get (FLD_POS_OFS_OFS e))
  | 0x231014 => if absol then 0 else unused (c.get (FLD_POS_JUMP_JUMP_MAX e))
  | 0x231018 => if absol then unused (c.get (FLD_POS_CPR_CPR e)) else chkZ 4 (2 ^ 31) (c.get (FLD_POS_CPR_CPR e))
  | 0x23101C =>
    if absol then firstCode [unused (c.get (FLD_POS_QTIM_SPD_WIN e)), unused (c.get (FLD_POS_QTIM_SPD_STILL e))]
    else firstCode [chkZ 1 65535 (c.get (FLD_POS_QTIM_SPD_WIN e)), chkZ 1 65535 (c.get (FLD_POS_QTIM_SPD_STILL e))]
  | 0x232004 => chkR 0 (2 ^ 29) (c.get (FLD_CMP_HYST_HYST e))
  | 0x232008 =>
    if c.get (FLD_CMP_CFG_EN e) = 0 then 0
    else
      let ch := c.get (FLD_CMP_CFG_CHAN e)
      firstCode [if ch < nChan s && isAbs c ch then 0 else 0x0117,
        if c.get (FLD_CMP_CFG_PIN_EN e) = 0 || c.get (FLD_PIN_CFG_FUNC (c.get (FLD_CMP_CFG_PIN e))) = 10 then 0 else 0x0117]
  | _ => 0

/-- The CAN registers of controller `c`, its bit timing coded as value − 1 (R345). -/
def chkCan (s : State) (r : RegFile) (off : Nat) (idx : List Nat) : Nat :=
  let c := at_ idx 0 0
  let f := at_ idx 1 0
  let fd := r.get (CAN_DBT_FD_EN c) ≠ 0
  let rates (_ : Unit) : Nat :=
    chkRates (r.get (CAN_NBT_NBRP c) + 1) (r.get (CAN_NBT_NTSEG1 c) + 1) (r.get (CAN_NBT_NTSEG2 c) + 1) (r.get (CAN_NBT_NSJW c) + 1)
      (if fd then r.get (CAN_DBT_DBRP c) + 1 else 0) (r.get (CAN_DBT_DTSEG1 c) + 1) (r.get (CAN_DBT_DTSEG2 c) + 1) (r.get (CAN_DBT_DSJW c) + 1)
      (r.get (CAN_DBT_TDC_EN c) ≠ 0)
  match off with
  | 0x220004 => chkB (r.get (CAN_CFG_LOOPBACK c) ≠ 3)
  | 0x22000C => firstCode [if r.get (CAN_NBT_NTSEG1 c) = 0 then rangeBad else 0, rates ()]
  | 0x220010 =>
    firstCode [rates (), chkB (fd || (List.range (r.get (CAN_CFG_NTXB c))).all fun b => r.get (CAN_TXB_HDR_FDF c b) = 0)]
  | 0x220208 =>
    firstCode [chkB (r.get (CAN_FLT_CFG_FMT c f) ≠ 3), chkB (r.get (CAN_FLT_CFG_DEST c f) ≠ 3),
      if r.get (CAN_FLT_CFG_FB c f) = 0 || r.get (CAN_FLT_CFG_FB_AXIS c f) < s.axes.length then 0 else 0x0117]
  | _ => 0

/-- The check of a register with staged values under a candidate setting: 0, or the code the loader would reject it with. -/
def chkReg (s : State) (c : RegFile) (off : Nat) : Nat :=
  match findReg regTable off with
  | none => 0
  | some (r, idx) =>
    if 0x60000 ≤ r.off ∧ r.off < 0x70000 then chkFlt s c r.off idx
    else if 0x70000 ≤ r.off ∧ r.off < 0x80000 then chkRef c r.off
    else if 0x230000 ≤ r.off ∧ r.off < 0x240000 then chkFld s c r.off idx
    else if 0x220000 ≤ r.off ∧ r.off < 0x230000 then chkCan s c r.off idx
    else 0

/-- What else a staged register can break: the engine's load by a TICK, the transfer time by the word's length or the channel's mode
(R87, R109, R261). -/
def chkLinked (s : State) (c : RegFile) (off : Nat) : Nat :=
  match findReg regTable off with
  | none => 0
  | some (r, idx) =>
    if r.off = 0x61008 then chkLoad s c
    else if r.off = 0x231000 then
      let e := at_ idx 0 0
      firstCode [chkFld s c 0x231008 idx, chkFld s c 0x23100C idx, chkFld s c 0x231010 idx, chkFld s c 0x231014 idx, chkFld s c 0x231018 idx,
        chkFld s c 0x23101C idx, if isAbs c e then chkXfer c e else 0]
    else 0

/-- The register offset that a field's bit address lies in. -/
def regOff (key : Nat) : Nat := key / 32 * 4

/-- The group that owns a staged field. -/
def ownerOf (key : Nat) : Option Nat := (findReg regTable (regOff key)).bind fun x => x.1.grp.at x.2

/-- The staged fields of a group, ascending. -/
def stagedOf (s : State) (g : Nat) : List (Nat × Word) :=
  s.shadow.filterMap fun e => if ownerOf e.1 = some g then e.2.map fun v => (e.1, v) else none

/-- The register file with the staged fields of some groups in it. -/
def withStaged (s : State) (gs : List Nat) : RegFile :=
  gs.foldl (fun r g => (stagedOf s g).foldl (fun r e => sput resetValue r e.1 e.2) r) s.regs

/-- The first register of a group with a staged value that fails its check, when the staged values of some groups apply (R87, R88). -/
def stagedBad (s : State) (gs : List Nat) (g : Nat) : Option Nat :=
  let c := withStaged s gs
  ((stagedOf s g).map fun e => regOff e.1).find? fun off => chkReg s c off ≠ 0 || chkLinked s c off ≠ 0

/-- A group's staged values take effect together; its shadows empty. -/
def applyStaged (s : State) (g : Nat) : State :=
  { s with regs := withStaged s [g], shadow := skeep (fun k => ownerOf k ≠ some g) s.shadow }

/-- A group's staged values are discarded. -/
def dropStaged (s : State) (g : Nat) : State := { s with shadow := skeep (fun k => ownerOf k ≠ some g) s.shadow }

end Sys2Proof.Machine
end

