-- ==== Sys2Proof/Machine/Group.lean ====
section
/-! DEFINITION. Function groups: stop, the cold-start rules, and restart (R84 to R91). -/

namespace Sys2Proof.Machine

open Sys2Proof

/-- The implemented groups that a bit set names, in ascending order (R84). -/
def groupsIn (s : State) (v : Nat) : List Nat := (List.range 20).filter fun g => bit v g && bit (implGroups s) g

/-- IMG_FUNC_STATE as stored, as a bit set. -/
def stateBits (s : State) : Nat := s.rd IMG_FUNC_STATE_CORE + 256 * s.rd IMG_FUNC_STATE_CAN + 65536 * s.rd IMG_FUNC_STATE_NET
/-- IMG_FUNC_PEND as a bit set. -/
def pendBits (s : State) : Nat := s.rd IMG_FUNC_PEND_CORE + 256 * s.rd IMG_FUNC_PEND_CAN + 65536 * s.rd IMG_FUNC_PEND_NET
/-- Write IMG_FUNC_STATE. -/
def putState (s : State) (v : Nat) : State :=
  s.wrs [(IMG_FUNC_STATE_CORE, v), (IMG_FUNC_STATE_CAN, v / 256), (IMG_FUNC_STATE_NET, v / 65536)]
/-- Write IMG_FUNC_PEND. -/
def putPend (s : State) (v : Nat) : State :=
  s.wrs [(IMG_FUNC_PEND_CORE, v), (IMG_FUNC_PEND_CAN, v / 256), (IMG_FUNC_PEND_NET, v / 65536)]

/-! ### Stop (R85, R89) -/

/-- A pending bank swap is discarded at an OCE stop (R91, R192). -/
def swapDrop (s : State) : State :=
  if s.flag OCE_BANK_STS_SWAP_PEND then report (s.wr OCE_BANK_STS_SWAP_PEND 0) 0x040F else s

/-- TIME_PORT (R67). -/
def timePort (s : State) : Nat := u8 (s.sec 10) 3 / 4 % 4

/-- A NETp group stops (R89): queues discarded, sessions on the port closed, PTP on the port stopped. -/
def netStop (s : State) (p : Nat) : State :=
  let s := closeSess (netFlush s p) fun x => x.port = p
  let s := s.sc fun x => { x with hand := x.hand.filter fun (h : HandSt) => h.port ≠ p }
  if timePort s = p then
    (s.ptp fun x => { x with foreign := [], sel := none, sync := none, dreq := none, mpdF := none }).wr TIM_PTP_STS_MASTER_VALID 0
  else s

/-- What a group does when it has stopped (R89). -/
def groupEffect (s : State) (g : Nat) : State :=
  if g = 1 then swapDrop s
  else if g = 3 then
    let s := gnsStop s
    match slotOfKind s 1 with
    | some i => unqualify s i
    | none => s
  else if g = 4 then fldStop s
  else if 8 ≤ g ∧ g < 16 then canStop s (g - 8)
  else if 16 ≤ g then netStop s (g - 16)
  else s

/-- A cycle in flight uses the group. -/
def groupInFlight (s : State) (g : Nat) : Bool := s.seq.cycs.any fun c => bit c.inp.runs g

/-- A pending group that no cycle in flight uses any more becomes stopped (R85). -/
def stopGroup (s : State) (g : Nat) : State :=
  if bit (pendBits s) g && bit s.img.taken g && !groupInFlight s g then
    groupEffect (putState (putPend s (setBit (pendBits s) g false)) (setBit (stateBits s) g true)) g
  else s

/-- A stop of groups that the sequencer takes note of (R85): groups stopped or pending already stay as they are. -/
def stopReq (s : State) (gs : List Nat) : State :=
  gs.foldl (fun s g => if groupStopped s g || bit (pendBits s) g then s else putPend s (setBit (pendBits s) g true)) s

/-- Discard a mode, setpoint or group write while fail-silent (R385). -/
def unlessSilent (s : State) (p : Path) (off : Nat) (f : State → State) : State :=
  if s.flag ERR_STATUS_FAIL_SILENT then discard s p off 0x1205 else f s

/-- R85: a write of IMG_FUNC_STOP. -/
def funcStop (s : State) (v : Nat) : State :=
  (groupsIn s v).foldl (fun s g => if bit s.img.heldGroups g then refuse s 0x0124 0 g else stopReq s [g]) s

/-- R85. -/
def execFuncStop (p : Path) (v t : Nat) (s : State) : Host.Outcome State Fault Refusal :=
  done (hostDo (s.at t) p 0x40030 v fun s => unlessSilent s p 0x40030 fun s => funcStop s v)

/-- The pending stops that T0(m) takes (R85). -/
def takeStops (s : State) : State :=
  let s := { s with img := { s.img with taken := s.img.taken ||| pendBits s } }
  (List.range 20).foldl stopGroup s

/-! ### Restart (R87, R89) -/

/-- The REF group at its cold start, at the T0 of cycle `k` (R89, R116). Arrivals count again from the clock of the latch on (R99). -/
def refStart (s : State) (k : Nat) (heading : Nat) : State :=
  let ti (i : Nat) : Nat := max 1 (s.rd (FLT_CH_TICK_TICK i))
  let first (i : Nat) : Nat := (k * s.rd SEQ_PERIOD_VALUE + ti i - 1) / ti i
  let n := s.rd FLT_STATUS_CHANNELS
  let s := { s with
    flt := { s.flt with ch := List.replicate n fltZero, next := (List.range n).map first, smp := [],
                        live := s.flt.live.map fun (l : SlotLive) => if l.ever && l.wrote = s.tim.cnt then l else { l with ever := false, upd := 0 } },
    ref := refCold s.regs ((k : Int) - 1) heading }
  fltDerived s

/-- The OCE group at its cold start (R89): uninitialised, integral states 0, active mode STANDBY; the standing scenario is 0. -/
def oceStart (s : State) : State :=
  let s := selRestart { s with oce := { OceSt.reset with dr := s.oce.dr }, seq := { s.seq with reinit := false } }
  s.wrs [(SEQ_MODE_ACT_MODE, 0), (OCE_COUNT_SKIP_CNT, 0)]

/-- The heading that voting starts from: the observer's, or 0 while it is uninitialised. -/
def startHeading (s : State) : Nat := if s.oce.init then ((s.ref.hist.head?).map (·.2.2)).getD 0 else 0

/-- A group's cold start, at the T0 of cycle `k` (R89). -/
def groupStart (s : State) (k g : Nat) : State :=
  if g = 0 then refStart s k (startHeading s)
  else if g = 1 then oceStart s
  else if g = 2 then allocRestart s
  else if g = 3 then gnsStart s
  else if g = 4 then fldCold s
  else if g = 5 then
    { s.wr PST_ALIGN_MISS 0 with pst := { s.pst with got := false, lostRun := false } }
  else if 8 ≤ g ∧ g < 16 then canCold s (g - 8)
  else netCold s (g - 16)

/-- R87: a write of IMG_FUNC_RESTART. While IDLE it has no effect (R88). -/
def funcRestart (s : State) (v : Nat) : State :=
  if s.idle then s
  else (groupsIn s v).foldl (fun s g =>
    if bit s.img.heldGroups g then refuse s 0x0124 0 g
    else if !groupStopped s g then refuse s 0x0123 0 g
    else { s with img := { s.img with restart := setBit s.img.restart g true } }) s

/-- R87. -/
def execFuncRestart (p : Path) (v t : Nat) (s : State) : Host.Outcome State Fault Refusal :=
  done (hostDo (s.at t) p 0x40034 v fun s => unlessSilent s p 0x40034 fun s => funcRestart s v)

/-- PTP state and counters reset at a restart of the time port (spec/10, R89). -/
def ptpRestart (s : State) (p : Nat) : State :=
  if timePort s = p then
    (s.ptp fun _ => TimSt.reset.ptp).wrs [(TIM_PTP_STS_MASTER_VALID, 0), (TIM_PTP_STS_LOG_SYNC, 0), (TIM_PTP_MASTER_LO_CLOCK_ID, 0),
      (TIM_PTP_MASTER_HI_CLOCK_ID, 0), (TIM_PTP_MPD_MPD_F, 0), (TIM_PTP_CNT_IGNORED, 0), (TIM_PTP_CNT_BAD_DELAY, 0)]
  else s

/-- A group runs again from cycle `k` on the settings now in force: generation, cold start, state (R87, R377). -/
def groupRun (s : State) (k g : Nat) : State :=
  let s := { s with
    img := { s.img with taken := setBit s.img.taken g false, restart := setBit s.img.restart g false },
    seq := { s.seq with gens := upd_ s.seq.gens g 0 fun (x : Nat) => (x + 1) % 16 } }
  let s := if 16 ≤ g then ptpRestart s (g - 16) else s
  groupStart (putPend (putState s (setBit (stateBits s) g false)) (setBit (pendBits s) g false)) k g

/-- The restart of a group at T0(k) (R87): its staged values pass and apply together, or it stays stopped. -/
def restartGroup (s : State) (k g : Nat) : State :=
  match stagedBad s [g] g with
  | some off =>
    let s := { s with img := { s.img with restart := setBit s.img.restart g false } }
    report (s.wrs [(IMG_FUNC_ERR_GROUP, g), (IMG_FUNC_ERR_REG_OFS, off)]) 0x0125 0 g
  | none => groupRun (applyStaged s g) k g

/-- The restarts that T0(k) takes. A group that a cascade PREPARE holds is refused instead (R440). -/
def takeRestarts (s : State) (k : Nat) : State :=
  (List.range 20).foldl (fun s g =>
    if !bit s.img.restart g then s
    else if bit s.img.heldGroups g then
      report { s with img := { s.img with restart := setBit s.img.restart g false } } 0x0124 0 g
    else restartGroup s k g) s

end Sys2Proof.Machine
end

