-- ==== Sys2Proof/Machine/Mc.lean ====
section
/-! DEFINITION. The cascade's mode change (R436 to R441 of spec/14), as master and as device. -/

namespace Sys2Proof.Machine

open Sys2Proof

/-- The addresses set in a device set of 512 words. -/
def addrsOf (s : State) (f : Nat → Fld) : List Nat :=
  (List.range 512).flatMap fun w =>
    let v := s.rd (f w)
    if v = 0 then [] else ((List.range 32).filter fun b => bit v b).map fun b => 32 * w + b

/-- Send a MODE frame (R420): 1 START, 2 JOIN, 3 PREPARE, 4 ACK, 5 NACK, 6 SEAL, 7 VOTE, 8 COMMIT, 9 ABORT, 10 APPLIED, 11 RELOAD. -/
def modeSend (s : State) (sub dst : Nat) (ws : List Nat) : State := pstSend s 4 sub dst (s.rd SEQ_CYC_LO_CYC_LO) ws

/-! ### The device -/

/-- The device declares itself OUT_OF_STEP (R441). -/
def outOfStep (s : State) : State :=
  if s.flag PST_STATUS_OUT_OF_STEP then s
  else
    let s := report ((s.wr PST_STATUS_OUT_OF_STEP 1).wr RED_STATUS_SENDING 0) 0x0E13
    let s := stopReq s ((groupsIn s 0xFFFFF).filter fun g => g ≠ 5)
    let s := { s with seq := { s.seq with cycs := s.seq.cycs.map fun c => { c with run := { c.run with sends := false } } } }
    pstSend (quietOutputs s) 2 2 bcastAll (s.rd SEQ_CYC_LO_CYC_LO) []

/-- The device lets go of its change. -/
def mcRelease (s : State) : State :=
  let s := s.wr PST_MC_STS_HELD 0
  { s with img := { s.img with heldGroups := 0, votedGroups := 0 }, pst := { s.pst with held := none } }

/-- ABORT at a device (R439): the held groups restart at the next T0 with the settings in force before, their staged values discarded;
a stop that no T0 has taken yet is withdrawn. -/
def devAbort (s : State) : State :=
  match s.pst.held with
  | none => s
  | some h =>
    let s := (groupsIn s h.groups).foldl (fun s g =>
      let s := dropStaged s g
      if bit (pendBits s) g && !bit s.img.taken g then putPend s (setBit (pendBits s) g false)
      else { s with img := { s.img with restart := setBit s.img.restart g true } }) s
    mcRelease s

/-- A device that held a change and had not voted acts as on ABORT (R439). -/
def devUnvoted (s : State) : State :=
  match s.pst.held with
  | some h => if h.voted then s else devAbort s
  | none => s

/-- PREPARE at a device (R437): true when it takes the change. -/
def devPrepare (s : State) (src id groups : Nat) : State × Bool :=
  if s.rd SEQ_STATUS_STATE ≠ 2 || s.pst.held.isSome || groups ||| implGroups s ≠ implGroups s then (s, false)
  else
    let s := s.wrs [(PST_MC_STS_HELD, 1), (PST_MC_STS_ID, id)]
    let s := { s with
      img := { s.img with heldGroups := s.img.heldGroups ||| groups }
      pst := { s.pst with held := some ⟨id, groups, src, false, false, none, false⟩ } }
    (stopReq s (groupsIn s groups), true)

/-- SEAL at a device (R438): the staged values of its held groups are checked; its vote. -/
def devSeal (s : State) (id k : Nat) : State × Bool :=
  match s.pst.held with
  | some h =>
    if h.id ≠ id || !h.acked then (s, false)
    else
      let gs := groupsIn s h.groups
      let bad : Option (Nat × Nat) := gs.findSome? fun g => (stagedBad s gs g).map fun off => (g, off)
      let s := { s with
        img := { s.img with votedGroups := h.groups }
        pst := { s.pst with held := some { h with voted := true, k := if bad.isNone then some k else none } } }
      match bad with
      | some (g, off) => (s.wrs [(IMG_FUNC_ERR_GROUP, g), (IMG_FUNC_ERR_REG_OFS, off)], false)
      | none => (s, true)
  | none => (s, false)

/-- COMMIT at a device (R439, R440). -/
def devCommit (s : State) (id k : Nat) : State :=
  match s.pst.held with
  | some h =>
    if h.id = id && h.k = some k then
      if s.now < t0At s k then s.ps fun x => { x with held := some { h with commit := true } } else outOfStep s
    else outOfStep s
  | none => if s.pst.lastApplied = some id then s else outOfStep s

/-! ### The master -/

/-- A change is open on the master. -/
def mcOpen (s : State) : Bool := s.pst.master.isSome

/-- The master aborts its change (R437, R438). -/
def masterAbort (s : State) : State :=
  match s.pst.master with
  | none => s
  | some m =>
    let s := m.devs.foldl (fun s d => if d = ownAddr s then devAbort s else modeSend s 9 d [m.id]) s
    report ((s.ps fun x => { x with master := none }).wrs [(PST_MC_STS_STATE, 6), (PST_MC_STS_PENDING, 0)]) 0x0E11 0 m.id

/-- A device's ACK reaches the master (R437). -/
def masterAck (s : State) (src id : Nat) : State :=
  match s.pst.master with
  | none => s
  | some m =>
    if m.id ≠ id || s.rd PST_MC_STS_STATE ≠ 1 then s
    else
      let wait := m.wait.filter fun d => d ≠ src
      let s := (s.ps fun x => { x with master := some { m with wait := wait } }).wr PST_MC_STS_PENDING wait.length
      if wait = [] then report (s.wr PST_MC_STS_STATE 2) 0x0E10 0 id else s

/-- A device's APPLIED reaches the master (R439). -/
def masterApplied (s : State) (src id : Nat) : State :=
  match s.pst.master with
  | none => s
  | some m =>
    if m.id ≠ id || s.rd PST_MC_STS_STATE ≠ 4 || !m.devs.contains src || m.applied.contains src then s
    else
      let l := src :: m.applied
      (s.ps fun x => { x with master := some { m with applied := l } }).wr PST_MC_STS_PENDING (m.devs.length - l.length)

/-- A device's vote reaches the master (R438): COMMIT when every vote is READY before T0(k − 1), else ABORT. -/
def masterVote (s : State) (src id : Nat) (ready : Bool) : State :=
  match s.pst.master with
  | none => s
  | some m =>
    match m.k with
    | none => s
    | some k =>
      if m.id ≠ id || s.rd PST_MC_STS_STATE ≠ 3 || !m.wait.contains src then s
      else if !ready then masterAbort s
      else
        let wait := m.wait.filter fun d => d ≠ src
        let s := (s.ps fun x => { x with master := some { m with wait := wait } }).wr PST_MC_STS_PENDING wait.length
        if wait ≠ [] then s
        else if s.now < t0At s (k - 1) then
          let s := s.wrs [(PST_MC_STS_STATE, 4), (PST_MC_STS_PENDING, m.devs.length)]
          m.devs.foldl (fun s d => if d = ownAddr s then devCommit s id k else modeSend s 8 d [id, k]) s
        else masterAbort s

/-- A device whose held groups have all stopped answers ACK (R437). -/
def mcAck (s : State) : State :=
  match s.pst.held with
  | none => s
  | some h =>
    if h.acked || !((groupsIn s h.groups).all fun g => groupStopped s g) then s
    else
      let s := s.ps fun x => { x with held := some { h with acked := true } }
      if h.src = ownAddr s then masterAck s h.src h.id else modeSend s 4 h.src [h.id]

/-- R85: the last cycle in flight that used a pending group has left flight; a device that holds a change for it may answer (R437). -/
def execGroupStopped (g t : Nat) (s : State) : Host.Outcome State Fault Refusal := done (mcAck (stopGroup (s.at t) g))

/-- R437: a received PREPARE. -/
def execPrepare (h : PstHdr) (id groups t : Nat) (s : State) : Host.Outcome State Fault Refusal :=
  done (pstTake (s.at t) h 4 fun s =>
    if !isMasterAddr s h.src then s
    else
      let (s, ok) := devPrepare s h.src id groups
      if ok then mcAck s else modeSend s 5 h.src [id])

/-- R437: a device's ACK. -/
def execAck (h : PstHdr) (id t : Nat) (s : State) : Host.Outcome State Fault Refusal :=
  done (pstTake (s.at t) h 4 fun s => masterAck s h.src id)

/-- R437: a device's NACK. -/
def execNack (h : PstHdr) (id t : Nat) (s : State) : Host.Outcome State Fault Refusal :=
  done (pstTake (s.at t) h 4 fun s =>
    match s.pst.master with
    | some m => if m.id = id && m.devs.contains h.src && s.rd PST_MC_STS_STATE = 1 then masterAbort s else s
    | none => s)

/-- R438: a received SEAL. -/
def execSeal (h : PstHdr) (id k t : Nat) (s : State) : Host.Outcome State Fault Refusal :=
  done (pstTake (s.at t) h 4 fun s =>
    if !isMasterAddr s h.src then s
    else
      let (s, ready) := devSeal s id k
      modeSend s 7 h.src [id, b2n ready])

/-- R438: a device's VOTE. -/
def execVote (h : PstHdr) (id : Nat) (ready : Bool) (t : Nat) (s : State) : Host.Outcome State Fault Refusal :=
  done (pstTake (s.at t) h 4 fun s => masterVote s h.src id ready)

/-- R439: a received COMMIT. -/
def execMcCommit (h : PstHdr) (id k t : Nat) (s : State) : Host.Outcome State Fault Refusal :=
  done (pstTake (s.at t) h 4 fun s => if isMasterAddr s h.src then devCommit s id k else s)

/-- R439: a received ABORT. -/
def execMcAbort (h : PstHdr) (id t : Nat) (s : State) : Host.Outcome State Fault Refusal :=
  done (pstTake (s.at t) h 4 fun s =>
    match s.pst.held with
    | some x => if isMasterAddr s h.src && x.id = id then devAbort s else s
    | none => s)

/-- R439: a device's APPLIED. -/
def execApplied (h : PstHdr) (id t : Nat) (s : State) : Host.Outcome State Fault Refusal :=
  done (pstTake (s.at t) h 4 fun s => masterApplied s h.src id)

/-- The set names both members of one pair: the master's own, or one whose HELLO shows its PAIR_ADDR. -/
def bothOfPair (s : State) (devs : List Nat) : Bool :=
  (isPair s && devs.contains (ownAddr s) && devs.contains (partnerAddr s))
    || (List.range 2).any fun p => match (s.pport p).peer with
      | some d => devs.contains (s.rd (PST_PORT_STS_PEER_ADDR p)) && devs.contains d.pair && d.pair ≠ 0x3FFF
      | none => false

/-- R436: PREPARE on the master. -/
def mcPrepare (s : State) (groups : Nat) : State :=
  let devs := addrsOf s PST_DEVSET_SET
  if !isMaster s || mcOpen s || groups = 0 || bothOfPair s devs || (devs.contains (ownAddr s) && bit groups 5)
      || s.rd SEQ_STATUS_STATE ≠ 2 then refuse s 0x0E0F
  else
    let id := s.pst.nextId
    let s := s.ps fun x => { x with nextId := (id + 1) % 256, master := some ⟨id, groups, devs, devs, s.tim.cnt, false, none, []⟩ }
    let s := s.wrs [(PST_MC_STS_STATE, 1), (PST_MC_STS_ID, id), (PST_MC_STS_PENDING, devs.length), (PST_MC_TARGET_K, 0xFFFFFFFF)]
    let s := devs.foldl (fun s d =>
      if d ≠ ownAddr s then modeSend s 3 d [id, groups]
      else
        let (s, ok) := devPrepare s d id groups
        if ok then mcAck s else masterAbort s) s
    if devs = [] then report (s.wr PST_MC_STS_STATE 2) 0x0E10 0 id else s

/-- R438: SEAL on the master, sent at its next T0. -/
def mcSeal (s : State) : State :=
  match s.pst.master with
  | some m =>
    if isMaster s && s.rd PST_MC_STS_STATE = 2 then s.ps fun x => { x with master := some { m with sealing := true } } else refuse s 0x0E0F
  | none => refuse s 0x0E0F

/-- R438: ABORT on the master, before COMMIT is sent. -/
def mcHostAbort (s : State) : State :=
  if isMaster s && mcOpen s && s.rd PST_MC_STS_STATE < 4 then masterAbort s else refuse s 0x0E0F

/-- A write of PST_MC_CTRL (R436, R438): CMD 0 has no effect, unknown commands are refused. -/
def mcCtrl (s : State) (v : Nat) : State :=
  match v / 2 ^ 28 % 16 with
  | 0 => s
  | 1 => mcPrepare s (v % 2 ^ 20)
  | 2 => mcSeal s
  | 3 => mcHostAbort s
  | _ => refuse s 0x0E0F

/-- R436. -/
def execMcPrepare (p : Path) (groups t : Nat) (s : State) : Host.Outcome State Fault Refusal :=
  done (hostDo (s.at t) p 0x280040 (0x10000000 + groups % 2 ^ 20) fun s => mcPrepare s (groups % 2 ^ 20))

/-- R438. -/
def execMcSeal (p : Path) (t : Nat) (s : State) : Host.Outcome State Fault Refusal := done (hostDo (s.at t) p 0x280040 0x20000000 mcSeal)

/-- R438. -/
def execMcHostAbort (p : Path) (t : Nat) (s : State) : Host.Outcome State Fault Refusal := done (hostDo (s.at t) p 0x280040 0x30000000 mcHostAbort)

/-- PREP_DL in counts. -/
def prepTicks (s : State) : Nat := usTicks (1000 * s.rd PST_MASTER_PREP_DL)

/-- R437: an ACK is missing PREP_DL after PREPARE. -/
def execPrepDlTimeout (t : Nat) (s : State) : Host.Outcome State Fault Refusal :=
  let s := s.at t
  done (match s.pst.master with
    | some m => if s.rd PST_MC_STS_STATE = 1 && m.wait ≠ [] && m.since + prepTicks s ≤ s.tim.cnt then masterAbort s else s
    | none => s)

/-- COUNT of PST_OOS brought up to date. -/
def oosCount (s : State) : State := s.wr PST_MC_OOS_CNT_COUNT (addrsOf s PST_OOS_OOS).length

/-- R439: T0(k) + PREP_DL, the devices without APPLIED are set in PST_OOS. -/
def execAppliedCheck (t : Nat) (s : State) : Host.Outcome State Fault Refusal :=
  let s := s.at t
  done (match s.pst.master with
    | some m => match m.k with
      | some k =>
        if s.rd PST_MC_STS_STATE ≠ 4 || s.now < t0At s k + ((s.rd PST_MASTER_PREP_DL * 1000000 * 65536 : Nat) : Int) then s
        else
          let late := m.devs.filter fun d => !m.applied.contains d
          let s := oosCount (late.foldl (fun s d => s.wrBit (PST_OOS_OOS (d / 32)) (d % 32) true) s)
          let s := (s.ps fun x => { x with master := none }).wrs [(PST_MC_STS_STATE, 5), (PST_MC_STS_PENDING, 0)]
          if late = [] then s else report s 0x0E13 0 (s.rd PST_MC_OOS_CNT_COUNT)
      | none => s
    | none => s)

/-! ### What T0(n) does to a change -/

/-- A device at T0(k) (R439): applies its staged values together and answers APPLIED, or is OUT_OF_STEP. -/
def devAtT0 (s : State) (n : Nat) : State :=
  match s.pst.held with
  | none => s
  | some h =>
    if h.k ≠ some n then s
    else if !h.commit then mcRelease (outOfStep s)
    else
      let gs := groupsIn s h.groups
      let s := mcRelease (gs.foldl applyStaged s)
      let s := gs.foldl (fun s g => groupRun s n g) s
      let s := s.ps fun x => { x with lastApplied := some h.id }
      if h.src = ownAddr s then masterApplied s h.src h.id else modeSend s 10 h.src [h.id]

/-- The master at T0(n): MC_COMMIT at k, and a SEAL that waits (R438, R439). -/
def masterAtT0 (s : State) (n : Nat) : State :=
  match s.pst.master with
  | none => s
  | some m =>
    if m.k = some n && s.rd PST_MC_STS_STATE = 4 then report s 0x0E12 0 m.id
    else if m.k = some (n + 1) && s.rd PST_MC_STS_STATE = 3 then masterAbort s  -- no vote of every device before T0(k − 1) (R438)
    else if m.sealing && m.k.isNone then
      let k := n + s.rd PST_CFG_MODE_LEAD
      let s := s.ps fun x => { x with master := some { m with k := some k, wait := m.devs } }
      let s := s.wrs [(PST_MC_STS_STATE, 3), (PST_MC_STS_PENDING, m.devs.length), (PST_MC_TARGET_K, k)]
      m.devs.foldl (fun s d =>
        if d ≠ ownAddr s then modeSend s 6 d [m.id, k]
        else
          let (s, ready) := devSeal s m.id k
          masterVote s d m.id ready) s
    else s

end Sys2Proof.Machine
end

