-- ==== Sys2Proof/Machine/Red.lean ====
section
/-! DEFINITION. Pairs, input agreement, digests, resynchronisation and the power feeds (spec/13). -/

namespace Sys2Proof.Machine

open Sys2Proof

/-- Change the Pairs state. -/
def State.rs (s : State) (f : RedSt → RedSt) : State := { s with red := f s.red }

/-! ### Roles and sending (R90, R391) -/

/-- Every group runs: none stopped or pending (R90). -/
def groupsWhole (s : State) : Bool := (stateBits s ||| pendBits s) &&& implGroups s = 0

/-- The outputs of the cycle that now begins are sent (R90, R385, R391, R441): every device but a fail-silent one, one out of step, and
in Pairs mode a member that is neither LEAD nor SECOND or has a group stopped. -/
def maySend (s : State) : Bool :=
  !s.flag ERR_STATUS_FAIL_SILENT && !s.flag PST_STATUS_OUT_OF_STEP
    && (if isPair s then (s.rd RED_STATUS_ROLE = 1 || s.rd RED_STATUS_ROLE = 2) && groupsWhole s else cascRole s ≠ 5)

/-- The member is paired and its partner is not lost. -/
def pairOk (s : State) : Bool := s.flag RED_STATUS_PAIRED && s.flag RED_STATUS_PARTNER_OK
/-- The device's address is the lower of the two. -/
def pairLow (s : State) : Bool := ownAddr s < partnerAddr s

/-- What the partner has sent of a cycle. -/
def partOf (s : State) (n : Nat) : PartCyc := (s.red.parts.find? fun p => p.n = n).getD ⟨n, [], none, none, none⟩
/-- Change what the partner has sent of a cycle; the last 8 cycles are kept. -/
def updPart (s : State) (n : Nat) (f : PartCyc → PartCyc) : State :=
  s.rs fun r => { r with parts := (f (partOf s n) :: r.parts.filter fun p => p.n ≠ n).take 8 }

/-- The partner takes part in the cycle: it sends, or has sent agreement blocks of this cycle or the one before (R391, R395). -/
def partnerIn (s : State) (n : Nat) : Bool :=
  pairOk s && (s.red.pSends || s.red.parts.any fun p => (p.n = n || p.n + 1 = n) && p.blks ≠ [])

/-- The member computes cycles: not in STANDBY before the end of the copy phase (R391, R403). -/
def computes (s : State) : Bool := s.rd RED_STATUS_ROLE ≠ 3 || 2 ≤ s.rd RED_STATUS_SYNC || s.flag RED_STATUS_NO_PARTNER

/-! ### Resynchronisation (R403) -/

/-- Cycles that have not committed are given up: their entries are released, and they leave flight. -/
def dropCycles (s : State) : State :=
  let s := s.seq.cycs.foldl (fun s c => if c.committed || c.missed then s else fldForget (releaseEntries s c) c.n) s
  { s with seq := { s.seq with cycs := s.seq.cycs.filter fun c => c.committed || c.missed } }

/-- Ask a member for its checkpoint or records: not while CASCADE is stopped (R89, R420). -/
def askCkpt (s : State) (dst : Nat) : State := if cascStopped s then s else pstSend s 0x20 0 dst (s.rd SEQ_CYC_LO_CYC_LO) []

/-- A resynchronisation attempt begins with COPYING (R403); the source is asked for its checkpoint. -/
def beginResync (s : State) : State :=
  if s.red.gaveUp then s.wr RED_STATUS_SYNC 0
  else
    let s := dropCycles (s.rs fun r => { r with resync := some ⟨none, [], 0, false⟩ })
    let s := (s.incSat RED_RESYNC_ATTEMPTS 255).wrs [(RED_STATUS_SYNC, 1), (RED_RESYNC_CONFIRM, 0), (RED_RESYNC_LAG, 0)]
    askCkpt s (partnerAddr s)

/-- An attempt has failed (R403); after the third there is no further one. -/
def attemptFailed (s : State) : State :=
  let s := s.incSat RED_CNT_RESYNC_FAIL 255
  if 3 ≤ s.rd RED_RESYNC_ATTEMPTS then
    report ((dropCycles (s.rs fun r => { r with resync := none, gaveUp := true })).wr RED_STATUS_SYNC 0) 0x0D0C
  else beginResync s

/-- The member takes STANDBY and resynchronises (R90, R391, R399, R403). -/
def takeStandby (s : State) : State :=
  let s := s.wrs [(RED_STATUS_ROLE, 3), (RED_STATUS_SENDING, 0)]
  beginResync (s.rs fun r => { r with promote := false, standDown := false, stop := false, leadNext := false })

/-- This member becomes LEAD (R391). -/
def becomeLead (s : State) : State := report ((s.rs fun r => { r with leadNext := false }).wr RED_STATUS_ROLE 1) 0x0D08

/-! ### The agreed set (R395) -/

/-- The kind of an agreement block. -/
def blkKind : AgreeBlk → Nat
  | .held _ => 0
  | .samples _ => 1
  | .field _ _ _ _ => 2
  | .host _ _ _ _ _ _ => 3

/-- One of two values (R395): the valid one; of two valid ones the later; else that of the lower address. -/
def pickValid {α : Type} (low va vb : Bool) (ta tb : Int) (a b : α) : α :=
  match va, vb with
  | true, false => a
  | false, true => b
  | true, true => if ta = tb then (if low then a else b) else if tb < ta then a else b
  | false, false => if low then a else b

/-- The agreed held set. -/
def agreeHeld (sec : List Byte) (low : Bool) (own other : List HeldSlot) : List HeldSlot :=
  own.map fun a => match other.find? fun b => b.slot = a.slot with
    | some b => pickValid low a.ok b.ok (heldTv sec a) (heldTv sec b) a b
    | none => a

/-- The agreed filter input samples. -/
def agreeSamples (low : Bool) (own other : List FirSample) : List FirSample :=
  own.map fun a => match other.find? fun b => b.ch = a.ch && b.m = a.m with
    | some b => pickValid low (!a.bad) (!b.bad) a.tv b.tv a b
    | none => a

/-- The agreed words and counts of the position channels: when both are valid, or neither is, the lower address's. -/
def agreeEnc (low : Bool) (own other : List (Nat × EncRes)) : List (Nat × EncRes) :=
  (own.map fun a => match other.find? fun b => b.1 = a.1 with
    | some b => pickValid low a.2.valid b.2.valid 0 0 a b
    | none => a) ++ other.filter fun b => !own.any fun a => a.1 = b.1

/-- The DIN pins assigned on this member whose channel is not fenced, as a bit set (R395). -/
def dinPins (s : State) : Nat :=
  (List.range 64).foldl (fun m p => if s.rd (FLD_PIN_CFG_FUNC p) = 9 then setBit m p true else m) 0

/-- The agreed DIN levels: those of the lower address, the partner's for its unassigned pins. -/
def agreeDin (low : Bool) (own ownPins other otherPins : Nat) : Nat :=
  (List.range 64).foldl (fun m p =>
    let fromOwn := if low then bit ownPins p else !bit otherPins p
    setBit m p (bit (if fromOwn then own else other) p)) 0

/-- The samples of a cycle join its inputs (R103, R108). -/
def moveSamples (s : State) (n : Nat) : State :=
  let mine (x : FirSample) : Bool := tickCycle (s.rd SEQ_PERIOD_VALUE) (s.rd (FLT_CH_TICK_TICK x.ch)) x.m ≤ n
  let got := s.flt.smp.filter mine
  let s := { s with flt := { s.flt with smp := s.flt.smp.filter fun x => !mine x } }
  updCyc s n fun c => { c with inp := { c.inp with smp := c.inp.smp ++ got } }

/-- The other bank becomes active for a cycle, or the swap is refused (R192). -/
def bankTake (s : State) (n : Nat) : State × Bool :=
  let b := 1 - s.rd OCE_BANK_STS_ACTIVE
  let s := s.wr OCE_BANK_STS_SWAP_PEND 0
  if b = 1 && s.flag OCE_BANK_STS_B_EMPTY then (reportCyc s n 0x040B, false)
  else if !s.flag (bankSealed b) then (reportCyc s n 0x040C, false)
  else (reportCyc (s.wr OCE_BANK_STS_ACTIVE b) n 0x040A, true)

/-- The inputs of a cycle under the agreed set (R395), and what host software sees of a conflict. -/
def agreeSet (s : State) (c : Cyc) (blks : List AgreeBlk) : State :=
  let low := pairLow s
  blks.foldl (fun s b =>
    let inp := ((s.cyc? c.n).getD c).inp
    let put (s : State) (f : CycIn → CycIn) : State := updCyc s c.n fun x => { x with inp := f x.inp }
    match b with
    | .held l => put s fun i => { i with held := agreeHeld (s.sec 3) low i.held l }
    | .samples l => put s fun i => { i with smp := agreeSamples low i.smp l }
    | .field enc din pins ev =>
      let s := put s fun i => { i with enc := agreeEnc low i.enc enc, din := agreeDin low i.din (dinPins s) din pins }
      let evs := if low then s.fld.events ++ ev else ev ++ s.fld.events
      { s with fld := { s.fld with events := evs.mergeSort fun x y => x.tv ≤ y.tv } }
    | .host took mode sps swap reinit dout =>
      let conflict := inp.took && took
      let s := if conflict && !low then report (s.wr SEQ_SP_CTRL_REFUSED 1) 0x0D14 else s
      let theirs := took && (!inp.took || !low)
      let s : State := if theirs then
          let s := put s fun i => { i with took := true, mode := mode, sps := sps, spT0 := i.t0c }
          let s := (s.wr SEQ_MODE_ACT_MODE mode).wrs ((List.range 8).map fun i => (SEQ_SP_ACT_VALUE i, at_ sps i 0))
          { s with seq := { s.seq with spT0 := inp.t0c } }
        else if inp.took then s.wr SEQ_SP_TAKEN_TAKEN c.n
        else s
      let s : State := if swap && !inp.swap && bit inp.runs 1 then
          let (s, ok) := bankTake s c.n
          if ok then bankUse (put s fun i => { i with swap := true, bank := s.rd OCE_BANK_STS_ACTIVE }) else s
        else s
      put s fun i => { i with reinit := i.reinit || reinit, dout := if low then i.dout else dout }) s

/-- Agreement of a cycle is settled: FULL on the agreed set, SOLO on the own set with its report, or on the own set without one while no
partner takes part (R395, R401). -/
def settleAgree (s : State) (n : Nat) (full solo : Bool) : State :=
  let s := moveSamples s n
  match s.cyc? n with
  | none => s
  | some c =>
    if c.run.agreed then s
    else
      let s := if full then agreeSet s c (partOf s n).blks
        else if c.inp.took && isPair s then s.wr SEQ_SP_TAKEN_TAKEN n else s
      let s := updCyc s n fun c => { c with
        run := { c.run with agreed := true, solo := solo }, results := (RED_STATUS_AGREE_SOLO, b2n solo) :: c.results }
      if solo then reportCyc (s.incSat RED_CNT_AGREE_LATE 255) n 0x0D03 else s

/-- The partner's set for a cycle is whole. -/
def partWhole (s : State) (n : Nat) : Bool := (List.range 4).all fun k => (partOf s n).blks.any fun b => blkKind b = k

/-- The SAMPLES block of a cycle, once every sample is captured (R108, R372). -/
def sampleBlock (s : State) (c : Cyc) : Option AgreeBlk :=
  if bit c.inp.runs 0 && !samplesTaken s c.n then none
  else some (.samples (c.inp.smp ++ s.flt.smp.filter fun x => tickCycle (s.rd SEQ_PERIOD_VALUE) (s.rd (FLT_CH_TICK_TICK x.ch)) x.m ≤ c.n))

/-- The FIELD block of a cycle, once every channel in service has its word or count (R264, R372). -/
def fieldBlock (s : State) (c : Cyc) : Option AgreeBlk :=
  if bit c.inp.runs 4 && !((List.range (s.rd FLD_STATUS_CHANNELS)).all fun e => !chanRuns s e || c.inp.enc.any fun x => x.1 = e) then none
  else some (.field c.inp.enc c.inp.din (dinPins s) (s.fld.events.filter fun e => e.cyc = c.n))

/-- Send an agreement block to a paired partner (R395). A block with nothing to hold is sent empty (notes/assumptions/97). -/
def sendBlock (s : State) (n : Nat) (b : AgreeBlk) : State :=
  if s.flag RED_STATUS_PAIRED then pstSendData s 0x10 (partnerAddr s) n (.agree b) else s

/-- Operations that write samples, words or counts: the blocks of cycles in flight that become whole are sent (R395). -/
def writesBlocks (op : State → State) (s : State) : State :=
  let s' := op s
  s'.seq.cycs.foldl (fun x c => match s.cyc? c.n with
    | none => x
    | some c0 =>
      let send (x : State) (b : State → Cyc → Option AgreeBlk) : State := match b s c0, b s' c with
        | none, some v => sendBlock x c.n v
        | _, _ => x
      send (send x sampleBlock) fieldBlock) s'

/-- Agreement of a cycle (R395): FULL once the partner's set, whole by T0(n) + AGREE_DL, and the own set are there; SOLO at that instant where
the partner's is not whole. -/
def agreeTry (s : State) (n : Nat) : State :=
  match s.cyc? n with
  | none => s
  | some c =>
    if c.run.agreed then s
    else if !partnerIn s n then settleAgree s n false false
    else if partWhole s n then
      if (sampleBlock s c).isSome && (fieldBlock s c).isSome then settleAgree s n true false else s
    else if dueAt s c (s.rd RED_CFG_AGREE_DL) ≤ s.tim.cnt then settleAgree s n false true
    else s

/-- R395: a partner's agreement block is received; one that takes part again is no longer lost. -/
def execAgree (h : PstHdr) (b : AgreeBlk) (t : Nat) (s : State) : Host.Outcome State Fault Refusal :=
  done (pstTake (s.at t) h 0x10 fun s =>
    if h.src ≠ partnerAddr s || !s.flag RED_STATUS_PAIRED then s
    else
      let n := fullCyc s h.cyc
      -- one that comes after T0(n) + AGREE_DL finds agreement SOLO
      let late : Bool := ((s.cyc? n).map fun c => decide (dueAt s c (s.rd RED_CFG_AGREE_DL) < s.tim.cnt)).getD false
      let s := if late then agreeTry s n else s
      agreeTry (updPart (s.wr RED_STATUS_PARTNER_OK 1) n fun p => { p with blks := (p.blks.filter fun x => blkKind x ≠ blkKind b) ++ [b] }) n)

/-- R103: a sample of filter channel `k` at tick `m`. -/
def execFirSample (k m t : Nat) (s : State) : Host.Outcome State Fault Refusal := done (writesBlocks (firSampleOp k m) (s.at t))

/-- R261: a sample of a position channel. -/
def execEncSample (e n k t : Nat) (s : State) : Host.Outcome State Fault Refusal := done (writesBlocks (encSampled e n k t) (s.at t))

/-- R263, R264: a channel's own transfer completes. -/
def execEncTransferEnd (e : Nat) (w : EncWord) (t : Nat) (s : State) : Host.Outcome State Fault Refusal :=
  done (writesBlocks (encWord e w) (s.at t))

/-- R266, R267: the drive clocks a channel that is relayed. -/
def execRelayTransfer (e : Nat) (w : Option EncWord) (t : Nat) (s : State) : Host.Outcome State Fault Refusal :=
  done (writesBlocks (relayTransfer e w) (s.at t))

/-- R395: T0(n) + AGREE_DL. -/
def execAgreeDeadline (n t : Nat) (s : State) : Host.Outcome State Fault Refusal :=
  done (agreeTry (s.at t) n)

/-! ### The partner is lost (R401), and the backup master takes over (R428) -/

/-- The backup becomes the acting master (R428, R440). -/
def takeOver (s : State) : State :=
  if s.flag PST_STATUS_ACTING_MASTER || partnerAddr s ≠ masterAddr s || cascRole s = 1 then s
  else
    let s := report (s.wrs [(PST_STATUS_ACTING_MASTER, 1), (PST_MC_STS_STATE, 0)]) 0x0E0C
    devUnvoted (pstSend s 2 3 bcastAll (s.rd SEQ_CYC_LO_CYC_LO) [])

/-- The member declares its partner lost (R401, R413). -/
def partnerLost (s : State) : State :=
  if !pairOk s then s
  else
    let s := report ((s.wr RED_STATUS_PARTNER_OK 0).rs fun r => { r with pSends := false }) 0x0D07
    let s := if s.rd RED_STATUS_ROLE = 2 then s.rs fun r => { r with leadNext := true } else s
    let s := s.seq.cycs.foldl (fun s c => settleAgree s c.n false false) s
    let synced : Bool := s.rd RED_STATUS_SYNC = 3 && s.red.promote
    let s := if s.rd RED_STATUS_ROLE = 3 && s.rd RED_STATUS_SYNC ≠ 0 && !synced then attemptFailed s else s
    takeOver s

/-- R401, R428: a FAIL_SILENT notice. -/
def execNoticeFailSilent (h : PstHdr) (t : Nat) (s : State) : Host.Outcome State Fault Refusal :=
  done (pstTake (s.at t) h 2 fun s => if isPair s && h.src = partnerAddr s then partnerLost s else s)

/-! ### Source words (R396, R432) -/

/-- R396, R432: the partner's source words, or under WIDEN those of a device of the string. -/
def execSrcword (h : PstHdr) (w : SrcWord) (t : Nat) (s : State) : Host.Outcome State Fault Refusal :=
  done (pstTake (s.at t) h 0x11 fun s =>
    let n := fullCyc s h.cyc
    let mine : Bool := isPair s && s.flag RED_STATUS_PAIRED && h.src = partnerAddr s
    if mine then
      let s := updPart s n fun p => { p with src := some w }
      match (s.cyc? n).bind (·.fail) with
      | some f => if f.formed then s else
          let s := updCyc s n fun c => { c with fail := some { f with partner := some w } }
          if hasPurpose s 0 then s else formL s n
      | none => s
    else if hasPurpose s 0 then
      match s.cyc? n with
      | some c =>
        let f := c.fail.getD ⟨⟨[], []⟩, none, [], false, noLoss⟩
        if f.formed then s else updCyc s n fun c => { c with fail := some { f with peers := f.peers ++ [w] } }
      | none => s
    else s)

/-! ### Digests (R398 to R400) -/

/-- The data of a COMMIT block (R372), in its order, as words, the digest field 0. The spec gives the fields and not their widths
(notes/assumptions/97). -/
def commitWords (s : State) (c : Cyc) (r : CommitRec) : List Nat :=
  [c.inp.mode, c.inp.bank, s.rd (bankGen c.inp.bank), r.scen + 65536 * b2n r.noMatch, c.out.standing, r.src, r.lane, b2n r.reg]
    ++ r.f.flatten ++ r.tauA ++ [0, 0]

/-- The commit digest of a cycle (R398): the first 8 octets of SHA-384, first octet lowest. -/
def digestOf (s : State) (c : Cyc) (r : CommitRec) : Nat :=
  let tag := leBytes 4 (s.rd RED_TAG_LO_VALUE) ++ leBytes 4 (s.rd RED_TAG_HI_VALUE)
  u64 (Config.sha384 (leBytes 6 c.n ++ tag ++ leBytes 4 (groupGen c.inp.gens) ++ leBytes 8 (netCanGen c.inp.gens)
    ++ (commitWords s c r).flatMap (leBytes 4))) 0

/-- The member yields after cycle `n` (R399): it sends nothing of n + 1 or later and resynchronises. -/
def yieldAfter (s : State) (n : Nat) : State :=
  let s := report s 0x0D06 0 n
  if s.rd RED_STATUS_ROLE = 3 then attemptFailed s else takeStandby s

/-- The digests of cycle `n` differ (R399, R403): who yields. -/
def digMismatch (s : State) (n : Nat) (clean pclean : Bool) : State :=
  let s := s.incSat RED_CNT_MISMATCH 255
  let role := s.rd RED_STATUS_ROLE
  let yields : Bool :=
    if clean = pclean then role = 3 || (role = 2 && s.red.pSends)
    else if clean then role = 3 && s.rd RED_STATUS_SYNC ≠ 3
    else true
  if yields then yieldAfter s n
  else
    let s := report s 0x0D05 0 n
    let lead : Bool := role = 2 || (role = 3 && clean && !pclean)
    let s := s.rs fun r => { r with pSends := false }
    if lead then becomeLead s else s

/-- Equal digests (R403): in CONFIRMING they are counted, and RESYNC_N of them make the member SYNCED. -/
def digEqual (s : State) : State :=
  if s.rd RED_STATUS_SYNC ≠ 2 then s
  else
    let s := s.incSat RED_RESYNC_CONFIRM 255
    if s.rd RED_CFG_RESYNC_N ≤ s.rd RED_RESYNC_CONFIRM then
      report ((s.rs fun r => { r with resync := none }).wr RED_STATUS_SYNC 3) 0x0D0B
    else s

/-- Both digests of a cycle, or MISSED markers, are there (R399, R400); a partner that is lost is not compared with (R413). -/
def digCompare (s : State) (n : Nat) : State :=
  match s.red.digs.find? fun d => d.1 = n, (partOf s n).dig with
  | some (_, own, clean), some (part, pclean) =>
    let s : State := if s.rd SEQ_LAST_COMMIT_LAST_COMMIT = n % 2 ^ 32 then
        let p := part.getD 0
        s.wrs [(RED_PDIG_LO_VALUE, p), (RED_PDIG_HI_VALUE, p / 2 ^ 32)] else s
    if !pairOk s then s
    else match own, part with
      | some a, some b => if a = b then digEqual s else digMismatch s n clean pclean
      | some _, none => match (s.jnlOf n).bind (·.commit) with
        | some r => pstSendData s 0x13 (partnerAddr s) n (.commit r)
        | none => s
      | _, _ => s
  | _, _ => s

/-- R399, R445: the partner's digest or MISSED marker, with the drive formats it has settled (port · 65536 + DRIVE_ID, format). -/
def execDigest (h : PstHdr) (dig : Option Nat) (clean : Bool) (fmts : List (Nat × Nat)) (t : Nat) (s : State) :
    Host.Outcome State Fault Refusal :=
  done (pstTake (s.at t) h 0x12 fun s =>
    if h.src ≠ partnerAddr s || !s.flag RED_STATUS_PAIRED then s
    else
      let n := fullCyc s h.cyc
      let s := fmts.foldl (fun s f =>
        updDrive s (f.1 / 65536) (f.1 % 65536) fun d => { d with pfmt := f.2 }) s
      digCompare (updPart s n fun p => { p with dig := some (dig, clean) }) n)

/-- R400: the partner's COMMIT block, adopted for a cycle this member missed. -/
def execCommitblk (h : PstHdr) (r : CommitRec) (t : Nat) (s : State) : Host.Outcome State Fault Refusal :=
  done (pstTake (s.at t) h 0x13 fun s =>
    if h.src ≠ partnerAddr s || !s.flag RED_STATUS_PAIRED then s
    else
      let n := fullCyc s h.cyc
      let s := updPart s n fun p => { p with commit := some r }
      if s.red.missed.contains n then adopt s n r else s)

/-- A stage of cycle `n` that reads the commit of a cycle `lag` before it starts: a commit that has not come is no longer adopted (R400). -/
def adoptLate (s : State) (n lag : Nat) : State :=
  (s.red.missed.filter fun m => m + lag ≤ n).foldl (fun s m =>
    report (s.rs fun r => { r with missed := r.missed.filter fun x => x ≠ m }) 0x0D0A 0 m) s

/-! ### Checkpoints and records (R403) -/

/-- A member that does not send serves an activated Reserve the records of its NAND journal's last run, up to that run's FAIL_SILENT marker
(R408); a record whose page did not read clean is reported (R366). DESIGN CHOICE: the request is the Reserve's CKPT; log entry 72. -/
def serveNand (s : State) (dst : Nat) (bad : List Nat) : State :=
  let run := ((s.jnl.nand.dropWhile fun r => r.status = 4 || r.status = 5).takeWhile fun r => r.status ≠ 4).reverse
  run.foldl (fun s r => if bad.contains r.n then report s 0x0C07 else pstSendData s 0x21 dst r.n (.record r)) s

/-- For every allocation job, the words of the saved-iterate slot of the newest committed cycle, by lane-memory address (R236, R403). -/
def savedWords (s : State) : List (Nat × Nat) :=
  let n := s.rd SEQ_LAST_COMMIT_LAST_COMMIT
  let jobs := ((primLanes s).filterMap id).map (fun l => (l, 0))
    ++ (List.range (s.lanes - 4)).flatMap fun i => (laneScens s (i + 4)).map fun x => (i + 4, x.1)
  jobs.flatMap fun q =>
    let a := at_ (s.laneMap q.1).areas q.2 (256, 0)
    let o := a.1 + 16 + n % 3 * (a.2 + 2)
    (List.range (a.2 + 2)).map fun w => (laneKey q.1 (o + w), laneWord s q.1 (o + w))

/-- How many members of the pair send. -/
def senders (s : State) : Nat := b2n (s.flag RED_STATUS_SENDING) + b2n (pairOk s && s.red.pSends)

/-- A sending member serves its checkpoint, and its records to a partner (R403, R405); another member serves a Reserve (R408). -/
def serveCkpt (s : State) (dst : Nat) (bad : List Nat) : State :=
  if cascStopped s then s
  else if s.rd SEQ_STATUS_STATE ≠ 2 || !s.flag RED_STATUS_SENDING then
    if isPair s && s.rd RED_MIRROR_CFG_RESERVE_ADDR ≠ 0x3FFF && s.rd RED_MIRROR_CFG_RESERVE_ADDR = dst then serveNand s dst bad else s
  else match bestCkpt s with
    | none => s
    | some (k, recs) =>
      let s := pstSendData s 0x20 dst k.n (.ckpt k (imageTag s) (senders s) (savedWords s))
      if dst = partnerAddr s then recs.foldl (fun s r => pstSendData s 0x21 dst r.n (.record r)) s else s

/-- R403, R405: a checkpoint, or (none) the request for one. `senders` is how many members of the pair send; `its` the words of the
saved-iterate slots with their addresses in lane memory; `bad` the cycles of NAND journal pages that do not read clean in serving a request. -/
def execCkpt (h : PstHdr) (k : Option Ckpt) (tag senders : Nat) (its : List (Nat × Nat)) (bad : List Nat) (t : Nat) (s : State) :
    Host.Outcome State Fault Refusal :=
  done (pstTake (s.at t) h 0x20 fun s =>
    if cascStopped s then s
    else match k with
      | none => serveCkpt s h.src bad
      | some k =>
        if s.red.mirror then s.rs fun r => { r with resync := some ⟨some k, [], tag, false⟩, few := senders < 2 }
        else if s.rd RED_STATUS_SYNC = 1 && h.src = partnerAddr s then
          let s := its.foldl (fun s w => lanePut s (w.1 / 24576) (w.1 % 24576) [w.2]) s  -- the addresses of `laneKey`
          s.rs fun r => { r with resync := some ⟨some k, [], tag, its = []⟩ }
        else s)

/-- R403: a journal record, accepted in order, with its CRC intact and the announced tag; else the attempt fails. -/
def execJrec (h : PstHdr) (r : JnlRec) (ok : Bool) (t : Nat) (s : State) : Host.Outcome State Fault Refusal :=
  done (pstTake (s.at t) h 0x21 fun s =>
    if s.rd RED_STATUS_SYNC ≠ 1 || h.src ≠ partnerAddr s || cascStopped s then s
    else match s.red.resync with
      | some x => match x.ckpt with
        | some k =>
          let next := match x.recs.getLast? with
            | some l => l.n + 1
            | none => k.n
          if !ok || r.tag ≠ x.tag || r.n ≠ next then attemptFailed s
          else
            (s.rs fun y => { y with resync := some { x with recs := x.recs ++ [r] } }).wr RED_RESYNC_LAG (min (x.recs.length + 1) 0xFFFF)
        | none => s
      | none => s)

/-- The T0 chain goes on from a cycle with a known T0: the next one is the first after now. -/
def chainFrom_ (s : State) (n : Nat) (t0 : Int) : State :=
  let k : Int := (s.now - t0) / max 1 (periodUnits s) + 1
  let k := k.toNat
  { s with seq := { s.seq with nextN := n + k, nextT0 := t0 + (k : Int) * periodUnits s } }

/-- The filters sample from the first tick at or after T0 of cycle `n` (R103, R108). -/
def fltResume (s : State) (n : Nat) : State :=
  { s with flt := { s.flt with next := (List.range (s.rd FLT_STATUS_CHANNELS)).map fun c =>
    let ti := max 1 (s.rd (FLT_CH_TICK_TICK c))
    (n * s.rd SEQ_PERIOD_VALUE + ti - 1) / ti } }

/-- R403: the copied checkpoint and records are rebuilt, and the member joins agreement from the next T0. The copied iterates allow warm
starts. -/
def execResyncCopyDone (t : Nat) (s : State) : Host.Outcome State Fault Refusal :=
  let s := s.at t
  done (match s.red.resync with
    | some x => match x.ckpt with
      | some k =>
        if s.rd RED_STATUS_SYNC ≠ 1 || s.rd SEQ_STATUS_STATE = 0 then s
        else
          let s := rebuild s k x.recs
          let s := { s with alloc := { s.alloc with warm := !x.broken } }
          let s := match x.recs.getLast? with
            | some r => match r.inp with
              | some i =>
                -- the settings generations are the source's, as they enter the digest (R398)
                let s : State := { s with seq := { s.seq with gens := i.gens } }
                if s.pst.joinAt.isSome then s else chainFrom_ s r.n i.t0c
              | none => s
            | none => s
          (fltResume s s.seq.nextN).wrs [(RED_STATUS_SYNC, 2), (RED_RESYNC_LAG, 0), (RED_RESYNC_CONFIRM, 0), (SEQ_STATUS_RESUMED, 1), (SEQ_STATUS_RESYNCED, 1)]
      | none => s
    | none => s)

/-! ### Host requests (R403, R404, R411) -/

/-- R404: a promotion is taken for the next T0, or refused. -/
def redPromote (s : State) : State :=
  if s.rd RED_STATUS_ROLE = 3 && (s.rd RED_STATUS_SYNC = 3 || s.flag RED_STATUS_NO_PARTNER) then s.rs fun r => { r with promote := true }
  else refuse s 0x0D0E

/-- R404: a stand-down is taken for the next T0, or refused. -/
def redStandDown (s : State) : State :=
  if (s.rd RED_STATUS_ROLE = 1 || s.rd RED_STATUS_ROLE = 2) && pairOk s && s.red.pSends then s.rs fun r => { r with standDown := true }
  else refuse s 0x0D0E

/-- R403: resynchronisation attempts go on. -/
def redResync (s : State) : State :=
  let s := (s.rs fun r => { r with gaveUp := false }).wr RED_RESYNC_ATTEMPTS 0
  if s.rd RED_STATUS_ROLE = 3 && s.rd RED_STATUS_SYNC = 0 && s.rd SEQ_STATUS_STATE ≠ 0 then beginResync s else s

/-- R411. -/
def clrFeed (s : State) : State :=
  s.wrs [(RED_FEED_CNT_A_LOSS, 0), (RED_FEED_CNT_B_LOSS, 0), (RED_FEED_CNT_VAON_LOSS, 0), (RED_FEED_CNT_LAST_GASP, 0)]

/-- R404. -/
def execRedPromote (p : Path) (t : Nat) (s : State) : Host.Outcome State Fault Refusal := done (hostDo (s.at t) p 0x270004 1 redPromote)
/-- R404. -/
def execRedStandDown (p : Path) (t : Nat) (s : State) : Host.Outcome State Fault Refusal := done (hostDo (s.at t) p 0x270004 2 redStandDown)
/-- R403. -/
def execRedResync (p : Path) (t : Nat) (s : State) : Host.Outcome State Fault Refusal := done (hostDo (s.at t) p 0x270004 8 redResync)
/-- R411. -/
def execClrFeed (p : Path) (t : Nat) (s : State) : Host.Outcome State Fault Refusal := done (hostDo (s.at t) p 0x270004 32 clrFeed)

/-- What T0 does to the role (R391, R399, R404): a member that stops sending, a stand-down, a promotion. -/
def roleAtT0 (s : State) : State :=
  if s.red.stop then takeStandby s
  else
    let s := if s.red.standDown then
        (s.rs fun r => { r with standDown := false }).wrs [(RED_STATUS_ROLE, 3), (RED_STATUS_SYNC, 3)] else s
    if s.red.promote && s.rd RED_STATUS_ROLE = 3 then
      let s := report (s.rs fun r => { r with promote := false }) 0x0D0D
      if pairOk s && s.red.pSends then s.wr RED_STATUS_ROLE 2 else becomeLead s
    else s

/-! ### Feeds (R409 to R412) -/

/-- A feed is in warning, a lost feed counted so (R412). -/
def inWarning (s : State) (x : Nat) : Bool :=
  if x = 0 then s.flag RED_FEED_A_WARN || s.flag RED_FEED_A_LOST else s.flag RED_FEED_B_WARN || s.flag RED_FEED_B_LOST


/-- Both feeds are in warning (R412): the marker goes into the NAND journal ahead of the records still waiting; in SLEEP it is only
counted. -/
def lastGasp (s : State) : State :=
  if !(inWarning s 0 && inWarning s 1) || s.red.gasp then s
  else
    let s := s.incSat RED_FEED_CNT_LAST_GASP 255
    let s := s.rs fun r => { r with gasp := true }
    if asleep s || !s.flag JNL_STATUS_NAND_OK then s
    else
      let mark : JnlRec := ⟨s.rd SEQ_LAST_COMMIT_LAST_COMMIT, 5, 0, s.tim.cnt, imageTag s, none, none, none, 0, true, false⟩
      report ({ s with jnl := { s.jnl with nand := mark :: s.jnl.nand } }.incWrap JNL_NAND_PTR_PTR) 0x0D18

/-- R409: a VAON input falls below V_AONL (`low`), or stands above it again. -/
def execVaonLoss (x : Nat) (low : Bool) (t : Nat) (s : State) : Host.Outcome State Fault Refusal :=
  let s := s.at t
  done (
    if 1 < x then s
    else
      let s := s.wrb (if x = 0 then RED_FEED_VAON_A_OK else RED_FEED_VAON_B_OK) (!low)
      if low then report (s.incSat RED_FEED_CNT_VAON_LOSS 255) 0x0D15 x else s)

/-- R410, R412: a main feed enters or leaves warning. -/
def execFeedWarning (x : Nat) (on : Bool) (t : Nat) (s : State) : Host.Outcome State Fault Refusal :=
  let s := s.at t
  done (if 1 < x then s else lastGasp (s.wrb (if x = 0 then RED_FEED_A_WARN else RED_FEED_B_WARN) on))

/-- R411: a main feed becomes lost, or is no longer lost; FEEDSEL falls unless the other feed is lost too. -/
def execFeedLoss (x : Nat) (on : Bool) (t : Nat) (s : State) : Host.Outcome State Fault Refusal :=
  let s := s.at t
  done (
    if 1 < x then s
    else
      let s := s.wrb (if x = 0 then RED_FEED_A_LOST else RED_FEED_B_LOST) on
      if !on then s
      else
        let other := s.flag (if x = 0 then RED_FEED_B_LOST else RED_FEED_A_LOST)
        let s := if other then s else s.wr (if x = 0 then RED_FEED_FEEDSEL_A else RED_FEED_FEEDSEL_B) 0
        let s := (s.incSat (if x = 0 then RED_FEED_CNT_A_LOSS else RED_FEED_CNT_B_LOSS) 255).rs fun r => { r with down := setBit r.down x true }
        lastGasp (report s 0x0D16 x))

/-- R411: a feed has been neither lost nor in warning for t_RET; one that was lost has returned. -/
def execFeedRestored (x t : Nat) (s : State) : Host.Outcome State Fault Refusal :=
  let s := s.at t
  done (
    if 1 < x || inWarning s x then s
    else
      let back := bit s.red.down x
      let s := s.rs fun r => { r with gasp := false, down := setBit r.down x false }
      let s := if asleep s then s else s.wr (if x = 0 then RED_FEED_FEEDSEL_A else RED_FEED_FEEDSEL_B) 1
      if back then report s 0x0D17 x else s)

end Sys2Proof.Machine
end

