-- ==== Sys2Proof/Machine/Pst.lean ====
section
/-! DEFINITION. Piste ports, HELLO, the master, alignment, joining, and the per-cycle shares (spec/14). -/

namespace Sys2Proof.Machine

open Sys2Proof

/-! ### Versions (R442, R443) -/

/-- The highest common version (R442). -/
def settleVer (a b : List (Nat × Nat × Nat)) : Option (Nat × Nat) :=
  let all := a.flatMap fun x => b.filterMap fun y =>
    let hi := min x.2.2 y.2.2
    if x.1 = y.1 && max x.2.1 y.2.1 ≤ hi then some (x.1, hi) else none
  all.foldl (fun m v => match m with
    | none => some v
    | some w => if w.1 < v.1 || (w.1 = v.1 && w.2 < v.2) then some v else some w) none

/-! ### Pairing (R391, R393) -/

/-- The members exchange tags over a trained port (R393, R391, R407): equal tags pair them; unequal ones, or two found sending as LEAD, make
the higher address stop. -/
def pairCheck (s : State) (d : HelloData) (first : Bool) : State :=
  let s := s.rs fun r => { r with pState := d.state, pSends := d.sends }
  let tag := s.rd RED_TAG_LO_VALUE + 2 ^ 32 * s.rd RED_TAG_HI_VALUE
  let mine : Bool := s.flag RED_STATUS_SENDING && s.rd SEQ_STATUS_STATE = 2
  if d.tag = tag then
    if s.flag RED_STATUS_PAIRED then s
    else
      let s := s.wrs [(RED_STATUS_PAIRED, 1), (RED_STATUS_PARTNER_OK, 1), (RED_PTAG_LO_VALUE, d.tag), (RED_PTAG_HI_VALUE, d.tag / 2 ^ 32)]
      let s := report s 0x0D01
      let s : State := if mine && d.sends then
          let s := report s 0x0D19
          if pairLow s then s else s.rs fun r => { r with stop := true }
        else s
      if s.rd RED_STATUS_ROLE = 3 && s.rd RED_STATUS_SYNC = 0 && s.rd SEQ_STATUS_STATE ≠ 0 then beginResync s else s
  else if first then
    let s := report s 0x0D02
    if mine && !pairLow s then s.rs fun r => { r with stop := true } else s
  else s

/-- The link to the partner is lost: the pairing ends with it (R393, R401). -/
def pairLinkLost (s : State) : State :=
  if isPair s && s.flag RED_STATUS_PAIRED && !reachable s (partnerAddr s) 0x10 then
    (partnerLost s).wrs [(RED_STATUS_PAIRED, 0), (RED_PTAG_LO_VALUE, 0), (RED_PTAG_HI_VALUE, 0)]
  else s

/-- The device has lost a master that has no partner (R428). -/
def masterLost (s : State) : State :=
  if s.pst.masterLost || isMaster s then s
  else
    let s := report ((s.ps fun x => { x with masterLost := true }).wr PST_STATUS_MASTER_OK 0) 0x0E0B
    devUnvoted (pstSend s 2 4 bcastAll (s.rd SEQ_CYC_LO_CYC_LO) [])

/-! ### Training (R416, R417) -/

/-- A port loses training (R417): queued frames go, the partner and the master may be lost, and it trains again. -/
def linkLoss (s : State) (p : Nat) : State :=
  if s.rd (PST_PORT_STS_STATE p) < 2 then s
  else
    let x := s.pport p
    let noPair : Bool := (x.peer.map fun d => s.rd (PST_PORT_STS_PEER_ADDR p) = masterAddr s && d.pair = 0x3FFF).getD false
    let s := s.incSat (PST_PORT_CNT_RETRAIN p) 255
    let s := s.wrs [(PST_PORT_STS_STATE p, 1), (PST_PORT_STS_LANE0_OK p, 0), (PST_PORT_STS_LANE1_OK p, 0), (PST_PORT_VER_MAJOR p, 0),
      (PST_PORT_VER_MINOR p, 0)]
    let s := updPst s p fun _ => { PstPort.reset with stepAt := s.tim.cnt }
    let s := pairLinkLost (report s 0x0E02 p)
    if noPair then masterLost s else s

/-- R416: a training step has not completed in 50 ms. -/
def execPisteTrainTimeout (p t : Nat) (s : State) : Host.Outcome State Fault Refusal :=
  let s := s.at t
  let x := s.pport p
  done (
    if 1 < p || s.rd (PST_PORT_STS_STATE p) ≠ 1 || s.tim.cnt < x.stepAt + usTicks 50000 then s
    else
      let s := s.incSat (PST_PORT_CNT_TRAIN_FAIL p) 255
      let s := if x.failRun then s else report s 0x0E04 p
      updPst s p fun x => { x with failRun := true, peer := none, stepAt := s.tim.cnt + usTicks 100000 })

/-- R416: a port on one lane retries its failed lane. -/
def execPisteLaneRetry (p : Nat) (ok : Bool) (t : Nat) (s : State) : Host.Outcome State Fault Refusal :=
  let s := s.at t
  done (
    if p ≤ 1 && (s.rd (PST_PORT_STS_STATE p) = 4 || s.rd (PST_PORT_STS_STATE p) = 2) && ok then
      s.wrs [(PST_PORT_STS_STATE p, if s.rd (PST_PORT_STS_STATE p) = 4 then 3 else 2), (PST_PORT_STS_LANE0_OK p, 1), (PST_PORT_STS_LANE1_OK p, 1)]
    else s)

/-- R417: invalid sync headers make a port lose training. -/
def execPisteLinkLoss (p t : Nat) (s : State) : Host.Outcome State Fault Refusal :=
  let s := s.at t
  done (if p ≤ 1 then linkLoss s p else s)

/-- What this device's HELLO carries (R418). -/
def ownHello (s : State) : HelloData :=
  { role := cascRole s, masterEn := s.flag GLB_STRAP_MASTER_EN, tag := s.rd RED_TAG_LO_VALUE + 2 ^ 32 * s.rd RED_TAG_HI_VALUE,
    pair := if s.flag PST_CFG_PAIRS then partnerAddr s else 0x3FFF, offers := ifaceOffers s 1 0, period := s.rd SEQ_PERIOD_VALUE,
    commit := s.rd SEQ_COMMIT_OFS_VALUE, phase := s.rd SEQ_T0_PHASE_VALUE, held := s.pst.held.map (·.id), applied := s.pst.lastApplied,
    state := s.rd SEQ_STATUS_STATE, sends := s.flag RED_STATUS_SENDING }

/-- R417, R418: HELLO is sent. -/
def execHelloSend (p t : Nat) (s : State) : Host.Outcome State Fault Refusal :=
  let s := s.at t
  done (
    if p ≤ 1 && s.rd (PST_PORT_STS_STATE p) ≠ 0 then
      s.emit (.pisteData 1 (s.rd (PST_PORT_STS_PEER_ADDR p)) (s.rd SEQ_CYC_LO_CYC_LO) (.hello (ownHello s)))
    else s)

/-- R417: no HELLO for 10 ms. -/
def execHelloTimeout (p t : Nat) (s : State) : Host.Outcome State Fault Refusal :=
  let s := s.at t
  done (if p ≤ 1 && (s.pport p).helloAt + usTicks 10000 ≤ s.tim.cnt then linkLoss s p else s)

/-- R421: a frame failed: one received, whose replay is asked for, or (`tx`) the first one of this device not acknowledged, at that
transmission; a fifth failure makes the port lose training. -/
def execPisteFrameError (p : Nat) (tx : Option Nat) (t : Nat) (s : State) : Host.Outcome State Fault Refusal :=
  let s := s.at t
  done (
    if 1 < p || s.rd (PST_PORT_STS_STATE p) < 2 then s
    else match tx with
      | none => s
      | some k =>
        if 5 ≤ k then linkLoss s p
        else s.incSat (PST_PORT_CNT_REPLAY p) 255)

/-- R425: a port starts a link-delay exchange. -/
def execDelayTimer (p t : Nat) (s : State) : Host.Outcome State Fault Refusal :=
  let s := s.at t
  done (
    if p ≤ 1 && 2 ≤ s.rd (PST_PORT_STS_STATE p) && s.rd (PST_PORT_VER_MAJOR p) ≥ 2 then
      s.emit (.piste 3 0 (s.rd (PST_PORT_STS_PEER_ADDR p)) (s.rd SEQ_CYC_LO_CYC_LO) [p])
    else if p = 2 && portCarries s 2 3 then
      headSend (s.emit (.piste 3 0 bcastAll (s.rd SEQ_CYC_LO_CYC_LO) [p])) 3 (ownAddr s) bcastAll (s.rd SEQ_CYC_LO_CYC_LO) 0
    else s)

/-- The delay of the link on which a frame arrived (R425): the mean of the last values of d. -/
def linkDelay (s : State) (p : Nat) : Int :=
  let l := (s.pport p).d
  if l.isEmpty then 0 else divRne (l.foldl (· + ·) 0) l.length

/-- R425: a link-delay exchange on a port is complete: its four time-stamps are counts of CNT, 4 ns each. Through the string head they are the
MAC captures, t1 and t4 of this device still without the terms of R321 (R424). -/
def execDelay (p : Nat) (t1 t2 t3 t4 : Int) (t : Nat) (s : State) : Host.Outcome State Fault Refusal :=
  let s := s.at t
  done (
    if 2 < p || (p < 2 && s.rd (PST_PORT_STS_STATE p) = 0) || (p = 2 && !portCarries s 2 3) then s
    else
      let path : Int := if p = 2 then (let x := pathNs s (headPort s); ((x.1 + x.2 : Nat) : Int) / 2) else 0
      let d := ((t4 - t1) - (t3 - t2)) * 2 - path
      let s := updPst s p fun x => { x with d := (d :: x.d).take 8 }
      if p < 2 then s.wr (PST_PORT_DELAY_DELAY_NS p) (unsigned 16 (linkDelay s p)) else s)

/-! ### HELLO and notices (R418, R427, R428) -/

/-- The checks of a HELLO (R418), each reported when it starts to fail. -/
def helloChecks (s : State) (p src : Nat) (d : HelloData) : State :=
  let x := s.pport p
  let addr : Bool := src = ownAddr s
  let master : Bool := (d.masterEn || d.role = 1) && src ≠ masterAddr s
  let timing : Bool := src = masterAddr s && !addr
    && !(d.period = s.rd SEQ_PERIOD_VALUE && d.commit = s.rd SEQ_COMMIT_OFS_VALUE && d.phase = s.rd SEQ_T0_PHASE_VALUE)
  let s := updPst s p fun x => { x with addrBad := addr, masterBad := master, timingBad := timing }
  let s := if addr && !x.addrBad then report s 0x0E07 p else s
  let s := if master && !x.masterBad then report s 0x0E08 p else s
  if timing && !x.timingBad then report s 0x0E09 p else s

/-- R441: a device's OUT_OF_STEP notice: a partner that is out of step no longer sends. -/
def execNoticeOutOfStep (h : PstHdr) (t : Nat) (s : State) : Host.Outcome State Fault Refusal :=
  done (pstTake (s.at t) h 2 fun s =>
    if isPair s && h.src = partnerAddr s then
      let s := if s.rd RED_STATUS_ROLE = 2 && s.red.pSends then s.rs fun r => { r with leadNext := true } else s
      s.rs fun r => { r with pSends := false }
    else s)

/-- R428: the backup has taken over: it is accepted as master, and a change not voted on is aborted (R439). -/
def execNoticeActingMaster (h : PstHdr) (t : Nat) (s : State) : Host.Outcome State Fault Refusal :=
  done (pstTake (s.at t) h 2 fun s => devUnvoted (s.ps fun x => { x with backup := some h.src, masterLost := false }))

/-- R428: the master is lost and has no backup. -/
def execNoticeMasterLost (h : PstHdr) (t : Nat) (s : State) : Host.Outcome State Fault Refusal :=
  done (pstTake (s.at t) h 2 fun s =>
    if s.pst.masterLost || isMaster s then s
    else devUnvoted (report ((s.ps fun x => { x with masterLost := true }).wr PST_STATUS_MASTER_OK 0) 0x0E0B))

/-- HANDBACK while the master sends (R428); otherwise the write is discarded. -/
def handback (s : State) : State :=
  if s.flag PST_STATUS_ACTING_MASTER && pairOk s && s.red.pSends then s.ps fun x => { x with handback := true } else s

/-- R428. -/
def execHandback (p : Path) (t : Nat) (s : State) : Host.Outcome State Fault Refusal := done (hostDo (s.at t) p 0x280004 2 handback)

/-! ### Alignment (R426, R427) -/

/-- R426, R427: an ALIGN: its Piste source offset, and the check of CYC. `corr` is CORRECTION, `launch` the master's corrected time at
launch, `valid` that it carries valid time. Passed on, it takes the delay of the link it came by and its residence time, a free value. -/
def execAlign (h : PstHdr) (launch corr : Int) (valid : Bool) (t : Nat) (s : State) : Host.Outcome State Fault Refusal :=
  let stay : Int := (Config.fit 29 [h.cyc, h.hops, h.port] 0).toNat
  let corr' := corr + linkDelay s h.port * 65536 + stay
  done (pstTakeWith (s.at t) h 5 [unsigned 96 launch, unsigned 64 corr'] fun s =>
    -- a named master that hears its backup send ALIGN knows that the backup acts (R428)
    let s := if cascRole s = 1 && h.src ≠ ownAddr s then s.ps fun x => { x with backup := some h.src } else s
    if !isMasterAddr s h.src || s.flag PST_STATUS_ACTING_MASTER then s
    else
      let s := s.wrs [(PST_STATUS_MASTER_OK, 1), (PST_ALIGN_MISS, 0), (PST_ALIGN_HOPS, h.hops), (PST_ALIGN_ERR_BOUND, 8 * h.hops)]
      let s := s.ps fun x => { x with got := true, lostRun := false, masterLost := false }
      let din := linkDelay s h.port
      let s := match slotOfKind s 3 with
        | some i => if valid then sourceOffset s i (launch + corr + din * 65536 - s.now) else breakRun s i
        | none => s
      if s.rd SEQ_STATUS_STATE = 2 && computes s && cycAt s launch % 2 ^ 32 ≠ h.cyc then outOfStep s else s)

/-- What T0(n) does on the master and on a device with one (R426 to R428): ALIGN is sent; one that has not come is counted; a handback
takes effect. -/
def alignAtT0 (s : State) (n : Nat) : State :=
  if cascRole s = 0 || cascRole s = 5 then s
  else
    let s := if s.pst.handback && s.flag PST_STATUS_ACTING_MASTER then
        report ((s.ps fun x => { x with handback := false, backup := none }).wr PST_STATUS_ACTING_MASTER 0) 0x0E0D else s
    -- the master takes its duties back when its backup no longer sends ALIGN
    let s := if cascRole s = 1 && s.pst.backup.isSome && !s.pst.got && maySend s then s.ps fun x => { x with backup := none } else s
    if isMaster s then
      pstSend ((s.ps fun x => { x with got := false }).wrs [(PST_ALIGN_HOPS, 0), (PST_ALIGN_MISS, 0), (PST_STATUS_MASTER_OK, 1)]) 5 0 bcastAll n
        [unsigned 96 s.now, 0]
    else if s.pst.got || cascStopped s then s.ps fun x => { x with got := false }
    else
      let s := s.incSat PST_ALIGN_MISS 255
      if s.rd PST_CFG_ALIGN_LOSS ≤ s.rd PST_ALIGN_MISS && !s.pst.lostRun then
        report ((s.ps fun x => { x with lostRun := true }).wr PST_STATUS_MASTER_OK 0) 0x0E0A
      else s

/-! ### Joining (R431) -/

/-- R431: a device's JOIN reaches the master, or (`k`) the master's answer reaches the device: the cycle at which it enters RUN, and its
T0. -/
def execJoin (h : PstHdr) (k : Option (Nat × Int)) (t : Nat) (s : State) : Host.Outcome State Fault Refusal :=
  done (pstTake (s.at t) h 4 fun s =>
    match k with
    | none =>
      if isMaster s && s.rd SEQ_STATUS_STATE = 2 && !s.pst.joins.contains h.src then s.ps fun x => { x with joins := x.joins ++ [h.src] } else s
    | some (k, t0) =>
      if s.pst.joining && s.rd SEQ_STATUS_STATE = 1 && isMasterAddr s h.src then
        let s := s.ps fun x => { x with joining := false, joinAt := some (k, t0) }
        { s with seq := { s.seq with nextN := k, nextT0 := t0 } }
      else s)

/-- The JOINs that T0(j) answers (R431). -/
def joinsAtT0 (s : State) (j : Nat) : State :=
  let k := j + s.rd PST_CFG_MODE_LEAD
  let s' := s.pst.joins.foldl (fun s d => modeSend s 2 d [k, (t0At s k).toNat]) s
  s'.ps fun x => { x with joins := [] }

/-! ### WIDEN, DEEPEN and MULTIPLY (R225, R226, R432, R433) -/

/-- The slots of kind 4 that name slot `i` of another device take its value, with the originating device's t_arr unchanged (R95). -/
def slotFrom (s : State) (src i : Nat) (vals : List Nat) (tArr : Int) (tSrc : Option Int) (invalid : Bool) : State :=
  let sec := s.sec 3
  (definedSlots sec).foldl (fun s k =>
    let e := (slotEntry sec k).getD []
    if u8 e 1 = 4 && u32 e 8 = src && u16 e 6 = i then slotArrive s k vals tArr tSrc invalid else s) s

/-- R432: a table, a share or a box report; a table that comes after its commit is discarded. R95: a slot of another device. -/
def execShare (h : PstHdr) (m : ShareMsg) (t : Nat) (s : State) : Host.Outcome State Fault Refusal :=
  done (pstTake (s.at t) h 0x14 fun s =>
    let n := fullCyc s h.cyc
    match m with
    | .table w =>
      if hasPurpose s 0 && isMasterAddr s h.src && ((s.cyc? n).map fun c => !c.committed).getD true then
        { s with alloc := { s.alloc with tables := ((n, w) :: s.alloc.tables.filter fun x => x.1 ≠ n).take 4 } }
      else s
    | .share f =>
      -- one that comes after stage 6 of its user has started is discarded (R432)
      let user := n + u8 s.casc 0x0B
      let late : Bool := user < s.seq.nextN && ((s.cyc? user).map fun c => c.missed || c.committed || 6 ≤ c.run.stage).getD true
      if deepenGroup s && isMasterAddr s h.src && !late then { s with alloc := { s.alloc with shares := ((n, f) :: s.alloc.shares).take 8 } } else s
    | .box thr neg pos =>
      if hasPurpose s 1 && isMaster s then
        { s with alloc := { s.alloc with
          boxes := (thr, neg, pos) :: s.alloc.boxes.filter fun b => b.1 ≠ thr
          boxNew := setBit s.alloc.boxNew thr true } }
      else s
    | .slot i vals tArr tSrc invalid => slotFrom s h.src i vals tArr tSrc invalid)

/-- R433: an exported job reaches its server: `d6` is the exporter's stage 6 deadline in corrected time. A shape beyond the import's bounds
ends BAD_DESC. -/
def execMultJob (h : PstHdr) (scen : Nat) (d6 : Int) (warm : Bool) (cap : Nat) (prob : Prob) (t : Nat) (s : State) :
    Host.Outcome State Fault Refusal :=
  done (pstTake (s.at t) h 0x15 fun s =>
    match if hasPurpose s 2 then (importList s).find? (fun e => e.src = h.src && e.scen = scen) else none with
    | none => s
    | some e =>
      let n := fullCyc s h.cyc
      let place := (laneOrders s e.lane).findIdx fun o => o = e.order
      let dl := cntFrom s.tim (d6 - ((e.retUs * 1000 * 65536 : Nat) : Int))
      let q : Job := { qpJob s e.lane place scen false n dl prob with warm := warm, cap := cap }
      let i : ImpJob := ⟨h.src, scen, q, false⟩
      let s := s.ps fun x => { x with imports := (x.imports.filter fun y => !(y.job.lane = e.lane && y.job.j = place && y.job.typ = 1)) ++ [i] }
      if e.nMax < prob.n || e.pMax < prob.p || e.mMax < prob.m || descBad q then endImport s i (emptyRes 8)
      else if laneFenced s e.lane then endImport s i (emptyRes 9)
      else placeJob s q)

/-- R433: an exported job's outcome reaches the exporter in time. -/
def execMultRes (h : PstHdr) (scen : Nat) (r : JobRes) (t : Nat) (s : State) : Host.Outcome State Fault Refusal :=
  done (pstTake (s.at t) h 0x16 fun s =>
    match (s.cyc? (fullCyc s h.cyc)).bind fun c => c.out.jobs.find? fun q => q.lane = 64 && q.id = scen && q.res.isNone with
    | some q => if serverOf s scen = some h.src && s.tim.cnt ≤ q.deadline then endJob s q r else s
    | none => s)

/-! ### Reference nodes (R152) -/

/-- R152: a node's data reach its lane device, where the job waits for the lowest free GNSS lane (R146); or (`r`) a result reaches the
node. -/
def execGnssRec (h : PstHdr) (id : Nat) (ls : LsProb) (r : Option JobRes) (t : Nat) (s : State) : Host.Outcome State Fault Refusal :=
  done (pstTake (s.at t) h 0x17 fun s =>
    let n := fullCyc s h.cyc
    match r with
    | some r =>
      match s.gns.jobs.find? fun q => 64 ≤ q.lane && q.id = id && q.cyc = n && q.res.isNone with
      | some q => if s.isNode && h.src = laneDevice s && s.tim.cnt ≤ q.deadline then gnsJobDone (gnsEnd s q r) q r else s
      | none => s
    | none =>
      if s.isNode || !(peerList s).any (fun x => x.1 = h.src && x.2.1 = 3) then s
      else
        let q := gnsJob s 64 id n (gnsDeadline s (t0At s n)) ls
        if descBad q then endImport s ⟨h.src, id, q, false⟩ (emptyRes 8) else waitFill (s.gn fun g => { g with wait := g.wait ++ [(h.src, q)] }))

end Sys2Proof.Machine
end

