-- ==== Sys2Proof/Machine/Rec.lean ====
section
/-! DEFINITION. The event recorder, telemetry format 3, the incident log as host software sees it, and the background activities
(spec/17). -/

namespace Sys2Proof.Machine

open Sys2Proof

/-- Change the recorder. -/
def State.rc (s : State) (f : RecSt → RecSt) : State := { s with rcd := f s.rcd }

/-- The register at an offset as its stored fields read. -/
def regAt (s : State) (off : Nat) : Nat :=
  match findReg regTable off with
  | some (r, idx) => readRow s r idx off
  | none => 0

/-! ### Instruments (R506 to R510) -/

/-- A hundred in binary32. -/
def hundred32 : Nat := i32 100

/-- The position reference of R42 at the T0 of a cycle. -/
def posRefOf (c : Cyc) : Nat × Nat :=
  let sp (i : Nat) : Nat := at_ c.inp.sps i 0
  if c.inp.mode = 5 then
    let t := fofRat fmt32 (c.inp.t0c - c.inp.spT0) Config.secUnit
    (a32 (sp 0) (m32 (sp 3) t), a32 (sp 1) (m32 (sp 4) t))
  else (sp 0, sp 1)

/-- The scalar of a source at the commit of a cycle (R507), none when its sample is invalid. The result registers already show the cycle.
t_max of a thruster of kind 4 is stated nowhere: its utilisation is a free value. -/
def sampleOf (s : State) (c : Cyc) (src arg : Nat) : Option Nat × State :=
  let mode := c.inp.mode
  let init := s.flag OCE_STATUS_INIT
  match src with
  | 1 => (if (mode = 4 || mode = 5) && init then
      some (dist32 (s.rd OCE_EST_N_VALUE, s.rd OCE_EST_E_VALUE) (posRefOf c)) else none, s)
  | 2 => (if (mode = 3 || mode = 4 || mode = 5) && init then
      some (fofRat fmt32 (signed 32 (s.rd OCE_EST_HDG_VALUE + 2 ^ 32 - at_ c.inp.sps 2 0) * 360) (2 ^ 32)) else none, s)
  | 3 =>
    if s.rd SLV_SEL_STATUS_SRC = 0 then (none, s)
    else match s.alloc?.thr[arg]? with
      | some t =>
        let f := (List.range (kindVars t.kind s.alloc?.forces)).map fun j => s.rd (SLV_THR_F_VALUE arg j)
        if t.kind = 4 then
          let (v, s) := s.draw
          (some v, s)
        else (some (d32 (m32 hundred32 (mag32 f)) (tMax t)), s)
      | none => (none, s)
  | 4 =>
    let (i, j) := (arg / 256, arg % 256)
    (if s.rd (SLV_JOB_STS_STATUS i j) = 1 then some (i32 (s.rd (SLV_JOB_ITER_ITER i j))) else none, s)
  | 5 =>
    if arg = 9 then (s.rcd.slack9.map fun x => i32 x, s)
    else (some (i32 ((s.rd (SEQ_STG_DEADLINE_VALUE (arg - 1)) : Int)
      - ((((c.run.ends.find? fun e => e.1 = arg).map (·.2)).getD 0 : Nat) : Int))), s)
  | 6 => (if s.flag (GNS_CH_STS_VALID arg) then some (fofRat fmt32 (s.rd (GNS_CH_CN0_CN0 arg)) 10) else none, s)
  | 7 =>
    let b := s.rd (SLV_PWR_BUDGET_VALUE arg)
    (if arg < s.rd SLV_SEL_CFG_NSECT && lt32 0 b then some (d32 (m32 hundred32 (s.rd (SLV_PWR_USED_VALUE arg))) b) else none, s)
  | 8 =>
    let i := arg / 4
    (if s.flag (INT_SLOT_STS_INVALID i) || s.flag (INT_SLOT_STS_STALE i) || s.flag (INT_SLOT_STS_NEVER i) then none
      else some (s.rd (INT_SLOT_VAL_VALUE i (arg % 4))), s)
  | 9 => (if s.flag (FLT_CH_STS_VALID arg) then some (s.rd (FLT_CH_OUT_OUT arg)) else none, s)
  | 10 =>
    (match s.rd SLV_CA_SUMMARY_SUMMARY with
      | 1 => some 0
      | 2 => some (i32 (s.rd (SLV_CA_VERDICT_SHORT_PM (s.rd SLV_CA_SUMMARY_WORST))))
      | _ => none, s)
  | 11 => (if estErr s = 0xFFFFFFFF then none else some (i32 (estErr s)), s)
  | _ => (none, s)

/-- A bin of histogram `h`. -/
def binAt (s : State) (h b : Nat) : Nat := (sget (fun _ => (0 : Word)) s.rcd.bins (256 * h + b)).toNat
/-- Set a bin. -/
def putBin (s : State) (h b v : Nat) : State :=
  s.rc fun r => { r with bins := sput (fun _ => (0 : Word)) r.bins (256 * h + b) (BitVec.ofNat 32 v) }

/-- A histogram counts a sample (R508). Where the product is no number (a range beyond binary32), its bin is a free value. -/
def histCount (s : State) (h : Nat) (x : Option Nat) : State :=
  let bins := s.rd (REC_HIST_CFG_BINS h) + 1
  let lo := s.rd (REC_HIST_LO_LIMIT h)
  match x.filter (ffinite fmt32) with
  | none => s.incSat (REC_HIST_INVALID_COUNT h) 0xFFFFFFFF
  | some x =>
    let q := m32 (s32 x lo) (d32 (i32 bins) (s32 (s.rd (REC_HIST_HI_LIMIT h)) lo))
    if lt32 q 0 then s.incSat (REC_HIST_UNDER_COUNT h) 0xFFFFFFFF
    else if le32 (i32 bins) q then s.incSat (REC_HIST_OVER_COUNT h) 0xFFFFFFFF
    else
      let (b, s) := match ffloor fmt32 q with
        | some b => (b.toNat, s)
        | none => let (y, s) := s.draw; (y % (s.rd (REC_HIST_CFG_BINS h) + 1), s)
      putBin s h b (satAdd (binAt s h b) 1 0xFFFFFFFF)

/-- A tracker takes a sample of a cycle (R510): a non-finite sample is no valid one. -/
def trkCount (s : State) (i : Nat) (x : Option Nat) (c : Cyc) : State :=
  match x.filter (ffinite fmt32) with
  | none => s
  | some x =>
    let (a, b, d) := timeWords c.inp.t0c
    let first := s.rd (REC_TRK_COUNT_COUNT i) = 0
    let s := if first || lt32 x (s.rd (REC_TRK_MIN_VALUE i)) then
        s.wrs [(REC_TRK_MIN_VALUE i, x), (REC_TRK_MIN_CYC_CYC i, c.n), (REC_TRK_MIN_T_TIME i 0, a), (REC_TRK_MIN_T_TIME i 1, b),
          (REC_TRK_MIN_T_TIME i 2, d)] else s
    let s := if first || lt32 (s.rd (REC_TRK_MAX_VALUE i)) x then
        s.wrs [(REC_TRK_MAX_VALUE i, x), (REC_TRK_MAX_CYC_CYC i, c.n), (REC_TRK_MAX_T_TIME i 0, a), (REC_TRK_MAX_T_TIME i 1, b),
          (REC_TRK_MAX_T_TIME i 2, d)] else s
    s.incSat (REC_TRK_COUNT_COUNT i) 0xFFFFFFFF

/-- Clear a histogram (R512). -/
def histClear (s : State) (h : Nat) : State :=
  let s := s.wrs [(REC_HIST_UNDER_COUNT h, 0), (REC_HIST_OVER_COUNT h, 0), (REC_HIST_INVALID_COUNT h, 0), (REC_HIST_MISSED_COUNT h, 0)]
  s.rc fun r => { r with bins := skeep (fun k => k / 256 ≠ h) r.bins }

/-- Clear a tracker (R512). -/
def trkClear (s : State) (i : Nat) : State :=
  let s := s.wrs [(REC_TRK_MIN_VALUE i, 0), (REC_TRK_MAX_VALUE i, 0), (REC_TRK_MIN_CYC_CYC i, 0), (REC_TRK_MAX_CYC_CYC i, 0), (REC_TRK_COUNT_COUNT i, 0)]
  s.wrs ((List.range 3).flatMap fun j => [(REC_TRK_MIN_T_TIME i j, 0), (REC_TRK_MAX_T_TIME i j, 0)])

/-- The registers that the snapshot copies (R512): BAR0 0x0029_1000 to 0x0029_3FFF. -/
def snapRange (key : Nat) : Bool := 0x291000 * 8 ≤ key && key < 0x294000 * 8

/-- The copy into the snapshot bank (R512). -/
def recFreeze (s : State) (n : Nat) : State :=
  let s := s.rc fun r => { r with snapBins := r.bins, snapRegs := skeep snapRange s.regs }
  let s := s.wrs [(REC_BANK_SEQ_SEQ, s.rd REC_BANK_SEQ_SEQ + 2), (REC_FROZEN_CYC_CYC, n), (REC_STATUS_FREEZE_PEND, 0), (REC_STATUS_FROZEN, 1),
    (REC_EVT_FREEZE_DONE, 1)]
  report s 0x1104

/-- The recorder at a commit (R507 to R512): clear, update, copy. -/
def recCommit (s : State) (c : Cyc) : State :=
  let nh := s.rd REC_CFG_NHIST
  let nt := s.rd REC_CFG_NTRK
  let missed := s.rd SEQ_MISS_CNT_MISS_CNT - s.rcd.missSeen
  let s := (List.range nh).foldl (fun s h => if bit s.rcd.clrHist h then histClear s h else s) s
  let s := (List.range nt).foldl (fun s i => if bit s.rcd.clrTrk i then trkClear s i else s) s
  let s := s.rc fun r => { r with clrHist := 0, clrTrk := 0 }
  let s := (List.range nh).foldl (fun s h =>
    let src := s.rd (REC_HIST_CFG_SRC h)
    let arg := s.rd (REC_HIST_CFG_ARG h)
    let (x, s) := sampleOf s c src arg
    let s := if src = 5 && arg = 9 && x.isNone then s else histCount s h x
    let s := if src = 5 then s.wr (REC_HIST_MISSED_COUNT h) (satAdd (s.rd (REC_HIST_MISSED_COUNT h)) missed 0xFFFFFFFF) else s
    s.wr (REC_HIST_SEQ_SEQ h) (s.rd (REC_HIST_SEQ_SEQ h) + 2)) s
  let s := (List.range nt).foldl (fun s i =>
    let (x, s) := sampleOf s c (s.rd (REC_TRK_CFG_SRC i)) (s.rd (REC_TRK_CFG_ARG i))
    let s := trkCount s i x c
    s.wr (REC_TRK_SEQ_SEQ i) (s.rd (REC_TRK_SEQ_SEQ i) + 2)) s
  let s := s.rc fun r => { r with missSeen := s.rd SEQ_MISS_CNT_MISS_CNT, slack9 := none }
  if s.flag REC_STATUS_FREEZE_PEND then recFreeze s c.n else s

/-! ### Telemetry format 3 (R504, R505) -/

/-- MEMBER_SOLO, MEMBER and the four fields of one member (R505): a device that is no pair member names itself with its present values. -/
def teleMember (s : State) (c : Cyc) : Bool × Nat × List Nat :=
  let now := [s.rd TIM_QUAL_STATE, estErr s, s.tim.suppr, s.rd SEQ_MISS_CNT_MISS_CNT]
  let own := (c.fail.map (·.own.tel)).getD now
  if !isPair s then (false, ownAddr s, now)
  else match c.fail.bind (·.partner) with
    | some w => if pairLow s then (false, ownAddr s, own) else (false, partnerAddr s, w.tel)
    | none => (true, ownAddr s, own)

/-- The payload from SOURCE_ID to FORCES at the commit of a cycle, whose results the registers show (R504). -/
def teleBase (s : State) (c : Cyc) (r : CommitRec) : List Byte :=
  let (solo, member, tel) := teleMember s c
  let nthr := s.alloc?.thr.length
  let flags := b2n r.repeated + 2 * b2n r.reg + 4 * b2n r.noMatch + 8 * s.rd OCE_STATUS_INIT + 16 * b2n solo
  beBytes 2 (u16 (s.sec 1) 0x0E) ++ beBytes 4 c.n ++ timeBytes (c.inp.t0c + c.run.step + commitUnits s)
    ++ [BitVec.ofNat 8 c.inp.mode, BitVec.ofNat 8 flags, BitVec.ofNat 8 (s.rd SLV_SEL_STATUS_SCEN),
      BitVec.ofNat 8 (s.rd SLV_SEL_STATUS_STANDING), BitVec.ofNat 8 (s.rd SLV_SEL_STATUS_SRC), BitVec.ofNat 8 (s.rd SLV_SEL_STATUS_LANE),
      BitVec.ofNat 8 (s.rd SLV_CA_SUMMARY_SUMMARY), BitVec.ofNat 8 (s.rd SLV_CA_SUMMARY_WORST),
      BitVec.ofNat 8 (s.rd SLV_CA_SUMMARY_N_SHORT), BitVec.ofNat 8 (s.rd SLV_CA_SUMMARY_N_UNKNOWN),
      BitVec.ofNat 8 nthr, BitVec.ofNat 8 (at_ tel 0 0)]
    ++ beBytes 4 (at_ tel 1 0) ++ beBytes 6 (at_ tel 2 0) ++ beBytes 2 member ++ beBytes 4 (at_ tel 3 0)
    ++ [OCE_EST_N_VALUE, OCE_EST_E_VALUE, OCE_EST_HDG_VALUE, OCE_EST_U_VALUE, OCE_EST_V_VALUE, OCE_EST_R_VALUE,
      SLV_SEL_TAUA_VALUE 0, SLV_SEL_TAUA_VALUE 1, SLV_SEL_TAUA_VALUE 2].flatMap (fun f => beBytes 4 (s.rd f))
    ++ beBytes 4 (regAt s 0x80000) ++ beBytes 4 (regAt s 0x70000) ++ beBytes 4 (s.rd SLV_SEL_LOST_HI_THR) ++ beBytes 4 (s.rd SLV_SEL_LOST_LO_THR)
    ++ beBytes 4 (regAt s 0x140018)
    ++ (List.range nthr).flatMap fun t => beBytes 4 (s.rd (SLV_THR_F_VALUE t 0)) ++ beBytes 4 (s.rd (SLV_THR_F_VALUE t 1))

/-- CA_BITS (R504). -/
def teleCa (s : State) : List Byte :=
  (List.range 64).map fun o => BitVec.ofNat 8 ((List.range 4).foldl (fun v j => v + s.rd (SLV_CA_VERDICT_VERDICT (4 * o + j)) * 4 ^ (3 - j)) 0)

/-- The minor of telemetry on a port (R446): that of an open session of the port, else the highest offered. -/
def teleMinor (s : State) (p : Nat) : Nat :=
  match s.sec_.sess.find? fun x => x.port = p with
  | some x => x.minor
  | none => ((ifaceOffers s 4 0).map fun o => o.2.2).foldl max 0

/-- The telemetry payload of a cycle on a port. -/
def telePayload (s : State) (p : Nat) (c : Cyc) : List Byte :=
  let minor := teleMinor s p
  let body := [3, BitVec.ofNat 8 minor] ++ c.out.tele ++ (if minor = 1 then c.out.caBits else [])
  body ++ beBytes 4 (crc32c body)

/-! ### The incident log for host software (R513, R516, R517) -/

/-- The eight words of an entry (R513). -/
def entryWords (k : Nat) (e : Incident) : List Nat :=
  let (a, b, c) := timeWords e.time
  [k, a, b, c, (e.cyc.getD 0xFFFFFFFF) % 2 ^ 32, e.code % 65536 + e.source % 65536 * 65536, e.detail % 2 ^ 32, e.detail / 2 ^ 32 % 2 ^ 32]

/-- Word `w` of the entry in a place of the log; a place nothing has been written to holds a free value. -/
def logWord (s : State) (place w : Nat) : Nat × State :=
  match s.log.held.find? fun e => e.1 % logPlaces = place with
  | some (k, e) => (at_ (entryWords k e) w 0, s)
  | none => s.draw

/-- FILL and UNMIRRORED after an acknowledgement or a copy: an entry is free once acknowledged and copied. -/
def logFree (s : State) : State :=
  let l := s.log
  let fill := max l.unacked l.unmirrored
  ({ s with log := { l with fill := fill } }).wrs [(REC_LOG_STS_FILL, fill), (REC_LOG_STS_UNMIRRORED, l.unmirrored)]

/-- A write of REC_LOG_ACK (R517): a value outside the span from the oldest entry that is not free to the head is discarded. -/
def logAck (s : State) (v : Nat) : State :=
  let l := s.log
  let back := (s.rd REC_LOG_HEAD_ISEQ + 2 ^ 32 - v % 2 ^ 32) % 2 ^ 32
  if l.fill ≤ back then refuse s 0x1105
  else logFree (({ s with log := { l with unacked := min l.unacked back } }).wr REC_LOG_ACK_ISEQ v)

/-- R517. -/
def execRecLogAck (p : Path) (v t : Nat) (s : State) : Host.Outcome State Fault Refusal :=
  done (hostDo (s.at t) p 0x290048 v fun s => logAck s v)

/-- R517: a read of REC_LOG_RD_DATA answers the next word of the entry; after the eighth, ENTRY increments. -/
def logRead (s : State) (p : Path) : State :=
  let place := s.rd REC_LOG_RD_ADDR_ENTRY
  let w := s.log.rdWord
  let (v, s) := logWord s place w
  let s := if w = 7 then ({ s with log := { s.log with rdWord := 0 } }).wr REC_LOG_RD_ADDR_ENTRY (place + 1)
    else { s with log := { s.log with rdWord := w + 1 } }
  s.emit (.read p v)

/-- R517. -/
def execRecLogRdDataRead (p : Path) (t : Nat) (s : State) : Host.Outcome State Fault Refusal :=
  done (hostRd (s.at t) p 0x290054 fun s => logRead s p)

/-- R516: the oldest entry not yet in the incident ring is copied there. -/
def incidentCopy (s : State) : State :=
  let l := s.log
  if l.unmirrored = 0 || !s.flag JNL_STATUS_NAND_OK then s
  else match l.held[l.unmirrored - 1]? with
    | some e =>
      logFree (({ s with log := { l with unmirrored := l.unmirrored - 1, ring := (e :: l.ring).take 1048576 } }).wr REC_LOG_MIRROR_ISEQ e.1)
    | none => s

/-- R516. -/
def execIncidentMirrorCopy (t : Nat) (s : State) : Host.Outcome State Fault Refusal := done (incidentCopy (s.at t))

/-! ### Requests to the recorder (R512, R516) -/

/-- FREEZE (R512). -/
def recFreezeReq (s : State) : State := s.wr REC_STATUS_FREEZE_PEND 1
/-- CLR_LOST (R516). -/
def recClrLost (s : State) : State := s.wr REC_LOG_LOST_LOST 0
/-- A write to REC_CLR_HIST or REC_CLR_TRK (R512): `w` is the word. -/
def recClr (s : State) (trk : Bool) (w v : Nat) : State :=
  s.rc fun r => if trk then { r with clrTrk := r.clrTrk ||| v % 2 ^ 32 * 2 ^ (32 * w) } else { r with clrHist := r.clrHist ||| v % 2 ^ 32 * 2 ^ (32 * w) }

/-- R512. -/
def execFreeze (p : Path) (t : Nat) (s : State) : Host.Outcome State Fault Refusal := done (hostDo (s.at t) p 0x290004 1 recFreezeReq)
/-- R516. -/
def execClrLost (p : Path) (t : Nat) (s : State) : Host.Outcome State Fault Refusal := done (hostDo (s.at t) p 0x290004 2 recClrLost)
/-- R512: word `w` of REC_CLR_HIST (0, 1) or of REC_CLR_TRK (0 to 3). -/
def execRecClr (p : Path) (trk : Bool) (w v t : Nat) (s : State) : Host.Outcome State Fault Refusal :=
  done (if (if trk then 4 else 2) ≤ w then s.at t
    else hostDo (s.at t) p ((if trk then 0x290020 else 0x290018) + 4 * w) v fun s => recClr s trk w v)

/-! ### The Mower (R497, R498) -/

/-- A pass starts: corrections count anew for the hard-bit rule (R363). -/
def mowerStart (s : State) : State :=
  { s.rc fun r => { r with mowerAt := some s.tim.cnt, mowerDue := false } with err := { s.err with corr := [] } }

/-- R497: a pass is due every 2 s; while one runs the next waits for its end. -/
def execMowerPassStart (t : Nat) (s : State) : Host.Outcome State Fault Refusal :=
  let s := s.at t
  done (
    if s.tim.cnt < s.rcd.mowerNext then s
    else
      let s := s.rc fun r => { r with mowerNext := s.tim.cnt + usTicks 2000000 }
      match s.rcd.mowerAt with
      | none => mowerStart s
      | some _ => report ((s.rc fun r => { r with mowerDue := true }).wr BKG_STATUS_MOWER_LATE 1) 0x1106)

/-- R497, R498: a pass ends; `skipped` memories of domains that are gated, off or without a clock were passed over. A duration beyond the field is a free value. -/
def execMowerPassEnd (skipped t : Nat) (s : State) : Host.Outcome State Fault Refusal :=
  let s := s.at t
  let gone : Bool := (List.range 12).any fun d => [4, 5, 6].contains (s.rd (CLK_DOM_STS_STATE d))
  let skipped := if gone then skipped else 0
  done (match s.rcd.mowerAt with
    | none => s
    | some t0 =>
      let ms := (s.tim.cnt - t0) / usTicks 1000
      let (ms, s) := if ms < 4096 then (ms, s) else s.draw
      let s := (s.wrs [(BKG_MOWER_SKIPPED, skipped), (BKG_MOWER_PASS_MS, ms)]).incWrap BKG_MOWER_PASSES
      let due := s.rcd.mowerDue
      let s := s.rc fun r => { r with mowerAt := none }
      if due then mowerStart s else s)

/-! ### Calibration (R499, R500) -/

/-- The reference of the FRC trim is proven: XA, or XB when no XA is fitted. -/
def trimRef (s : State) : Bool :=
  if s.rd CLK_OTP_XA_FREQ_KHZ ≠ 0 then s.flag CLK_STATUS_XA_OK else s.flag CLK_STATUS_XB_OK

/-- R499: the FRC trim task has measured, first after 8 gates of 100 ms and then every 10 s: `err` in 0.01 %, positive when FRC runs fast; on the first run `code` is the code that the
successive approximation found. A higher code is taken to raise the frequency (notes/assumptions/31). -/
def execFrcTrim (code : Nat) (err : Int) (t : Nat) (s : State) : Host.Outcome State Fault Refusal :=
  let s := s.at t
  done (
    if !trimRef s || s.tim.cnt < s.rcd.trimNext then s
    else
      let s := s.rc fun r => { r with trimNext := s.tim.cnt + usTicks 10000000 }
      let old := s.rd CLK_FRC_TRIM_CODE
      let code := if !s.flag CLK_FRC_TRIM_CAL_VALID then code % 256
        else if 10 < err then old - 1 else if err < -10 then min (old + 1) 255 else old
      let s := s.wrs [(CLK_FRC_TRIM_CAL_VALID, 1), (CLK_FRC_TRIM_CODE, code), (CLK_FRC_TRIM_ERR, unsigned 16 err)]
      if (code = 0 || code = 255) && 50 < err.natAbs then report s 0x110E else s)

/-- The link of a lane is up. -/
def laneUp (s : State) (p : Nat) : Bool :=
  if p < 4 then s.flag (NET_STATUS_LINK p) else if p < 6 then 2 ≤ s.rd (PST_PORT_STS_STATE (p - 4)) else s.flag HST_STATUS_LINK_UP

/-- R499: adaptation of a lane's receiver: Ethernet ports 0 to 3, Piste ports 4 and 5, PCIe 6, at each training and then every 1 s while the
link is up; at training a lane that does not converge is reported. -/
def execSerdesAdapt (p : Nat) (ok train : Bool) (t : Nat) (s : State) : Host.Outcome State Fault Refusal :=
  let s := s.at t
  done (
    if 7 ≤ p || (!train && (!laneUp s p || s.tim.cnt < s.rcd.serdesNext.getD p 0)) then s
    else
      let s := s.rc fun r => { r with serdesNext := r.serdesNext.set p (s.tim.cnt + usTicks 1000000) }
      let s := if p < 4 then s.wrBit BKG_SERDES_NET p ok else if p < 6 then s.wrBit BKG_SERDES_PISTE (p - 4) ok else s.wrb BKG_SERDES_PCIE ok
      if train && !ok then report s 0x110D else s)

/-- A threshold of R500: the flag sets at the first reading at or above it, and clears at the first 5 °C below it. -/
def tempLevel (s : State) (f : Fld) (limit v : Int) (code : Nat) : State :=
  if s.flag f then (if v ≤ limit - 20 then s.wr f 0 else s)
  else if limit ≤ v then report (s.wr f 1) code else s

/-- A reading of the junction temperature (R500), in 0.25 °C. Ten readings in a row above 155 °C are a class S fault. -/
def tempTake (s : State) (v : Int) : State :=
  let top := if s.rcd.tempRead then max (signed 16 (s.rd BKG_TEMP_MAX)) v else v
  let s := (s.rc fun r => { r with tempRead := true, tempNext := s.tim.cnt + usTicks 100000, hot := if 620 < v then r.hot + 1 else 0 }).wrs
    [(BKG_TEMP_NOW, unsigned 16 v), (BKG_TEMP_MAX, unsigned 16 top)]
  let s := tempLevel s BKG_STATUS_TEMP_WARN 560 v 0x1107
  let s := tempLevel s BKG_STATUS_TEMP_HIGH 600 v 0x1108
  if s.rcd.hot = 10 then classOther (report s 0x1109) else s

/-- R500: a reading is due every 100 ms. -/
def execTempReading (v : Int) (t : Nat) (s : State) : Host.Outcome State Fault Refusal :=
  let s := s.at t
  done (if s.tim.cnt < s.rcd.tempNext then s else tempTake s v)

/-! ### NAND wear (R501 to R503) -/

/-- The NAND capacity in thousands of journal records (R501): the journal area over RECORD_MAX rounded up to a page. -/
def nandRecords (s : State) : State :=
  let page := s.rd BKG_NAND_GEOM_PAGE_KIB * 1024
  let r := (s.rd JNL_CFG_RECORD_MAX + page - 1) / max 1 page * page
  s.wr JNL_CNT_NAND_RECORDS (min (s.rcd.jnlBlocks * s.rcd.blockKib * 1024 / max 1 r / 1000) 65535)

/-- SPARES_LOW (R502): fewer than 0.5 % of all blocks remain spare. -/
def sparesLow (s : State) : State :=
  if s.rd BKG_NAND_STS_SPARE * 200 < s.rd BKG_NAND_GEOM_BLOCKS && !s.flag BKG_STATUS_SPARES_LOW then report (s.wr BKG_STATUS_SPARES_LOW 1) 0x110B
  else s

/-- The blocks that the journal can have at most (R501): all but the spare ones and those of the areas whose sizes are stated (map 2 MiB, image
slots 64, ephemerides 1, audit 2, incidents 32). -/
def jnlMost (blocks blockKib : Nat) : Nat := blocks - blocks * 2 / 100 - (101 * 1024 + blockKib - 1) / max 1 blockKib

/-- The layout at a start (R501), for the geometry that the parameter pages give: blocks, page and block sizes in KiB, blocks marked bad by
their maker. 2 % of the blocks are spare. The sizes of the slot records and of the checkpoint slots are not stated, so how many blocks are left
for the journal is a free value, fixed as long as the geometry is unchanged. -/
def nandLayout (s : State) (blocks pageKib blockKib bad : Nat) : State :=
  let geom := [blocks, pageKib, blockKib]
  let (x, s) := s.draw
  let s := if s.rcd.geom = geom || blocks = 0 then s
    else s.rc fun r => { r with geom := geom, blockKib := blockKib, jnlBlocks := x % (jnlMost blocks blockKib + 1) }
  let s := s.wrs [(BKG_NAND_GEOM_BLOCKS, blocks), (BKG_NAND_GEOM_PAGE_KIB, pageKib), (BKG_NAND_STS_BAD, bad),
    (BKG_NAND_STS_SPARE, blocks * 2 / 100 - bad)]
  sparesLow (nandRecords (s.wrb JNL_STATUS_NAND_OK (blocks ≠ 0)))

/-- A layout made afresh (R501, R518): a device that has been laid out for another geometry starts with empty areas. -/
def nandFresh (s : State) (blocks pageKib blockKib : Nat) : State :=
  if s.rcd.geom = [] || blocks = 0 || s.rcd.geom = [blocks, pageKib, blockKib] then s
  else { s with
    img := { s.img with slotA := ImgSt.reset.slotA, slotB := ImgSt.reset.slotB }, jnl := { s.jnl with nand := JnlSt.reset.nand },
    log := { s.log with ring := [], next := s.log.held.length }, red := { s.red with nandCk := RedSt.reset.nandCk },
    gns := { s.gns with nand := GnsSt.reset.nand }, sec_ := { s.sec_ with nand := [] } }

/-- R502: an erase or program fails: a spare block takes the bad one's place, or, with none left, the journal area gives one up. -/
def execNandBadBlock (t : Nat) (s : State) : Host.Outcome State Fault Refusal :=
  let s := s.at t
  let spare := s.rd BKG_NAND_STS_SPARE
  done (
    if s.rd BKG_NAND_GEOM_BLOCKS = 0 then s
    else
      let s := (s.incSat BKG_NAND_STS_BAD 65535).wr BKG_NAND_STS_SPARE (spare - 1)
      let s := if spare = 0 then nandRecords (s.rc fun r => { r with jnlBlocks := r.jnlBlocks - 1 }) else s
      sparesLow (report s 0x110A))

/-- R503: every 7 days of corrected time the static areas are read, and `worn` blocks are queued for refresh. -/
def execNandPatrol (worn t : Nat) (s : State) : Host.Outcome State Fault Refusal :=
  let s := s.at t
  done (
    if s.rd BKG_NAND_GEOM_BLOCKS = 0 || s.now < s.rcd.patrolAt then s
    else
      let s := s.rc fun r => { r with patrolAt := s.now + 7 * 86400 * (Config.secUnit : Int) }
      s.wr BKG_NAND_REFRESH_QUEUED (min (s.rd BKG_NAND_REFRESH_QUEUED + worn) 65535))

/-- R503: the copy of a queued block reads back clean, and the map switches to it. `maxE`, `minE` are the erase counts then. -/
def execNandRefresh (maxE minE t : Nat) (s : State) : Host.Outcome State Fault Refusal :=
  let s := s.at t
  done (
    if s.rd BKG_NAND_REFRESH_QUEUED = 0 then s
    else
      let s := s.wrs [(BKG_NAND_REFRESH_QUEUED, s.rd BKG_NAND_REFRESH_QUEUED - 1), (BKG_NAND_WEAR_MAX_ERASE, min maxE 65535),
        (BKG_NAND_WEAR_MIN_ERASE, min minE 65535)]
      report (s.incWrap BKG_NAND_REFRESH_DONE) 0x110C)

end Sys2Proof.Machine
end

