-- ==== Sys2Proof/Machine/Seq.lean ====
section
/-! DEFINITION. The sequencer: T0, the stages of a cycle, the failure sample, the commit, and lane jobs (spec/01, and R43 to R45, R212 to
R226, R245 to R249, R373 to R383, R394 to R401, R426 to R433). -/

namespace Sys2Proof.Machine

open Sys2Proof

/-- Change the sequencer's state. -/
def State.sq (s : State) (f : SeqSt → SeqSt) : State := { s with seq := f s.seq }

/-! ### The T0 chain (R19, R20) -/

/-- 1 µs in 2^−16 ns. -/
def usUnits : Int := 65536000

/-- What has to be added to an instant to bring it to the alignment of R19, by the shorter way. -/
def phaseGap (s : State) (x : Int) : Int :=
  let p := max 1 (periodUnits s)
  let r := (x - s.rd SEQ_T0_PHASE_VALUE * usUnits) % p
  if 2 * r ≤ p then -r else p - r

/-- T0(0) of a cold RUN entry whose START is made now (R19). -/
def firstT0 (s : State) : Int :=
  let a := s.now + 2 * periodUnits s
  if s.rd TIM_QUAL_STATE = 0 then a
  else a + (s.rd SEQ_T0_PHASE_VALUE * usUnits - a) % max 1 (periodUnits s)

/-- The chain goes on: the next T0 is P away, and at most 1 µs more or less while it walks; PHASE_WALK reads 1 through the cycle so changed
(R20). -/
def chainStep (s : State) : State :=
  let w := max (-usUnits) (min usUnits s.seq.walk)
  let s := s.sq fun q => { q with nextN := q.nextN + 1, nextT0 := q.nextT0 + periodUnits s + w, walk := q.walk - w }
  s.wrb SEQ_STATUS_PHASE_WALK (w ≠ 0)

/-- R313, R314, R20: an armed step of corrected time is applied. The T0 chain and the cycles in flight keep their counts; a running chain
starts to walk. -/
def execTimeStep (t : Nat) (s : State) : Host.Outcome State Fault Refusal :=
  let s := s.at t
  done (match s.tim.step with
    | none => s
    | some st =>
      let s := timeStep s
      let s := s.sq fun q => { q with
        nextT0 := q.nextT0 + st.theta, spT0 := q.spT0 + st.theta,
        cycs := q.cycs.map fun c => { c with run := { c.run with step := c.run.step + st.theta } } }
      if s.idle then s
      else
        let w := phaseGap s s.seq.nextT0
        let s' := (s.sq fun q => { q with walk := w }).wrb SEQ_STATUS_PHASE_WALK (w ≠ 0)
        if w ≠ 0 && !s.flag SEQ_STATUS_PHASE_WALK then report s' 0x0208 else s')

/-! ### Setpoints (R43 to R46) -/

/-- Setpoint places in the order of the registers; those that a mode uses and that hold a binary32. -/
def modeWords (mode : Nat) : List Nat :=
  match mode with
  | 2 => [5, 6, 7]
  | 3 => [5, 6]
  | 4 => [0, 1]
  | 5 => [0, 1, 3, 4]
  | _ => []

/-- An armed set at its T0 (R43, R45): refused with a code, or taken. -/
def spCheck (s : State) : Nat :=
  let m := s.rd SEQ_MODE_REQ_MODE
  if 5 < m || !bit (s.rd SEQ_MODE_ACT_PERMIT) m then 0x0205
  else if (modeWords m).any fun i => !ffinite fmt32 (s.rd (SEQ_SP_PEND_VALUE i)) then 0x0207
  else 0

/-- T0(n) takes or refuses the armed set. In Pairs the register SP_TAKEN waits for agreement (R395). -/
def spTake (s : State) (n : Nat) (t0c : Int) : State × Bool :=
  if !s.flag SEQ_SP_CTRL_ARM then (s, false)
  else
    let s := s.wr SEQ_SP_CTRL_ARM 0
    let code := spCheck s
    if code ≠ 0 then (reportCyc (s.wr SEQ_SP_CTRL_REFUSED 1) n code, false)
    else
      let s := s.wrs ((List.range 8).map fun i => (SEQ_SP_ACT_VALUE i, s.rd (SEQ_SP_PEND_VALUE i)))
      let s := (s.wr SEQ_MODE_ACT_MODE (s.rd SEQ_MODE_REQ_MODE)).sq fun q => { q with spT0 := t0c }
      (if pairOk s then s else s.wr SEQ_SP_TAKEN_TAKEN n, true)

/-- A write of SEQ_SP_CTRL.ARM (R43, R44, R46). -/
def spArm (s : State) (p : Path) (on : Bool) : State :=
  unlessSilent s p 0x50038 fun s => if s.isNode then refuse s 0x0205 else s.wrb SEQ_SP_CTRL_ARM on

/-- R43: a write of ARM = 1. -/
def execSpArm (p : Path) (t : Nat) (s : State) : Host.Outcome State Fault Refusal :=
  done (hostDo (s.at t) p 0x50038 1 fun s => spArm s p true)

/-- R44: a write of ARM = 0. -/
def execSpDisarm (p : Path) (t : Nat) (s : State) : Host.Outcome State Fault Refusal :=
  done (hostDo (s.at t) p 0x50038 0 fun s => spArm s p false)

/-! ### T0 (R22, R85, R87, R98, R192, R372) -/

/-- The groups that take part in a cycle from now on (R85). -/
def runSet (s : State) : Nat := (List.range 20).foldl (fun m g => setBit m g (bit (implGroups s) g && !bit s.img.taken g)) 0

/-- The latch of cycle `n` (R98, R151, R372): its inputs, as its HELD, FIELD and HOST blocks begin. -/
def latchCyc (s : State) (n : Nat) (t0c : Int) : State :=
  let runs := runSet s
  let held := latchSlots (s.sec 3) s.flt.live t0c
  let inp : CycIn := { t0c := t0c, cfg := s.regs, mode := s.rd SEQ_MODE_ACT_MODE, sps := (List.range 8).map fun i => s.rd (SEQ_SP_ACT_VALUE i),
                       spT0 := s.seq.spT0, runs := runs, gens := (List.range 20).map fun g => at_ s.seq.gens g 0, took := false,
                       swap := false, reinit := s.seq.reinit, bank := s.rd OCE_BANK_STS_ACTIVE,
                       din := s.rd (FLD_LVL_LEVEL 0) + 2 ^ 32 * s.rd (FLD_LVL_LEVEL 1),
                       dout := s.rd (FLD_DOUT_LEVEL 0) + 2 ^ 32 * s.rd (FLD_DOUT_LEVEL 1),
                       held := held, smp := [], enc := [], fb := s.fld.fb }
  let sends := maySend s
  let c := cycOf s n s.tim.cnt inp
  let c := { c with run := { c.run with sends := sends }, results := slotResults (s.sec 3) held ++ gnsHeld s }
  let s := if isPair s then s.wrb RED_STATUS_SENDING sends else s
  { s with
    seq := { s.seq with cycs := s.seq.cycs ++ [c], reinit := false },
    flt := { s.flt with live := s.flt.live.map fun (l : SlotLive) => { l with upd := 0 } } }

/-- The host inputs that T0(n) takes (R91): the armed set, and the bank swap, which is discarded where the OCE takes no part. -/
def takeHost (s : State) (n : Nat) (t0c : Int) : State :=
  let (s, took) := spTake s n t0c
  let (s, swap) := if !s.flag OCE_BANK_STS_SWAP_PEND then (s, false) else if groupRuns s 1 then bankTake s n else (swapDrop s, false)
  updCyc s n fun c => { c with inp := { c.inp with
    took := took, swap := swap, mode := s.rd SEQ_MODE_ACT_MODE, sps := (List.range 8).map fun i => s.rd (SEQ_SP_ACT_VALUE i),
    spT0 := s.seq.spT0, bank := s.rd OCE_BANK_STS_ACTIVE } }

/-- The blocks that T0(n) sends to a paired partner (R395); without a partner that takes part, agreement is settled at once. -/
def beginAgree (s : State) (n : Nat) : State :=
  match s.cyc? n with
  | none => s
  | some c =>
    let i := c.inp
    let blks := [some (.held i.held), sampleBlock s c, fieldBlock s c, some (.host i.took i.mode i.sps i.swap i.reinit i.dout)]
    agreeTry ((blks.filterMap id).foldl (fun s b => sendBlock s n b) s) n

/-- RUN is entered at the T0 of cycle `n` (R22, R431); `true` where it is the first cycle after the restart of R383. -/
def enterRun (s : State) : State × Bool :=
  if s.rd SEQ_STATUS_STATE ≠ 1 then (s, false)
  else
    let again := s.flag SEQ_STATUS_RESUMED && !s.flag SEQ_STATUS_RESYNCED
    let s := fltResume (seqState s 2) s.seq.nextN
    match s.pst.joinAt with
    | some _ =>
      (report ((s.ps fun x => { x with joinAt := none }).wrs [(SEQ_STATUS_RESUMED, 1), (SEQ_STATUS_RESYNCED, 1)]) 0x0E19, false)
    | none => (s, again)

/-- An armed injection waits for its unit's next operation after this T0 (R388). -/
def armInjection (s : State) : State :=
  if s.flag ERR_INJ_ARM && s.err.inj.isNone then
    { s with err := { s.err with inj := some (s.rd ERR_INJ_MECH, s.rd ERR_INJ_UNIT, s.rd ERR_INJ_INDEX) } }
  else s

/-- Groups and changes at T0(n) (R85, R87, R90, R437 to R439): a Pairs member that restarts a group takes STANDBY. -/
def groupsAtT0 (s : State) (n : Nat) : State :=
  let before := stateBits s
  let s := takeRestarts (devAtT0 s n) n
  let s := if isPair s && stateBits s &&& before ≠ before then takeStandby s else s
  mcAck (takeStops s)

/-- T0 can come: the sequencer is armed or runs, the instant is there, and fewer than two cycles are in flight (R28). -/
def t0Due (s : State) : Bool :=
  (s.rd SEQ_STATUS_STATE = 1 || s.rd SEQ_STATUS_STATE = 2) && !s.flag ERR_STATUS_FAIL_SILENT && !s.pst.joining
    && s.seq.nextT0 ≤ s.now && s.seq.cycs.length < 2

/-- The sample instant of the next cycle (R22). -/
def t0Now (s : State) : State :=
  let n := s.seq.nextN
  let t0c := s.seq.nextT0
  let (s, resumed) := enterRun s
  let s := (chainStep s).wrs [(SEQ_CYC_LO_CYC_LO, n), (SEQ_CYC_HI_CYC_HI, n / 2 ^ 32)]
  let s := armInjection (joinsAtT0 (alignAtT0 (masterAtT0 (roleAtT0 (groupsAtT0 s n)) n) n) n)
  if !computes s then (if isPair s then s.wr RED_STATUS_SENDING 0 else s)
  else
    let s := takeHost (latchCyc s n t0c) n t0c
    let s := jnlMark (bankUse s) n 0
    let s := match resumed, s.jnlOf n with
      | true, some r => jnlPut s { r with flags := r.flags ||| 4 }
      | _, _ => s
    beginAgree s n

/-- R22: the sample instant T0. -/
def execT0 (t : Nat) (s : State) : Host.Outcome State Fault Refusal :=
  let s := s.at t
  let entering : Bool := s.rd SEQ_STATUS_STATE = 1
  done (
    if t0Due s then
      -- entering RUNNING on a fallback clock is a class S fault (R455)
      let s := t0Now s
      if entering && s.rd SEQ_STATUS_STATE = 2 && clkSlow s then classOther s else s
    else s)

/-! ### Stages (R23 to R30) -/

/-- The deadline of a stage of a cycle, in counts (R27, R36). -/
def stageDue (s : State) (c : Cyc) (k : Nat) : Nat :=
  if c.run.rerun && k ≤ 5 then dueAt s c (s.rd (SEQ_STG_DEADLINE_VALUE 5) - s.rd (SEQ_STG_BUDGET_VALUE 5))
  else dueAt s c (s.rd (SEQ_STG_DEADLINE_VALUE (k - 1)))

/-- The cycle before, while it is still to commit. -/
def predOf (s : State) (c : Cyc) : Option Cyc := s.seq.cycs.find? fun d => d.n + 1 = c.n && !d.missed && !d.committed

/-- What the cycle before still has to do first (R25): its hand-over for stage 4, its lane jobs for stage 6. -/
def predReady (s : State) (c : Cyc) (k : Nat) : Bool :=
  match predOf s c with
  | none => true
  | some d =>
    if k = 4 then d.run.handed
    else if k = 6 then 6 ≤ d.run.stage && (d.out.jobs.filter fun q => q.typ = 1 && q.lane < 64).all fun q => q.res.isSome
    else true

/-- A stage of a cycle may start now (R25). -/
def mayStart (s : State) (c : Cyc) (k : Nat) : Bool :=
  !c.missed && !c.run.wait && !c.run.running && !s.flag ERR_STATUS_FAIL_SILENT
    && (if k = 9 then c.committed && c.run.stage = 7 else 2 ≤ k && k ≤ 7 && !c.committed && c.run.stage + 1 = k)
    && dueAt s c (s.rd (SEQ_STG_START_VALUE (k - 1))) ≤ s.tim.cnt && predReady s c k

/-- A DEEPEN group's demand (R226): the master's share of cycle n − K_D, or with SHARE_LATE the newest earlier one. -/
def takeShare (s : State) (c : Cyc) : State :=
  if !deepenGroup s then s
  else
    let kd := u8 s.casc 0x0B
    let older := (s.alloc.shares.filter fun x => x.1 + kd ≤ c.n).head?
    let tau := (older.map (·.2)).getD (List.replicate 6 0)
    let s := updCyc s c.n fun c => { c with out := { c.out with tau := tau } }
    if (older.map fun x => x.1 + kd) = some c.n then s else reportCyc s c.n 0x038C

/-- The start of stage 6 (R212, R213, R217, R225, R226): a WIDEN device runs no allocation of its own. -/
def startSix (s : State) (c : Cyc) : State :=
  let s := takeShare s c
  let s := updCyc s c.n fun c => { c with out := { c.out with standing := (refOf s c.n).scen } }
  let c := (s.cyc? c.n).getD c
  if widenDev s || !allocRuns s c then s else dispatchJobs (staleItems s c.n) c

/-- A stage starts: its snapshot (R376), and what it takes. -/
def startStage (s : State) (c : Cyc) (k : Nat) : State :=
  let s := updCyc s c.n fun c => { c with
    run := { c.run with stage := k, running := true, began := s.tim.cnt }
    snap := if k = 2 then { c.snap with ch := chansBefore s c } else if k = 3 then { c.snap with ref := refBefore s c }
      else if k = 4 then { c.snap with oce := s.oce } else c.snap }
  if k = 2 then moveSamples s c.n
  else if k = 4 then adoptLate s c.n (kC s.regs)
  else if k = 6 then startSix (adoptLate s c.n (s.rd SLV_SEL_TIMING_K_S)) c
  else s

/-- R25: a stage of cycle `n` starts. -/
def execStageStart (n k t : Nat) (s : State) : Host.Outcome State Fault Refusal :=
  let s := s.at t
  done (match s.cyc? n with
    | some c => if mayStart s c k then startStage s c k else s
    | none => s)

/-- The LAST registers of a stage that ends now, and OVER_BUDGET (R26, R507). -/
def stageMarks (s : State) (c : Cyc) (k : Nat) : State :=
  let us := ((s.now - c.inp.t0c - c.run.step) / usUnits).toNat
  let late : Bool := usTicks (s.rd (SEQ_STG_BUDGET_VALUE (k - 1))) < s.tim.cnt - c.run.began
  let s := s.wrs [(SEQ_STG_LAST_LATE (k - 1), 0), (SEQ_STG_LAST_OVER (k - 1), b2n late), (SEQ_STG_LAST_END (k - 1), us)]
  let s := updCyc s c.n fun c => { c with run := { c.run with running := false, ends := c.run.ends.filter (fun e => e.1 ≠ k) ++ [(k, us)] } }
  if late then reportCyc (s.wr SEQ_STATUS_OVER_BUDGET 1) c.n 0x0204 0 k else s

/-- The stage computes: its state and its results. -/
def stageWork (s : State) (c : Cyc) (k : Nat) : State :=
  let put (x : State × Cyc) : State := updCyc x.1 c.n fun _ => x.2
  if k = 2 then
    let s := moveSamples s c.n
    put (stepTwo s ((s.cyc? c.n).getD c))
  else if k = 3 then put (stepThree s c)
  else if k = 4 then
    let s := updCyc (put (stepFour s c)) c.n fun c => { c with run := { c.run with handed := true } }
    match s.cyc? c.n with
    | some c => oceReports s c
    | none => s
  else if k = 5 then
    let s := put (stepFive s c)
    match s.cyc? c.n with
    | some c => oceReports s c
    | none => s
  else s

/-- The words of a WIDEN table (R225; notes/assumptions/94). -/
def tableWords (w : WidenTable) : List Nat :=
  [b2n w.runs, w.stand, w.returnN] ++ w.thr.flatMap (fun t => [t.kind, t.sect, t.wedgeMin]) ++ w.gens
    ++ w.scens.flatMap (fun r => [r.e.thr, r.e.sect, r.e.gen, r.cover, b2n r.cond, b2n r.active])
    ++ w.rows.flatMap (fun r => [r.src, b2n r.ok, r.lane, b2n r.reg] ++ r.f.flatMap fun x => x.thr :: x.f)

/-- The table that a WIDEN master sends to a device (R225): the eligibility of every result, and of each eligible one the forces of that
device's thrusters. -/
def tableFor (s : State) (c : Cyc) (dst : Nat) : WidenTable :=
  let a := s.alloc?
  let mine := (List.range a.thr.length).filter fun i => Config.ownsThr dst i
  { runs := allocRuns s c, stand := c.out.standing, returnN := a.returnN, thr := a.thr.map fun t => ⟨t.kind, t.sect, t.wedgeMin⟩,
    gens := a.gens.map (·.sect), scens := ownRows s c,
    rows := (List.range (2 + s.scens.length)).map fun i => match candsOf s c i with
      | some x => ⟨i, true, x.lane, x.reg, mine.map fun t => ⟨t, at_ x.f t []⟩⟩
      | none => ⟨i, false, 0, false, []⟩ }

/-- A WIDEN master sends its table to every owning device (R225). -/
def sendTables (s : State) (c : Cyc) : State :=
  if hasPurpose s 0 && isMaster s then
    ((peerList s).filter fun d => (List.range s.alloc?.thr.length).any (Config.ownsThr d.1)).foldl
      (fun s d => pstSend s 0x14 0 d.1 c.n (tableWords (tableFor s c d.1))) s
  else s

/-- Stage 7 ends (R223, R373): the verdicts, the record READY, and the end of a replay (R36). -/
def endSeven (s : State) (c : Cyc) : State :=
  let s := updCyc s c.n fun c => { c with out := { c.out with verdicts := verdictsOf s c }, run := { c.run with ready := true } }
  let s := sendTables (jnlMark s c.n 1) ((s.cyc? c.n).getD c)
  if c.run.again then endReplay s c.n else s

/-- Ethernet frames of a committed cycle on a port (R341, R504). -/
def handNet (s : State) (c : Cyc) (r : CommitRec) (p : Nat) : State :=
  if !netOn s p || !bit c.inp.runs (16 + p) then s
  else
    let sec := s.netSec p
    (List.range (netNdef sec)).foldl (fun s d =>
      let ent := netDef sec d
      let cls := u8 ent 0
      let at' := dueAt s c (s.rd SEQ_COMMIT_OFS_VALUE + u32 ent 0x10)
      let pay : Option (List Byte) :=
        if cls = 1 then drivePayload s p d ent c.n c.inp.mode (c.inp.t0c + c.run.step + commitUnits s) r
        else if cls = 4 then some (telePayload s p c) else none
      match pay with
      | some b => netHand s p (u8 ent 1) ⟨frameHead s p ent b, some at', some d, some c.n, false, none⟩
      | none => s) s

/-- CYCLE content of a committed cycle for the buffers of a controller (R40, R354). -/
def handCan (s : State) (c : Cyc) (r : CommitRec) (att : List (Nat × Nat)) (k : Nat) : State :=
  let sec := s.sec 12 k
  if !s.hasSec 12 k || !bit c.inp.runs (8 + k) || !cycleMaySend s k && canState s k ≠ 4 then s
  else
    (List.range (u8 sec 0x0E)).foldl (fun s b =>
      let e := canBuf sec b
      if u8 e 5 ≠ 1 then s
      else canHand s k b (cycleContent s k b c.n c.inp.mode r) c.n (dueAt s c (s.rd SEQ_COMMIT_OFS_VALUE + u32 e 8)) (att.contains (k, b))) s

/-- A cycle is done: it leaves flight, and groups that only it still used stop (R28, R85). -/
def cycleOut (s : State) (n : Nat) : State := mcAck ((List.range 20).foldl stopGroup (leaveFlight s n))

/-- Stage 9 ends (R25): every output of the cycle has been handed over; `att` are the controllers and buffers in an attempt. -/
def endNine (s : State) (c : Cyc) (att : List (Nat × Nat)) : State :=
  let s : State := match c.commit with
    | some r =>
      if c.run.sends then
        let s := (List.range 4).foldl (fun s p => handNet s c r p) s
        (List.range 8).foldl (fun s k => handCan s c r att k) s
      else s
    | none => s
  let us := ((s.now - c.inp.t0c - c.run.step) / usUnits).toNat
  cycleOut (s.rc fun x => { x with slack9 := some (s.rd (SEQ_STG_DEADLINE_VALUE 8) - us) }) c.n

/-- A stage ends. -/
def endStage (s : State) (c : Cyc) (k : Nat) (att : List (Nat × Nat)) : State :=
  let s := stageMarks s c k
  let c := (s.cyc? c.n).getD c
  if k = 7 then endSeven s c
  else if k = 9 then endNine s c att
  else stageWork s c k

/-- A stage of a cycle runs and its work can be complete (R25): stage 2 begins with agreement and takes in the samples of every tick of the
cycle (R108) and the word of every absolute channel (R264), stage 6 ends with its primary jobs. -/
def mayEnd (s : State) (c : Cyc) (k : Nat) : Bool :=
  !c.missed && c.run.running && c.run.stage = k && (k ≠ 2 || (c.run.agreed && (!bit c.inp.runs 0 || samplesTaken s c.n) && (!bit c.inp.runs 4 || c.run.again || wordsIn s c)))
    && (k ≠ 6 || primDone c)

/-- An injection that strikes an operation of a stage (R388): the filter channel, or the OCE, that it names. -/
def stageInjection (s : State) (c : Cyc) (k : Nat) : Option Nat × State :=
  match s.err.inj with
  | some (_, u, i) =>
    if k = 2 && u = 3 && i < s.rd FLT_STATUS_CHANNELS then takeInjection s 3 i
    else if k = 4 && u = 2 && oceRuns s c then takeInjection s 2 i else (none, s)
  | none => (none, s)

/-- R25: a stage of cycle `n` completes its work. `att` names the controller and buffer of each CAN frame in an attempt. -/
def execStageEnd (n k : Nat) (att : List (Nat × Nat)) (t : Nat) (s : State) : Host.Outcome State Fault Refusal :=
  let s := s.at t
  let s := if k = 2 then agreeTry s n else s
  done (match s.cyc? n with
    | some c =>
      if !mayEnd s c k then s
      else
        let i := (s.err.inj.map fun x => x.2.2).getD 0
        match stageInjection s c k with
        | (none, s) => endStage s c k att
        | (some m, s) =>
          if m = 3 then
            endStage (noteFault s ⟨3, if k = 2 then 3 else 2, i, workCyc s n, 0, false, true, false⟩ 1 (repeating s (workCyc s n))) c k att
          else if k = 2 then firFault s n (some i) m 0 true
          else oceFault s n m 0 true
    | none => s)

/-- SEQ STAGE_OVERRUN of a stage (R27). -/
def overrun (s : State) (n k : Nat) : State := reportCyc (s.wr (SEQ_STG_LAST_LATE (k - 1)) 1) n 0x0201 0 k

/-- Exported jobs that have not come back by the deadline (R433). -/
def exportsLate (s : State) (c : Cyc) : State :=
  (c.out.jobs.filter fun q => 64 ≤ q.lane && q.res.isNone && q.deadline ≤ s.tim.cnt).foldl (fun s q =>
    reportCyc (endJob s q (emptyRes 6)) c.n 0x0E17 0 q.id) s

/-- R27: the deadline of a stage of cycle `n` arrives. -/
def execStageDeadline (n k t : Nat) (s : State) : Host.Outcome State Fault Refusal :=
  let s := s.at t
  done (match s.cyc? n with
    | none => s
    | some c =>
      if c.missed then s
      else if k = 6 && 6 ≤ c.run.stage then exportsLate s c
      else if s.tim.cnt < stageDue s c k then s
      else if k = 9 then
        if c.committed then
          cycleOut ((overrun s n 9).rc fun x => { x with slack9 := some 0 }) n
        else s
      else if c.committed || c.run.again || k < 2 || 7 < k then s
      else if c.run.stage < k || (c.run.stage = k && c.run.running && k ≠ 6) then missCycle (overrun s n k) n
      else s)

/-! ### The failure sample (R214 to R217, R396, R505) -/

/-- The sample of cycle `n`: own source words, and L(n) where no other word is awaited. -/
def failSample (s : State) (c : Cyc) : State :=
  let (w, s) := ownSources s c.inp
  let w : SrcWord := { w with tel := [s.rd TIM_QUAL_STATE, estErr s, s.tim.suppr, s.rd SEQ_MISS_CNT_MISS_CNT] }
  let partner := (partOf s c.n).src
  let peers := (c.fail.map (·.peers)).getD []
  let s := updCyc s c.n fun c => { c with fail := some ⟨w, if isPair s then partner else none, peers, false, noLoss⟩ }
  let s := staleItems s c.n
  let s := if s.flag RED_STATUS_PAIRED then pstSend s 0x11 0 (partnerAddr s) c.n (w.src ++ w.tel) else s
  let s := if hasPurpose s 0 then pstSend s 0x11 0 bcastString c.n (w.src ++ w.tel) else s
  let alone := !partnerIn s c.n || partner.isSome
  let s := if alone && !hasPurpose s 0 then formL s c.n else s
  jnlMark s c.n (if c.run.ready then 1 else 0)

/-- R214: T_S(n). -/
def execFailureSample (n t : Nat) (s : State) : Host.Outcome State Fault Refusal :=
  let s := s.at t
  done (match s.cyc? n with
    | some c =>
      if c.missed || c.committed || sampled c || s.flag ERR_STATUS_FAIL_SILENT
          || s.tim.cnt < dueAt s c (s.rd SEQ_COMMIT_OFS_VALUE - s.rd SLV_SEL_TIMING_SEL_LEAD) then s
      else failSample s c
    | none => s)

/-! ### The commit (R21, R33, R219 to R224, R373, R378, R398 to R401, R507) -/

/-- L(n) at the commit (R396): without the partner's word it is formed SOLO. -/
def settleL (s : State) (n : Nat) : State :=
  match s.cyc? n with
  | none => s
  | some c =>
    let s := if sampled c then s else failSample s c
    let waits : Bool := partnerIn s n && (((s.cyc? n).bind (·.fail)).bind (·.partner)).isNone
    let s := updCyc s n fun c => { c with
      run := { c.run with srcSolo := waits }, results := c.results ++ [(RED_STATUS_SRCWORD_SOLO, b2n waits)] }
    let s := if waits then reportCyc (s.incSat RED_CNT_AGREE_LATE 255) n 0x0D04 else s
    formL s n

/-- R401: the partner has sent neither digest nor marker of the cycle before by this commit instant. -/
def partnerCheck (s : State) (n : Nat) : State :=
  let own : Bool := s.red.digs.any fun d => d.1 + 1 = n
  let took : Bool := s.red.pSends || (partOf s (n - 1)).blks ≠ []
  if pairOk s && own && took && (partOf s (n - 1)).dig.isNone then partnerLost s else s

/-- What a cycle commits: from the candidates of the device's own lanes, or under WIDEN from those of the master's table (R225). -/
def decideCyc (s : State) (c : Cyc) : CommitRec × Option Prob := decide_ s c (if widenDev s then widenSel s c else ownSel s c)

/-- The box that a DEEPEN group reports with a commit (R226): CAP_NEG and CAP_POS of each force row, free values
(notes/assumptions/94). -/
def boxWords (s : State) (r : CommitRec) : List Nat :=
  (List.range (2 * s.alloc?.forces)).map fun i => (Config.fit 26 (r.f.flatMap id) i).toNat

/-- Every result register that the commit of a cycle shows together (O5, R33). -/
def cycleResults (s : State) (c : Cyc) (r : CommitRec) (p : Option Prob) : List (Fld × Nat) :=
  jobBlanks s ++ c.results ++ fltResults s c.out.chans
    ++ (match c.out.vote with
      | some v => refResults v
      | none => [])
    ++ (match c.out.oce with
      | some o => oceResults (oceCtx s c) c.inp.bank (kC c.inp.cfg) o.st o
      | none => [])
    ++ selResults s c r p ++ fldResults s c.inp ++ driveResults s
    ++ ((List.range r.axes.length).zip r.axes).flatMap (fun x => [(FLD_AX_CMD_VALUE x.1, x.2.val), (FLD_AX_STS_STANDBY x.1, b2n x.2.stby)])
    ++ [(SEQ_LAST_COMMIT_LAST_COMMIT, c.n)]

/-- A checkpoint is written (R376, R378). -/
def checkpoint (s : State) (c : Cyc) : State :=
  if c.n % 32 ≠ 0 then s
  else
    let i := s.jnl.next
    let k : Ckpt := { n := c.n, lost := false, snap := c.snap, units := s.alloc.units, fbMiss := s.alloc.fbMiss, dev := s.alloc.dev,
                      past := s.alloc.past, last := s.seq.last, mode := c.inp.mode, sps := c.inp.sps, spT0 := c.inp.spT0 }
    let s := { s with jnl := { s.jnl with ckpt := s.jnl.ckpt.set i (some k), next := 1 - i } }
    if i = 0 then s.wrs [(JNL_STATUS_CKPT0_OK, 1), (JNL_CKPT0_CYC, c.n)] else s.wrs [(JNL_STATUS_CKPT1_OK, 1), (JNL_CKPT1_CYC, c.n)]

/-- The digest of a committed cycle goes to the partner, and is compared with the partner's (R398, R399). -/
def sendDigest (s : State) (c : Cyc) (r : CommitRec) : State :=
  if !isPair s then s
  else
    let d := digestOf s c r
    let clean := !c.run.solo && !c.run.srcSolo
    let s := s.wrs [(RED_DIG_LO_VALUE, d), (RED_DIG_HI_VALUE, d / 2 ^ 32)]
    let s := s.rs fun x => { x with digs := (c.n, some d, clean) :: x.digs.take 7 }
    let s := match s.jnlOf c.n with
      | some j => jnlPut s { j with digest := d }
      | none => s
    if s.flag RED_STATUS_PAIRED then digCompare (pstSendData s 0x12 (partnerAddr s) c.n (.digest (some d) clean (driveFormats s))) c.n else s

/-- The shares and boxes that go out with a commit (R226), and the record for a partner that resynchronises (R403). -/
def sendShares (s : State) (c : Cyc) (r : CommitRec) : State :=
  let a := s.alloc?
  let kinds := (List.range a.thr.length).filter fun i => (a.thr[i]?.map (·.kind)) = some 4
  let s := if hasPurpose s 1 && isMaster s then
      ((peerList s).zip kinds).foldl (fun s x => pstSend s 0x14 2 x.1.1 c.n (at_ r.f x.2 [])) s
    else s
  let s := if deepenGroup s then pstSend s 0x14 1 (s.pst.backup.getD (masterAddr s)) c.n (boxWords s r) else s
  if s.flag RED_STATUS_PAIRED && !cascStopped s && c.run.sends && !s.red.pSends && s.red.pState ≠ 0 && (partOf s c.n).blks = [] then
    match s.jnlOf c.n with
    | some j => pstSendData s 0x21 (partnerAddr s) c.n (.record j)
    | none => s
  else s

/-- The commit of a READY cycle. -/
def commitCyc (s : State) (n : Nat) : State :=
  let s := settleL s n
  match s.cyc? n with
  | none => s
  | some c =>
    let s := if widenDev s && 2 ≤ c.inp.mode && !(s.alloc.tables.any fun x => x.1 = n) then reportCyc s n 0x038C else s
    let (r, p) := decideCyc s c
    let s := s.wrs (cycleResults s c r p)
    let s := selReports s c r
    let s := updCyc s n fun c => { c with committed := true, commit := some r }
    let c := (s.cyc? n).getD c
    let s := jnlMark s n 2
    let s := if bit c.inp.runs 4 && !s.fld.parked && c.run.sends then axisOutputs s r.axes c.inp.dout else s
    let s := remember (checkpoint s c) c r
    let s := s.sq fun q => { q with missRun := q.missNext, missNext := 0, alive := if s.rd SEQ_STATUS_STATE = 2 then !q.alive else q.alive }
    let s := driveSettle (edgeSrc (sendShares (sendDigest s c r) c r) 0)
    let s := if s.red.leadNext then becomeLead s else s
    let c := (s.cyc? n).getD c
    let tele := teleBase s c r
    let s := updCyc s n fun c => { c with out := { c.out with tele := tele, caBits := teleCa s } }
    let c := (s.cyc? n).getD c
    bankUse (releaseBits (releaseLate (releaseEntries (recCommit s c) c)) c)

/-- The commit instant of a cycle that is not ready (R27, R35, R373). -/
def commitLate (s : State) (c : Cyc) : State :=
  let s :=
    if c.run.again then reportCyc s c.n 0x020C
    else if c.run.stage = 7 && !c.run.running then reportCyc (s.incSat JNL_CNT_WRITE_LATE 255) c.n 0x0C01
    else overrun s c.n (if c.run.running then c.run.stage else c.run.stage + 1)
  missCycle s c.n

/-- A block of the cycle's record was rewritten and its second read-back is not done at the commit instant: how long it takes, the spec leaves
open (R373; notes/assumptions/96). -/
def rewriteOpen (s : State) (n : Nat) : Bool := s.err.rewrote.any fun x => x.1 = n && (Config.fit 27 [n, x.2] 0).toNat % 2 = 1

/-- R21: T0(n) + C. Commits come in cycle order (O1). -/
def execCommit (n t : Nat) (s : State) : Host.Outcome State Fault Refusal :=
  let s := s.at t
  done (match s.cyc? n with
    | some c =>
      if c.missed || c.committed || s.flag ERR_STATUS_FAIL_SILENT || s.tim.cnt < dueAt s c (s.rd SEQ_COMMIT_OFS_VALUE)
          || s.seq.cycs.any (fun d => d.n < n && !d.missed && !d.committed) then s
      else
        let s := partnerCheck s n
        match s.cyc? n with
        | some c => if c.run.ready && c.run.stage = 7 && !c.run.running && !rewriteOpen s n then commitCyc s n else commitLate s c
        | none => s
    | none => s)

/-! ### Lane jobs (R235, R245 to R248) -/

/-- Change a job that waits or runs, wherever it is kept. -/
def putStart (s : State) (q : Job) : State :=
  let on (x : Job) : Job := if x.lane = q.lane ∧ x.j = q.j ∧ x.cyc = q.cyc ∧ x.res = none then { x with started := some s.tim.cnt } else x
  let s := updJobs s q.cyc on
  { s with
    gns := { s.gns with jobs := s.gns.jobs.map on },
    pst := { s.pst with imports := s.pst.imports.map fun (i : ImpJob) => { i with job := on i.job } } }

/-- Every job that a lane holds. -/
def laneJobs (s : State) (lane : Nat) : List Job :=
  ((s.seq.cycs.flatMap fun c => c.out.jobs) ++ s.gns.jobs ++ s.pst.imports.map (·.job)).filter fun q => q.lane = lane

/-- R235: a lane starts a job, once no other job runs on it and the earlier ones of its cycle have ended. -/
def execLaneJobStart (lane j n t : Nat) (s : State) : Host.Outcome State Fault Refusal :=
  let s := s.at t
  done (match jobAt s lane j n with
    | some q =>
      let busy := (laneJobs s lane).any fun x => x.res.isNone && (x.started.isSome || (x.cyc = n && x.j < j))
      if q.started.isSome || busy || 64 ≤ lane || laneFenced s lane || s.flag ERR_STATUS_FAIL_SILENT || q.deadline < s.tim.cnt then s
      else
        let s := stageJob (putStart s q) q
        if descBad q then laneFault s { q with started := some s.tim.cnt } 12 0 false
        else match takeInjection s 1 lane with
        | (none, s) => s
        | (some m, s) =>
          if m = 3 then noteFault s ⟨3, 1, lane, workCyc s n, 0, false, true, false⟩ 1 (repeating s (workCyc s n))
          else laneFault s { q with started := some s.tim.cnt } m 0 true
    | none => s)

/-- The buffer of a WLS job holds the data of its last step (R243). -/
def lastData (s : State) (q : Job) (r : JobRes) : State :=
  if q.typ = 2 && 2 ≤ r.iter && q.lane < 64 then
    stageJob s { q with words := wlsWords (q.sub = 2) q.ls (wlsRun (q.sub = 2) q.ls (r.iter - 1)).pt }
  else s

/-- The staging buffer of a job that has ended takes the data of the next job that waits for it (R235). -/
def stageNext (s : State) (q : Job) : State :=
  let bufs := (s.laneMap q.lane).bufs
  match (laneJobs s q.lane).find? fun x => x.cyc = q.cyc && x.j = q.j + bufs && x.res.isNone && x.started.isNone with
  | some x => stageJob s x
  | none => s

/-- A job has its outcome: its result goes to the selector, a GNSS slot, the exporter or the reference node, and its staging buffer takes the
next job's data (R235). A lane that has become free takes the next GNSS job (R146). -/
def finishJob (s : State) (q : Job) (r : JobRes) : State :=
  let s := lastData s q r
  match imported s q with
  | some i => gnsFill (stageNext (endImport s i r) q)
  | none => if q.typ = 1 then stageNext (endJob s q r) q else gnsJobDone (gnsEnd s q r) q r

/-- R248: a running job ends in time. -/
def execLaneJobEnd (lane j n t : Nat) (s : State) : Host.Outcome State Fault Refusal :=
  let s := s.at t
  done (match jobAt s lane j n with
    | some q =>
      if q.started.isNone || q.deadline < s.tim.cnt || 64 ≤ lane then s
      else
        let r := if q.typ = 1 then runJob s q q.cap else gnsRun q q.cap
        finishJob s q { r with endNs := jobEndNs s q }
    | none => s)

/-- What a job that ends DEADLINE keeps (R246): `iter` iterations, at most ITER_CAP, and where the deadline met it. A CLS job keeps no result;
its MU after some iterations is a free value (notes/assumptions/89). -/
def lateRes (s : State) (q : Job) (point iter : Nat) : JobRes :=
  if q.started.isNone then { emptyRes 6 with endNs := jobEndNs s q }
  else
    let iter := min iter q.cap
    let r := if q.typ = 1 then runJob s q iter else if q.typ = 2 then gnsRun q iter
      else { emptyRes 6 with iter := iter, mu := if iter = 0 then 0 else (Config.fit 25 q.words iter).toNat }
    { r with status := 6, dlPoint := max 1 (min 3 point), cert := false, endNs := jobEndNs s q }

/-- A job ends DEADLINE (R247). -/
def jobLate (s : State) (q : Job) (r : JobRes) : State :=
  match imported s q with
  | some i => gnsFill (endImport s i r)
  | none => if q.typ = 1 then endJob s q r else gnsFill (gnsJobLate (gnsEnd s q r) q)

/-- R246, R247: the deadline arrives at a lane whose job has not ended: it and every later job of the cycle end DEADLINE. `point` and `iter`
say where the job stood. -/
def execLaneJobDeadline (lane j n point iter t : Nat) (s : State) : Host.Outcome State Fault Refusal :=
  let s := s.at t
  done (match jobAt s lane j n with
    | some q =>
      if s.tim.cnt < q.deadline || (q.typ = 1 && 64 ≤ lane) then s
      else
        let again := (laneJobs s lane).filter fun x => x.cyc = n && j < x.j && x.typ = q.typ && x.res.isNone
        let r := lateRes s q point iter
        let s := jobLate (lastData s q r) q r
        let s := again.foldl (fun s x => jobLate s x { emptyRes 6 with endNs := jobEndNs s x }) s
        if q.typ = 1 && lane < 4 && (imported s q).isNone then
          let replay := repeating s (some n)
          missCycle (if replay then reportCyc s n 0x020C else s) n
        else s
    | none => gnsPlanLate s n)

/-! ### Starting and halting (R19, R22, R88, R394, R405, R430, R431, R566) -/

/-- The journal and the checkpoints of an earlier run are invalid (R566); its final records still wait for their NAND copy. -/
def jnlForget (s : State) : State :=
  let old := (s.jnl.ring.filter fun e => e.2.final && !e.2.copied).map fun e => (e.1 % 64 + 64, e.2)
  let s := { s with jnl := { s.jnl with ring := old, ckpt := [none, none], next := 0 } }
  s.wrs [(JNL_STATUS_CKPT0_OK, 0), (JNL_STATUS_CKPT1_OK, 0), (JNL_CKPT0_CYC, 0xFFFFFFFF), (JNL_CKPT1_CYC, 0xFFFFFFFF),
    (JNL_STATUS_RECORDS, 0), (JNL_HEAD_CYC, 0xFFFFFFFF)]

/-- Every group runs and starts cold, and ARMING is entered. -/
def enterArming (s : State) : State :=
  let s := { s with
    img := { s.img with taken := 0, restart := 0 },
    alloc := { AllocSt.reset with maps := s.alloc.maps },
    err := { s.err with hist := [], rewrote := none },
    oce := OceSt.reset,
    red := { s.red with parts := [], digs := [], missed := [], leadNext := false } }
  let s := s.sq fun q => { q with
    cycs := [], reinit := false, walk := 0, missRun := 0, missNext := 0, late := [], gens := List.replicate 20 0, last := none, evtDue := 0,
    resumeDue := false, restartFail := false }
  let s := (putPend (putState s 0) 0).wrs
    [(SEQ_STATUS_STATE, 1), (SEQ_STATUS_RESUMED, 0), (SEQ_STATUS_RESYNCED, 0), (SEQ_STATUS_PHASE_WALK, 0), (SEQ_MODE_ACT_MODE, 0),
     (RST_PWR_STS_STATE, 0)]
  (groupsIn s 0xFFFFF).foldl (fun s g => groupStart s 0 g) s

/-- A cold RUN entry into ARMING (R22, R42, R88, R191): the staged values of every group apply, every group starts cold, and nothing of an
earlier run is used. RWL values that a restart of an earlier run applied stand (the model's choice, notes/assumptions/86). -/
def coldEntry (s : State) : State :=
  let s := jnlForget ((groupsIn s 0xFFFFF).foldl applyStaged s)
  let s := (s.rc fun x => { x with missSeen := 0, slack9 := none }).wrs [(SEQ_MISS_CNT_MISS_CNT, 0), (OCE_BANK_STS_ACTIVE, 0)]
  enterArming (s.wrs ((List.range s.lanes).flatMap fun i => [(SLV_LANE_CNT_DL_CNT i, 0), (SLV_LANE_CNT_REG_JOBS i, 0)]))

/-- The role of a Pairs member that starts (R394). -/
def startRole (s : State) : State :=
  if !isPair s then s
  else if !s.flag RED_STATUS_PAIRED then s.wrs [(RED_STATUS_ROLE, 1), (RED_STATUS_PARTNER_OK, 0), (RED_STATUS_SYNC, 0)]
  else if s.red.pState = 0 then s.wrs [(RED_STATUS_ROLE, if pairLow s then 1 else 2), (RED_STATUS_SYNC, 0)]
  else
    -- the partner runs, and acts as master where this device is the named one (R428)
    let s := if cascRole s = 1 && s.pst.backup.isNone then s.ps fun x => { x with backup := some (partnerAddr s) } else s
    takeStandby (s.rs fun x => { x with gaveUp := false })

/-- The next T0 of a device that starts (R19, R430, R431): fixed from this request, taken from START, or asked for with JOIN. A master
passes a T0(0) on. -/
def startChain (s : State) (t0 : Option Int) : State :=
  match t0 with
  | some x =>
    let s := s.sq fun q => { q with nextN := 0, nextT0 := x }
    if isMaster s then modeSend s 1 bcastAll [x.toNat] else s
  | none =>
    if cascRole s = 0 then s.sq fun q => { q with nextN := 0, nextT0 := firstT0 s }
    else if isMaster s then
      let x := firstT0 s
      modeSend (s.sq fun q => { q with nextN := 0, nextT0 := x }) 1 bcastAll [x.toNat]
    else modeSend (s.ps fun x => { x with joining := true }) 2 (s.pst.backup.getD (masterAddr s)) []

/-- The first group with a staged value that fails (R88). -/
def startBad (s : State) : Option (Nat × Nat) :=
  let gs := groupsIn s 0xFFFFF
  gs.findSome? fun g => (stagedBad s gs g).map fun off => (g, off)

/-- The partner's tag is known and differs, and its address is the lower (R393). -/
def tagRefused (s : State) : Bool :=
  let tag := s.rd RED_TAG_LO_VALUE + 2 ^ 32 * s.rd RED_TAG_HI_VALUE
  isPair s && !pairLow s && (List.range 2).any fun p => match (s.pport p).peer with
    | some d => s.rd (PST_PORT_STS_PEER_ADDR p) = partnerAddr s && d.tag ≠ tag
    | none => false

/-- A staged value fails its check at a START (R88): its group and register. -/
def startFailed (s : State) (g off : Nat) : State := s.wrs [(IMG_FUNC_ERR_GROUP, g), (IMG_FUNC_ERR_REG_OFS, off)]

/-- START is made (R22, R88, R394, R405, R430, R431). -/
def seqStart (s : State) : State :=
  if !s.loaded || !s.idle || (cascRole s = 5 && !s.red.activated) then refuse s 0x020B
  else if tagRefused s then refuse s 0x0D02
  else match startBad s with
    | some (g, off) => refuse (startFailed s g off) 0x020B
    | none =>
      let both : Bool := isPair s && s.flag RED_STATUS_PAIRED && s.red.pState = 0
      let s := startRole (coldEntry s)
      if !both || isMaster s then startChain s none
      else if masterAddr s = partnerAddr s then
        -- both members arm for a T0(0) fixed from this request
        let x := firstT0 s
        modeSend (startChain s (some x)) 1 (partnerAddr s) [x.toNat]
      else modeSend (startChain s none) 1 (partnerAddr s) []

/-- R394, R430: a START frame: an IDLE device with an image loaded enters ARMING for its T0(0); one from a partner that is no master carries
none. -/
def execModeStart (h : PstHdr) (t0 : Option Int) (t : Nat) (s : State) : Host.Outcome State Fault Refusal :=
  done (pstTake (s.at t) h 4 fun s =>
    let mine : Bool := (t0.isSome && isMasterAddr s h.src) || (isPair s && h.src = partnerAddr s)
    if !mine || !s.idle || !s.loaded || (cascRole s = 5 && !s.red.activated) then s
    else match startBad s with
      | some (g, off) => report (startFailed s g off) 0x020B
      | none =>
        let s := s.rs fun x => { x with pState := if isPair s && h.src = partnerAddr s then 0 else x.pState }
        startChain (startRole (coldEntry s)) t0)

/-- HALT (R42, R467): no further cycle starts. -/
def seqHalt (s : State) : State :=
  if s.rd SEQ_STATUS_STATE = 1 then
    (s.ps fun x => { x with joining := false, joinAt := none }).wrs [(SEQ_STATUS_STATE, 0), (RST_PWR_STS_STATE, 1), (SEQ_STATUS_PHASE_WALK, 0)]
  else if s.rd SEQ_STATUS_STATE = 2 then seqState s 3
  else s

/-- R42, R467: a write of SEQ_CTRL.HALT = 1. -/
def execSeqHalt (p : Path) (t : Nat) (s : State) : Host.Outcome State Fault Refusal := done (hostDo (s.at t) p 0x50000 2 seqHalt)

/-! ### Restart (R383, R402) -/

/-- A resumed device waits for the first T0 on its chain (R383 step 3), or in a cascade for the master's answer (R431). -/
def resumeChain (s : State) (n : Nat) (t0 : Int) : State :=
  let s := (chainFrom_ s n t0).wrs [(SEQ_STATUS_STATE, 1), (SEQ_STATUS_RESUMED, 1), (RST_PWR_STS_STATE, 0)]
  if cascRole s = 0 || isMaster s then s
  else modeSend (s.ps fun x => { x with joining := true }) 2 (s.pst.backup.getD (masterAddr s)) []

/-- The rebuild and resumption of R383. -/
def resumeRun (s : State) : State :=
  match bestCkpt s with
  | none => report (s.sq fun q => { q with restartFail := true }) 0x0C0A
  | some (k, recs) =>
    let s := rebuild s k recs
    let gs := groupsIn s 0xFFFFF
    let s := { s with img := { s.img with taken := 0, restart := 0 } }
    let s := (gs.filter fun g => g = 3 || g = 4 || 5 < g).foldl (fun s g => groupStart s (k.n + recs.length) g) (putPend (putState s 0) 0)
    let last := recs.getLast?.bind fun r => r.inp.map fun i => (r.n, i)
    match last with
    | some (n, i) =>
      let s := s.sq fun q => { q with gens := i.gens }
      report (resumeChain s n i.t0c) 0x0C09
    | none => report (s.sq fun q => { q with restartFail := true }) 0x0C0A

/-- R383, R402: the restart after a W or C reset. -/
def execRestartResume (t : Nat) (s : State) : Host.Outcome State Fault Refusal :=
  let s := s.at t
  done (
    if !s.seq.resumeDue || !s.loaded || s.flag ERR_STATUS_FAIL_SILENT then s
    else
      let s := s.sq fun q => { q with resumeDue := false, cycs := [] }
      if isPair s && s.flag RED_STATUS_PAIRED && (s.red.pSends || !pairLow s) then
        -- the partner sends, or is the lower address and resumes first
        startChain (startRole ((enterArming s).rs fun x => { x with pState := 2 })) none
      else resumeRun (if isPair s then s.wrs [(RED_STATUS_ROLE, 1), (RED_STATUS_SYNC, 0)] else s))

end Sys2Proof.Machine
end

