-- ==== Sys2Proof/Machine/Clk.lean ====
section
/-! DEFINITION. Clock sources, PLLs, domains, their monitors, ramps and gates, and the frequency counter (R449 to R463 of spec/15). -/

namespace Sys2Proof.Machine

open Sys2Proof

/-- Change the clock state. -/
def State.ck (s : State) (f : ClkSt → ClkSt) : State := { s with clk := f s.clk }
/-- A clock domain beside its register. -/
def State.dom (s : State) (d : Nat) : DomSt := s.clk.doms.getD d ⟨false, false, 0, false, false, false⟩
/-- Change a clock domain. -/
def updDom (s : State) (d : Nat) (f : DomSt → DomSt) : State := s.ck fun x => { x with doms := x.doms.set d (f (s.dom d)) }
/-- The STATE of a domain: 0 PRIMARY, 1 RAMPING, 2 FALLBACK, 3 FALLBACK_WAIT, 4 GATED, 5 OFF, 6 NO_CLOCK. -/
def domState (s : State) (d : Nat) : Nat := s.rd (CLK_DOM_STS_STATE d)

/-! ### Sources (R449 to R452) -/

/-- An XA is fitted (R450). -/
def xaFitted (s : State) : Bool := 10000 ≤ s.rd CLK_OTP_XA_FREQ_KHZ && s.rd CLK_OTP_XA_FREQ_KHZ ≤ 52000
/-- FRC is proven and not bad. -/
def frcOk (s : State) : Bool := bit s.clk.proven 0
/-- The source of a domain or of the counter: 0 FRC, 1 SRC, 2 XA, 3 XB, 4 GCLK, 5 the PCIe reference, 6 to 10 the PLLs. -/
def sourceOk (s : State) (k : Nat) : Bool := if k < 6 then bit s.clk.proven k else s.flag (CLK_PLL_CFG_LOCKED (k - 6))
/-- The primary source of each domain (R453). -/
def primaryOf (d : Nat) : Nat := [1, 0, 8, 9, 4, 6, 7, 3, 3, 5, 10, 10].getD d 0
/-- A domain that the Snowplough ramp serves (R453). -/
def domRamped (d : Nat) : Bool := d = 2 || d = 3 || d = 5 || d = 10 || d = 11
/-- The reference of a PLL (R452). -/
def pllRef (s : State) (x : Nat) : Nat := if x < 2 && xaFitted s then 2 else 3

/-- CLK_STATUS brought up to date with the sources and PLLs. -/
def clkMarks (s : State) : State :=
  let p := s.clk.proven
  s.wrs [(CLK_STATUS_FRC_PROVEN, b2n (bit p 0)), (CLK_STATUS_SRC_OK, b2n (bit p 1)), (CLK_STATUS_XA_OK, b2n (bit p 2 && xaFitted s)),
    (CLK_STATUS_XB_OK, b2n (bit p 3)),
    (CLK_STATUS_PLL_LOCK, (List.range 5).foldl (fun m x => setBit m x (s.flag (CLK_PLL_CFG_LOCKED x))) 0)]

/-- A PLL starts: its feedback value, and EN (R452). PLL-A and PLL-V stay off in DOZE, and where the variant does not use them. -/
def pllStart (s : State) (x : Nat) : State :=
  let used : Bool := if x = 0 then s.hasGnss else if x = 3 then domState s 3 ≠ 5 else true
  let doze : Bool := (x = 0 || x = 3) && (s.dom (if x = 0 then 5 else 3)).doze
  if !used || doze then s
  else
    let fref := if pllRef s x = 2 then s.rd CLK_OTP_XA_FREQ_KHZ else 25000
    let v := (divRne (([2618880, 2500000, 2400000, 2400000, 2400000].getD x 0 * 2 ^ 24 : Nat) : Int) fref).toNat
    s.wrs [(CLK_PLL_CFG_EN x, 1), (CLK_PLL_CFG_POSTDIV x, [7, 9, 2, 1, 14].getD x 0), (CLK_PLL_CFG_N x, v / 2 ^ 24), (CLK_PLL_FRAC_FRAC x, v)]

/-- A PLL is off. -/
def pllStop (s : State) (x : Nat) : State := clkMarks (s.wrs [(CLK_PLL_CFG_EN x, 0), (CLK_PLL_CFG_LOCKED x, 0)])

/-! ### Domains (R453 to R459) -/

/-- Write the STATE of a domain, with its NOT_PRIMARY bit. -/
def setDom (s : State) (d st : Nat) (primary : Bool) : State :=
  (s.wr (CLK_DOM_STS_STATE d) st).wrBit CLK_STATUS_NOT_PRIMARY d (!primary)

/-- The PCIe link goes down (R525). -/
def pcieDown (s : State) : State :=
  if s.flag HST_STATUS_LINK_UP then report (s.wrs [(HST_STATUS_LINK_UP, 0), (HST_STATUS_GEN, 0), (HST_STATUS_WIDTH, 0)]) 0x1210 else s

/-- What running on FRC means for a domain (R455). -/
def onFallback (s : State) (d : Nat) : State :=
  match d with
  | 2 | 3 | 10 | 11 => if s.rd SEQ_STATUS_STATE = 2 then classOther s else s
  | 4 => gclkLoss s
  | 5 => allLost s
  | 6 => timRefLoss s
  | 7 => (List.range 4).foldl (fun s p => if s.flag (NET_STATUS_LINK p) then linkDown s p 0x0702 else s) s
  | 8 => linkLoss (linkLoss s 0) 1
  | 9 => pcieDown s
  | _ => s

/-- A domain has no usable source (R457). -/
def noClock (s : State) (d : Nat) : State :=
  let s := report (setDom s d 6 false) 0x0F07 d
  if (d = 2 || d = 3 || d = 10 || d = 11) && s.rd SEQ_STATUS_STATE = 2 then classOther s else s

/-- A domain moves to its primary source or to FRC, through the ramp where it has one (R459). -/
def moveDom (s : State) (d : Nat) (primary ret : Bool) : State :=
  if domRamped d && s.rd CLK_RAMP_DWELL ≠ 0 then
    (setDom (updDom s d fun x => { x with toFall := !primary, ret := ret }) d 1 primary).wr (CLK_DOM_STS_RAMP_STEP d) 0
  else
    let s := setDom (updDom s d fun x => { x with toFall := false, ret := false }) d (if primary then 0 else 2) primary
    if ret then report s 0x0F03 d else s

/-- A domain loses its source (R455 to R457): FRC at once, without a ramp; the wait for FRC; or no clock. -/
def toFallback (s : State) (d : Nat) : State :=
  let s := (updDom s d fun x => { x with toFall := false, ret := false }).wr (CLK_DOM_STS_RAMP_STEP d) 0
  -- GCLK is absent, or GNSS-C has lost its clock, whether FRC can take over or not (R127, R161)
  let s := if d = 4 then gclkLoss s else if d = 5 then allLost s else s
  if d = 1 then noClock s 1
  else if frcOk s then onFallback (report (setDom s d 2 false) 0x0F01 d) d
  else if s.flag CLK_STATUS_FRC_BAD then noClock s d
  else report (setDom s d 3 false) 0x0F02 d

/-- A domain that is not running starts (R459, R465, R471): on its primary source, else as one that has lost it. -/
def startDom (s : State) (d : Nat) : State :=
  let bad := (s.dom d).trip
  let s := updDom s d fun x => { x with trip := false }
  if sourceOk s (primaryOf d) && !bad then moveDom s d true false else toFallback s d

/-- A domain whose clock is present. -/
def domRuns (s : State) (d : Nat) : Bool := s.clk.released && (domState s d < 3)

/-- SOLV and GNSS-C start when their PLL locks; what gates them else is the host or DOZE (R465). -/
def lockStart (s : State) (d : Nat) : State :=
  let x := s.dom d
  if s.clk.released && domState s d = 4 && !x.host && !x.doze then startDom s d else s

/-- The device returns to HOLD at the end of a DOZE exit, once both domains run or stay gated by the host; a START written in DOZE counts
as made now (R468). -/
def dozeExit (s : State) : State :=
  let at_ (d : Nat) : Bool := domState s d ≠ 1 && (domState s d ≠ 4 || (s.dom d).host)
  if s.rd RST_PWR_STS_STATE = 4 && at_ 3 && at_ 5 then
    let due := s.clk.startDue
    let s := (s.ck fun x => { x with startDue := false }).wr RST_PWR_STS_STATE 1
    let s := if gnsRuns s then acqTake (gnsAfresh s) else s
    if due then seqStart s else s
  else s

/-- A source is proven (R449): the PLLs that take it start, and domains that waited for FRC move to it. -/
def sourceProven (s : State) (k : Nat) : State :=
  if 6 ≤ k || bit s.clk.proven k || !(bit s.clk.run k || 4 ≤ k) || (k = 0 && s.flag CLK_STATUS_FRC_BAD) then s
  else
    let s := s.ck fun x => { x with proven := setBit x.proven k true, since := x.since.set k s.tim.cnt }
    let s := clkMarks s
    let s := (List.range 5).foldl (fun s x => if pllRef s x = k then pllStart s x else s) s
    match k with
    | 0 =>
      let s := if s.clk.released && domState s 1 = 4 then setDom s 1 0 true else s
      (List.range 12).foldl (fun s d =>
        if domState s d = 3 then onFallback (report (moveDom s d false false) 0x0F01 d) d else s) s
    | 1 =>
      -- step 2 of a start (R465): FEEDSEL rises for each feed that is not lost
      if s.clk.rails || s.clk.released then s
      else s.wrs [(RED_FEED_FEEDSEL_A, 1 - s.rd RED_FEED_A_LOST), (RED_FEED_FEEDSEL_B, 1 - s.rd RED_FEED_B_LOST)]
    | _ => s

/-- A PLL locks (R452). -/
def pllLocked (s : State) (x : Nat) : State :=
  if 5 ≤ x || !s.flag (CLK_PLL_CFG_EN x) || !sourceOk s (pllRef s x) || s.flag (CLK_PLL_CFG_LOCKED x) then s
  else
    let s := clkMarks (s.wr (CLK_PLL_CFG_LOCKED x) 1)
    let s := s.ck fun c => { c with since := c.since.set (6 + x) s.tim.cnt }
    let s := if x = 1 then timRefBack s else s
    let start (s : State) (d : Nat) : State := lockStart (updDom s d fun y => { y with doze := false }) d
    if x = 0 then dozeExit (start s 5) else if x = 3 then dozeExit (start s 3) else s

/-- A monitor trips on a source or PLL (R454, R455, R471). -/
def monitorTrip (s : State) (k : Nat) : State :=
  let inUse : Bool := if k < 6 then bit s.clk.proven k || (k < 4 && bit s.clk.run k) else s.flag (CLK_PLL_CFG_EN (k - 6)) && k < 11
  if !inUse then s
  else
    let s := s.ck fun x => { x with proven := if k < 6 then setBit x.proven k false else x.proven }
    let s := clkMarks (if 6 ≤ k then s.wr (CLK_PLL_CFG_LOCKED (k - 6)) 0 else s)
    if k = 0 then
      let s := safInternal (report (s.wr CLK_STATUS_FRC_BAD 1) 0x0F06)
      (List.range 12).foldl (fun s d =>
        let st := domState s d
        let onFrc : Bool := d = 1 || st = 2 || st = 3 || (st = 1 && (s.dom d).toFall)
        if s.clk.released && onFrc && st ≠ 6 then noClock s d else s) s
    else
      let s := report s (if 6 ≤ k then 0x0F04 else 0x0F05) k
      (List.range 12).foldl (fun s d =>
        if primaryOf d ≠ k then s
        else
          let s := s.incSat (CLK_DOM_STS_TRIP_CNT d) 0xFFFF
          let st := domState s d
          if !s.clk.released then s
          else if st = 4 then updDom s d fun x => { x with trip := true }
          else if st = 0 || (st = 1 && !(s.dom d).toFall) then toFallback s d
          else s) s

/-- R454. -/
def execClockMonitorTrip (k t : Nat) (s : State) : Host.Outcome State Fault Refusal := done (monitorTrip (s.at t) k)

/-- R457: FRC has not become proven 100 ms after its start. -/
def execNoClockTimeout (t : Nat) (s : State) : Host.Outcome State Fault Refusal :=
  let s := s.at t
  done (if frcOk s then s else (List.range 12).foldl (fun s d => if domState s d = 3 then noClock s d else s) s)

/-- A domain returns to its primary source (R458): SEQ, SOLV, FLD and JNL not while RUNNING. -/
def clockReturn (s : State) (d : Nat) : State :=
  let k := primaryOf d
  let st := domState s d
  let ready : Bool := sourceOk s k && s.clk.since.getD k 0 + usTicks 10000 ≤ s.tim.cnt
  let free : Bool := !(d = 2 || d = 3 || d = 10 || d = 11) || s.rd SEQ_STATUS_STATE ≠ 2
  if 12 ≤ d || !s.clk.released || !(st = 2 || st = 3 || st = 6) || !ready || !free then s
  else
    let s := moveDom s d true true
    if d = 4 then gclkReturn s else if d = 5 && gnsRuns s then acqTake s else s

/-- R459: DWELL expires on a ramping domain; the ramp ends after its eighth step. -/
def execRampStep (d t : Nat) (s : State) : Host.Outcome State Fault Refusal :=
  let s := s.at t
  done (
    if 12 ≤ d || domState s d ≠ 1 then s
    else if s.rd (CLK_DOM_STS_RAMP_STEP d) < 7 then s.incWrap (CLK_DOM_STS_RAMP_STEP d)
    else
      let x := s.dom d
      let s := (setDom (updDom s d fun y => { y with toFall := false, ret := false }) d (if x.toFall then 2 else 0) (!x.toFall)).wr
        (CLK_DOM_STS_RAMP_STEP d) 0
      dozeExit (if x.ret then report s 0x0F03 d else s))

/-! ### Gates (R460, R461, R468) -/

/-- A gate of a domain is requested for a reason (1 the host, 2 DOZE). -/
def gateReq (s : State) (d why : Nat) : State :=
  let st := domState s d
  if st = 5 then s
  else if st = 4 then updDom s d fun x => if why = 1 then { x with host := true } else { x with doze := true }
  else (updDom s d fun x => { x with pend := x.pend ||| why }).wr (CLK_DOM_STS_GATE_PEND d) 1

/-- DOZE is entered once both of its domains are gated (R468). -/
def dozeEnter (s : State) : State :=
  let out (d : Nat) : Bool := 4 ≤ domState s d
  if s.rd RST_PWR_STS_STATE = 2 && out 3 && out 5 then (pllStop (pllStop s 3) 0).wr RST_PWR_STS_STATE 3 else s

/-- R460: every block of a domain is idle, and the domain is gated; without GNSS-S or GNSS-C no channel tracks, and DOZE acts as the loss of
every signal (R161). -/
def execGateDone (d t : Nat) (s : State) : Host.Outcome State Fault Refusal :=
  let s := s.at t
  let x := s.dom d
  done (
    if 12 ≤ d || x.pend = 0 || domState s d = 1 then s
    else
      let s := updDom s d fun y => { y with pend := 0, host := y.host || bit x.pend 0, doze := y.doze || bit x.pend 1 }
      let s := (setDom s d 4 true).wr (CLK_DOM_STS_GATE_PEND d) 0
      let s := if d = 5 then allLost s else if d = 4 then loseAll s else if d = 8 then linkLoss (linkLoss s 0) 1 else s
      dozeEnter s)

/-- A gate of a domain is taken back (R459, R461). -/
def ungate (s : State) (d : Nat) : State :=
  let x := s.dom d
  let s := if x.pend = 0 then s.wr (CLK_DOM_STS_GATE_PEND d) 0 else s
  if domState s d = 4 && !x.host && !x.doze && s.clk.released then
    let s := startDom s d
    if d = 4 then gclkReturn s else if d = 5 && gnsRuns s then acqTake s else s
  else s

/-- The idle handshake fails (R460, R468); a DOZE entry is given up. -/
def gateBusy (s : State) (d : Nat) : State :=
  let x := s.dom d
  if 12 ≤ d || x.pend = 0 then s
  else
    let s := updDom s d fun y => { y with pend := 0 }
    let s := report (s.wrs [(CLK_DOM_STS_GATE_PEND d, 0), (CLK_DOM_STS_BUSY_FAIL d, 1)]) 0x0F08 d
    if !bit x.pend 1 then s
    else
      let s := [3, 5].foldl (fun s e => ungate (updDom s e fun y => { y with doze := false, pend := y.pend &&& 1 }) e) s
      s.wrs [(RST_PWR_STS_STATE, 1), (RST_PWR_STS_REFUSED, 1)]

/-- The host may gate a domain (R461). -/
def mayGate (s : State) (d : Nat) : Bool :=
  if d = 3 then s.isNode
  else if d = 4 || d = 5 then !s.hasSec 9 || groupStopped s 3
  else (peerList s).isEmpty

/-- A write of CLK_GATE_REQ (R461): refused whole when it asks for a gate that is not permitted. -/
def clkGateReq (s : State) (v : Nat) : State :=
  let ds : List Nat := [3, 4, 5, 8]
  let want (d : Nat) : Bool := bit v d
  let asked (d : Nat) : Bool := (s.dom d).host || bit (s.dom d).pend 0
  if ds.any fun d => want d && !asked d && !mayGate s d then refuse s 0x0F09
  else
    let s := s.wrs [(CLK_GATE_REQ_LINK, b2n (bit v 8)), (CLK_GATE_REQ_GNSS_C, b2n (bit v 5)), (CLK_GATE_REQ_GNSS_S, b2n (bit v 4)),
      (CLK_GATE_REQ_SOLV, b2n (bit v 3))]
    ds.foldl (fun s d =>
      if want d then (if asked d then s else gateReq s d 1)
      else if asked d then ungate (updDom s d fun x => { x with host := false, pend := x.pend &&& 2 }) d
      else s) s

/-! ### The frequency counter (R462) -/

/-- The nominal frequency of a clock in Hz; GCLK's is the one the image states (R127), 0 without one. -/
def fmeasHz (s : State) (c : Nat) : Nat :=
  match c with
  | 0 => 96000000
  | 1 => 32768
  | 2 => s.rd CLK_OTP_XA_FREQ_KHZ * 1000
  | 3 => 25000000
  | 4 => 327360000
  | 5 => 250000000
  | 6 => 800000000
  | 7 => 1200000000
  | 8 => 160000000
  | 9 => u32 s.gnsSec 4
  | 10 => 125000000
  | 11 => 322270000
  | _ => 100000000

/-- A clock of the counter runs (R449, R452, R462). -/
def fmeasRuns (s : State) (c : Nat) : Bool :=
  if c = 0 then bit s.clk.run 0 && !s.flag CLK_STATUS_FRC_BAD
  else if c < 4 then bit s.clk.run c
  else if c < 9 then s.flag (CLK_PLL_CFG_EN (c - 4))
  else if c = 9 then bit s.clk.proven 4
  else if c = 10 then s.flag (NET_STATUS_LINK 0)
  else if c = 11 then domState s 8 < 3
  else bit s.clk.proven 5

/-- A measurement is abandoned. -/
def fmeasAbort (s : State) : State := s.wr CLK_FMEAS_CTRL_GO_BUSY 0

/-- A write of CLK_FMEAS_CTRL (R462): an ABORT without GO does nothing else; fields out of range are refused. A REF without a nominal
frequency has no stated REFCNT, which is a free value. -/
def fmeasWrite (s : State) (v : Nat) : State :=
  let s := if bit v 30 then fmeasAbort s else s
  let ms := v % 1024
  let rf := bitsOf v 27 24
  let ms_ := bitsOf v 23 20
  if bit v 30 && !bit v 31 then s
  else if ms = 0 then refuse s 0x0F0A
  else if 1000 < ms || 13 ≤ rf || 13 ≤ ms_ then refuse s 0x0F0B
  else if bit v 31 && s.flag CLK_FMEAS_CTRL_GO_BUSY then refuse s 0x0F0C
  else
    let s := s.wrs [(CLK_FMEAS_CTRL_REF, rf), (CLK_FMEAS_CTRL_MEAS, ms_), (CLK_FMEAS_CTRL_GATE_MS, ms)]
    if !bit v 31 then s
    else
      let hz := fmeasHz s rf
      let (x, s) := if hz = 0 then s.draw else ((divRne ((ms * hz : Nat) : Int) 1000).toNat, s)
      s.wrs [(CLK_FMEAS_CTRL_GO_BUSY, 1), (CLK_FMEAS_CTRL_DONE, 0), (CLK_FMEAS_REFCNT_REFCNT, x)]

/-- R462: a write of CLK_FMEAS_CTRL with GO = 1. -/
def execFmeasGo (p : Path) (v t : Nat) (s : State) : Host.Outcome State Fault Refusal :=
  done (hostDo (s.at t) p 0x10014 (v % 2 ^ 31 + 2 ^ 31) fun s => fmeasWrite s (v % 2 ^ 31 + 2 ^ 31))

/-- R462: a write of CLK_FMEAS_CTRL with ABORT = 1 alone. -/
def execFmeasAbort (p : Path) (t : Nat) (s : State) : Host.Outcome State Fault Refusal :=
  done (hostDo (s.at t) p 0x10014 (2 ^ 30) fun s => fmeasWrite s (2 ^ 30))

/-- R462: the gate ends with `count` edges of MEAS; while REF has stopped it does not end. -/
def execFmeasDone (count t : Nat) (s : State) : Host.Outcome State Fault Refusal :=
  let s := s.at t
  done (
    if !s.flag CLK_FMEAS_CTRL_GO_BUSY || !fmeasRuns s (s.rd CLK_FMEAS_CTRL_REF) then s
    else s.wrs [(CLK_FMEAS_CTRL_GO_BUSY, 0), (CLK_FMEAS_CTRL_DONE, 1), (CLK_FMEAS_CNT_COUNT, count)])

end Sys2Proof.Machine
end

