-- ==== Sys2Proof/Machine/Pwr.lean ====
section
/-! DEFINITION. Resets, the start of the main die, supplies and power states (R464 to R472 of spec/15, R555 of spec/19, and R41 of
spec/01). -/

namespace Sys2Proof.Machine

open Sys2Proof

/-! ### What a reset returns (R464, R472) -/

/-- The Reset column of the field with a bit address, as letters: P = 1, H = 2, S = 4, W = 8, C = 16, Z = 32; 0 = kept. -/
def resetLetters (key : Nat) : Nat :=
  match findReg regTable (key / 32 * 4) with
  | some (r, _) => ((r.fields.find? fun f => f.lo = key % 32).map (·.rst)).getD 0
  | none => 0

/-- Every field whose Reset column holds the letter returns to its reset value. -/
def resetRegs (letter : Nat) (r : RegFile) : RegFile := skeep (fun k => !bit (resetLetters k) letter) r

/-- The security block over a main-die reset: OTP, the NAND ring and the chain stay; a new challenge is drawn (R478). -/
def secReset (x : SecSt) : SecSt :=
  { SecSt.reset with
    life := x.life, slots := x.slots, imgKey := x.imgKey, minVer := x.minVer, nand := x.nand, draws := x.draws + 1, chal := x.draws }

/-- The clocks after a main-die reset (R451, R464): FRC starts anew, XA and XB run on over H and S. -/
def clkReset (x : ClkSt) (letter : Nat) : ClkSt :=
  let keep := if letter = 0 then 0 else if letter = 5 then x.proven &&& 2 else x.proven &&& 14
  { ClkSt.reset with
    proven := keep, run := if letter = 5 then 2 else 3 ||| (if letter = 0 then 0 else x.run &&& 12),
    rails := x.rails && (letter = 1 || letter = 2), wake := if letter = 0 then 0 else x.wake }

/-- A main-die reset (R464, R472) with its letter: 0 P, 1 H, 2 S, 5 Z. -/
def mainReset (s : State) (letter : Nat) : State :=
  let next := match s.log.ring.head? with
    | some e => (e.1 + 1) % 2 ^ 32
    | none => 0
  let s : State := { State.reset with
    pending := s.pending, free := s.free, sent := s.sent, regs := resetRegs letter s.regs,
    log := { LogSt.reset with ring := s.log.ring, next := next },
    tim := { TimSt.reset with coarse := if letter = 0 then none else s.tim.coarse },
    img := { ImgSt.reset with slotA := s.img.slotA, slotB := s.img.slotB },
    saf := if letter = 0 then SafSt.reset else (safDiscard s).saf,
    jnl := { JnlSt.reset with nand := s.jnl.nand },
    red := { RedSt.reset with nandCk := s.red.nandCk, skips := s.red.skips, gasp := letter ≠ 0 && s.red.gasp, down := if letter = 0 then 0 else s.red.down, wakeI := if letter = 5 then s.red.wakeI else 0 },
    gns := { GnsSt.reset with nand := s.gns.nand },
    err := { ErrSt.reset with jtag := s.err.jtag && letter = 5 },
    rcd := { RecSt.reset with geom := s.rcd.geom, blockKib := s.rcd.blockKib, jnlBlocks := s.rcd.jnlBlocks },
    sec_ := secReset s.sec_, clk := clkReset s.clk letter }
  let s := clkMarks ((List.range 5).foldl (fun s x => if bit s.clk.proven (pllRef s x) then pllStart s x else s) s)
  if s.err.jtag then s.wr ERR_STATUS_FAIL_SILENT 1 else s

/-- R464: both VAON inputs have fallen below V_AONL, and are back. -/
def execPor (s : State) : Host.Outcome State Fault Refusal :=
  let s := mainReset s 0
  done (s.wrs [(RST_CAUSE_CAUSE, 1), (RED_FEED_VAON_A_OK, 1), (RED_FEED_VAON_B_OK, 1), (RED_FEED_FEEDSEL_A, 0), (RED_FEED_FEEDSEL_B, 0)])

/-- A PIN reset. -/
def pinReset (s : State) : State := ((mainReset s 1).incSat RST_CNT_PIN_CNT 255).wr RST_CAUSE_CAUSE 2

/-- R464: RST_N has been low for t_RSTN; ignored in SLEEP and from the first step of its entry (R469). -/
def execPinReset (s : State) : Host.Outcome State Fault Refusal := done (if asleep s then s else pinReset s)

/-- A write of RST_CTRL (R464, R469). -/
def sysWrite (s : State) (v : Nat) : State :=
  if !bit v 0 || asleep s then s
  else if v / 65536 % 65536 ≠ 0x5359 then refuse s 0x0F0E
  else ((mainReset s 2).incSat RST_CNT_SYS_CNT 255).wr RST_CAUSE_CAUSE 4

/-- R464. -/
def execSysReset (p : Path) (key t : Nat) (s : State) : Host.Outcome State Fault Refusal :=
  let v := key % 65536 * 65536 + 1
  done (hostDo (s.at t) p 0x20004 v fun s => sysWrite s v)

/-! ### WDT and CAS resets (R41, R383, R441, R464) -/

/-- Write fields back to what they were. -/
def putBack (s0 s : State) (l : List Fld) : State := s.wrs (l.map fun f => (f, s0.rd f))

/-- Fields that show links, which a WDT or CAS reset keeps (R472). -/
def linkFields : List Fld :=
  (List.range 4).flatMap (fun p => [NET_STATUS_LINK p, NET_STATUS_SPEED p])
    ++ (List.range 2).flatMap (fun p =>
      [PST_PORT_STS_STATE p, PST_PORT_STS_LANE0_OK p, PST_PORT_STS_LANE1_OK p, PST_PORT_STS_PEER_ADDR p, PST_PORT_VER_PEER_MAJOR p,
       PST_PORT_VER_PEER_MINOR p, PST_PORT_VER_MAJOR p, PST_PORT_VER_MINOR p, PST_PORT_DELAY_DELAY_NS p])
    ++ [PST_STATUS_MASTER_OK]

/-- Members whose link is up pair again (R393). -/
def pairAgain (s : State) : State :=
  (List.range 2).foldl (fun s p =>
    match (s.pport p).peer with
    | some d =>
      if isPair s && s.rd (PST_PORT_STS_PEER_ADDR p) = partnerAddr s && 3 ≤ s.rd (PST_PORT_STS_STATE p) then pairCheck s d false else s
    | none => s) s

/-- The cycle pipeline is reset (R464, R472, R515), and asks for the restart of R383. The letter is 3 (W) or 4 (C). -/
def pipeReset (s : State) (letter : Nat) : State :=
  let s := s.seq.cycs.foldl (fun s c => if c.committed || c.missed then s else fldForget (releaseEntries s c) c.n) s
  let s0 := (List.range 4).foldl netFlush s
  let s : State := { s0 with
    regs := resetRegs letter s0.regs, shadow := [], can := [],
    seq := { s0.seq with cycs := [], reinit := false, walk := 0, missRun := 0, missNext := 0, late := [] },
    img := { s0.img with job := none, chk := none, taken := 0, restart := 0, heldGroups := 0, votedGroups := 0 },
    flt := { s0.flt with smp := [] },
    alloc := { s0.alloc with warm := false, boxes := [], shares := [], tables := [] },
    net := { s0.net with mdio := s0.net.mdio.filter fun (o : MdioOp) => !o.host },
    err := { s0.err with inj := none, rewrote := none },
    red := { s0.red with
      parts := [], digs := [], missed := [], promote := false, standDown := false, stop := false, leadNext := false, resync := none, gaveUp := false },
    pst := { s0.pst with
      master := none, held := none, got := false, lostRun := false, handback := false, tunAt := none, imgd := [], imgdDig := [], joining := false, joins := [],
      joinAt := none, imports := [] },
    gns := { s0.gns with
      jobs := [], epoch := none, fifo := [], station := none, building := none, base := none, aged := false,
      occBad := [], spiBad := [], out := [], good := [] },
    rcd := { s0.rcd with slack9 := none },
    clk := { s0.clk with doms := s0.clk.doms.map fun (x : DomSt) => { x with pend := 0 } } }
  let s := clearTags (s.wr IMG_STATUS_STATE (if s.img.secs.isEmpty then 0 else 2))
  let s := gclkMark (loseAll (putBack s0 s linkFields))
  let s := if s.rd RST_PWR_STS_STATE = 2 then [3, 5].foldl (fun s e => ungate (updDom s e fun y => { y with doze := false }) e) s else s
  let s := pairAgain (s.wr RST_PWR_STS_STATE (if s.rd RST_PWR_STS_STATE = 3 || s.rd RST_PWR_STS_STATE = 4 then s.rd RST_PWR_STS_STATE else 1))
  if letter = 3 then (s.incSat RST_CNT_WDT_CNT 255).wr RST_CAUSE_CAUSE 8
  else
    let s := (s.incSat RST_CNT_CAS_CNT 255).wrs [(RST_CAUSE_CAUSE, 16), (PST_STATUS_OUT_OF_STEP, 0)]
    if s.err.jtag then s.wr ERR_STATUS_FAIL_SILENT 1 else s

/-- The pipeline restarts from its image, if it has one (R383). -/
def restartDue (s : State) : State := s.sq fun q => { q with resumeDue := s.loaded && !s.flag ERR_STATUS_FAIL_SILENT }

/-- R41: neither decision has been made for cycle `n` by T0(n) + 2·P. -/
def execSeqWatchdog (n t : Nat) (s : State) : Host.Outcome State Fault Refusal :=
  let s := s.at t
  done (match s.cyc? n with
    | some c =>
      if c.committed || c.missed || s.flag ERR_STATUS_FAIL_SILENT || s.tim.cnt < dueAt s c (2 * s.rd SEQ_PERIOD_VALUE) then s
      else restartDue (pipeReset (report s 0x020A) 3)
    | none => s)

/-- R441: RELOAD from the master: a CAS reset. -/
def execReload (h : PstHdr) (t : Nat) (s : State) : Host.Outcome State Fault Refusal :=
  done (pstTake (s.at t) h 4 fun s => if isMasterAddr s h.src && !asleep s then restartDue (pipeReset s 4) else s)

/-- PST_CTRL.RELOAD (R441): RELOAD goes to every device of PST_DEVSET; refused off the master. -/
def pstReload (s : State) : State :=
  if isMaster s then (addrsOf s PST_DEVSET_SET).foldl (fun s a => modeSend s 11 a []) s else refuse s 0x0E0F

/-- R441. -/
def execPstReload (p : Path) (t : Nat) (s : State) : Host.Outcome State Fault Refusal :=
  done (hostDo (s.at t) p 0x280004 1 pstReload)

/-! ### The start of the main die (R450, R465, R518, R551) -/

/-- The clock fields of the OTP as each reset finds them (R450). -/
def otpChecks (s : State) : State :=
  let f := s.rd CLK_OTP_XA_FREQ_KHZ
  let s := if f = 0 then report s 0x0F0F else if xaFitted s then s else report s 0x0F10 0
  let s := if 128 < s.rd CLK_OTP_XA_START_DLY then report s 0x0F10 1 else s
  if 128 < s.rd CLK_OTP_XB_START_DLY then report s 0x0F10 2 else s

/-- The log starts anew (R518): REC LOG_START with RST_CAUSE comes before anything else. -/
def logStart (s : State) : State :=
  let early := s.log.held.reverse.map (·.2)
  let l := s.log
  let s : State := { s with log := { l with held := [], next := (l.next + 2 ^ 32 - early.length) % 2 ^ 32, fill := 0, unacked := 0, unmirrored := 0 } }
  early.foldl logEntry (report s 0x1103 0 (s.rd RST_CAUSE_CAUSE))

/-- The main die leaves reset (R465, R551): `straps` holds BOOT[2:0] and MASTER_EN, `solv` says that VDD_SOLV stands. A source that step 5
still lacks is reported, and its domains start without it. -/
def dieRelease (s : State) (straps : Nat) (solv : Bool) : State :=
  let s := otpChecks (logStart s)
  let s := s.wrs [(GLB_STRAP_BOOT, straps % 8), (GLB_STRAP_MASTER_EN, straps / 8 % 2), (RST_PWR_STS_STATE, 1)]
  let s := s.ck fun x => { x with released := true }
  let s := if straps % 8 = 4 then [0, 1].foldl (fun s p => updPst (s.wr (PST_PORT_STS_STATE p) 1) p fun x => { x with stepAt := s.tim.cnt }) s else s
  let lacks := (if xaFitted s && !sourceOk s 2 then [2] else []) ++ ([3, 5, 8, 10, 7].filter fun k => !sourceOk s k)
  let s := lacks.foldl (fun s k => report s 0x0F05 k) s
  (List.range 12).foldl (fun s d =>
    let off : Bool := ((d = 4 || d = 5) && !s.hasGnss) || (d = 3 && s.isNode && !solv)
    if d = 0 then s
    else if off then pllStop (setDom s d 5 true) (if d = 3 then 3 else 0)
    else if (d = 3 || d = 5 || d = 1) && !sourceOk s (primaryOf d) then setDom s d 4 true
    else startDom s d) s

/-- R550: 10 ms after release the PHY resets are released. -/
def execPhyResetRelease (t : Nat) (s : State) : Host.Outcome State Fault Refusal :=
  let s := s.at t
  done (if s.clk.released && usTicks 10000 ≤ s.tim.cnt then s.ck fun x => { x with phyRst := true } else s)

/-- R465, R555: the main rails are good: XA and XB start. -/
def execRailsGood (t : Nat) (s : State) : Host.Outcome State Fault Refusal :=
  let s := s.at t
  done (if s.clk.off.isSome then s
    else
      let start (l : List Nat) (k : Nat) : List Nat := if bit s.clk.proven k then l else l.set k s.tim.cnt
      s.ck fun x => { x with rails := true, run := x.run ||| 8 ||| (if xaFitted s then 4 else 0), since := start (start x.since 2) 3 })

/-! ### Power states (R467 to R470) -/

/-- R467: the last cycle in flight has left flight after HALT. -/
def execHaltComplete (t : Nat) (s : State) : Host.Outcome State Fault Refusal :=
  let s := s.at t
  done (
    if s.rd SEQ_STATUS_STATE = 3 && s.seq.cycs.isEmpty then
      (putPend s 0).wrs [(SEQ_STATUS_STATE, 0), (RST_PWR_STS_STATE, 1), (SEQ_STATUS_PHASE_WALK, 0), (RED_STATUS_SENDING, 0)]
    else s)

/-- A power-state request is refused (R468, R469). -/
def pwrRefuse (s : State) : State := refuse (s.wr RST_PWR_STS_REFUSED 1) 0x0F0D

/-- DOZE (R468). -/
def pwrDoze (s : State) : State :=
  if asleep s then s
  else if s.rd RST_PWR_STS_STATE ≠ 1 then pwrRefuse s
  else dozeEnter (gateReq (gateReq (s.wr RST_PWR_STS_STATE 2) 3 2) 5 2)

/-- WAKE in DOZE (R468): PLL-V and PLL-A start, and their domains are ungated as they lock, or at once where a reference is lacking. -/
def pwrWake (s : State) : State :=
  if s.rd RST_PWR_STS_STATE ≠ 3 then s
  else
    let s := s.wr RST_PWR_STS_STATE 4
    let up (s : State) (d x : Nat) : State :=
      let s := pllStart (updDom s d fun y => { y with doze := false }) x
      if sourceOk s (pllRef s x) then s else ungate s d
    dozeExit (up (up s 3 3) 5 0)

/-- START (R19, R468): in DOZE it acts as WAKE, and counts as made at the return to HOLD. -/
def startWrite (s : State) : State :=
  let st := s.rd RST_PWR_STS_STATE
  if st = 3 then pwrWake (s.ck fun x => { x with startDue := true })
  else if st = 4 then s.ck fun x => { x with startDue := true }
  else if st = 2 || st = 5 then refuse s 0x020B
  else seqStart s

/-- SLEEP entry begins (R318, R405, R469): coarse time is handed off, the wake timer of a Reserve set, the safety outputs go off, FRC stops. The measured length of an SRC tick
is a free value within the tolerance of R449. -/
def sleepEnter (s : State) : State :=
  let (x, s) := s.draw
  let coarse : Option CoarseSt := if s.rd TIM_QUAL_STATE = 0 then none else some ⟨s.now, 1818181818 + x % 404040405⟩
  let timer : Nat := if cascRole s = 5 then s.rd RED_MIRROR_CFG_MIRROR_I * s.rd SEQ_PERIOD_VALUE * 1000 else 0
  let s := s.rs fun r => { r with wakeI := timer }
  let s := safDiscard (fmeasAbort ((s.tb fun t => { t with coarse := coarse }).wr RST_PWR_STS_STATE 5))
  clkMarks (s.ck fun x => { x with run := setBit x.run 0 false, proven := setBit x.proven 0 false, wake := 0, startDue := false })

/-- SLEEP (R469). -/
def pwrSleep (s : State) : State :=
  if asleep s then s
  else if !(s.rd RST_PWR_STS_STATE = 1 || s.rd RST_PWR_STS_STATE = 3) || domState s 0 = 2 then pwrRefuse s
  else sleepEnter s

/-- A write of RST_PWR_CTRL. -/
def pwrWrite (s : State) (v : Nat) : State :=
  let s := if bit v 0 then pwrDoze s else s
  let s := if bit v 1 then pwrWake s else s
  if bit v 2 then pwrSleep s else s

/-- R468. -/
def execPwrDoze (p : Path) (t : Nat) (s : State) : Host.Outcome State Fault Refusal := done (hostDo (s.at t) p 0x20008 1 pwrDoze)
/-- R469. -/
def execPwrSleep (p : Path) (t : Nat) (s : State) : Host.Outcome State Fault Refusal := done (hostDo (s.at t) p 0x20008 4 pwrSleep)

/-- SLEEP entry ends (R469): FEEDSEL falls, the PCIe link goes down, and everything marked Z is lost; final journal records not copied
leave a gap. `src` is the count of SRC since the hand-off of coarse time, `copied` that the incident log has been copied too (R518). -/
def sleepDone (s : State) (src : Nat) (copied : Bool) : State :=
  let left : Bool := s.jnl.ring.any fun e => e.2.final && !e.2.copied
  let s := if left then report (s.incSat JNL_CNT_MIRROR_GAP 255) 0x0C05 else s
  let s := pcieDown s
  let s := if copied then (List.range s.log.unmirrored).foldl (fun s _ => incidentCopy s) s else s
  let s := (mainReset s 5).wrs [(RED_FEED_FEEDSEL_A, 0), (RED_FEED_FEEDSEL_B, 0)]
  s.ck fun x => { x with off := some src }

/-- R469. -/
def execSleepEntryComplete (src t : Nat) (s : State) : Host.Outcome State Fault Refusal :=
  let s := s.at t
  done (if s.rd RST_PWR_STS_STATE = 5 then sleepDone s src true else s)

/-- R555, R556: a monitored rail is below V_UV: a PIN reset, or during SLEEP entry its last step; the monitors are off in SLEEP. -/
def execRailUndervoltage (src t : Nat) (s : State) : Host.Outcome State Fault Refusal :=
  let s := s.at t
  done (
    if s.clk.off.isSome then s
    else if s.rd RST_PWR_STS_STATE = 5 then sleepDone s src false
    else if s.clk.released then pinReset (s.ck fun x => { x with rails := false, run := 3, proven := x.proven &&& 2 })
    else s.ck fun x => { x with rails := false })

/-- R318, R470: a wake cause ends SLEEP once t_OFF has run. `src` is the count of SRC since the hand-off of coarse time. -/
def execSleepExit (src : Nat) (s : State) : Host.Outcome State Fault Refusal :=
  done (match s.clk.off with
    | none => s
    | some o =>
      if s.clk.wake = 0 || src < o + 328 then s
      else
        let s := s.ck fun x => { x with off := none, run := setBit x.run 0 true }
        let s := s.rs fun r => { r with wakeN := bit s.clk.wake 0 }
        let s := (s.ck fun x => { x with wake := 0 }).incSat RST_CNT2_SLEEP_CNT 0xFFFF
        let s := s.wrs [(RST_CAUSE_CAUSE, 32), (RED_FEED_FEEDSEL_A, 1 - s.rd RED_FEED_A_LOST), (RED_FEED_FEEDSEL_B, 1 - s.rd RED_FEED_B_LOST)]
        match s.tim.coarse with
        | none => s
        | some c =>
          let spent := src * c.ratio
          let s := s.tb fun t => { t with coarse := none, cnt := 0, cntA := 0, tA := c.time + (spent : Nat), rate := 0 }
          enterHoldover s (61000 + spent / 65536 / 10000))

end Sys2Proof.Machine
end

