-- ==== Sys2Proof/Machine/Reserve.lean ====
section
/-! DEFINITION. The Reserve (R405 to R408), and the training and greeting of Piste ports, which may bring it its partner (R416, R418). -/

namespace Sys2Proof.Machine

open Sys2Proof

/-! ### Activation (R407) -/

/-- Sending members that trained ports show, lowest address first. -/
def sendersSeen (s : State) : List Nat :=
  ((List.range 2).filterMap fun p => match (s.pport p).peer with
    | some d => if d.sends && 2 ≤ s.rd (PST_PORT_STS_STATE p) then some (s.rd (PST_PORT_STS_PEER_ADDR p)) else none
    | none => none).eraseDups.mergeSort

/-- The management-only port toward the member that the Reserve pairs with carries every frame. -/
def openPort (s : State) (a : Nat) : State :=
  (List.range 2).foldl (fun s p =>
    if s.rd (PST_PORT_STS_PEER_ADDR p) = a && s.rd (PST_PORT_STS_STATE p) = 2 && 2 ≤ s.rd (PST_PORT_VER_MAJOR p) then
      s.wr (PST_PORT_STS_STATE p) (if s.flag (PST_PORT_STS_LANE0_OK p) && s.flag (PST_PORT_STS_LANE1_OK p) then 3 else 4)
    else s) s

/-- An activated Reserve pairs with the sending member, takes STANDBY and resynchronises; where two members send it takes no part (R407). -/
def reserveSeek (s : State) : State :=
  if !s.red.activated || s.flag RED_STATUS_PAIRED || s.red.gaveUp then s
  else match sendersSeen s with
    | [] => s
    | [a] =>
      let s := openPort (s.wr RED_STATUS_PARTNER_ADDR a) a
      let peer := (List.range 2).findSome? fun p => if s.rd (PST_PORT_STS_PEER_ADDR p) = a && 3 ≤ s.rd (PST_PORT_STS_STATE p) then (s.pport p).peer else none
      match peer with
      | some d =>
        let s := pairCheck s d true
        if s.flag RED_STATUS_PAIRED && s.idle then startChain (startRole ((enterArming s).rs fun x => { x with pState := 2 })) none else s
      | none => s
    | _ => report (s.rs fun r => { r with gaveUp := true }) 0x0D12

/-- An activated Reserve asks the reachable members that do not send for the records of their NAND journals (R408; notes/assumptions/72). -/
def askMembers (s : State) : State :=
  (List.range 2).foldl (fun s p => match (s.pport p).peer with
    | some d => if s.red.activated && !d.sends && 2 ≤ s.rd (PST_PORT_STS_STATE p) then askCkpt s (s.rd (PST_PORT_STS_PEER_ADDR p)) else s
    | none => s) s

/-- The Reserve is activated (R407). -/
def activate (s : State) : State :=
  if cascRole s ≠ 5 || s.red.activated then s
  else
    let s := (s.rs fun r => { r with activated := true, mirror := false, wakeN := false, gaveUp := false }).wr RED_STATUS_ROLE 3
    reserveSeek (askMembers (report s 0x0D11))

/-- A Reserve whose image has been built (R405, R407): woken by WAKE_N it is activated, else it runs a mirror session. -/
def reserveBuilt (s : State) : State :=
  if cascRole s ≠ 5 then s
  else
    let s := s.wr RED_STATUS_ROLE 4
    if s.red.wakeN then activate s
    else
      let skips := s.red.skips
      let s := s.rs fun r => { r with mirror := true, few := false, resync := none, skips := 0 }
      if skips = 0 then s else report s 0x0D10

/-- R407: WAKE_N has been low for 1 ms. -/
def execWakeN (t : Nat) (s : State) : Host.Outcome State Fault Refusal :=
  let s := s.at t
  done (
    if asleep s then s.ck fun x => { x with wake := x.wake ||| 1 }
    else if s.red.mirror || !s.loaded then s.rs fun r => { r with wakeN := true }
    else activate s)

/-- R405: the Reserve's wake timer expires; with MIRROR_I = 0 there is none. -/
def execReserveWakeTimer (t : Nat) (s : State) : Host.Outcome State Fault Refusal :=
  let s := s.at t
  done (
    if asleep s then (if s.red.wakeI = 0 then s else s.ck fun x => { x with wake := x.wake ||| 2 })
    else if s.red.mirror && s.rd RED_MIRROR_CFG_MIRROR_I ≠ 0 then (s.incSat RED_MIRROR_CNT_SKIPPED 0xFFFF).rs fun r => { r with skips := r.skips + 1 }
    else s)

/-- The Reserve goes to SLEEP, which it can from HOLD and DOZE (R405, R469). -/
def reserveSleep (s : State) : State :=
  if s.rd RST_PWR_STS_STATE = 1 || s.rd RST_PWR_STS_STATE = 3 then sleepEnter (s.rs fun r => { r with activated := false }) else s

/-- The mirrored checkpoint goes into the older of the two NAND slots. -/
def nandCkPut (s : State) (k : Ckpt) : State :=
  let age (i : Nat) : Nat := match s.red.nandCk.getD i none with
    | some x => x.n + 1
    | none => 0
  let i := if age 0 ≤ age 1 then 0 else 1
  (s.rs fun r => { r with nandCk := r.nandCk.set i (some k) }).wr RED_CKPT_NAND_CYC k.n

/-- R405, R407, R413: a mirror session ends, with its checkpoint programmed and read back or not (`ok`); both feeds in warning leave the slot as
it was. -/
def execMirrorDone (ok : Bool) (t : Nat) (s : State) : Host.Outcome State Fault Refusal :=
  let s := s.at t
  done (
    if !s.red.mirror then s
    else
      let s := match s.red.resync.bind (·.ckpt) with
        | some k => if ok && !s.red.gasp then report ((nandCkPut s k).incWrap RED_MIRROR_CNT_SESSIONS) 0x0D0F else s
        | none => s
      let go := s.red.few || s.red.wakeN
      let s := s.rs fun r => { r with mirror := false, resync := none }
      if go then activate s else reserveSleep s)

/-- RED_CTRL.SLEEP (R407). -/
def redSleep (s : State) : State :=
  if !(cascRole s = 5 && s.red.activated && !s.flag RED_STATUS_PAIRED) then refuse s 0x0D0E
  else if s.rd RST_PWR_STS_STATE = 1 || s.rd RST_PWR_STS_STATE = 3 then reserveSleep s
  else pwrRefuse s

/-- R407. -/
def execRedSleep (p : Path) (t : Nat) (s : State) : Host.Outcome State Fault Refusal := done (hostDo (s.at t) p 0x270004 16 redSleep)

/-- The Reserve rebuilds alone (R408): its newer NAND checkpoint and the records that reachable members serve from their NAND journals, in
order, up to the first FAIL_SILENT marker. Where no record gives the chain, the number of cycles gone by is a free value. -/
def rebuildAlone (s : State) (recs : List JnlRec) : State :=
  match ((s.red.nandCk.filterMap id).mergeSort fun a b => b.n ≤ a.n).head? with
  | none => s
  | some k =>
    let served := recs.takeWhile fun (r : JnlRec) => r.status ≠ 4
    let good : List JnlRec := (List.range served.length).foldl (fun (a : List JnlRec) _ =>
      match served.find? fun (r : JnlRec) => r.n = k.n + a.length && r.tag = imageTag s && (r.status = 2 || r.status = 3) with
      | some r => a ++ [r]
      | none => a) []
    let s := rebuild (s.wr SEQ_STATUS_STATE 1) k good
    match good.getLast?.bind fun r => r.inp.map fun i => (r.n, i) with
    | some (n, i) => chainFrom_ (s.sq fun q => { q with gens := i.gens }) n i.t0c
    | none =>
      let (x, s) := s.draw
      s.sq fun q => { q with nextN := k.n + 1 + x, nextT0 := firstT0 s }

/-- R408: an activated Reserve has found no sending member within 5 s of its Piste training. -/
def execNoPartnerTimeout (recs : List JnlRec) (t : Nat) (s : State) : Host.Outcome State Fault Refusal :=
  let s := s.at t
  done (match s.red.since with
    | none => s
    | some x =>
      if !s.red.activated || s.flag RED_STATUS_PAIRED || s.red.gaveUp || s.flag RED_STATUS_NO_PARTNER || s.tim.cnt < x + usTicks 5000000 then s
      else
        let s := rebuildAlone (enterArming s) recs
        report (s.wrs [(RED_STATUS_NO_PARTNER, 1), (RED_STATUS_ROLE, 3), (RED_STATUS_SYNC, 0), (SEQ_STATUS_RESUMED, 1)]) 0x0D13)

/-! ### Training and HELLO (R416, R418) -/

/-- R416: a port has completed its training steps on lane 0, lane 1 or both. -/
def execPisteTrained (p : Nat) (l0 l1 : Bool) (t : Nat) (s : State) : Host.Outcome State Fault Refusal :=
  let s := s.at t
  done (
    match (s.pport p).peer with
    | none => s
    | some d =>
      if 1 < p || s.rd (PST_PORT_STS_STATE p) ≠ 1 || !(l0 || l1) || !onPrimary s 8 then s
      else
        let v := settleVer (ifaceOffers s 1 0) d.offers
        let mgmt : Bool := v.isNone || (v.map (·.1)) = some 1 || (cascRole s = 5 && !s.red.activated)
        let s := s.wrs [(PST_PORT_STS_STATE p, if mgmt then 2 else if l0 && l1 then 3 else 4), (PST_PORT_STS_LANE0_OK p, b2n l0),
          (PST_PORT_STS_LANE1_OK p, b2n l1), (PST_PORT_VER_MAJOR p, (v.map (·.1)).getD 0), (PST_PORT_VER_MINOR p, (v.map (·.2)).getD 0)]
        let s := s.rs fun r => { r with since := some (r.since.getD s.tim.cnt) }
        let s := updPst s p fun x => { x with failRun := false, helloAt := s.tim.cnt, stepAt := s.tim.cnt }
        let s := report s 0x0E01 p
        let s := if l0 && l1 then s else report s 0x0E03 p
        let s := if v.isNone then report s 0x0E05 p else if (v.map (·.1)) = some 1 then report s 0x0E06 p else s
        let src := s.rd (PST_PORT_STS_PEER_ADDR p)
        -- a mirror session asks the sending member of lowest address (R405), an activated Reserve one that does not send (R408)
        let s := if cascRole s = 5 && s.red.mirror && !s.red.activated then (if (sendersSeen s).head? = some src then askCkpt s src else s)
          else if s.red.activated && !d.sends then askCkpt s src else s
        let s := if isPair s && src = partnerAddr s && !mgmt then pairCheck s d true else s
        reserveSeek s)

/-- R418: a HELLO is received on a port that trains or is up. -/
def execHello (h : PstHdr) (d : HelloData) (t : Nat) (s : State) : Host.Outcome State Fault Refusal :=
  let s := s.at t
  let p := h.port
  done (
    if (cascRole s = 0 && !bootTarget s) || 1 < p || s.rd (PST_PORT_STS_STATE p) = 0 then s
    else
      let before := (s.pport p).peer
      let top := settleVer d.offers d.offers
      let s := s.wrs [(PST_PORT_STS_PEER_ADDR p, h.src), (PST_PORT_VER_PEER_MAJOR p, (top.map (·.1)).getD 0),
        (PST_PORT_VER_PEER_MINOR p, (top.map (·.2)).getD 0)]
      let s := helloChecks (updPst s p fun x => { x with peer := some d, helloAt := s.tim.cnt }) p h.src d
      -- a device that names the change as applied leaves the master's set (R439)
      let s := if isMaster s && d.applied = some (s.rd PST_MC_STS_ID) && bit (s.rd (PST_OOS_OOS (h.src / 32))) (h.src % 32) then
          oosCount (s.wrBit (PST_OOS_OOS (h.src / 32)) (h.src % 32) false) else s
      let s := reserveSeek s
      let up : Bool := 3 ≤ s.rd (PST_PORT_STS_STATE p)
      if isPair s && h.src = partnerAddr s then
        -- a LEAD that stops sending leaves a sending SECOND as LEAD (R391)
        let s := if s.rd RED_STATUS_ROLE = 2 && s.red.pSends && !d.sends then s.rs fun r => { r with leadNext := true } else s
        if up then pairCheck s d ((before.map (·.tag)) ≠ some d.tag) else s.rs fun r => { r with pState := d.state, pSends := d.sends }
      else s)

end Sys2Proof.Machine
end

