-- ==== Sys2Proof/Machine/ImgRef.lean ====
section
/-! DEFINITION. The loader's checks (R55 to R59): how a failed check is named, and the sections TIMING, SCHEDULE, INTAKE, FILTER,
VOTING and OCE. A section's function takes the candidate: the state with the image's plaintext sections in place of the loaded ones. -/

namespace Sys2Proof.Machine

open Sys2Proof

/-! ### Failed checks -/

/-- Failed checks: the offset and the IMG code of each. -/
abbrev Fails := List (Nat × Nat)

/-- Little-endian value of `k` octets at `o` (R48). -/
def leN (b : List Byte) (o k : Nat) : Nat := beN ((slice b o k).reverse) 0 k

/-- A check that must hold at an offset. -/
def must (ok : Bool) (o code : Nat) : Fails := if ok then [] else [(o, code)]

/-- The failure of a code, none for 0. -/
def failOf (o code : Nat) : Fails := must (code = 0) o code

/-- A field of `k` octets from `lo` to `hi` where zero is not allowed (R15). -/
def fieldZ (b : List Byte) (o k lo hi : Nat) : Fails := failOf o (chkZ lo hi (leN b o k))

/-- A field of `k` octets from `lo` to `hi`. -/
def fieldR (b : List Byte) (o k lo hi : Nat) : Fails := failOf o (chkR lo hi (leN b o k))

/-- `n` octets that must be 0, with the code that rejects another value. -/
def zeroIn (b : List Byte) (o n code : Nat) : Fails := must ((slice b o n).all fun x => x = 0) o code

/-- `n` reserved octets (R55). -/
def rsvd (b : List Byte) (o n : Nat) : Fails := zeroIn b o n 0x010F

/-- A field that must be 0 in the case at hand (R55). -/
def unusedIn (b : List Byte) (o n : Nat) : Fails := zeroIn b o n rangeBad

/-- Bits of a `k`-octet field that its description leaves unassigned (R55): the bits of `mask` are assigned. -/
def bitsIn (b : List Byte) (o k mask : Nat) : Fails := let v := leN b o k; must (v &&& mask = v) o 0x010F

/-- IMG RANGE unless a condition holds. -/
def rangeIn (ok : Bool) (o : Nat) : Fails := must ok o rangeBad

/-- Offsets moved by a base. -/
def shiftBy (base : Nat) (f : Fails) : Fails := f.map fun e => (base + e.1, e.2)

/-- The checks of `n` entries, each with offsets of its own. -/
def eachOf (n : Nat) (f : Nat → Fails) : Fails := (List.range n).flatMap f

/-- A finite binary32 word. -/
def finIn (b : List Byte) (o : Nat) : Fails := rangeIn (ffinite fmt32 (u32 b o)) o

/-- A binary32 word from `lo` to `hi`, bounds given as binary32; a zero that the range excludes is ZERO_FIELD (R55). -/
def realR (b : List Byte) (o lo hi : Nat) : Fails :=
  let v := u32 b o
  if fzero fmt32 v && lt32 0 lo then [(o, zeroField)] else rangeIn (ffinite fmt32 v && le32 lo v && le32 v hi) o

/-- A binary32 word from `lo` to `hi` where zero is not allowed. -/
def realZ (b : List Byte) (o lo hi : Nat) : Fails := if fzero fmt32 (u32 b o) then [(o, zeroField)] else realR b o lo hi

/-- A finite binary32 word above 0. -/
def realPos (b : List Byte) (o : Nat) : Fails := failOf o (chkPos (u32 b o))

/-- A binary32 rational. -/
def ratio32 (p : Int) (q : Nat) : Nat := fofRat fmt32 p q

/-! ### Section fields as register words -/

/-- A word of a section that a register shows: section type and instance, offset in the section, register, word. -/
structure Place where
  typ : Nat
  inst : Nat
  ofs : Nat
  reg : Nat
  val : Nat
deriving DecidableEq, Repr

/-- The fields of a register that the image populates: RWI and RWL (R14), and WIDTH of TIM_TCAPb_CFG (R67). -/
def imgFields (off : Nat) : List FieldRow :=
  match findReg regTable off with
  | none => []
  | some (r, _) => r.fields.filter fun f => f.acc = .rwi || f.acc = .rwl || (f.acc = .rw && r.off = 0x200200)

/-- The bits of those fields. -/
def imgMask (off : Nat) : Nat := (imgFields off).foldl (fun m f => m + (2 ^ f.w - 1) * 2 ^ f.lo) 0

/-- Put an image word into the fields that the image populates. -/
def placeWord (c : RegFile) (off w : Nat) : RegFile :=
  (imgFields off).foldl (fun c f => RegFile.set c ⟨off * 8 + f.lo, f.w⟩ (w / 2 ^ f.lo % 2 ^ f.w)) c

/-! ### TIMING and SCHEDULE (R17, R18, R24, R57, R60, R61) -/

/-- TIMING. -/
def valTiming (k : State) : Fails :=
  let b := k.sec 1
  let p := u32 b 0
  let c := u32 b 4
  let permit := u8 b 0x0D
  fieldZ b 0 4 1000 1000000
    ++ failOf 4 (if c = 0 then zeroField else chkB (p ≤ 5 * c && 5 * c ≤ 9 * p))
    ++ rangeIn (u32 b 8 < p) 8 ++ fieldZ b 0x0C 1 1 255
    ++ bitsIn b 0x0D 1 0x3F ++ rangeIn (permit % 2 = 1 && (!k.isNode || permit = 1)) 0x0D ++ rsvd b 0x10 16

/-- SCHEDULE. -/
def valSchedule (k : State) : Fails :=
  let b := k.sec 2
  let p := u32 (k.sec 1) 0
  let c := u32 (k.sec 1) 4
  let at_ (i j : Nat) : Nat := u32 b (12 * i + 4 * j)
  let comm (i j : Nat) (ok : Bool) : Fails := must ok (12 * i + 4 * j) 0x0116
  eachOf 9 fun i =>
    let s := at_ i 0
    let g := at_ i 1
    let d := at_ i 2
    (if i = 0 then comm 0 0 (s = 0) ++ comm 0 1 (g = 0) ++ comm 0 2 (d = 0)
     else if i = 7 then comm 7 0 (s = c) ++ comm 7 1 (g = 0) ++ comm 7 2 (d = c)
     else must (g ≠ 0) (12 * i + 4) zeroField)
    ++ must (s + g ≤ d && d ≤ s + p) (12 * i + 8) 0x0114
    ++ (if i = 0 then [] else
        must (at_ (i - 1) 0 ≤ s) (12 * i) 0x0115 ++ if i = 7 then [] else must (at_ (i - 1) 2 < d) (12 * i + 8) 0x0115)
    ++ (if i = 6 then comm 6 2 (d < c) else if i = 8 then comm 8 0 (s = c) ++ comm 8 2 (d ≤ 2 * p && d ≤ c + p) else [])

/-! ### INTAKE (R62, R94 to R99) -/

/-- The FIELD section's position channel `e` is absolute. -/
def imgAbs (k : State) (e : Nat) : Bool := isAbs k.regs e

/-- One component entry at offset `o` of a slot of some kind: `want` is the RAW its kind fixes. -/
def valComp (b : List Byte) (o kind : Nat) (want : List Nat) : Fails :=
  let raw := u8 b (o + 2)
  let one := u32 b (o + 4) = one32
  let nul := fzero fmt32 (u32 b (o + 8))
  (if 3 ≤ kind then unusedIn b o 2 else []) ++ fieldZ b (o + 2) 1 1 9 ++ rangeIn (want.contains raw) (o + 2) ++ rsvd b (o + 3) 1
    ++ finIn b (o + 4) ++ rangeIn ((raw < 8 && kind < 3) || one) (o + 4) ++ finIn b (o + 8) ++ rangeIn ((raw < 8 && kind < 3) || nul) (o + 8)

/-- The slot entry at offset `o`. -/
def valSlot (k : State) (b : List Byte) (o : Nat) : Fails :=
  let kind := u8 b (o + 1)
  let nc := u8 b (o + 2)
  let fl := u8 b (o + 3)
  let inst := u8 b (o + 4)
  let ref := u16 b (o + 6)
  let any := [1, 2, 3, 4, 5, 6, 7, 8, 9]
  let want (j : Nat) : List Nat :=
    match kind with
    | 3 => if inst < nChan k then [if imgAbs k inst then 9 else 5] else [5, 9]
    | 4 => [7, 9]
    | 5 => [7]
    | 6 => if j = 3 then [7] else [9]
    | _ => any
  fieldZ b (o + 1) 1 1 6 ++ fieldZ b (o + 2) 1 1 4
    ++ rangeIn (match kind with
        | 3 => nc = 1
        | 5 => nc = 4
        | 6 => nc = 4
        | _ => true) (o + 2)
    ++ bitsIn b (o + 3) 1 3 ++ rangeIn (kind = 2 || !bit fl 1) (o + 3)
    ++ rangeIn (match kind with
        | 1 => inst ≤ 7
        | 2 => inst ≤ 3
        | 3 => inst ≤ 31
        | _ => inst = 0) (o + 4)
    ++ rsvd b (o + 5) 1 ++ rangeIn (if kind = 2 ∨ kind = 4 then ref ≤ 255 else ref = 0) (o + 6)
    ++ (if kind = 1 then bitsIn b (o + 8) 4 (2 ^ 30 - 1) else if kind = 4 then bitsIn b (o + 8) 4 (2 ^ 14 - 1) else unusedIn b (o + 8) 4)
    ++ fieldR b (o + 0x0C) 4 0 (if 5 ≤ kind then 0 else 1000000000) ++ fieldZ b (o + 0x10) 4 1000 60000000
    ++ (if bit fl 0 then [] else unusedIn b (o + 0x14) 2) ++ bitsIn b (o + 0x16) 1 0x87
    ++ (if bit fl 0 then [] else unusedIn b (o + 0x16) 1) ++ rsvd b (o + 0x17) 1
    ++ (if bit fl 1 then [] else unusedIn b (o + 0x18) 2) ++ rsvd b (o + 0x1A) 6
    ++ eachOf 4 fun j => let q := o + 0x20 + 12 * j; if j < nc then valComp b q kind (want j) else unusedIn b q 12

/-- INTAKE. -/
def valIntake (k : State) : Fails :=
  let b := k.sec 3
  fieldZ b 0 2 1 256 ++ rsvd b 2 6 ++ eachOf (u16 b 0) fun i =>
    let o := 8 + 80 * i
    rangeIn (i = 0 || u8 b (o - 80) ≤ u8 b o) o ++ valSlot k b o

/-- A slot's frame field: source and octet (R94). -/
def slotFields (b : List Byte) (o : Nat) : List (Nat × Nat × Nat × Nat) :=
  let kind := u8 b (o + 1)
  if kind = 1 ∨ kind = 2 then
    (List.range (u8 b (o + 2))).map fun j => (kind, u8 b (o + 4), (if kind = 1 then u32 b (o + 8) else u16 b (o + 6)), u16 b (o + 0x20 + 12 * j))
  else []

/-- A filter pair of controller `c` accepts an identifier into INTAKE (R347). -/
def imgIntakes (k : State) (c ident : Nat) : Bool :=
  (List.range (k.regs.get (CAN_CFG_NFILT c))).any fun f =>
    k.regs.get (CAN_FLT_CFG_INTAKE c f) ≠ 0 && k.regs.get (CAN_FLT_MATCH_IDE c f) = ident / 2 ^ 29 % 2
      && (k.regs.get (CAN_FLT_MATCH_ID c f) &&& k.regs.get (CAN_FLT_MASK_MASK c f)) = (ident % 2 ^ 29 &&& k.regs.get (CAN_FLT_MASK_MASK c f))

/-- References and conflicts of INTAKE (R56, R94). -/
def crossIntake (k : State) : Fails :=
  let b := k.sec 3
  let peers := (peerList k).map (·.1)
  eachOf (u16 b 0) fun i =>
    let o := 8 + 80 * i
    let kind := u8 b (o + 1)
    let inst := u8 b (o + 4)
    let before := (List.range i).flatMap fun j => slotFields b (8 + 80 * j)
    must (i = 0 || u8 b (o - 80) ≠ u8 b o) o 0x0118
      ++ (match kind with
        | 1 => must (imgIntakes k inst (u32 b (o + 8))) (o + 8) 0x0117
        | 2 =>
          let n := k.sec 11 inst
          must (k.hasSec 11 inst && u16 b (o + 6) < netNdef n && u8 (netDef n (u16 b (o + 6))) 0 = 3) (o + 6) 0x0117
        | 3 => must (inst < nChan k) (o + 4) 0x0117
        | 4 => must (peers.contains (u32 b (o + 8))) (o + 8) 0x0117
        | 5 => must (k.hasSec 9 && u8 (k.sec 9) 0x65 = u8 b o) (o + 1) 0x0117
        | 6 => must (k.hasSec 9 && u8 (k.sec 9) 0x67 ≠ 0 && u8 (k.sec 9) 0x66 = u8 b o) (o + 1) 0x0117
        | _ => [])
      ++ ((List.range (slotFields b o).length).zip (slotFields b o)).flatMap fun e =>
        must (!before.contains e.2) (o + 0x20 + 12 * e.1) 0x0118

/-! ### FILTER (R63, R102, R109 to R111) -/

/-- Offsets of the channel entries and of the section's end. -/
def fltOffsets (b : List Byte) : List Nat × Nat :=
  (List.range (u8 b 0)).foldl (fun (a : List Nat × Nat) _ => (a.1 ++ [a.2], a.2 + 48 + 4 * ((u16 b (a.2 + 2) + 1) / 2))) ([], 4)

/-- The register words of FILTER. -/
def placeFilter (k : State) : List Place :=
  let b := k.sec 4
  let os := (fltOffsets b).1
  ((List.range os.length).zip os).flatMap fun (c, o) =>
    let word (ofs reg val : Nat) : Place := ⟨4, 0, ofs, reg, val⟩
    [word (o + 5) (0x61000 + 32 * c) (u8 b (o + 5) * 2 ^ 24 + u8 b o * 2 ^ 16 + u8 b (o + 1) % 4),
     word (o + 2) (0x61004 + 32 * c) (u16 b (o + 2) % 512 * 2 ^ 16 + u8 b (o + 4) % 128), word (o + 8) (0x61008 + 32 * c) (u32 b (o + 8) % 2 ^ 20)]
    ++ ((List.range 2).flatMap fun j => (List.range 3).map fun i => word (o + 0x10 + 16 * j + 4 * i) (0x62000 + 32 * c + 16 * j + 4 * i) (u32 b (o + 0x10 + 16 * j + 4 * i)))
    ++ (List.range ((u16 b (o + 2) + 1) / 2)).map fun i => word (o + 48 + 4 * i) (0x64000 + 768 * c + 4 * i) (u32 b (o + 48 + 4 * i))

/-- FILTER, beside its register words. -/
def valFilter (k : State) : Fails :=
  let b := k.sec 4
  fieldR b 0 1 0 48 ++ rsvd b 1 3 ++ (fltOffsets b).1.flatMap fun o =>
    let inp := chkInput k (u8 b o) (u8 b (o + 1))
    failOf (o + 1) (if inp = 0x0117 then 0 else inp) ++ fieldZ b (o + 2) 2 1 384 ++ fieldZ b (o + 4) 1 1 64 ++ failOf (o + 5) (chkEin (u8 b (o + 5)))
      ++ rsvd b (o + 6) 2 ++ failOf (o + 8) (chkTick (u32 (k.sec 1) 0) (u32 b (o + 8))) ++ rsvd b (o + 0x0C) 4 ++ rsvd b (o + 0x1C) 4 ++ rsvd b (o + 0x2C) 4

/-- References and the engine's load (R56, R109). -/
def crossFilter (k : State) : Fails :=
  let b := k.sec 4
  must (firFits ((fltOffsets b).1.map fun o => firLoad (u16 b (o + 2)) (u8 b (o + 4)) (u32 b (o + 8)))) 0 0x0119
    ++ (fltOffsets b).1.flatMap fun o => must (slotEntry (k.sec 3) (u8 b o)).isSome o 0x0117

/-! ### VOTING (R64, R114) -/

/-- The register words of VOTING. -/
def placeVoting (k : State) : List Place :=
  let b := k.sec 5
  let np := u8 b 0
  let word (ofs reg val : Nat) : Place := ⟨5, 0, ofs, reg, val⟩
  [word 0 0x70004 ((2 ^ min 4 (u8 b 1) - 1) * 256 + (2 ^ min 8 np - 1))]
    ++ ((List.range 14).map fun i => word (8 + 4 * i) (0x70010 + 4 * i) (u32 b (8 + 4 * i)))
    ++ ((List.range (min 8 np)).flatMap fun i =>
      let o := 64 + 16 * i
      word o (0x70100 + 32 * i) (2 ^ 31 + u8 b o) :: (List.range 3).map fun j => word (o + 4 + 4 * j) (0x70104 + 32 * i + 4 * j) (u32 b (o + 4 + 4 * j)))
    ++ (List.range (min 4 (u8 b 1))).flatMap fun i =>
      let o := 64 + 16 * np + 8 * i
      [word o (0x70200 + 32 * i) (2 ^ 31 + u8 b o), word (o + 4) (0x70204 + 32 * i) (u32 b (o + 4))]

/-- Component `j` of a slot is an angle; none for an undefined slot. -/
def slotAngle (k : State) (slot j : Nat) : Option Bool := (slotEntry (k.sec 3) slot).map fun e => j < slotNcomp e && compAngle (at_ (slotComps e) j [])

/-- VOTING, beside its register words. -/
def valVoting (k : State) : Fails :=
  let b := k.sec 5
  let np := u8 b 0
  fieldR b 0 1 0 8 ++ fieldR b 1 1 0 4 ++ bitsIn b 2 1 1
    ++ (if bit (u8 b 2) 0 then rangeIn (slotAngle k (u8 b 3) 0 ≠ some false && slotAngle k (u8 b 3) 1 ≠ some false) 3 else unusedIn b 3 1)
    ++ rsvd b 4 4
    ++ (eachOf np fun i =>
      let o := 64 + 16 * i
      rangeIn (((slotEntry (k.sec 3) (u8 b o)).map slotNcomp).getD 2 ≥ 2) o ++ rsvd b (o + 1) 3)
    ++ eachOf (u8 b 1) fun i =>
      let o := 64 + 16 * np + 8 * i
      rangeIn (slotAngle k (u8 b o) 0 ≠ some false) o ++ rsvd b (o + 1) 3

/-- References of VOTING. -/
def crossVoting (k : State) : Fails :=
  let b := k.sec 5
  let slot (o : Nat) : Fails := must (slotEntry (k.sec 3) (u8 b o)).isSome o 0x0117
  (if bit (u8 b 2) 0 then slot 3 else []) ++ (eachOf (u8 b 0) fun i => slot (64 + 16 * i))
    ++ eachOf (u8 b 1) fun i => slot (64 + 16 * u8 b 0 + 8 * i)

/-! ### OCE (R65, R163 to R166, R174) -/

/-- The shape of a step's operands fits its operation (R165, R166; notes/assumptions/25). -/
def stepFits (b : List Byte) (st : OceStep) : Bool :=
  let nop := oceNoper b
  let n := oceStates b
  let m := oceMeas b
  let src (i : Nat) : Nat := at_ st.src i 0xFF
  let named (o : Nat) : Bool := o < nop
  let sh (o : Nat) : Nat × Nat := ((opnd b o).rows, (opnd b o).cols)
  let isSh (o r c : Nat) : Bool := named o && sh o = (r, c)
  let none_ (l : List Nat) : Bool := l.all fun i => src i = 0xFF
  let dst := sh st.dst
  -- the operand's rows fit the destination from ROW_OFS on
  let into (o : Nat) : Bool := named o && (sh o).2 = dst.2 && st.rowOfs + (sh o).1 ≤ dst.1
  let prod (x y r c : Nat) : Bool := named x && named y && (sh x).1 = r && (sh x).2 = (sh y).1 && (sh y).2 = c
  let pairOk (x y r c : Nat) : Bool := (x = 0xFF && y = 0xFF) || prod x y r c
  match st.op with
  | 1 =>
    let r := if src 0 ≠ 0xFF then (sh (src 0)).1 else if src 2 ≠ 0xFF then (sh (src 2)).1 else (sh (src 4)).1
    named st.dst && pairOk (src 0) (src 1) r dst.2 && pairOk (src 2) (src 3) r dst.2 && (src 4 = 0xFF || isSh (src 4) r dst.2)
      && !none_ [0, 2, 4] && st.rowOfs + r ≤ dst.1
  | 2 => isSh st.dst n n && st.rowOfs = 0 && isSh (src 0) n n && isSh (src 1) n n && none_ [2, 3, 4]
  | 3 => isSh (src 0) n 1 && isSh (src 1) n n && isSh (src 2) m n && isSh (src 3) m n && none_ [4]
  | 4 => named st.dst && isSh (src 0) 1 1 && (opnd b (src 0)).kind = 1 && st.rowOfs + 2 ≤ dst.1 && st.param + 2 ≤ dst.2 && none_ [1, 2, 3, 4]
  | 5 => named st.dst && into (src 0) && (sh (src 0)).1 % 2 = 0 && none_ [1, 2, 3, 4]
  | 6 => named st.dst && into (src 0) && (sh (src 0)).1 % 2 = 0 && none_ [1, 2, 3, 4]
  | 7 => isSh st.dst 6 1 && st.rowOfs = 0
  | 8 => named (src 0) && named (src 1) && 3 ≤ (sh (src 0)).1 && (sh (src 0)).2 = 1 && isSh (src 1) 3 1
  | 9 => isSh st.dst 3 1 && st.rowOfs = 0 && isSh (src 0) 2 1 && named (src 1) && (sh (src 1)).1 * (sh (src 1)).2 = 192 && none_ [2, 3, 4]
  | 10 => named st.dst && into (src 0) && isSh (src 1) (sh (src 0)).1 dst.2 && (opnd b (src 1)).kind = 1 && none_ [2, 3, 4]
  | 11 => true
  | _ => false

/-- Words an operand takes in its memory: one exponent and its mantissas (R167). -/
def opWords (p : Opnd) : Nat := 1 + p.rows * p.cols

/-- Places of the step descriptors, the operand entries, the banks and the section's end. -/
def oceParts (b : List Byte) : Nat × Nat × Nat × Nat × Nat :=
  let st := 64 + 8 * oceMeas b
  let op := st + 16 * oceSteps b
  let ba := op + 8 * oceNoper b
  (st, op, ba, ba + u32 b 0x24, ba + u32 b 0x24 + u32 b 0x28)

/-- The register words of OCE. -/
def placeOce (k : State) : List Place :=
  let b := k.sec 6
  let (so, oo, _, _, _) := oceParts b
  let word (ofs reg val : Nat) : Place := ⟨6, 0, ofs, reg, val⟩
  [word 0 0x8000C (oceSteps b % 64 * 2 ^ 26 + oceStates b % 64 * 2 ^ 20 + oceMeas b % 32 * 2 ^ 15 + oceForces b % 8 * 2 ^ 12 + oceGapMax b % 16 * 2 ^ 8 + u8 b 6 % 2),
   word 8 0x80010 (u16 b 8 * 2 ^ 16 + u16 b 0x0A)]
    ++ ((List.range (4 * min 32 (oceSteps b))).map fun i => word (so + 4 * i) (0x81000 + 4 * i) (u32 b (so + 4 * i)))
    ++ (List.range (2 * min 64 (oceNoper b))).map fun i => word (oo + 4 * i) (0x82000 + 4 * i) (u32 b (oo + 4 * i))

/-- The operand entry at offset `o`. -/
def valOpnd (b : List Byte) (o : Nat) : Fails :=
  let kind := u8 b o
  fieldZ b o 1 1 5 ++ fieldZ b (o + 1) 1 1 32 ++ fieldZ b (o + 2) 1 1 32 ++ (if kind = 4 then fieldZ b (o + 3) 1 1 4 else unusedIn b (o + 3) 1)
    ++ rangeIn (kind ≠ 4 || (match u8 b (o + 3) with
        | 1 => u8 b (o + 1) = oceForces b && u8 b (o + 2) = 1
        | 2 => u8 b (o + 1) = 3 && u8 b (o + 2) = 1
        | 3 => u8 b (o + 1) = 2 && u8 b (o + 2) = 1
        | _ => true)) (o + 1)
    ++ (if kind ≤ 3 then [] else unusedIn b (o + 4) 2) ++ rsvd b (o + 6) 2

/-- An operand named at offset `o` with a shape and, for 1, a coefficient. -/
def opNamed (b : List Byte) (o kind rows cols : Nat) : Fails :=
  let x := u8 b o
  rangeIn (oceNoper b ≤ x || ((opnd b x).rows = rows && (opnd b x).cols = cols && (opnd b x).kind = kind)) o

/-- The wind input at offset `o`. -/
def valWind (b : List Byte) (o : Nat) : Fails :=
  fieldR b o 1 0 2 ++ rsvd b (o + 3) 1

/-- Places in a step's descriptor that name an operand the program does not have (R56, R164): DST of an operation that has one, the sources. -/
def stepNames (b : List Byte) (st : OceStep) : List Nat :=
  (if [3, 8, 11].contains st.op then [] else if st.dst < oceNoper b then [] else [2])
    ++ (List.range 5).flatMap fun i => if at_ st.src i 0xFF = 0xFF || at_ st.src i 0xFF < oceNoper b then [] else [3 + i]

/-- OCE. -/
def valOce (k : State) : Fails :=
  let b := k.sec 6
  let n := oceStates b
  let (so, oo, _, _, _) := oceParts b
  let steps := (List.range (oceSteps b)).map (oceStep b)
  let ops := (List.range (oceNoper b)).map (opnd b)
  let last4 := ((List.range steps.length).zip steps).filter fun e => !e.2.stg5
  fieldZ b 0 1 1 32 ++ fieldZ b 1 1 1 32 ++ fieldZ b 2 1 1 24 ++ fieldZ b 3 1 1 6 ++ fieldZ b 4 1 1 64 ++ fieldZ b 5 1 1 8 ++ bitsIn b 6 1 0x0F
    ++ rsvd b 7 1 ++ fieldZ b 0x0A 2 1 10000
    ++ (eachOf 3 fun i => rangeIn (u8 b (0x0C + i) < n) (0x0C + i)) ++ rsvd b 0x0F 1
    ++ (eachOf 3 fun i => rangeIn (u8 b (0x10 + i) < n || u8 b (0x10 + i) = 0xFF) (0x10 + i)) ++ rsvd b 0x13 1
    ++ opNamed b 0x14 2 n 1 ++ rangeIn ((ops.filter fun p => p.kind = 2 && p.cols = 1).length = 1) 0x14
    ++ rangeIn (oceNoper b ≤ u8 b 0x15 || ((opnd b (u8 b 0x15)).rows = n && (opnd b (u8 b 0x15)).cols = n)) 0x15
    ++ opNamed b 0x16 1 n n ++ opNamed b 0x17 1 n 1
    ++ (if u8 b 6 / 2 % 8 = 0 then rangeIn (u8 b 0x18 = 0xFF) 0x18 else opNamed b 0x18 1 3 1) ++ rsvd b 0x19 3
    ++ valWind b 0x1C ++ valWind b 0x20 ++ rangeIn ((u8 b 0x1C = 0) = (u8 b 0x20 = 0)) 0x20
    ++ fieldZ b 0x24 4 4 65536 ++ rangeIn (u32 b 0x24 % 4 = 0) 0x24
    ++ rangeIn (u32 b 0x28 = 0 || (4 ≤ u32 b 0x28 && u32 b 0x28 ≤ 65536 && u32 b 0x28 % 4 = 0)) 0x28 ++ rsvd b 0x2C 20
    ++ (eachOf (oceMeas b) fun r =>
      let o := 64 + 8 * r
      let kind := u8 b o
      fieldZ b o 1 1 5 ++ (if kind = 5 then [] else unusedIn b (o + 2) 1)
        ++ (if kind ≤ 3 then rangeIn (u8 b (o + 3) = 0xFF) (o + 3) ++ unusedIn b (o + 4) 2
            else if oceNoper b ≤ u8 b (o + 3) then [] else rangeIn ((opnd b (u8 b (o + 3))).kind = 1) (o + 3)
              ++ rangeIn (u16 b (o + 4) < (opnd b (u8 b (o + 3))).rows * (opnd b (u8 b (o + 3))).cols) (o + 4)) ++ rsvd b (o + 6) 2)
    ++ (eachOf steps.length fun i =>
      let o := so + 16 * i
      let st := oceStep b i
      fieldZ b o 1 1 11 ++ bitsIn b (o + 1) 1 7 ++ rangeIn (!(st.stg5 && st.pred)) (o + 1) ++ rangeIn (st.dst ≤ 63) (o + 2)
        ++ (eachOf 5 fun j => rangeIn (u8 b (o + 3 + j) ≤ 63 || u8 b (o + 3 + j) = 0xFF) (o + 3 + j)) ++ fieldR b (o + 8) 2 0 31
        ++ rsvd b (o + 0x0C) 4 ++ rangeIn (!(stepNames b st).isEmpty || stepFits b st) o
        ++ rangeIn (i = 0 || st.stg5 || !(oceStep b (i - 1)).stg5) (o + 1))
    ++ (match last4.getLast? with
      | none => rangeIn false so
      | some e => rangeIn (e.2.op = 11) (so + 16 * e.1))
    ++ (eachOf ops.length fun i => valOpnd b (oo + 8 * i))
    ++ rangeIn ((ops.filter fun p => p.kind = 5 && p.cols = 1).length = 1 && ops.all fun p => p.kind ≠ 5 || p.rows = oceForces b) oo

/-- What a measurement row or wind input names exists: heading references, positions, filter channels, slot components. A component at or above
the slot's NCOMP does not exist (the model's choice of REFERENCE, notes/assumptions/84). -/
def oceInput (k : State) (kind ix comp : Nat) : Bool :=
  match kind with
  | 1 => ix < u8 (k.sec 5) 1
  | 2 => ix < u8 (k.sec 5) 0
  | 3 => ix < u8 (k.sec 5) 0
  | 4 => ix < nFlt k
  | _ => match slotEntry (k.sec 3) ix with
    | none => false
    | some e => comp < slotNcomp e

/-- References, overlaps and memory sizes of OCE (R56, R165); the size of state memory is open (notes/assumptions/25). -/
def crossOce (k : State) : Fails :=
  let b := k.sec 6
  let (so, oo, _, _, _) := oceParts b
  let lim (kind : Nat) : Nat := if kind = 1 then (if u32 b 0x28 = 0 then u32 b 0x24 else min (u32 b 0x24) (u32 b 0x28)) / 4 else Config.oceStateWords
  let clash (i j : Nat) : Bool :=
    let x := opnd b i
    let y := opnd b j
    x.kind ≤ 3 && y.kind ≤ 3 && (x.kind = 1) = (y.kind = 1) && x.ofs < y.ofs + opWords y && y.ofs < x.ofs + opWords x
  let wind (o : Nat) : Fails := must (u8 b o = 0 || oceInput k (u8 b o + 3) (u8 b (o + 1)) (u8 b (o + 2))) (o + 1) 0x0117
  let known (o : Nat) : Fails := must (u8 b o < oceNoper b) o 0x0117
  known 0x14 ++ known 0x15 ++ known 0x16 ++ known 0x17 ++ (if u8 b 6 / 2 % 8 = 0 then [] else known 0x18) ++ wind 0x1C ++ wind 0x20
    ++ (eachOf (oceMeas b) fun r =>
      let o := 64 + 8 * r
      must (oceInput k (u8 b o) (u8 b (o + 1)) (u8 b (o + 2))) (o + 1) 0x0117 ++ if u8 b o ≤ 3 then [] else known (o + 3))
    ++ (eachOf (oceSteps b) fun i => (stepNames b (oceStep b i)).map fun j => (so + 16 * i + j, 0x0117))
    ++ eachOf (oceNoper b) fun i =>
      let p := opnd b i
      must (!(List.range i).any fun j => clash j i) (oo + 8 * i + 4) 0x0118
        ++ must (3 < p.kind || p.ofs + opWords p ≤ lim p.kind) (oo + 8 * i + 4) 0x0119

end Sys2Proof.Machine
end

