-- ==== Sys2Proof/Machine/ImgIo.lean ====
section
/-! DEFINITION. The loader's checks of the sections GNSS, TIME and FIELD (R66 to R68). -/

namespace Sys2Proof.Machine

open Sys2Proof

/-! ### GNSS (R66, R126 to R160) -/

/-- The exact value of a binary32 word of a section. -/
def dyAt (b : List Byte) (o : Nat) : Int × Int := dyOf (u32 b o)

/-- Squared length and inner product of baselines `i` and `j` (0 to 2). -/
def baseDot (b : List Byte) (i j : Nat) : Int × Int :=
  (List.range 3).foldl (fun a c => dyAdd a (dyMul (dyAt b (0x90 + 12 * i + 4 * c)) (dyAt b (0x90 + 12 * j + 4 * c)))) (0, 0)

/-- Two baselines are more than 5° from collinear (R153): dot² < cos²(5°) · |a|² |b|². -/
def baseApart (b : List Byte) (i j : Nat) : Bool :=
  let d := baseDot b i j
  let l := dyMul (baseDot b i i) (baseDot b j j)
  dyLt (dyMul (10 ^ 18, 0) (dyMul d d)) (dyMul (992403876506104030, 0) l)

/-- The loop words of signal code `g` + 1 at offset `o` (R135 to R137). -/
def valLoop (b : List Byte) (o g : Nat) : Fails :=
  let pll := u32 b o
  let dll := u32 b (o + 4)
  let cor := u32 b (o + 8)
  let tInt := dll / 65536 % 256
  let dEl := cor % 256
  let allowed := if g = 1 then [4, 20, 100] else if g = 2 then [10, 20, 100] else [1, 2, 4, 5, 10, 20]
  failOf o (chkZ 5 200 (pll / 65536 % 256)) ++ failOf o (chkZ 10 500 (pll % 65536)) ++ rangeIn (pll % 65536 * tInt ≤ 1000) o
    ++ failOf (o + 4) (chkZ 1 100 tInt) ++ rangeIn (allowed.contains tInt) (o + 4) ++ failOf (o + 4) (chkZ 2 500 (dll % 65536))
    ++ rangeIn (dll % 65536 * tInt ≤ 5000) (o + 4)
    ++ failOf (o + 8) (chkZ 1 255 (cor / 65536 % 256)) ++ failOf (o + 8) (chkR 4 64 dEl) ++ failOf (o + 8) (chkR dEl 128 (cor / 256 % 256))
    ++ rsvd b (o + 12) 4

/-- GNSS. TILT_MAX and ANGLE_TOL end at 2^31 − 1, half a turn (the model's choice, notes/assumptions/84). -/
def valGnss (k : State) : Fails :=
  let b := k.sec 9
  let p := u32 (k.sec 1) 0
  let used (a : Nat) : Bool := 0 < u8 b (0x18 + a)
  let fs := u32 b 4
  let fl := u8 b 2
  let ninit := (List.range 4).map fun a => u8 b (0xB4 + a)
  let e := u16 b 0x40
  let bl := u8 b 0x67
  let blOn (i : Nat) : Bool := bit bl i
  fieldZ b 0 1 1 4 ++ rangeIn (u8 b 0 = ((List.range 4).filter used).length) 0 ++ (if u8 b 1 = 0 then [(1, zeroField)] else bitsIn b 1 1 0x0F)
    ++ bitsIn b 2 1 0x0F ++ fieldR b 3 1 0 3 ++ rangeIn (used (u8 b 3)) 3 ++ fieldR b 4 4 16368000 81840000
    ++ (eachOf 4 fun a =>
      let f := signed 32 (u32 b (8 + 4 * a))
      if used a then rangeIn (5 * f.natAbs ≤ 2 * fs) (8 + 4 * a) else unusedIn b (8 + 4 * a) 4)
    ++ (eachOf 4 fun a => fieldR b (0x18 + a) 1 0 64)
    ++ (eachOf 4 fun a => if used a then fieldZ b (0x1C + a) 1 1 3 else unusedIn b (0x1C + a) 1)
    ++ must (u16 b 0x22 ≠ 0) 0x22 zeroField ++ rangeIn (u16 b 0x22 = 0 || u16 b 0x20 < u16 b 0x22) 0x20 ++ fieldR b 0x22 2 0 1000 ++ rangeIn (u16 b 0x22 = 0 || u16 b 0x20 ≤ u16 b 0x24 && u16 b 0x24 ≤ u16 b 0x22) 0x24
    ++ rsvd b 0x26 2
    ++ (if u32 b 0x28 = 0 then must (ninit.all (· = 0) && !bit fl 3) 0x28 zeroField else fieldR b 0x28 4 100000 10000000)
    ++ fieldZ b 0x2C 4 1000 20000 ++ fieldZ b 0x30 4 100 5000
    ++ (eachOf 4 fun g => if bit (u8 b 1) g then fieldZ b (0x34 + g) 1 1 64 else unusedIn b (0x34 + g) 1)
    ++ realR b 0x38 (i32 2) (i32 100) ++ fieldR b 0x3C 4 0 (2 ^ 30)
    ++ fieldZ b 0x40 2 1 1000 ++ rangeIn (p % e = 0 && 1000 * e ≤ p) 0x40
    ++ fieldR b 0x42 2 10 2000 ++ rangeIn (u16 b 0x46 < u16 b 0x44) 0x46 ++ fieldZ b 0x48 2 1 1000
    ++ realR b 0x4C (ratio32 1 2) (ratio32 99 100) ++ realR b 0x50 (ratio32 1 10) (ratio32 1 2)
    ++ failOf 0x54 (chkZ 20 (2 ^ 32) (u32 b 0x54))
    ++ (if u32 b 0x58 = 0 then [(0x58, zeroField)] else rangeIn (u32 b 0x54 < u32 b 0x58 && u32 b 0x58 + 20 ≤ p) 0x58)
    ++ rangeIn (u64 b 0x5C % 16 = 0) 0x5C ++ fieldZ b 0x64 1 1 8
    ++ (if bl = 0 then unusedIn b 0x66 1 else []) ++ bitsIn b 0x67 1 7
    ++ rangeIn (bl = 0 || (List.range 3).any fun i => (List.range i).any fun j => blOn i && blOn j && baseApart b i j) 0x67
    ++ fieldR b 0x68 2 0 100 ++ fieldR b 0x6A 2 0 4095 ++ fieldZ b 0x6C 2 1 60 ++ fieldZ b 0x6E 2 1 4096
    ++ realPos b 0x70 ++ rangeIn (ffinite fmt32 (u32 b 0x74) && le32 0 (u32 b 0x74)) 0x74 ++ realPos b 0x78 ++ realPos b 0x7C
    ++ fieldZ b 0x80 4 1 (2 ^ 31 - 1) ++ realR b 0x84 (ratio32 3 2) (i32 20) ++ realPos b 0x88 ++ fieldZ b 0x8C 4 1 (2 ^ 31 - 1)
    ++ (eachOf 3 fun i =>
      let o := 0x90 + 12 * i
      if blOn i then
        (eachOf 3 fun c => finIn b (o + 4 * c))
          ++ rangeIn (!dyLt (dyMul (100, 0) (baseDot b i i)) (9, 0) && !dyLt (40000, 0) (baseDot b i i)) o
      else unusedIn b o 12)
    ++ (eachOf 4 fun a => fieldR b (0xB4 + a) 1 0 64)
    ++ (if bit fl 3 then rangeIn (u8 b 0xB9 ≤ u8 b 0xBA) 0xB9 ++ rangeIn (u8 b 0xB9 ≤ u8 b 0xBB && u8 b 0xBB ≤ u8 b 0xBA) 0xBB else unusedIn b 0xB8 4)
    ++ rsvd b 0xBC 4
    ++ (eachOf 4 fun g => if bit (u8 b 1) g then valLoop b (0xC0 + 16 * g) g else unusedIn b (0xC0 + 16 * g) 16)
    ++ eachOf ninit.sum fun i => bitsIn b (0x100 + 4 * i + 3) 1 1

/-- The octets of a GNSS section. -/
def gnssLen (b : List Byte) : Nat := 256 + 4 * ((List.range 4).map fun a => u8 b (0xB4 + a)).sum

/-- The register words of GNSS. -/
def placeGnss (k : State) : List Place :=
  let b := k.sec 9
  let ants := (List.range 4).foldl (fun m a => setBit m a (0 < u8 b (0x18 + a))) 0
  [⟨9, 0, 0x40, 0x180004, u8 b 1 % 16 * 2 ^ 20 + ants * 2 ^ 16 + u16 b 0x40 % 1024⟩, ⟨9, 0, 0x5C, 0x180008, u32 b 0x5C⟩, ⟨9, 0, 0x60, 0x18000C, u32 b 0x60⟩]
    ++ (List.range 4).flatMap fun g => (List.range 3).map fun i => ⟨9, 0, 0xC0 + 16 * g + 4 * i, 0x180110 + 16 * g + 4 * i, u32 b (0xC0 + 16 * g + 4 * i)⟩

/-! ### TIME (R67, R309 to R327) -/

/-- Source codes listed. -/
def timeKinds (b : List Byte) : List Nat := (List.range (min 4 (u8 b 0))).map fun i => u32 b (0x40 + 8 * i) / 2 ^ 29

/-- TIME. KIND 0 of a listed source is ZERO_FIELD, and bit 28 of a source word that is not 0 RESERVED_NONZERO (the model's choices,
notes/assumptions/84). -/
def valTime (k : State) : Fails :=
  let b := k.sec 10
  let ptp := (timeKinds b).contains 2
  let cls := u8 b 3 % 4
  let osc (o : Nat) : Fails := if cls = 0 then rangeIn (ffinite fmt32 (u32 b o) && le32 0 (u32 b o)) o else unusedIn b o 4
  fieldZ b 0 1 1 4 ++ fieldZ b 1 1 1 255 ++ fieldZ b 2 1 1 255 ++ bitsIn b 3 1 0x0F ++ fieldZ b 4 4 1000 1000000000 ++ fieldZ b 8 4 100 100000
    ++ fieldZ b 0x0C 4 1000 1000000 ++ realZ b 0x10 (ratio32 1 10000) (i32 10) ++ realZ b 0x14 (ratio32 1 100000000) one32
    ++ fieldZ b 0x18 4 1 1000000 ++ osc 0x20 ++ osc 0x24
    ++ rangeIn (u16 b 0x28 ≤ 62500) 0x28
    ++ failOf 0x2C (chkZ 1 3600 (u32 b 0x2C / 4096 % 4096)) ++ failOf 0x2C (chkZ 1 4095 (u32 b 0x2C % 4096))
    ++ rangeIn (u32 b 0x2C % 4096 < u32 b 0x2C / 4096 % 4096 * 2500) 0x2C
    ++ (if ptp then failOf 0x30 (chkZ 2 10 (u32 b 0x30 / 2 ^ 20 % 16)) ++ failOf 0x30 (chkZ 10 1000000 (u32 b 0x30 % 2 ^ 20)) else unusedIn b 0x30 4)
    ++ (if ptp then must (u64 b 0x34 ≠ 0) 0x34 zeroField else unusedIn b 0x34 8) ++ rsvd b 0x3C 4
    ++ (eachOf 4 fun i =>
      let o := 0x40 + 8 * i
      let w := u32 b o
      if i < u8 b 0 then failOf o (chkZ 1 4 (w / 2 ^ 29)) ++ rangeIn (w / 65536 % 4096 ≤ 3600) o ++ failOf o (chkZ 1 60000 (w % 65536)) else unusedIn b o 8)
    ++ eachOf 4 fun i =>
      let o := 0x60 + 4 * i
      let w := u32 b o
      match w / 2 ^ 30 with
      | 0 => unusedIn b o 4
      | 1 => must (w / 2 ^ 28 % 4 ≠ 0) o zeroField
      | _ => must (w % 2 ^ 24 ≠ 0) o zeroField

/-- The register words of TIME. -/
def placeTime (k : State) : List Place :=
  let b := k.sec 10
  let word (ofs reg : Nat) : Place := ⟨10, 0, ofs, reg, u32 b ofs⟩
  [⟨10, 0, 0, 0x20000C, u8 b 1 * 2 ^ 24 + u8 b 2 * 2 ^ 16 + u8 b 3 % 4 * 2 ^ 14 + u8 b 3 / 4 % 4 * 2 ^ 12 + u8 b 0 % 8⟩,
   word 4 0x20004C, word 8 0x200050, word 0x0C 0x200054, word 0x10 0x200058, word 0x14 0x20005C, word 0x28 0x2000A0, word 0x2C 0x2000A8, word 0x30 0x200300]
    ++ ((List.range 4).flatMap fun i => [word (0x40 + 8 * i) (0x2000C0 + 16 * i), word (0x44 + 8 * i) (0x2000C4 + 16 * i)])
    ++ ((List.range 4).map fun i => word (0x60 + 4 * i) (0x200200 + 32 * i))
    ++ (List.range 4).flatMap fun i => [word (0x70 + 8 * i) (0x200100 + 8 * i), word (0x74 + 8 * i) (0x200104 + 8 * i)]

/-- Sources of TIME (R309). -/
def crossTime (k : State) : Fails :=
  let b := k.sec 10
  let kinds := timeKinds b
  ((List.range kinds.length).zip kinds).flatMap fun (i, x) =>
    let o := 0x40 + 8 * i
    must (!(kinds.take i).contains x) o 0x0118 ++ must (x ≠ 1 || (k.hasGnss && k.hasSec 9)) o 0x0111
      ++ must (x ≠ 2 || k.hasSec 11 (u8 b 3 / 4 % 4)) o 0x0117

/-! ### FIELD (R68, R253 to R274) -/

/-- Offsets of the axis entries, of the first channel entry, of the first compare-unit entry and of the section's end. -/
def fieldParts (b : List Byte) : List Nat × Nat × Nat × Nat :=
  let (axs, o) := (List.range (u8 b 1)).foldl (fun (a : List Nat × Nat) _ => (a.1 ++ [a.2], a.2 + 28 + 8 * u8 b (a.2 + 7))) ([], 8 + 24 * u8 b 0)
  (axs, o, o + 32 * u8 b 2, o + 32 * u8 b 2 + 12 * u8 b 3)

/-- A WIDEN device other than the master: its thrusters are the master's (R253). -/
def widenPeer (k : State) : Bool := bit (u8 k.casc 0x0A) 0 && u8 k.casc 0 ≠ 1

/-- The image's thrusters that FIELD may name: none known on a WIDEN peer, and on a node. -/
def imgThr (k : State) : Option (List Thr) := if widenPeer k || !k.hasSec 7 then none else some k.alloc?.thr

/-- The curve of an axis is legal and covers its thruster's forces (R254). -/
def curveOk (k : State) (x : AxisEnt) : Bool :=
  let cs := x.curve
  cs.all (fun p => ffinite fmt32 p.1 && ffinite fmt32 p.2)
    && (List.range (cs.length - 1)).all (fun j => lt32 (at_ cs j (0, 0)).1 (at_ cs (j + 1) (0, 0)).1 && le32 (at_ cs j (0, 0)).2 (at_ cs (j + 1) (0, 0)).2)
    && (match (imgThr k).bind fun l => l[x.thr]? with
      | none => true
      | some t =>
        let lo := (at_ cs 0 (0, 0)).1
        let hi := (at_ cs (cs.length - 1) (0, 0)).1
        if x.typ = 2 then le32 lo 0 && le32 (tMax t) hi else le32 lo (fneg fmt32 t.tneg) && le32 t.tpos hi)

/-- The thruster kinds that an axis type drives (R253). -/
def typeKinds (typ : Nat) : List Nat :=
  match typ with
  | 1 => [2]
  | 2 => [2, 3]
  | 3 => [1]
  | _ => [3]

/-- The axis entry at offset `o`. -/
def valAxis (k : State) (b : List Byte) (o : Nat) (x : AxisEnt) : Fails :=
  let typ := x.typ
  let thrust := typ = 2 || typ = 3
  fieldZ b o 1 1 4 ++ fieldR b (o + 1) 1 0 (b2n thrust) ++ fieldZ b (o + 2) 1 1 3 ++ rangeIn (x.sink ≠ 3 || typ ≠ 1) (o + 2)
    ++ fieldR b (o + 3) 1 0 (if x.sink = 1 then 255 else if x.sink = 2 then 31 else 63) ++ fieldR b (o + 4) 1 0 63
    ++ (match (imgThr k).bind fun l => l[x.thr]? with
      | none => []
      | some t => rangeIn ((typeKinds typ).contains t.kind) o)
    ++ fieldR b (o + 5) 1 0 2 ++ (if x.fbSrc = 2 then fieldR b (o + 6) 1 0 31 else unusedIn b (o + 6) 1)
    ++ (if thrust then fieldZ b (o + 7) 1 2 16 else unusedIn b (o + 7) 1) ++ (if x.sink = 1 then [] else unusedIn b (o + 8) 1)
    ++ fieldR b (o + 9) 1 0 (if x.sink = 1 then 3 else if x.sink = 2 then 7 else 0) ++ rsvd b (o + 0x0A) 2
    ++ (if typ = 1 then [] else unusedIn b (o + 0x0C) 4) ++ (if typ = 4 then [] else unusedIn b (o + 0x14) 4)
    ++ (if typ = 4 then fieldZ b (o + 0x18) 4 1 (2 ^ 31 - 1) else unusedIn b (o + 0x18) 4) ++ rangeIn (!thrust || curveOk k x) (o + 0x1C)

/-- The PINS word of the channel entry at offset `o` (R266): the octets its MODE and RELAY use. -/
def valChanPins (b : List Byte) (o : Nat) : Fails :=
  let cfg := u32 b o
  let quad := bit cfg 31
  let rly := bit cfg 30
  let oct (i : Nat) : Nat := u32 b (o + 4) / 2 ^ (24 - 8 * i) % 256
  let want : List (Option Bool) := if quad then [some true, some true, none, some false] else [some true, some true, some rly, some rly]
  rangeIn (!(quad && rly)) o ++ eachOf 4 fun i =>
    rangeIn (match at_ want i none with
      | some true => 128 ≤ oct i
      | some false => oct i = 0
      | none => 128 ≤ oct i || oct i = 0) (o + 4)
    ++ must (!bit (oct i) 6) (o + 4) 0x010F

/-- FIELD, beside its register words. -/
def valField (k : State) : Fails :=
  let b := k.sec 13
  let (axs, oc, _, _) := fieldParts b
  let ents := axisEnts b
  fieldR b 0 1 0 64 ++ fieldR b 1 1 0 64 ++ fieldR b 2 1 0 32 ++ fieldR b 3 1 0 64 ++ rsvd b 4 4
    ++ (eachOf (u8 b 0) fun i =>
      let o := 8 + 24 * i
      let pwm := u8 b (o + 1) = 8
      fieldR b o 1 0 63 ++ fieldZ b (o + 1) 1 1 10 ++ bitsIn b (o + 2) 1 7
        ++ (if pwm then fieldZ b (o + 4) 4 1600 16000000 ++ rangeIn (le32 0 (u32 b (o + 16)) && ffinite fmt32 (u32 b (o + 16))) (o + 16)
              ++ rangeIn (le32 (u32 b (o + 16)) (u32 b (o + 20)) && le32 (u32 b (o + 20)) one32) (o + 20)
            else unusedIn b (o + 4) 20))
    ++ (((axs.zip ents).map fun e => valAxis k b e.1 e.2).flatten)
    ++ eachOf (u8 b 2) fun i => valChanPins b (oc + 32 * i)

/-- The register words of FIELD. -/
def placeField (k : State) : List Place :=
  let b := k.sec 13
  let (axs, oc, ou, _) := fieldParts b
  let ents := axisEnts b
  let word (ofs reg val : Nat) : Place := ⟨13, 0, ofs, reg, val⟩
  [word 0 0x230000 (u8 b 3 * 2 ^ 24 + u8 b 1 * 2 ^ 16 + u8 b 2 * 2 ^ 8 + u8 b 0)]
    ++ ((List.range (u8 b 0)).flatMap fun i =>
      let o := 8 + 24 * i
      let p := u8 b o % 64
      let fl := u8 b (o + 2)
      [word (o + 1) (0x230800 + 8 * p) (u8 b (o + 1) % 16 * 2 ^ 28 + b2n (bit fl 0) * 2 ^ 27 + b2n (bit fl 1) * 2 ^ 26 + b2n (bit fl 2) * 2 ^ 25 + u8 b (o + 3) * 2 ^ 16),
       word (o + 4) (0x230804 + 8 * p) (u32 b (o + 4) % 2 ^ 24)])
    ++ (((List.range axs.length).zip (axs.zip ents)).map fun (i, o, x) =>
      word o (0x230100 + 16 * i) (x.typ % 16 * 2 ^ 28 + x.unit % 2 * 2 ^ 27 + x.sink % 8 * 2 ^ 24 + x.sinkRef * 2 ^ 16 + x.thr % 64 * 2 ^ 8 + x.fbSrc % 4 * 2 ^ 6 + x.chan % 32))
    ++ ((List.range (min 32 (u8 b 2))).flatMap fun e => (List.range 8).map fun i => word (oc + 32 * e + 4 * i) (0x231000 + 64 * e + 4 * i) (u32 b (oc + 32 * e + 4 * i)))
    ++ (List.range (min 64 (u8 b 3))).flatMap fun u => (List.range 3).map fun i => word (ou + 12 * u + 4 * i) (0x232000 + 16 * u + 4 * i) (u32 b (ou + 12 * u + 4 * i))

/-- The pins that a channel entry names, with the function each must have. -/
def chanPins (b : List Byte) (o : Nat) : List (Nat × Nat) :=
  let w := u32 b (o + 4)
  let fs := if bit (u32 b o) 31 then [5, 6, 7, 0] else [1, 2, 3, 4]
  (List.range 4).filterMap fun i => let x := w / 2 ^ (24 - 8 * i) % 256; if 128 ≤ x then some (x % 64, at_ fs i 0) else none

/-- References and conflicts of FIELD (R56, R253, R256, R258, R272). -/
def crossField (k : State) : Fails :=
  let b := k.sec 13
  let (axs, oc, _, _) := fieldParts b
  let ents := axisEnts b
  let pins := pinEnts b
  let func (p : Nat) : Nat := ((pins.find? fun e => e.pin = p).map (·.func)).getD 0
  let thrs := imgThr k
  let typesOf (i : Nat) : List Nat := (ents.filter fun x => x.thr = i).map (·.typ)
  let wanted (kind : Nat) : List Nat := match kind with
    | 1 => [3]
    | 2 => [1, 2]
    | 3 => [2, 4]
    | _ => []
  (eachOf pins.length fun i => must (!((pins.take i).any fun e => some e.pin = (pins[i]?).map (·.pin))) (8 + 24 * i) 0x0118)
    ++ (((List.range ents.length).zip (axs.zip ents)).flatMap fun (i, o, x) =>
      must (match thrs with
        | none => true
        | some l => x.thr < l.length) (o + 4) 0x0117
      ++ must (!((ents.take i).any fun y => y.thr = x.thr && y.typ = x.typ)) (o + 4) 0x0118
      ++ must (match thrs.bind fun l => l[x.thr]? with
        | none => true
        | some t => (wanted t.kind).all fun w => (typesOf x.thr).contains w) (o + 4) 0x0117
      ++ must (match x.sink with
        | 1 => k.hasSec 11 x.sinkInst && x.sinkRef < netNdef (k.netSec x.sinkInst) && u8 (netDef (k.netSec x.sinkInst) x.sinkRef) 0 = 1
        | 2 => k.hasSec 12 x.sinkInst && x.sinkRef < u8 (k.sec 12 x.sinkInst) 0x0E
        | _ => func x.sinkRef = 8) (o + 3) 0x0117
      ++ must (x.sink ≠ 3 || !((ents.take i).any fun y => y.sink = 3 && y.sinkRef = x.sinkRef)) (o + 3) 0x0118
      ++ must (x.fbSrc ≠ 2 || x.chan < u8 b 2) (o + 6) 0x0117)
    ++ (match thrs with
      | none => []
      | some l => if bit (u8 k.casc 0x0A) 0 then [] else
        must (((List.range l.length).zip l).all fun e => e.2.kind = 4 || !(typesOf e.1).isEmpty) 1 0x0117)
    ++ eachOf (u8 b 2) fun e =>
      let before := (List.range e).flatMap fun j => (chanPins b (oc + 32 * j)).map (·.1)
      (chanPins b (oc + 32 * e)).flatMap fun q =>
        must (func q.1 = q.2) (oc + 32 * e + 4) 0x0117 ++ must (!before.contains q.1) (oc + 32 * e + 4) 0x0118

end Sys2Proof.Machine
end

