-- ==== Sys2Proof/Machine/ImgNet.lean ====
section
/-! DEFINITION. The loader's checks of the sections NET and CAN (R334, R335, R345 to R347). -/

namespace Sys2Proof.Machine

open Sys2Proof

/-- The deadline of stage 9 and the commit offset of the candidate, in µs. -/
def imgD9 (k : State) : Nat := u32 (k.sec 2) 104
/-- C of the candidate, in µs. -/
def imgC (k : State) : Nat := u32 (k.sec 1) 4

/-! ### NET (R334, R335) -/

/-- The octets of a NET section. -/
def netLen (b : List Byte) : Nat := 64 + 8 * u8 b 0x0C + 32 * u16 b 0x0E

/-- A definition's class receives. -/
def defRx (d : List Byte) : Bool := [2, 3, 5, 6].contains (u8 d 0)

/-- The frame definition at offset `o`. -/
def valDef (k : State) (b : List Byte) (o : Nat) : Fails :=
  let cls := u8 b o
  let tx := cls = 1 || cls = 4
  let len := u8 b (o + 0x16)
  fieldZ b o 1 1 6 ++ (if tx || cls = 5 then fieldR b (o + 1) 1 0 6 else unusedIn b (o + 1) 1)
    ++ (if u16 b (o + 4) = 0 then must (u16 b (o + 6) ≠ 0) (o + 6) zeroField else unusedIn b (o + 6) 2)
    ++ must (!tx || (slice b (o + 8) 6).any fun x => x ≠ 0) (o + 8) zeroField
    ++ (if cls = 1 || cls = 2 then [] else unusedIn b (o + 0x0E) 2)
    ++ (if tx then must (imgC k + u32 b (o + 0x10) < imgD9 k) (o + 0x10) 0x0116 else unusedIn b (o + 0x10) 4)
    ++ fieldR b (o + 0x16) 1 0 8 ++ rsvd b (o + 0x17) 1 ++ unusedIn b (o + 0x18 + min 8 len) (8 - len)

/-- NET of a port. -/
def valNet (k : State) (p : Nat) : Fails :=
  let b := k.sec 11 p
  let n := u8 b 0x0C
  rangeIn ((slice b 0 6).any (fun x => x ≠ 0) && u8 b 0 % 2 = 0) 0 ++ fieldR b 6 1 0 2 ++ fieldR b 7 1 0 31 ++ fieldR b 0x0C 1 0 32
    ++ fieldR b 0x0E 2 0 256 ++ rsvd b 0x20 32
    ++ (eachOf n fun i => rsvd b (65 + 8 * i) 1 ++ rsvd b (71 + 8 * i) 1)
    ++ eachOf (netNdef b) fun d => valDef k b (64 + 8 * n + 32 * d)

/-- The register words of NET. The address octets are big-endian in the MAC registers. -/
def placeNet (k : State) (p : Nat) : List Place :=
  let b := k.sec 11 p
  let w := 0x1000 * p
  [⟨11, p, 0x0E, 0x210000 + w, u16 b 0x0E⟩, ⟨11, p, 6, 0x210004 + w, u8 b 7 * 256 + u8 b 6 % 4⟩, ⟨11, p, 8, 0x21000C + w, u32 b 8⟩,
   ⟨11, p, 2, 0x210010 + w, beN b 2 4⟩, ⟨11, p, 0, 0x210014 + w, beN b 0 2⟩]
    ++ ((List.range 8).map fun q => ⟨11, p, 0x10 + 2 * q, 0x210020 + w + 8 * q, b2n (bit (u8 b 0x0D) q) * 2 ^ 31 + u16 b (0x10 + 2 * q)⟩)
    ++ (List.range (netNdef b)).map fun d =>
      let o := 64 + 8 * u8 b 0x0C + 32 * d
      ⟨11, p, o, 0x210400 + w + 4 * d, u8 b o % 8⟩

/-- What a receive definition tells frames apart by (R336). -/
def defKey (d : List Byte) : Nat × Nat × Option Nat × List Byte × Nat × List Byte :=
  let n := u8 d 0x16
  (u16 d 4, u16 d 6, if bit (u16 d 2) 15 then some (u16 d 2 % 4096) else none, slice d 8 6, if n = 0 then 0 else u16 d 0x14, slice d 0x18 n)

/-- References and conflicts of NET. -/
def crossNet (k : State) (p : Nat) : Fails :=
  let b := k.sec 11 p
  eachOf (netNdef b) fun i =>
    let o := 64 + 8 * u8 b 0x0C + 32 * i
    let d := netDef b i
    must (u16 d 4 ≠ 0 || u32 b 8 ≠ 0) (o + 4) 0x0117
      ++ must (!defRx d || (List.range i).all fun j => !defRx (netDef b j) || defKey (netDef b j) ≠ defKey d) o 0x0118

/-! ### CAN (R345 to R347) -/

/-- The octets of a CAN section. -/
def canLen (b : List Byte) : Nat := 32 + 12 * u8 b 0x0D + 44 * u8 b 0x0E

/-- Octets of a field source. -/
def srcLen (src : Nat) : Nat := if src = 1 ∨ src = 2 then 4 else 1

/-- The fields of the buffer entry at offset `o`: source, first octet, argument. -/
def bufFields (b : List Byte) (o : Nat) : List (Nat × Nat × Nat) :=
  (List.range (min 8 (u8 b (o + 6)))).map fun i => let q := o + 12 + 4 * i; (u8 b q, u8 b (q + 1), u16 b (q + 2))

/-- The buffer entry at offset `o`. -/
def valBuf (k : State) (b : List Byte) (o : Nat) : Fails :=
  let h := u32 b o
  let fdf := bit h 30
  let dlc := u8 b (o + 4)
  let kind := u8 b (o + 5)
  let fs := bufFields b o
  rangeIn ((fdf || !bit h 31) && !(fdf && u8 b 6 = 0)) o ++ fieldR b (o + 4) 1 0 (if fdf then 15 else 8) ++ fieldZ b (o + 5) 1 1 2
    ++ fieldR b (o + 6) 1 0 8 ++ rangeIn (kind ≠ 1 || fs.any fun f => f.1 = 1) (o + 6) ++ rsvd b (o + 7) 1
    ++ (if kind = 1 then must (imgC k + u32 b (o + 8) < imgD9 k) (o + 8) 0x0116 else unusedIn b (o + 8) 4)
    ++ ((List.range fs.length).zip fs).flatMap fun (i, src, oct, _) =>
      rangeIn ([1, 2, 4, 5].contains src && oct + srcLen src ≤ dlcLen fdf dlc) (o + 12 + 4 * i)

/-- CAN of a controller. -/
def valCan (k : State) (c : Nat) : Fails :=
  let b := k.sec 12 c
  let fd := u8 b 6 ≠ 0
  let fl := u8 b 0x0B
  let hpb := bit fl 2
  let head :=
    fieldZ b 0 2 1 256 ++ fieldZ b 2 2 2 256 ++ fieldZ b 4 1 1 128 ++ fieldZ b 5 1 1 (u8 b 4) ++ fieldR b 6 1 0 32
      ++ (if fd then fieldZ b 7 1 1 64 ++ fieldZ b 8 1 1 32 ++ fieldZ b 9 1 1 (u8 b 8) else unusedIn b 7 3) ++ fieldR b 0x0A 1 0 127
  head
    ++ (if head.isEmpty then failOf 0 (chkRates (u16 b 0) (u16 b 2) (u8 b 4) (u8 b 5) (u8 b 6) (u8 b 7) (u8 b 8) (u8 b 9) (bit fl 0)) else [])
    ++ bitsIn b 0x0B 1 7 ++ rangeIn (!hpb || gk5Offered k c) 0x0B ++ fieldR b 0x0D 1 0 64 ++ fieldR b 0x0E 1 0 32 ++ rsvd b 0x0F 1
    ++ (if hpb then bitsIn b 0x10 4 (2 ^ 30 - 1) ++ bitsIn b 0x14 4 (2 ^ 29 - 1) else unusedIn b 0x10 8) ++ rsvd b 0x18 8
    ++ eachOf (u8 b 0x0E) fun i => valBuf k b (32 + 12 * u8 b 0x0D + 44 * i)

/-- The register words of CAN; the bit timing as value − 1 (R345). -/
def placeCan (k : State) (c : Nat) : List Place :=
  let b := k.sec 12 c
  let w := 0x1000 * c
  let fl := u8 b 0x0B
  let nf := u8 b 0x0D
  let fd := u8 b 6 ≠ 0
  let word (ofs reg val : Nat) : Place := ⟨12, c, ofs, reg + w, val⟩
  [word 0x0E 0x220004 (u8 b 0x0E % 64 * 2 ^ 26 + nf % 128 * 2 ^ 19 + u8 b 0x0A % 128 * 4096 + b2n (bit fl 2) * 2048 + b2n (bit fl 1) * 256 + u8 b 0x0C),
   word 0 0x22000C ((u16 b 0 - 1) % 256 * 2 ^ 24 + (u16 b 2 - 1) % 256 * 2 ^ 16 + (u8 b 4 - 1) % 128 * 256 + (u8 b 5 - 1) % 128),
   word 6 0x220010 (b2n (bit fl 0) * 2 ^ 31 + if fd then 2 ^ 30 + (u8 b 6 - 1) % 32 * 2 ^ 24 + (u8 b 7 - 1) % 64 * 2 ^ 16 + (u8 b 8 - 1) % 32 * 256 + (u8 b 9 - 1) % 32 else 0)]
    ++ ((List.range (min 64 nf)).flatMap fun f => (List.range 3).map fun j => word (32 + 12 * f + 4 * j) (0x220200 + 16 * f + 4 * j) (u32 b (32 + 12 * f + 4 * j)))
    ++ (List.range (min 32 (u8 b 0x0E))).flatMap fun i =>
      let o := 32 + 12 * nf + 44 * i
      [word o (0x220600 + 80 * i) (u32 b o), word (o + 4) (0x220604 + 80 * i) (u8 b (o + 5) % 4 * 2 ^ 30 + u8 b (o + 4) % 16 * 2 ^ 26)]

/-- References and conflicts of CAN. -/
def crossCan (k : State) (c : Nat) : Fails :=
  let b := k.sec 12 c
  let o (i : Nat) : Nat := 32 + 12 * u8 b 0x0D + 44 * i
  eachOf (u8 b 0x0E) fun i =>
    let fs := bufFields b (o i)
    must ((List.range i).all fun j => u32 b (o j) % 2 ^ 30 ≠ u32 b (o i) % 2 ^ 30) (o i) 0x0118
      ++ ((List.range fs.length).zip fs).flatMap fun (q, src, oct, arg) =>
        must ((fs.take q).all fun g => oct + srcLen src ≤ g.2.1 || g.2.1 + srcLen g.1 ≤ oct) (o i + 12 + 4 * q) 0x0118
          ++ must ((src ≠ 2 && src ≠ 5) || arg < u8 (k.sec 13) 1) (o i + 14 + 4 * q) 0x0117

end Sys2Proof.Machine
end

