-- ==== Sys2Proof/Machine/ImgAlloc.lean ====
section
/-! DEFINITION. The loader's checks of the sections ALLOCATION and SCENARIOS, and of lane memory (R195 to R211, R227, R234, R564). -/

namespace Sys2Proof.Machine

open Sys2Proof

/-- The number of cycles K_S by which references lag (R197). -/
def ksOf (k : State) : Nat :=
  let p := u32 (k.sec 1) 0
  (imgC k - u32 (k.sec 2) 60 + p - 1) / max 1 p

/-- Offsets of the thruster entries, the section entries, the generator entries and the extra rows. -/
def allocParts (b : List Byte) (forces : Nat) : List Nat × Nat × Nat × Nat :=
  let (os, o) := (List.range (u8 b 0)).foldl (fun (a : List Nat × Nat) _ => (a.1 ++ [a.2], (thrAt b forces a.2 0).2)) ([], 112)
  (os, o, o + 20 * u8 b 0x0E, o + 20 * u8 b 0x0E + 8 * u8 b 0x0F)

/-- At least 0 and finite. -/
def realGe0 (b : List Byte) (o : Nat) : Fails := let v := u32 b o; rangeIn (ffinite fmt32 v && le32 0 v) o

/-! ### Polygons and sectors (R200, R202) -/

/-- The cross product of two vectors, exact. -/
def dyCross (p q : (Int × Int) × (Int × Int)) : Int × Int :=
  let a := dyMul p.1 q.2
  let b := dyMul p.2 q.1
  dyAdd a (-b.1, b.2)

/-- The difference of two vectors, exact. -/
def dySub (p q : (Int × Int) × (Int × Int)) : (Int × Int) × (Int × Int) :=
  (dyAdd p.1 (-q.1.1, q.1.2), dyAdd p.2 (-q.2.1, q.2.2))

/-- The direction of a vector lies in the lower half-turn, from 2^31 on as a binary angle. -/
def lowerHalf (p : (Int × Int) × (Int × Int)) : Bool := p.2.1 < 0 || (p.2.1 = 0 && p.1.1 < 0)

/-- The direction of `p` is before that of `q` as a binary angle from 0. -/
def angleLt (p q : (Int × Int) × (Int × Int)) : Bool :=
  if lowerHalf p = lowerHalf q then 0 < (dyCross p q).1 else lowerHalf q

/-- The vertices are in ascending direction, and their polygon is convex and contains the origin (R200). -/
def polygonOk (vs : List (Nat × Nat)) : Bool :=
  let n := vs.length
  let p (i : Nat) : (Int × Int) × (Int × Int) := let v := at_ vs (i % n) (0, 0); (dyOf v.1, dyOf v.2)
  vs.all (fun v => ffinite fmt32 v.1 && ffinite fmt32 v.2 && !(fzero fmt32 v.1 && fzero fmt32 v.2))
    && (List.range (n - 1)).all (fun i => angleLt (p i) (p (i + 1)))
    && (List.range n).all fun i => 0 ≤ (dyCross (dySub (p (i + 1)) (p i)) (dySub (p (i + 2)) (p (i + 1)))).1 && 0 ≤ (dyCross (p i) (p (i + 1))).1

/-- Two sectors overlap (R202). -/
def sectorsClash (x y : Nat × Nat) : Bool := (y.1 + 2 ^ 32 - x.1) % 2 ^ 32 < x.2 || (x.1 + 2 ^ 32 - y.1) % 2 ^ 32 < y.2

/-! ### ALLOCATION -/

/-- The device is the master of a DEEPEN cascade (R195, R429). -/
def deepenMaster (k : State) : Bool := bit (u8 k.casc 0x0A) 1 && u8 k.casc 0 = 1

/-- The thruster entry at offset `o`. -/
def valThr (k : State) (b : List Byte) (t : Thr) (o : Nat) : Fails :=
  let kind := u8 b o
  let az := kind = 2 || kind = 3
  fieldZ b o 1 1 4 ++ rangeIn (kind ≠ 4 || deepenMaster k) o ++ rangeIn (u8 b (o + 1) < u8 b 0x0E || u8 b (o + 1) = 0xFF) (o + 1)
    ++ (if az then fieldZ b (o + 2) 1 3 16 else unusedIn b (o + 2) 1) ++ fieldR b (o + 3) 1 0 2 ++ (if kind = 1 then [] else unusedIn b (o + 4) 4)
    ++ (if kind = 1 then
          realGe0 b (o + 8) ++ realGe0 b (o + 0x0C)
            ++ must (!(fzero fmt32 (u32 b (o + 8)) && fzero fmt32 (u32 b (o + 0x0C)))) (o + 8) zeroField
        else unusedIn b (o + 8) 8)
    ++ realPos b (o + 0x10) ++ (if az then must (u32 b (o + 0x14) ≠ 0) (o + 0x14) zeroField ++ realPos b (o + 0x18) else [])
    ++ realGe0 b (o + 0x1C) 
    ++ (if fzero fmt32 (u32 b (o + 0x20)) then [(o + 0x20, zeroField)]
        else rangeIn (ffinite fmt32 (u32 b (o + 0x20)) && lt32 (u32 b (o + 0x1C)) (u32 b (o + 0x20))) (o + 0x1C))
    ++ realPos b (o + 0x24) ++ realGe0 b (o + 0x28)
    ++ (eachOf 2 fun i =>
      let q := o + 0x2C + 8 * i
      if i < u8 b (o + 3) then fieldZ b (q + 4) 4 1 (2 ^ 31 - 1) else unusedIn b q 8)
    ++ rsvd b (o + 0x41) 3 ++ rangeIn (!az || polygonOk t.verts) (o + 0x44)

/-- A component that a power item names. -/
def itemComp (k : State) (slot comp : Nat) : Option (List Byte) :=
  match slotEntry (k.sec 3) slot with
  | none => none
  | some e => if comp < slotNcomp e then some (at_ (slotComps e) comp []) else none

/-- ALLOCATION. -/
def valAlloc (k : State) : Fails :=
  let b := k.sec 7
  let forces := oceForces (k.sec 6)
  let a := k.alloc?
  let (ot, os, og, _) := allocParts b forces
  let shaped : Bool := ot.all fun o => 1 ≤ u8 b o && u8 b o ≤ 4 && if u8 b o = 2 || u8 b o = 3 then 3 ≤ u8 b (o + 2) && u8 b (o + 2) ≤ 16 else u8 b (o + 2) = 0
  fieldZ b 0 1 1 64 ++ fieldZ b 1 1 1 96 ++ fieldR b 2 1 0 8 ++ rangeIn (!shaped || u8 b 1 = (a.thr.map fun t => kindVars t.kind forces).sum) 1 ++ fieldZ b 3 1 1 63
    ++ fieldR b 4 2 0 256 ++ fieldZ b 7 1 1 255 ++ fieldZ b 8 1 1 255 ++ fieldZ b 9 1 1 255 ++ fieldZ b 0x0A 2 10 1000
    ++ rangeIn (u16 b 0x0A < imgC k) 0x0A ++ fieldZ b 0x0C 2 1 65535 ++ fieldR b 0x0E 1 0 8 ++ fieldR b 0x0F 1 0 16
    ++ (eachOf 6 fun d => if bit (u8 b 6) d && d < forces then realPos b (0x10 + 4 * d) else []) ++ (eachOf 3 fun i => realPos b (0x28 + 4 * i))
    ++ rsvd b 0x34 12 ++ (eachOf 12 fun i => realPos b (64 + 4 * i)) ++ ((ot.zip a.thr).flatMap fun x => valThr k b x.2 x.1)
    ++ (eachOf (u8 b 0x0E) fun i =>
      let o := os + 20 * i
      rangeIn (match itemComp k (u8 b o) (u8 b (o + 1)) with
        | none => true
        | some c => 1 ≤ u8 c 2 && u8 c 2 ≤ 6 && u32 c 4 = one32 && fzero fmt32 (u32 c 8)) o
      ++ realGe0 b (o + 4) ++ fieldR b (o + 0x0C) 1 0 3 ++ (if u8 b (o + 0x0C) = 3 then fieldR b (o + 0x0D) 1 0 63 else unusedIn b (o + 0x0D) 1)
      ++ fieldR b (o + 0x0E) 1 0 1 ++ rsvd b (o + 0x0F) 1 ++ realGe0 b (o + 0x10))
    ++ eachOf (u8 b 0x0F) fun i =>
      let o := og + 8 * i
      fieldR b o 1 0 (u8 b 0x0E - 1) ++ rangeIn (u8 b 0x0E ≠ 0) o ++ rsvd b (o + 3) 1 ++ realGe0 b (o + 4)

/-- The register words of ALLOCATION, with the number of scenarios. -/
def placeAlloc (k : State) : List Place :=
  let b := k.sec 7
  [⟨7, 0, 0, 0x140004, u16 (k.sec 8) 0 % 512 * 2 ^ 23 + u8 b 9 * 2 ^ 15 + u8 b 0x0E % 16 * 256 + u8 b 0x0F % 32⟩,
   ⟨7, 0, 0x0A, 0x140008, u16 b 0x0C * 65536 + u16 b 0x0A % 1024⟩]

/-- The lane is in the GNSS set of the GNSS section (R146). -/
def gnssLane (k : State) (lane : Nat) : Bool := k.hasSec 9 && bit (u64 k.gnsSec 0x5C) lane

/-- The batches of a cycle epoch when every used baseline is searched to CAND_MAX (R154). -/
def gnssBatches (k : State) : Nat :=
  ((List.range 3).filter fun i => bit (u8 k.gnsSec 0x67) i).length * ((u16 k.gnsSec 0x6E + 15) / 16)

/-- The most jobs of a cycle epoch (R146; notes/assumptions/92): PVT, re-solve, velocity, and where baselines are used their batches and the
attitude fit. -/
def gnssJobs (k : State) : Nat := 3 + gnssBatches k + if u8 k.gnsSec 0x67 = 0 then 0 else 1

/-- N of the largest position fit, M of a WLS job, and M of a search, at the worst case (R148, R154). -/
def gnssDims (k : State) : Nat × Nat × Nat :=
  let b := k.gnsSec
  let search := (List.range 3).map fun i => if bit (u8 b 0x67) i then min (gnsCh k 0) (gnsCh k (i + 1)) - 1 else 0
  (4 + b2n (bit (u8 b 1) 1) + b2n (bit (u8 b 1) 2), gnsCh k (u8 b 3), search.foldl max 0)

/-- What one place of a GNSS lane takes: any job may come to it (R146, R233). -/
def gnssShape (k : State) : Nat × Nat × Nat :=
  let (n, m, c) := gnssDims k
  let of (l : List (Nat × Nat × Nat)) (f : Nat × Nat × Nat → Nat) : Nat := (l.map f).foldl max 0
  let l := [lsWords 2 false n m 0] ++ if u8 k.gnsSec 0x67 = 0 then [] else [lsWords 3 false 3 c 16, lsWords 3 true 4 0 0]
  (of l (·.1), of l (·.2.1), of l (·.2.2))

/-- The most SOLV clocks from the dispatch of the PVT to the end of the last job of an epoch (R146, R251): PVT and re-solve follow one another,
velocity and batches fill the lanes, and the attitude fit ends the epoch. -/
def gnssClocks (k : State) : Nat :=
  let (n, m, c) := gnssDims k
  let it := u8 k.gnsSec 0x64
  let lanes := ((List.range 64).filter (gnssLane k)).length
  let pvt := jobClocks 2 false n 0 m 0 it
  let each := max (jobClocks 2 false 4 0 m 0 it) (if gnssBatches k = 0 then 0 else jobClocks 3 false 3 0 c 16 16)
  2 * pvt + (1 + gnssBatches k + lanes - 1) / max 1 lanes * each + if u8 k.gnsSec 0x67 = 0 then 0 else jobClocks 3 true 4 0 0 0 8

/-- The jobs of a lane in job-table order with what they take of its memory (R233, R234): data, iterate, workspace. Lanes 2 and 3 may
take either primary job; imported jobs take their bounds (R433). A GNSS lane has a place for every job of an epoch, up to 64, and 64 where
reference nodes send jobs too (notes/assumptions/92). -/
def laneShapes (k : State) (lane : Nat) : List (Nat × Nat × Nat) :=
  let a := k.alloc?
  let per := u32 (k.sec 1) 0
  let qp (e : LSet) (embed : Bool) : Nat × Nat × Nat :=
    let (n, p, m) := worstShape a (formOf (ksOf k) a.rateH (min lane (if lane < 4 then 1 else 4))) per e
    qpWords n p m embed
  if 4 ≤ lane && gnssLane k lane then
    List.replicate (if (peerList k).any (fun x => x.2.1 = 3) then 64 else min 64 (gnssJobs k)) (gnssShape k)
  else if !k.hasSec 7 then []
  else if lane < 4 then [qp noLoss true]
  else
    let scens := k.scens
    let own := ((List.range scens.length).zip scens).filterMap fun x =>
      if x.2.lane = lane && (serverOf k x.1).isNone then some (x.2.order, qp (effSet a x.2.lost) false) else none
    let imps := (importList k).filterMap fun i => if i.lane = lane then some (i.order, qpWords i.nMax i.pMax i.mMax false) else none
    ((own ++ imps).mergeSort fun x y => x.1 ≤ y.1).map (·.2)

/-- References, conflicts and capacity of ALLOCATION (R56, R199, R202, R206, R215). -/
def crossAlloc (k : State) : Fails :=
  let b := k.sec 7
  let a := k.alloc?
  let forces := a.forces
  let (ot, os, og, _) := allocParts b forces
  let per := u32 (k.sec 1) 0
  let ks := ksOf k
  let shapes := [0, 1].map (fun i => worstShape a (formOf ks a.rateH i) per noLoss)
    ++ k.scens.map fun x => worstShape a (formOf ks a.rateH 4) per (effSet a x.lost)
  let pins := pinEnts (k.sec 13)
  must (forces + a.neq ≤ 8) 2 0x0119 ++ must (shapes.all fun x => x.1 ≤ 96) 1 0x0119 ++ must (shapes.all fun x => x.2.2 ≤ 256) 4 0x0119
    ++ must ([0, 1].all fun i => laneUse (laneShapes k i) ≤ 24576) 0 0x0119
    ++ ((ot.zip a.thr).flatMap fun (o, t) =>
      must (match t.sectors with
        | [x, y] => !sectorsClash x y
        | _ => true) (o + 0x34) 0x0118
      ++ must (t.safFn < 2 ^ u8 (k.sec 14) 0) (o + 0x40) 0x0117)
    ++ (eachOf a.sects.length fun i =>
      let o := os + 20 * i
      must (itemComp k (u8 b o) (u8 b (o + 1))).isSome o 0x0117 ++ must (itemComp k (u8 b (o + 2)) (u8 b (o + 3))).isSome (o + 2) 0x0117
        ++ must (u8 b (o + 0x0C) ≠ 3 || pins.any fun e => e.pin = u8 b (o + 0x0D) && e.func = 9) (o + 0x0D) 0x0117)
    ++ eachOf a.gens.length fun i => let o := og + 8 * i; must (itemComp k (u8 b (o + 1)) (u8 b (o + 2))).isSome (o + 1) 0x0117

/-- Lanes, slots and capacity of GNSS (R56, R146, R151, R157, R234): a set of lanes ends the worst-case jobs of an epoch between JOB_OFS and
JOB_DL. -/
def crossGnss (k : State) : Fails :=
  let b := k.sec 9
  let lanes := u64 b 0x5C
  let slotKind (o kind : Nat) : Fails := must (((slotEntry (k.sec 3) (u8 b o)).map fun e => u8 e 1) = some kind) o 0x0117
  must (lanes < 2 ^ k.lanes) 0x5C 0x0111 ++ must ((List.range 64).all fun i => !bit lanes i || (laneOrders k i).isEmpty) 0x5C 0x0118
    ++ slotKind 0x65 5 ++ (if u8 b 0x67 = 0 then [] else slotKind 0x66 6)
    ++ (eachOf 3 fun i => must (!bit (u8 b 0x67) i || (0 < u8 b 0x18 && 0 < u8 b (0x19 + i))) 0x67 0x0117)
    ++ must (lanes = 0 || (List.range 64).all fun i => !bit lanes i || laneUse (laneShapes k i) ≤ 24576) 0x5C 0x0119
    ++ must (lanes = 0 || gnssJobs k ≤ 64 * ((List.range 64).filter (bit lanes)).length) 0x5C 0x0119
    ++ must (lanes = 0 || gnssClocks k ≤ 1200 * (u32 b 0x58 - u32 b 0x54)) 0x58 0x0119

/-! ### SCENARIOS (R210, R211) -/

/-- SCENARIOS. -/
def valScens (k : State) : Fails :=
  let b := k.sec 8
  let a := k.alloc?
  fieldZ b 0 2 1 256 ++ rsvd b 2 2 ++ ((List.range (u16 b 0)).zip k.scens).flatMap fun (i, x) =>
    let o := 4 + 20 * i
    let shape := worstShape a (formOf (ksOf k) a.rateH 4) (u32 (k.sec 1) 0) (effSet a x.lost)
    must (!k.hasSec 7 || shape.1 ≠ 0) o zeroField
      ++ (if i = 0 then unusedIn b o 8 ++ unusedIn b (o + 8) 1 ++ rangeIn (!x.cond) (o + 9) ++ unusedIn b (o + 0x0A) 2 else [])
      ++ bitsIn b (o + 9) 1 3 ++ rangeIn (!(x.ca && x.cond)) (o + 9) ++ fieldR b (o + 0x0C) 1 4 63
      ++ (if x.cond then fieldR b (o + 0x0F) 1 0 95 ++ finIn b (o + 0x10) else unusedIn b (o + 0x0F) 1 ++ rangeIn (fzero fmt32 x.pwrAdd) (o + 0x10))

/-- The scenario problems that the device solves in a cycle: its own but those it exports, and those it imports (R56, R433). -/
def scenProblems (k : State) : Nat :=
  ((List.range k.scens.length).filter fun i => (serverOf k i).isNone).length + (importList k).length

/-- References, conflicts and capacity of SCENARIOS (R56, R206, R210, R234); a lane of an exported scenario is its server's (R433). -/
def crossScens (k : State) : Fails :=
  let scens := k.scens
  let a := k.alloc?
  let eff (x : Scen) : LSet := effSet a x.lost
  let used (x : Scen) : LaneMap × Bool := let sh := laneShapes k x.lane; (laneMapOf sh, laneUse sh ≤ 24576 && sh.length ≤ 64)
  must (scenProblems k ≤ 256) 0 0x0119 ++ ((List.range scens.length).zip scens).flatMap fun (i, x) =>
    let o := 4 + 20 * i
    let own := (serverOf k i).isNone
    let same (j : Nat) (y : Scen) : Bool := y.lane = x.lane && y.order = x.order && (serverOf k j = serverOf k i)
    must (x.lost.thr < 2 ^ a.thr.length) o 0x0117 ++ must (x.lost.sect < 2 ^ a.sects.length) (o + 8) 0x0117
      ++ must (x.lost.gen < 2 ^ a.gens.length) (o + 0x0A) 0x0117
      ++ must (!x.cond || scens.any fun y => !y.cond && eff y = eff x) (o + 9) 0x0117
      ++ must (!own || x.lane < k.lanes) (o + 0x0C) 0x0111 ++ must (!own || (used x).2) (o + 0x0C) 0x0119
      ++ must (!(((List.range i).zip scens).any fun y => same y.1 y.2)) (o + 0x0D) 0x0118
      ++ must (x.cover = i || (match scens[x.cover]? with
        | some y => (eff y).contains (eff x)
        | none => false)) (o + 0x0E) 0x0117
      ++ must (!x.cond || (x.cmp / 2 < nFlt k)) (o + 0x0F) 0x0117

end Sys2Proof.Machine
end

