-- ==== Sys2Proof/Machine/ImgCfg.lean ====
section
/-! DEFINITION. The loader's checks of the sections SAFETY, CASCADE, RECORDER, INTERFACES and SECURITY_POLICY (R53, R285, R286, R392, R429,
R433, R443, R482, R506). -/

namespace Sys2Proof.Machine

open Sys2Proof

/-! ### Signature blocks (R52, R69, R481) -/

/-- The octets "ESIG". -/
def esig : List Byte := [0x45, 0x53, 0x49, 0x47]

/-- The key of a slot that may verify: neither empty nor revoked, and of a purpose. -/
def slotKey (s : State) (n purpose : Nat) : Option (List Byte) :=
  match s.sec_.slots[n]? with
  | some k => if k.purpose = purpose && !k.revoked then some k.key else none
  | none => none

/-- The signature block at offset `o` over the octets before it, by a slot of a purpose; `bad` is the code of a failed signature. -/
def sigBlock (s : State) (b : List Byte) (o purpose bad : Nat) : Fails :=
  rsvd b (o + 8) 8 ++ rsvd b (o + 112) 16 ++ match slotKey s (u32 b (o + 4)) purpose with
    | none => [(o + 4, 0x0105)]
    | some key => must (slice b o 4 = esig && Config.ecdsaVerify key (b.take o) (slice b (o + 16) 96)) o bad

/-! ### SAFETY (R285, R286) -/

/-- The pairs that the function entry at offset `o` names. -/
def fnEntPairs (b : List Byte) (o : Nat) : List Nat :=
  let typ := u8 b o
  if typ = 3 || (typ = 2 && bit (u8 b (o + 4)) 1) then [u8 b (o + 2), u8 b (o + 3)] else [u8 b (o + 2)]

/-- The function entry at offset `o`. -/
def valFn (b : List Byte) (o : Nat) : Fails :=
  let typ := u8 b o
  let fl := u8 b (o + 4)
  let tpa := u8 b (o + 0x0C)
  let tpb := u8 b (o + 0x0D)
  let stp (v : Nat) : Bool := v = 0 || bit (u8 b 1) (v - 1)
  fieldZ b o 1 1 4 ++ fieldR b (o + 1) 1 0 (if typ = 3 then 0 else 1) ++ fieldR b (o + 2) 1 0 7
    ++ (if typ = 3 || (typ = 2 && bit fl 1) then fieldR b (o + 3) 1 0 7 else rangeIn (u8 b (o + 3) = 0xFF) (o + 3))
    ++ bitsIn b (o + 4) 1 7 ++ rangeIn (!(bit fl 0 && (typ = 1 || typ = 3)) && !(bit fl 1 && typ ≠ 2)) (o + 4) ++ rsvd b (o + 5) 1
    ++ fieldZ b (o + 6) 2 10 2000 ++ fieldZ b (o + 8) 2 500 20000
    ++ rangeIn ((tpa = 0 && tpb = 0) || u16 b 4 + 250 < u16 b (o + 8)) (o + 8)
    ++ (if u8 b (o + 1) = 1 then fieldZ b (o + 0x0A) 2 1 30000 else unusedIn b (o + 0x0A) 2)
    ++ fieldR b (o + 0x0C) 1 0 2 ++ rangeIn (stp tpa) (o + 0x0C) ++ fieldR b (o + 0x0D) 1 0 2 ++ rangeIn (stp tpb && (tpa = 0 || tpa ≠ tpb)) (o + 0x0D)
    ++ bitsIn b (o + 0x0E) 1 3 ++ rsvd b (o + 0x0F) 1

/-- SAFETY. -/
def valSafety (k : State) : Fails :=
  let b := k.sec 14
  let n := u8 b 0
  let test (o lo hi : Nat) : Fails := if u8 b 1 = 0 then unusedIn b o 2 else fieldZ b o 2 lo hi
  fieldZ b 0 1 1 8 ++ bitsIn b 1 1 3 ++ test 2 4 1000 ++ test 4 100 1000 ++ rangeIn (u16 b 4 ≤ u16 b 2 * 250) 4
    ++ bitsIn b 6 1 0x8F ++ (if bit (u8 b 6) 7 then [] else unusedIn b 6 1) ++ bitsIn b 7 1 0x0F
    ++ rangeIn ((slice b 8 4).all fun x => x.toNat < 2 ^ n) 8 ++ rsvd b 0x0C 20 ++ (eachOf n fun f => valFn b (32 + 16 * f))
    ++ sigBlock k b (32 + 16 * n) 3 0x0110

/-- Conflicts of SAFETY, and the reset ball that some functions need (R286). -/
def crossSafety (k : State) : Fails :=
  let b := k.sec 14
  let n := u8 b 0
  let ball := u8 b 6
  let needs (f : Nat) : Bool := u8 b (32 + 16 * f) = 1 || !bit (u8 b (36 + 16 * f)) 0
  must (bit ball 7 || !(List.range n).any needs) 6 0x010A
    ++ eachOf n fun f =>
      let o := 32 + 16 * f
      let mine := fnEntPairs b o
      let before := (List.range f).flatMap fun g => fnEntPairs b (32 + 16 * g)
      ((List.range mine.length).zip mine).flatMap fun (i, p) =>
        must (!before.contains p && !(mine.take i).contains p && !(bit ball 7 && ball % 16 / 2 = p)) (o + 2 + i) 0x0118

/-! ### CASCADE (R392, R429, R433) -/

/-- The octets of a CASCADE section. -/
def cascLen (b : List Byte) : Nat := 64 + 4 * u16 b 0x1C + 4 * u16 b 0x1E + 12 * u16 b 0x20

/-- Offsets of the export and the import entries. -/
def cascParts (b : List Byte) : Nat × Nat := (64 + 4 * u16 b 0x1C, 64 + 4 * u16 b 0x1C + 4 * u16 b 0x1E)

/-- CASCADE. -/
def valCasc (k : State) : Fails :=
  let b := k.casc
  let role := u8 b 0
  let fl := u8 b 1
  let pairs := bit fl 0
  let (oe, oi) := cascParts b
  let group := bit (u8 b 0x0A) 1 && role ≠ 1
  fieldR b 0 1 0 5 ++ rangeIn (role ≠ 0 || u16 b 0x1C = 0) 0 ++ bitsIn b 1 1 7 ++ bitsIn b 2 2 0x3FFF
    ++ rangeIn (if role = 1 then u16 b 4 = u16 b 2 else role ≠ 0 || u16 b 4 = 0x3FFF) 4
    ++ rangeIn (if pairs then u16 b 6 ≠ u16 b 2 else role = 5 || u16 b 6 = 0x3FFF) 6
    ++ (if group then fieldZ b 0x0B 1 1 2 else unusedIn b 0x0B 1)
    ++ (if pairs then fieldZ b 0x0C 2 1 65535 ++ rangeIn (u16 b 0x0C ≤ u32 (k.sec 2) 20) 0x0C ++ fieldZ b 0x0E 1 1 255 else unusedIn b 0x0C 3)
    ++ fieldZ b 0x0F 1 2 255 ++ fieldZ b 0x12 2 1 10000 ++ rangeIn (role = 3 || u16 b 0x14 = 0x3FFF) 0x14
    ++ fieldR b 0x16 1 0 (if bit fl 1 then 3 else 0) ++ fieldZ b 0x17 1 1 255 ++ fieldR b 0x1C 2 0 16383 ++ fieldR b 0x1E 2 0 256
    ++ fieldR b 0x20 2 0 256 ++ rsvd b 0x22 30
    ++ (eachOf (u16 b 0x1C) fun i => fieldR b (66 + 4 * i) 1 0 5 ++ fieldR b (67 + 4 * i) 1 0 2)
    ++ (eachOf (u16 b 0x1E) fun i => rsvd b (oe + 4 * i + 1) 1)
    ++ eachOf (u16 b 0x20) fun i => let o := oi + 12 * i; fieldR b (o + 3) 1 4 63 ++ rsvd b (o + 9) 1 ++ fieldZ b (o + 10) 2 1 65535

/-- The register words of CASCADE. -/
def placeCasc (k : State) : List Place :=
  let b := k.casc
  let fl := u8 b 1
  [⟨15, 0, 2, 0x280000, u16 b 2 % 2 ^ 14⟩,
   ⟨15, 0, 0, 0x28000C, u8 b 0 % 8 * 2 ^ 29 + b2n (bit fl 0) * 2 ^ 28 + b2n (bit fl 1) * 2 ^ 27 + b2n (bit fl 2) * 2 ^ 26
      + u8 b 0x0A % 8 * 2 ^ 23 + u8 b 0x0F * 256 + u8 b 0x17⟩,
   ⟨15, 0, 4, 0x280010, u16 b 0x12 * 65536 + u16 b 4 % 2 ^ 14⟩, ⟨15, 0, 6, 0x270000, u16 b 6 % 2 ^ 14⟩,
   ⟨15, 0, 0x0C, 0x27000C, u16 b 0x0C * 65536 + u8 b 0x0E * 256⟩, ⟨15, 0, 8, 0x270010, u16 b 0x10 * 65536 + u16 b 8 % 2 ^ 14⟩]

/-- Role, variant, references and lanes of CASCADE (R56, R58, R429, R433). -/
def crossCasc (k : State) : Fails :=
  let b := k.casc
  let role := u8 b 0
  let purpose := u8 b 0x0A
  let peers := (peerList k).map (·.1)
  let (oe, oi) := cascParts b
  let nscen := k.scens.length
  let exps := exportList k
  let imps := importList k
  must ((role = 1) = k.flag GLB_STRAP_MASTER_EN) 0 0x0113 ++ must (scenProblems k ≤ 256) 0x20 0x0119
    ++ must (match role with
      | 3 => k.isNode && k.hasGnss
      | 4 => k.isNode && !k.hasGnss
      | 0 => true
      | _ => !k.isNode) 0 0x0111
    ++ must (!k.isNode || (!bit purpose 1 && !bit purpose 2 && !(bit purpose 0 && role = 1))) 0x0A 0x0111
    ++ (((List.range exps.length).zip exps).flatMap fun (i, scen, srv) =>
      must (scen < nscen) (oe + 4 * i) 0x0117 ++ must (!((exps.take i).any fun e => e.1 = scen)) (oe + 4 * i) 0x0118
        ++ must (peers.contains srv) (oe + 4 * i + 2) 0x0117)
    ++ ((List.range imps.length).zip imps).flatMap fun (i, x) =>
      let o := oi + 12 * i
      let sh := laneShapes k x.lane
      let own := ((List.range nscen).zip k.scens).any fun y => y.2.lane = x.lane && y.2.order = x.order && (serverOf k y.1).isNone
      must (peers.contains x.src) o 0x0117 ++ must (x.lane < k.lanes) (o + 3) 0x0111
        ++ must (laneUse sh ≤ 24576 && sh.length ≤ 64) (o + 3) 0x0119
        ++ must (!own && !((imps.take i).any fun y => y.lane = x.lane && y.order = x.order)) (o + 4) 0x0118

/-! ### RECORDER (R506, R507) -/

/-- The octets of a RECORDER section. -/
def recLen (b : List Byte) : Nat := 8 + 16 * u8 b 0 + 4 * u8 b 1

/-- RECORDER. -/
def valRec (k : State) : Fails :=
  let b := k.sec 16
  let src (o : Nat) : Fails :=
    fieldZ b o 1 1 11 ++ rsvd b (o + 1) 1 ++ (if [1, 2, 10, 11].contains (u8 b o) then unusedIn b (o + 2) 2 else [])
  fieldR b 0 1 0 64 ++ fieldR b 1 1 0 128 ++ rsvd b 2 6
    ++ (eachOf (u8 b 0) fun i =>
      let o := 8 + 16 * i
      src o ++ fieldZ b (o + 4) 2 8 256 ++ rsvd b (o + 6) 2 ++ finIn b (o + 8)
        ++ rangeIn (ffinite fmt32 (u32 b (o + 12)) && lt32 (u32 b (o + 8)) (u32 b (o + 12))) (o + 12))
    ++ eachOf (u8 b 1) fun i => src (8 + 16 * u8 b 0 + 4 * i)

/-- The register words of RECORDER. -/
def placeRec (k : State) : List Place :=
  let b := k.sec 16
  let ot := 8 + 16 * u8 b 0
  ⟨16, 0, 0, 0x29000C, u8 b 1 * 256 + u8 b 0⟩ ::
    ((List.range (min 64 (u8 b 0))).flatMap fun i =>
      let o := 8 + 16 * i
      [⟨16, 0, o, 0x291000 + 32 * i, u8 b o * 2 ^ 24 + u16 b (o + 2) * 256 + (u16 b (o + 4) - 1) % 256⟩, ⟨16, 0, o + 8, 0x291004 + 32 * i, u32 b (o + 8)⟩,
       ⟨16, 0, o + 12, 0x291008 + 32 * i, u32 b (o + 12)⟩])
    ++ (List.range (min 128 (u8 b 1))).map fun i => let o := ot + 4 * i; ⟨16, 0, o, 0x292000 + 64 * i, u8 b o * 2 ^ 24 + u16 b (o + 2) * 256⟩

/-- The source and argument of an instrument name something defined (R506). -/
def argOk (k : State) (src arg : Nat) : Bool :=
  match src with
  | 3 => arg < u8 (k.sec 7) 0
  | 4 => arg % 256 < (laneOrders k (arg / 256)).length || (arg / 256 < 4 && arg % 256 = 0 && k.hasSec 7)
  | 5 => (2 ≤ arg && arg ≤ 7) || arg = 9
  | 6 => k.hasSec 9 && arg < ((List.range 4).map fun a => u8 (k.sec 9) (0x18 + a)).sum
  | 7 => arg < u8 (k.sec 7) 0x0E
  | 8 => match slotEntry (k.sec 3) (arg / 4) with
    | none => false
    | some e => arg % 4 < slotNcomp e
  | 9 => arg < nFlt k
  | _ => true

/-- References of RECORDER. -/
def crossRec (k : State) : Fails :=
  let b := k.sec 16
  let chk (o : Nat) : Fails := must (argOk k (u8 b o) (u16 b (o + 2))) (o + 2) 0x0117
  (eachOf (u8 b 0) fun i => chk (8 + 16 * i)) ++ eachOf (u8 b 1) fun i => chk (8 + 16 * u8 b 0 + 4 * i)

/-! ### INTERFACES (R442, R443) -/

/-- The octets of an INTERFACES section. -/
def ifLen (b : List Byte) : Nat := 4 + 8 * u16 b 0

/-- The minor versions that stepping B1 implements of a major version of an interface (R442). -/
def implMinors (iface major : Nat) : Option (Nat × Nat) :=
  match iface, major with
  | 1, 2 => some (0, 2)
  | 1, 1 => some (0, 3)
  | 2, 4 => some (0, 1)
  | 3, 1 => some (0, 0)
  | 3, 2 => some (0, 0)
  | 4, 3 => some (0, 1)
  | 5, 1 => some (0, 1)
  | 5, 5 => some (0, 0)
  | _, _ => none

/-- INTERFACES. -/
def valIface (k : State) : Fails :=
  let b := k.sec 17
  fieldR b 0 2 0 64 ++ rangeIn (!(ifaceOffers k 2 0).isEmpty) 0 ++ rsvd b 2 2 ++ eachOf (u16 b 0) fun i =>
    let o := 4 + 8 * i
    let iface := u8 b o
    fieldZ b o 1 1 5 ++ fieldR b (o + 1) 1 0 (if iface = 3 then 3 else if iface = 5 then 7 else 0)
      ++ (match implMinors iface (u8 b (o + 2)) with
        | none => [(o + 2, rangeBad)]
        | some (lo, hi) => fieldR b (o + 3) 1 lo hi ++ fieldR b (o + 4) 1 lo hi ++ rangeIn (u8 b (o + 3) ≤ u8 b (o + 4)) (o + 3))
      ++ rsvd b (o + 5) 1 ++ (if iface = 5 && u8 b (o + 2) = 1 then fieldR b (o + 6) 2 0 0x7FE else unusedIn b (o + 6) 2)

/-- Conflicts of INTERFACES. -/
def crossIface (k : State) : Fails :=
  let b := k.sec 17
  eachOf (u16 b 0) fun i => must ((List.range i).all fun j => slice b (4 + 8 * j) 3 ≠ slice b (4 + 8 * i) 3) (4 + 8 * i) 0x0118

/-! ### SECURITY_POLICY (R482) -/

/-- SECURITY_POLICY. -/
def valPolicy (k : State) : Fails :=
  let b := k.sec 18
  let hc := bit (u8 b 0) 6
  let f (o n lo hi : Nat) : Fails := if hc then fieldZ b o n lo hi else unusedIn b o n
  bitsIn b 0 1 0x7F ++ fieldR b 1 1 0 2 ++ bitsIn b 2 1 0x0F ++ f 2 1 1 255 ++ f 3 1 1 4 ++ f 4 2 1 3600 ++ f 6 1 1 255 ++ rsvd b 7 1
    ++ f 8 2 1 3600 ++ rsvd b 0x0A 22

/-- The register word of SECURITY_POLICY. -/
def placePolicy (k : State) : List Place :=
  let b := k.sec 18
  [⟨18, 0, 0, 0x3000C, u8 b 0 * 2 ^ 24 + u8 b 1 * 65536 + u8 b 2 % 16 * 4096 + u8 b 3 % 8⟩]

end Sys2Proof.Machine
end

