-- ==== Sys2Proof/Machine/ImgLoad.lean ====
section
/-! DEFINITION. The loader's phases 1 to 5 over a whole image (R48 to R59, R69 to R73, R80, R564): header, table, decryption, sections and
what they refer to. The first phase with a failure names the rejection, by its failure at the lowest offset. -/

namespace Sys2Proof.Machine

open Sys2Proof

/-- A rejection (R80): the phase that found it, its IMG code, the image offset, and the section index or 0xFFFF. -/
structure Reject where
  phase : Nat
  code : Nat
  off : Nat
  sect : Nat
deriving DecidableEq, Repr

/-- An entry of the section table (R50, R73): its place in the image, and its fields. -/
structure SecEnt where
  base : Nat
  typ : Nat
  inst : Nat
  flags : Nat
  ofs : Nat
  len : Nat
deriving DecidableEq, Repr

/-- The failure at the lowest offset, the first listed where several share it. -/
def lowest (phase : Nat) (l : List (Nat × Nat × Nat)) : Option Reject :=
  (l.foldl (fun (a : Option (Nat × Nat × Nat)) x =>
    match a with
    | none => some x
    | some y => if x.1 < y.1 then some x else a) none).map fun x => ⟨phase, x.2.1, x.1, x.2.2⟩

/-- Failures outside sections. -/
def outside (f : Fails) : List (Nat × Nat × Nat) := f.map fun x => (x.1, x.2, 0xFFFF)

/-- The image is version 2.x (R72). -/
def imgV2 (b : List Byte) : Bool := u16 b 6 = 2

/-- Octets of a table entry. -/
def entLen (b : List Byte) : Nat := if imgV2 b then 16 else 48

/-- The entries of the section table. -/
def secEnts (b : List Byte) : List SecEnt :=
  let t := b.drop (u32 b 0x2C)
  (List.range (u16 b 0x28)).map fun i =>
    let e := slice t (i * entLen b) (entLen b)
    ⟨u32 b 0x2C + i * entLen b, u16 e 0, u8 e 2, u8 e 3, u32 e 4, u32 e 8⟩

/-! ### AUTHENTICATE (R49, R52, R58, R69, R71, R72) -/

/-- The roles of REQ_ROLE that the variant can take: bits of R49 (R1). -/
def rolesOf (s : State) : Nat := if s.isNode then (if s.hasGnss then 8 else 16) else 7

/-- The minimum SEC_VERSION (R474): the highest-indexed word programmed. -/
def minSecVer (s : State) : Nat := s.sec_.minVer.getLast?.getD 0

/-- Phase 2, on the octets that the source holds. -/
def authFails (s : State) (b : List Byte) : Fails :=
  let len := u32 b 0x0C
  let major := u16 b 6
  let good : Bool := 65536 ≤ len && len ≤ 2 ^ 25 && len ≤ b.length
  must (u32 b 0 = 0x4E464445) 0 0x0101
    ++ must (lifecycle s = 1 || lifecycle s = 2) 0 0x0122
    ++ (if major = 3 then must (u16 b 4 ≤ s.rd IMG_CAPS_MAX_MINOR3) 4 0x0102
        else if major = 2 then must (u16 b 4 ≤ s.rd IMG_CAPS_MAX_MINOR2) 4 0x0102 else [(6, 0x0102)])
    ++ must (u32 b 8 = 128) 8 0x0103 ++ (if len = 0 then [(0x0C, zeroField)] else must good 0x0C 0x0103)
    ++ must (u64 b 0x10 ≠ 0) 0x10 zeroField ++ must (minSecVer s ≤ u32 b 0x18) 0x18 0x0106
    ++ fieldZ b 0x28 2 1 64 ++ rsvd b 0x2A 2 ++ rangeIn ([0, 32, 64].contains (u8 b 0x30)) 0x30 ++ rangeIn ([0, 4].contains (u8 b 0x31)) 0x31
    ++ bitsIn b 0x32 1 0x1F ++ rsvd b 0x33 1 ++ bitsIn b 0x34 2 0xFF ++ rsvd b 0x36 74
    ++ if good then sigBlock s (b.take len) (len - 128) 2 0x0104 else []

/-! ### DECRYPT (R50, R51, R70, R73) -/

/-- The table lies wholly between the header and the signature block (R49, R51); a TABLE_OFS below 128 or no multiple of 16 is SECTION_TABLE as
well (the model's choice of code, notes/assumptions/83). -/
def tableFits (b : List Byte) : Bool :=
  let o := u32 b 0x2C
  128 ≤ o && o % 16 = 0 && o + u16 b 0x28 * entLen b ≤ u32 b 0x0C - 128

/-- One entry's own fields and its place, among the entries before it; an OFFSET that is no multiple of 64 is SECTION_TABLE (the model's choice
of code, notes/assumptions/83). -/
def entFails (b : List Byte) (before : List SecEnt) (e : SecEnt) : Fails :=
  let o := e.base
  let stop := u32 b 0x0C - 128
  let first := u32 b 0x2C + u16 b 0x28 * entLen b
  let key (x : SecEnt) : Nat := x.typ * 256 + x.inst
  let clash (x : SecEnt) : Bool := x.ofs < e.ofs + e.len && e.ofs < x.ofs + x.len
  let w := slice b o (entLen b)
  let here (f : Fails) : Fails := shiftBy o f
  let prev := (before.getLast?.map key).getD 0
  (if before.any fun x => key x = key e then [(o, 0x010B)] else must (before.isEmpty || prev < key e) o 0x0107)
    ++ must (e.ofs % 64 = 0 && first ≤ e.ofs && e.ofs + e.len ≤ stop && !before.any clash) (o + 4) 0x0107
    ++ must (e.len ≠ 0) (o + 8) zeroField
    ++ here (bitsIn w 3 1 1)
    ++ if imgV2 b then here (rangeIn (!bit e.flags 0) 3 ++ rsvd w 0x0C 4)
       else here ((if bit e.flags 0 then [] else unusedIn w 0x0C 12 ++ unusedIn w 0x18 16)
         ++ (if u16 w 0x28 = 0 then [(0x28, zeroField)] else must (u16 w 0x28 = 1) 0x28 0x010C) ++ rsvd w 0x2A 6)

/-- The first octet that is not 0 between `a` and `z`. -/
def gapFail (b : List Byte) (a z : Nat) : Fails :=
  match (slice b a (z - a)).findIdx? fun x => x ≠ 0 with
  | some k => [(a + k, 0x0107)]
  | none => []

/-- The octets between one section and the next are 0 (R51). -/
def gapFails (b : List Byte) (es : List SecEnt) : Fails :=
  let l := es.mergeSort fun x y => x.ofs ≤ y.ofs
  (l.zip (l.drop 1)).flatMap fun (x, y) => gapFail b (x.ofs + x.len) y.ofs

/-- The plaintext of a section (R70). -/
def plainOf (s : State) (b : List Byte) (e : SecEnt) : Option (List Byte) :=
  let w := slice b e.base 48
  let d := slice b e.ofs e.len
  if bit e.flags 0 && !imgV2 b then
    (Config.unwrap Config.keyWrap s.sec_.imgKey).bind fun k => Config.gcmOpen k (slice w 0x0C 12) (w.take 0x18) d (slice w 0x18 16)
  else some d

/-- Phase 3. -/
def tableFails (s : State) (b : List Byte) : List (Nat × Nat × Nat) :=
  if !tableFits b then [(0x2C, 0x0107, 0xFFFF)]
  else
    let es := secEnts b
    let idx := (List.range es.length).zip es
    outside ((idx.flatMap fun (i, e) => entFails b (es.take i) e) ++ gapFails b es)
      ++ idx.filterMap fun (i, e) => if (plainOf s b e).isNone then some (e.ofs, 0x0108, i) else none

/-! ### The candidate -/

/-- A field that the image populates. -/
def isImgField (key : Nat) : Bool := (imgFields (key / 32 * 4)).any fun f => f.lo = key % 32

/-- The register words of TIMING and SCHEDULE. -/
def placeTiming (k : State) : List Place :=
  let b := k.sec 1
  let c := k.sec 2
  [⟨1, 0, 0, 0x50008, u32 b 0 % 2 ^ 21⟩, ⟨1, 0, 4, 0x5000C, u32 b 4 % 2 ^ 21⟩, ⟨1, 0, 8, 0x50010, u32 b 8 % 2 ^ 21⟩, ⟨1, 0, 0x0C, 0x50024, u8 b 0x0C⟩,
   ⟨1, 0, 0x0D, 0x50034, u8 b 0x0D % 64 * 256⟩]
    ++ (List.range 9).flatMap fun i => (List.range 3).map fun j =>
      ⟨2, 0, 12 * i + 4 * j, 0x50110 + 16 * i + 4 * j, u32 c (12 * i + 4 * j) % 2 ^ 21⟩

/-- Every section's register words. -/
def placesOf (k : State) : List Place :=
  let of_ (typ : Nat) (f : State → List Place) : List Place := if k.hasSec typ then f k else []
  placeTiming k ++ of_ 4 placeFilter ++ of_ 5 placeVoting ++ of_ 6 placeOce ++ of_ 7 placeAlloc ++ of_ 9 placeGnss ++ of_ 10 placeTime
    ++ ((List.range 4).flatMap fun p => if k.hasSec 11 p then placeNet k p else [])
    ++ ((List.range 8).flatMap fun c => if k.hasSec 12 c then placeCan k c else [])
    ++ of_ 13 placeField ++ of_ 15 placeCasc ++ of_ 16 placeRec ++ of_ 18 placePolicy

/-- The state with an image's sections and its register values in place of the loaded ones: what the checks and BUILD take. -/
def candidate (s : State) (v2 : Bool) (secs : List Section) : State :=
  let k : State := { s with
    img := { s.img with secs := secs }, regs := skeep (fun key => !isImgField key) s.regs }
  let k := k.wrb IMG_STATUS_V2 v2
  { k with regs := (placesOf k).foldl (fun r p => placeWord r p.reg p.val) k.regs }

/-! ### VALIDATE and CROSS_CHECK (R54 to R59, R564) -/

/-- The octets that a section's layout gives it (R59); none for a type whose layout fixes none. -/
def secLen (k : State) (typ inst : Nat) : Option Nat :=
  let b := k.sec typ inst
  match typ with
  | 1 => some 32
  | 2 => some 108
  | 3 => some (8 + 80 * u16 b 0)
  | 4 => some (fltOffsets b).2
  | 5 => some (64 + 16 * u8 b 0 + 8 * u8 b 1)
  | 6 => let (_, _, _, _, e) := oceParts b; some e
  | 7 => some (allocLen b (oceForces (k.sec 6)))
  | 8 => some (4 + 20 * u16 b 0)
  | 9 => some (gnssLen b)
  | 10 => some 144
  | 11 => some (netLen b)
  | 12 => some (canLen b)
  | 13 => let (_, _, _, e) := fieldParts b; some e
  | 14 => some (160 + 16 * u8 b 0)
  | 15 => some (cascLen b)
  | 16 => some (recLen b)
  | 17 => some (ifLen b)
  | 18 => some 32
  | _ => none

/-- A section's own checks. -/
def secFails (k : State) (typ inst : Nat) : Fails :=
  match typ with
  | 1 => valTiming k
  | 2 => valSchedule k
  | 3 => valIntake k
  | 4 => valFilter k
  | 5 => valVoting k
  | 6 => valOce k
  | 7 => valAlloc k
  | 8 => valScens k
  | 9 => valGnss k
  | 10 => valTime k
  | 11 => valNet k inst
  | 12 => valCan k inst
  | 13 => valField k
  | 14 => valSafety k
  | 15 => valCasc k
  | 16 => valRec k
  | 17 => valIface k
  | 18 => valPolicy k
  | _ => []

/-- What a section refers to, claims and needs. -/
def secCross (k : State) (typ inst : Nat) : Fails :=
  match typ with
  | 3 => crossIntake k
  | 4 => crossFilter k
  | 5 => crossVoting k
  | 6 => crossOce k
  | 7 => crossAlloc k
  | 8 => crossScens k
  | 9 => crossGnss k
  | 10 => crossTime k
  | 11 => crossNet k inst
  | 12 => crossCan k inst
  | 13 => crossField k
  | 14 => crossSafety k
  | 15 => crossCasc k
  | 16 => crossRec k
  | 17 => crossIface k
  | _ => []

/-- The register rules that a section's words keep or break: the first list ranges, the second references, conflicts and capacity. CAN bit
timing is judged whole by its section (R344). -/
def placeFails (k : State) (typ inst : Nat) : Fails × Fails :=
  let ps := (placesOf k).filter fun p => p.typ = typ && p.inst = inst
  let timing (p : Place) : Bool := 0x220000 ≤ p.reg && p.reg < 0x228000 && (p.reg % 4096 = 0x0C || p.reg % 4096 = 0x10)
  let late (c : Nat) : Bool := 0x0117 ≤ c && c ≤ 0x0119
  let all := ps.flatMap fun p =>
    (if p.val &&& imgMask p.reg = p.val then [] else [(p.ofs, 0x010F)]) ++ if timing p then [] else failOf p.ofs (chkReg k k.regs p.reg)
  (all.filter fun x => !late x.2, all.filter fun x => late x.2)

/-- The type is defined for the image's format (R54, R73). -/
def typeKnown (v2 : Bool) (typ : Nat) : Bool := 1 ≤ typ && typ ≤ (if v2 then 15 else 18)

/-- The instance fits the type. -/
def instOk (typ inst : Nat) : Bool := if typ = 11 then inst < 4 else if typ = 12 then inst < 8 else inst = 0

/-- Octets that a section of a type has whatever its counts are. -/
def headLen (typ : Nat) : Nat :=
  match typ with
  | 3 => 8
  | 4 => 4
  | 5 => 64
  | 6 => 64
  | 7 => 112
  | 8 => 4
  | 9 => 256
  | 11 => 64
  | 12 => 32
  | 13 => 8
  | 15 => 64
  | 16 => 8
  | 17 => 4
  | _ => 0

/-- Offsets of the counts and kinds that a section's length follows from; SAFETY's signature lies at the end that its LENGTH gives, so its
length is always checked (notes/assumptions/73). -/
def lenFields (k : State) (typ inst : Nat) : List Nat :=
  let b := k.sec typ inst
  match typ with
  | 3 => [0]
  | 4 => 0 :: ((fltOffsets b).1.map fun o => o + 2)
  | 5 => [0, 1]
  | 6 => [0, 2, 4]
  | 7 => [0, 1, 2, 4, 0x0E, 0x0F] ++ (allocParts b (oceForces (k.sec 6))).1.flatMap fun o => [o, o + 2]
  | 8 => [0]
  | 9 => [0xB4, 0xB5, 0xB6, 0xB7]
  | 11 => [0x0C, 0x0E]
  | 12 => [0x0D, 0x0E]
  | 13 => [0, 1, 2, 3] ++ (fieldParts b).1.map fun o => o + 7
  | 15 => [0x1C, 0x1E, 0x20]
  | 16 => [0, 1]
  | 17 => [0]
  | _ => []

/-- The section's length is the one its layout gives (R59), or its layout gives none, a count or kind in it being itself out of range
(notes/assumptions/73). -/
def lenFits (k : State) (typ inst len : Nat) : Bool :=
  secLen k typ inst = some len
    || (headLen typ ≤ len && (secFails k typ inst).any fun x => (lenFields k typ inst).contains x.1)

/-- The OCE section passes its own checks (R564). -/
def oceGood (k : State) : Bool :=
  k.hasSec 6 && secLen k 6 0 = some (k.sec 6).length && (valOce k).isEmpty && (placeFails k 6 0).1.isEmpty

/-- A section whose checks are made: known, with a fitting instance and length; ALLOCATION and SCENARIOS wait for an OCE section that
passes its own (R564). -/
def examined (k : State) (v2 : Bool) (e : SecEnt) : Bool :=
  typeKnown v2 e.typ && instOk e.typ e.inst && lenFits k e.typ e.inst e.len && (!(e.typ = 7 || e.typ = 8) || oceGood k)

/-- Phase 4. -/
def validateFails (k : State) (v2 : Bool) (es : List SecEnt) : List (Nat × Nat × Nat) :=
  ((List.range es.length).zip es).flatMap fun (i, e) =>
    if !typeKnown v2 e.typ then [(e.base, 0x0109, 0xFFFF)]
    else
      let waits : Bool := (e.typ = 7 || e.typ = 8) && !oceGood k
      outside (must (instOk e.typ e.inst) (e.base + 2) rangeBad)
        ++ outside (must (waits || lenFits k e.typ e.inst e.len) (e.base + 8) rangeBad)
        ++ if examined k v2 e then
            (shiftBy e.ofs (secFails k e.typ e.inst ++ (placeFails k e.typ e.inst).1)).map fun x => (x.1, x.2, i)
          else []

/-- Section types that an image must hold (R54). -/
def required (k : State) (v2 : Bool) : List Nat :=
  [1, 2, 3, 10, 13, 14, 15] ++ (if k.isNode then [] else [5, 6, 7, 8]) ++ if v2 then [] else [17, 18]

/-- The variant lacks what a section type needs (R54). -/
def lacks (k : State) (typ : Nat) : Bool := (k.isNode && 5 ≤ typ && typ ≤ 8) || (!k.hasGnss && typ = 9)

/-- The stepping is below MIN_STEP: letter first, then digit (R58). -/
def stepBelow (k : State) (m : Nat) : Bool :=
  let l := k.rd GLB_VARIANT_STEP_LETTER
  m ≠ 0 && (l < m % 16 || (l = m % 16 && k.rd GLB_VARIANT_STEP_DIGIT < m / 16 % 16))

/-- Octets of the worst-case journal record of a candidate (R371). -/
def recordMax (k : State) : Nat := Config.recordMax (k.img.secs.map (·.data))

/-- Phase 5. -/
def crossFails (k : State) (b : List Byte) (es : List SecEnt) : List (Nat × Nat × Nat) :=
  let v2 := imgV2 b
  let open_ := es.find? fun e => !bit e.flags 0
  let enc : Bool := k.isEval && lifecycle k = 2 && bit (u8 (k.sec 18) 0) 0
  outside (must ((required k v2).all fun t => k.hasSec t) 0x28 0x010A
      ++ must (recordMax k ≤ 65536) 0x28 0x0119
      ++ must (u8 b 0x30 ≤ k.lanes) 0x30 0x0111 ++ must (u8 b 0x31 ≤ k.rd GLB_VARIANT_ANTENNAS) 0x31 0x0111
      ++ must (u8 b 0x32 &&& rolesOf k = u8 b 0x32) 0x32 0x0111 ++ must (!stepBelow k (u16 b 0x34)) 0x34 0x0112
      ++ (match open_ with
        | some e => must (!enc) (e.base + 3) 0x0122
        | none => [])
      ++ es.flatMap fun e => must (!lacks k e.typ) e.base 0x0111)
    ++ ((List.range es.length).zip es).flatMap fun (i, e) =>
      if lacks k e.typ then []
      else (shiftBy e.ofs (secCross k e.typ e.inst ++ (placeFails k e.typ e.inst).2)).map fun x => (x.1, x.2, i)

/-! ### All phases -/

/-- The sections of an image in plaintext. -/
def sectionsOf (s : State) (b : List Byte) : List Section :=
  (secEnts b).map fun e => ⟨e.typ, e.inst, (plainOf s b e).getD []⟩

/-- Phases 2 to 5 over the octets that a source holds: the rejection, or the candidate (R80). -/
def evaluate (s : State) (d : List Byte) : Except Reject State :=
  match lowest 2 (outside (authFails s d)) with
  | some r => .error r
  | none =>
    let b := d.take (u32 d 0x0C)
    match lowest 3 (tableFails s b) with
    | some r => .error r
    | none =>
      let k := candidate s (imgV2 b) (sectionsOf s b)
      match lowest 4 (validateFails k (imgV2 b) (secEnts b)) with
      | some r => .error r
      | none =>
        match lowest 5 (crossFails k b (secEnts b)) with
        | some r => .error r
        | none => .ok k

end Sys2Proof.Machine
end

