-- ==== Sys2Proof/Machine/ImgBuild.lean ====
section
/-! DEFINITION. BUILD: a checked image takes the place of the present structure (R5, R80, R81, R92, R393, R492, R533). -/

namespace Sys2Proof.Machine

open Sys2Proof

/-! ### The evaluated configuration (R492) -/

/-- The lowest condition of R492 that applies; 0 = none. The conditions on an image's policy apply to the loaded image. -/
def evalCond (s : State) : Nat :=
  let f := s.rd SEC_POLICY_FLAGS
  let img := !s.img.secs.isEmpty
  let l : List Bool := [lifecycle s ≠ 2, img && s.flag IMG_STATUS_V2, img && !bit f 0, img && bit f 1, s.flag SEC_STATUS_DEBUG_UNLOCKED,
    img && bit f 2, img && bit f 3, img && bit f 4, img && s.rd SEC_POLICY_HC_WRITE = 2, img && bit f 5, !img]
  match l.findIdx? id with
  | some i => i + 1
  | none => 0

/-- A change from IN to OUT (R492): FIRST, an audit entry, SEC EVAL_EXIT. -/
def evalExit (s : State) (c : Nat) : State :=
  let s := if s.rd SEC_EVAL_STS_FIRST = 0 then s.wr SEC_EVAL_STS_FIRST c else s
  audit (report s 0x1016) 0x1016 c

/-- Follow the evaluated configuration over a change from `s0`; nothing counts before the first BUILD (R492). -/
def evalStep (s0 s : State) : State :=
  let c := evalCond s
  if !s.isEval || !s.sec_.built || c = 0 then s
  else if !s0.sec_.built || evalCond s0 = 0 then evalExit s c else s

/-! ### The register map that the image offers (R533) -/

/-- A settled version is still offered. -/
def mapOffered (s : State) (v : Nat × Nat) : Bool := (ifaceOffers s 2 0).any fun x => x.1 = v.1 && x.2.1 ≤ v.2 && v.2 ≤ x.2.2

/-- HST_MAP_IMPL shows what is offered, and a settlement that is no longer offered ends. -/
def mapBuilt (s : State) : State :=
  let (a, b, c) := ((ifaceOffers s 2 0).head?).getD (0, 0, 0)
  let s := s.wrs [(HST_MAP_IMPL_OFF_MAJOR, a), (HST_MAP_IMPL_OFF_MIN, b), (HST_MAP_IMPL_OFF_MAX, c)]
  let s :=
    if s.flag HST_MAP_SET_SETTLED && !mapOffered s (s.rd HST_MAP_SET_MAJOR, s.rd HST_MAP_SET_MINOR) then
      report (s.wrs [(HST_MAP_SET_SETTLED, 0), (HST_MAP_SET_MAJOR, 0), (HST_MAP_SET_MINOR, 0)]) 0x120A
    else s
  match s.hst.q.settled with
  | some v => if mapOffered s v then s else report { s with hst := { s.hst with q := { s.hst.q with settled := none } } } 0x120A
  | none => s

/-! ### The parts of a structure -/

/-- The words that describe the loaded image (R92): the signed range is all but its signature block. -/
def describe (s : State) (b : List Byte) (src : Nat) : State :=
  let d := Config.sha384 (b.take (b.length - 128))
  let s := s.wrs [(IMG_ID_LO_ID, u32 b 0x10), (IMG_ID_HI_ID, u32 b 0x14), (IMG_FORMAT_MAJOR, u16 b 6), (IMG_FORMAT_MINOR, u16 b 4),
    (IMG_SECVER_VALUE, u32 b 0x18), (IMG_COMPOSER_VALUE, u32 b 0x1C), (IMG_STATUS_STATE, 2), (IMG_STATUS_SRC, src)]
  s.wrs ((List.range 12).map fun i => (IMG_DIGEST_VALUE i, u32 d (4 * i)))

/-- STRUCT_TAG (R393): over the plaintext of every section but CASCADE. -/
def structTag (k : State) : List Byte := (Config.sha384 ((k.img.secs.filter fun x => x.typ ≠ 15).flatMap (·.data))).take 8

/-- Lane `i` of the new structure (R209, R227, R231, R234): its registers, its map and its job table. -/
def buildLane (s : State) (i : Nat) : State :=
  let sh := laneShapes s i
  let gnss : Bool := 4 ≤ i && (gnsLanes s).contains i
  let role := if !s.hasSec 7 && !gnss then 0 else if i < 4 then 1 else if gnss then 3 else if sh.isEmpty then 0 else 2
  let n := if i < 2 then sh.length else if i < 4 then 0 else sh.length
  let m := laneMapOf sh
  let s := s.wrs [(SLV_LANE_STATUS_ROLE i, role), (SLV_LANE_CFG_NJOBS i, n), (SLV_LANE_STATUS_USED i, laneUse sh),
    (SLV_LANE_STATUS_FENCED i, 0)]
  (List.range m.areas.length).foldl (fun s j => lanePut s i (4 * j) [(at_ m.areas j (0, 0)).1]) s

/-- The lanes and allocation (R209, R236): every saved iterate is cleared. -/
def buildLanes (s : State) : State :=
  let s : State := { s with lmem := [], alloc := { AllocSt.reset with maps := (List.range s.lanes).map fun i => laneMapOf (laneShapes s i) } }
  (List.range s.lanes).foldl buildLane ((s.wr SLV_SEL_TIMING_K_S (if s.hasSec 7 then ksOf s else 0)))

/-- The octets of a bank as words. -/
def bankWords (b : List Byte) (o n : Nat) : List Word := (List.range (n / 4)).map fun i => BitVec.ofNat 32 (u32 (b.drop (o + 4 * i)) 0)

/-- The OCE banks (R191, R193): sealed, at generation 0, bank A active. -/
def buildBanks (s : State) : State :=
  let b := s.sec 6
  let (_, _, o, o2, _) := oceParts b
  let z : Nat → Word := fun _ => 0
  let words : Sparse Word := if s.hasSec 6 then sputs z (sputs z [] 0 (bankWords b o (u32 b 0x24))) 16384 (bankWords b o2 (u32 b 0x28)) else []
  let on := b2n (s.hasSec 6)
  { s with banks := words, oce := OceSt.reset }.wrs
    [(OCE_BANK_STS_A_SEALED, on), (OCE_BANK_STS_B_SEALED, on), (OCE_BANK_STS_GEN_A, 0), (OCE_BANK_STS_GEN_B, 0), (OCE_BANK_STS_ACTIVE, 0),
     (OCE_BANK_STS_SWAP_PEND, 0), (OCE_BANK_STS_A_INUSE, 0), (OCE_BANK_STS_B_INUSE, 0), (OCE_BANK_STS_FMT_OFS, 0),
     (OCE_BANK_STS_B_EMPTY, b2n (u32 b 0x28 = 0)), (OCE_BANK_CTRL_HOST_WR, b2n (bit (s.rd SEC_POLICY_FLAGS) 2))]

/-- The time sources of the new structure: none is qualified, and a servo that ran loses its source (R310, R315). -/
def buildTime (s : State) : State :=
  let s := if s.flag TIM_STATUS_SEL_VALID then noSource s else s
  let s := s.tb fun t => { t with srcs := TimSt.reset.srcs, ptp := TimSt.reset.ptp }
  s.wrs ((List.range 4).flatMap fun i => [(TIM_SRC_CFG_QUALIFIED i, 0),
    (NET_STATUS_TIME_PORT i, b2n (s.hasSec 10 && s.hasSec 11 i && s.rd TIM_CFG_TIME_PORT = i))])

/-- The GNSS baseband: entries saved in NAND aid acquisition until a broadcast confirms them (R145); the front-end balls rise (R550). -/
def buildGnss (s : State) : State :=
  let on := gnsOn s
  let store := s.gns.nand.map fun (e : NavEntry) => { e with confirmed := false, inForce := true }
  let s := s.gn fun g => { GnsSt.reset with
    nand := g.nand, lost := g.lost, rateBad := g.rateBad, store := if on then store else [], saveAt := s.tim.cnt + usTicks 300000000 }
  let ants := (List.range 4).foldl (fun m a => setBit m a (on && 0 < gnsCh s a)) 0
  let s := s.wrs ((List.range 4).map fun a => (GNS_ANT_STS_USED a, b2n (bit ants a)))
  gclkMark (antMarks (if on then s.ck fun x => { x with gfeRst := true, gfeEn := x.gfeEn ||| ants } else s))

/-- The Piste ports (R415): enabled when the structure lists a peer. A port that is trained stays so. -/
def buildPorts (s : State) : State :=
  let on := !(peerList s).isEmpty
  let s := (List.range 2).foldl (fun s p =>
    let st := s.rd (PST_PORT_STS_STATE p)
    if on then (if st = 0 then updPst (s.wr (PST_PORT_STS_STATE p) 1) p fun _ => { PstPort.reset with stepAt := s.tim.cnt } else s)
    else updPst ((if 2 ≤ st then linkLoss s p else s).wr (PST_PORT_STS_STATE p) 0) p fun _ => PstPort.reset) s
  let s := s.ps fun x => { PstSt.reset with ports := x.ports, nextId := x.nextId, lastApplied := x.lastApplied }
  let s := s.wrs [(RED_STATUS_PAIRED, 0), (RED_STATUS_PARTNER_OK, 0), (RED_STATUS_ROLE, 0), (PST_STATUS_ACTING_MASTER, 0)]
  pairAgain (s.rs fun r => { RedSt.reset with nandCk := r.nandCk, skips := r.skips, gasp := r.gasp, wakeN := r.wakeN, since := r.since })

/-- The instruments (R506): every bin and tracker starts empty. -/
def buildRec (s : State) : State :=
  let s := s.rc fun r => { r with bins := [], clrHist := 0, clrTrk := 0 }
  (List.range (s.rd REC_CFG_NTRK)).foldl trkClear ((List.range (s.rd REC_CFG_NHIST)).foldl histClear s)

/-- The registers whose items an image defines one by one read 0 for an item that it does not define: intake slots (R94), GNSS channels
(R135). -/
def clearItems (s : State) : State :=
  let gone (key : Nat) : Bool := (0x6D000 ≤ key / 8 && key / 8 < 0x6F000) || (0x181000 ≤ key / 8 && key / 8 < 0x185000)
  { s with regs := skeep (fun key => !gone key) s.regs }

/-- Intake, filters, voting and the field pins, before their cold start at START. -/
def buildIo (s : State) : State :=
  let s := clearItems s
  let s : State := { s with
    flt := FltSt.reset, ref := ⟨[], []⟩, fld := FldSt.reset, can := [],
    net := { s.net with ports := s.net.ports.map fun (x : PortSt) => { portZero with wire := x.wire }, rtcm := [] } }
  let s := s.wrs ((List.range 8).map fun c => (CAN_STATUS_STATE c, 0))
  parkPins (fldCold (fltDerived (s.wr FLT_STATUS_CHANNELS (nFlt s)))) true

/-- No unit is fenced any longer (R384). -/
def clearFences (s : State) : State :=
  s.wrs ((List.range 2).flatMap (fun i => [(ERR_FENCE_LANE_UNIT i, 0), (ERR_FENCE_FLT_UNIT i, 0)])
    ++ (List.range 8).map (fun i => (ERR_FENCE_TRK_UNIT i, 0))
    ++ [(ERR_FENCE_POS_UNIT, 0), (ERR_FENCE_PORT_CAN, 0), (ERR_FENCE_PORT_NET, 0)])

/-- BUILD (R80, R81): the candidate `k` of an image `b` takes the place of the present structure, and every shadow value is discarded. -/
def build (s k : State) (b : List Byte) (src : Nat) : State :=
  let v2 := k.rd IMG_STATUS_V2
  let img : ImgSt := { s.img with secs := k.img.secs, taken := 0, restart := 0, heldGroups := 0, votedGroups := 0 }
  let s1 : State := { s with regs := k.regs, shadow := [], img := img }
  let s1 := (describe s1 b src).wrs [(IMG_STATUS_V2, v2), (JNL_CFG_RECORD_MAX, max 48 (recordMax k)),
    (RED_TAG_LO_VALUE, u32 (structTag k) 0), (RED_TAG_HI_VALUE, u32 (structTag k) 4)]
  let s1 := nandRecords (clearFences (buildIo (buildBanks (buildTime s1))))
  let s1 := buildRec (buildLanes (buildGnss s1))
  let s1 := mapBuilt (closeSess (safConfigure (buildPorts s1)) fun _ => true)
  let s1 := audit (s1.sc fun x => { x with built := true }) (Config.eventCode 2 % 65536)
  reserveBuilt (evalStep s s1)

end Sys2Proof.Machine
end

