-- ==== Sys2Proof/Machine/Img.lean ====
section
/-! DEFINITION. Loads, checks and stores (R74 to R82), and the start of the main die with its search for an image (R465, R551). -/

namespace Sys2Proof.Machine

open Sys2Proof

/-! ### Slots and sources (R75, R76, R79) -/

/-- NAND slot A (1) or B (2). -/
def nandSlot (s : State) (k : Nat) : SlotSt := if k = 1 then s.img.slotA else s.img.slotB

/-- IMG_SLOT_STS brought up to date with the slot records. -/
def slotMarks (s : State) : State :=
  let a := s.img.slotA
  let b := s.img.slotB
  s.wrs [(IMG_SLOT_STS_A_STATE, a.state), (IMG_SLOT_STS_A_TRIED, b2n a.tried), (IMG_SLOT_STS_A_GEN, a.gen),
    (IMG_SLOT_STS_B_STATE, b.state), (IMG_SLOT_STS_B_TRIED, b2n b.tried), (IMG_SLOT_STS_B_GEN, b.gen)]

/-- Write a slot's record. -/
def putSlot (s : State) (k : Nat) (x : SlotSt) : State :=
  slotMarks (if k = 1 then { s with img := { s.img with slotA := x } } else { s with img := { s.img with slotB := x } })

/-- A slot is usable (R76). -/
def slotUsable (x : SlotSt) : Bool := x.state = 1 || (x.state = 2 && !x.tried)

/-- The newer slot (R76): A where neither is newer than the other. -/
def newerSlot (s : State) : Nat := let d := (s.img.slotB.gen + 256 - s.img.slotA.gen) % 256; if 1 ≤ d ∧ d ≤ 127 then 2 else 1

/-- The slot that a STORE writes (R79). -/
def inactiveSlot (s : State) : Nat :=
  if s.loaded && s.rd IMG_STATUS_SRC = 1 then 2
  else if s.loaded && s.rd IMG_STATUS_SRC = 2 then 1
  else 3 - newerSlot s

/-- `n` octets from address `o` of a sparse memory in ascending order; an octet that nothing has written reads 0. -/
def memFrom : Nat → Nat → List Host.Cell → List Byte
  | _, 0, _ => []
  | o, n + 1, [] => 0 :: memFrom (o + 1) n []
  | o, n + 1, c :: cs => if c.1 = o then c.2 :: memFrom (o + 1) n cs else 0 :: memFrom (o + 1) n (c :: cs)

/-- `n` octets of the BAR2 memory from offset `o`. -/
def bar2Bytes (s : State) (o n : Nat) : List Byte := memFrom o n (s.hst.mem.dropWhile fun c => c.1 < o)

/-- The host staging area (R75), up to the length that its header gives. -/
def hostStaged (s : State) : List Byte := bar2Bytes s 0x2000000 (max 128 (min (2 ^ 25) (u32 (bar2Bytes s 0x2000000 128) 0x0C)))

/-- The octets of a source. -/
def sourceData (s : State) (src : Nat) : List Byte :=
  if src = 3 then hostStaged s else if src = 4 then s.img.staged else (nandSlot s src).data

/-- Phases 1 to 5 on a source whose slot was usable at the start (R80): of a NAND slot, the first page that does not read clean, if any, is
reported at its offset (R366). -/
def checkSource (s : State) (src : Nat) (bad : Option Nat) : Except Reject State :=
  match (if src = 1 ∨ src = 2 then bad else none) with
  | some pg => if pg < (nandSlot s src).data.length then .error ⟨1, 0x011A, pg, 0xFFFF⟩ else evaluate s (sourceData s src)
  | none => evaluate s (sourceData s src)

/-! ### Rejections (R78, R80, R490) -/

/-- A rejection is recorded and reported; some are audited (R490). -/
def reject (s : State) (r : Reject) : State :=
  let s := report (s.wrs [(IMG_REJECT_CODE, r.code), (IMG_REJECT_SECTION, r.sect), (IMG_REJECT_OFS_OFFSET, r.off)]) r.code
  if [0x0104, 0x0105, 0x0106, 0x0108, 0x0110, 0x0122].contains r.code then audit s r.code r.sect else s

/-- IMG NO_IMAGE as the rejection of a slot that is not usable (R78). -/
def noImage : Reject := ⟨1, 0x011E, 0, 0xFFFF⟩

/-- The phase that IMG_STATUS shows goes on, as a read finds it: from 1 on in order, up to 6 of a load and 5 of a check, how far at a read
being a free value (R80, notes/assumptions/85). -/
def phaseGo (s : State) : State :=
  let p := s.rd IMG_STATUS_PHASE
  let top := if s.img.job.isSome then 6 else 5
  if p = 0 || top ≤ p then s
  else
    let (x, s) := s.draw
    s.wr IMG_STATUS_PHASE (p + x % (top + 1 - p))

/-- No load runs any longer: IMG_STATUS as it then reads, and the IMG interrupt source (R537). PHASE is 0, or that of a check that still
runs. -/
def endImgJob (s : State) : State :=
  let s : State := { s with img := { s.img with job := none } }
  edgeSrc (phaseGo (s.wrs [(IMG_STATUS_PHASE, b2n s.img.chk.isSome), (IMG_STATUS_STATE, if s.img.secs.isEmpty then 0 else 2)])) 3

/-- No check or store runs any longer. PHASE is 0, or that of a load that still runs. -/
def endChkJob (s : State) : State :=
  let s : State := { s with img := { s.img with chk := none } }
  edgeSrc (s.wrs [(IMG_STATUS_PHASE, if s.img.job.isSome then s.rd IMG_STATUS_PHASE else 0), (IMG_STATUS_CHECK_BUSY, 0)]) 3

/-- A load, check or store runs, from phase 1 on (R80); PHASE shows a load's where both run. -/
def runImgJob (s : State) (j : LoadJob) : State :=
  if j.cmd = 1 then { s with img := { s.img with job := some j } }.wrs [(IMG_STATUS_STATE, 1), (IMG_STATUS_PHASE, 1)]
  else { s with img := { s.img with chk := some j } }.wrs
    [(IMG_STATUS_CHECK_BUSY, 1), (IMG_STATUS_PHASE, if s.img.job.isSome then s.rd IMG_STATUS_PHASE else 1)]

/-! ### Loads (R77, R78, R81) -/

/-- A slot found as TRIAL with TRIED by a load from NAND becomes BAD (R77). -/
def triedBad (s : State) (k : Nat) : State :=
  let x := nandSlot s k
  if x.state = 2 && x.tried then putSlot s k { x with state := 3 } else s

/-- A load from a source starts; TRIED is set before a TRIAL slot is loaded (R77). -/
def loadFrom (s : State) (src : Nat) (boot : Bool) (rest : List Nat) (fallback : Bool) : State :=
  let x := nandSlot s src
  let s := if (src = 1 || src = 2) && x.state = 2 then putSlot s src { x with tried := true } else s
  runImgJob s ⟨1, src, boot, rest, fallback⟩

/-- The search for an image at release (R74, R78). -/
def bootSeek (s : State) : State :=
  let s := slotMarks s
  let b := s.rd GLB_STRAP_BOOT
  if 5 ≤ b then report s 0x011D
  else if 3 ≤ b then s
  else
    let order := if b = 0 then [newerSlot s, 3 - newerSlot s] else [b]
    let s := order.foldl triedBad s
    match order.filter fun k => slotUsable (nandSlot s k) with
    | [] => reject s noImage
    | k :: rest => loadFrom s k true rest false

/-- A LOAD command (R81). -/
def loadCmd (s : State) (src : Nat) : State :=
  if !s.idle || s.rd IMG_STATUS_STATE = 1 || s.flag IMG_STATUS_CHECK_BUSY then refuse s 0x0120
  else
    let nand : Bool := src = 1 || src = 2
    let s := if nand then triedBad s src else s
    if nand && !slotUsable (nandSlot s src) then reject s noImage else loadFrom s src false [] false

/-- A CHECK or STORE command (R79, R82): in every sequencer state, and while a load runs. -/
def checkCmd (s : State) (cmd src : Nat) : State :=
  if s.flag IMG_STATUS_CHECK_BUSY then refuse s 0x0120
  else if (src = 1 || src = 2) && !slotUsable (nandSlot s src) then reject s noImage
  else runImgJob s ⟨cmd, src, false, [], false⟩

/-- CONFIRM (R77). -/
def confirmCmd (s : State) : State :=
  let src := s.rd IMG_STATUS_SRC
  let x := nandSlot s src
  if s.loaded && (src = 1 || src = 2) && x.state = 2 then putSlot s src { x with state := 1 } else s

/-- ABANDON (R82): a running check ends without a result; nothing is stored. -/
def abandonCmd (s : State) : State := if s.flag IMG_STATUS_CHECK_BUSY then endChkJob s else s

/-- A write of IMG_CTRL. -/
def imgCtrl (s : State) (v : Nat) : State :=
  let src := v / 16 % 8
  let cmd := v % 16
  let s := s.wr IMG_CTRL_SOURCE src
  if cmd = 0 then s
  else if src = 0 || 5 ≤ src || 6 ≤ cmd || (cmd = 3 && src ≠ 3) then refuse s 0x0121
  else match cmd with
    | 1 => loadCmd s src
    | 4 => confirmCmd s
    | 5 => abandonCmd s
    | _ => checkCmd s cmd src

/-- A command of IMG_CTRL by a path. -/
def imgWrite (s : State) (p : Path) (src cmd : Nat) : State := let v := src % 8 * 16 + cmd; hostDo s p 0x40000 v fun s => imgCtrl s v

/-- R81. -/
def execImgLoad (p : Path) (src t : Nat) (s : State) : Host.Outcome State Fault Refusal := done (imgWrite (s.at t) p src 1)
/-- R82. -/
def execImgCheck (p : Path) (src t : Nat) (s : State) : Host.Outcome State Fault Refusal := done (imgWrite (s.at t) p src 2)
/-- R79. -/
def execImgStore (p : Path) (src t : Nat) (s : State) : Host.Outcome State Fault Refusal := done (imgWrite (s.at t) p src 3)
/-- R77. -/
def execImgConfirm (p : Path) (src t : Nat) (s : State) : Host.Outcome State Fault Refusal := done (imgWrite (s.at t) p src 4)
/-- R82. -/
def execImgAbandon (p : Path) (src t : Nat) (s : State) : Host.Outcome State Fault Refusal := done (imgWrite (s.at t) p src 5)

/-! ### Ends (R78 to R82) -/

/-- A load has been rejected (R78): at boot a rejected TRIAL slot becomes BAD, and the other usable slot is tried. -/
def loadRejected (s : State) (j : LoadJob) (r : Reject) : State :=
  let s := reject s r
  if !j.boot || 2 < j.src then s
  else
    let x := nandSlot s j.src
    let s := if s.rd GLB_STRAP_BOOT = 0 && x.state = 2 then putSlot s j.src { x with state := 3 } else s
    match j.rest with
    | [] => report s 0x011E
    | k :: rest => loadFrom s k true rest true

/-- A load ends (R80, R81). -/
def loadEnd (s : State) (bad : Option Nat) : State :=
  match s.img.job with
  | some j =>
    if j.cmd ≠ 1 then s
    else
      let s0 := endImgJob s
      let out := checkSource s0 j.src bad
      let d := sourceData s0 j.src
      match out with
      | .error r => loadRejected s0 j r
      | .ok k =>
        let s := build s0 k (d.take (u32 d 0x0C)) j.src
        if 2 < j.src then s
        else
          let s := s.wrb IMG_STATUS_FALLBACK j.fallback
          if j.fallback then report s 0x011F else s
  | none => s

/-- R80, R81, R366: `bad` is the image offset of the first page of a NAND slot that did not read clean. -/
def execLoadComplete (bad : Option Nat) (t : Nat) (s : State) : Host.Outcome State Fault Refusal := done (loadEnd (s.at t) bad)

/-- A CHECK ends (R82): nothing is built. -/
def checkEnd (s : State) (bad : Option Nat) : State :=
  match s.img.chk with
  | some j =>
    if j.cmd ≠ 2 then s
    else match checkSource s j.src bad with
      | .error r => reject (endChkJob s) r
      | .ok _ => endChkJob s
  | none => s

/-- R82, R366. -/
def execCheckComplete (bad : Option Nat) (t : Nat) (s : State) : Host.Outcome State Fault Refusal := done (checkEnd (s.at t) bad)

/-- A STORE ends (R79): `good` says that NAND has programmed. -/
def storeEnd (s : State) (good : Bool) : State :=
  match s.img.chk with
  | some j =>
    if j.cmd ≠ 3 then s
    else match checkSource s 3 none with
      | .error r => reject (endChkJob s) r
      | .ok _ =>
        let k := inactiveSlot s
        let s := endChkJob s
        if good then
          let d := hostStaged s
          putSlot s k ⟨2, false, ((nandSlot s (3 - k)).gen + 1) % 256, d.take (u32 d 0x0C)⟩
        else report (putSlot s k { nandSlot s k with state := 0 }) 0x011B
  | none => s

/-- R79. -/
def execStoreComplete (good : Bool) (t : Nat) (s : State) : Host.Outcome State Fault Refusal := done (storeEnd (s.at t) good)

/-- R75: no cascade image 10 s after the link has trained. -/
def execSourceTimeout (t : Nat) (s : State) : Host.Outcome State Fault Refusal :=
  let s := s.at t
  done (match s.red.since with
    | some x =>
      if bootTarget s && s.img.job.isNone && !s.img.timedOut && x + usTicks 10000000 ≤ s.tim.cnt then
        report { s with img := { s.img with timedOut := true } } 0x011C
      else s
    | none => s)

/-! ### The main die's release (R465, R491, R501, R551) -/

/-- Step 5 of a start may end (R465): the rails are good, and XB, a fitted XA, PLL-C, PLL-F and PLL-T are each ready, or 100 ms have passed
since the source that the clock comes from started. FRC need not be proven. -/
def mayRelease (s : State) : Bool :=
  let ready (k : Nat) : Bool :=
    let src := if k < 6 then k else pllRef s (k - 6)
    sourceOk s k || s.clk.since.getD src 0 + usTicks 100000 ≤ s.tim.cnt
  !s.clk.released && s.clk.off.isNone && s.clk.rails && (if xaFitted s then [2, 3, 7, 8, 10] else [3, 7, 8, 10]).all ready

/-- R465, R551: the main die leaves reset, samples its straps and seeks an image. The NAND parameter pages give `blocks`, `page`, `block`
and `bad`; `chain` says that the newest NAND audit entry reads clean (R491). -/
def execMainDieRelease (straps : Nat) (solv : Bool) (blocks page block bad : Nat) (chain : Bool) (t : Nat) (s : State) :
    Host.Outcome State Fault Refusal :=
  let s := s.at t
  done (
    if !mayRelease s then s
    else
      let s := nandLayout (dieRelease (nandFresh s blocks page block) straps solv) blocks page block bad
      let s := if chain || s.sec_.nand.isEmpty then s else auditFrom (report s 0x1015) (List.replicate 8 0) 0x1015 0
      bootSeek s)

end Sys2Proof.Machine
end

