-- ==== Sys2Proof/Machine/Sec.lean ====
section
/-! DEFINITION. The security block: its commands (R474 to R480), the lifecycle, debug access (R483, R484), host-channel handshakes and
sessions (R485 to R487), entropy (R489) and the audit seal (R491). -/

namespace Sys2Proof.Machine

open Sys2Proof

/-! ### Identity and requests (R476, R478) -/

/-- DEV_FP: the first 16 octets of SHA-384 over the identity public key (R476). -/
def devFp : List Byte := (Config.sha384 Config.idPub).take 16

/-- SEC_CHALLENGE: the draw in force (R478, R489). -/
def challenge (s : State) : List Byte := Config.random s.sec_.chal 16

/-- Draw a new challenge. -/
def newChallenge (s : State) : State := s.sc fun x => { x with chal := x.draws, draws := x.draws + 1 }

/-- The octets of a request: header, body and signature block, from the request window (R478). -/
def secRequest (s : State) : List Byte := bar2Bytes s 0x10000 (64 + min 32576 (u32 (bar2Bytes s 0x10000 64) 8) + 128)

/-- The body of a request. -/
def secBody (req : List Byte) : List Byte := slice req 64 (u32 req 8)

/-- Write the response window from its start (R478). -/
def respond (s : State) (b : List Byte) : State :=
  { s with hst := { s.hst with mem := sputs (fun _ => (0 : Byte)) s.hst.mem 0x18000 (b.take 32768) } }

/-- The lifecycle states in which a command runs (R479). -/
def cmdStates (c : Nat) : List Nat :=
  match c with
  | 1 => [0, 1, 2]
  | 2 => [0]
  | 6 | 7 => [1]
  | 10 => [0, 1, 2, 3]
  | 3 | 4 | 5 | 8 | 9 | 11 => [1, 2]
  | _ => []

/-- The header is wrong, the command unknown, or its state not listed (R480). -/
def headerBad (s : State) (req : List Byte) : Bool :=
  let zero (o n : Nat) : Bool := (slice req o n).all fun b => b.toNat = 0
  !(u32 req 0 = 0x444D4353 && zero 5 3 && u32 req 8 ≤ 32576 && zero 0x0C 4 && slice req 0x10 16 = devFp && zero 0x30 16
    && (cmdStates (u8 req 4)).contains (lifecycle s))

/-- The signature block of a request verifies by a slot of a purpose (R52, R478, R480). -/
def signedBy (s : State) (req : List Byte) (purpose : Nat) : Bool :=
  (sigBlock s req (64 + u32 req 8) purpose 1).isEmpty

/-! ### OTP writes (R474) -/

/-- Run the OTP writes of a command up to the first that does not read back. -/
def otpWrites (s : State) (ws : List (State → State)) (bad : Option Nat) : State × Nat :=
  match bad with
  | some k => if k < ws.length then ((ws.take k).foldl (fun s w => w s) s, 0x1005) else (ws.foldl (fun s w => w s) s, 0)
  | none => (ws.foldl (fun s w => w s) s, 0)

/-- Program a key slot. -/
def putSlotKey (k : Nat) (e : Nat × List Byte) (s : State) : State :=
  s.sc fun x => { x with slots := put_ x.slots k ⟨0, [], false⟩ ⟨e.1, e.2, false⟩ }

/-- The lowest empty slot; none when all eight are programmed. -/
def emptySlot (s : State) : Option Nat :=
  (List.range 8).find? fun k => (s.sec_.slots.getD k ⟨0, [], false⟩).purpose = 0

/-- Burn one bit of LIFECYCLE (R477). -/
def burnLife (i : Nat) (s : State) : State := s.sc fun x => { x with life := x.life ||| 2 ^ i }

/-- Program the clock fields that still read 0 (R450, R479). -/
def putClock (b : List Byte) (s : State) : State :=
  let put (s : State) (f : Fld) (v : Nat) : State := if s.rd f = 0 then s.wr f v else s
  put (put (put s CLK_OTP_XA_FREQ_KHZ (u16 b 0)) CLK_OTP_XA_START_DLY (u8 b 2)) CLK_OTP_XB_START_DLY (u8 b 3)

/-- A change is reported and audited (R490). -/
def told (s : State) (code detail : Nat) : State := audit (report s code 0 detail) code detail

/-- What follows a lifecycle transition (R477). -/
def lifeMoved (s : State) : State := told (closeSess s fun _ => true) 0x1006 (lifecycle s)

/-! ### The commands (R479, R480) -/

/-- A result of a command that changes nothing else. -/
abbrev CmdRes := State × Nat

/-- GET_ID: the identity public key and the device certificate. -/
def cmdGetId (s : State) : CmdRes := (respond s (Config.idPub ++ Config.deviceCert), 0)

/-- The slot entries of a PROVISION body: PURPOSE and key (R479; the order of the body's fields: notes/assumptions/28). -/
def provSlots (b : List Byte) : List (Nat × List Byte) :=
  (List.range ((b.length - 153) / 50)).map fun i => (u8 b (50 * i), slice b (50 * i + 1) 49)

/-- PROVISION. -/
def cmdProvision (s : State) (req : List Byte) (bad : Option Nat) : CmdRes :=
  let b := secBody req
  let es := provSlots b
  let o := 50 * es.length
  let has (p : Nat) : Bool := es.any fun e => e.1 = p
  let whole : Bool := b.length = o + 153 && 1 ≤ es.length && es.length ≤ 8 && es.all (fun e => 1 ≤ e.1 && e.1 ≤ 5)
  let owner := es.findIdx? fun e => e.1 = 1
  let own := s.sc fun x => { x with slots := es.map fun e => ⟨e.1, e.2, false⟩ }
  let key : Option (List Byte) := (Config.ecdh 0 (slice b o 97)).bind fun z =>
    Config.gcmOpen (Config.derive 0 z devFp 32) (List.replicate 12 0) [] (slice b (o + 97) 32) (slice b (o + 129) 16)
  if !(owner = some (u32 req (64 + u32 req 8 + 4)) && signedBy own req 1) then (s, 0x1003)
  else match key with
    | none => (s, 0x1001)
    | some k =>
      if !(whole && has 1 && has 2 && has 3) then (s, 0x1001)
      else
        let v := u32 b (o + 145)
        let clk := slice b (o + 149) 4
        let (s, c) := otpWrites s
          (((List.range es.length).zip es).map (fun e => putSlotKey e.1 e.2)
            ++ [fun s => s.sc fun x => { x with imgKey := Config.wrap Config.keyWrap k }, fun s => s.sc fun x => { x with minVer := if v = 0 then [] else [v] }, putClock clk,
              burnLife 0, burnLife 1]) bad
        if c ≠ 0 then (s, c)
        else
          let s := (List.range es.length).foldl (fun s i => told s 0x1007 i) s
          let s := if v = 0 then s else told s 0x1009 v
          let s := if u32 clk 0 = 0 then s else audit s (Config.eventCode 3 % 65536) (u32 clk 0)
          (lifeMoved s, 0)

/-- ADD_KEY: a slot entry into the lowest empty slot. -/
def cmdAddKey (s : State) (req : List Byte) (bad : Option Nat) : CmdRes :=
  let b := secBody req
  if !(b.length = 50 && 1 ≤ u8 b 0 && u8 b 0 ≤ 5) then (s, 0x1001)
  else match emptySlot s with
    | none => (s, 0x1001)
    | some k =>
      let (s, c) := otpWrites s [putSlotKey k (u8 b 0, slice b 1 49)] bad
      if c ≠ 0 then (s, c) else (told s 0x1007 k, 0)

/-- REVOKE of the slot that the body names; the last valid OWNER slot stays. -/
def cmdRevoke (s : State) (req : List Byte) (bad : Option Nat) : CmdRes :=
  let b := secBody req
  let k := u8 b 0
  let x := s.sec_.slots.getD k ⟨0, [], false⟩
  let after := s.sec_.slots.set k { x with revoked := true }
  if !(b.length = 1 && k < 8 && x.purpose ≠ 0 && after.any fun y => y.purpose = 1 && !y.revoked) then (s, 0x1001)
  else
    let (s, c) := otpWrites s [fun s => s.sc fun z => { z with slots := after }] bad
    if c ≠ 0 then (s, c) else (told s 0x1008 k, 0)

/-- RAISE_SECVER to the value of the body. -/
def cmdRaise (s : State) (req : List Byte) (bad : Option Nat) : CmdRes :=
  let b := secBody req
  let v := u32 b 0
  if !(b.length = 4 && minSecVer s < v && s.sec_.minVer.length < 8) then (s, 0x1001)
  else
    let (s, c) := otpWrites s [fun s => s.sc fun x => { x with minVer := x.minVer ++ [v] }] bad
    if c ≠ 0 then (s, c) else (told s 0x1009 v, 0)

/-- SET_CLOCK_OTP: the clock fields of the body into those that read 0. -/
def cmdClock (s : State) (req : List Byte) (bad : Option Nat) : CmdRes :=
  let b := secBody req
  if b.length ≠ 4 then (s, 0x1001)
  else
    let (s, c) := otpWrites s [putClock b] bad
    if c ≠ 0 then (s, c) else (audit s (Config.eventCode 3 % 65536) (u32 b 0), 0)

/-- DEPLOY. -/
def cmdDeploy (s : State) (bad : Option Nat) : CmdRes :=
  if !s.idle then (s, 0x1001)
  else
    let (s, c) := otpWrites s [burnLife 2, burnLife 3] bad
    if c ≠ 0 then (s, c) else (lifeMoved s, 0)

/-- RETIRE: every remaining pair is burnt. -/
def cmdRetire (s : State) (bad : Option Nat) : CmdRes :=
  if !s.idle then (s, 0x1001)
  else
    let (s, c) := otpWrites s [burnLife 2, burnLife 3, burnLife 4, burnLife 5] bad
    if c ≠ 0 then (s, c) else (lifeMoved s, 0)

/-- An unlock is refused before its signature is looked at (R484). -/
def unlockDenied (s : State) : Bool :=
  3 ≤ s.sec_.unlocks || !s.loaded || (lifecycle s = 2 && !bit (s.rd SEC_POLICY_FLAGS) 1)

/-- DEBUG_UNLOCK. -/
def cmdUnlock (s : State) : CmdRes := (told (s.wr SEC_STATUS_DEBUG_UNLOCKED 1) 0x100A 0, 0)

/-- DEBUG_LOCK. -/
def cmdLock (s : State) : CmdRes := (told (s.wr SEC_STATUS_DEBUG_UNLOCKED 0) 0x100B 0, 0)

/-- AUDIT_SEAL (R491): the identity signature over ASEQ, CHAIN of the newest entry, and the challenge. -/
def cmdSeal (s : State) : CmdRes :=
  let m := match (s.sec_.ring ++ s.sec_.nand).head? with
    | some e => leBytes 4 e.aseq ++ e.chain
    | none => List.replicate 12 0
  (respond s (Config.deviceSign (m ++ challenge s)), 0)

/-- The checks that every command passes first, then the command; without entropy every command is refused, since each needs a fresh
challenge (R489). The order of the checks is the model's (notes/assumptions/98). -/
def secRun (s : State) (req : List Byte) (bad : Option Nat) : CmdRes :=
  let c := u8 req 4
  if headerBad s req || !s.flag SEC_STATUS_ENTROPY_OK then (s, 0x1001)
  else if slice req 0x20 16 ≠ challenge s then (s, 0x1002)
  else if c = 9 && unlockDenied s then (s, 0x100C)
  else if ([3, 4, 5, 6, 7, 8].contains c && !signedBy s req 1) || (c = 9 && !signedBy s req 4) then (s, 0x1003)
  else match c with
    | 1 => cmdGetId s
    | 2 => cmdProvision s req bad
    | 3 => cmdAddKey s req bad
    | 4 => cmdRevoke s req bad
    | 5 => cmdRaise s req bad
    | 6 => cmdClock s req bad
    | 7 => cmdDeploy s bad
    | 8 => cmdRetire s bad
    | 9 => cmdUnlock s
    | 10 => cmdLock s
    | _ => cmdSeal s

/-- A refused or failed unlock counts and is audited (R484, R490). -/
def unlockFailed (s : State) (c code : Nat) : State :=
  if c = 9 && code ≠ 0 then audit (s.sc fun x => { x with unlocks := x.unlocks + 1 }) code else s

/-- A security command runs to its end (R478): the result, DONE, a new challenge; source SEC. `bad` says which OTP write fails its
read-back. -/
def secCommand (s : State) (bad : Option Nat) : State :=
  if s.flag SEC_CMD_GO_BUSY then refuse s 0x1004
  else
    let req := secRequest s
    let (s1, code) := secRun s req bad
    let s1 := if code = 0 then s1 else report s1 code
    let s1 := newChallenge (unlockFailed s1 (u8 req 4) code)
    evalStep s (edgeSrc (s1.wrs [(SEC_CMD_DONE, 1), (SEC_CMD_RESULT, code % 256)]) 34)

/-- A host write of SEC_CMD: DONE clears by a 1, and GO starts the command of the request window. -/
def secWrite (s : State) (v : Nat) (bad : Option Nat) : State :=
  let s := if bit v 30 then s.wr SEC_CMD_DONE 0 else s
  if bit v 31 then secCommand s bad else s

/-- GO for a request whose CMD octet is `c`; the request window holding another command is another command. A session may not write SEC
registers (R488). -/
def secGo (p : Path) (c : Nat) (bad : Option Nat) (s : State) : State :=
  if u8 (secRequest s) 4 ≠ c then s
  else match p with
    | .sess _ => s
    | _ => hostDo s p 0x30010 0x80000000 fun s => secWrite s 0x80000000 bad

/-- R479. -/
def execGetId (p : Path) (t : Nat) (s : State) : Host.Outcome State Fault Refusal := done (secGo p 1 none (s.at t))
/-- R479. -/
def execProvision (p : Path) (bad : Option Nat) (t : Nat) (s : State) : Host.Outcome State Fault Refusal := done (secGo p 2 bad (s.at t))
/-- R479. -/
def execAddKey (p : Path) (bad : Option Nat) (t : Nat) (s : State) : Host.Outcome State Fault Refusal := done (secGo p 3 bad (s.at t))
/-- R479. -/
def execRevoke (p : Path) (bad : Option Nat) (t : Nat) (s : State) : Host.Outcome State Fault Refusal := done (secGo p 4 bad (s.at t))
/-- R479. -/
def execRaiseSecver (p : Path) (bad : Option Nat) (t : Nat) (s : State) : Host.Outcome State Fault Refusal := done (secGo p 5 bad (s.at t))
/-- R479. -/
def execSetClockOtp (p : Path) (bad : Option Nat) (t : Nat) (s : State) : Host.Outcome State Fault Refusal := done (secGo p 6 bad (s.at t))
/-- R479. -/
def execDeploy (p : Path) (bad : Option Nat) (t : Nat) (s : State) : Host.Outcome State Fault Refusal := done (secGo p 7 bad (s.at t))
/-- R479. -/
def execRetire (p : Path) (bad : Option Nat) (t : Nat) (s : State) : Host.Outcome State Fault Refusal := done (secGo p 8 bad (s.at t))
/-- R484. -/
def execDebugUnlock (p : Path) (t : Nat) (s : State) : Host.Outcome State Fault Refusal := done (secGo p 9 none (s.at t))
/-- R484. -/
def execDebugLock (p : Path) (t : Nat) (s : State) : Host.Outcome State Fault Refusal := done (secGo p 10 none (s.at t))
/-- R491. -/
def execAuditSeal (p : Path) (t : Nat) (s : State) : Host.Outcome State Fault Refusal := done (secGo p 11 none (s.at t))

/-! ### The debug port (R483) -/

/-- R483: EXTEST or INTEST is entered where the debug port is open: class S, and every safety output off until P, H or S. Elsewhere the
instruction selects BYPASS. -/
def execJtagExtest (t : Nat) (s : State) : Host.Outcome State Fault Refusal :=
  let s := s.at t
  done (
    if !debugOpen s then s
    else
      let s : State := { s with err := { s.err with jtag := true }, saf := { s.saf with cmd := 0 } }
      classOther (s.wrs [(SAF_OUT_COMMAND, 0), (SAF_STATUS_OUT_ON, 0)]))

/-! ### Handshakes (R485 to R487) -/

/-- A field of the policy that no register shows. -/
def policy16 (s : State) (o : Nat) : Nat := u16 (s.sec 18) o
/-- SESS_IDLE in seconds. -/
def sessIdle (s : State) : Nat := policy16 s 4
/-- AUTH_FAIL_MAX. -/
def authMax (s : State) : Nat := u8 (s.sec 18) 6
/-- LOCKOUT_S in seconds. -/
def lockoutS (s : State) : Nat := policy16 s 8

/-- A port serves the host channel (R485, R89): HC_EN, HC_PORTS, and the port works and is not quiet. -/
def hcOn (s : State) (p : Nat) : Bool :=
  bit (s.rd SEC_POLICY_FLAGS) 6 && bit (s.rd SEC_POLICY_HC_PORTS) p && netOn s p && !s.flag ERR_STATUS_FAIL_SILENT

/-- A handshake on a port has failed (R487). -/
def authFail (s : State) (port slot : Nat) : State :=
  let s := audit (report s 0x100F port slot) 0x100F (port * 256 + slot)
  let n := s.sec_.fails.getD port 0 + 1
  if authMax s ≤ n then
    let s := s.sc fun x => { x with fails := put_ x.fails port 0 0, lockAt := put_ x.lockAt port none (some s.tim.cnt) }
    audit (report (s.wrBit SEC_STATUS_LOCKOUT port true) 0x1010 port) 0x1010 port
  else s.sc fun x => { x with fails := put_ x.fails port 0 n }

/-- The telemetry minor of a session (R446, R486): the highest common to the offer and the host's range; none with no common one. -/
def sessMinor (s : State) (lo hi : Nat) : Option Nat :=
  let c := (ifaceOffers s 4 0).filterMap fun o => if o.1 = 3 && max lo o.2.1 ≤ min hi o.2.2 then some (min hi o.2.2) else none
  c.foldl (fun (a : Option Nat) x => some (max x (a.getD 0))) none

/-- The telemetry minor that RESP carries: a free value where the ranges have no common minor, for which R442 states nothing. -/
def settleMinor (s : State) (lo hi : Nat) : Nat × State :=
  match sessMinor s lo hi with
  | some m => (m, s)
  | none => let (x, s) := s.draw; (x % 256, s)

/-- The next SESSION_ID after one: never 0. -/
def nextSess (n : Nat) : Nat := if n + 1 < 65536 then n + 1 else 1

/-- The payload of RESP with a given signature field (R486). -/
def respPayload (s : State) (minor : Nat) (sig : List Byte) : List Byte :=
  Config.ephPub s.sec_.draws ++ Config.random (s.sec_.draws + 1) 32 ++ beBytes 2 s.sec_.nextId ++ [BitVec.ofNat 8 minor] ++ sig

/-- INIT (R486): the payload holds the public key (97 octets), the nonce (32), the slot and the two minors (notes/assumptions/30). -/
def initRecord (s : State) (port : Nat) (good : Bool) (pay : List Byte) : State :=
  let slot := u8 pay 129
  if !hcOn s port || bit (s.rd SEC_STATUS_LOCKOUT) port || s.rd SEC_POLICY_SESS_MAX ≤ s.sec_.sess.length || !s.flag SEC_STATUS_ENTROPY_OK then s
  else if !good || pay.length ≠ 132 || lifecycle s = 3 || (slotKey s slot 5).isNone then authFail s port slot
  else match Config.ecdh s.sec_.draws (pay.take 97) with
    | none => authFail s port slot
    | some z =>
      let (m, s) := settleMinor s (u8 pay 130) (u8 pay 131)
      let th := Config.sha384 (pay ++ respPayload s m (List.replicate 96 0))
      let id := s.sec_.nextId
      let out := respPayload s m (Config.deviceSign th)
      let s := s.sc fun x => { x with
        draws := x.draws + 2, nextId := nextSess x.nextId, hand := x.hand ++ [⟨id, port, slot, th, z, m, s.tim.cnt⟩] }
      s.emit (.record port 2 id 0 out [])

/-- R486. -/
def execInit (port : Nat) (good : Bool) (pay : List Byte) (t : Nat) (s : State) : Host.Outcome State Fault Refusal :=
  done (initRecord (s.at t) port good pay)

/-- The lowest free place of SEC_SESSn. -/
def freePlace (s : State) : Nat := ((List.range 4).find? fun n => !s.flag (SEC_SESS_OPEN n)).getD 0

/-- A session opens (R486). -/
def openSess (s : State) (h : HandSt) : State :=
  let n := freePlace s
  let x : SessSt := ⟨h.id, n, h.port, h.slot, Config.derive 1 h.secret h.th 36, Config.derive 2 h.secret h.th 36, 0, [], 0, 0, h.minor, s.tim.cnt, s.tim.cnt⟩
  let s := s.sc fun y => { y with sess := y.sess ++ [x], fails := put_ y.fails h.port 0 0 }
  let s := (sessCount s).wrs [(SEC_SESS_OPEN n, 1), (SEC_SESS_SLOT n, h.slot), (SEC_SESS_PORT n, h.port), (SEC_SESS_SESSION_ID n, h.id)]
  told s 0x100D h.id

/-- The ASCII octets "FIN" (R486). -/
def finText : List Byte := [0x46, 0x49, 0x4E]

/-- FIN (R486, R487): within 2 s of RESP, signed by the named HOST key. -/
def finRecord (s : State) (id : Nat) (sig : List Byte) : State :=
  match s.sec_.hand.find? fun h => h.id = id with
  | none => s
  | some h =>
    let s := s.sc fun x => { x with hand := x.hand.filter fun y => y.id ≠ id }
    let ok : Bool := match slotKey s h.slot 5 with
      | some k => Config.ecdsaVerify k (h.th ++ finText) sig
      | none => false
    if !hcOn s h.port then s
    else if !ok || h.since + usTicks 2000000 < s.tim.cnt || sig.length ≠ 96 then authFail s h.port h.slot
    else if s.rd SEC_POLICY_SESS_MAX ≤ s.sec_.sess.length then s
    else openSess s h

/-- R486. -/
def execFin (id : Nat) (sig : List Byte) (t : Nat) (s : State) : Host.Outcome State Fault Refusal := done (finRecord (s.at t) id sig)

/-- R486, R487: FIN has not come within 2 s. -/
def execFinTimeout (id t : Nat) (s : State) : Host.Outcome State Fault Refusal :=
  let s := s.at t
  done (match s.sec_.hand.find? fun h => h.id = id with
    | some h =>
      if h.since + usTicks 2000000 ≤ s.tim.cnt then authFail (s.sc fun x => { x with hand := x.hand.filter fun y => y.id ≠ id }) h.port h.slot
      else s
    | none => s)

/-- R487: LOCKOUT_S after a lockout the port takes INIT again. -/
def execLockoutEnd (port t : Nat) (s : State) : Host.Outcome State Fault Refusal :=
  let s := s.at t
  done (match s.sec_.lockAt.getD port none with
    | some x =>
      if x + usTicks (1000000 * lockoutS s) ≤ s.tim.cnt then
        (s.sc fun y => { y with lockAt := put_ y.lockAt port none none }).wrBit SEC_STATUS_LOCKOUT port false
      else s
    | none => s)

/-! ### Records of an open session (R487, R488) -/

/-- Change one session. -/
def updSess (s : State) (id : Nat) (f : SessSt → SessSt) : State :=
  s.sc fun x => { x with sess := x.sess.map fun y => if y.id = id then f y else y }

/-- The 16 header octets of a record, which the tag covers (R485, R486). -/
def recordHeader (typ id seq len : Nat) : List Byte :=
  [BitVec.ofNat 8 typ, 1] ++ beBytes 2 id ++ beBytes 8 seq ++ beBytes 2 len ++ [0, 0]

/-- The plaintext of a received record; none when its tag fails. -/
def openRecord (x : SessSt) (typ seq : Nat) (ct tag : List Byte) : Option (List Byte) :=
  Config.gcmOpen (x.keyIn.take 32) (x.keyIn.drop 32 ++ beBytes 8 seq) (recordHeader typ x.id seq ct.length) ct tag

/-- A SEQ is acceptable (R487): above the highest accepted, or one of the 64 below it that has not been accepted. -/
def seqFresh (x : SessSt) (seq : Nat) : Bool := 1 ≤ seq && (x.high < seq || (x.high ≤ seq + 64 && !x.seen.contains seq && seq ≠ x.high))

/-- A record of TYPE `typ` is taken or discarded (R487); `f` acts on its plaintext. -/
def takeRecord (s : State) (id typ seq : Nat) (ct tag : List Byte) (f : State → List Byte → State) : State :=
  match s.sec_.sess.find? fun x => x.id = id with
  | none => s
  | some x =>
    if !hcOn s x.port then s
    else match openRecord x typ seq ct tag with
      | none => report s 0x1011 0 id
      | some b =>
        if !seqFresh x seq then (if x.high < seq + 65 && 1 ≤ seq then report s 0x1012 0 id else s)
        else
          let s := updSess s id fun y =>
            let hi := max y.high seq
            { y with high := hi, seen := (seq :: y.seen).filter (fun q => hi ≤ q + 64), nIn := y.nIn + 1, lastAt := s.tim.cnt }
          let s := f s b
          if 2 ^ 32 ≤ x.nIn + 1 then closeSess s fun y => y.id = id else s

/-- A record goes out under the session's key and next SEQ (R486). -/
def sendRecord (s : State) (id typ : Nat) (b : List Byte) : State :=
  match s.sec_.sess.find? fun x => x.id = id with
  | none => s
  | some x =>
    let seq := x.nOut + 1
    let out := Config.gcmSeal (x.keyOut.take 32) (x.keyOut.drop 32 ++ beBytes 8 seq) (recordHeader typ id seq b.length) b
    let s := (updSess s id fun y => { y with nOut := seq }).emit (.record x.port typ id seq (out.take b.length) (out.drop b.length))
    if 2 ^ 32 ≤ seq then closeSess s fun y => y.id = id else s

/-- R487. -/
def execClose (id seq : Nat) (ct tag : List Byte) (t : Nat) (s : State) : Host.Outcome State Fault Refusal :=
  done (takeRecord (s.at t) id 6 seq ct tag fun s _ => closeSess s fun y => y.id = id)

/-- R487: SESS_IDLE without a valid record, or 86,400 s open. -/
def execSessIdleTimeout (id t : Nat) (s : State) : Host.Outcome State Fault Refusal :=
  let s := s.at t
  done (closeSess s fun x =>
    x.id = id && (x.lastAt + usTicks (1000000 * sessIdle s) ≤ s.tim.cnt || x.openAt + usTicks (86400 * 1000000) ≤ s.tim.cnt))

/-! ### Entropy (R489) -/

/-- R489: a health test of the noise source fails. -/
def execEntropyFail (t : Nat) (s : State) : Host.Outcome State Fault Refusal :=
  done (told ((s.at t).wr SEC_STATUS_ENTROPY_OK 0) 0x1013 0)

/-- R489: the tests run again, and pass or fail. -/
def execEntropyRetest (ok : Bool) (t : Nat) (s : State) : Host.Outcome State Fault Refusal :=
  let s := s.at t
  done (
    if s.flag SEC_STATUS_ENTROPY_OK then s
    else if ok then s.wr SEC_STATUS_ENTROPY_OK 1
    else told s 0x1013 0)

end Sys2Proof.Machine
end

