-- ==== Sys2Proof/Machine/Tunnel.lean ====
section
/-! DEFINITION. What host software starts over Piste: tunnelled accesses (R434), image distribution (R435) and mailbox messages (R542), with
their answers and time limits. -/

namespace Sys2Proof.Machine

open Sys2Proof

/-- A TUNNEL or IMAGE frame to a device goes out (R420); false where there is no route. -/
def canSend (s : State) (dst typ : Nat) : Bool := cascRole s ≠ 0 && reachable s dst typ

/-! ### Tunnelled accesses, the requester's side (R434) -/

/-- An access ends with a result: 1 OK, 2 NO_ROUTE, 3 TIMEOUT, 4 REFUSED. -/
def tunEnd (s : State) (res : Nat) : State :=
  let s := (s.wrs [(PST_TUN_CTRL_GO_BUSY, 0), (PST_TUN_STS_RESULT, res)]).ps fun x => { x with tunAt := none }
  if res = 1 then s else report s 0x0E14

/-- A write of PST_TUN_CTRL: discarded while an access is outstanding; GO sends the access. -/
def tunWrite (s : State) (v : Nat) : State :=
  if s.flag PST_TUN_CTRL_GO_BUSY then { s with hst := { s.hst with mark := true } }
  else
    let dst := v % 2 ^ 14
    let wr := v / 2 ^ 30 % 2
    let s := s.wrs [(PST_TUN_CTRL_WRITE, wr), (PST_TUN_CTRL_DST, dst)]
    if !bit v 31 then s
    else if !canSend s dst 0x30 then tunEnd s 2
    else
      let s := (s.wrs [(PST_TUN_CTRL_GO_BUSY, 1), (PST_TUN_STS_RESULT, 0)]).ps fun x => { x with tunAt := some s.tim.cnt }
      pstSend s 0x30 0 dst (s.rd SEQ_CYC_LO_CYC_LO) [wr, s.rd PST_TUN_ADDR_OFS, s.rd PST_TUN_DATA_DATA]

/-- The word that starts a tunnelled access. -/
def tunWord (wr : Bool) (dst : Nat) : Nat := 2 ^ 31 + b2n wr * 2 ^ 30 + dst % 2 ^ 14

/-- R434. -/
def execTunnelRead (p : Path) (dst t : Nat) (s : State) : Host.Outcome State Fault Refusal :=
  done (hostDo (s.at t) p 0x280050 (tunWord false dst) fun s => tunWrite s (tunWord false dst))

/-- R434. -/
def execTunnelWrite (p : Path) (dst t : Nat) (s : State) : Host.Outcome State Fault Refusal :=
  done (hostDo (s.at t) p 0x280050 (tunWord true dst) fun s => tunWrite s (tunWord true dst))

/-- R434: no answer within 10 ms. -/
def execTunnelTimeout (t : Nat) (s : State) : Host.Outcome State Fault Refusal :=
  let s := s.at t
  done (match s.pst.tunAt with
    | some x => if s.flag PST_TUN_CTRL_GO_BUSY && x + usTicks 10000 ≤ s.tim.cnt then tunEnd s 3 else s
    | none => s)

/-- The answer of the target of the outstanding access. -/
def tunAnswer (s : State) (src res data : Nat) : State :=
  if s.flag PST_TUN_CTRL_GO_BUSY && s.rd PST_TUN_CTRL_DST = src then
    let s := if res = 1 && !s.flag PST_TUN_CTRL_WRITE then s.wr PST_TUN_DATA_DATA data else s
    tunEnd s res
  else s

/-! ### Image distribution (R435) -/

/-- Distribution ends once no target has yet to answer. -/
def imgdEnd (s : State) : State :=
  if s.pst.imgd.isEmpty then
    report (s.wr PST_IMGD_STS_BUSY 0) (if s.rd PST_IMGD_STS_FAILED = 0 then 0x0E15 else 0x0E16)
  else s

/-- PST_IMGD_CTRL.GO (R435): the staged image goes to every device of PST_DEVSET, as frames in ascending order that the model sends as one; a
target without a route has failed. Refused off the master; discarded while a distribution runs. -/
def imgdGo (s : State) : State :=
  if !isMaster s then refuse s 0x0E0F
  else if s.flag PST_IMGD_STS_BUSY then { s with hst := { s.hst with mark := true } }
  else
    let b := hostStaged s
    let devs := addrsOf s PST_DEVSET_SET
    let far := devs.filter fun a => canSend s a 0x31
    let s := (s.wrs [(PST_IMGD_STS_BUSY, 1), (PST_IMGD_STS_DONE, 0), (PST_IMGD_STS_FAILED, devs.length - far.length)]).ps fun x =>
      { x with imgd := far, imgdDig := Config.sha384 b }
    imgdEnd (far.foldl (fun s a => pstSend s 0x31 0 a (s.rd SEQ_CYC_LO_CYC_LO) (b.map (·.toNat))) s)

/-- R435. -/
def execImgdGo (p : Path) (t : Nat) (s : State) : Host.Outcome State Fault Refusal :=
  done (hostDo (s.at t) p 0x280060 1 imgdGo)

/-- A target's digest (R435). -/
def imgdAnswer (s : State) (src : Nat) (d : List Byte) : State :=
  if s.pst.imgd.contains src then
    let f := if d = s.pst.imgdDig then PST_IMGD_STS_DONE else PST_IMGD_STS_FAILED
    imgdEnd ((s.wr f (s.rd f + 1)).ps fun x => { x with imgd := x.imgd.filter fun a => a ≠ src })
  else s

/-- Octets of an image enter the cascade staging area (R75, R435): those at offset 0 begin a new image. The last ones are answered with the
digest of the staged octets, and a target that waits for its image then loads it. -/
def imagePart (s : State) (src off : Nat) (b : List Byte) (last : Bool) : State :=
  let old := if off = 0 then [] else s.img.staged
  let all := (old.take off ++ List.replicate (off - old.length) (0 : Byte) ++ b ++ old.drop (off + b.length)).take (2 ^ 25)
  let s : State := { s with img := { s.img with staged := all } }
  if !last then s
  else
    let s := pstSend s 0x31 1 src (s.rd SEQ_CYC_LO_CYC_LO) ((Config.sha384 all).map (·.toNat))
    if bootTarget s && s.img.job.isNone then loadFrom s 4 true [] false else s

/-- R435. -/
def execImage (h : PstHdr) (m : ImgMsg) (t : Nat) (s : State) : Host.Outcome State Fault Refusal :=
  done (pstTake (s.at t) h 0x31 fun s =>
    match m with
    | .part off b last => imagePart s h.src off b last
    | .digest d => imgdAnswer s h.src d)

/-! ### Mailboxes (R542) -/

/-- The inbound window of a mailbox in BAR2 (R523). -/
def mbxIn (m : Nat) : Nat := 0x1000 + 0x400 * m

/-- An outbound message ends with a result: 1 DELIVERED, 2 NO_ROUTE, 3 NO_SPACE, 4 TIMEOUT; source MBX. -/
def mbxEnd (s : State) (m res : Nat) : State :=
  let s := edgeSrc (s.wrs [(HST_MBX_OUT_GO_BUSY m, 0), (HST_MBX_OUT_RESULT m, res)]) 37
  let s : State := { s with hst := { s.hst with mbxWait := s.hst.mbxWait.filter fun x => x.1 ≠ m } }
  if res = 2 then report s 0x1213 else if res = 3 then report s 0x1214 else s

/-- A write of HST_MBX_OUTm (R542). A LEN above the 1,008 octets of a window is refused; the HST class has no code for it. -/
def mbxWrite (s : State) (p : Path) (m v : Nat) : State :=
  let len := v / 2 ^ 14 % 1024
  let dst := v % 2 ^ 14
  let off := 0x2B0040 + 4 * m
  if s.flag (HST_MBX_OUT_GO_BUSY m) then discard s p off 0x1212
  else if len = 0 then discard s p off 0x1211
  else if 1008 < len then { s with hst := { s.hst with mark := true } }
  else
    let s := s.wrs [(HST_MBX_OUT_LEN m, len), (HST_MBX_OUT_DST m, dst)]
    if !bit v 31 then s
    else if !canSend s dst 0x30 then mbxEnd s m 2
    else
      let s := s.wrs [(HST_MBX_OUT_GO_BUSY m, 1), (HST_MBX_OUT_RESULT m, 0)]
      let s : State := { s with hst := { s.hst with mbxWait := (m, s.tim.cnt) :: s.hst.mbxWait } }
      pstSend s 0x30 2 dst (s.rd SEQ_CYC_LO_CYC_LO) (m :: (bar2Bytes s (0x400 * m) len).map (·.toNat))

/-- The word that sends mailbox `m`. -/
def mbxWord (len dst : Nat) : Nat := 2 ^ 31 + len % 1024 * 2 ^ 14 + dst % 2 ^ 14

/-- R542. -/
def execMbxSend (p : Path) (m len dst t : Nat) (s : State) : Host.Outcome State Fault Refusal :=
  done (if m < 4 then hostDo (s.at t) p (0x2B0040 + 4 * m) (mbxWord len dst) fun s => mbxWrite s p m (mbxWord len dst) else s.at t)

/-- R542: no answer within 10 ms. -/
def execMbxTimeout (m t : Nat) (s : State) : Host.Outcome State Fault Refusal :=
  let s := s.at t
  done (match s.hst.mbxWait.find? fun x => x.1 = m with
    | some x => if x.2 + usTicks 10000 ≤ s.tim.cnt then mbxEnd s m 4 else s
    | none => s)

/-- Inbound mailboxes are freed (R542): 0 octets = empty. -/
def mbxFree (s : State) (v : Nat) : State :=
  (List.range 4).foldl (fun s m => if bit v m then (s.wrBit HST_MBX_IN_STS_FULL m false).wr (HST_MBX_IN_LEN m) 0 else s) s

/-- R542. -/
def execMbxFree (p : Path) (v t : Nat) (s : State) : Host.Outcome State Fault Refusal :=
  done (hostDo (s.at t) p 0x2B0050 v fun s => mbxFree s v)

/-- A message arrives (R542): into the lowest free inbound mailbox, or NO_SPACE; the sender is answered. -/
def mbxArrive (s : State) (src m : Nat) (b : List Byte) : State :=
  let answer (s : State) (res : Nat) : State := pstSend s 0x30 3 src (s.rd SEQ_CYC_LO_CYC_LO) [m, res]
  match (List.range 4).find? fun i => !bit (s.rd HST_MBX_IN_STS_FULL) i with
  | none => answer s 3
  | some i =>
    let s : State := { s with hst := { s.hst with mem := sputs (fun _ => (0 : Byte)) s.hst.mem (mbxIn i) (b.take 1024) } }
    let s := (s.wrBit HST_MBX_IN_STS_FULL i true).wrs [(HST_MBX_IN_LEN i, b.length), (HST_MBX_IN_SRC i, src)]
    answer (edgeSrc s 37) 1

/-- The answer to the outbound message of mailbox `m`. -/
def mbxAnswer (s : State) (src m res : Nat) : State :=
  if s.flag (HST_MBX_OUT_GO_BUSY m) && s.rd (HST_MBX_OUT_DST m) = src then mbxEnd s m res else s

end Sys2Proof.Machine
end

