-- ==== Sys2Proof/Machine/Map.lean ====
section
/-! DEFINITION. The register map as an access meets it: what a read answers (R2, R12, R125, R526 to R536), and what a write of a register
with its own rule does; every other register follows the access types of its fields (R14). -/

namespace Sys2Proof.Machine

open Sys2Proof

/-! ### Reads -/

/-- The low words of the 64-bit quantities (R12) whose registers have no read rule of their own. -/
def lowWord (off : Nat) : Bool :=
  [0x8, 0x50014, 0x40010, 0x140010, 0x180008, 0x200010, 0x200030, 0x200038, 0x200094, 0x200308, 0x250040, 0x250048, 0x270014, 0x27001C, 0x270024,
   0x27002C].contains off
    || (0x181000 ≤ off && off < 0x185000 && off % 64 = 0x10)
    || (0x200200 ≤ off && off < 0x200280 && off % 32 = 4)
    || (0x210000 ≤ off && off < 0x214000 && off % 0x1000 = 0x10)
    || (0x220000 ≤ off && off < 0x228000 && ([0x108, 0x158, 0x1A8].contains (off % 0x1000) || (0x600 ≤ off % 0x1000 && off % 0x1000 - 0x600 < 0xA00
      && (off % 0x1000 - 0x600) % 0x50 = 8)))

/-- SEC_SLOTk as it reads (R474). -/
def slotWord (s : State) (k : Nat) : Nat :=
  let x := s.sec_.slots.getD k ⟨0, [], false⟩
  if x.purpose = 0 then 0
  else (if x.revoked then 2 else 1) * 2 ^ 30 + x.purpose * 2 ^ 27 + u32 (Config.sha384 x.key) 0 % 2 ^ 24

/-- SEC_EVAL_STS as it reads (R6, R492). -/
def evalWord (s : State) : Nat :=
  if !s.isEval then 2 * 2 ^ 30
  else (if evalCond s = 0 then 0 else 2 ^ 30) + s.rd SEC_EVAL_STS_FIRST * 256 + evalCond s

/-- GLB_SUMMARY as it reads. -/
def summaryWord (s : State) : Nat :=
  s.rd IMG_STATUS_STATE * 2 ^ 30 + s.rd SEQ_STATUS_STATE * 2 ^ 28 + s.rd RST_PWR_STS_STATE * 2 ^ 25 + s.rd ERR_STATUS_FAIL_SILENT * 2 ^ 24
    + s.rd RED_STATUS_ROLE * 2 ^ 21 + s.rd TIM_QUAL_STATE * 2 ^ 18 + evalWord s / 2 ^ 30 * 2 ^ 16 + s.rd SAF_STATUS_CONFIGURED * 2 ^ 15
    + s.rd PST_STATUS_OUT_OF_STEP * 2 ^ 14

/-- A lane runs a job. -/
def laneBusy (s : State) (i : Nat) : Bool := (laneJobs s i).any fun q => q.started.isSome && q.res.isNone

/-- The QSPI target permits writes (R526, R529). -/
def qspiWrites (s : State) : Bool := !s.loaded || bit (s.rd SEC_POLICY_FLAGS) 5

/-- PST_DRV_FMT: the drive definitions of a port that command in format 1 (R445). -/
def drvFmtWord (s : State) (p w : Nat) : Nat :=
  let b := s.netSec p
  (List.range 32).foldl (fun m i =>
    let d := netDef b (32 * w + i)
    if 32 * w + i < netNdef b && u8 d 0 = 1 then setBit m i (driveFormat s p (u16 d 0x0E) = 1) else m) 0

/-- A register whose value follows from other state, or that the variant or the image lacks (R1, R2, R125); none for one that stores its
fields. -/
def viewWord (s : State) (off : Nat) : Option Nat :=
  let blk := off / 0x10000
  if 0x100000 ≤ off && off < 0x140000 && s.lanes ≤ (off - 0x100000) / 0x1000 then some 0
  else if blk = 0x18 && !s.hasSec 9 then some 0
  else if blk = 0x22 && !s.hasSec 12 ((off - 0x220000) / 0x1000) then some 0
  else if blk = 0x0A || blk = 0x0B then some (if off % 4 = 0 then bankWord s (blk - 0x0A) (off % 0x10000 / 4) else 0)
  else if blk = 0x20 then
    let t := s.tim
    let (a0, a1, a2) := timeWords t.tA
    let (b0, b1, b2) := timeWords t.stepTA
    let (n0, n1, n2) := timeWords s.now
    match off - 0x200000 with
    | 0x10 => some (t.cnt % 2 ^ 32)
    | 0x14 => some (t.cnt / 2 ^ 32 % 2 ^ 32)
    | 0x18 => some n0
    | 0x1C => some n1
    | 0x20 => some n2
    | 0x24 => some a0
    | 0x28 => some a1
    | 0x2C => some a2
    | 0x30 => some (t.cntA % 2 ^ 32)
    | 0x34 => some (t.cntA / 2 ^ 32 % 2 ^ 32)
    | 0x38 => some (unsigned 64 t.rate % 2 ^ 32)
    | 0x3C => some (unsigned 64 t.rate / 2 ^ 32)
    | 0x44 => some (estErr s)
    | 0x88 => some b0
    | 0x8C => some b1
    | 0x90 => some b2
    | 0x94 => some (t.stepCntA % 2 ^ 32)
    | 0x98 => some (t.stepCntA / 2 ^ 32 % 2 ^ 32)
    | _ => none
  else if blk = 0x22 then
    let c := (off - 0x220000) / 0x1000
    let o := off % 0x1000
    if 0x100 ≤ o && o < 0x1F0 then some (recWord (recHead s c ((o - 0x100) / 0x50)) ((o - 0x100) % 0x50 / 4)) else none
  else if blk = 0x28 then
    if 0x280100 ≤ off && off < 0x280180 then some (drvFmtWord s ((off - 0x280100) / 0x20) (off % 0x20 / 4)) else none
  else if off = 0x27001C || off = 0x270020 then (if s.flag RED_STATUS_PAIRED then none else some 0)
  else if 0x30020 ≤ off && off < 0x30030 then some (u32 (challenge s) (off - 0x30020))
  else if 0x30030 ≤ off && off < 0x30040 then some (u32 devFp (off - 0x30030))
  else if 0x30040 ≤ off && off < 0x30060 then some (slotWord s ((off - 0x30040) / 4))
  else match off with
    | 0x8 => some (Config.dieUid % 2 ^ 32)
    | 0xC => some (Config.dieUid / 2 ^ 32 % 2 ^ 32)
    | 0x14 => some (summaryWord s)
    | 0x30008 => some (evalWord s)
    | 0x30014 => some (minSecVer s)
    | 0x40038 => some (stoppedGroups s)
    | 0x50034 => if s.isNode then some 0 else none
    | _ => none

/-- Bits of stored registers that are computed at the read. -/
def liveBits (s : State) (off v : Nat) : Nat :=
  if off = 0x30000 then v % 2 ^ 30 + lifecycle s * 2 ^ 30
  else if off = 0x50004 then setBit v 4 (2 ≤ s.seq.cycs.length)
  else if off = 0x60000 then v % 256 + ((definedSlots (s.sec 3)).length - 1) % 256 * 256
  else if 0x100000 ≤ off && off < 0x140000 && off % 0x1000 = 0 then setBit v 30 (laneBusy s ((off - 0x100000) / 0x1000))
  else if off = 0x2B0000 then setBit v 25 (qspiWrites s)
  else v

/-- The word a register reads as, with no effect of the read: 0 where no register lies (R536). -/
def plainWord (s : State) (off : Nat) : Nat :=
  match viewWord s off with
  | some v => v
  | none =>
    match findReg regTable off with
    | some (r, idx) => liveBits s off (readRow s r idx off)
    | none => 0

/-- HST_MAP_SEL and HST_MAP_SET of a path (R533): the QSPI target has copies of its own; for paths that need no settling the spec gives
them no value. -/
def mapWord (s : State) (p : Path) (off : Nat) : Nat × State :=
  match p with
  | .pcie => (plainWord s off, s)
  | .qspi =>
    (if off = 0x2B000C then s.hst.q.mapSel
     else match s.hst.q.settled with
      | some v => 2 ^ 31 + v.1 * 2 ^ 12 + v.2 * 2 ^ 8
      | none => 0, s)
  | _ => s.draw

/-- A register read in which no clock or path stands in the way, with what the read does beside answering (R12, R307, R320, R328, R371,
R491, R517). -/
def readDo (s : State) (p : Path) (off : Nat) : State :=
  if hidden40 off && (mapOf s p).map (·.2) = some 0 then s.emit (.read p 0)
  else match off with
  | 0x2B000C | 0x2B0010 => let (v, s) := mapWord s p off; s.emit (.read p v)
  | 0x30070 => auditRead s p
  | 0x40004 => let s := phaseGo s; s.emit (.read p (plainWord s off))
  | 0x200018 => timNowRead s p
  | 0x200080 => timConvRead s p
  | 0x260020 => jnlRead s p
  | 0x290054 => logRead s p
  | 0x2A0008 => let (x, s) := s.draw; s.emit (.read p (x % 301))
  | 0x290060 =>
    let v := plainWord s off
    s.emit (.read p (if (mapOf s p).map (·.2) = some 0 then setBit v 2 false else v))
  | _ =>
    if 0x200200 ≤ off && off < 0x200280 && off % 32 = 0x18 then tcapRead s p ((off - 0x200200) / 32)
    else if 0x100000 ≤ off && off < 0x140000 && off % 0x1000 = 0x14 then laneMemRead s p ((off - 0x100000) / 0x1000)
    else
      let s := if lowWord off then latchWord s p (off + 4) (plainWord s (off + 4)) else s
      let v := match s.hst.latch.find? fun e => e.1 = p ∧ e.2.1 = off with
        | some e => e.2.2
        | none => plainWord s off
      s.emit (.read p v)

/-- The path does not answer the access at all (R483, R525, R526). -/
def shut (s : State) (p : Path) (off : Nat) (wr : Bool) : Bool := gate s p off wr = .locked || gate s p off wr = .denied

/-- A host read (R11, R526, R532, R534). -/
def hostRead (s : State) (p : Path) (off : Nat) (whole : Bool := true) : State :=
  if (off % 4 ≠ 0 || !whole) && !shut s p off false then (discard s p off 0x1203).emit (.read p 0) else hostRd s p off fun s => readDo s p off

/-- The value that a read has answered, if it has. -/
def readValue (s0 s : State) : Option Nat :=
  if s0.sent.length < s.sent.length then
    match s.sent.head? with
    | some (.read _ v) => some v
    | _ => none
  else none

/-! ### Writes -/

/-- SEQ_CTRL: START, then HALT. -/
def seqCtrl (s : State) (v : Nat) : State :=
  let s := if bit v 0 then startWrite s else s
  if bit v 1 then seqHalt s else s

/-- SEQ_MODE_REQ and the pending setpoints (R43, R44, R46, R385). -/
def setptWrite (s : State) (p : Path) (off v : Nat) : State :=
  unlessSilent s p off fun s =>
    if s.isNode then refuse s 0x0205
    else if s.flag SEQ_SP_CTRL_ARM then refuse s 0x0206
    else if off = 0x50030 then s.wr SEQ_MODE_REQ_MODE v
    else s.wr (SEQ_SP_PEND_VALUE ((off - 0x50040) / 4)) v

/-- SEQ_SP_CTRL: REFUSED clears by a 1, and ARM is written. -/
def spCtrl (s : State) (p : Path) (v : Nat) : State :=
  let s := if bit v 1 then s.wr SEQ_SP_CTRL_REFUSED 0 else s
  spArm s p (bit v 0)

/-- OCE_BANK_CTRL: SWAP, then SEAL. -/
def bankCtrl (s : State) (v : Nat) : State :=
  let s := if bit v 0 then bankSwapReq s else s
  if bit v 1 then bankSeal s else s

/-- ERR_CTRL: CLR_CNT, then FORCE_S. -/
def errCtrl (s : State) (v : Nat) : State :=
  let s := if bit v 1 then clrCnt s else s
  if bit v 0 then forceS s else s

/-- RED_CTRL, its bits in ascending order. -/
def redCtrl (s : State) (v : Nat) : State :=
  let s := if bit v 0 then redPromote s else s
  let s := if bit v 1 then redStandDown s else s
  let s := if bit v 3 then redResync s else s
  let s := if bit v 4 then redSleep s else s
  if bit v 5 then clrFeed s else s

/-- PST_CTRL. -/
def pstCtrl (s : State) (v : Nat) : State :=
  let s := if bit v 0 then pstReload s else s
  if bit v 1 then handback s else s

/-- REC_CTRL. -/
def recCtrl (s : State) (v : Nat) : State :=
  let s := if bit v 0 then recFreezeReq s else s
  if bit v 1 then recClrLost s else s

/-- NET_MDIO_CMD (R333): GO starts a frame; without it the fields are written. -/
def mdioWrite (s : State) (v : Nat) : State :=
  if s.flag NET_MDIO_CMD_GO_BUSY then s
  else if bit v 31 then mdioCmd s (bit v 30) (bitsOf v 29 28) (bitsOf v 20 16) (v % 32)
  else s.wrs [(NET_MDIO_CMD_C45, bitsOf v 30 30), (NET_MDIO_CMD_OP, bitsOf v 29 28), (NET_MDIO_CMD_PHYAD, bitsOf v 20 16), (NET_MDIO_CMD_REGAD, v % 32)]

/-- HST_MAP_SEL (R533): GO settles the path's version, or leaves it unsettled with MAP_NO_COMMON. Paths that need no settling have none. -/
def mapSelWrite (s : State) (p : Path) (v : Nat) : State :=
  let major := bitsOf v 15 12
  let common := (ifaceOffers s 2 0).filterMap fun o =>
    if o.1 = major && max (bitsOf v 11 8) o.2.1 ≤ min (bitsOf v 7 4) o.2.2 then some (major, min (bitsOf v 7 4) o.2.2) else none
  let settled := common.head?
  let kept := v / 16 % 4096 * 16
  let tell (s : State) : State := if bit v 31 && settled.isNone then report s 0x1209 else s
  match p with
  | .pcie =>
    let s := s.wrs [(HST_MAP_SEL_MAJOR, major), (HST_MAP_SEL_MIN_MINOR, bitsOf v 11 8), (HST_MAP_SEL_MAX_MINOR, bitsOf v 7 4)]
    if !bit v 31 then s
    else match settled with
      | some x => s.wrs [(HST_MAP_SET_SETTLED, 1), (HST_MAP_SET_MAJOR, x.1), (HST_MAP_SET_MINOR, x.2)]
      | none => tell (s.wrs [(HST_MAP_SET_SETTLED, 0), (HST_MAP_SET_MAJOR, 0), (HST_MAP_SET_MINOR, 0)])
  | .qspi =>
    let q := s.hst.q
    let q := { q with mapSel := kept, settled := if bit v 31 then settled else q.settled }
    tell { s with hst := { s.hst with q := q } }
  | _ => s

/-- HST_SRC_PEND (R537): edge sources clear by a 1; bits of level sources ignore writes. -/
def pendClear (s : State) (hi : Bool) (v : Nat) : State :=
  let f := if hi then HST_SRC_PEND_HI_PEND else HST_SRC_PEND_LO_PEND
  (List.range 32).foldl (fun s i =>
    let n := if hi then 32 + i else i
    if bit v i && n < 39 && (levelSrc s n).isNone then s.wrBit f i false else s) s

/-- A vector has been unmasked (R539): its pending message goes out while it is still asserted. -/
def unmaskVec (s : State) (v : Nat) : State :=
  if bit (s.rd (HST_MSIX_PBA_PBA 0)) v && bit (s.rd HST_VEC_STS_ASSERTED) v && !vecMasked s v && !s.hst.funcMask then vecMessage s v else s

/-- A word of the MSI-X table. -/
def msixWrite (s : State) (off v : Nat) : State :=
  let i := (off - 0x2B1000) / 16
  unmaskVec (s.wr (HST_MSIX_TABLE_WORD i (off % 16 / 4)) v) i

/-- A write to a channel that the image does not have would create structure (R110). -/
def beyondChannels (s : State) (off : Nat) : Bool :=
  (0x61000 ≤ off && off < 0x61600 && nFlt s ≤ (off - 0x61000) / 32)
    || (0x62000 ≤ off && off < 0x62600 && nFlt s ≤ (off - 0x62000) / 32)
    || (0x64000 ≤ off && off < 0x6D000 && nFlt s ≤ (off - 0x64000) / 768)

/-- A write to a CAN controller's register with a rule of its own (R352 to R355). Which frame is on the bus at a cancel the access does not
tell: a free value. -/
def canWrite (s : State) (c o v : Nat) : Option State :=
  if o = 0x20 then some (canTxReq s c v)
  else if o = 0x24 then let (x, s) := s.draw; some (canTxCancel s c v (some (x % 33)))
  else if o = 0x40 || o = 0x44 || o = 0x48 then
    let q := (o - 0x40) / 4
    let s := if bit v 30 then s.wr (CAN_RXQ_STS_OVR c q) 0 else s
    some (if bit v 31 then (if q = 2 then hpbPop s c else canPop s c q) else s)
  else if 0x600 ≤ o && (o - 0x600) % 0x50 ≥ 0x10 then
    let b := (o - 0x600) / 0x50
    if s.rd (CAN_TXB_STS_KIND c b) ≠ 2 then some s
    else if (s.txb c b).pend then some (refuse s 0x080D c b)
    else none
  else none

/-- What a write does at a register with a rule of its own; none for the registers that follow their access types. -/
def ownWrite (s : State) (p : Path) (off v : Nat) : Option State :=
  match off / 0x10000 with
  | 0x01 => if off = 0x10010 then some (clkGateReq s v) else if off = 0x10014 then some (fmeasWrite s v) else none
  | 0x02 => if off = 0x20004 then some (sysWrite s v) else if off = 0x20008 then some (pwrWrite s v) else none
  | 0x03 =>
    if off = 0x30010 then some (secWrite s v none)
    else if off = 0x30064 then some (auditAck s v)
    else if off = 0x3006C then some ((s.wr SEC_AUDIT_RD_ADDR_ENTRY v).sc fun x => { x with rdWord := 0 })
    else none
  | 0x04 =>
    if off = 0x40000 then some (imgCtrl s v)
    else if off = 0x40030 then some (unlessSilent s p off fun s => funcStop s v)
    else if off = 0x40034 then some (unlessSilent s p off fun s => funcRestart s v)
    else none
  | 0x05 =>
    if s.isNode && (off = 0x50034 || (0x50080 ≤ off && off < 0x500A0)) then some (refuse s 0x0205)
    else if off = 0x50000 then some (seqCtrl s v)
    else if off = 0x50030 || (0x50040 ≤ off && off < 0x50060) then some (setptWrite s p off v)
    else if off = 0x50038 then some (spCtrl s p v)
    else none
  | 0x06 => if beyondChannels s off then some (discard s p off 0x1204) else none
  | 0x08 =>
    if off = 0x80004 then some (if bit v 0 then reinitReq s else s) else if off = 0x80014 then some (bankCtrl s v) else none
  | 0x0A => some (bankWrite 0 (off % 0x10000 / 4) v s)
  | 0x0B => some (bankWrite 1 (off % 0x10000 / 4) v s)
  | 0x18 => if off = 0x180014 then some (rtcmWrite s v) else none
  | 0x20 =>
    if off = 0x200004 then some (if bit v 0 then timSet s else s)
    else if 0x200200 ≤ off && off < 0x200280 && off % 32 = 0 && v % 2 ^ 24 = 0 then some (refuse s 0x060B ((off - 0x200200) / 32))
    else if 0x200200 ≤ off && off < 0x200280 && off % 32 = 8 then some (tcapArm s ((off - 0x200200) / 32) v)
    else none
  | 0x21 =>
    if off = 0x214000 then some (mdioWrite s v)
    else if off = 0x214004 then (if s.flag NET_MDIO_CMD_GO_BUSY then some s else none)
    else none
  | 0x22 =>
    let c := (off - 0x220000) / 0x1000
    if s.hasSec 12 c then canWrite s c (off % 0x1000) v else (canWrite s c (off % 0x1000) v).map fun _ => s
  | 0x25 => if off = 0x250004 then some (errCtrl s v) else if off = 0x250028 then some (injArm s v) else none
  | 0x27 => if off = 0x270004 then some (redCtrl s v) else none
  | 0x28 =>
    if off = 0x280004 then some (pstCtrl s v)
    else if off = 0x280040 then some (mcCtrl s v)
    else if off = 0x280050 then some (tunWrite s v)
    else if off = 0x280060 then some (if bit v 0 then imgdGo s else s)
    else none
  | 0x29 =>
    if off = 0x290004 then some (recCtrl s v)
    else if off = 0x290018 || off = 0x29001C then some (recClr s false ((off - 0x290018) / 4) v)
    else if 0x290020 ≤ off && off < 0x290030 then some (recClr s true ((off - 0x290020) / 4) v)
    else if off = 0x290048 then some (logAck s v)
    else if off = 0x290060 && bit v 2 && (mapOf s p).map (·.2) = some 0 then
      let keep (f : Fld) (i : Nat) : Fld × Nat := (f, if bit v i then 0 else s.rd f)
      some (discard (s.wrs [keep REC_EVT_LOG_FULL 1, keep REC_EVT_FREEZE_DONE 0]) p off 0x1207)
    else if off = 0x290050 then some { s.wr REC_LOG_RD_ADDR_ENTRY v with log := { s.log with rdWord := 0 } }
    else none
  | 0x2B =>
    if off = 0x2B000C then some (mapSelWrite s p v)
    else if off = 0x2B0020 then some (pendClear s false v)
    else if off = 0x2B0024 then some (pendClear s true v)
    else if 0x2B0040 ≤ off && off < 0x2B0050 then some (mbxWrite s p ((off - 0x2B0040) / 4) v)
    else if off = 0x2B0050 then some (mbxFree s v)
    else if 0x2B1000 ≤ off && off < 0x2B1200 then some (msixWrite s off v)
    else none
  | _ => none

/-- A write that reaches its register (R2, R14, R536): lanes the variant lacks take nothing. -/
def writeDo (s : State) (p : Path) (off v : Nat) : State :=
  if 0x100000 ≤ off && off < 0x140000 && s.lanes ≤ (off - 0x100000) / 0x1000 then s
  else match ownWrite s p off v with
    | some s => s
    | none =>
      match findReg regTable off with
      | some (r, idx) => writeRow s p r idx off v
      | none => s

/-- A host write of a word (R11, R526, R532, R534, R536). -/
def hostWrite (s : State) (p : Path) (off v : Nat) : State :=
  let s : State := { s with hst := { s.hst with mark := false } }
  if shut s p off true then hostDo s p off v id
  else if off % 4 ≠ 0 then discard s p off 0x1203
  else if !inBlocks off then discard s p off 0x1207
  else hostDo s p off v fun s => writeDo s p off (v % 2 ^ 32)

/-! ### REG records (R488) -/

/-- The policy lets a session write a register (R482, R488). -/
def hcMayWrite (s : State) (off : Nat) : Bool :=
  let never : Bool := (0x30000 ≤ off && off < 0x40000) || off = 0x20004 || off = 0x250004 || off = 0x250028
  match s.rd SEC_POLICY_HC_WRITE with
  | 1 => off = 0x50030 || off = 0x50038 || (0x50040 ≤ off && off < 0x50060)
  | 2 => !never
  | _ => false

/-- One operation of a REG record: the state, the value read and the status. An OP that is neither a read nor a write is refused. -/
def regOp (s : State) (place op off v : Nat) : State × Nat × Nat :=
  let p : Path := .sess place
  if op = 1 then
    let s1 := hostRead s p off
    (s1, (readValue s s1).getD 0, 0)
  else if op = 2 then
    if !hcMayWrite s off then (s, 0, 1)
    else
      let s1 := hostWrite s p off v
      (s1, 0, if s1.hst.mark then 2 else 0)
  else (s, 0, 2)

/-- The octets of one operation's result. -/
def regResult (v st : Nat) : List Byte := beBytes 4 v ++ [BitVec.ofNat 8 st]

/-- The operations of a record in order, while the session stays open (R493), up to one that waits for a clock (R456); what is left, and the
results. -/
def regOps (place id : Nat) : List (List Byte) → State × List Byte → State × List (List Byte) × List Byte × Bool
  | [], (s, out) => (s, [], out, false)
  | o :: r, (s, out) =>
    if s.sec_.sess.any fun x => x.id = id then
      let (s1, v, st) := regOp s place (u8 o 0) (beN o 1 3) (beN o 4 4)
      if s.hst.held.length < s1.hst.held.length then (s1, r, out, true)
      else regOps place id r (s1, out ++ regResult v st)
    else (s, [], out, false)

/-- A record runs: one REG_RESULT answers it once every operation has executed, or it waits. -/
def regRun (s : State) (j : RegJob) : State :=
  let (s, rest, out, wait) := regOps j.place j.id j.rest (s, j.out)
  if wait then { s with hst := { s.hst with jobs := ⟨j.id, j.place, rest, out⟩ :: s.hst.jobs } } else sendRecord s j.id 5 out

/-- Records of a session run in order until one waits. -/
def regRuns : List RegJob → State → State
  | [], s => s
  | j :: r, s =>
    if s.hst.jobs.any fun x => x.id = j.id then regRuns r { s with hst := { s.hst with jobs := s.hst.jobs ++ [j] } } else regRuns r (regRun s j)

/-- The waiting operation of a session has completed: its record goes on, and then the records behind it. -/
def regResume (s : State) (place v st : Nat) : State :=
  match s.hst.jobs.filter fun j => j.place = place with
  | [] => s
  | j :: r => regRuns ({ j with out := j.out ++ regResult v st } :: r) { s with hst := { s.hst with jobs := s.hst.jobs.filter fun j => j.place ≠ place } }

/-- A REG record's plaintext: 1 to 64 operations of 8 octets. One of another length has no effect beside its SEQ (notes/assumptions/30). -/
def regRecord (s : State) (id : Nat) (b : List Byte) : State :=
  match s.sec_.sess.find? fun x => x.id = id with
  | none => s
  | some x =>
    let n := b.length / 8
    if b.length % 8 ≠ 0 || n = 0 || 64 < n then s
    else regRuns [⟨id, x.place, (List.range n).map fun i => slice b (8 * i) 8, []⟩] s

/-! ### Accesses that waited (R456) -/

/-- The requester of a held access learns that it has completed: `v` is the value read, `st` a session's status. -/
def heldAnswer (s : State) (a : HeldAcc) (v st : Nat) : State :=
  match a.path with
  | .qspi => if a.data.isSome then { s with hst := { s.hst with q := { s.hst.q with busy := false, refused := st = 2 } } } else s
  | .tun src => pstSend s 0x30 1 src (s.rd SEQ_CYC_LO_CYC_LO) [1, v]
  | .sess place => regResume s place v st
  | _ => s

/-- The held accesses whose domain has its clock again execute in order (R456). -/
def runHeld (s : State) : State :=
  let waits (s : State) (a : HeldAcc) : Bool := [3, 4, 6].contains (s.rd (CLK_DOM_STS_STATE a.dom))
  let go := s.hst.held.filter fun a => !waits s a
  let s : State := { s with hst := { s.hst with held := s.hst.held.filter fun a => waits s a } }
  go.foldl (fun s a =>
    let s1 := match a.data with
      | some v => hostWrite s a.path a.off v
      | none => hostRead s a.path a.off
    heldAnswer s1 a ((readValue s s1).getD 0) (if a.data.isSome && s1.hst.mark then 2 else 0)) s

end Sys2Proof.Machine
end

