-- ==== Sys2Proof/Machine/Hst.lean ====
section
/-! DEFINITION. The host interface: register accesses of every path (R14, R456, R521 to R536), the QSPI target, tunnelled accesses at their
target (R434), REG records (R488), BAR2 (R523, R524), the PCIe endpoint (R525) and MSI-X (R539). -/

namespace Sys2Proof.Machine

open Sys2Proof

/-! ### Register accesses (R11 to R14, R522) -/

/-- R14, R522: a write of `v` at `off`; `whole` says that the request is exactly one DW with all four byte enables. -/
def execRegisterWrite (p : Path) (off v : Nat) (whole : Bool) (t : Nat) (s : State) : Host.Outcome State Fault Refusal :=
  let s := s.at t
  done (runHeld (if whole then hostWrite s p off v else if shut s p off true then hostDo s p off v id else discard s p off 0x1203))

/-- R12: a read of the low word of a pair, which latches the high word for the path. -/
def execPairLowWordRead (p : Path) (off : Nat) (whole : Bool) (t : Nat) (s : State) : Host.Outcome State Fault Refusal :=
  done (hostRead (s.at t) p off whole)

/-- R19: a write of SEQ_CTRL.START = 1. -/
def execSeqStart (p : Path) (t : Nat) (s : State) : Host.Outcome State Fault Refusal :=
  done (runHeld (hostDo (s.at t) p 0x50000 1 startWrite))

/-- R468. -/
def execPwrWake (p : Path) (t : Nat) (s : State) : Host.Outcome State Fault Refusal := done (runHeld (hostDo (s.at t) p 0x20008 2 pwrWake))

/-- R461. -/
def execClkGateReq (p : Path) (v t : Nat) (s : State) : Host.Outcome State Fault Refusal :=
  done (runHeld (hostDo (s.at t) p 0x10010 v fun s => clkGateReq s v))

/-- R452: a PLL locks. -/
def execPllLocked (x t : Nat) (s : State) : Host.Outcome State Fault Refusal := done (runHeld (pllLocked (s.at t) x))

/-- R460, R468: the idle handshake of a gate fails. -/
def execGateBusy (d t : Nat) (s : State) : Host.Outcome State Fault Refusal := done (runHeld (gateBusy (s.at t) d))

/-- R449: a source is proven. -/
def execSourceProven (k t : Nat) (s : State) : Host.Outcome State Fault Refusal := done (runHeld (sourceProven (s.at t) k))

/-- R458: a source has been clean for 10 ms. -/
def execClockReturn (d t : Nat) (s : State) : Host.Outcome State Fault Refusal := done (runHeld (clockReturn (s.at t) d))

/-- The held accesses of 2 ms and more complete with read data 0 and nothing written, CLK ACCESS_TIMEOUT for each (R456). An operation of a REG
record that completes so answers status 0 (the model's choice, notes/assumptions/32). -/
def accessTimeout (s : State) : State :=
  let late (a : HeldAcc) : Bool := a.since + usTicks 2000 ≤ s.tim.cnt
  let out := s.hst.held.filter late
  let s : State := { s with hst := { s.hst with held := s.hst.held.filter fun a => !late a } }
  out.foldl (fun s a =>
    let s := report s 0x0F11
    let s := if a.data.isNone then s.emit (.read a.path 0) else s
    heldAnswer s a 0 0) s

/-- R456. -/
def execAccessTimeout (t : Nat) (s : State) : Host.Outcome State Fault Refusal := done (accessTimeout (s.at t))

/-! ### Register-map version (R533) -/

/-- The word of HST_MAP_SEL with GO. -/
def mapSelWord (major lo hi : Nat) : Nat := 2 ^ 31 + major % 16 * 2 ^ 12 + lo % 16 * 2 ^ 8 + hi % 16 * 2 ^ 4

/-- R533. -/
def execHstMapSel (p : Path) (major lo hi t : Nat) (s : State) : Host.Outcome State Fault Refusal :=
  done (hostDo (s.at t) p 0x2B000C (mapSelWord major lo hi) fun s => mapSelWrite s p (mapSelWord major lo hi))

/-! ### The QSPI target (R526 to R529) -/

/-- Change the QSPI target's state. -/
def updQspi (s : State) (f : QspiSt → QspiSt) : State := { s with hst := { s.hst with q := f s.hst.q } }

/-- The fail octet and four octets of 0 (R528). -/
def qspiFail (s : State) : State := s.emit (.qspi (0xE7 :: List.replicate 4 0))

/-- No value is ready within 64 wait octets (R528). -/
def qspiLate (s : State) : State := qspiFail (report (updQspi s fun q => { q with timeout := true }) 0x120E)

/-- A read frame (R526, R528): the value is ready after `n` wait octets. A write that has yet to execute keeps its place ahead (R529). -/
def qspiRead (s : State) (off n : Nat) : State :=
  if !qspiAnswers s off false then qspiFail (updQspi s fun q => { q with denied := true })
  else if s.hst.q.busy then qspiLate s
  else
    let s1 := hostRead s .qspi off
    match readValue s s1 with
    | some v => if n < 64 then s1.emit (.qspi (List.replicate n 0 ++ [0xA5] ++ leBytes 4 v)) else qspiLate s1
    | none => qspiLate s1

/-- R528: opcode 0x0B. -/
def execQspiRead (off n t : Nat) (s : State) : Host.Outcome State Fault Refusal := done (qspiRead (s.at t) off n)
/-- R528: opcode 0xEB. -/
def execQspiQuadRead (off n t : Nat) (s : State) : Host.Outcome State Fault Refusal := done (qspiRead (s.at t) off n)

/-- A write frame at the rising edge of QS_CS_N (R526, R529); one that began while BUSY is discarded. -/
def qspiWrite (s : State) (off v : Nat) : State :=
  if s.hst.q.busy then updQspi (discard s .qspi off 0x120D) fun q => { q with frameErr := true }
  else
    let s1 := hostWrite s .qspi off v
    let busy : Bool := s.hst.held.length < s1.hst.held.length
    updQspi s1 fun q => { q with refused := s1.hst.mark, busy := busy }

/-- R529: opcode 0x02. -/
def execQspiWrite (off v t : Nat) (s : State) : Host.Outcome State Fault Refusal := done (qspiWrite (s.at t) off v)
/-- R529: opcode 0x32. -/
def execQspiQuadWrite (off v t : Nat) (s : State) : Host.Outcome State Fault Refusal := done (qspiWrite (s.at t) off v)

/-- The status octet (R529). -/
def qspiStatus (s : State) : Nat :=
  let q := s.hst.q
  b2n (qspiWrites s) * 128 + b2n q.denied * 16 + b2n q.timeout * 8 + b2n q.refused * 4 + b2n q.frameErr * 2 + b2n q.busy

/-- R529: opcode 0x05; bits 4 to 1 clear. -/
def execQspiReadStatus (t : Nat) (s : State) : Host.Outcome State Fault Refusal :=
  let s := s.at t
  let s1 := s.emit (.qspi [BitVec.ofNat 8 (qspiStatus s)])
  done (updQspi s1 fun q => { q with denied := false, timeout := false, refused := false, frameErr := false })

/-- R527: an unknown opcode, or a frame that ends inside a phase; `off` is the address as far as the frame gave it. -/
def execQspiFrameError (off t : Nat) (s : State) : Host.Outcome State Fault Refusal :=
  done (updQspi (discard (s.at t) .qspi off 0x120D) fun q => { q with frameErr := true })

/-! ### Tunnelled accesses at their target (R434) -/

/-- An access of another device: executed as a host access, or REFUSED where the policy forbids tunnelled writes; then answered. -/
def tunRequest (s : State) (src : Nat) (wr : Bool) (off v : Nat) : State :=
  let answer (s : State) (res data : Nat) : State := pstSend s 0x30 1 src (s.rd SEQ_CYC_LO_CYC_LO) [res, data]
  if wr then
    if !bit (s.rd SEC_POLICY_FLAGS) 4 then answer s 4 0
    else
      let s1 := hostWrite s (.tun src) off v
      if s.hst.held.length < s1.hst.held.length then s1 else answer s1 1 0
  else
    let s1 := hostRead s (.tun src) off
    match readValue s s1 with
    | some d => answer s1 1 d
    | none => s1

/-- R434, R542: a TUNNEL frame. -/
def execTunnel (h : PstHdr) (m : TunMsg) (t : Nat) (s : State) : Host.Outcome State Fault Refusal :=
  done (pstTake (s.at t) h 0x30 fun s =>
    match m with
    | .req wr off v => tunRequest s h.src wr off v
    | .ans res data => tunAnswer s h.src res data
    | .mbx i b => mbxArrive s h.src i b
    | .mbxAns i res => mbxAnswer s h.src i res)

/-! ### REG records (R488) -/

/-- R488. -/
def execReg (id seq : Nat) (ct tag : List Byte) (t : Nat) (s : State) : Host.Outcome State Fault Refusal :=
  done (takeRecord (s.at t) id 4 seq ct tag fun s b => regRecord s id b)

/-! ### BAR2 (R522 to R524, R534, R542) -/

/-- Why a write at a BAR2 offset does not land; 0 when it does. -/
def bar2Code (s : State) (off : Nat) : Nat :=
  if off < 0x1000 then
    if mapOf s .pcie = some (4, 0) then 0x1207
    else if s.flag (HST_MBX_OUT_GO_BUSY (off / 0x400)) then 0x1212
    else 0
  else if 0x10000 ≤ off && off < 0x18000 then 0
  else if 0x100000 ≤ off && off < 0x200000 then 0
  else if 0x2000000 ≤ off && off < 0x4000000 then
    if (s.img.job.any fun j => j.src = 3) || s.img.chk.any fun j => j.src = 3 then 0x120B else 0
  else 0x1207

/-- The octets of a write whose byte enables are set, from an offset on. -/
def bar2Put (s : State) (off : Nat) : List (Option Byte) → State
  | [] => s
  | none :: r => bar2Put s (off + 1) r
  | some b :: r =>
    let c := bar2Code s off
    let s := if c = 0 then { s with hst := { s.hst with mem := sput (fun _ => (0 : Byte)) s.hst.mem off b } } else discard s .pcie off c
    bar2Put s (off + 1) r

/-- A BAR2 write (R524); octets not enabled are none, and `ep` is the poison bit. -/
def bar2Write (s : State) (off : Nat) (b : List (Option Byte)) (ep : Bool) : State :=
  if s.hst.d3hot then s
  else if ep then discard s .pcie off 0x120C
  else
    let ok : Bool := (List.range b.length).all fun i => (b.getD i none).isNone || bar2Code s (off + i) = 0
    bar2Put (if ok then endRun s .pcie else s) off b

/-- R524. -/
def execBar2Write (off : Nat) (b : List (Option Byte)) (ep : Bool) (t : Nat) (s : State) : Host.Outcome State Fault Refusal :=
  done (bar2Write (s.at t) off b ep)

/-- The snapshot bank (R512): bins, then the instruments' registers as they were copied. -/
def snapWord (s : State) (o : Nat) : Nat :=
  if o < 0x10000 then (sget (fun _ => (0 : Word)) s.rcd.snapBins (o / 4)).toNat
  else if o < 0x11000 then 0
  else regAt { s with regs := s.rcd.snapRegs } (0x291000 + (o - 0x11000) / 4 * 4)

/-- The word that a BAR2 read answers at a multiple of 4 (R523, R524): 0 at reserved offsets, in the request window and in windows that version
4.0 hides; the second part is the state, whose free values a place of the log never written may have drawn. The table has no command for such a
read, which changes nothing else. -/
def bar2Read (s : State) (off : Nat) : Nat × State :=
  let plain := (u32 (bar2Bytes s off 4) 0, s)
  if off < 0x2000 then (if mapOf s .pcie = some (4, 0) then (0, s) else plain)
  else if 0x18000 ≤ off && off < 0x20000 then plain
  else if 0x40000 ≤ off && off < 0x50000 then ((sget (fun _ => (0 : Word)) s.rcd.bins ((off - 0x40000) / 4)).toNat, s)
  else if 0x50000 ≤ off && off < 0x64000 then (snapWord s (off - 0x50000), s)
  else if 0x80000 ≤ off && off < 0x100000 then logWord s ((off - 0x80000) / 32) (off % 32 / 4)
  else if (0x100000 ≤ off && off < 0x200000) || 0x2000000 ≤ off then plain
  else (0, s)

/-! ### The PCIe endpoint (R521, R525) -/

/-- The standard header of the endpoint's configuration space (R521), where the rule gives a word: identities, class and the base
addresses that are not implemented; none elsewhere. -/
def configWord (s : State) (o : Nat) : Option Nat :=
  let v := plainWord s 4
  match o with
  | 0x00 => some (0x0A09 * 2 ^ 16 + 0x1F4C)
  | 0x08 => some (0x118000 * 2 ^ 8 + v / 2 ^ 16 % 2 ^ 8)
  | 0x2C => some (v % 2 ^ 16 * 2 ^ 16 + 0x1F4C)
  | 0x14 | 0x1C | 0x20 | 0x24 | 0x30 => some 0
  | _ => none


/-- PERST_N, a hot reset or a link disable: the configuration space, the MSI-X table and PBA, and the PCIe copy of the map registers. An access
of the path that has not executed is lost (R545). -/
def perst (s : State) : State :=
  let gone (k : Nat) : Bool := (0x2B1000 * 8 ≤ k && k < 0x2B1200 * 8) || (0x2B2000 * 8 ≤ k && k < 0x2B2008 * 8) || (0x2B000C * 8 ≤ k && k < 0x2B0014 * 8)
  { s with
    regs := skeep (fun k => !gone k) s.regs,
    hst := { s.hst with
      msixEn := false, funcMask := false, busMaster := false, d3hot := false, held := s.hst.held.filter fun a => a.path ≠ .pcie } }

/-- R525. -/
def execPerst (t : Nat) (s : State) : Host.Outcome State Fault Refusal := done (perst (s.at t))

/-- R521, R525: the link comes up at a generation and width. -/
def execPcieLinkUp (gen width t : Nat) (s : State) : Host.Outcome State Fault Refusal :=
  let s := s.at t
  done (
    if s.flag HST_STATUS_LINK_UP || !onPrimary s 9 || gen = 0 || 3 < gen || width = 0 || 2 < width then s
    else report (s.wrs [(HST_STATUS_LINK_UP, 1), (HST_STATUS_GEN, gen), (HST_STATUS_WIDTH, width)]) 0x120F)

/-- R525: the link goes down. -/
def execPcieLinkDown (t : Nat) (s : State) : Host.Outcome State Fault Refusal := done (pcieDown (s.at t))

/-- R525: a configuration write moves the endpoint to D3hot, or back to D0. -/
def execD3hot (on : Bool) (t : Nat) (s : State) : Host.Outcome State Fault Refusal :=
  let s := s.at t
  done { s with hst := { s.hst with d3hot := on } }

/-! ### MSI-X (R539) -/

/-- R539: a table write clears the Mask bit of a vector, or, with none, a configuration write leaves MSI-X Enable, Function Mask and Bus Master
Enable as given. -/
def execMsixUnmask (v : Option Nat) (en mask bm : Bool) (t : Nat) (s : State) : Host.Outcome State Fault Refusal :=
  let s := s.at t
  done (match v with
    | some v =>
      if 32 ≤ v then s
      else
        let off := 0x2B100C + 16 * v
        let w := s.rd (HST_MSIX_TABLE_WORD v 3) / 2 * 2
        hostDo s .pcie off w fun s => msixWrite s off w
    | none =>
      let s : State := { s with hst := { s.hst with msixEn := en, funcMask := mask, busMaster := bm } }
      (List.range 32).foldl unmaskVec s)

/-- R539: the holdoff of a vector ends, and a deferred message goes out if the vector is still asserted. -/
def execHoldoffEnd (v t : Nat) (s : State) : Host.Outcome State Fault Refusal :=
  let s := s.at t
  done (match s.hst.holdUntil.find? fun p => p.1 = v with
    | some x =>
      if s.tim.cnt < x.2 then s
      else
        let due := bit s.hst.deferMask v
        let s : State := { s with hst := { s.hst with
          holdUntil := s.hst.holdUntil.filter fun p => p.1 ≠ v, deferMask := setBit s.hst.deferMask v false } }
        if due && bit (s.rd HST_VEC_STS_ASSERTED) v then vecMessage s v else s
    | none => s)

end Sys2Proof.Machine
end

