-- ==== Sys2Proof/Machine/Dispatch.lean ====
section
/-! DEFINITION. exec: one arm per command of spec/opcode_table.json, each a direct call of its meaning. -/

namespace Sys2Proof.Machine

open Sys2Proof

def exec (i : Instr) (s : State) : Host.Outcome State Fault Refusal :=
  match i with
  | .registerWrite p off v whole t => Sys2Proof.Machine.execRegisterWrite p off v whole t s
  | .pairLowWordRead p off whole t => Sys2Proof.Machine.execPairLowWordRead p off whole t s
  | .seqStart p t => Sys2Proof.Machine.execSeqStart p t s
  | .seqHalt p t => Sys2Proof.Machine.execSeqHalt p t s
  | .haltComplete t => Sys2Proof.Machine.execHaltComplete t s
  | .t0 t => Sys2Proof.Machine.execT0 t s
  | .stageStart n k t => Sys2Proof.Machine.execStageStart n k t s
  | .stageEnd n k att t => Sys2Proof.Machine.execStageEnd n k att t s
  | .stageDeadline n k t => Sys2Proof.Machine.execStageDeadline n k t s
  | .failureSample n t => Sys2Proof.Machine.execFailureSample n t s
  | .commit n t => Sys2Proof.Machine.execCommit n t s
  | .seqWatchdog n t => Sys2Proof.Machine.execSeqWatchdog n t s
  | .spArm p t => Sys2Proof.Machine.execSpArm p t s
  | .spDisarm p t => Sys2Proof.Machine.execSpDisarm p t s
  | .imgLoad p src t => Sys2Proof.Machine.execImgLoad p src t s
  | .imgCheck p src t => Sys2Proof.Machine.execImgCheck p src t s
  | .imgStore p src t => Sys2Proof.Machine.execImgStore p src t s
  | .imgConfirm p src t => Sys2Proof.Machine.execImgConfirm p src t s
  | .imgAbandon p src t => Sys2Proof.Machine.execImgAbandon p src t s
  | .loadComplete bad t => Sys2Proof.Machine.execLoadComplete bad t s
  | .checkComplete bad t => Sys2Proof.Machine.execCheckComplete bad t s
  | .storeComplete good t => Sys2Proof.Machine.execStoreComplete good t s
  | .sourceTimeout t => Sys2Proof.Machine.execSourceTimeout t s
  | .funcStop p v t => Sys2Proof.Machine.execFuncStop p v t s
  | .groupStopped g t => Sys2Proof.Machine.execGroupStopped g t s
  | .funcRestart p v t => Sys2Proof.Machine.execFuncRestart p v t s
  | .firSample k m t => Sys2Proof.Machine.execFirSample k m t s
  | .gclkRateCheck edges t => Sys2Proof.Machine.execGclkRateCheck edges t s
  | .occupancyWindow a rise fall t => Sys2Proof.Machine.execOccupancyWindow a rise fall t s
  | .feSpiDone data t => Sys2Proof.Machine.execFeSpiDone data t s
  | .acqPassDone peak mean cb db t => Sys2Proof.Machine.execAcqPassDone peak mean cb db t s
  | .loopUpdate c ip q ee ll ve vl t => Sys2Proof.Machine.execLoopUpdate c ip q ee ll ve vl t s
  | .pullInEnd c t => Sys2Proof.Machine.execPullInEnd c t s
  | .gnssEpoch n k t => Sys2Proof.Machine.execGnssEpoch n k t s
  | .gnssJobDispatch n t => Sys2Proof.Machine.execGnssJobDispatch n t s
  | .navWordDecoded c w good t => Sys2Proof.Machine.execNavWordDecoded c w good t s
  | .ephemerisSave t => Sys2Proof.Machine.execEphemerisSave t s
  | .gnsRtcmData p v t => Sys2Proof.Machine.execGnsRtcmData p v t s
  | .rtcmFrame eth t => Sys2Proof.Machine.execRtcmFrame eth t s
  | .oceReinit p t => Sys2Proof.Machine.execOceReinit p t s
  | .oceBankSwap p t => Sys2Proof.Machine.execOceBankSwap p t s
  | .oceBankSeal p t => Sys2Proof.Machine.execOceBankSeal p t s
  | .bankWordWrite p b w v t => Sys2Proof.Machine.execBankWordWrite p b w v t s
  | .laneJobStart lane j n t => Sys2Proof.Machine.execLaneJobStart lane j n t s
  | .laneJobEnd lane j n t => Sys2Proof.Machine.execLaneJobEnd lane j n t s
  | .laneJobDeadline lane j n point iter t => Sys2Proof.Machine.execLaneJobDeadline lane j n point iter t s
  | .laneMemDataRead p l t => Sys2Proof.Machine.execLaneMemDataRead p l t s
  | .laneResidueFault lane j n mech t => Sys2Proof.Machine.execLaneResidueFault lane j n mech t s
  | .oceCheckFault n mech t => Sys2Proof.Machine.execOceCheckFault n mech t s
  | .firCheckFault n ch mech t => Sys2Proof.Machine.execFirCheckFault n ch mech t s
  | .seqCompare t => Sys2Proof.Machine.execSeqCompare t s
  | .sramCorrected unit index addr n mower t => Sys2Proof.Machine.execSramCorrected unit index addr n mower t s
  | .sramUncorrectable a syn addr mower t => Sys2Proof.Machine.execSramUncorrectable a syn addr mower t s
  | .forceS p t => Sys2Proof.Machine.execForceS p t s
  | .clrCnt p t => Sys2Proof.Machine.execClrCnt p t s
  | .errInjArm p v t => Sys2Proof.Machine.execErrInjArm p v t s
  | .jnlRdDataRead p t => Sys2Proof.Machine.execJnlRdDataRead p t s
  | .journalMirrorCopy good t => Sys2Proof.Machine.execJournalMirrorCopy good t s
  | .restartResume t => Sys2Proof.Machine.execRestartResume t s
  | .mowerPassStart t => Sys2Proof.Machine.execMowerPassStart t s
  | .mowerPassEnd skipped t => Sys2Proof.Machine.execMowerPassEnd skipped t s
  | .encSample e n k t => Sys2Proof.Machine.execEncSample e n k t s
  | .encTransferEnd e w t => Sys2Proof.Machine.execEncTransferEnd e w t s
  | .monoflopEnd e t => Sys2Proof.Machine.execMonoflopEnd e t s
  | .relayTransfer e w t => Sys2Proof.Machine.execRelayTransfer e w t s
  | .relayAbort e t => Sys2Proof.Machine.execRelayAbort e t s
  | .quadEdge e a b t => Sys2Proof.Machine.execQuadEdge e a b t s
  | .quadZEdge e t => Sys2Proof.Machine.execQuadZEdge e t s
  | .pinLevelAccept p level t => Sys2Proof.Machine.execPinLevelAccept p level t s
  | .pwmPeriodStart p t => Sys2Proof.Machine.execPwmPeriodStart p t s
  | .safeTick raw rb agree ecc c => Sys2Proof.Machine.execSafeTick raw rb agree ecc c s
  | .safeInputAccept x level c => Sys2Proof.Machine.execSafeInputAccept x level c s
  | .discrepancyTimeout f c => Sys2Proof.Machine.execDiscrepancyTimeout f c s
  | .testPulseStart p raw c => Sys2Proof.Machine.execTestPulseStart p raw c s
  | .testPulseEnd p low c => Sys2Proof.Machine.execTestPulseEnd p low c s
  | .stop1Expired f c => Sys2Proof.Machine.execStop1Expired f c s
  | .resetPressEnd c => Sys2Proof.Machine.execResetPressEnd c s
  | .resetStuck c => Sys2Proof.Machine.execResetStuck c s
  | .twoHandSyncTimeout f c => Sys2Proof.Machine.execTwoHandSyncTimeout f c s
  | .readbackFault o c => Sys2Proof.Machine.execReadbackFault o c s
  | .darkPulse o side low c => Sys2Proof.Machine.execDarkPulse o side low c s
  | .safeClockCheck frc src c => Sys2Proof.Machine.execSafeClockCheck frc src c s
  | .safeEventDrain t => Sys2Proof.Machine.execSafeEventDrain t s
  | .frcStopWatchdog t => Sys2Proof.Machine.execFrcStopWatchdog t s
  | .sourceOffset slot theta t => Sys2Proof.Machine.execSourceOffset slot theta t s
  | .sourceLossTimeout slot t => Sys2Proof.Machine.execSourceLossTimeout slot t s
  | .sourceRevert slot t => Sys2Proof.Machine.execSourceRevert slot t s
  | .timeStep t => Sys2Proof.Machine.execTimeStep t s
  | .holdoverLimit t => Sys2Proof.Machine.execHoldoverLimit t s
  | .ppsOutPulse t => Sys2Proof.Machine.execPpsOutPulse t s
  | .ppsWidthEnd t => Sys2Proof.Machine.execPpsWidthEnd t s
  | .timSet p t => Sys2Proof.Machine.execTimSet p t s
  | .timNowRead p t => Sys2Proof.Machine.execTimNowRead p t s
  | .timConvRead p t => Sys2Proof.Machine.execTimConvRead p t s
  | .ptpSync h t1 t2 t => Sys2Proof.Machine.execPtpSync h t1 t2 t s
  | .ptpFollowUp h t1 t => Sys2Proof.Machine.execPtpFollowUp h t1 t s
  | .ptpAnnounce h d utc t => Sys2Proof.Machine.execPtpAnnounce h d utc t s
  | .ptpDelayResp h t4 mine t => Sys2Proof.Machine.execPtpDelayResp h t4 mine t s
  | .ptpAnnounceTimeout clock port t => Sys2Proof.Machine.execPtpAnnounceTimeout clock port t s
  | .ppsInEdge t dur => Sys2Proof.Machine.execPpsInEdge t dur s
  | .tcapCapture b rising t => Sys2Proof.Machine.execTcapCapture b rising t s
  | .tcapTrigger b t => Sys2Proof.Machine.execTcapTrigger b t s
  | .tcapArm p b v t => Sys2Proof.Machine.execTcapArm p b v t s
  | .tcapCapRead p b t => Sys2Proof.Machine.execTcapCapRead p b t s
  | .ethLinkUp p mbps full t => Sys2Proof.Machine.execEthLinkUp p mbps full t s
  | .ethLinkDown p mode t => Sys2Proof.Machine.execEthLinkDown p mode t s
  | .mdioAddress a phy dev v t => Sys2Proof.Machine.execMdioAddress a phy dev v t s
  | .mdioWrite a c45 phy reg v t => Sys2Proof.Machine.execMdioWrite a c45 phy reg v t s
  | .mdioRead a c45 phy reg t => Sys2Proof.Machine.execMdioRead a c45 phy reg t s
  | .mdioDone data noresp t => Sys2Proof.Machine.execMdioDone data noresp t s
  | .ethFrameRx p b fcs full ts t => Sys2Proof.Machine.execEthFrameRx p b fcs full ts t s
  | .ethLaunch p t => Sys2Proof.Machine.execEthLaunch p t s
  | .ethTxComplete p ts t => Sys2Proof.Machine.execEthTxComplete p ts t s
  | .canFrameRx c w0 dlc esi rtr data sof t => Sys2Proof.Machine.execCanFrameRx c w0 dlc esi rtr data sof t s
  | .canIntegrated c t => Sys2Proof.Machine.execCanIntegrated c t s
  | .canError c lec phase tx dom t => Sys2Proof.Machine.execCanError c lec phase tx dom t s
  | .canBusoffRecovered c t => Sys2Proof.Machine.execCanBusoffRecovered c t s
  | .canProtocolException c t => Sys2Proof.Machine.execCanProtocolException c t s
  | .canTxLaunch c b t => Sys2Proof.Machine.execCanTxLaunch c b t s
  | .canTxDone c b sof tdcv t => Sys2Proof.Machine.execCanTxDone c b sof tdcv t s
  | .canTxReq a c v t => Sys2Proof.Machine.execCanTxReq a c v t s
  | .canTxCancel a c v att t => Sys2Proof.Machine.execCanTxCancel a c v att t s
  | .canRxqPop a c q t => Sys2Proof.Machine.execCanRxqPop a c q t s
  | .canHpbPop a c t => Sys2Proof.Machine.execCanHpbPop a c t s
  | .canProbeTimeout c t => Sys2Proof.Machine.execCanProbeTimeout c t s
  | .agreeDeadline n t => Sys2Proof.Machine.execAgreeDeadline n t s
  | .redPromote p t => Sys2Proof.Machine.execRedPromote p t s
  | .redStandDown p t => Sys2Proof.Machine.execRedStandDown p t s
  | .redResync p t => Sys2Proof.Machine.execRedResync p t s
  | .redSleep p t => Sys2Proof.Machine.execRedSleep p t s
  | .clrFeed p t => Sys2Proof.Machine.execClrFeed p t s
  | .resyncCopyDone t => Sys2Proof.Machine.execResyncCopyDone t s
  | .reserveWakeTimer t => Sys2Proof.Machine.execReserveWakeTimer t s
  | .mirrorDone ok t => Sys2Proof.Machine.execMirrorDone ok t s
  | .wakeN t => Sys2Proof.Machine.execWakeN t s
  | .noPartnerTimeout recs t => Sys2Proof.Machine.execNoPartnerTimeout recs t s
  | .vaonLoss x low t => Sys2Proof.Machine.execVaonLoss x low t s
  | .feedWarning x on t => Sys2Proof.Machine.execFeedWarning x on t s
  | .feedLoss x on t => Sys2Proof.Machine.execFeedLoss x on t s
  | .feedRestored x t => Sys2Proof.Machine.execFeedRestored x t s
  | .pisteTrained p l0 l1 t => Sys2Proof.Machine.execPisteTrained p l0 l1 t s
  | .pisteTrainTimeout p t => Sys2Proof.Machine.execPisteTrainTimeout p t s
  | .pisteLaneRetry p ok t => Sys2Proof.Machine.execPisteLaneRetry p ok t s
  | .pisteLinkLoss p t => Sys2Proof.Machine.execPisteLinkLoss p t s
  | .helloSend p t => Sys2Proof.Machine.execHelloSend p t s
  | .helloTimeout p t => Sys2Proof.Machine.execHelloTimeout p t s
  | .pisteFrameError p tx t => Sys2Proof.Machine.execPisteFrameError p tx t s
  | .delayTimer p t => Sys2Proof.Machine.execDelayTimer p t s
  | .hello h d t => Sys2Proof.Machine.execHello h d t s
  | .noticeFailSilent h t => Sys2Proof.Machine.execNoticeFailSilent h t s
  | .noticeOutOfStep h t => Sys2Proof.Machine.execNoticeOutOfStep h t s
  | .noticeActingMaster h t => Sys2Proof.Machine.execNoticeActingMaster h t s
  | .noticeMasterLost h t => Sys2Proof.Machine.execNoticeMasterLost h t s
  | .delay p t1 t2 t3 t4 t => Sys2Proof.Machine.execDelay p t1 t2 t3 t4 t s
  | .align h launch corr valid t => Sys2Proof.Machine.execAlign h launch corr valid t s
  | .modeStart h t0 t => Sys2Proof.Machine.execModeStart h t0 t s
  | .join h k t => Sys2Proof.Machine.execJoin h k t s
  | .prepare h id groups t => Sys2Proof.Machine.execPrepare h id groups t s
  | .ack h id t => Sys2Proof.Machine.execAck h id t s
  | .nack h id t => Sys2Proof.Machine.execNack h id t s
  | .seal h id k t => Sys2Proof.Machine.execSeal h id k t s
  | .vote h id ready t => Sys2Proof.Machine.execVote h id ready t s
  | .mcCommit h id k t => Sys2Proof.Machine.execMcCommit h id k t s
  | .mcAbort h id t => Sys2Proof.Machine.execMcAbort h id t s
  | .applied h id t => Sys2Proof.Machine.execApplied h id t s
  | .reload h t => Sys2Proof.Machine.execReload h t s
  | .agree h b t => Sys2Proof.Machine.execAgree h b t s
  | .srcword h w t => Sys2Proof.Machine.execSrcword h w t s
  | .digest h dig clean fmts t => Sys2Proof.Machine.execDigest h dig clean fmts t s
  | .commitblk h r t => Sys2Proof.Machine.execCommitblk h r t s
  | .share h m t => Sys2Proof.Machine.execShare h m t s
  | .multJob h scen d6 warm cap prob t => Sys2Proof.Machine.execMultJob h scen d6 warm cap prob t s
  | .multRes h scen r t => Sys2Proof.Machine.execMultRes h scen r t s
  | .gnssRec h id ls r t => Sys2Proof.Machine.execGnssRec h id ls r t s
  | .ckpt h k tag senders its bad t => Sys2Proof.Machine.execCkpt h k tag senders its bad t s
  | .jrec h r ok t => Sys2Proof.Machine.execJrec h r ok t s
  | .tunnel h m t => Sys2Proof.Machine.execTunnel h m t s
  | .image h m t => Sys2Proof.Machine.execImage h m t s
  | .handback p t => Sys2Proof.Machine.execHandback p t s
  | .pstReload p t => Sys2Proof.Machine.execPstReload p t s
  | .mcPrepare p groups t => Sys2Proof.Machine.execMcPrepare p groups t s
  | .mcSeal p t => Sys2Proof.Machine.execMcSeal p t s
  | .mcHostAbort p t => Sys2Proof.Machine.execMcHostAbort p t s
  | .prepDlTimeout t => Sys2Proof.Machine.execPrepDlTimeout t s
  | .appliedCheck t => Sys2Proof.Machine.execAppliedCheck t s
  | .tunnelRead p dst t => Sys2Proof.Machine.execTunnelRead p dst t s
  | .tunnelWrite p dst t => Sys2Proof.Machine.execTunnelWrite p dst t s
  | .tunnelTimeout t => Sys2Proof.Machine.execTunnelTimeout t s
  | .imgdGo p t => Sys2Proof.Machine.execImgdGo p t s
  | .sourceProven k t => Sys2Proof.Machine.execSourceProven k t s
  | .pllLocked x t => Sys2Proof.Machine.execPllLocked x t s
  | .clockMonitorTrip k t => Sys2Proof.Machine.execClockMonitorTrip k t s
  | .noClockTimeout t => Sys2Proof.Machine.execNoClockTimeout t s
  | .clockReturn d t => Sys2Proof.Machine.execClockReturn d t s
  | .rampStep d t => Sys2Proof.Machine.execRampStep d t s
  | .clkGateReq p v t => Sys2Proof.Machine.execClkGateReq p v t s
  | .gateDone d t => Sys2Proof.Machine.execGateDone d t s
  | .gateBusy d t => Sys2Proof.Machine.execGateBusy d t s
  | .accessTimeout t => Sys2Proof.Machine.execAccessTimeout t s
  | .fmeasGo p v t => Sys2Proof.Machine.execFmeasGo p v t s
  | .fmeasAbort p t => Sys2Proof.Machine.execFmeasAbort p t s
  | .fmeasDone count t => Sys2Proof.Machine.execFmeasDone count t s
  | .por => Sys2Proof.Machine.execPor s
  | .pinReset => Sys2Proof.Machine.execPinReset s
  | .sysReset p key t => Sys2Proof.Machine.execSysReset p key t s
  | .mainDieRelease straps solv blocks page block bad chain t => Sys2Proof.Machine.execMainDieRelease straps solv blocks page block bad chain t s
  | .phyResetRelease t => Sys2Proof.Machine.execPhyResetRelease t s
  | .railsGood t => Sys2Proof.Machine.execRailsGood t s
  | .railUndervoltage src t => Sys2Proof.Machine.execRailUndervoltage src t s
  | .pwrDoze p t => Sys2Proof.Machine.execPwrDoze p t s
  | .pwrWake p t => Sys2Proof.Machine.execPwrWake p t s
  | .pwrSleep p t => Sys2Proof.Machine.execPwrSleep p t s
  | .sleepEntryComplete src t => Sys2Proof.Machine.execSleepEntryComplete src t s
  | .sleepExit src => Sys2Proof.Machine.execSleepExit src s
  | .getId p t => Sys2Proof.Machine.execGetId p t s
  | .provision p bad t => Sys2Proof.Machine.execProvision p bad t s
  | .addKey p bad t => Sys2Proof.Machine.execAddKey p bad t s
  | .revoke p bad t => Sys2Proof.Machine.execRevoke p bad t s
  | .raiseSecver p bad t => Sys2Proof.Machine.execRaiseSecver p bad t s
  | .setClockOtp p bad t => Sys2Proof.Machine.execSetClockOtp p bad t s
  | .deploy p bad t => Sys2Proof.Machine.execDeploy p bad t s
  | .retire p bad t => Sys2Proof.Machine.execRetire p bad t s
  | .debugUnlock p t => Sys2Proof.Machine.execDebugUnlock p t s
  | .debugLock p t => Sys2Proof.Machine.execDebugLock p t s
  | .auditSeal p t => Sys2Proof.Machine.execAuditSeal p t s
  | .jtagExtest t => Sys2Proof.Machine.execJtagExtest t s
  | .init port good pay t => Sys2Proof.Machine.execInit port good pay t s
  | .fin id sig t => Sys2Proof.Machine.execFin id sig t s
  | .reg id seq ct tag t => Sys2Proof.Machine.execReg id seq ct tag t s
  | .close id seq ct tag t => Sys2Proof.Machine.execClose id seq ct tag t s
  | .finTimeout id t => Sys2Proof.Machine.execFinTimeout id t s
  | .sessIdleTimeout id t => Sys2Proof.Machine.execSessIdleTimeout id t s
  | .lockoutEnd port t => Sys2Proof.Machine.execLockoutEnd port t s
  | .entropyRetest ok t => Sys2Proof.Machine.execEntropyRetest ok t s
  | .auditAck p v t => Sys2Proof.Machine.execAuditAck p v t s
  | .auditRdDataRead p t => Sys2Proof.Machine.execAuditRdDataRead p t s
  | .frcTrim code err t => Sys2Proof.Machine.execFrcTrim code err t s
  | .serdesAdapt p ok train t => Sys2Proof.Machine.execSerdesAdapt p ok train t s
  | .tempReading v t => Sys2Proof.Machine.execTempReading v t s
  | .nandPatrol worn t => Sys2Proof.Machine.execNandPatrol worn t s
  | .nandRefresh maxE minE t => Sys2Proof.Machine.execNandRefresh maxE minE t s
  | .nandBadBlock t => Sys2Proof.Machine.execNandBadBlock t s
  | .incidentMirrorCopy t => Sys2Proof.Machine.execIncidentMirrorCopy t s
  | .freeze p t => Sys2Proof.Machine.execFreeze p t s
  | .clrLost p t => Sys2Proof.Machine.execClrLost p t s
  | .recClr p trk w v t => Sys2Proof.Machine.execRecClr p trk w v t s
  | .recLogAck p v t => Sys2Proof.Machine.execRecLogAck p v t s
  | .recLogRdDataRead p t => Sys2Proof.Machine.execRecLogRdDataRead p t s
  | .bar2Write off b ep t => Sys2Proof.Machine.execBar2Write off b ep t s
  | .perst t => Sys2Proof.Machine.execPerst t s
  | .pcieLinkUp gen width t => Sys2Proof.Machine.execPcieLinkUp gen width t s
  | .pcieLinkDown t => Sys2Proof.Machine.execPcieLinkDown t s
  | .qspiRead off n t => Sys2Proof.Machine.execQspiRead off n t s
  | .qspiQuadRead off n t => Sys2Proof.Machine.execQspiQuadRead off n t s
  | .qspiWrite off v t => Sys2Proof.Machine.execQspiWrite off v t s
  | .qspiQuadWrite off v t => Sys2Proof.Machine.execQspiQuadWrite off v t s
  | .qspiReadStatus t => Sys2Proof.Machine.execQspiReadStatus t s
  | .qspiFrameError off t => Sys2Proof.Machine.execQspiFrameError off t s
  | .hstMapSel p major lo hi t => Sys2Proof.Machine.execHstMapSel p major lo hi t s
  | .msixUnmask v en mask bm t => Sys2Proof.Machine.execMsixUnmask v en mask bm t s
  | .holdoffEnd v t => Sys2Proof.Machine.execHoldoffEnd v t s
  | .mbxSend p m len dst t => Sys2Proof.Machine.execMbxSend p m len dst t s
  | .mbxTimeout m t => Sys2Proof.Machine.execMbxTimeout m t s
  | .mbxFree p v t => Sys2Proof.Machine.execMbxFree p v t s
  | .auditMirrorCopy t => Sys2Proof.Machine.execAuditMirrorCopy t s
  | .entropyFail t => Sys2Proof.Machine.execEntropyFail t s
  | .d3hot on t => Sys2Proof.Machine.execD3hot on t s

end Sys2Proof.Machine
end

