-- ==== Sys2Proof/Safety.lean ====
section
/-! DEFINITION. What counts as a sound state, in the terms the statements use: the canonical form of the register file and of the memories,
and the agreement of the interrupt outputs with their sources (R537 to R540). -/

namespace Sys2Proof.Machine

open Sys2Proof

/-- The register file and every addressed memory of the block stand in their canonical form. -/
def State.canonical (s : State) : Bool :=
  swf resetValue s.regs && swf (fun _ => (none : Option Word)) s.shadow && swf (fun _ => (0 : Byte)) s.hst.mem
    && swf (fun _ => (0 : Word)) s.banks && swf (fun _ => (0 : Word)) s.lmem && swf (fun _ => (0 : Word)) s.rcd.bins

/-- The interrupt outputs agree with their sources: HST_SRC_PEND shows every level source as its block has it (R537), HST_VEC_STS shows the
vectors that a routed, enabled, pending source asserts (R538), the balls are low as R540 says, and a vector has a message sent, deferred or
pending in the PBA only while it is asserted (R539). -/
abbrev State.irqAgrees (s : State) : Prop :=
  s.rd HST_SRC_PEND_LO_PEND + 2 ^ 32 * s.rd HST_SRC_PEND_HI_PEND = pendSet s
  ∧ s.rd HST_VEC_STS_ASSERTED = vecSet s (pendSet s) % 2 ^ 32
  ∧ s.hst.irq0 = irqLow s (pendSet s) 0
  ∧ s.hst.irq1 = irqLow s (pendSet s) 1
  ∧ (∀ v < 32, bit s.hst.sentMask v = true → bit (s.rd HST_VEC_STS_ASSERTED) v = true)
  ∧ (∀ v < 32, bit s.hst.deferMask v = true → bit (s.rd HST_VEC_STS_ASSERTED) v = true)
  ∧ (∀ v < 32, bit (s.rd (HST_MSIX_PBA_PBA 0)) v = true → bit (s.rd HST_VEC_STS_ASSERTED) v = true)

/-- The path lets a host write at the offset reach its register: nothing discards, denies, locks out or holds it. -/
abbrev State.lets (s : State) (p : Path) (off : Nat) : Prop := gate s p off true = .pass

/-- The path lets a host read at the offset reach its register. -/
abbrev State.letsRead (s : State) (p : Path) (off : Nat) : Prop := gate s p off false = .pass

/-- The path is a host-channel session, which may not write SEC registers (R488). -/
def isSession (p : Path) : Bool :=
  match p with
  | .sess _ => true
  | _ => false

/-- The access that a command of a host path makes, for the commands that are one register access: path, offset, the word written (none
for a read), time. -/
def hostAccess : Instr → Option (Path × Nat × Option Nat × Nat)
  | .auditAck p v t => some (p, 0x30064, some v, t)
  | .auditRdDataRead p t => some (p, 0x30070, none, t)
  | .canTxReq p c v t => some (p, 0x220020 + c * 0x1000, some v, t)
  | .canTxCancel p c v _ t => some (p, 0x220024 + c * 0x1000, some v, t)
  | .canRxqPop p c q t => some (p, 0x220040 + c * 0x1000 + 4 * q, some 0x80000000, t)
  | .canHpbPop p c t => some (p, 0x220048 + c * 0x1000, some 0x80000000, t)
  | .mdioRead p c45 phy reg t => some (p, 0x214000, some (mdioWord c45 2 phy reg), t)
  | .fmeasGo p v t => some (p, 0x10014, some (v % 2 ^ 31 + 2 ^ 31), t)
  | .fmeasAbort p t => some (p, 0x10014, some (2 ^ 30), t)
  | .forceS p t => some (p, 0x250004, some 1, t)
  | .clrCnt p t => some (p, 0x250004, some 2, t)
  | .errInjArm p v t => some (p, 0x250028, some (v ||| 2 ^ 31), t)
  | .jnlRdDataRead p t => some (p, 0x260020, none, t)
  | .gnsRtcmData p v t => some (p, 0x180014, some v, t)
  | .funcStop p v t => some (p, 0x40030, some v, t)
  | .funcRestart p v t => some (p, 0x40034, some v, t)
  | .hstMapSel p major lo hi t => some (p, 0x2B000C, some (mapSelWord major lo hi), t)
  | .imgLoad p src t => some (p, 0x40000, some (src % 8 * 16 + 1), t)
  | .imgCheck p src t => some (p, 0x40000, some (src % 8 * 16 + 2), t)
  | .imgStore p src t => some (p, 0x40000, some (src % 8 * 16 + 3), t)
  | .imgConfirm p src t => some (p, 0x40000, some (src % 8 * 16 + 4), t)
  | .imgAbandon p src t => some (p, 0x40000, some (src % 8 * 16 + 5), t)
  | .mcPrepare p groups t => some (p, 0x280040, some (0x10000000 + groups % 2 ^ 20), t)
  | .mcSeal p t => some (p, 0x280040, some 0x20000000, t)
  | .mcHostAbort p t => some (p, 0x280040, some 0x30000000, t)
  | .oceReinit p t => some (p, 0x80004, some 1, t)
  | .oceBankSwap p t => some (p, 0x80014, some 1, t)
  | .oceBankSeal p t => some (p, 0x80014, some 2, t)
  | .bankWordWrite p b w v t => some (p, 0xA0000 + b % 2 * 0x10000 + w % 16384 * 4, some v, t)
  | .handback p t => some (p, 0x280004, some 2, t)
  | .pstReload p t => some (p, 0x280004, some 1, t)
  | .sysReset p key t => some (p, 0x20004, some (key % 65536 * 65536 + 1), t)
  | .pwrDoze p t => some (p, 0x20008, some 1, t)
  | .pwrSleep p t => some (p, 0x20008, some 4, t)
  | .recLogAck p v t => some (p, 0x290048, some v, t)
  | .recLogRdDataRead p t => some (p, 0x290054, none, t)
  | .freeze p t => some (p, 0x290004, some 1, t)
  | .clrLost p t => some (p, 0x290004, some 2, t)
  | .redPromote p t => some (p, 0x270004, some 1, t)
  | .redStandDown p t => some (p, 0x270004, some 2, t)
  | .redResync p t => some (p, 0x270004, some 8, t)
  | .redSleep p t => some (p, 0x270004, some 16, t)
  | .clrFeed p t => some (p, 0x270004, some 32, t)
  | .laneMemDataRead p l t => some (p, 0x100014 + l * 0x1000, none, t)
  | .spArm p t => some (p, 0x50038, some 1, t)
  | .spDisarm p t => some (p, 0x50038, some 0, t)
  | .seqHalt p t => some (p, 0x50000, some 2, t)
  | .timSet p t => some (p, 0x200004, some 1, t)
  | .timNowRead p t => some (p, 0x200018, none, t)
  | .timConvRead p t => some (p, 0x200080, none, t)
  | .tcapArm p b v t => some (p, 0x200208 + b * 0x20, some v, t)
  | .tcapCapRead p b t => some (p, 0x200218 + b * 0x20, none, t)
  | .tunnelRead p dst t => some (p, 0x280050, some (tunWord false dst), t)
  | .tunnelWrite p dst t => some (p, 0x280050, some (tunWord true dst), t)
  | .imgdGo p t => some (p, 0x280060, some 1, t)
  | .mbxFree p v t => some (p, 0x2B0050, some v, t)
  | .recClr p trk w v t => if w < (if trk then 4 else 2) then some (p, (if trk then 0x290020 else 0x290018) + 4 * w, some v, t) else none
  | .mbxSend p m len dst t => if m < 4 then some (p, 0x2B0040 + 4 * m, some (mbxWord len dst), t) else none
  | _ => none

/-- The same for the three commands after which held accesses may go on (R456). -/
def hostAccessThen : Instr → Option (Path × Nat × Option Nat × Nat)
  | .seqStart p t => some (p, 0x50000, some 1, t)
  | .pwrWake p t => some (p, 0x20008, some 2, t)
  | .clkGateReq p v t => some (p, 0x10010, some v, t)
  | _ => none

/-- The security commands: path, command octet, time. -/
def secAccess : Instr → Option (Path × Nat × Nat)
  | .getId p t => some (p, 1, t)
  | .provision p _ t => some (p, 2, t)
  | .addKey p _ t => some (p, 3, t)
  | .revoke p _ t => some (p, 4, t)
  | .raiseSecver p _ t => some (p, 5, t)
  | .setClockOtp p _ t => some (p, 6, t)
  | .deploy p _ t => some (p, 7, t)
  | .retire p _ t => some (p, 8, t)
  | .debugUnlock p t => some (p, 9, t)
  | .debugLock p t => some (p, 10, t)
  | .auditSeal p t => some (p, 11, t)
  | _ => none

/-- GO written on a path for the request with command octet `c` starts it: SEC_CMD can be reached, no command runs, and the request's header,
the noise source and the challenge are good (R478 to R480, R489). -/
abbrev State.asks (s : State) (p : Path) (c : Nat) : Prop :=
  s.lets p 0x30010 ∧ isSession p = false ∧ s.flag SEC_CMD_GO_BUSY = false ∧ u8 (secRequest s) 4 = c ∧ headerBad s (secRequest s) = false
  ∧ s.flag SEC_STATUS_ENTROPY_OK = true ∧ slice (secRequest s) 0x20 16 = challenge s

/-- The end of a security command with octet `c` and result `r`: its report, the count of a failed unlock, DONE, RESULT, a new challenge, the
SEC source, the evaluated configuration judged (R478, R484, R492). -/
def secDone (s0 : State) (c : Nat) (r : State × Nat) : State :=
  let s := if r.2 = 0 then r.1 else report r.1 r.2
  let s := if c = 9 ∧ r.2 ≠ 0 then audit (s.sc fun x => { x with unlocks := x.unlocks + 1 }) r.2 else s
  evalStep s0 (edgeSrc ((newChallenge s).wrs [(SEC_CMD_DONE, 1), (SEC_CMD_RESULT, r.2 % 256)]) 34)

/-- The state in which an access that is let through has its effect: the time of the access has come, and the path's run of discarded
accesses is over (R543). -/
def State.taken (s : State) (p : Path) (t : Nat) : State := endRun (s.at t) p

/-- FAULT_N is driven low: fail-silent, without a structure, or after a restart that failed (R83, R383, R386). -/
def State.faultLow (s : State) : Bool := s.flag ERR_STATUS_FAIL_SILENT || s.rd IMG_STATUS_STATE = 0 || s.seq.restartFail

/-- A Piste frame of a TYPE reaches its user on this device: the port works and carries the type, and the frame is addressed to the device or
is another device's broadcast; a data frame over a port without a conflict of R418, while CASCADE is not stopped; any other but HELLO and NOTICE
not over a port that sees a second master (R418 to R420, R423). A device that waits in EMPTY for an image over Piste takes the management frames
of its ports (R435). -/
def State.hears (s : State) (h : PstHdr) (typ : Nat) : Bool :=
  if bootTarget s then h.port < 2 && portCarries s h.port typ && !isData typ
  else
    cascRole s ≠ 0 && (h.port = 2 || (h.port < 2 && 2 ≤ s.rd (PST_PORT_STS_STATE h.port))) && portCarries s h.port typ
      && (if h.bstr || h.ball then h.src ≠ ownAddr s else h.dst = ownAddr s)
      && (if isData typ then !(s.pport h.port).addrBad && !(s.pport h.port).masterBad && !timingBad s && !cascStopped s
          else !(s.pport h.port).masterBad || typ = 1 || typ = 2)

/-- The state in which a frame that is heard has its effect: a broadcast other than HELLO and DELAY has been passed on (R423, R426), with what
forwarding writes into it, not from a port whose peer has the device's own address (R418). -/
def State.heard (s : State) (h : PstHdr) (typ : Nat) (ws : List Nat := []) : State :=
  if !bootTarget s && (h.bstr || h.ball) && typ ≠ 1 && typ ≠ 3 && !(s.pport h.port).addrBad then pstForward s h typ ws else s

/-- The frames whose users stand behind `State.hears`: header, TYPE, time. HELLO and DELAY have rules of their own; ALIGN is written into as it is
passed on. -/
def pisteFrame : Instr → Option (PstHdr × Nat × Nat)
  | .noticeFailSilent h t => some (h, 2, t)
  | .noticeOutOfStep h t => some (h, 2, t)
  | .noticeActingMaster h t => some (h, 2, t)
  | .noticeMasterLost h t => some (h, 2, t)
  | .modeStart h _ t => some (h, 4, t)
  | .join h _ t => some (h, 4, t)
  | .prepare h _ _ t => some (h, 4, t)
  | .ack h _ t => some (h, 4, t)
  | .nack h _ t => some (h, 4, t)
  | .seal h _ _ t => some (h, 4, t)
  | .vote h _ _ t => some (h, 4, t)
  | .mcCommit h _ _ t => some (h, 4, t)
  | .mcAbort h _ t => some (h, 4, t)
  | .applied h _ t => some (h, 4, t)
  | .reload h t => some (h, 4, t)
  | .agree h _ t => some (h, 0x10, t)
  | .srcword h _ t => some (h, 0x11, t)
  | .digest h _ _ _ t => some (h, 0x12, t)
  | .commitblk h _ t => some (h, 0x13, t)
  | .share h _ t => some (h, 0x14, t)
  | .multJob h _ _ _ _ _ t => some (h, 0x15, t)
  | .multRes h _ _ t => some (h, 0x16, t)
  | .gnssRec h _ _ _ t => some (h, 0x17, t)
  | .ckpt h _ _ _ _ _ t => some (h, 0x20, t)
  | .jrec h _ _ t => some (h, 0x21, t)
  | .tunnel h _ t => some (h, 0x30, t)
  | .image h _ t => some (h, 0x31, t)
  | _ => none

/-- A frame that does not reach a user here: it stops at this port, is counted as discarded data, or is passed on to others, with what
forwarding writes into it (R418 to R420, R423, R424). -/
def State.passedBy (s : State) (h : PstHdr) (typ : Nat) (ws : List Nat) : State :=
  let others := h.bstr || h.ball || h.dst ≠ ownAddr s
  let open_ := cascRole s ≠ 0 && (if h.port < 2 then 2 ≤ s.rd (PST_PORT_STS_STATE h.port) else h.port = 2 && portCarries s 2 typ)
    && !((h.bstr || h.ball) && h.src = ownAddr s)
  if bootTarget s || !open_ then s
  else if isData typ then
    if (s.pport h.port).addrBad || (s.pport h.port).masterBad || timingBad s then s
    else if !portCarries s h.port typ || cascStopped s then pstDiscard s h
    else if others then pstForward s h typ ws else s
  else if !portCarries s h.port typ || ((s.pport h.port).masterBad && typ ≠ 1 && typ ≠ 2) then s
  else if others && !(s.pport h.port).addrBad && typ ≠ 1 && typ ≠ 3 then pstForward s h typ ws else s

end Sys2Proof.Machine
end

