-- ==== Sys2Proof/Certificates/Slice0/Obligations.lean ====
section
/-! DEFINITION. The statements about the GK9 for the provers. A statement of the form "exec c s = .next (hstSettle e)" gives the whole next
state: e is the state the rules give, and hstSettle brings the interrupts up to date (the lemmas Laws.settle_only and Laws.settle_rd say that it changes
nothing else), so that every register, memory and block state that e does not write is unchanged. -/

open Sys2Proof Sys2Proof.Machine

/-- O1. A step of a state whose queue is c followed by a rest is exec c of the state with the rest as its queue. On an empty queue the block
idles (the model's choice, log entry 1). A table word spells no command, so withFetchWord changes nothing. (spec/INDEX.md) -/
def Obligations.StepRunsTheFrontCommand : Prop :=
  (∀ (s : State) (c : Instr) (rest : List Instr), s.pending = c :: rest → step s = exec c { s with pending := rest })
  ∧ (∀ (s : State), s.pending = [] → step s = .next s)
  ∧ (∀ (s : State) (nbits w : Nat), s.withFetchWord nbits w = s)

/-- O2. After reset no structure is loaded (EMPTY), the sequencer is IDLE, CNT is 0, no cycle is in flight, the safety evaluator has no
configuration and every output off, the incident log is empty, no interrupt source is enabled, the power state is in reset, the sentinel
registers read their stated values, no command waits, the register file is canonical and the interrupt outputs agree with their sources.
(R22, R83, R283, R304, R472, R550) -/
def Obligations.ResetLeavesTheStatedValues : Prop :=
  State.reset.rd IMG_STATUS_STATE = 0 ∧ State.reset.rd SEQ_STATUS_STATE = 0 ∧ State.reset.tim.cnt = 0 ∧ State.reset.seq.cycs = []
  ∧ State.reset.saf.conf = none ∧ State.reset.saf.cmd = 0 ∧ State.reset.rd RST_PWR_STS_STATE = 0 ∧ State.reset.log.held = []
  ∧ State.reset.rd TIM_QUAL_STATE = 0 ∧ State.reset.rd ERR_STATUS_FAIL_SILENT = 0
  ∧ State.reset.rd RED_CKPT_NAND_CYC = 0xFFFFFFFF ∧ State.reset.rd REC_FROZEN_CYC_CYC = 0xFFFFFFFF
  ∧ (∀ n < 39, State.reset.rd (HST_SRC_ROUTE_EN n) = 0)
  ∧ State.reset.pending = [] ∧ State.reset.sent = [] ∧ State.reset.canonical = true ∧ State.reset.faultLow = true ∧ State.reset.irqAgrees

/-- O3. Where the interrupt outputs agree with their sources (HST_SRC_PEND shows every level source as its block has it, HST_VEC_STS the
vectors that a routed, enabled, pending source asserts, the balls are low as their sources say, and a vector is marked sent, deferred or
pending only while it is asserted), they agree after the next step, whatever command that step runs. (R537, R538, R539, R540) -/
def Obligations.InterruptsAgreeAfterEveryStep : Prop :=
  (∀ (s t : State), s.irqAgrees → step s = .next t → t.irqAgrees)

/-- O4. Source n's HST_SRCn_ROUTE register holds EN, VECTOR (5 bits, a vector from 0 to 31) and IRQ. Every command of the table completes with
a next state in every state, for all operands, and in that state bit v of HST_VEC_STS is 1 exactly where some source with EN = 1 and
VECTOR = v is pending in HST_SRC_PEND. (R538) -/
def Obligations.VectorsAreAssertedByTheirSources : Prop :=
  (∀ (s : State) (c : Instr), ∃ t, exec c s = .next t ∧ (∀ v < 32,
    (bit (t.rd HST_VEC_STS_ASSERTED) v = true ↔ ∃ n < 39, t.rd (HST_SRC_ROUTE_EN n) = 1 ∧ t.rd (HST_SRC_ROUTE_VECTOR n) = v
      ∧ bit (t.rd HST_SRC_PEND_LO_PEND + 2 ^ 32 * t.rd HST_SRC_PEND_HI_PEND) n = true)))
  ∧ (∀ (s : State) (n : Nat), s.rd (HST_SRC_ROUTE_VECTOR n) < 32 ∧ s.rd (HST_SRC_ROUTE_EN n) < 2 ∧ s.rd (HST_SRC_ROUTE_IRQ n) < 4)

/-- O5. A read of an offset that no register and no bank word occupies answers 0 and does nothing else; a write that the path lets through
does nothing, and outside every block's range is discarded and reported HST 0x1207. On a 32-lane variant the windows of lanes 32 to 63
read 0 and take writes without effect. (Nothing is latched at such an offset.) (R2, R536) -/
def Obligations.OffsetsWithoutARegister : Prop :=
  (∀ (s : State) (p : Path) (off v t : Nat), off % 4 = 0 → off < 0x400000 →
    (s.hst.latch.any fun e => decide (e.1 = p ∧ e.2.1 = off)) = false →
    let s0 : State := { s.at t with hst := { s.hst with mark := false } }
    ((findReg regTable off).isNone = true → ¬(0xA0000 ≤ off ∧ off < 0xC0000) → readDo s p off = s.emit (.read p 0))
    ∧ ((findReg regTable off).isNone = true → ¬(0xA0000 ≤ off ∧ off < 0xC0000) → inBlocks off = true → s.lets p off →
      exec (.registerWrite p off v true t) s = .next (hstSettle (runHeld (endRun s0 p))))
    ∧ (inBlocks off = false → (findReg regTable off).isNone = true)
    ∧ (inBlocks off = false → shut s p off true = false → exec (.registerWrite p off v true t) s = .next (hstSettle (runHeld (discard s0 p off 0x1207))))
    ∧ (s.lanes = 32 → 0x120000 ≤ off → off < 0x140000 →
      (s.lets p off → exec (.registerWrite p off v true t) s = .next (hstSettle (runHeld (endRun s0 p))))
      ∧ ((lowWord off) = false → readDo s p off = s.emit (.read p 0))))

/-- O6. Every command that is one host register access, and every security command, makes its access at its stated offset. Where the path is
locked out nothing happens; where the QSPI policy denies it DENIED sets; where the register's clock domain has no clock the access is
held; where the map is unsettled or the register unmapped it is discarded with its code. A read then answers 0. A security command whose
request holds another command, or that comes over a session, does nothing. A Piste frame that reaches no user on this device stops at its
port, is counted as discarded, or is passed on, and does nothing else. (R418, R419, R420, R423, R456, R483, R525, R526, R528, R534, R543) -/
def Obligations.AccessesTurnedAway : Prop :=
  (∀ (s : State) (i : Instr) (a : Path × Nat × Option Nat × Nat), hostAccess i = some a →
    let p := a.1
    let off := a.2.1
    let d := a.2.2.1
    let S := s.at a.2.2.2
    let ans (x : State) : State := match d with
      | some _ => x
      | none => x.emit (.read p 0)
    (gate s p off d.isSome = .locked → exec i s = .next (hstSettle (ans S)))
    ∧ (gate s p off d.isSome = .denied → exec i s = .next (hstSettle (ans { S with hst := { S.hst with q := { S.hst.q with denied := true } } })))
    ∧ (gate s p off d.isSome = .held → exec i s = .next (hstSettle (holdAcc S p off d)))
    ∧ (gate s p off d.isSome = .code 0x1208 → exec i s = .next (hstSettle (ans (discard S p off 0x1208))))
    ∧ (gate s p off d.isSome = .code 0x1207 → exec i s = .next (hstSettle (ans (discard S p off 0x1207)))))
  ∧ (∀ (s : State) (j : Instr) (b : Path × Nat × Option Nat × Nat), hostAccessThen j = some b →
    let p := b.1
    let off := b.2.1
    let S := s.at b.2.2.2
    (gate s p off true = .locked → exec j s = .next (hstSettle (runHeld S)))
    ∧ (gate s p off true = .denied → exec j s = .next (hstSettle (runHeld { S with hst := { S.hst with q := { S.hst.q with denied := true } } })))
    ∧ (gate s p off true = .held → exec j s = .next (hstSettle (runHeld (holdAcc S p off b.2.2.1))))
    ∧ (gate s p off true = .code 0x1208 → exec j s = .next (hstSettle (runHeld (discard S p off 0x1208)))))
  ∧ (∀ (s : State) (k : Instr) (e : Path × Nat × Nat), secAccess k = some e →
    let p := e.1
    let S := s.at e.2.2
    (u8 (secRequest s) 4 ≠ e.2.1 ∨ isSession p = true → exec k s = .next (hstSettle S))
    ∧ (u8 (secRequest s) 4 = e.2.1 → isSession p = false →
      (gate s p 0x30010 true = .locked → exec k s = .next (hstSettle S))
      ∧ (gate s p 0x30010 true = .denied → exec k s = .next (hstSettle { S with hst := { S.hst with q := { S.hst.q with denied := true } } }))
      ∧ (gate s p 0x30010 true = .held → exec k s = .next (hstSettle (holdAcc S p 0x30010 (some 0x80000000))))
      ∧ (gate s p 0x30010 true = .code 0x1208 → exec k s = .next (hstSettle (discard S p 0x30010 0x1208)))))
  ∧ (∀ (s : State) (i : Instr) (a : PstHdr × Nat × Nat), pisteFrame i = some a → s.hears a.1 a.2.1 = false →
    exec i s = .next (hstSettle ((s.at a.2.2).passedBy a.1 a.2.1 [])))

/-- O7. A report sets its class's LAST_CODE and, where the log has a place beside the last, makes one entry with the next ISEQ, the time, the
code, the source and the detail. An entry that would take the last place is counted lost and a LOG_FULL entry takes it; while LOG_FULL
reads 1 each entry is counted lost; with two places free a LOG_RESUMED entry with the number lost goes before the next. An entry of a
cycle in flight waits with its cycle, once per run. (R16, R513, R514, R515, R516) -/
def Obligations.ReportsAreLogged : Prop :=
  (∀ (s : State) (c u d : Nat),
    let r := report s c u d
    let e := s.incident none c u d
    let mark (k x : Nat) : Incident := ⟨e.time, none, k, 0x1100, x⟩
    (e.time = (if s.rd TIM_QUAL_STATE = 0 then 0 else s.now.toNat) ∧ e.cyc = none ∧ e.code = c ∧ e.source = c / 256 * 256 + u % 256 ∧ e.detail = d)
    ∧ (s.flag REC_STATUS_LOG_FULL = false → s.log.fill + 1 < 16384 → c / 256 ≠ 0x11 →
      r.log.held = ((s.log.next, e) :: s.log.held).take 16384 ∧ r.log.next = (s.log.next + 1) % 2 ^ 32 ∧ r.log.fill = s.log.fill + 1
      ∧ r.log.unacked = s.log.unacked + 1 ∧ r.log.unmirrored = s.log.unmirrored + 1 ∧ r.rd REC_LOG_HEAD_ISEQ = s.log.next % 2 ^ 32
      ∧ r.rd REC_LOG_LOST_LOST = s.rd REC_LOG_LOST_LOST)
    ∧ (s.flag REC_STATUS_LOG_FULL = false → 16384 ≤ s.log.fill + 1 →
      r.log.held = ((s.log.next, mark 0x1101 0) :: s.log.held).take 16384 ∧ r.flag REC_STATUS_LOG_FULL = true
      ∧ r.rd REC_LOG_LOST_LOST = min (s.rd REC_LOG_LOST_LOST + 1) 0xFFFFFFFF ∧ r.log.lostRun = 1)
    ∧ (s.flag REC_STATUS_LOG_FULL = true → 16384 < s.log.fill + 2 →
      r.log.held = s.log.held ∧ r.log.next = s.log.next ∧ r.log.lostRun = s.log.lostRun + 1
      ∧ r.rd REC_LOG_LOST_LOST = min (s.rd REC_LOG_LOST_LOST + 1) 0xFFFFFFFF)
    ∧ (s.flag REC_STATUS_LOG_FULL = true → s.log.fill + 2 < 16384 →
      r.log.held = (((s.log.next + 1) % 2 ^ 32, e) :: ((s.log.next, mark 0x1102 s.log.lostRun) :: s.log.held).take 16384).take 16384
      ∧ r.flag REC_STATUS_LOG_FULL = false)
    ∧ (∀ f ∈ condFields c u, c / 256 ≠ 0x11 → r.rd f = c % 2 ^ f.w))
  ∧ (∀ (s : State) (n c u d : Nat) (y : Cyc), s.cyc? n = some y → y.committed = false → y.missed = false →
    let r := reportCyc s n c u d
    r.log = s.log
    ∧ (y.reported.contains (c, u + 256 * d) = true → r = s)
    ∧ (y.reported.contains (c, u + 256 * d) = false → (r.cyc? n).map (·.entries) = some (y.entries ++ [s.incident (some n) c u d])))

/-- O8. FMEAS_GO with fields in range, while no measurement runs (ABORT in the same write ends one first), latches REF, MEAS and GATE_MS, sets
GO_BUSY, clears DONE and fills REFCNT with the reference edges of the gate, rounded (a free value where REF has no nominal frequency);
FMEAS_ABORT clears GO_BUSY and ends the measurement; FMEAS_DONE during a measurement clears GO_BUSY, sets DONE and fills CNT, while REF
runs. Nothing else changes. A GATE_MS of 0, a field out of range and a GO during a measurement are refused with their codes; a gate that
has no measurement, or whose REF has stopped, does not end. (R462) -/
def Obligations.FrequencyCounterRuns : Prop :=
  (∀ (s : State) (p : Path) (v t : Nat),
    let w := v % 2 ^ 31 + 2 ^ 31
    let S := if bit w 30 then (s.taken p t).wr CLK_FMEAS_CTRL_GO_BUSY 0 else s.taken p t
    let s1 := S.wrs [(CLK_FMEAS_CTRL_REF, bitsOf w 27 24), (CLK_FMEAS_CTRL_MEAS, bitsOf w 23 20), (CLK_FMEAS_CTRL_GATE_MS, w % 1024)]
    let go (x : State) (cnt : Nat) : State := x.wrs [(CLK_FMEAS_CTRL_GO_BUSY, 1), (CLK_FMEAS_CTRL_DONE, 0), (CLK_FMEAS_REFCNT_REFCNT, cnt)]
    s.lets p 0x10014 →
    (1 ≤ w % 1024 → w % 1024 ≤ 1000 → bitsOf w 27 24 < 13 → bitsOf w 23 20 < 13 → (bit w 30 = true ∨ s.flag CLK_FMEAS_CTRL_GO_BUSY = false) →
      exec (.fmeasGo p v t) s = .next (hstSettle (
        if fmeasHz s1 (bitsOf w 27 24) = 0 then go s1.draw.2 s1.draw.1
        else go s1 (divRne ((w % 1024 * fmeasHz s1 (bitsOf w 27 24) : Nat) : Int) 1000).toNat)))
    ∧ (w % 1024 = 0 → exec (.fmeasGo p v t) s = .next (hstSettle (refuse S 0x0F0A)))
    ∧ (1000 < w % 1024 → exec (.fmeasGo p v t) s = .next (hstSettle (refuse S 0x0F0B)))
    ∧ (1 ≤ w % 1024 → 13 ≤ bitsOf w 27 24 ∨ 13 ≤ bitsOf w 23 20 → exec (.fmeasGo p v t) s = .next (hstSettle (refuse S 0x0F0B)))
    ∧ (1 ≤ w % 1024 → w % 1024 ≤ 1000 → bitsOf w 27 24 < 13 → bitsOf w 23 20 < 13 → bit w 30 = false → s.flag CLK_FMEAS_CTRL_GO_BUSY = true →
      exec (.fmeasGo p v t) s = .next (hstSettle (refuse S 0x0F0C))))
  ∧ (∀ (s : State) (p : Path) (t : Nat), s.lets p 0x10014 →
    exec (.fmeasAbort p t) s = .next (hstSettle ((s.taken p t).wr CLK_FMEAS_CTRL_GO_BUSY 0)))
  ∧ (∀ (s : State) (count t : Nat),
    let refRuns := fmeasRuns s (s.rd CLK_FMEAS_CTRL_REF)
    (s.flag CLK_FMEAS_CTRL_GO_BUSY = true → refRuns = true → exec (.fmeasDone count t) s = .next (hstSettle ((s.at t).wrs
      [(CLK_FMEAS_CTRL_GO_BUSY, 0), (CLK_FMEAS_CTRL_DONE, 1), (CLK_FMEAS_CNT_COUNT, count)])))
    ∧ (s.flag CLK_FMEAS_CTRL_GO_BUSY = false ∨ refRuns = false → exec (.fmeasDone count t) s = .next (hstSettle (s.at t))))

/-- O9. SOURCE_PROVEN of a source that runs and is not proven yet marks it proven, brings CLK_STATUS up to date and starts every PLL that
takes it as reference; FRC then also moves the domains that wait for it, and SRC, before the rails are good, raises FEEDSEL of each feed
that is not lost. Of one proven already, not running, or FRC once bad, it changes nothing. PLL_LOCKED of a running PLL with a proven
reference marks it locked: PLL-B gives the time reference back, PLL-A and PLL-V start GNSS-C and SOLV and end a DOZE exit. Of any other
PLL it changes nothing. (R449, R452) -/
def Obligations.SourcesAndPllsBecomeUsable : Prop :=
  (∀ (s : State) (k t : Nat),
    let s0 := (s.at t).ck fun x => { x with proven := setBit x.proven k true, since := x.since.set k (max s.tim.cnt t) }
    let s1 := (List.range 5).foldl (fun s x => if pllRef s x = k then pllStart s x else s) (clkMarks s0)
    (6 ≤ k ∨ bit s.clk.proven k = true ∨ (bit s.clk.run k = false ∧ k < 4) ∨ (k = 0 ∧ s.flag CLK_STATUS_FRC_BAD = true) →
      exec (.sourceProven k t) s = .next (hstSettle (runHeld (s.at t))))
    ∧ (k < 6 → bit s.clk.proven k = false → (bit s.clk.run k = true ∨ 4 ≤ k) → (k = 0 → s.flag CLK_STATUS_FRC_BAD = false) →
    (2 ≤ k → exec (.sourceProven k t) s = .next (hstSettle (runHeld s1)))
    ∧ (k = 1 → exec (.sourceProven k t) s = .next (hstSettle (runHeld (if s1.clk.rails || s1.clk.released then s1
        else s1.wrs [(RED_FEED_FEEDSEL_A, 1 - s1.rd RED_FEED_A_LOST), (RED_FEED_FEEDSEL_B, 1 - s1.rd RED_FEED_B_LOST)]))))
    ∧ (k = 0 → exec (.sourceProven k t) s = .next (hstSettle (runHeld ((List.range 12).foldl (fun s d =>
        if domState s d = 3 then onFallback (report (moveDom s d false false) 0x0F01 d) d else s)
        (if s1.clk.released && domState s1 1 = 4 then setDom s1 1 0 true else s1)))))))
  ∧ (∀ (s : State) (x t : Nat),
    let s1 := (clkMarks ((s.at t).wr (CLK_PLL_CFG_LOCKED x) 1)).ck fun c => { c with since := c.since.set (6 + x) (max s.tim.cnt t) }
    let starts (d : Nat) : State := dozeExit (lockStart (updDom s1 d fun y => { y with doze := false }) d)
    (x < 5 → s.flag (CLK_PLL_CFG_EN x) = true → sourceOk s (pllRef s x) = true → s.flag (CLK_PLL_CFG_LOCKED x) = false →
      (x = 2 ∨ x = 4 → exec (.pllLocked x t) s = .next (hstSettle (runHeld s1)))
      ∧ (x = 1 → exec (.pllLocked x t) s = .next (hstSettle (runHeld (timRefBack s1))))
      ∧ (x = 0 → exec (.pllLocked x t) s = .next (hstSettle (runHeld (starts 5))))
      ∧ (x = 3 → exec (.pllLocked x t) s = .next (hstSettle (runHeld (starts 3)))))
    ∧ (5 ≤ x ∨ s.flag (CLK_PLL_CFG_EN x) = false ∨ sourceOk s (pllRef s x) = false ∨ s.flag (CLK_PLL_CFG_LOCKED x) = true →
      exec (.pllLocked x t) s = .next (hstSettle (runHeld (s.at t)))))

/-- O10. CLOCK_MONITOR_TRIP of a source or PLL in use unproves it (a PLL: LOCKED clears), reports it and counts a trip of each domain that
takes it as primary; a gated one remembers it, and one that runs on it falls back. A trip of FRC sets FRC_BAD, puts the safety core into
its internal fault and leaves each domain on FRC without a clock. NO_CLOCK_TIMEOUT without FRC leaves every waiting domain without a
clock. CLOCK_RETURN of a fallen-back domain whose primary source has been clean for 10 ms, outside the domains that wait while RUNNING,
moves it back. RAMP_STEP advances a ramp by one step, or ends it after the eighth. A trip of what is not in use, and a timeout, return or
step that is not due, change nothing. (R454, R455, R457, R458, R459) -/
def Obligations.MonitorsMoveDomains : Prop :=
  (∀ (s : State) (k t : Nat),
    let used := (k < 6 ∧ (bit s.clk.proven k = true ∨ (k < 4 ∧ bit s.clk.run k = true))) ∨ (6 ≤ k ∧ k < 11 ∧ s.flag (CLK_PLL_CFG_EN (k - 6)) = true)
    let s1 := if k < 6 then clkMarks ((s.at t).ck fun x => { x with proven := setBit x.proven k false })
      else clkMarks ((s.at t).wr (CLK_PLL_CFG_LOCKED (k - 6)) 0)
    let onTrip (s : State) (d : Nat) : State :=
      if primaryOf d ≠ k then s
      else
        let u := s.incSat (CLK_DOM_STS_TRIP_CNT d) 0xFFFF
        if u.clk.released = false then u
        else if domState u d = 4 then updDom u d fun x => { x with trip := true }
        else if domState u d = 0 ∨ (domState u d = 1 ∧ (u.dom d).toFall = false) then toFallback u d
        else u
    (¬ used → exec (.clockMonitorTrip k t) s = .next (hstSettle (s.at t)))
    ∧ (used → 1 ≤ k → exec (.clockMonitorTrip k t) s = .next (hstSettle ((List.range 12).foldl onTrip
        (report s1 (if 6 ≤ k then 0x0F04 else 0x0F05) k))))
    ∧ (used → k = 0 → exec (.clockMonitorTrip k t) s = .next (hstSettle ((List.range 12).foldl (fun s d =>
        if s.clk.released = true ∧ domState s d ≠ 6 ∧ (d = 1 ∨ domState s d = 2 ∨ domState s d = 3 ∨ (domState s d = 1 ∧ (s.dom d).toFall = true))
        then noClock s d else s) (safInternal (report (s1.wr CLK_STATUS_FRC_BAD 1) 0x0F06))))))
  ∧ (∀ (s : State) (t : Nat),
    (frcOk s = false → exec (.noClockTimeout t) s = .next (hstSettle ((List.range 12).foldl (fun s d =>
      if domState s d = 3 then noClock s d else s) (s.at t))))
    ∧ (frcOk s = true → exec (.noClockTimeout t) s = .next (hstSettle (s.at t))))
  ∧ (∀ (s : State) (d t : Nat),
    let due := d < 12 ∧ s.clk.released = true ∧ (domState s d = 2 ∨ domState s d = 3 ∨ domState s d = 6)
      ∧ sourceOk s (primaryOf d) = true ∧ s.clk.since.getD (primaryOf d) 0 + usTicks 10000 ≤ max s.tim.cnt t
      ∧ (¬ (d = 2 ∨ d = 3 ∨ d = 10 ∨ d = 11) ∨ s.rd SEQ_STATUS_STATE ≠ 2)
    let s1 := moveDom (s.at t) d true true
    (due → exec (.clockReturn d t) s = .next (hstSettle (runHeld (
      if d = 4 then gclkReturn s1 else if d = 5 ∧ gnsRuns s1 = true then acqTake s1 else s1))))
    ∧ (¬ due → exec (.clockReturn d t) s = .next (hstSettle (runHeld (s.at t)))))
  ∧ (∀ (s : State) (d t : Nat),
    let s1 := (setDom (updDom (s.at t) d fun y => { y with toFall := false, ret := false }) d (if (s.dom d).toFall then 2 else 0)
      (!(s.dom d).toFall)).wr (CLK_DOM_STS_RAMP_STEP d) 0
    (d < 12 → domState s d = 1 →
      (s.rd (CLK_DOM_STS_RAMP_STEP d) < 7 → exec (.rampStep d t) s = .next (hstSettle ((s.at t).incWrap (CLK_DOM_STS_RAMP_STEP d))))
      ∧ (7 ≤ s.rd (CLK_DOM_STS_RAMP_STEP d) →
        exec (.rampStep d t) s = .next (hstSettle (dozeExit (if (s.dom d).ret then report s1 0x0F03 d else s1)))))
    ∧ (12 ≤ d ∨ domState s d ≠ 1 → exec (.rampStep d t) s = .next (hstSettle (s.at t))))

/-- O11. CLK_GATE_REQ asking for a gate that is not permitted is refused whole with CLK GATE_REFUSED and changes no gate; else it is written,
each domain newly asked for is marked pending and each no longer asked for is taken back. GATE_DONE of a pending gate puts the domain into
GATED: without GNSS-C every signal is lost, without GNSS-S every lock, without LINK both links. GATE_BUSY clears a pending gate, sets
BUSY_FAIL and reports; a DOZE entry is then given up. ACCESS_TIMEOUT completes an access held for 2 ms, a read with 0, reports it and
answers its path; one not held so long stays. A domain without a pending gate is left alone. (R456, R460, R461) -/
def Obligations.GatesAndHeldAccesses : Prop :=
  (∀ (s : State) (p : Path) (v t : Nat), s.lets p 0x10010 →
    let asked (x : State) (d : Nat) : Bool := (x.dom d).host || bit (x.dom d).pend 0
    let bad : Bool := [3, 4, 5, 8].any fun d => bit v d && !asked s d && !mayGate s d
    (bad = true → exec (.clkGateReq p v t) s = .next (hstSettle (runHeld (refuse (s.taken p t) 0x0F09))))
    ∧ (bad = false → exec (.clkGateReq p v t) s = .next (hstSettle (runHeld ([3, 4, 5, 8].foldl (fun x d =>
        if bit v d then (if asked s d then x else gateReq x d 1)
        else if asked s d then ungate (updDom x d fun y => { y with host := false, pend := y.pend &&& 2 }) d
        else x) ((s.taken p t).wrs [(CLK_GATE_REQ_LINK, b2n (bit v 8)), (CLK_GATE_REQ_GNSS_C, b2n (bit v 5)), (CLK_GATE_REQ_GNSS_S, b2n (bit v 4)),
          (CLK_GATE_REQ_SOLV, b2n (bit v 3))]))))))
  ∧ (∀ (s : State) (d t : Nat),
    let s1 := (setDom (updDom (s.at t) d fun y =>
      { y with pend := 0, host := y.host || bit (s.dom d).pend 0, doze := y.doze || bit (s.dom d).pend 1 }) d 4 true).wr (CLK_DOM_STS_GATE_PEND d) 0
    (d < 12 → (s.dom d).pend ≠ 0 → domState s d ≠ 1 →
      exec (.gateDone d t) s = .next (hstSettle (dozeEnter (
        if d = 5 then allLost s1 else if d = 4 then loseAll s1 else if d = 8 then linkLoss (linkLoss s1 0) 1 else s1))))
    ∧ (12 ≤ d ∨ (s.dom d).pend = 0 ∨ domState s d = 1 → exec (.gateDone d t) s = .next (hstSettle (s.at t))))
  ∧ (∀ (s : State) (d t : Nat),
    let s1 := report ((updDom (s.at t) d fun y => { y with pend := 0 }).wrs [(CLK_DOM_STS_GATE_PEND d, 0), (CLK_DOM_STS_BUSY_FAIL d, 1)]) 0x0F08 d
    (d < 12 → (s.dom d).pend ≠ 0 → bit (s.dom d).pend 1 = false → exec (.gateBusy d t) s = .next (hstSettle (runHeld s1)))
    ∧ (d < 12 → bit (s.dom d).pend 1 = true → exec (.gateBusy d t) s = .next (hstSettle (runHeld (([3, 5].foldl (fun x e =>
        ungate (updDom x e fun y => { y with doze := false, pend := y.pend &&& 1 }) e) s1).wrs
          [(RST_PWR_STS_STATE, 1), (RST_PWR_STS_REFUSED, 1)]))))
    ∧ (12 ≤ d ∨ (s.dom d).pend = 0 → exec (.gateBusy d t) s = .next (hstSettle (runHeld (s.at t)))))
  ∧ (∀ (s : State) (a : HeldAcc) (t : Nat), s.hst.held = [a] →
    (a.since + usTicks 2000 ≤ max s.tim.cnt t →
      let s1 := report { s.at t with hst := { s.hst with held := [] } } 0x0F11
      exec (.accessTimeout t) s = .next (hstSettle (heldAnswer (if a.data.isNone then s1.emit (.read a.path 0) else s1) a 0 0)))
    ∧ (max s.tim.cnt t < a.since + usTicks 2000 → exec (.accessTimeout t) s = .next (hstSettle (s.at t))))

/-- O12. Every register write completes. One whole DW that its path lets through has, at a register with a rule of its own, that rule's
effect, and acts at every other on the fields by their access types (RO and WO fields keep their values, RW fields take the bits, W1C
fields lose the bits written 1, RWI fields keep theirs with HST 0x1202 for a difference, RWL fields of a running group keep theirs with
HST 0x1201 for a difference, or 0x1206 once voted, and of a stopped group are staged) and changes nothing else. So GLB_SCRATCH takes the
word, FLT_EVT_EN takes it, and SEQ_CYC keeps its value. A write that is not one whole aligned DW, on a path that answers, is discarded
with HST 0x1203, one outside the blocks with 0x1207; one that waits for a clock is held; held accesses whose clock is back then go on.
(R14, R522, R543, R563) -/
def Obligations.RegisterWritesFollowAccessTypes : Prop :=
  (∀ (s : State) (p : Path) (off v t : Nat) (whole : Bool),
    let M : State := { s.at t with hst := { s.hst with mark := false } }
    let S := if whole then M else s.at t
    let E := endRun M p
    let open_ : Bool := !shut s p off true
    let fits : Bool := off % 4 == 0 && inBlocks off
    let noLane : Bool := 0x100000 ≤ off && off < 0x140000 && s.lanes ≤ (off - 0x100000) / 0x1000
    let gives (u : State) : Prop := exec (.registerWrite p off v whole t) s = .next (hstSettle (runHeld u))
    (gate s p off true = .locked → gives S)
    ∧ (gate s p off true = .denied → gives { S with hst := { S.hst with q := { S.hst.q with denied := true } } })
    ∧ (open_ = true → whole = false → gives (discard S p off 0x1203))
    ∧ (open_ = true → whole = true → off % 4 ≠ 0 → gives (discard M p off 0x1203))
    ∧ (open_ = true → whole = true → off % 4 = 0 → inBlocks off = false → gives (discard M p off 0x1207))
    ∧ (gate s p off true = .held → whole = true → fits = true → gives (holdAcc M p off (some v)))
    ∧ (gate s p off true = .code 0x1208 → whole = true → fits = true → gives (discard M p off 0x1208))
    ∧ (gate s p off true = .code 0x1207 → whole = true → fits = true → gives (discard M p off 0x1207))
    ∧ (s.lets p off → whole = true → fits = true → noLane = true → gives E)
    ∧ (s.lets p off → whole = true → fits = true → noLane = false → gives (match ownWrite E p off (v % 2 ^ 32) with
      | some s1 => s1
      | none => match findReg regTable off with
        | some (r, idx) => writeRow E p r idx off (v % 2 ^ 32)
        | none => E)))
  ∧ (∀ (s : State) (p : Path) (v t : Nat),
    let s0 (off : Nat) : State := endRun { s.at t with hst := { s.hst with mark := false } } p
    (s.lets p 0x18 → exec (.registerWrite p 0x18 v true t) s = .next (hstSettle (runHeld ((s0 0x18).wr GLB_SCRATCH_VALUE (v % 2 ^ 32)))))
    ∧ (s.lets p 0x60020 → exec (.registerWrite p 0x60020 v true t) s = .next (hstSettle (runHeld ((s0 0x60020).wr (FLT_EVT_EN_EN 0) (v % 2 ^ 32)))))
    ∧ (s.lets p 0x50014 → exec (.registerWrite p 0x50014 v true t) s = .next (hstSettle (runHeld (s0 0x50014)))))
  ∧ (∀ (s : State) (g : Nat) (off lo w v : Nat),
    let key := off * 8 + lo
    let x := v / 2 ^ lo % 2 ^ w
    writeField s none off ⟨lo, w, .ro, 0⟩ v = (s, 0)
    ∧ writeField s none off ⟨lo, w, .wo, 0⟩ v = (s, 0)
    ∧ writeField s none off ⟨lo, w, .rw, 0⟩ v = (s.wr ⟨key, w⟩ x, 0)
    ∧ writeField s none off ⟨lo, w, .w1c, 0⟩ v = (s.wr ⟨key, w⟩ (s.rd ⟨key, w⟩ - (s.rd ⟨key, w⟩ &&& x)), 0)
    ∧ writeField s none off ⟨lo, w, .rwi, 0⟩ v = (s, if x = s.rd ⟨key, w⟩ then 0 else 0x1202)
    ∧ (bit s.img.votedGroups g = false → groupStopped s g = false →
      writeField s (some g) off ⟨lo, w, .rwl, 0⟩ v = (s, if x = s.rd ⟨key, w⟩ then 0 else 0x1201))
    ∧ (bit s.img.votedGroups g = true → x ≠ s.rd ⟨key, w⟩ → groupStopped s g = false → writeField s (some g) off ⟨lo, w, .rwl, 0⟩ v = (s, 0x1206))
    ∧ (bit s.img.votedGroups g = false → groupStopped s g = true → writeField s (some g) off ⟨lo, w, .rwl, 0⟩ v = (stage s key x, 0)))

/-- O13. PAIR_LOW_WORD_READ of the low word of a pair answers that word and latches the high word for the path; a read that is not one whole
aligned DW is discarded with HST 0x1203 and answers 0; one that waits for a clock is held, and one that its path turns away answers 0. A
QSPI read whose value is ready within 64 wait octets sends the wait octets, 0xA5 and the value, else, or while BUSY, the fail octet with
TIMEOUT and HST 0x120E; a read that the policy denies sends the fail octet and sets DENIED; READ_STATUS sends the status octet and clears
its sticky bits; a frame error, and a write frame while BUSY, is discarded with HST 0x120D and sets FRAME_ERR; a write while the target is
not busy has the effect of a host write and says in REFUSED and BUSY how it went. (R12, R526, R528, R529) -/
def Obligations.ReadsAnswerAndLatch : Prop :=
  (∀ (s : State) (p : Path) (off t : Nat) (whole : Bool),
    let S := s.at t
    let E := s.taken p t
    let fits : Bool := off % 4 == 0 && whole
    let gives (u : State) : Prop := exec (.pairLowWordRead p off whole t) s = .next (hstSettle u)
    let latched : Bool := s.hst.latch.any fun e => decide (e.1 = p ∧ e.2.1 = off)
    let hidden : Bool := hidden40 off && (mapOf s p).map (·.2) = some 0
    let L := latchWord E p (off + 4) (plainWord E (off + 4))
    (gate s p off false = .locked → gives (S.emit (.read p 0)))
    ∧ (gate s p off false = .denied → gives ({ S with hst := { S.hst with q := { S.hst.q with denied := true } } }.emit (.read p 0)))
    ∧ (shut s p off false = false → fits = false → gives ((discard S p off 0x1203).emit (.read p 0)))
    ∧ (gate s p off false = .held → fits = true → gives (holdAcc S p off none))
    ∧ (gate s p off false = .code 0x1208 → fits = true → gives ((discard S p off 0x1208).emit (.read p 0)))
    ∧ (s.letsRead p off → fits = true → gives (readDo E p off))
    ∧ (hidden = true → readDo E p off = E.emit (.read p 0))
    ∧ (lowWord off = true → latched = false → readDo E p off = L.emit (.read p (plainWord L off))))
  ∧ (∀ (s : State) (off n t : Nat),
    let S := s.at t
    let R := hostRead S .qspi off
    let busy : Bool := s.hst.q.busy
    let answers : Bool := qspiAnswers s off false
    let late (u : State) : State := qspiFail (report (updQspi u fun q => { q with timeout := true }) 0x120E)
    let gives (u : State) : Prop := exec (.qspiRead off n t) s = .next (hstSettle u) ∧ exec (.qspiQuadRead off n t) s = .next (hstSettle u)
    (answers = false → gives (qspiFail (updQspi S fun q => { q with denied := true })))
    ∧ (answers = true → busy = true → gives (late S))
    ∧ (answers = true → busy = false → n < 64 → ∀ v ∈ readValue S R, gives (R.emit (.qspi (List.replicate n 0 ++ [0xA5] ++ leBytes 4 v))))
    ∧ (answers = true → busy = false → 64 ≤ n ∨ readValue S R = none → gives (late R)))
  ∧ (∀ (s : State) (off v t : Nat),
    let S := s.at t
    let W := hostWrite S .qspi off v
    let gives (u : State) : Prop := exec (.qspiWrite off v t) s = .next (hstSettle u) ∧ exec (.qspiQuadWrite off v t) s = .next (hstSettle u)
    (s.hst.q.busy = false → gives (updQspi W fun q => { q with refused := W.hst.mark, busy := decide (s.hst.held.length < W.hst.held.length) }))
    ∧ (s.hst.q.busy = true → gives (updQspi (discard S .qspi off 0x120D) fun q => { q with frameErr := true })))
  ∧ (∀ (s : State) (t : Nat), exec (.qspiReadStatus t) s = .next (hstSettle (updQspi ((s.at t).emit (.qspi [BitVec.ofNat 8 (qspiStatus s)])) fun q =>
    { q with denied := false, timeout := false, refused := false, frameErr := false })))
  ∧ (∀ (s : State) (off t : Nat), exec (.qspiFrameError off t) s = .next (hstSettle (updQspi (discard (s.at t) .qspi off 0x120D) fun q =>
    { q with frameErr := true })))

/-- O14. PCIE_LINK_UP of a link that is down, at generation 1 to 3 and width 1 or 2 with its clock on the primary source, and PCIE_LINK_DOWN
of one that is up write LINK_UP, GEN and WIDTH and report; D3HOT moves the endpoint; PERST returns the configuration space, the MSI-X
table and PBA and the PCIe map registers to their reset values, loses the PCIe accesses that are held, and leaves every other register
alone. HST_MAP_SEL with a common version settles the PCIe or QSPI path, without one leaves it unsettled with HST 0x1209; another path
needs none. MSIX_UNMASK clears the Mask bit of a vector, or writes the enables; HOLDOFF_END of an asserted vector with a deferred message
sends it. Otherwise nothing changes. (R525, R533, R539) -/
def Obligations.PcieEndpointAndVectors : Prop :=
  (∀ (s : State) (gen width t : Nat),
    let S := s.at t
    let link : Bool := s.flag HST_STATUS_LINK_UP
    let fits : Bool := onPrimary s 9 && 1 ≤ gen && gen ≤ 3 && 1 ≤ width && width ≤ 2
    (link = false → fits = true → exec (.pcieLinkUp gen width t) s = .next (hstSettle (report (S.wrs
      [(HST_STATUS_LINK_UP, 1), (HST_STATUS_GEN, gen), (HST_STATUS_WIDTH, width)]) 0x120F)))
    ∧ (link = true ∨ fits = false → exec (.pcieLinkUp gen width t) s = .next (hstSettle S))
    ∧ (link = true → exec (.pcieLinkDown t) s = .next (hstSettle (report (S.wrs
      [(HST_STATUS_LINK_UP, 0), (HST_STATUS_GEN, 0), (HST_STATUS_WIDTH, 0)]) 0x1210)))
    ∧ (link = false → exec (.pcieLinkDown t) s = .next (hstSettle S)))
  ∧ (∀ (s : State) (on : Bool) (t : Nat), exec (.d3hot on t) s = .next (hstSettle { s.at t with hst := { s.hst with d3hot := on } }))
  ∧ (∀ (s : State) (t : Nat),
    let S := s.at t
    let gone (k : Nat) : Bool := (0x2B1000 * 8 ≤ k && k < 0x2B1200 * 8) || (0x2B2000 * 8 ≤ k && k < 0x2B2008 * 8) || (0x2B000C * 8 ≤ k && k < 0x2B0014 * 8)
    let u := { S with regs := skeep (fun k => !gone k) S.regs, hst := { S.hst with
      msixEn := false, funcMask := false, busMaster := false, d3hot := false, held := s.hst.held.filter fun a => a.path ≠ .pcie } }
    exec (.perst t) s = .next (hstSettle u)
    ∧ u.rd HST_MAP_SET_SETTLED = 0 ∧ (∀ v < 32, ∀ w < 4, u.rd (HST_MSIX_TABLE_WORD v w) = if w = 3 then 1 else 0))
  ∧ (∀ (s : State) (p : Path) (major lo hi t : Nat), s.lets p 0x2B000C →
    let S := s.taken p t
    let common := ((ifaceOffers s 2 0).filterMap fun x =>
      if x.1 = major % 16 ∧ max (lo % 16) x.2.1 ≤ min (hi % 16) x.2.2 then some (major % 16, min (hi % 16) x.2.2) else none).head?
    let sel := S.wrs [(HST_MAP_SEL_MAJOR, major % 16), (HST_MAP_SEL_MIN_MINOR, lo % 16), (HST_MAP_SEL_MAX_MINOR, hi % 16)]
    let word := major % 16 * 4096 + lo % 16 * 256 + hi % 16 * 16
    let gives (u : State) : Prop := exec (.hstMapSel p major lo hi t) s = .next (hstSettle u)
    (p = .pcie → ∀ x ∈ common, gives (sel.wrs [(HST_MAP_SET_SETTLED, 1), (HST_MAP_SET_MAJOR, x.1), (HST_MAP_SET_MINOR, x.2)]))
    ∧ (p = .pcie → common = none → gives (report (sel.wrs [(HST_MAP_SET_SETTLED, 0), (HST_MAP_SET_MAJOR, 0), (HST_MAP_SET_MINOR, 0)]) 0x1209))
    ∧ (p = .qspi → ∀ x ∈ common, gives (updQspi S fun q => { q with mapSel := word, settled := some x }))
    ∧ (p = .qspi → common = none → gives (report (updQspi S fun q => { q with mapSel := word, settled := none }) 0x1209))
    ∧ (p ≠ .pcie → p ≠ .qspi → gives S)
    ∧ (s.hasSec 17 = false → ifaceOffers s 2 0 = [(4, 0, 1)]))
  ∧ (∀ (s : State) (v t : Nat) (en mask bm : Bool),
    let S := s.at t
    (v < 32 → s.lets .pcie (0x2B100C + 16 * v) → exec (.msixUnmask (some v) en mask bm t) s = .next (hstSettle
      (unmaskVec ((s.taken .pcie t).wr (HST_MSIX_TABLE_WORD v 3) (s.rd (HST_MSIX_TABLE_WORD v 3) / 2 * 2)) v)))
    ∧ (v < 32 → gate s .pcie (0x2B100C + 16 * v) true = .locked → exec (.msixUnmask (some v) en mask bm t) s = .next (hstSettle S))
    ∧ (v < 32 → gate s .pcie (0x2B100C + 16 * v) true = .held → exec (.msixUnmask (some v) en mask bm t) s = .next (hstSettle
      (holdAcc S .pcie (0x2B100C + 16 * v) (some (s.rd (HST_MSIX_TABLE_WORD v 3) / 2 * 2)))))
    ∧ (32 ≤ v → exec (.msixUnmask (some v) en mask bm t) s = .next (hstSettle S))
    ∧ exec (.msixUnmask none en mask bm t) s = .next (hstSettle ((List.range 32).foldl unmaskVec
      { S with hst := { S.hst with msixEn := en, funcMask := mask, busMaster := bm } })))
  ∧ (∀ (s : State) (v t : Nat) (x : Nat × Nat),
    let S := s.at t
    let E := { S with hst := { S.hst with holdUntil := s.hst.holdUntil.filter (fun p => p.1 ≠ v), deferMask := setBit s.hst.deferMask v false } }
    let here : Bool := (s.hst.holdUntil.find? fun p => p.1 = v) == some x
    let sends : Bool := bit s.hst.deferMask v && bit (s.rd HST_VEC_STS_ASSERTED) v
    (here = true → x.2 ≤ max s.tim.cnt t → sends = true → exec (.holdoffEnd v t) s = .next (hstSettle (vecMessage E v)))
    ∧ (here = true → x.2 ≤ max s.tim.cnt t → sends = false → exec (.holdoffEnd v t) s = .next (hstSettle E))
    ∧ ((here = true ∧ max s.tim.cnt t < x.2) ∨ (s.hst.holdUntil.find? fun p => p.1 = v) = none → exec (.holdoffEnd v t) s = .next (hstSettle S)))

/-- O15. A BAR2 write to plain memory (every octet's window takes writes) stores the enabled octets at their addresses and leaves every other
octet of BAR2 memory as it was; an enabled octet whose window takes none is discarded with its code; a write with the poison bit is
discarded with HST 0x120C and stores nothing, and in D3hot none does anything. (R522, R523, R524) -/
def Obligations.Bar2StoresEnabledOctets : Prop :=
  (∀ (s : State) (off : Nat) (b : List (Option Byte)) (t : Nat),
    let S := s.at t
    let ok : Bool := (List.range b.length).all fun i => (b.getD i none).isNone || bar2Code s (off + i) = 0
    let u := bar2Put (endRun S .pcie) off b
    let mem (x : State) (a : Nat) : Byte := sget (fun _ => (0 : Byte)) x.hst.mem a
    (s.hst.d3hot = false → ok = true → exec (.bar2Write off b false t) s = .next (hstSettle u))
    ∧ (s.hst.d3hot = false → ok = false → exec (.bar2Write off b false t) s = .next (hstSettle (bar2Put S off b)))
    ∧ (s.hst.d3hot = false → exec (.bar2Write off b true t) s = .next (hstSettle (discard S .pcie off 0x120C)))
    ∧ (s.hst.d3hot = true → exec (.bar2Write off b true t) s = .next (hstSettle S) ∧ exec (.bar2Write off b false t) s = .next (hstSettle S))
    ∧ ((∀ i < b.length, bar2Code s (off + i) = 0) → ∀ i < b.length, mem u (off + i) = (b.getD i none).getD (mem s (off + i))))
  ∧ (∀ (s : State) (off a : Nat) (b : List (Option Byte)) (x : Byte),
    let c := bar2Code s off
    let mem (x : State) (a : Nat) : Byte := sget (fun _ => (0 : Byte)) x.hst.mem a
    bar2Put s off [] = s ∧ bar2Put s off (none :: b) = bar2Put s (off + 1) b
    ∧ (c = 0 → bar2Put s off (some x :: b) = bar2Put { s with hst := { s.hst with mem := sput (fun _ => (0 : Byte)) s.hst.mem off x } } (off + 1) b)
    ∧ (c ≠ 0 → bar2Put s off (some x :: b) = bar2Put (discard s .pcie off c) (off + 1) b)
    ∧ (a < off ∨ off + b.length ≤ a → mem (bar2Put s off b) a = mem s a)
    ∧ (swf (fun _ => (0 : Byte)) s.hst.mem = true → swf (fun _ => (0 : Byte)) (bar2Put s off b).hst.mem = true))

/-- O16. TUNNEL_READ and TUNNEL_WRITE with a route and none outstanding send the access and set GO_BUSY; without a route they end NO_ROUTE;
while one is outstanding they are discarded. TUNNEL_TIMEOUT ends an access not answered for 10 ms with TIMEOUT. MBX_SEND of 1 to 1,008
octets with a route sends the mailbox's octets; without one it ends NO_ROUTE; with the mailbox busy, or of no octets, it is discarded with
0x1212 or 0x1211, and one that is too long is refused. MBX_TIMEOUT ends a message not answered for 10 ms; MBX_FREE empties the inbound
mailboxes named. Otherwise nothing changes. (R434, R542) -/
def Obligations.MailboxesAndTunnelledAccesses : Prop :=
  (∀ (s : State) (p : Path) (dst t : Nat), s.lets p 0x280050 →
    let S := s.taken p t
    let T (wr : Nat) := S.wrs [(PST_TUN_CTRL_WRITE, wr), (PST_TUN_CTRL_DST, dst % 2 ^ 14)]
    let route (wr : Nat) : Bool := canSend (T wr) (dst % 2 ^ 14) 0x30
    let sent (wr : Nat) := pstSend (((T wr).wrs [(PST_TUN_CTRL_GO_BUSY, 1), (PST_TUN_STS_RESULT, 0)]).ps fun x => { x with tunAt := some (max s.tim.cnt t) })
      0x30 0 (dst % 2 ^ 14) (s.rd SEQ_CYC_LO_CYC_LO) [wr, s.rd PST_TUN_ADDR_OFS, s.rd PST_TUN_DATA_DATA]
    let busy : Bool := s.flag PST_TUN_CTRL_GO_BUSY
    let B := { S with hst := { S.hst with mark := true } }
    (busy = false → exec (.tunnelRead p dst t) s = .next (hstSettle (if route 0 then sent 0 else tunEnd (T 0) 2))
      ∧ exec (.tunnelWrite p dst t) s = .next (hstSettle (if route 1 then sent 1 else tunEnd (T 1) 2)))
    ∧ (busy = true → exec (.tunnelRead p dst t) s = .next (hstSettle B) ∧ exec (.tunnelWrite p dst t) s = .next (hstSettle B)))
  ∧ (∀ (s : State) (t : Nat),
    let due : Bool := s.flag PST_TUN_CTRL_GO_BUSY && (s.pst.tunAt.map fun x => decide (x + 2500000 ≤ max s.tim.cnt t)).getD false
    (due = true → exec (.tunnelTimeout t) s = .next (hstSettle (report (((s.at t).wrs [(PST_TUN_CTRL_GO_BUSY, 0), (PST_TUN_STS_RESULT, 3)]).ps fun x =>
      { x with tunAt := none }) 0x0E14)))
    ∧ (due = false → exec (.tunnelTimeout t) s = .next (hstSettle (s.at t))))
  ∧ (∀ (s : State) (p : Path) (m len dst t : Nat),
    let S := s.taken p t
    let n := len % 1024
    let d := dst % 2 ^ 14
    let s1 := S.wrs [(HST_MBX_OUT_LEN m, n), (HST_MBX_OUT_DST m, d)]
    let s2 := s1.wrs [(HST_MBX_OUT_GO_BUSY m, 1), (HST_MBX_OUT_RESULT m, 0)]
    let busy : Bool := s.flag (HST_MBX_OUT_GO_BUSY m)
    let gives (u : State) : Prop := exec (.mbxSend p m len dst t) s = .next (hstSettle u)
    (m < 4 → s.lets p (0x2B0040 + 4 * m) →
      (busy = true → gives (discard S p (0x2B0040 + 4 * m) 0x1212))
      ∧ (busy = false → n = 0 → gives (discard S p (0x2B0040 + 4 * m) 0x1211))
      ∧ (busy = false → 1008 < n → gives { S with hst := { S.hst with mark := true } })
      ∧ (busy = false → 1 ≤ n → n ≤ 1008 → canSend s1 d 0x30 = true → gives (pstSend
        { s2 with hst := { s2.hst with mbxWait := (m, max s.tim.cnt t) :: s.hst.mbxWait } } 0x30 2 d (s.rd SEQ_CYC_LO_CYC_LO)
          (m :: (bar2Bytes s (0x400 * m) n).map (·.toNat))))
      ∧ (busy = false → 1 ≤ n → n ≤ 1008 → canSend s1 d 0x30 = false → gives (mbxEnd s1 m 2)))
    ∧ (4 ≤ m → gives (s.at t)))
  ∧ (∀ (s : State) (m t : Nat),
    let due : Bool := ((s.hst.mbxWait.find? fun x => x.1 = m).map fun x => decide (x.2 + 2500000 ≤ max s.tim.cnt t)).getD false
    (due = true → exec (.mbxTimeout m t) s = .next (hstSettle (mbxEnd (s.at t) m 4)))
    ∧ (due = false → exec (.mbxTimeout m t) s = .next (hstSettle (s.at t))))
  ∧ (∀ (s : State) (p : Path) (v t : Nat), s.lets p 0x2B0050 →
    exec (.mbxFree p v t) s = .next (hstSettle ((List.range 4).foldl
      (fun u m => if bit v m then (u.wrBit HST_MBX_IN_STS_FULL m false).wr (HST_MBX_IN_LEN m) 0 else u) (s.taken p t))))

/-- O17. PISTE_TRAINED of a training port whose peer has sent HELLO, while LINK runs on its primary clock, settles the state (management-only,
TRAINED or DEGRADED), the lanes and the version and reports them, asks a member that serves a Reserve for its checkpoint and exchanges
tags with the partner. A step not complete in 50 ms counts and is reported once per run. A lane that works again makes a degraded port
TRAINED. A fifth failed transmission, invalid headers and 10 ms without HELLO lose the link: the port trains again, a pairing over it
ends, and a master without a partner is lost; fewer failures count a replay. HELLO goes out over every powered port. A delay exchange,
through the string head too, updates the mean of the last eight. What is not in order changes nothing. (R416, R417, R421, R425) -/
def Obligations.PistePortsTrainAndFail : Prop :=

  (∀ (s : State) (p : Nat) (l0 l1 : Bool) (t : Nat) (d : HelloData),
    let v := settleVer (ifaceOffers s 1 0) d.offers
    let mgmt : Bool := v.isNone || (v.map (·.1)) = some 1 || (cascRole s = 5 && !s.red.activated)
    let s1 := (s.at t).wrs [(PST_PORT_STS_STATE p, if mgmt then 2 else if l0 && l1 then 3 else 4), (PST_PORT_STS_LANE0_OK p, b2n l0),
      (PST_PORT_STS_LANE1_OK p, b2n l1), (PST_PORT_VER_MAJOR p, (v.map (·.1)).getD 0), (PST_PORT_VER_MINOR p, (v.map (·.2)).getD 0)]
    let s2 := updPst (s1.rs fun r => { r with since := some (r.since.getD (max s.tim.cnt t)) }) p fun x =>
      { x with failRun := false, helloAt := max s.tim.cnt t, stepAt := max s.tim.cnt t }
    let s3 := report s2 0x0E01 p
    let s4 := if l0 && l1 then s3 else report s3 0x0E03 p
    let s5 := if v.isNone then report s4 0x0E05 p else if (v.map (·.1)) = some 1 then report s4 0x0E06 p else s4
    let src := s5.rd (PST_PORT_STS_PEER_ADDR p)
    let s6 := if cascRole s5 = 5 && s5.red.mirror && !s5.red.activated then (if (sendersSeen s5).head? = some src then askCkpt s5 src else s5)
      else if s5.red.activated && !d.sends then askCkpt s5 src else s5
    (p ≤ 1 → (s.pport p).peer = some d → s.rd (PST_PORT_STS_STATE p) = 1 → (l0 || l1) = true → onPrimary s 8 = true →
      exec (.pisteTrained p l0 l1 t) s = .next (hstSettle (reserveSeek (if isPair s6 && src = partnerAddr s6 && !mgmt then pairCheck s6 d true else s6))))
    ∧ (1 < p ∨ (s.pport p).peer = none ∨ s.rd (PST_PORT_STS_STATE p) ≠ 1 ∨ (l0 || l1) = false ∨ onPrimary s 8 = false →
      exec (.pisteTrained p l0 l1 t) s = .next (hstSettle (s.at t))))
  ∧ (∀ (s : State) (p t : Nat),
    let s1 := (s.at t).incSat (PST_PORT_CNT_TRAIN_FAIL p) 255
    let s2 := if (s.pport p).failRun then s1 else report s1 0x0E04 p
    (p ≤ 1 → s.rd (PST_PORT_STS_STATE p) = 1 → (s.pport p).stepAt + usTicks 50000 ≤ max s.tim.cnt t →
      exec (.pisteTrainTimeout p t) s = .next (hstSettle (updPst s2 p fun x =>
        { x with failRun := true, peer := none, stepAt := max s.tim.cnt t + usTicks 100000 })))
    ∧ (1 < p ∨ s.rd (PST_PORT_STS_STATE p) ≠ 1 ∨ max s.tim.cnt t < (s.pport p).stepAt + usTicks 50000 →
      exec (.pisteTrainTimeout p t) s = .next (hstSettle (s.at t))))
  ∧ (∀ (s : State) (p t : Nat),
    (p ≤ 1 → s.rd (PST_PORT_STS_STATE p) = 4 → exec (.pisteLaneRetry p true t) s = .next (hstSettle ((s.at t).wrs
      [(PST_PORT_STS_STATE p, 3), (PST_PORT_STS_LANE0_OK p, 1), (PST_PORT_STS_LANE1_OK p, 1)])))
    ∧ (p ≤ 1 → s.rd (PST_PORT_STS_STATE p) = 2 → exec (.pisteLaneRetry p true t) s = .next (hstSettle ((s.at t).wrs
      [(PST_PORT_STS_STATE p, 2), (PST_PORT_STS_LANE0_OK p, 1), (PST_PORT_STS_LANE1_OK p, 1)])))
    ∧ (1 < p ∨ (s.rd (PST_PORT_STS_STATE p) ≠ 4 ∧ s.rd (PST_PORT_STS_STATE p) ≠ 2) → exec (.pisteLaneRetry p true t) s = .next (hstSettle (s.at t)))
    ∧ exec (.pisteLaneRetry p false t) s = .next (hstSettle (s.at t)))
  ∧ (∀ (s : State) (p k t : Nat),
    let noPair : Bool := ((s.pport p).peer.map fun d => s.rd (PST_PORT_STS_PEER_ADDR p) = masterAddr s && d.pair = 0x3FFF).getD false
    let s1 := ((s.at t).incSat (PST_PORT_CNT_RETRAIN p) 255).wrs [(PST_PORT_STS_STATE p, 1), (PST_PORT_STS_LANE0_OK p, 0),
      (PST_PORT_STS_LANE1_OK p, 0), (PST_PORT_VER_MAJOR p, 0), (PST_PORT_VER_MINOR p, 0)]
    let s2 := report (updPst s1 p fun _ => { PstPort.reset with stepAt := max s.tim.cnt t }) 0x0E02 p
    let s3 := if isPair s2 && s2.flag RED_STATUS_PAIRED && !reachable s2 (partnerAddr s2) 0x10 then
        (partnerLost s2).wrs [(RED_STATUS_PAIRED, 0), (RED_PTAG_LO_VALUE, 0), (RED_PTAG_HI_VALUE, 0)] else s2
    let lost := if noPair then masterLost s3 else s3
    (p ≤ 1 → 2 ≤ s.rd (PST_PORT_STS_STATE p) →
      exec (.pisteLinkLoss p t) s = .next (hstSettle lost)
      ∧ ((s.pport p).helloAt + usTicks 10000 ≤ max s.tim.cnt t → exec (.helloTimeout p t) s = .next (hstSettle lost))
      ∧ (max s.tim.cnt t < (s.pport p).helloAt + usTicks 10000 → exec (.helloTimeout p t) s = .next (hstSettle (s.at t)))
      ∧ (5 ≤ k → exec (.pisteFrameError p (some k) t) s = .next (hstSettle lost))
      ∧ (k < 5 → exec (.pisteFrameError p (some k) t) s = .next (hstSettle ((s.at t).incSat (PST_PORT_CNT_REPLAY p) 255))))
    ∧ (1 < p ∨ s.rd (PST_PORT_STS_STATE p) < 2 →
      exec (.pisteLinkLoss p t) s = .next (hstSettle (s.at t)) ∧ exec (.helloTimeout p t) s = .next (hstSettle (s.at t))
      ∧ exec (.pisteFrameError p (some k) t) s = .next (hstSettle (s.at t)))
    ∧ exec (.pisteFrameError p none t) s = .next (hstSettle (s.at t)))
  ∧ (∀ (s : State) (p t : Nat),
    (p ≤ 1 → s.rd (PST_PORT_STS_STATE p) ≠ 0 →
      exec (.helloSend p t) s = .next (hstSettle ((s.at t).emit (.pisteData 1 (s.rd (PST_PORT_STS_PEER_ADDR p)) (s.rd SEQ_CYC_LO_CYC_LO)
        (.hello ⟨cascRole s, s.flag GLB_STRAP_MASTER_EN, s.rd RED_TAG_LO_VALUE + 2 ^ 32 * s.rd RED_TAG_HI_VALUE,
          if s.flag PST_CFG_PAIRS then partnerAddr s else 0x3FFF, ifaceOffers s 1 0, s.rd SEQ_PERIOD_VALUE, s.rd SEQ_COMMIT_OFS_VALUE,
          s.rd SEQ_T0_PHASE_VALUE, s.pst.held.map (·.id), s.pst.lastApplied, s.rd SEQ_STATUS_STATE, s.flag RED_STATUS_SENDING⟩)))))
    ∧ (1 < p ∨ s.rd (PST_PORT_STS_STATE p) = 0 → exec (.helloSend p t) s = .next (hstSettle (s.at t)))
    ∧ (p ≤ 1 → 2 ≤ s.rd (PST_PORT_STS_STATE p) → 2 ≤ s.rd (PST_PORT_VER_MAJOR p) →
      exec (.delayTimer p t) s = .next (hstSettle ((s.at t).emit (.piste 3 0 (s.rd (PST_PORT_STS_PEER_ADDR p)) (s.rd SEQ_CYC_LO_CYC_LO) [p]))))
    ∧ (p ≤ 1 → s.rd (PST_PORT_STS_STATE p) < 2 ∨ s.rd (PST_PORT_VER_MAJOR p) < 2 → exec (.delayTimer p t) s = .next (hstSettle (s.at t)))
    ∧ (portCarries s 2 3 = true → exec (.delayTimer 2 t) s = .next (hstSettle (headSend ((s.at t).emit (.piste 3 0 bcastAll (s.rd SEQ_CYC_LO_CYC_LO) [2]))
        3 (ownAddr s) bcastAll (s.rd SEQ_CYC_LO_CYC_LO) 0)))
    ∧ (2 < p ∨ (p = 2 ∧ portCarries s 2 3 = false) → exec (.delayTimer p t) s = .next (hstSettle (s.at t))))
  ∧ (∀ (s : State) (p : Nat) (t1 t2 t3 t4 : Int) (t : Nat),
    let l := ((((t4 - t1) - (t3 - t2)) * 2) :: (s.pport p).d).take 8
    let head : Int := (((pathNs s (headPort s)).1 + (pathNs s (headPort s)).2 : Nat) : Int) / 2
    (p ≤ 1 → s.rd (PST_PORT_STS_STATE p) ≠ 0 →
      exec (.delay p t1 t2 t3 t4 t) s = .next (hstSettle ((updPst (s.at t) p fun x => { x with d := l }).wr (PST_PORT_DELAY_DELAY_NS p)
        (unsigned 16 (divRne (l.foldl (· + ·) 0) l.length)))))
    ∧ (portCarries s 2 3 = true → exec (.delay 2 t1 t2 t3 t4 t) s = .next (hstSettle (updPst (s.at t) 2 fun x =>
        { x with d := ((((t4 - t1) - (t3 - t2)) * 2 - head) :: x.d).take 8 })))
    ∧ (2 < p ∨ (p < 2 ∧ s.rd (PST_PORT_STS_STATE p) = 0) ∨ (p = 2 ∧ portCarries s 2 3 = false) →
      exec (.delay p t1 t2 t3 t4 t) s = .next (hstSettle (s.at t))))

/-- O18. HELLO on a port that is powered records the peer, its address and versions and makes the checks of R418; the master strikes a device
that names the change as applied from PST_OOS; over a trained port the partner's HELLO compares tags, over another it is noted, and a LEAD
that no longer sends leaves LEAD to a sending SECOND. A FAIL_SILENT notice of the partner ends the partnership; OUT_OF_STEP of the partner
marks it as not sending; ACTING_MASTER makes its sender the accepted master; MASTER_LOST is reported once and clears MASTER_OK, and means
nothing to the master. A notice of another device than the partner changes nothing. (R391, R417, R418, R428, R441) -/
def Obligations.HelloAndNoticesAct : Prop :=

  (∀ (s : State) (h : PstHdr) (d : HelloData) (t : Nat),
    let top := settleVer d.offers d.offers
    let s1 := (s.at t).wrs [(PST_PORT_STS_PEER_ADDR h.port, h.src), (PST_PORT_VER_PEER_MAJOR h.port, (top.map (·.1)).getD 0),
      (PST_PORT_VER_PEER_MINOR h.port, (top.map (·.2)).getD 0)]
    let s2 := helloChecks (updPst s1 h.port fun x => { x with peer := some d, helloAt := max s.tim.cnt t }) h.port h.src d
    let s3 := if isMaster s2 && d.applied = some (s2.rd PST_MC_STS_ID) && bit (s2.rd (PST_OOS_OOS (h.src / 32))) (h.src % 32) then
        oosCount (s2.wrBit (PST_OOS_OOS (h.src / 32)) (h.src % 32) false) else s2
    let s4 := reserveSeek s3
    let s5 := if s4.rd RED_STATUS_ROLE = 2 && s4.red.pSends && !d.sends then s4.rs fun r => { r with leadNext := true } else s4
    ((cascRole s ≠ 0 ∨ bootTarget s = true) → h.port ≤ 1 → s.rd (PST_PORT_STS_STATE h.port) ≠ 0 →
      (isPair s4 = false ∨ h.src ≠ partnerAddr s4 → exec (.hello h d t) s = .next (hstSettle s4))
      ∧ (isPair s4 = true → h.src = partnerAddr s4 →
        (s4.rd (PST_PORT_STS_STATE h.port) < 3 → exec (.hello h d t) s = .next (hstSettle (s5.rs fun r => { r with pState := d.state, pSends := d.sends })))
        ∧ (3 ≤ s4.rd (PST_PORT_STS_STATE h.port) →
          exec (.hello h d t) s = .next (hstSettle (pairCheck s5 d (((s.pport h.port).peer.map (·.tag)) ≠ some d.tag))))))
    ∧ ((cascRole s = 0 ∧ bootTarget s = false) ∨ 1 < h.port ∨ s.rd (PST_PORT_STS_STATE h.port) = 0 →
      exec (.hello h d t) s = .next (hstSettle (s.at t))))
  ∧ (∀ (s : State) (h : PstHdr) (t : Nat), s.hears h 2 = true →
    let s0 := (s.at t).heard h 2
    let s1 := if s0.rd RED_STATUS_ROLE = 2 && s0.red.pSends then s0.rs fun r => { r with leadNext := true } else s0
    (isPair s0 = true → h.src = partnerAddr s0 →
      exec (.noticeFailSilent h t) s = .next (hstSettle (partnerLost s0))
      ∧ exec (.noticeOutOfStep h t) s = .next (hstSettle (s1.rs fun r => { r with pSends := false })))
    ∧ (isPair s0 = false ∨ h.src ≠ partnerAddr s0 →
      exec (.noticeFailSilent h t) s = .next (hstSettle s0) ∧ exec (.noticeOutOfStep h t) s = .next (hstSettle s0)))
  ∧ (∀ (s : State) (h : PstHdr) (t : Nat), s.hears h 2 = true →
    exec (.noticeActingMaster h t) s = .next (hstSettle (devUnvoted (((s.at t).heard h 2).ps fun x => { x with backup := some h.src, masterLost := false }))))
  ∧ (∀ (s : State) (h : PstHdr) (t : Nat), s.hears h 2 = true →
    let s0 := (s.at t).heard h 2
    (s0.pst.masterLost = false → isMaster s0 = false →
      exec (.noticeMasterLost h t) s = .next (hstSettle (devUnvoted (report ((s0.ps fun x => { x with masterLost := true }).wr PST_STATUS_MASTER_OK 0) 0x0E0B))))
    ∧ (s0.pst.masterLost = true ∨ isMaster s0 = true → exec (.noticeMasterLost h t) s = .next (hstSettle s0)))

/-- O19. ALIGN of the accepted master marks the master present, clears the miss count, records hops and the error bound, gives the Piste
source its offset (or breaks its run where it carries no valid time), and shows a computing device that counts another cycle to be
OUT_OF_STEP; at a named master ALIGN of another device shows that its backup acts. JOIN is queued once on a running master, and its answer
fixes a joining device's first cycle and T0. START of the master with a T0(0), or of the partner, makes a cold entry of an idle device
with an image, its chain on the T0(0) given or as its own START would begin it; a staged value that fails is reported. HANDBACK on an
acting master whose partner sends is kept for the next T0, else it has no effect. ALIGN and JOIN of others, and a START out of order,
change nothing. (R426, R427, R428, R431) -/
def Obligations.AlignJoinAndStartOverPiste : Prop :=

  (∀ (s : State) (h : PstHdr) (launch corr : Int) (valid : Bool) (t : Nat), s.hears h 5 = true →
    let s0 := (s.at t).heard h 5 [unsigned 96 launch, unsigned 64 (corr + linkDelay s h.port * 65536 + ((Config.fit 29 [h.cyc, h.hops, h.port] 0).toNat : Int))]
    let s1 := if cascRole s0 = 1 && h.src ≠ ownAddr s0 then s0.ps fun x => { x with backup := some h.src } else s0
    let s2 := (s1.wrs [(PST_STATUS_MASTER_OK, 1), (PST_ALIGN_MISS, 0), (PST_ALIGN_HOPS, h.hops), (PST_ALIGN_ERR_BOUND, 8 * h.hops)]).ps fun x =>
      { x with got := true, lostRun := false, masterLost := false }
    let s3 := match slotOfKind s2 3 with
      | some i => if valid then sourceOffset s2 i (launch + corr + linkDelay s2 h.port * 65536 - s2.now) else breakRun s2 i
      | none => s2
    (isMasterAddr s1 h.src = false ∨ s1.flag PST_STATUS_ACTING_MASTER = true → exec (.align h launch corr valid t) s = .next (hstSettle s1))
    ∧ (isMasterAddr s1 h.src = true → s1.flag PST_STATUS_ACTING_MASTER = false →
      exec (.align h launch corr valid t) s = .next (hstSettle (
        if s3.rd SEQ_STATUS_STATE = 2 && computes s3 && cycAt s3 launch % 2 ^ 32 ≠ h.cyc then outOfStep s3 else s3))))
  ∧ (∀ (s : State) (h : PstHdr) (launch corr : Int) (valid : Bool) (t : Nat), s.hears h 5 = false →
    exec (.align h launch corr valid t) s = .next (hstSettle ((s.at t).passedBy h 5 [unsigned 96 launch,
      unsigned 64 (corr + linkDelay s h.port * 65536 + ((Config.fit 29 [h.cyc, h.hops, h.port] 0).toNat : Int))])))
  ∧ (∀ (s : State) (h : PstHdr) (t : Nat), s.hears h 4 = true →
    let s0 := (s.at t).heard h 4
    (isMaster s0 = true → s0.rd SEQ_STATUS_STATE = 2 → s0.pst.joins.contains h.src = false →
      exec (.join h none t) s = .next (hstSettle (s0.ps fun x => { x with joins := x.joins ++ [h.src] })))
    ∧ (isMaster s0 = false ∨ s0.rd SEQ_STATUS_STATE ≠ 2 ∨ s0.pst.joins.contains h.src = true → exec (.join h none t) s = .next (hstSettle s0)))
  ∧ (∀ (s : State) (h : PstHdr) (k : Nat) (t0 : Int) (t : Nat), s.hears h 4 = true →
    let s0 := (s.at t).heard h 4
    (s0.pst.joining = true → s0.rd SEQ_STATUS_STATE = 1 → isMasterAddr s0 h.src = true →
      exec (.join h (some (k, t0)) t) s = .next (hstSettle { (s0.ps fun x => { x with joining := false, joinAt := some (k, t0) }) with
        seq := { s0.seq with nextN := k, nextT0 := t0 } }))
    ∧ (s0.pst.joining = false ∨ s0.rd SEQ_STATUS_STATE ≠ 1 ∨ isMasterAddr s0 h.src = false →
      exec (.join h (some (k, t0)) t) s = .next (hstSettle s0)))
  ∧ (∀ (s : State) (h : PstHdr) (x : Option Int) (t g ofs : Nat), s.hears h 4 = true →
    let s0 := (s.at t).heard h 4
    let mine : Bool := (x.isSome && isMasterAddr s0 h.src) || (isPair s0 && h.src = partnerAddr s0)
    let s1 := s0.rs fun y => { y with pState := if isPair s0 && h.src = partnerAddr s0 then 0 else y.pState }
    (mine = true → s0.idle = true → s0.loaded = true → (cascRole s0 ≠ 5 ∨ s0.red.activated = true) →
      (startBad s0 = none → exec (.modeStart h x t) s = .next (hstSettle (startChain (startRole (coldEntry s1)) x)))
      ∧ (startBad s0 = some (g, ofs) → exec (.modeStart h x t) s = .next (hstSettle (report (s0.wrs
          [(IMG_FUNC_ERR_GROUP, g), (IMG_FUNC_ERR_REG_OFS, ofs)]) 0x020B))))
    ∧ (mine = false ∨ s0.idle = false ∨ s0.loaded = false ∨ (cascRole s0 = 5 ∧ s0.red.activated = false) →
      exec (.modeStart h x t) s = .next (hstSettle s0)))
  ∧ (∀ (s : State) (p : Path) (t : Nat), s.lets p 0x280004 →
    (s.flag PST_STATUS_ACTING_MASTER = true → pairOk s = true → s.red.pSends = true →
      exec (.handback p t) s = .next (hstSettle ((s.taken p t).ps fun x => { x with handback := true })))
    ∧ (s.flag PST_STATUS_ACTING_MASTER = false ∨ pairOk s = false ∨ s.red.pSends = false → exec (.handback p t) s = .next (hstSettle (s.taken p t))))

/-- O20. PREPARE from the master at a running device that holds no change, for implemented groups, holds the change, asks the groups to stop
and acknowledges once they have; one that cannot be taken is answered NACK. SEAL of the held, acknowledged change is voted on: READY where
every staged value of its groups is one the loader would take, else NOT_READY with the group and register named; of another it is answered
NOT_READY. COMMIT of the held change with its k before T0(k) is kept; after T0(k), or for another change than the one held or applied
last, it makes the device OUT_OF_STEP. ABORT of the held change lets go of it. Frames of a device that is not the master change nothing.
(R437, R438, R439, R440) -/
def Obligations.ModeChangeAtDevice : Prop :=

  (∀ (s : State) (h : PstHdr) (id groups t : Nat), s.hears h 4 = true →
    let s0 := (s.at t).heard h 4
    (isMasterAddr s0 h.src = true → s0.rd SEQ_STATUS_STATE = 2 → s0.pst.held = none → groups ||| implGroups s0 = implGroups s0 →
      exec (.prepare h id groups t) s = .next (hstSettle (mcAck (stopReq { s0.wrs [(PST_MC_STS_HELD, 1), (PST_MC_STS_ID, id)] with
        img := { s0.img with heldGroups := s0.img.heldGroups ||| groups }
        pst := { s0.pst with held := some ⟨id, groups, h.src, false, false, none, false⟩ } } (groupsIn s0 groups)))))
    ∧ (isMasterAddr s0 h.src = true → s0.rd SEQ_STATUS_STATE ≠ 2 ∨ s0.pst.held.isSome ∨ groups ||| implGroups s0 ≠ implGroups s0 →
      exec (.prepare h id groups t) s = .next (hstSettle (modeSend s0 5 h.src [id])))
    ∧ (isMasterAddr s0 h.src = false → exec (.prepare h id groups t) s = .next (hstSettle s0)))
  ∧ (∀ (s : State) (h : PstHdr) (id k t g ofs : Nat) (x : McHeld), s.hears h 4 = true →
    let s0 := (s.at t).heard h 4
    let bad := (groupsIn s0 x.groups).findSome? fun g => (stagedBad s0 (groupsIn s0 x.groups) g).map fun off => (g, off)
    let voted (y : Option Nat) : State := { s0 with
      img := { s0.img with votedGroups := x.groups }, pst := { s0.pst with held := some { x with voted := true, k := y } } }
    (isMasterAddr s0 h.src = true → s0.pst.held = some x → x.id = id → x.acked = true →
      (bad = none → exec (.seal h id k t) s = .next (hstSettle (modeSend (voted (some k)) 7 h.src [id, 1])))
      ∧ (bad = some (g, ofs) → exec (.seal h id k t) s = .next (hstSettle (modeSend ((voted none).wrs
          [(IMG_FUNC_ERR_GROUP, g), (IMG_FUNC_ERR_REG_OFS, ofs)]) 7 h.src [id, 0]))))
    ∧ (isMasterAddr s0 h.src = true → s0.pst.held = none ∨ (s0.pst.held = some x ∧ (x.id ≠ id ∨ x.acked = false)) →
      exec (.seal h id k t) s = .next (hstSettle (modeSend s0 7 h.src [id, 0])))
    ∧ (isMasterAddr s0 h.src = false → exec (.seal h id k t) s = .next (hstSettle s0)))
  ∧ (∀ (s : State) (h : PstHdr) (id k t : Nat) (x : McHeld), s.hears h 4 = true →
    let s0 := (s.at t).heard h 4
    (isMasterAddr s0 h.src = true → s0.pst.held = some x →
      (x.id = id → x.k = some k → s0.now < t0At s0 k →
        exec (.mcCommit h id k t) s = .next (hstSettle (s0.ps fun y => { y with held := some { x with commit := true } })))
      ∧ (x.id ≠ id ∨ x.k ≠ some k ∨ t0At s0 k ≤ s0.now → exec (.mcCommit h id k t) s = .next (hstSettle (outOfStep s0)))
      ∧ (x.id = id → exec (.mcAbort h id t) s = .next (hstSettle (devAbort s0)))
      ∧ (x.id ≠ id → exec (.mcAbort h id t) s = .next (hstSettle s0)))
    ∧ (isMasterAddr s0 h.src = true → s0.pst.held = none →
      exec (.mcCommit h id k t) s = .next (hstSettle (if s0.pst.lastApplied = some id then s0 else outOfStep s0))
      ∧ exec (.mcAbort h id t) s = .next (hstSettle s0))
    ∧ (isMasterAddr s0 h.src = false →
      exec (.mcCommit h id k t) s = .next (hstSettle s0) ∧ exec (.mcAbort h id t) s = .next (hstSettle s0)))

/-- O21. PREPARE on an idle running master opens the change and sends PREPARE to each device of PST_DEVSET (its own part it takes itself; with
no device named it is PREPARED at once); SEAL while PREPARED is kept for the next T0; ABORT before COMMIT aborts; the last ACK makes the
change PREPARED; a NACK, or the PREP_DL without every ACK, aborts it; a READY vote is counted, the last one before T0(k-1) commits and one
too late or NOT_READY aborts; APPLIED is counted, and after T0(k) + PREP_DL the devices without it are set in PST_OOS and reported, and
the change ends. RELOAD goes to every device named, and a device that takes it makes a CAS reset. What is not in order is refused with PST
MC_REFUSED, and a frame or timeout that fits no step of the open change changes nothing. (R436, R437, R438, R439, R441) -/
def Obligations.ModeChangeAtMaster : Prop :=

  (∀ (s : State) (p : Path) (groups t : Nat), s.lets p 0x280040 → groups < 2 ^ 20 →
    let s0 := s.taken p t
    let devs := addrsOf s PST_DEVSET_SET
    let id := s0.pst.nextId
    let bad : Bool := !isMaster s || mcOpen s || groups = 0 || bothOfPair s devs || (devs.contains (ownAddr s) && bit groups 5) || s.rd SEQ_STATUS_STATE ≠ 2
    let s1 := devs.foldl (fun s d => if d ≠ ownAddr s then modeSend s 3 d [id, groups]
        else let (s, ok) := devPrepare s d id groups; if ok then mcAck s else masterAbort s)
      ((s0.ps fun x => { x with nextId := (id + 1) % 256, master := some ⟨id, groups, devs, devs, max s.tim.cnt t, false, none, []⟩ }).wrs
        [(PST_MC_STS_STATE, 1), (PST_MC_STS_ID, id), (PST_MC_STS_PENDING, devs.length), (PST_MC_TARGET_K, 0xFFFFFFFF)])
    (bad = true → exec (.mcPrepare p groups t) s = .next (hstSettle (refuse s0 0x0E0F)))
    ∧ (bad = false → devs ≠ [] → exec (.mcPrepare p groups t) s = .next (hstSettle s1))
    ∧ (bad = false → devs = [] → exec (.mcPrepare p groups t) s = .next (hstSettle (report (s1.wr PST_MC_STS_STATE 2) 0x0E10 0 id))))
  ∧ (∀ (s : State) (p : Path) (t : Nat) (m : McMaster), s.lets p 0x280040 →
    (s.pst.master = some m → isMaster s = true →
      (s.rd PST_MC_STS_STATE = 2 → exec (.mcSeal p t) s = .next (hstSettle ((s.taken p t).ps fun x => { x with master := some { m with sealing := true } })))
      ∧ (s.rd PST_MC_STS_STATE ≠ 2 → exec (.mcSeal p t) s = .next (hstSettle (refuse (s.taken p t) 0x0E0F)))
      ∧ (s.rd PST_MC_STS_STATE < 4 → exec (.mcHostAbort p t) s = .next (hstSettle (masterAbort (s.taken p t))))
      ∧ (4 ≤ s.rd PST_MC_STS_STATE → exec (.mcHostAbort p t) s = .next (hstSettle (refuse (s.taken p t) 0x0E0F))))
    ∧ (s.pst.master = none ∨ isMaster s = false → exec (.mcSeal p t) s = .next (hstSettle (refuse (s.taken p t) 0x0E0F))
      ∧ exec (.mcHostAbort p t) s = .next (hstSettle (refuse (s.taken p t) 0x0E0F))))
  ∧ (∀ (s : State) (h : PstHdr) (id t : Nat) (m : McMaster), s.hears h 4 = true →
    let s0 := (s.at t).heard h 4
    (s0.pst.master = some m → m.id = id → s0.rd PST_MC_STS_STATE = 1 →
      (let wait := m.wait.filter fun d => d ≠ h.src
       let s1 := (s0.ps fun x => { x with master := some { m with wait := wait } }).wr PST_MC_STS_PENDING wait.length
       exec (.ack h id t) s = .next (hstSettle (if wait = [] then report (s1.wr PST_MC_STS_STATE 2) 0x0E10 0 id else s1)))
      ∧ (m.devs.contains h.src = true → exec (.nack h id t) s = .next (hstSettle (masterAbort s0)))
      ∧ (m.devs.contains h.src = false → exec (.nack h id t) s = .next (hstSettle s0)))
    ∧ (s0.pst.master = none ∨ (s0.pst.master = some m ∧ (m.id ≠ id ∨ s0.rd PST_MC_STS_STATE ≠ 1)) →
      exec (.ack h id t) s = .next (hstSettle s0) ∧ exec (.nack h id t) s = .next (hstSettle s0)))
  ∧ (∀ (s : State) (h : PstHdr) (id k : Nat) (ready : Bool) (t : Nat) (m : McMaster), s.hears h 4 = true →
    let s0 := (s.at t).heard h 4
    let wait := m.wait.filter fun d => d ≠ h.src
    let s1 := (s0.ps fun x => { x with master := some { m with wait := wait } }).wr PST_MC_STS_PENDING wait.length
    (s0.pst.master = some m → m.id = id → m.k = some k → s0.rd PST_MC_STS_STATE = 3 → m.wait.contains h.src = true →
      (ready = false → exec (.vote h id ready t) s = .next (hstSettle (masterAbort s0)))
      ∧ (ready = true → wait ≠ [] → exec (.vote h id ready t) s = .next (hstSettle s1))
      ∧ (ready = true → wait = [] → s1.now < t0At s1 (k - 1) → exec (.vote h id ready t) s = .next (hstSettle (m.devs.foldl (fun s d =>
          if d = ownAddr s then devCommit s id k else modeSend s 8 d [id, k]) (s1.wrs [(PST_MC_STS_STATE, 4), (PST_MC_STS_PENDING, m.devs.length)]))))
      ∧ (ready = true → wait = [] → t0At s1 (k - 1) ≤ s1.now → exec (.vote h id ready t) s = .next (hstSettle (masterAbort s1))))
    ∧ (s0.pst.master = none ∨ (s0.pst.master = some m ∧ (m.id ≠ id ∨ m.k = none ∨ s0.rd PST_MC_STS_STATE ≠ 3 ∨ m.wait.contains h.src = false)) →
      exec (.vote h id ready t) s = .next (hstSettle s0)))
  ∧ (∀ (s : State) (h : PstHdr) (id t : Nat) (m : McMaster), s.hears h 4 = true →
    let s0 := (s.at t).heard h 4
    (s0.pst.master = some m → m.id = id → s0.rd PST_MC_STS_STATE = 4 → m.devs.contains h.src = true → m.applied.contains h.src = false →
      exec (.applied h id t) s = .next (hstSettle ((s0.ps fun x => { x with master := some { m with applied := h.src :: m.applied } }).wr
        PST_MC_STS_PENDING (m.devs.length - (m.applied.length + 1)))))
    ∧ (s0.pst.master = none ∨ (s0.pst.master = some m ∧ (m.id ≠ id ∨ s0.rd PST_MC_STS_STATE ≠ 4 ∨ m.devs.contains h.src = false
        ∨ m.applied.contains h.src = true)) → exec (.applied h id t) s = .next (hstSettle s0)))
  ∧ (∀ (s : State) (t k : Nat) (m : McMaster),
    let late := m.devs.filter fun d => !m.applied.contains d
    let s1 := oosCount (late.foldl (fun s d => s.wrBit (PST_OOS_OOS (d / 32)) (d % 32) true) (s.at t))
    let s2 := (s1.ps fun x => { x with master := none }).wrs [(PST_MC_STS_STATE, 5), (PST_MC_STS_PENDING, 0)]
    (s.pst.master = some m →
      (s.rd PST_MC_STS_STATE = 1 → m.wait ≠ [] → m.since + prepTicks s ≤ max s.tim.cnt t →
        exec (.prepDlTimeout t) s = .next (hstSettle (masterAbort (s.at t))))
      ∧ (s.rd PST_MC_STS_STATE ≠ 1 ∨ m.wait = [] ∨ max s.tim.cnt t < m.since + prepTicks s → exec (.prepDlTimeout t) s = .next (hstSettle (s.at t)))
      ∧ (m.k = some k → s.rd PST_MC_STS_STATE = 4 → t0At s k + ((s.rd PST_MASTER_PREP_DL * 1000000 * 65536 : Nat) : Int) ≤ (s.at t).now →
        exec (.appliedCheck t) s = .next (hstSettle (if late = [] then s2 else report s2 0x0E13 0 (s2.rd PST_MC_OOS_CNT_COUNT))))
      ∧ (m.k = none ∨ s.rd PST_MC_STS_STATE ≠ 4 ∨ (m.k = some k ∧ (s.at t).now < t0At s k + ((s.rd PST_MASTER_PREP_DL * 1000000 * 65536 : Nat) : Int)) →
        exec (.appliedCheck t) s = .next (hstSettle (s.at t))))
    ∧ (s.pst.master = none → exec (.prepDlTimeout t) s = .next (hstSettle (s.at t)) ∧ exec (.appliedCheck t) s = .next (hstSettle (s.at t))))
  ∧ (∀ (s : State) (p : Path) (t : Nat), s.lets p 0x280004 →
    (isMaster s = true → exec (.pstReload p t) s = .next (hstSettle ((addrsOf s PST_DEVSET_SET).foldl (fun s a => modeSend s 11 a []) (s.taken p t))))
    ∧ (isMaster s = false → exec (.pstReload p t) s = .next (hstSettle (refuse (s.taken p t) 0x0E0F))))
  ∧ (∀ (s : State) (h : PstHdr) (t : Nat), s.hears h 4 = true →
    let s0 := (s.at t).heard h 4
    (isMasterAddr s0 h.src = true → asleep s0 = false → exec (.reload h t) s = .next (hstSettle (restartDue (pipeReset s0 4))))
    ∧ (isMasterAddr s0 h.src = false ∨ asleep s0 = true → exec (.reload h t) s = .next (hstSettle s0)))

/-- O22. On a paired device a frame of the partner is entered for the cycle it names: an AGREE block marks the partner present and is put
among the cycle's blocks, and the cycle's agreement is tried (before it too, where the block comes after T0 + AGREE_DL); SRCWORD is kept,
and completes a failure sample that still waits for it; under WIDEN a string device's joins the sample; a digest is kept and compared,
drive formats with it; a commit record is kept, and adopted for a missed cycle. A request for the checkpoint is served; a checkpoint is
taken by a Reserve's mirror session and by a member that copies, its words with it; a journal record in order is added, and one out of
order, damaged or of another tag fails the attempt. From a device that is not the partner nothing changes. (R217, R396, R397, R398, R400,
R403) -/
def Obligations.PairFramesReachTheirCycle : Prop :=

  (∀ (s : State) (h : PstHdr) (b : AgreeBlk) (t : Nat), s.hears h 0x10 = true →
    let s0 := (s.at t).heard h 0x10
    let n := fullCyc s0 h.cyc
    let late : Bool := ((s0.cyc? n).map fun c => decide (dueAt s0 c (s0.rd RED_CFG_AGREE_DL) < s0.tim.cnt)).getD false
    let s1 := if late then agreeTry s0 n else s0
    (h.src = partnerAddr s0 → s0.flag RED_STATUS_PAIRED = true →
      exec (.agree h b t) s = .next (hstSettle (agreeTry (updPart (s1.wr RED_STATUS_PARTNER_OK 1) n fun p =>
        { p with blks := (p.blks.filter fun x => blkKind x ≠ blkKind b) ++ [b] }) n)))
    ∧ (h.src ≠ partnerAddr s0 ∨ s0.flag RED_STATUS_PAIRED = false → exec (.agree h b t) s = .next (hstSettle s0)))
  ∧ (∀ (s : State) (h : PstHdr) (w : SrcWord) (t : Nat) (f : CycFail), s.hears h 0x11 = true →
    let s0 := (s.at t).heard h 0x11
    let n := fullCyc s0 h.cyc
    let mine : Bool := isPair s0 && s0.flag RED_STATUS_PAIRED && h.src = partnerAddr s0
    let s1 := updPart s0 n fun p => { p with src := some w }
    (mine = true → (s1.cyc? n).bind (·.fail) = none → exec (.srcword h w t) s = .next (hstSettle s1))
    ∧ (mine = true → (s1.cyc? n).bind (·.fail) = some f → f.formed = true → exec (.srcword h w t) s = .next (hstSettle s1))
    ∧ (mine = true → (s1.cyc? n).bind (·.fail) = some f → f.formed = false →
      let s2 := updCyc s1 n fun c => { c with fail := some { f with partner := some w } }
      exec (.srcword h w t) s = .next (hstSettle (if hasPurpose s2 0 then s2 else formL s2 n)))
    ∧ (mine = false → hasPurpose s0 0 = false ∨ s0.cyc? n = none → exec (.srcword h w t) s = .next (hstSettle s0))
    ∧ (∀ c ∈ s0.cyc? n, mine = false → hasPurpose s0 0 = true →
      let f := c.fail.getD ⟨⟨[], []⟩, none, [], false, noLoss⟩
      exec (.srcword h w t) s = .next (hstSettle (if f.formed then s0 else updCyc s0 n fun c => { c with fail := some { f with peers := f.peers ++ [w] } }))))
  ∧ (∀ (s : State) (h : PstHdr) (dig : Option Nat) (clean : Bool) (fmts : List (Nat × Nat)) (t : Nat), s.hears h 0x12 = true →
    let s0 := (s.at t).heard h 0x12
    let s1 := fmts.foldl (fun s f => updDrive s (f.1 / 65536) (f.1 % 65536) fun d => { d with pfmt := f.2 }) s0
    (h.src = partnerAddr s0 → s0.flag RED_STATUS_PAIRED = true →
      exec (.digest h dig clean fmts t) s = .next (hstSettle (digCompare (updPart s1 (fullCyc s0 h.cyc) fun p => { p with dig := some (dig, clean) })
        (fullCyc s0 h.cyc))))
    ∧ (h.src ≠ partnerAddr s0 ∨ s0.flag RED_STATUS_PAIRED = false → exec (.digest h dig clean fmts t) s = .next (hstSettle s0)))
  ∧ (∀ (s : State) (h : PstHdr) (r : CommitRec) (t : Nat), s.hears h 0x13 = true →
    let s0 := (s.at t).heard h 0x13
    let n := fullCyc s0 h.cyc
    let s1 := updPart s0 n fun p => { p with commit := some r }
    (h.src = partnerAddr s0 → s0.flag RED_STATUS_PAIRED = true →
      exec (.commitblk h r t) s = .next (hstSettle (if s1.red.missed.contains n then adopt s1 n r else s1)))
    ∧ (h.src ≠ partnerAddr s0 ∨ s0.flag RED_STATUS_PAIRED = false → exec (.commitblk h r t) s = .next (hstSettle s0)))
  ∧ (∀ (s : State) (h : PstHdr) (k : Ckpt) (tag snd : Nat) (its : List (Nat × Nat)) (bad : List Nat) (t : Nat), s.hears h 0x20 = true →
    let s0 := (s.at t).heard h 0x20
    let s1 := its.foldl (fun s w => lanePut s (w.1 / 24576) (w.1 % 24576) [w.2]) s0
    (cascStopped s0 = true → exec (.ckpt h none tag snd its bad t) s = .next (hstSettle s0)
      ∧ exec (.ckpt h (some k) tag snd its bad t) s = .next (hstSettle s0))
    ∧ (cascStopped s0 = false →
      exec (.ckpt h none tag snd its bad t) s = .next (hstSettle (serveCkpt s0 h.src bad))
      ∧ (s0.red.mirror = true → exec (.ckpt h (some k) tag snd its bad t) s = .next (hstSettle (s0.rs fun r =>
          { r with resync := some ⟨some k, [], tag, false⟩, few := decide (snd < 2) })))
      ∧ (s0.red.mirror = false → s0.rd RED_STATUS_SYNC = 1 → h.src = partnerAddr s0 →
        exec (.ckpt h (some k) tag snd its bad t) s = .next (hstSettle (s1.rs fun r => { r with resync := some ⟨some k, [], tag, decide (its = [])⟩ })))
      ∧ (s0.red.mirror = false → s0.rd RED_STATUS_SYNC ≠ 1 ∨ h.src ≠ partnerAddr s0 →
        exec (.ckpt h (some k) tag snd its bad t) s = .next (hstSettle s0))))
  ∧ (∀ (s : State) (h : PstHdr) (r : JnlRec) (ok : Bool) (t : Nat) (k : Ckpt) (x : ResyncSt), s.hears h 0x21 = true →
    let s0 := (s.at t).heard h 0x21
    let next := (x.recs.getLast?.map fun l => l.n + 1).getD k.n
    (s0.rd RED_STATUS_SYNC = 1 → h.src = partnerAddr s0 → cascStopped s0 = false → s0.red.resync = some x → x.ckpt = some k →
      (ok = true → r.tag = x.tag → r.n = next → exec (.jrec h r ok t) s = .next (hstSettle ((s0.rs fun y =>
        { y with resync := some { x with recs := x.recs ++ [r] } }).wr RED_RESYNC_LAG (min (x.recs.length + 1) 0xFFFF))))
      ∧ (ok = false ∨ r.tag ≠ x.tag ∨ r.n ≠ next → exec (.jrec h r ok t) s = .next (hstSettle (attemptFailed s0))))
    ∧ (s0.rd RED_STATUS_SYNC ≠ 1 ∨ h.src ≠ partnerAddr s0 ∨ cascStopped s0 = true ∨ s0.red.resync = none
        ∨ (s0.red.resync = some x ∧ x.ckpt = none) → exec (.jrec h r ok t) s = .next (hstSettle s0)))

/-- O23. A WIDEN table from the master for a cycle not yet committed is kept for it, the newest first; one for a committed cycle, and one
outside WIDEN, changes nothing. A DEEPEN share from the master is kept unless stage 6 of the cycle that uses it has started; at the master
a group's box report is kept; a slot of another device gives its value to the slots of kind 4 that name it. An exported job that the
NOT_RUN on a fenced lane; any other is discarded. Its outcome ends the exporter's job when it comes from the job's server by the deadline.
A reference node's data make a job of its lane device, which waits for a free GNSS lane; a result ends the node's job in time. Nothing
else changes. (R95, R152, R225, R226, R432, R433) -/
def Obligations.SharesAndExportedJobsArrive : Prop :=

  (∀ (s : State) (h : PstHdr) (w : WidenTable) (t : Nat), s.hears h 0x14 = true →
    let s0 := (s.at t).heard h 0x14
    let n := fullCyc s0 h.cyc
    let open_ : Bool := ((s0.cyc? n).map fun c => !c.committed).getD true
    (isMasterAddr s0 h.src = true → hasPurpose s0 0 = true → open_ = true → exec (.share h (.table w) t) s = .next (hstSettle
      { s0 with alloc := { s0.alloc with tables := ((n, w) :: s0.alloc.tables.filter fun x => x.1 ≠ n).take 4 } }))
    ∧ (isMasterAddr s0 h.src = false ∨ hasPurpose s0 0 = false ∨ open_ = false → exec (.share h (.table w) t) s = .next (hstSettle s0)))
  ∧ (∀ (s : State) (h : PstHdr) (f : List Nat) (t : Nat), s.hears h 0x14 = true →
    let s0 := (s.at t).heard h 0x14
    let n := fullCyc s0 h.cyc
    let user := n + u8 s0.casc 0x0B
    let late : Bool := user < s0.seq.nextN && ((s0.cyc? user).map fun c => c.missed || c.committed || 6 ≤ c.run.stage).getD true
    (deepenGroup s0 = true → isMasterAddr s0 h.src = true → late = false →
      exec (.share h (.share f) t) s = .next (hstSettle { s0 with alloc := { s0.alloc with shares := ((n, f) :: s0.alloc.shares).take 8 } }))
    ∧ (deepenGroup s0 = false ∨ isMasterAddr s0 h.src = false ∨ late = true → exec (.share h (.share f) t) s = .next (hstSettle s0)))
  ∧ (∀ (s : State) (h : PstHdr) (thr : Nat) (neg pos : List Nat) (t : Nat), s.hears h 0x14 = true →
    let s0 := (s.at t).heard h 0x14
    (hasPurpose s0 1 = true → isMaster s0 = true → exec (.share h (.box thr neg pos) t) s = .next (hstSettle { s0 with alloc := { s0.alloc with
      boxes := (thr, neg, pos) :: s0.alloc.boxes.filter fun b => b.1 ≠ thr
      boxNew := setBit s0.alloc.boxNew thr true } }))
    ∧ (hasPurpose s0 1 = false ∨ isMaster s0 = false → exec (.share h (.box thr neg pos) t) s = .next (hstSettle s0)))
  ∧ (∀ (s : State) (h : PstHdr) (i : Nat) (vals : List Nat) (tArr : Int) (tSrc : Option Int) (invalid : Bool) (t : Nat), s.hears h 0x14 = true →
    let s0 := (s.at t).heard h 0x14
    exec (.share h (.slot i vals tArr tSrc invalid) t) s = .next (hstSettle ((definedSlots (s0.sec 3)).foldl (fun x k =>
      let e := (slotEntry (s0.sec 3) k).getD []
      if u8 e 1 = 4 ∧ u32 e 8 = h.src ∧ u16 e 6 = i then slotArrive x k vals tArr tSrc invalid else x) s0)))
  ∧ (∀ (s : State) (h : PstHdr) (scen : Nat) (d6 : Int) (warm : Bool) (cap : Nat) (prob : Prob) (t : Nat) (e : ImpEntry), s.hears h 0x15 = true →
    let s0 := (s.at t).heard h 0x15
    let named := (importList s0).find? (fun e => e.src = h.src && e.scen = scen)
    let place := (laneOrders s0 e.lane).findIdx fun o => o = e.order
    let q : Job := { lane := e.lane, j := place, typ := 1, id := scen, embed := false, warm := warm, cap := cap, sub := 0, cyc := fullCyc s0 h.cyc,
                     deadline := cntFrom s0.tim (d6 - ((e.retUs * 1000 * 65536 : Nat) : Int)), prob := prob, ls := .none, words := prob.words,
                     started := none, res := none }
    let i : ImpJob := ⟨h.src, scen, q, false⟩
    let s1 := s0.ps fun x => { x with imports := (x.imports.filter fun y => !(y.job.lane = e.lane && y.job.j = place && y.job.typ = 1)) ++ [i] }
    let bad : Bool := e.nMax < prob.n || e.pMax < prob.p || e.mMax < prob.m || descBad q
    (hasPurpose s0 2 = true → named = some e →
      (bad = false → laneFenced s1 e.lane = false → exec (.multJob h scen d6 warm cap prob t) s = .next (hstSettle (placeJob s1 q)))
      ∧ (bad = true → exec (.multJob h scen d6 warm cap prob t) s = .next (hstSettle (endImport s1 i (emptyRes 8))))
      ∧ (bad = false → laneFenced s1 e.lane = true → exec (.multJob h scen d6 warm cap prob t) s = .next (hstSettle (endImport s1 i (emptyRes 9)))))
    ∧ (hasPurpose s0 2 = false ∨ named = none → exec (.multJob h scen d6 warm cap prob t) s = .next (hstSettle s0)))
  ∧ (∀ (s : State) (h : PstHdr) (scen : Nat) (r : JobRes) (t : Nat) (q : Job), s.hears h 0x16 = true →
    let s0 := (s.at t).heard h 0x16
    let waits := (s0.cyc? (fullCyc s0 h.cyc)).bind fun c => c.out.jobs.find? fun q => q.lane = 64 && q.id = scen && q.res.isNone
    (waits = some q → serverOf s0 scen = some h.src → s0.tim.cnt ≤ q.deadline → exec (.multRes h scen r t) s = .next (hstSettle (endJob s0 q r)))
    ∧ (waits = none ∨ (waits = some q ∧ (serverOf s0 scen ≠ some h.src ∨ q.deadline < s0.tim.cnt)) →
      exec (.multRes h scen r t) s = .next (hstSettle s0)))
  ∧ (∀ (s : State) (h : PstHdr) (id : Nat) (ls : LsProb) (r : JobRes) (t : Nat) (q : Job), s.hears h 0x17 = true →
    let s0 := (s.at t).heard h 0x17
    let waits := s0.gns.jobs.find? fun q => 64 ≤ q.lane && q.id = id && q.cyc = fullCyc s0 h.cyc && q.res.isNone
    (waits = some q → s0.isNode = true → h.src = laneDevice s0 → s0.tim.cnt ≤ q.deadline →
      exec (.gnssRec h id ls (some r) t) s = .next (hstSettle (gnsJobDone (gnsEnd s0 q r) q r)))
    ∧ (waits = none ∨ (waits = some q ∧ (s0.isNode = false ∨ h.src ≠ laneDevice s0 ∨ q.deadline < s0.tim.cnt)) →
      exec (.gnssRec h id ls (some r) t) s = .next (hstSettle s0)))
  ∧ (∀ (s : State) (h : PstHdr) (id : Nat) (ls : LsProb) (t : Nat), s.hears h 0x17 = true →
    let s0 := (s.at t).heard h 0x17
    let n := fullCyc s0 h.cyc
    let q := gnsJob s0 64 id n (gnsDeadline s0 (t0At s0 n)) ls
    let node : Bool := !s0.isNode && (peerList s0).any (fun x => x.1 = h.src && x.2.1 = 3)
    (node = true → descBad q = false → exec (.gnssRec h id ls none t) s = .next (hstSettle (waitFill (s0.gn fun g => { g with wait := g.wait ++ [(h.src, q)] }))))
    ∧ (node = true → descBad q = true → exec (.gnssRec h id ls none t) s = .next (hstSettle (endImport s0 ⟨h.src, id, q, false⟩ (emptyRes 8))))
    ∧ (node = false → exec (.gnssRec h id ls none t) s = .next (hstSettle s0)))

/-- O24. A tunnelled write where the policy forbids it is answered REFUSED; a permitted write and a read are the access of the path "tunnel of
that sender", answered when it completes. The answer of the target of the outstanding access ends it, a read's data in PST_TUN_DATA. A
mailbox message goes into the lowest free inbound mailbox and is answered, or is answered NO_SPACE; a mailbox answer ends the outbound
message to that device, and any other does nothing. Octets of an image go into the staging area at their offset, those at offset 0
beginning a new image; the last ones are answered with the digest, and a device that boots over Piste then loads it. A target's digest
counts it DONE or FAILED. IMGD_GO on the master with no distribution running sends the staged image to every device with a route; with one
running it has no effect; on any other device it is refused with PST MC_REFUSED's code. (R75, R434, R435, R542) -/
def Obligations.TunnelAndImageFramesAct : Prop :=

  (∀ (s : State) (h : PstHdr) (wr : Bool) (ofs v t : Nat), s.hears h 0x30 = true →
    let s0 := (s.at t).heard h 0x30
    let answer (x : State) (ws : List Nat) : State := pstSend x 0x30 1 h.src (x.rd SEQ_CYC_LO_CYC_LO) ws
    (wr = true → bit (s0.rd SEC_POLICY_FLAGS) 4 = false → exec (.tunnel h (.req wr ofs v) t) s = .next (hstSettle (answer s0 [4, 0])))
    ∧ (wr = true → bit (s0.rd SEC_POLICY_FLAGS) 4 = true →
      let s1 := hostWrite s0 (.tun h.src) ofs v
      exec (.tunnel h (.req wr ofs v) t) s = .next (hstSettle (if s1.hst.held.length ≠ s0.hst.held.length then s1 else answer s1 [1, 0])))
    ∧ (wr = false →
      let s1 := hostRead s0 (.tun h.src) ofs
      exec (.tunnel h (.req wr ofs v) t) s = .next (hstSettle (((readValue s0 s1).map fun d => answer s1 [1, d]).getD s1))))
  ∧ (∀ (s : State) (h : PstHdr) (res data t : Nat), s.hears h 0x30 = true →
    let s0 := (s.at t).heard h 0x30
    (s0.flag PST_TUN_CTRL_GO_BUSY = true → s0.rd PST_TUN_CTRL_DST = h.src →
      exec (.tunnel h (.ans res data) t) s = .next (hstSettle (tunEnd (if res = 1 && s0.rd PST_TUN_CTRL_WRITE = 0 then s0.wr PST_TUN_DATA_DATA data else s0) res)))
    ∧ (s0.flag PST_TUN_CTRL_GO_BUSY = false ∨ s0.rd PST_TUN_CTRL_DST ≠ h.src → exec (.tunnel h (.ans res data) t) s = .next (hstSettle s0)))
  ∧ (∀ (s : State) (h : PstHdr) (m i : Nat) (b : List Byte) (t : Nat), s.hears h 0x30 = true →
    let s0 := (s.at t).heard h 0x30
    (s0.rd HST_MBX_IN_STS_FULL = 15 → exec (.tunnel h (.mbx m b) t) s = .next (hstSettle (pstSend s0 0x30 3 h.src (s0.rd SEQ_CYC_LO_CYC_LO) [m, 3])))
    ∧ (i < 4 → (∀ j < 4, j < i → bit (s0.rd HST_MBX_IN_STS_FULL) j = true) → bit (s0.rd HST_MBX_IN_STS_FULL) i = false →
      let s1 := { s0 with hst := { s0.hst with mem := sputs (fun _ => (0 : Byte)) s0.hst.mem (0x1000 + 0x400 * i) (b.take 1024) } }
      let s2 := edgeSrc ((s1.wrBit HST_MBX_IN_STS_FULL i true).wrs [(HST_MBX_IN_LEN i, b.length), (HST_MBX_IN_SRC i, h.src)]) 37
      exec (.tunnel h (.mbx m b) t) s = .next (hstSettle (pstSend s2 0x30 3 h.src (s2.rd SEQ_CYC_LO_CYC_LO) [m, 1]))))
  ∧ (∀ (s : State) (h : PstHdr) (m res t : Nat), s.hears h 0x30 = true →
    let s0 := (s.at t).heard h 0x30
    (s0.flag (HST_MBX_OUT_GO_BUSY m) = true → s0.rd (HST_MBX_OUT_DST m) = h.src → exec (.tunnel h (.mbxAns m res) t) s = .next (hstSettle (mbxEnd s0 m res)))
    ∧ (s0.flag (HST_MBX_OUT_GO_BUSY m) = false ∨ s0.rd (HST_MBX_OUT_DST m) ≠ h.src → exec (.tunnel h (.mbxAns m res) t) s = .next (hstSettle s0)))
  ∧ (∀ (s : State) (h : PstHdr) (b : List Byte) (ofs t : Nat), s.hears h 0x31 = true →
    let s0 := (s.at t).heard h 0x31
    let old := if ofs = 0 then [] else s0.img.staged
    let all := (old.take ofs ++ List.replicate (ofs - old.length) (0 : Byte) ++ b ++ old.drop (ofs + b.length)).take (2 ^ 25)
    let s1 := { s0 with img := { s0.img with staged := all } }
    let s2 := pstSend s1 0x31 1 h.src (s0.rd SEQ_CYC_LO_CYC_LO) ((Config.sha384 all).map (·.toNat))
    exec (.image h (.part ofs b false) t) s = .next (hstSettle s1)
    ∧ (bootTarget s2 = false ∨ s2.img.job.isSome = true → exec (.image h (.part ofs b true) t) s = .next (hstSettle s2))
    ∧ (bootTarget s2 = true → s2.img.job = none → exec (.image h (.part ofs b true) t) s = .next (hstSettle (loadFrom s2 4 true [] false))))
  ∧ (∀ (s : State) (h : PstHdr) (d : List Byte) (t : Nat), s.hears h 0x31 = true →
    let s0 := (s.at t).heard h 0x31
    let f := if d = s0.pst.imgdDig then PST_IMGD_STS_DONE else PST_IMGD_STS_FAILED
    (s0.pst.imgd.contains h.src = true →
      exec (.image h (.digest d) t) s = .next (hstSettle (imgdEnd ((s0.wr f (s0.rd f + 1)).ps fun x => { x with imgd := x.imgd.filter fun a => a ≠ h.src }))))
    ∧ (s0.pst.imgd.contains h.src = false → exec (.image h (.digest d) t) s = .next (hstSettle s0)))
  ∧ (∀ (s : State) (p : Path) (t : Nat), s.lets p 0x280060 →
    let s0 := s.taken p t
    let devs := addrsOf s PST_DEVSET_SET
    let far := devs.filter fun a => canSend s a 0x31
    (isMaster s = false → exec (.imgdGo p t) s = .next (hstSettle (refuse s0 0x0E0F)))
    ∧ (isMaster s = true → s.flag PST_IMGD_STS_BUSY = true → exec (.imgdGo p t) s = .next (hstSettle { s0 with hst := { s0.hst with mark := true } }))
    ∧ (isMaster s = true → s.flag PST_IMGD_STS_BUSY = false →
      exec (.imgdGo p t) s = .next (hstSettle (imgdEnd (far.foldl (fun s1 a => pstSend s1 0x31 0 a (s1.rd SEQ_CYC_LO_CYC_LO) ((hostStaged s).map (·.toNat)))
        ((s0.wrs [(PST_IMGD_STS_BUSY, 1), (PST_IMGD_STS_DONE, 0), (PST_IMGD_STS_FAILED, devs.length - far.length)]).ps fun x =>
          { x with imgd := far, imgdDig := Config.sha384 (hostStaged s) }))))))

/-- O25. GO of a request in order (State.asks): GET_ID puts the identity public key and certificate, AUDIT_SEAL the identity's signature of
the newest ASEQ and chain value with the challenge, at the start of the response window; DEBUG_LOCK locks the debug port, reported and
audited; each ends with RESULT 0 (secDone). For each of the eleven commands: a bad header or lacking entropy ends CMD_REFUSED and a stale
challenge BAD_CHALLENGE, with nothing else done but that; a GO while BUSY is refused with SEC BUSY; a GO by a session, or for a request of
another command, does nothing. (R478, R479, R480, R484, R489, R491) -/
def Obligations.UnsignedSecurityCommands : Prop :=
  (∀ (s : State) (p : Path) (t : Nat),
    let S := s.taken p t
    let newest := (s.sec_.ring ++ s.sec_.nand).head?
    (s.asks p 1 → exec (.getId p t) s = .next (hstSettle (secDone S 1 (respond S (Config.idPub ++ Config.deviceCert), 0))))
    ∧ (s.asks p 10 → exec (.debugLock p t) s = .next (hstSettle (secDone S 10 (told (S.wr SEC_STATUS_DEBUG_UNLOCKED 0) 0x100B 0, 0))))
    ∧ (s.asks p 11 → exec (.auditSeal p t) s = .next (hstSettle (secDone S 11 (respond S (Config.deviceSign
        (((newest.map fun e => leBytes 4 e.aseq ++ e.chain).getD (List.replicate 12 0)) ++ challenge s)), 0)))))
  ∧ (∀ (s : State) (p : Path) (t : Nat) (bad : Option Nat),
    let S := s.taken p t
    let req := secRequest s
    ∀ x ∈ ([(.getId p t, 1), (.provision p bad t, 2), (.addKey p bad t, 3), (.revoke p bad t, 4), (.raiseSecver p bad t, 5), (.setClockOtp p bad t, 6),
      (.deploy p bad t, 7), (.retire p bad t, 8), (.debugUnlock p t, 9), (.debugLock p t, 10), (.auditSeal p t, 11)] : List (Instr × Nat)),
      let here : Bool := !isSession p && u8 req 4 == x.2
      let fine : Bool := !headerBad s req && s.flag SEC_STATUS_ENTROPY_OK
      (here = false → exec x.1 s = .next (hstSettle (s.at t)))
      ∧ (here = true → s.lets p 0x30010 →
        (s.flag SEC_CMD_GO_BUSY = true → exec x.1 s = .next (hstSettle (refuse S 0x1004)))
        ∧ (s.flag SEC_CMD_GO_BUSY = false → fine = false → exec x.1 s = .next (hstSettle (secDone S x.2 (S, 0x1001))))
        ∧ (s.flag SEC_CMD_GO_BUSY = false → fine = true → slice req 0x20 16 ≠ challenge s →
          exec x.1 s = .next (hstSettle (secDone S x.2 (S, 0x1002))))))

/-- O26. With a request in order whose OWNER (or DEBUG) signature verifies, ADD_KEY programs the lowest empty slot, REVOKE revokes the named
slot while another valid OWNER slot stays, RAISE_SECVER programs the next version word, SET_CLOCK_OTP the clock fields that read 0, DEPLOY
and RETIRE burn the lifecycle bits while SEQ is IDLE and close every session, DEBUG_UNLOCK unlocks the port where it is not denied; each
is reported and audited. A body that does not fit, or nothing left to change, ends CMD_REFUSED; where the signature does not verify the
command ends BAD_SIGNATURE; both change nothing. PROVISION with a whole body, signed by the OWNER slot that it brings, programs the slots,
the wrapped image key, the minimum version and the clock fields and enters PROVISIONED; where the key does not open it ends CMD_REFUSED.
OTP writes stop at the first that fails its read-back, with OTP_WRITE. (R474, R477, R479, R480, R484, R490) -/
def Obligations.SignedSecurityCommands : Prop :=
  (∀ (s : State) (ws : List (State → State)) (k : Nat),
    let all (l : List (State → State)) : State := l.foldl (fun u w => w u) s
    otpWrites s ws none = (all ws, 0) ∧ (k < ws.length → otpWrites s ws (some k) = (all (ws.take k), 0x1005))
    ∧ (ws.length ≤ k → otpWrites s ws (some k) = (all ws, 0)))
  ∧ (∀ (s : State) (p : Path) (t : Nat) (bad : Option Nat), s.asks p 3 →
    let S := s.taken p t
    let b := secBody (secRequest s)
    let fits : Bool := b.length == 50 && 1 ≤ u8 b 0 && u8 b 0 ≤ 5
    let signed : Bool := signedBy s (secRequest s) 1
    let gives (r : State × Nat) : Prop := exec (.addKey p bad t) s = .next (hstSettle (secDone S 3 r))
    (signed = false → gives (S, 0x1003))
    ∧ (signed = true → fits = false ∨ emptySlot s = none → gives (S, 0x1001))
    ∧ (signed = true → fits = true → ∀ k ∈ emptySlot s,
      let w := otpWrites S [putSlotKey k (u8 b 0, slice b 1 49)] bad
      gives (if w.2 = 0 then (told w.1 0x1007 k, 0) else w)))
  ∧ (∀ (s : State) (p : Path) (t : Nat) (bad : Option Nat), s.asks p 4 →
    let S := s.taken p t
    let b := secBody (secRequest s)
    let k := u8 b 0
    let slots := s.sec_.slots.set k { s.sec_.slots.getD k ⟨0, [], false⟩ with revoked := true }
    let fits : Bool := b.length == 1 && k < 8 && (s.sec_.slots.getD k ⟨0, [], false⟩).purpose != 0 && slots.any fun y => y.purpose = 1 && !y.revoked
    let signed : Bool := signedBy s (secRequest s) 1
    let gives (r : State × Nat) : Prop := exec (.revoke p bad t) s = .next (hstSettle (secDone S 4 r))
    let w := otpWrites S [fun u => u.sc fun x => { x with slots := slots }] bad
    (signed = false → gives (S, 0x1003)) ∧ (signed = true → fits = false → gives (S, 0x1001))
    ∧ (signed = true → fits = true → gives (if w.2 = 0 then (told w.1 0x1008 k, 0) else w)))
  ∧ (∀ (s : State) (p : Path) (t : Nat) (bad : Option Nat), s.asks p 5 →
    let S := s.taken p t
    let b := secBody (secRequest s)
    let v := u32 b 0
    let fits : Bool := b.length == 4 && minSecVer s < v && s.sec_.minVer.length < 8
    let signed : Bool := signedBy s (secRequest s) 1
    let gives (r : State × Nat) : Prop := exec (.raiseSecver p bad t) s = .next (hstSettle (secDone S 5 r))
    let w := otpWrites S [fun u => u.sc fun x => { x with minVer := x.minVer ++ [v] }] bad
    (signed = false → gives (S, 0x1003)) ∧ (signed = true → fits = false → gives (S, 0x1001))
    ∧ (signed = true → fits = true → gives (if w.2 = 0 then (told w.1 0x1009 v, 0) else w)))
  ∧ (∀ (s : State) (p : Path) (t : Nat) (bad : Option Nat), s.asks p 6 →
    let S := s.taken p t
    let b := secBody (secRequest s)
    let signed : Bool := signedBy s (secRequest s) 1
    let gives (r : State × Nat) : Prop := exec (.setClockOtp p bad t) s = .next (hstSettle (secDone S 6 r))
    let w := otpWrites S [putClock b] bad
    (signed = false → gives (S, 0x1003)) ∧ (signed = true → b.length ≠ 4 → gives (S, 0x1001))
    ∧ (signed = true → b.length = 4 → gives (if w.2 = 0 then (audit w.1 (Config.eventCode 3 % 65536) (u32 b 0), 0) else w)))
  ∧ (∀ (s : State) (p : Path) (t : Nat) (bad : Option Nat),
    let S := s.taken p t
    let signed : Bool := signedBy s (secRequest s) 1
    let burns (l : List Nat) : State × Nat :=
      let w := otpWrites S (l.map burnLife) bad
      if w.2 = 0 then (told (closeSess w.1 fun _ => true) 0x1006 (lifecycle w.1), 0) else w
    (s.asks p 7 →
      let gives (r : State × Nat) : Prop := exec (.deploy p bad t) s = .next (hstSettle (secDone S 7 r))
      (signed = false → gives (S, 0x1003)) ∧ (signed = true → s.idle = false → gives (S, 0x1001)) ∧ (signed = true → s.idle = true → gives (burns [2, 3])))
    ∧ (s.asks p 8 →
      let gives (r : State × Nat) : Prop := exec (.retire p bad t) s = .next (hstSettle (secDone S 8 r))
      (signed = false → gives (S, 0x1003)) ∧ (signed = true → s.idle = false → gives (S, 0x1001))
      ∧ (signed = true → s.idle = true → gives (burns [2, 3, 4, 5]))))
  ∧ (∀ (s : State) (p : Path) (t : Nat), s.asks p 9 →
    let S := s.taken p t
    let denied : Bool := 3 ≤ s.sec_.unlocks || !s.loaded || (lifecycle s == 2 && !bit (s.rd SEC_POLICY_FLAGS) 1)
    let signed : Bool := signedBy s (secRequest s) 4
    let gives (r : State × Nat) : Prop := exec (.debugUnlock p t) s = .next (hstSettle (secDone S 9 r))
    (denied = true → gives (S, 0x100C)) ∧ (denied = false → signed = false → gives (S, 0x1003))
    ∧ (denied = false → signed = true → gives (told (S.wr SEC_STATUS_DEBUG_UNLOCKED 1) 0x100A 0, 0)))
  ∧ (∀ (s : State) (p : Path) (t : Nat) (bad : Option Nat), s.asks p 2 →
    let S := s.taken p t
    let req := secRequest s
    let b := secBody req
    let es := provSlots b
    let o := 50 * es.length
    let own := s.sc fun x => { x with slots := es.map fun e => ⟨e.1, e.2, false⟩ }
    let signed : Bool := es.findIdx? (fun e => e.1 = 1) == some (u32 req (64 + u32 req 8 + 4)) && signedBy own req 1
    let key := (Config.ecdh 0 (slice b o 97)).bind fun z =>
      Config.gcmOpen (Config.derive 0 z devFp 32) (List.replicate 12 0) [] (slice b (o + 97) 32) (slice b (o + 129) 16)
    let whole : Bool := b.length == o + 153 && 1 ≤ es.length && es.length ≤ 8 && es.all (fun e => 1 ≤ e.1 && e.1 ≤ 5)
      && [1, 2, 3].all fun n => es.any fun e => e.1 == n
    let ver := u32 b (o + 145)
    let clk := slice b (o + 149) 4
    let w (k : List Byte) : State × Nat := otpWrites S (((List.range es.length).zip es).map (fun e => putSlotKey e.1 e.2)
      ++ [fun u => u.sc fun x => { x with imgKey := Config.wrap Config.keyWrap k }, fun u => u.sc fun x => { x with minVer := if ver = 0 then [] else [ver] },
        putClock clk, burnLife 0, burnLife 1]) bad
    let tells (u : State) : State :=
      let u := (List.range es.length).foldl (fun u i => told u 0x1007 i) u
      let u := if ver = 0 then u else told u 0x1009 ver
      lifeMoved (if u32 clk 0 = 0 then u else audit u (Config.eventCode 3 % 65536) (u32 clk 0))
    let gives (r : State × Nat) : Prop := exec (.provision p bad t) s = .next (hstSettle (secDone S 2 r))
    (signed = false → gives (S, 0x1003))
    ∧ (signed = true → key = none ∨ whole = false → gives (S, 0x1001))
    ∧ (signed = true → whole = true → ∀ k ∈ key, gives (if (w k).2 = 0 then (tells (w k).1, 0) else w k)))

/-- O27. On a port that serves the host channel, not locked out, with room for a session and good entropy, an INIT that is in order and names
a HOST slot is answered with RESP under the next SESSION_ID, its key, nonce and signature, and waits for FIN; with an invalid point, or
not in order, it fails; elsewhere it does nothing. FIN within 2 s whose signature verifies under that slot opens the session in the lowest
free place, or does nothing where no session is left; otherwise the handshake fails, as it does when FIN has not come within 2 s. A failed
handshake is reported and audited and counts, and the AUTH_FAIL_MAXth locks the port out; LOCKOUT_S after a lockout began the port takes
INIT again. (R485, R486, R487, R490) -/
def Obligations.HostChannelHandshakes : Prop :=
  (∀ (s : State) (port t : Nat) (good : Bool) (pay z : List Byte),
    let S := s.at t
    let slot := u8 pay 129
    let serves : Bool := hcOn s port && !bit (s.rd SEC_STATUS_LOCKOUT) port && s.sec_.sess.length < s.rd SEC_POLICY_SESS_MAX && s.flag SEC_STATUS_ENTROPY_OK
    let fits : Bool := good && pay.length == 132 && lifecycle s != 3 && (slotKey s slot 5).isSome
    let m := settleMinor S (u8 pay 130) (u8 pay 131)
    let th := Config.sha384 (pay ++ respPayload m.2 m.1 (List.replicate 96 0))
    let gives (u : State) : Prop := exec (.init port good pay t) s = .next (hstSettle u)
    (serves = false → gives S)
    ∧ (serves = true → fits = false → gives (authFail S port slot))
    ∧ (serves = true → fits = true → Config.ecdh s.sec_.draws (pay.take 97) = none → gives (authFail S port slot))
    ∧ (serves = true → fits = true → Config.ecdh s.sec_.draws (pay.take 97) = some z →
      gives ((m.2.sc fun x => { x with draws := x.draws + 2, nextId := nextSess x.nextId, hand := x.hand ++ [⟨s.sec_.nextId, port, slot, th, z, m.1, max s.tim.cnt t⟩] }).emit
        (.record port 2 s.sec_.nextId 0 (respPayload m.2 m.1 (Config.deviceSign th)) [])))
    ∧ (∀ v ∈ sessMinor s (u8 pay 130) (u8 pay 131), m = (v, S)))
  ∧ (∀ (s : State) (id t : Nat) (sig : List Byte) (h : HandSt),
    let S := (s.at t).sc fun x => { x with hand := x.hand.filter fun y => y.id ≠ id }
    let here : Bool := (s.sec_.hand.find? fun h => h.id = id) == some h
    let n := freePlace s
    let x : SessSt := ⟨h.id, n, h.port, h.slot, Config.derive 1 h.secret h.th 36, Config.derive 2 h.secret h.th 36, 0, [], 0, 0, h.minor,
      max s.tim.cnt t, max s.tim.cnt t⟩
    let ok : Bool := ((slotKey s h.slot 5).map fun k => Config.ecdsaVerify k (h.th ++ finText) sig).getD false && sig.length == 96
      && max s.tim.cnt t ≤ h.since + 500000000
    let room : Bool := s.sec_.sess.length < s.rd SEC_POLICY_SESS_MAX
    let gives (u : State) : Prop := exec (.fin id sig t) s = .next (hstSettle u)
    let late : Bool := h.since + 500000000 ≤ max s.tim.cnt t
    ((s.sec_.hand.find? fun h => h.id = id) = none → gives (s.at t) ∧ exec (.finTimeout id t) s = .next (hstSettle (s.at t)))
    ∧ (here = true → hcOn s h.port = false → gives S)
    ∧ (here = true → hcOn s h.port = true → ok = false → gives (authFail S h.port h.slot))
    ∧ (here = true → hcOn s h.port = true → ok = true → room = false → gives S)
    ∧ (here = true → hcOn s h.port = true → ok = true → room = true →
      gives (told ((S.sc fun y => { y with sess := y.sess ++ [x], fails := put_ y.fails h.port 0 0 }).wrs [(SEC_STATUS_SESSIONS, s.sec_.sess.length + 1),
          (SEC_SESS_OPEN n, 1), (SEC_SESS_SLOT n, h.slot), (SEC_SESS_PORT n, h.port), (SEC_SESS_SESSION_ID n, h.id)]) 0x100D h.id))
    ∧ (here = true → late = true → exec (.finTimeout id t) s = .next (hstSettle (authFail S h.port h.slot)))
    ∧ (here = true → late = false → exec (.finTimeout id t) s = .next (hstSettle (s.at t))))
  ∧ (∀ (s : State) (port slot : Nat),
    let s1 := audit (report s 0x100F port slot) 0x100F (port * 256 + slot)
    let n := s.sec_.fails.getD port 0 + 1
    (n < u8 (s.sec 18) 6 → authFail s port slot = s1.sc fun x => { x with fails := put_ x.fails port 0 n })
    ∧ (u8 (s.sec 18) 6 ≤ n → authFail s port slot = audit (report ((s1.sc fun x => { x with
        fails := put_ x.fails port 0 0, lockAt := put_ x.lockAt port none (some s.tim.cnt) }).wrBit SEC_STATUS_LOCKOUT port true) 0x1010 port) 0x1010 port))
  ∧ (∀ (s : State) (port t : Nat),
    let due : Bool := ((s.sec_.lockAt.getD port none).map fun x => decide (x + 250000000 * u16 (s.sec 18) 8 ≤ max s.tim.cnt t)).getD false
    (due = true → exec (.lockoutEnd port t) s =
      .next (hstSettle (((s.at t).sc fun y => { y with lockAt := put_ y.lockAt port none none }).wrBit SEC_STATUS_LOCKOUT port false)))
    ∧ (due = false → exec (.lockoutEnd port t) s = .next (hstSettle (s.at t))))

/-- O28. A record for an open session on a serving port whose tag opens and whose SEQ is fresh is taken: the window of accepted SEQ moves, the
record counts, and REG's operations run in order, up to one that waits for a clock, and are answered by one REG_RESULT under the session's
key, CLOSE closes the session; the 2^32nd record closes it too. A record whose tag fails is reported RECORD_BAD, one whose SEQ was
accepted within the last 64 REPLAY, and neither does anything else; one for no session, or on a port that does not serve, does nothing. A
session without a valid record for SESS_IDLE, or open for 86,400 s, is closed. (R485, R487, R488) -/
def Obligations.HostChannelRecords : Prop :=
  (∀ (s : State) (id seq t : Nat) (ct tag b : List Byte) (x : SessSt),
    let S := s.at t
    let here : Bool := (s.sec_.sess.find? fun x => x.id = id) == some x && hcOn s x.port
    let none_ : Bool := (s.sec_.sess.find? fun x => x.id = id).isNone || ((s.sec_.sess.find? fun x => x.id = id) == some x && !hcOn s x.port)
    let fresh : Bool := 1 ≤ seq && (x.high < seq || (x.high ≤ seq + 64 && !x.seen.contains seq && seq != x.high))
    let again : Bool := 1 ≤ seq && x.high ≤ seq + 64 && !fresh
    let T := updSess S id fun y => let hi := max y.high seq
      { y with high := hi, seen := (seq :: y.seen).filter (fun q => hi ≤ q + 64), nIn := y.nIn + 1, lastAt := max s.tim.cnt t }
    let ends (u : State) : State := if 2 ^ 32 ≤ x.nIn + 1 then closeSess u fun y => y.id = id else u
    let reg (u : State) : Prop := exec (.reg id seq ct tag t) s = .next (hstSettle u)
    let close (u : State) : Prop := exec (.close id seq ct tag t) s = .next (hstSettle u)
    (none_ = true → reg S ∧ close S)
    ∧ (here = true → openRecord x 4 seq ct tag = none → reg (report S 0x1011 0 id))
    ∧ (here = true → openRecord x 6 seq ct tag = none → close (report S 0x1011 0 id))
    ∧ (here = true → openRecord x 4 seq ct tag = some b → fresh = true → reg (ends (regRecord T id b)))
    ∧ (here = true → openRecord x 6 seq ct tag = some b → fresh = true → close (ends (closeSess T fun y => y.id = id)))
    ∧ (here = true → openRecord x 4 seq ct tag = some b → fresh = false → reg (if again then report S 0x1012 0 id else S))
    ∧ (here = true → openRecord x 6 seq ct tag = some b → fresh = false → close (if again then report S 0x1012 0 id else S)))
  ∧ (∀ (s : State) (id : Nat) (b : List Byte) (x : SessSt), (s.sec_.sess.find? fun x => x.id = id) = some x → s.hst.jobs.all (fun j => j.id != id) = true →
    let r := regOps x.place id ((List.range (b.length / 8)).map fun i => slice b (8 * i) 8) (s, [])
    let whole : Bool := b.length % 8 == 0 && 8 ≤ b.length && b.length ≤ 512
    (whole = true → r.2.2.2 = false → regRecord s id b = sendRecord r.1 id 5 r.2.2.1)
    ∧ (whole = true → r.2.2.2 = true →
      regRecord s id b = { r.1 with hst := { r.1.hst with jobs := ⟨id, x.place, r.2.1, r.2.2.1⟩ :: r.1.hst.jobs } })
    ∧ (whole = false → regRecord s id b = s))
  ∧ (∀ (s : State) (id t : Nat),
    exec (.sessIdleTimeout id t) s = .next (hstSettle (closeSess (s.at t) fun x => x.id = id
      && (x.lastAt + 250000000 * u16 (s.sec 18) 4 ≤ max s.tim.cnt t || x.openAt + 21600000000000 ≤ max s.tim.cnt t))))

/-- O29. A failed health test clears ENTROPY_OK, reported and audited; a retest that passes sets it and one that fails is reported and audited
again, where it is clear. SEC_AUDIT_ACK keeps the written ASEQ. A read of SEC_AUDIT_RD_DATA answers the next word of the entry in the
named place, or 0 where none is held, and after the eighth word moves ENTRY on. AUDIT_MIRROR_COPY puts the oldest entry not yet copied at
the head of the NAND ring; the entry that it overwrites in a full ring is counted as lost where it is not acknowledged, and the first of a
run reported; with none to copy nothing happens. EXTEST entered at an open debug port drives every safety output off and raises a class S
fault; at a closed port it does nothing. (R483, R489, R490, R491) -/
def Obligations.EntropyAuditAndJtag : Prop :=
  (∀ (s : State) (t : Nat) (ok : Bool),
    let S := s.at t
    let good : Bool := s.flag SEC_STATUS_ENTROPY_OK
    exec (.entropyFail t) s = .next (hstSettle (audit (report (S.wr SEC_STATUS_ENTROPY_OK 0) 0x1013) 0x1013))
    ∧ (good = false → ok = true → exec (.entropyRetest ok t) s = .next (hstSettle (S.wr SEC_STATUS_ENTROPY_OK 1)))
    ∧ (good = false → ok = false → exec (.entropyRetest ok t) s = .next (hstSettle (audit (report S 0x1013) 0x1013)))
    ∧ (good = true → exec (.entropyRetest ok t) s = .next (hstSettle S)))
  ∧ (∀ (s : State) (p : Path) (v t : Nat), s.lets p 0x30064 →
    exec (.auditAck p v t) s = .next (hstSettle ((s.taken p t).wr SEC_AUDIT_ACK_ASEQ v)))
  ∧ (∀ (s : State) (p : Path) (t : Nat), s.letsRead p 0x30070 →
    let i := s.rd SEC_AUDIT_RD_ADDR_ENTRY
    let s1 := ((s.taken p t).sc fun x => { x with rdWord := (s.sec_.rdWord + 1) % 8 }).emit
      (.read p (((s.sec_.ring.find? fun e => e.aseq % 1024 = i).map fun e => auditWord e s.sec_.rdWord).getD 0))
    (s.sec_.rdWord = 7 → exec (.auditRdDataRead p t) s = .next (hstSettle (s1.wr SEC_AUDIT_RD_ADDR_ENTRY ((i + 1) % 1024))))
    ∧ (s.sec_.rdWord ≠ 7 → exec (.auditRdDataRead p t) s = .next (hstSettle s1)))
  ∧ (∀ (s : State) (k t : Nat) (e : AuditEnt),
    let S := s.at t
    let C := S.sc fun x => { x with nand := (e :: x.nand).take 65536, uncopied := k, lostRun := false }
    let L := (C.incSat SEC_AUDIT_LOST_LOST 0xFFFFFFFF).sc fun x => { x with lostRun := true }
    let kept : Bool := s.sec_.nand.length < 65536
      || ((s.sec_.nand.getLast?.map fun a => decide (0 ≤ signed 32 (s.rd SEC_AUDIT_ACK_ASEQ + 2 ^ 32 - a.aseq))).getD true)
    let gives (u : State) : Prop := exec (.auditMirrorCopy t) s = .next (hstSettle u)
    (s.sec_.uncopied = 0 ∨ (s.sec_.uncopied = k + 1 ∧ s.sec_.ring[k]? = none) → gives S)
    ∧ (s.sec_.uncopied = k + 1 → s.sec_.ring[k]? = some e →
      (kept = true → gives C)
      ∧ (kept = false → s.sec_.lostRun = false → gives (report L 0x1014))
      ∧ (kept = false → s.sec_.lostRun = true → gives L)))
  ∧ (∀ (s : State) (t : Nat),
    let S := s.at t
    let s1 := { S with err := { S.err with jtag := true }, saf := { S.saf with cmd := 0 } }.wrs [(SAF_OUT_COMMAND, 0), (SAF_STATUS_OUT_ON, 0)]
    (debugOpen s = true → exec (.jtagExtest t) s = .next (hstSettle (classOther s1)))
    ∧ (debugOpen s = false → exec (.jtagExtest t) s = .next (hstSettle S))
    ∧ (classOther s1).flag ERR_STATUS_FAIL_SILENT = true)

/-- O30. In HOLD with an image loaded, a tag its partner does not refuse and no staged value that fails, START makes a cold RUN entry into
ARMING, takes the role that R394 gives and begins the chain: T0(0) fixed by R19 on a device that is its own master (passed on by START to
a string), asked for with JOIN by a member with a master elsewhere, passed on to an idle partner. A START that may not be made is refused
with its code; one in DOZE wakes and is due; held accesses whose clock is back go on. HALT in ARMING ends it, in RUNNING lets the cycles
in flight finish and elsewhere does nothing; the last cycle leaving flight enters HOLD. ARM is set and cleared by a write of SP_CTRL
unless the device is fail-silent, and refused on a node. (R19, R22, R42, R43, R44, R46, R88, R394, R430, R431, R467, R468) -/
def Obligations.StartHaltAndSetpoints : Prop :=
  (∀ (s : State) (p : Path) (t g ofs : Nat), s.lets p 0x50000 →
    let S := s.taken p t
    let ends (x : State) : Prop := exec (.seqStart p t) s = .next (hstSettle (runHeld x))
    let both : Bool := isPair S && S.flag RED_STATUS_PAIRED && S.red.pState = 0
    let s1 := startRole (coldEntry S)
    (s.rd RST_PWR_STS_STATE < 2 ∨ 5 < s.rd RST_PWR_STS_STATE →
      (s.loaded = false ∨ s.idle = false ∨ (cascRole s = 5 ∧ s.red.activated = false) → ends (refuse S 0x020B))
      ∧ (s.loaded = true → s.idle = true → (cascRole s ≠ 5 ∨ s.red.activated = true) →
        (tagRefused S = true → ends (refuse S 0x0D02))
        ∧ (tagRefused S = false → startBad S = some (g, ofs) → ends (refuse (S.wrs [(IMG_FUNC_ERR_GROUP, g), (IMG_FUNC_ERR_REG_OFS, ofs)]) 0x020B))
        ∧ (tagRefused S = false → startBad S = none → ends (
            if both = true ∧ isMaster s1 = false then
              if masterAddr s1 = partnerAddr s1 then
                modeSend (s1.sq fun q => { q with nextN := 0, nextT0 := firstT0 s1 }) 1 (partnerAddr s1) [(firstT0 s1).toNat]
              else modeSend (startChain s1 none) 1 (partnerAddr s1) []
            else if cascRole s1 = 0 then s1.sq fun q => { q with nextN := 0, nextT0 := firstT0 s1 }
            else if isMaster s1 = true then modeSend (s1.sq fun q => { q with nextN := 0, nextT0 := firstT0 s1 }) 1 bcastAll [(firstT0 s1).toNat]
            else modeSend (s1.ps fun x => { x with joining := true }) 2 (s1.pst.backup.getD (masterAddr s1)) []))))
    ∧ (s.rd RST_PWR_STS_STATE = 2 ∨ s.rd RST_PWR_STS_STATE = 5 → ends (refuse S 0x020B))
    ∧ (s.rd RST_PWR_STS_STATE = 3 → ends (pwrWake (S.ck fun x => { x with startDue := true })))
    ∧ (s.rd RST_PWR_STS_STATE = 4 → ends (S.ck fun x => { x with startDue := true })))
  ∧ (∀ (s : State),
    firstT0 s = s.now + 2 * periodUnits s + (if s.rd TIM_QUAL_STATE = 0 then 0 else
      (s.rd SEQ_T0_PHASE_VALUE * usUnits - (s.now + 2 * periodUnits s)) % max 1 (periodUnits s)))
  ∧ (∀ (s : State),
    startRole s =
      if isPair s = false then s
      else if s.rd RED_STATUS_PAIRED = 0 then s.wrs [(RED_STATUS_ROLE, 1), (RED_STATUS_PARTNER_OK, 0), (RED_STATUS_SYNC, 0)]
      else if s.red.pState = 0 then s.wrs [(RED_STATUS_ROLE, if ownAddr s < partnerAddr s then 1 else 2), (RED_STATUS_SYNC, 0)]
      else takeStandby ((if cascRole s = 1 ∧ s.pst.backup = none then s.ps fun x => { x with backup := some (partnerAddr s) } else s).rs fun x =>
        { x with gaveUp := false }))
  ∧ (∀ (s : State) (p : Path) (t : Nat), s.lets p 0x50000 →
    let S := s.taken p t
    (s.rd SEQ_STATUS_STATE = 1 → exec (.seqHalt p t) s = .next (hstSettle ((S.ps fun x => { x with joining := false, joinAt := none }).wrs
      [(SEQ_STATUS_STATE, 0), (RST_PWR_STS_STATE, 1), (SEQ_STATUS_PHASE_WALK, 0)])))
    ∧ (s.rd SEQ_STATUS_STATE = 2 → exec (.seqHalt p t) s = .next (hstSettle (canServices (S.wr SEQ_STATUS_STATE 3))))
    ∧ (s.rd SEQ_STATUS_STATE ≠ 1 → s.rd SEQ_STATUS_STATE ≠ 2 → exec (.seqHalt p t) s = .next (hstSettle S)))
  ∧ (∀ (s : State) (t : Nat),
    (s.rd SEQ_STATUS_STATE = 3 → s.seq.cycs = [] →
      exec (.haltComplete t) s = .next (hstSettle ((s.at t).wrs [(IMG_FUNC_PEND_CORE, 0), (IMG_FUNC_PEND_CAN, 0), (IMG_FUNC_PEND_NET, 0),
        (SEQ_STATUS_STATE, 0), (RST_PWR_STS_STATE, 1), (SEQ_STATUS_PHASE_WALK, 0), (RED_STATUS_SENDING, 0)])))
    ∧ (s.rd SEQ_STATUS_STATE ≠ 3 ∨ s.seq.cycs ≠ [] → exec (.haltComplete t) s = .next (hstSettle (s.at t))))
  ∧ (∀ (s : State) (p : Path) (t : Nat), s.lets p 0x50038 →
    let S := s.taken p t
    (s.flag ERR_STATUS_FAIL_SILENT = false → s.isNode = false →
      exec (.spArm p t) s = .next (hstSettle (S.wr SEQ_SP_CTRL_ARM 1)) ∧ exec (.spDisarm p t) s = .next (hstSettle (S.wr SEQ_SP_CTRL_ARM 0)))
    ∧ (s.flag ERR_STATUS_FAIL_SILENT = false → s.isNode = true →
      exec (.spArm p t) s = .next (hstSettle (refuse S 0x0205)) ∧ exec (.spDisarm p t) s = .next (hstSettle (refuse S 0x0205)))
    ∧ (s.flag ERR_STATUS_FAIL_SILENT = true →
      exec (.spArm p t) s = .next (hstSettle (discard S p 0x50038 0x1205)) ∧ exec (.spDisarm p t) s = .next (hstSettle (discard S p 0x50038 0x1205))))

/-- O31. On a device in ARMING or RUNNING, T0 of cycle n enters RUN where it is the first, writes CYC, moves the chain on by P and at most 1
us of walk, lets groups, roles, changes, alignment, joins and an armed injection act, latches the inputs of the cycle, takes or refuses an
armed set and a pending bank swap, opens the journal record and begins agreement (alone: settles it); a member that does not compute
latches nothing. A T0 that is not due does nothing. An armed set with a mode not permitted or a setpoint not finite is refused with its
code; one in order becomes active. A stage that may start does so with its snapshot, else nothing happens. The failure sample of a cycle
at T_S keeps the device's own source words, once. (R20, R21, R22, R25, R28, R43, R45, R91, R98, R214, R372, R376) -/
def Obligations.T0StagesAndSample : Prop :=
  (∀ (s : State) (t : Nat),
    let n := s.seq.nextN
    let x := s.seq.nextT0
    let r := enterRun (s.at t)
    let s1 := (chainStep r.1).wrs [(SEQ_CYC_LO_CYC_LO, n), (SEQ_CYC_HI_CYC_HI, n / 2 ^ 32)]
    let s2 := armInjection (joinsAtT0 (alignAtT0 (masterAtT0 (roleAtT0 (groupsAtT0 s1 n)) n) n) n)
    let s3 := jnlMark (bankUse (takeHost (latchCyc s2 n x) n x)) n 0
    let s4 := match r.2, s3.jnlOf n with
      | true, some j => jnlPut s3 { j with flags := j.flags ||| 4 }
      | _, _ => s3
    let s5 := if computes s2 then beginAgree s4 n else if isPair s2 then s2.wr RED_STATUS_SENDING 0 else s2
    (t0Due (s.at t) = true →
      (s.rd SEQ_STATUS_STATE ≠ 1 → exec (.t0 t) s = .next (hstSettle s5))
      ∧ (s.rd SEQ_STATUS_STATE = 1 → exec (.t0 t) s = .next (hstSettle (if s5.rd SEQ_STATUS_STATE = 2 && clkSlow s5 then classOther s5 else s5))))
    ∧ (t0Due (s.at t) = false → exec (.t0 t) s = .next (hstSettle (s.at t))))
  ∧ (∀ (s : State), t0Due s = true ↔ ((s.rd SEQ_STATUS_STATE = 1 ∨ s.rd SEQ_STATUS_STATE = 2) ∧ s.flag ERR_STATUS_FAIL_SILENT = false
    ∧ s.pst.joining = false ∧ s.seq.nextT0 ≤ s.now ∧ s.seq.cycs.length < 2))
  ∧ (∀ (s : State) (t : Nat), s.rd SEQ_STATUS_STATE = 2 → s.flag ERR_STATUS_FAIL_SILENT = false → s.pst.joining = false →
    s.seq.nextT0 ≤ (s.at t).now → s.seq.cycs.length < 2 → cascRole s = 0 → isPair s = false → pendBits s = 0 → s.img.restart = 0 →
    s.pst.held = none → s.pst.master = none → s.pst.joins = [] → s.red.stop = false → s.red.standDown = false → s.red.promote = false →
    s.flag ERR_INJ_ARM = false → s.rd RED_STATUS_ROLE ≠ 3 → s.flag RED_STATUS_PAIRED = false →
    (∀ c ∈ s.seq.cycs, c.n ≠ s.seq.nextN) →
    let n := s.seq.nextN
    let x := s.seq.nextT0
    let s1 := (chainStep (s.at t)).wrs [(SEQ_CYC_LO_CYC_LO, n), (SEQ_CYC_HI_CYC_HI, n / 2 ^ 32)]
    exec (.t0 t) s = .next (hstSettle (settleAgree (jnlMark (bankUse (takeHost (latchCyc s1 n x) n x)) n 0) n false false)))
  ∧ (∀ (s : State),
    let w := max (-usUnits) (min usUnits s.seq.walk)
    (chainStep s).seq.nextN = s.seq.nextN + 1 ∧ (chainStep s).seq.nextT0 = s.seq.nextT0 + periodUnits s + w ∧ (chainStep s).seq.walk = s.seq.walk - w
    ∧ (chainStep s).rd SEQ_STATUS_PHASE_WALK = (if w = 0 then 0 else 1))
  ∧ (∀ (s : State) (n : Nat) (x : Int),
    let m := s.rd SEQ_MODE_REQ_MODE
    let s1 := s.wr SEQ_SP_CTRL_ARM 0
    (s.flag SEQ_SP_CTRL_ARM = false → spTake s n x = (s, false))
    ∧ (s.flag SEQ_SP_CTRL_ARM = true → 5 < m ∨ bit (s.rd SEQ_MODE_ACT_PERMIT) m = false →
      spTake s n x = (reportCyc (s1.wr SEQ_SP_CTRL_REFUSED 1) n 0x0205, false))
    ∧ (s.flag SEQ_SP_CTRL_ARM = true → m ≤ 5 → bit (s.rd SEQ_MODE_ACT_PERMIT) m = true →
      let bad := (modeWords m).any fun i => !ffinite fmt32 (s.rd (SEQ_SP_PEND_VALUE i))
      let s2 := ((s1.wrs ((List.range 8).map fun i => (SEQ_SP_ACT_VALUE i, s.rd (SEQ_SP_PEND_VALUE i)))).wr SEQ_MODE_ACT_MODE m).sq fun q =>
        { q with spT0 := x }
      (bad = true → spTake s n x = (reportCyc (s1.wr SEQ_SP_CTRL_REFUSED 1) n 0x0207, false))
      ∧ (bad = false → spTake s n x = (if pairOk s then s2 else s2.wr SEQ_SP_TAKEN_TAKEN n, true))))
  ∧ (∀ (s : State) (n k t : Nat), (∀ c ∈ s.cyc? n, mayStart (s.at t) c k = false) → exec (.stageStart n k t) s = .next (hstSettle (s.at t)))
  ∧ (∀ (s : State) (n k t : Nat) (c : Cyc), s.cyc? n = some c → mayStart (s.at t) c k = true →
    let s1 := updCyc (s.at t) n fun c => { c with
      run := { c.run with stage := k, running := true, began := max s.tim.cnt t }
      snap := if k = 2 then { c.snap with ch := chansBefore (s.at t) c } else if k = 3 then { c.snap with ref := refBefore (s.at t) c } else if k = 4 then { c.snap with oce := s.oce } else c.snap }
    (k = 3 ∨ k = 5 ∨ k = 7 ∨ k = 9 → exec (.stageStart n k t) s = .next (hstSettle s1))
    ∧ (k = 2 → exec (.stageStart n k t) s = .next (hstSettle (moveSamples s1 n)))
    ∧ (k = 4 → exec (.stageStart n k t) s = .next (hstSettle (adoptLate s1 n (kC s.regs))))
    ∧ (k = 6 → exec (.stageStart n k t) s = .next (hstSettle (startSix (adoptLate s1 n (s.rd SLV_SEL_TIMING_K_S)) c))))
  ∧ (∀ (s : State) (n t : Nat) (c : Cyc),
    (s.cyc? n = some c → c.missed = false → c.committed = false → sampled c = false →
      s.flag ERR_STATUS_FAIL_SILENT = false → dueAt s c (s.rd SEQ_COMMIT_OFS_VALUE - s.rd SLV_SEL_TIMING_SEL_LEAD) ≤ max s.tim.cnt t →
      exec (.failureSample n t) s = .next (hstSettle (failSample (s.at t) c)))
    ∧ (s.cyc? n = some c → c.missed = true ∨ c.committed = true ∨ sampled c = true ∨ s.flag ERR_STATUS_FAIL_SILENT = true
        ∨ max s.tim.cnt t < dueAt s c (s.rd SEQ_COMMIT_OFS_VALUE - s.rd SLV_SEL_TIMING_SEL_LEAD) →
      exec (.failureSample n t) s = .next (hstSettle (s.at t)))
    ∧ (s.cyc? n = none → exec (.failureSample n t) s = .next (hstSettle (s.at t))))

/-- O32. A stage that may end writes its LAST registers (OVER_BUDGET where it took too long) and does its work: stage 7 forms the verdicts,
makes the record READY and ends a replay, stage 9 hands the frames over and leaves flight; an injection that waits for the stage strikes
first. Stage 2 tries agreement. At its deadline a stage from 2 to 7 not ended, stage 6 apart while it runs, is reported OVERRUN and its
cycle missed; a running stage 6 ends the jobs whose export is late; stage 9 of a committed cycle is cut off. At T0 + C the oldest cycle
looks for its partner's digest and commits when its stage 7 has ended, the record is READY and no rewritten block is open; it settles its
failures and decision, shows every result, writes SEQ_LAST_COMMIT, sends digest, shares and axes and releases its entries; otherwise it is
missed. A cycle with no decision by T0 + 2P makes a WDT reset, after which a restart is due. What is not due changes nothing. (R21, R25,
R26, R27, R30, R33, R35, R39, R41, R373, R388, R401) -/
def Obligations.StagesEndAndCyclesCommitOrMiss : Prop :=
  (∀ (s : State) (n k t : Nat) (att : List (Nat × Nat)) (c : Cyc) (m : Nat),
    let S := if k = 2 then agreeTry (s.at t) n else s.at t
    let inj := stageInjection S c k
    let s1 := stageMarks inj.2 c k
    let c1 := (s1.cyc? c.n).getD c
    let unit := (S.err.inj.map fun x => x.2.2).getD 0
    (S.cyc? n = some c → mayEnd S c k = true →
      (inj.1 = none →
        (k = 7 → exec (.stageEnd n k att t) s = .next (hstSettle (endSeven s1 c1)))
        ∧ (k = 9 → exec (.stageEnd n k att t) s = .next (hstSettle (endNine s1 c1 att)))
        ∧ (k ≠ 7 → k ≠ 9 → exec (.stageEnd n k att t) s = .next (hstSettle (stageWork s1 c1 k))))
      ∧ (inj.1 = some m → m = 3 → exec (.stageEnd n k att t) s = .next (hstSettle (endStage (noteFault inj.2
          ⟨3, if k = 2 then 3 else 2, unit, workCyc inj.2 n, 0, false, true, false⟩ 1 (repeating inj.2 (workCyc inj.2 n))) c k att)))
      ∧ (inj.1 = some m → m ≠ 3 → exec (.stageEnd n k att t) s = .next (hstSettle (
          if k = 2 then firFault inj.2 n (some unit) m 0 true else oceFault inj.2 n m 0 true))))
    ∧ (S.cyc? n = none ∨ (S.cyc? n = some c ∧ mayEnd S c k = false) → exec (.stageEnd n k att t) s = .next (hstSettle S)))
  ∧ (∀ (s : State) (c : Cyc) (k : Nat),
    let us := ((s.now - c.inp.t0c - c.run.step) / usUnits).toNat
    let late : Bool := usTicks (s.rd (SEQ_STG_BUDGET_VALUE (k - 1))) < s.tim.cnt - c.run.began
    let s1 := updCyc (s.wrs [(SEQ_STG_LAST_LATE (k - 1), 0), (SEQ_STG_LAST_OVER (k - 1), b2n late), (SEQ_STG_LAST_END (k - 1), us)]) c.n fun c =>
      { c with run := { c.run with running := false, ends := c.run.ends.filter (fun e => e.1 ≠ k) ++ [(k, us)] } }
    stageMarks s c k = (if late then reportCyc (s1.wr SEQ_STATUS_OVER_BUDGET 1) c.n 0x0204 0 k else s1)
    ∧ endSeven s c = (
        let v := updCyc s c.n fun x => { x with out := { x.out with verdicts := verdictsOf s c }, run := { x.run with ready := true } }
        let w := sendTables (jnlMark v c.n 1) ((v.cyc? c.n).getD c)
        if c.run.again then endReplay w c.n else w))
  ∧ (∀ (s : State) (n k t : Nat) (c : Cyc),
    (s.cyc? n = some c → c.missed = false →
      (k = 6 → 6 ≤ c.run.stage → exec (.stageDeadline n k t) s = .next (hstSettle ((c.out.jobs.filter fun q =>
        64 ≤ q.lane && q.res.isNone && q.deadline ≤ max s.tim.cnt t).foldl (fun s q => reportCyc (endJob s q (emptyRes 6)) c.n 0x0E17 0 q.id) (s.at t))))
      ∧ (k ≠ 6 ∨ c.run.stage < 6 → max s.tim.cnt t < stageDue s c k → exec (.stageDeadline n k t) s = .next (hstSettle (s.at t)))
      ∧ (stageDue s c k ≤ max s.tim.cnt t →
        (2 ≤ k → k ≤ 7 → c.committed = false → c.run.again = false → c.run.stage < k ∨ (c.run.stage = k ∧ c.run.running = true ∧ k ≠ 6) →
          exec (.stageDeadline n k t) s = .next (hstSettle (missCycle (reportCyc ((s.at t).wr (SEQ_STG_LAST_LATE (k - 1)) 1) n 0x0201 0 k) n)))
        ∧ (k = 9 → c.committed = true →
          exec (.stageDeadline n k t) s = .next (hstSettle (cycleOut ((reportCyc ((s.at t).wr (SEQ_STG_LAST_LATE 8) 1) n 0x0201 0 9).rc fun x =>
            { x with slack9 := some 0 }) n)))
        ∧ (k = 9 → c.committed = false → exec (.stageDeadline n k t) s = .next (hstSettle (s.at t)))
        ∧ (k ≠ 9 → k ≠ 6 → (c.committed = true ∨ c.run.again = true ∨ k < 2 ∨ 7 < k ∨ k < c.run.stage ∨ (c.run.stage = k ∧ c.run.running = false)) →
          exec (.stageDeadline n k t) s = .next (hstSettle (s.at t)))))
    ∧ (s.cyc? n = none ∨ (s.cyc? n = some c ∧ c.missed = true) → exec (.stageDeadline n k t) s = .next (hstSettle (s.at t))))
  ∧ (∀ (s : State) (n t : Nat) (c : Cyc),
    let S := partnerCheck (s.at t) n
    let k := if c.run.running then c.run.stage else c.run.stage + 1
    let first : Bool := !(s.seq.cycs.any fun d => d.n < n && !d.missed && !d.committed)
    (∀ c0 ∈ s.cyc? n, S.cyc? n = some c → c0.missed = false → c0.committed = false → s.flag ERR_STATUS_FAIL_SILENT = false →
      dueAt s c0 (s.rd SEQ_COMMIT_OFS_VALUE) ≤ max s.tim.cnt t → first = true →
      let good : Bool := c.run.ready && c.run.stage = 7 && !c.run.running && !rewriteOpen S n
      (good = true → exec (.commit n t) s = .next (hstSettle (commitCyc S n)))
      ∧ (good = false → c.run.again = true → exec (.commit n t) s = .next (hstSettle (missCycle (reportCyc S c.n 0x020C) c.n)))
      ∧ (good = false → c.run.again = false → c.run.stage = 7 → c.run.running = false →
        exec (.commit n t) s = .next (hstSettle (missCycle (reportCyc (S.incSat JNL_CNT_WRITE_LATE 255) c.n 0x0C01) c.n)))
      ∧ (good = false → c.run.again = false → c.run.stage ≠ 7 ∨ c.run.running = true →
        exec (.commit n t) s = .next (hstSettle (missCycle (reportCyc (S.wr (SEQ_STG_LAST_LATE (k - 1)) 1) c.n 0x0201 0 k) c.n))))
    ∧ (s.cyc? n = none ∨ (s.cyc? n = some c ∧ (c.missed = true ∨ c.committed = true ∨ s.flag ERR_STATUS_FAIL_SILENT = true
        ∨ max s.tim.cnt t < dueAt s c (s.rd SEQ_COMMIT_OFS_VALUE) ∨ first = false)) → exec (.commit n t) s = .next (hstSettle (s.at t))))
  ∧ (∀ (s : State) (n : Nat) (c : Cyc), (settleL s n).cyc? n = some c →
    let s0 := settleL s n
    let s1 := if widenDev s0 && 2 ≤ c.inp.mode && !(s0.alloc.tables.any fun x => x.1 = n) then reportCyc s0 n 0x038C else s0
    let r := (decideCyc s1 c).1
    let s2 := updCyc (selReports (s1.wrs (cycleResults s1 c r (decideCyc s1 c).2)) c r) n fun c => { c with committed := true, commit := some r }
    let c2 := (s2.cyc? n).getD c
    let s3 := jnlMark s2 n 2
    let s4 := if bit c2.inp.runs 4 && !s3.fld.parked && c2.run.sends then axisOutputs s3 r.axes c2.inp.dout else s3
    let s5 := remember (checkpoint s4 c2) c2 r
    let s6 := s5.sq fun q => { q with missRun := q.missNext, missNext := 0, alive := if s5.rd SEQ_STATUS_STATE = 2 then !q.alive else q.alive }
    let s7 := driveSettle (edgeSrc (sendShares (sendDigest s6 c2 r) c2 r) 0)
    let s8 := if s7.red.leadNext then becomeLead s7 else s7
    let tele := teleBase s8 ((s8.cyc? n).getD c2) r
    let s9 := updCyc s8 n fun c => { c with out := { c.out with tele := tele, caBits := teleCa s8 } }
    let c9 := (s9.cyc? n).getD ((s8.cyc? n).getD c2)
    commitCyc s n = bankUse (releaseBits (releaseLate (releaseEntries (recCommit s9 c9) c9)) c9)
    ∧ (SEQ_LAST_COMMIT_LAST_COMMIT, c.n) ∈ cycleResults s1 c r (decideCyc s1 c).2)
  ∧ (∀ (s : State) (n t : Nat) (c : Cyc),
    (s.cyc? n = some c → c.missed = false → c.committed = false → s.flag ERR_STATUS_FAIL_SILENT = false →
      dueAt s c (2 * s.rd SEQ_PERIOD_VALUE) ≤ max s.tim.cnt t →
      exec (.seqWatchdog n t) s = .next (hstSettle (restartDue (pipeReset (report (s.at t) 0x020A) 3))))
    ∧ (s.cyc? n = none ∨ (s.cyc? n = some c ∧ (c.missed = true ∨ c.committed = true ∨ s.flag ERR_STATUS_FAIL_SILENT = true
        ∨ max s.tim.cnt t < dueAt s c (2 * s.rd SEQ_PERIOD_VALUE))) → exec (.seqWatchdog n t) s = .next (hstSettle (s.at t))))

/-- O33. LOAD while SEQ is IDLE and no load or check runs, from a source that can be used, starts a load (an untried TRIAL slot is marked
TRIED first); a slot found TRIAL with TRIED set becomes BAD, and a NAND slot that is not usable is rejected NO_IMAGE. LOAD is refused
LOAD_BUSY otherwise. CHECK and STORE start in every sequencer state without that marking, also while a load runs, and are refused
LOAD_BUSY while a check runs. CONFIRM makes the TRIAL slot of the loaded image VALID, and changes nothing else; ABANDON ends a running
check without a result, and does nothing where none runs. A source that does not exist, or STORE from anything but the host staging area,
is refused BAD_REQUEST. A waiting cascade target that no image has reached 10 s after training reports SOURCE_TIMEOUT once. (R75, R77,
R79, R81, R82) -/
def Obligations.ImageCommandsStart : Prop :=
  (∀ (s : State) (p : Path) (src t : Nat), s.lets p 0x40000 → src < 8 →
    let S := (s.taken p t).wr IMG_CTRL_SOURCE src
    let x := nandSlot s src
    let own := s.rd IMG_STATUS_SRC
    let loadBusy : Bool := !s.idle || s.rd IMG_STATUS_STATE = 1 || s.flag IMG_STATUS_CHECK_BUSY
    let fit : Bool := 3 ≤ src || x.state = 1 || (x.state = 2 && !x.tried)
    ((src = 0 ∨ 5 ≤ src) → ∀ c ∈ [Instr.imgLoad p src t, .imgCheck p src t, .imgStore p src t, .imgConfirm p src t, .imgAbandon p src t],
      exec c s = .next (hstSettle (refuse S 0x0121)))
    ∧ (1 ≤ src → src ≤ 4 →
      (loadBusy = true → exec (.imgLoad p src t) s = .next (hstSettle (refuse S 0x0120)))
      ∧ (loadBusy = false → (3 ≤ src ∨ x.state = 1) → exec (.imgLoad p src t) s = .next (hstSettle (runImgJob S ⟨1, src, false, [], false⟩)))
      ∧ (loadBusy = false → src ≤ 2 → x.state = 2 → x.tried = false →
        exec (.imgLoad p src t) s = .next (hstSettle (runImgJob (putSlot S src { x with tried := true }) ⟨1, src, false, [], false⟩)))
      ∧ (loadBusy = false → src ≤ 2 → x.state = 2 → x.tried = true →
        exec (.imgLoad p src t) s = .next (hstSettle (reject (putSlot S src { x with state := 3 }) noImage)))
      ∧ (loadBusy = false → src ≤ 2 → x.state ≠ 1 → x.state ≠ 2 → exec (.imgLoad p src t) s = .next (hstSettle (reject S noImage)))
      ∧ (s.flag IMG_STATUS_CHECK_BUSY = true → exec (.imgCheck p src t) s = .next (hstSettle (refuse S 0x0120)))
      ∧ (s.flag IMG_STATUS_CHECK_BUSY = false → fit = true → exec (.imgCheck p src t) s = .next (hstSettle (runImgJob S ⟨2, src, false, [], false⟩)))
      ∧ (s.flag IMG_STATUS_CHECK_BUSY = false → fit = false → exec (.imgCheck p src t) s = .next (hstSettle (reject S noImage)))
      ∧ (src ≠ 3 → exec (.imgStore p src t) s = .next (hstSettle (refuse S 0x0121)))
      ∧ (src = 3 → s.flag IMG_STATUS_CHECK_BUSY = true → exec (.imgStore p src t) s = .next (hstSettle (refuse S 0x0120)))
      ∧ (src = 3 → s.flag IMG_STATUS_CHECK_BUSY = false → exec (.imgStore p src t) s = .next (hstSettle (runImgJob S ⟨3, src, false, [], false⟩)))
      ∧ (s.loaded = true → 1 ≤ own → own ≤ 2 → (nandSlot s own).state = 2 →
        exec (.imgConfirm p src t) s = .next (hstSettle (putSlot S own { nandSlot s own with state := 1 })))
      ∧ ((s.loaded = false ∨ 3 ≤ own ∨ own = 0 ∨ (nandSlot s own).state ≠ 2) →
        exec (.imgConfirm p src t) s = .next (hstSettle S))
      ∧ (s.flag IMG_STATUS_CHECK_BUSY = true → exec (.imgAbandon p src t) s = .next (hstSettle (endChkJob S)))
      ∧ (s.flag IMG_STATUS_CHECK_BUSY = false → exec (.imgAbandon p src t) s = .next (hstSettle S))))
  ∧ (∀ (s : State) (j : LoadJob),
    (j.cmd = 1 → runImgJob s j = { s with img := { s.img with job := some j } }.wrs [(IMG_STATUS_STATE, 1), (IMG_STATUS_PHASE, 1)])
    ∧ (j.cmd ≠ 1 → (runImgJob s j).img.chk = some j ∧ (runImgJob s j).img.job = s.img.job ∧ (runImgJob s j).flag IMG_STATUS_CHECK_BUSY = true
      ∧ (runImgJob s j).rd IMG_STATUS_STATE = s.rd IMG_STATUS_STATE))
  ∧ (∀ (s : State) (t x : Nat),
    let now := max s.tim.cnt t
    (s.red.since = some x → bootTarget s = true → s.img.job = none → s.img.timedOut = false → x + usTicks 10000000 ≤ now →
      exec (.sourceTimeout t) s = .next (hstSettle (report { s.at t with img := { s.img with timedOut := true } } 0x011C)))
    ∧ (s.red.since = some x → now < x + usTicks 10000000 → exec (.sourceTimeout t) s = .next (hstSettle (s.at t)))
    ∧ ((s.red.since = none ∨ bootTarget s = false ∨ s.img.job ≠ none ∨ s.img.timedOut = true) → exec (.sourceTimeout t) s = .next (hstSettle (s.at t))))

/-- O34. A load that the phases pass is built from the source, IMG_STATUS.FALLBACK as the search says for a NAND source; one that a phase
rejects is recorded, reported, and at boot a TRIAL slot becomes BAD (with BOOT = 0) and the next usable slot is tried or NO_IMAGE
reported. A check ends with the rejection recorded or with none, and builds nothing. A store whose check passes writes the inactive slot
TRIAL with the next generation, or where NAND does not program leaves it EMPTY and reports NAND_WRITE. The end of a job that does not run
changes nothing; a load that ends leaves a running check alone, and a check a running load. (R76, R78, R79, R80, R81, R82) -/
def Obligations.ImageLoadsChecksAndStoresEnd : Prop :=
  (∀ (s : State) (t : Nat) (j : LoadJob) (bad : Option Nat), s.img.job = some j → j.cmd = 1 →
    let S := endImgJob (s.at t)
    exec (.loadComplete bad t) s = .next (hstSettle (match checkSource S j.src bad with
      | .error r => if j.boot && j.src ≤ 2 then loadRejected S j r else reject S r
      | .ok k =>
        let d := sourceData s j.src
        let s1 := build S k (d.take (u32 d 0x0C)) j.src
        if 2 < j.src then s1 else if j.fallback then report (s1.wr IMG_STATUS_FALLBACK 1) 0x011F else s1.wr IMG_STATUS_FALLBACK 0)))
  ∧ (∀ (s : State) (j : LoadJob) (r : Reject) (k : Nat) (l : List Nat), j.boot = true → j.src ≤ 2 →
    let x := nandSlot s j.src
    let s1 := reject s r
    let s2 := if s.rd GLB_STRAP_BOOT = 0 ∧ x.state = 2 then putSlot s1 j.src { x with state := 3 } else s1
    (j.rest = [] → loadRejected s j r = report s2 0x011E)
    ∧ (j.rest = k :: l → loadRejected s j r = loadFrom s2 k true l true))
  ∧ (∀ (s : State) (t : Nat) (j : LoadJob) (bad : Option Nat), s.img.chk = some j → j.cmd = 2 →
    exec (.checkComplete bad t) s = .next (hstSettle (match checkSource (s.at t) j.src bad with
      | .error r => reject (endChkJob (s.at t)) r
      | .ok _ => endChkJob (s.at t))))
  ∧ (∀ (s : State) (good : Bool) (t : Nat) (j : LoadJob), s.img.chk = some j → j.cmd = 3 →
    let S := s.at t
    let k := inactiveSlot s
    let d := hostStaged s
    exec (.storeComplete good t) s = .next (hstSettle (match checkSource S 3 none with
      | .error r => reject (endChkJob S) r
      | .ok _ =>
        if good then putSlot (endChkJob S) k ⟨2, false, ((nandSlot s (3 - k)).gen + 1) % 256, d.take (u32 d 0x0C)⟩
        else report (putSlot (endChkJob S) k { nandSlot s k with state := 0 }) 0x011B)))
  ∧ (∀ (s : State) (good : Bool) (bad : Option Nat) (t : Nat),
    ((s.img.job = none ∨ ∃ j, s.img.job = some j ∧ j.cmd ≠ 1) → exec (.loadComplete bad t) s = .next (hstSettle (s.at t)))
    ∧ ((s.img.chk = none ∨ ∃ j, s.img.chk = some j ∧ j.cmd ≠ 2) → exec (.checkComplete bad t) s = .next (hstSettle (s.at t)))
    ∧ ((s.img.chk = none ∨ ∃ j, s.img.chk = some j ∧ j.cmd ≠ 3) → exec (.storeComplete good t) s = .next (hstSettle (s.at t))))
  ∧ (∀ (s : State), (endImgJob s).img = { s.img with job := none } ∧ (endChkJob s).img = { s.img with chk := none }
    ∧ (endChkJob s).flag IMG_STATUS_CHECK_BUSY = false ∧ (endChkJob s).rd IMG_STATUS_STATE = s.rd IMG_STATUS_STATE
    ∧ (endImgJob s).flag IMG_STATUS_CHECK_BUSY = s.flag IMG_STATUS_CHECK_BUSY)

/-- O35. A write of IMG_FUNC_STOP makes each implemented group that it names pending, in ascending order, unless it is stopped or pending
already; one that a cascade change holds is refused with MC_HELD's code. A group that a T0 has taken and no cycle in flight uses leaves
PEND, reads stopped and takes the effect of its stop; otherwise nothing happens but the answer to a cascade change that this may complete.
A write of IMG_FUNC_RESTART asks for each named stopped group's restart at the next T0; a group that is held or not stopped is refused,
and while IDLE nothing happens. A fail-silent device discards both. (R84, R85, R87, R88, R385, R440) -/
def Obligations.GroupsStopAndRestart : Prop :=
  (∀ (s : State) (p : Path) (v t g : Nat), s.lets p 0x40030 →
    let S := s.taken p t
    (s.flag ERR_STATUS_FAIL_SILENT = false → exec (.funcStop p v t) s = .next (hstSettle ((groupsIn s v).foldl (fun r g =>
      if bit s.img.heldGroups g then refuse r 0x0124 0 g
      else if groupStopped r g || bit (pendBits r) g then r
      else putPend r (setBit (pendBits r) g true)) S)))
    ∧ (s.flag ERR_STATUS_FAIL_SILENT = true → exec (.funcStop p v t) s = .next (hstSettle (discard S p 0x40030 0x1205)))
    ∧ (s.flag ERR_STATUS_FAIL_SILENT = false → groupsIn s v = [g] → bit s.img.heldGroups g = false → groupStopped s g = false →
      bit (pendBits s) g = false → exec (.funcStop p v t) s = .next (hstSettle (putPend S (setBit (pendBits s) g true)))))
  ∧ (∀ (s : State) (g t : Nat), bit (pendBits s) g = true → bit s.img.taken g = true → (∀ c ∈ s.seq.cycs, bit c.inp.runs g = false) →
    let S := putState (putPend (s.at t) (setBit (pendBits s) g false)) (setBit (stateBits s) g true)
    exec (.groupStopped g t) s = .next (hstSettle (mcAck (groupEffect S g)))
    ∧ (g = 0 ∨ g = 2 ∨ g = 5 ∨ g = 6 ∨ g = 7 → groupEffect S g = S)
    ∧ groupEffect S 1 = swapDrop S ∧ groupEffect S 4 = fldStop S
    ∧ (8 ≤ g → g < 16 → groupEffect S g = canStop S (g - 8)) ∧ (16 ≤ g → groupEffect S g = netStop S (g - 16)))
  ∧ (∀ (s : State) (g t : Nat), (bit (pendBits s) g = false ∨ bit s.img.taken g = false ∨ (∃ c ∈ s.seq.cycs, bit c.inp.runs g = true)) →
    exec (.groupStopped g t) s = .next (hstSettle (mcAck (s.at t)))
    ∧ (s.pst.held = none → exec (.groupStopped g t) s = .next (hstSettle (s.at t))))
  ∧ (∀ (s : State) (p : Path) (v t g : Nat), s.lets p 0x40034 →
    let S := s.taken p t
    (s.flag ERR_STATUS_FAIL_SILENT = false → s.idle = true → exec (.funcRestart p v t) s = .next (hstSettle S))
    ∧ (s.flag ERR_STATUS_FAIL_SILENT = false → s.idle = false → exec (.funcRestart p v t) s = .next (hstSettle ((groupsIn s v).foldl (fun r g =>
      if bit s.img.heldGroups g then refuse r 0x0124 0 g
      else if groupStopped r g then { r with img := { r.img with restart := setBit r.img.restart g true } }
      else refuse r 0x0123 0 g) S)))
    ∧ (s.flag ERR_STATUS_FAIL_SILENT = true → exec (.funcRestart p v t) s = .next (hstSettle (discard S p 0x40034 0x1205)))
    ∧ (s.flag ERR_STATUS_FAIL_SILENT = false → s.idle = false → groupsIn s v = [g] → bit s.img.heldGroups g = false → groupStopped s g = true →
      exec (.funcRestart p v t) s = .next (hstSettle { S with img := { S.img with restart := setBit s.img.restart g true } })))

/-- O36. A valid offset of a slot in use enters its THETA, less DLY, and its count, and at QUAL_N in a row qualifies the slot; of the selected
source it is a servo update, or arms a step in UNSET, after a clock fault, or from STEP_THR on; while a step is armed it is discarded and
counted, and during a clock fault or of an unused slot nothing happens. No valid offset for LOSS_T ends a slot's qualification, earlier it
changes nothing. A lower slot qualified for REVERT_S becomes the selected source, and only then. An EST_ERR above HOLD_LIMIT in HOLDOVER
enters FREERUN. The choice of source takes the lowest qualified slot, a lower one than a qualified selected source only with REVERT_S 0;
without one HOLDOVER or its step follows. A new RATE leaves corrected time as it is. (R309, R310, R311, R313, R315, R329) -/
def Obligations.TimeSourcesAndServo : Prop :=
  (∀ (s : State) (slot t : Nat) (theta : Int),
    let S := s.at t
    let th := theta - signed 16 (s.rd (TIM_SRC_ACC_DLY slot)) * 65536
    let s1 := updSrc ((S.wr (TIM_SRC_OFS_THETA slot) (unsigned 32 (max (-(2 ^ 31 - 1)) (min (2 ^ 31 - 1) (divRne th 65536))))).incWrap
      (TIM_SRC_CNT_VALID_CNT slot)) slot fun x => { x with consec := x.consec + 1, lastValid := some (max s.tim.cnt t) }
    let s2 := if s.flag (TIM_SRC_CFG_QUALIFIED slot) = false ∧ s.rd TIM_CFG_QUAL_N ≤ (srcOf s1 slot).consec then
        reselect (updSrc (s1.wr (TIM_SRC_CFG_QUALIFIED slot) 1) slot fun x => { x with qualSince := some (max s.tim.cnt t) }) else s1
    ((s.rd (TIM_SRC_CFG_KIND slot) = 0 ∨ s.flag TIM_QUAL_CLK_FAULT = true) → exec (.sourceOffset slot theta t) s = .next (hstSettle S))
    ∧ (s.rd (TIM_SRC_CFG_KIND slot) ≠ 0 → s.flag TIM_QUAL_CLK_FAULT = false → s.flag TIM_STATUS_STEP_ARMED = true →
      exec (.sourceOffset slot theta t) s = .next (hstSettle (S.incSat (TIM_SRC_CNT_DISCARD slot) 0xFFFF)))
    ∧ (s.rd (TIM_SRC_CFG_KIND slot) ≠ 0 → s.flag TIM_QUAL_CLK_FAULT = false → s.flag TIM_STATUS_STEP_ARMED = false →
      (s2.flag TIM_STATUS_SEL_VALID = true → s2.rd TIM_STATUS_SEL_SLOT = slot →
        ((s2.tim.forceStep = true ∨ s2.rd TIM_QUAL_STATE = 0 ∨ s2.rd TIM_STEP_THR_VALUE * 65536 ≤ th.natAbs) → exec (.sourceOffset slot theta t) s =
          .next (hstSettle ((s2.tb fun y => { y with step := some ⟨th, none⟩, forceStep := false }).wr TIM_STATUS_STEP_ARMED 1)))
        ∧ (s2.tim.forceStep = false → s2.rd TIM_QUAL_STATE ≠ 0 → th.natAbs < s2.rd TIM_STEP_THR_VALUE * 65536 →
          exec (.sourceOffset slot theta t) s = .next (hstSettle (servoUpdate s2 slot th))))
      ∧ ((s2.flag TIM_STATUS_SEL_VALID = false ∨ s2.rd TIM_STATUS_SEL_SLOT ≠ slot) → exec (.sourceOffset slot theta t) s = .next (hstSettle s2))))
  ∧ (∀ (s : State) (slot t : Nat), slot < 4 →
    let late : Bool := ((srcOf s slot).lastValid.map fun l => decide (usTicks (1000 * s.rd (TIM_SRC_CFG_LOSS_T slot)) ≤ max s.tim.cnt t - l)).getD true
    let s0 := updSrc (s.at t) slot fun x => { x with consec := 0, qualSince := none }
    let s1 := if s.rd (TIM_SRC_CFG_KIND slot) = 2 then s0.tb fun y => { y with ptp := { y.ptp with mpdF := none } } else s0
    (late = false → exec (.sourceLossTimeout slot t) s = .next (hstSettle (s.at t)))
    ∧ (late = true → s.flag (TIM_SRC_CFG_QUALIFIED slot) = false → exec (.sourceLossTimeout slot t) s = .next (hstSettle s1))
    ∧ (late = true → s.flag (TIM_SRC_CFG_QUALIFIED slot) = true →
      exec (.sourceLossTimeout slot t) s = .next (hstSettle (reselect (report (s1.wr (TIM_SRC_CFG_QUALIFIED slot) 0) 0x0606 0 slot)))))
  ∧ (∀ (s : State) (slot t q : Nat),
    ((srcOf s slot).qualSince = some q → s.flag TIM_STATUS_SEL_VALID = true → slot < s.rd TIM_STATUS_SEL_SLOT →
      usTicks (1000000 * s.rd (TIM_SRC_CFG_REVERT_S slot)) ≤ max s.tim.cnt t - q → exec (.sourceRevert slot t) s =
      .next (hstSettle (report ((s.at t).wrs [(TIM_STATUS_SEL_VALID, 1), (TIM_STATUS_SEL_SLOT, slot)]) 0x0605 0 slot)))
    ∧ ((srcOf s slot).qualSince = some q → max s.tim.cnt t - q < usTicks (1000000 * s.rd (TIM_SRC_CFG_REVERT_S slot)) →
      exec (.sourceRevert slot t) s = .next (hstSettle (s.at t)))
    ∧ (((srcOf s slot).qualSince = none ∨ s.flag TIM_STATUS_SEL_VALID = false ∨ s.rd TIM_STATUS_SEL_SLOT ≤ slot) →
      exec (.sourceRevert slot t) s = .next (hstSettle (s.at t))))
  ∧ (∀ (s : State) (t : Nat),
    (s.rd TIM_QUAL_STATE = 3 → holdLimit s ≠ 0 → holdLimit s < estErr (s.at t) →
      exec (.holdoverLimit t) s = .next (hstSettle (report ((s.at t).wr TIM_QUAL_STATE 4) 0x0604)))
    ∧ ((s.rd TIM_QUAL_STATE ≠ 3 ∨ holdLimit s = 0 ∨ estErr (s.at t) ≤ holdLimit s) → exec (.holdoverLimit t) s = .next (hstSettle (s.at t))))
  ∧ (∀ (s : State) (i : Nat),
    let cur := s.rd TIM_STATUS_SEL_SLOT
    (lowestQualified s = none → s.flag TIM_STATUS_SEL_VALID = true → reselect s = noSource s)
    ∧ (lowestQualified s = none → s.flag TIM_STATUS_SEL_VALID = false → reselect s = s)
    ∧ (lowestQualified s = some i → s.flag TIM_STATUS_SEL_VALID = false → reselect s = s.wrs [(TIM_STATUS_SEL_VALID, 1), (TIM_STATUS_SEL_SLOT, i)])
    ∧ (lowestQualified s = some i → s.flag TIM_STATUS_SEL_VALID = true →
      ((cur = i ∨ (i < cur ∧ s.flag (TIM_SRC_CFG_QUALIFIED cur) = true ∧ s.rd (TIM_SRC_CFG_REVERT_S i) ≠ 0)) → reselect s = s)
      ∧ (cur ≠ i → (cur < i ∨ s.flag (TIM_SRC_CFG_QUALIFIED cur) = false ∨ s.rd (TIM_SRC_CFG_REVERT_S i) = 0) →
        reselect s = report (s.wrs [(TIM_STATUS_SEL_VALID, 1), (TIM_STATUS_SEL_SLOT, i)]) 0x0605 0 i)))
  ∧ (∀ (s : State) (rate : Int), (setRate s rate).now = s.now ∧ (setRate s rate).regs = s.regs)

/-- O37. TIM_SET in UNSET, HOLDOVER or FREERUN with no step armed and no clock fault arms the step to the written time, and is otherwise
refused. The armed step moves the anchor by its amount and keeps the old one, marks STEPPED, suppresses the pulse of the second if it has
not risen, and moves the chain of T0 with it, which walks back to its phase while SEQ runs. PPS_OUT rises once for a whole second that is
neither suppressed nor past, and falls after PPS_WIDTH. A read of TIM_NOW_NS answers the nanoseconds and latches the seconds and the high
word; a read of TIM_CONV_CNT_LO answers the low word of the count and latches its high word. (R305, R307, R313, R317, R320, R325) -/
def Obligations.TimeStepsPpsAndReads : Prop :=
  (∀ (s : State) (p : Path) (t : Nat), s.lets p 0x200004 →
    let S := s.taken p t
    let x := wordsTime (s.rd (TIM_SET_VALUE 0)) (s.rd (TIM_SET_VALUE 1)) (s.rd (TIM_SET_VALUE 2)) - S.now
    let open_ : Bool := (s.rd TIM_QUAL_STATE = 0 || s.rd TIM_QUAL_STATE = 3 || s.rd TIM_QUAL_STATE = 4) && s.tim.step.isNone && !s.flag TIM_QUAL_CLK_FAULT
    (open_ = true → exec (.timSet p t) s = .next (hstSettle ((S.tb fun y => { y with step := some ⟨x, some (s.rd TIM_SET_ERR_VALUE)⟩ }).wr TIM_STATUS_STEP_ARMED 1)))
    ∧ (open_ = false → exec (.timSet p t) s = .next (hstSettle (refuse S 0x060B))))
  ∧ (∀ (s : State) (t : Nat) (st : StepSt),
    let s1 := (timeStep (s.at t)).sq fun q => { q with
        nextT0 := q.nextT0 + st.theta, spT0 := q.spT0 + st.theta
        cycs := q.cycs.map fun c => { c with run := { c.run with step := c.run.step + st.theta } } }
    let w := phaseGap s1 s1.seq.nextT0
    let s2 := (s1.sq fun q => { q with walk := w }).wr SEQ_STATUS_PHASE_WALK (b2n (decide (w ≠ 0)))
    (s.tim.step = none → exec (.timeStep t) s = .next (hstSettle (s.at t)))
    ∧ (s.tim.step = some st → s1.idle = true → exec (.timeStep t) s = .next (hstSettle s1))
    ∧ (s.tim.step = some st → s1.idle = false → (w = 0 ∨ s1.flag SEQ_STATUS_PHASE_WALK = true) → exec (.timeStep t) s = .next (hstSettle s2))
    ∧ (s.tim.step = some st → s1.idle = false → w ≠ 0 → s1.flag SEQ_STATUS_PHASE_WALK = false → exec (.timeStep t) s = .next (hstSettle (report s2 0x0208))))
  ∧ (∀ (s : State) (st : StepSt) (e : Nat), s.tim.step = some st →
    let sec := secOf s.now
    let next := secOf (s.now + st.theta + s.rd TIM_PPS_CFG_PPS_ADV * 65536 - 1) + 1
    let old (y : TimSt) : TimSt := { y with stepCntA := y.cntA, stepTA := y.tA, stepRate := y.rate, stepAt := y.cnt }
    let s1 := report (((s.tb fun y => { old y with tA := y.tA + st.theta, step := none, ppsMin := max (sec + 1) next }).wr TIM_STATUS_STEP_ARMED 0).wr TIM_QUAL_STEPPED 1) 0x0601
    let s2 := if s.rd TIM_PPS_CFG_PPS_WIDTH ≠ 0 ∧ s.rd TIM_QUAL_STATE ≠ 0 ∧ s.tim.ppsMin ≤ sec ∧ s.tim.ppsLast ≠ some sec then
        report ((s1.tb fun y => { y with suppr := sec.toNat }).wrs [(TIM_PPS_STS_SUPPRESSED, 1), (TIM_PPS_STS_SEC, (sec % 2 ^ 31).toNat)]) 0x0608 else s1
    (st.host = some e → timeStep s = enterHoldover s2 e)
    ∧ (st.host = none → s.flag TIM_STATUS_SEL_VALID = true → timeStep s = s2.wr TIM_QUAL_STATE 1)
    ∧ (st.host = none → s.flag TIM_STATUS_SEL_VALID = false → timeStep s = enterHoldover (s2.wr TIM_QUAL_STATE 1) (estErr (s2.wr TIM_QUAL_STATE 1))))
  ∧ (∀ (s : State) (t : Nat),
    let S := s.at t
    let sec := secOf (S.now + s.rd TIM_PPS_CFG_PPS_ADV * 65536)
    let due : Bool := s.rd TIM_PPS_CFG_PPS_WIDTH ≠ 0 && s.rd TIM_QUAL_STATE ≠ 0 && s.tim.ppsMin ≤ sec && s.tim.ppsLast ≠ some sec
    (due = true → exec (.ppsOutPulse t) s = .next (hstSettle (S.tb fun b => { b with
        ppsLast := some sec, ppsHigh := some (max s.tim.cnt t + usTicks (8 * s.rd TIM_PPS_CFG_PPS_WIDTH)) })))
    ∧ (due = false → exec (.ppsOutPulse t) s = .next (hstSettle S)))
  ∧ (∀ (s : State) (t u : Nat),
    (s.tim.ppsHigh = some u → u ≤ max s.tim.cnt t → exec (.ppsWidthEnd t) s = .next (hstSettle ((s.at t).tb fun b => { b with ppsHigh := none })))
    ∧ ((s.tim.ppsHigh = none ∨ (s.tim.ppsHigh = some u ∧ max s.tim.cnt t < u)) → exec (.ppsWidthEnd t) s = .next (hstSettle (s.at t))))
  ∧ (∀ (s : State) (p : Path) (t : Nat), s.letsRead p 0x200018 →
    let S := s.taken p t
    exec (.timNowRead p t) s = .next (hstSettle ((latchWord (latchWord S p 0x20001C (timeWords S.now).2.1) p 0x200020 (timeWords S.now).2.2).emit
      (.read p (timeWords S.now).1))))
  ∧ (∀ (s : State) (p : Path) (t : Nat), s.letsRead p 0x200080 →
    let S := s.taken p t
    let c := unsigned 64 (cntOf s.tim (wordsTime (s.rd (TIM_CONV_TIME_VALUE 0)) (s.rd (TIM_CONV_TIME_VALUE 1)) (s.rd (TIM_CONV_TIME_VALUE 2))))
    exec (.timConvRead p t) s = .next (hstSettle ((latchWord S p 0x200084 (c / 2 ^ 32)).emit (.read p (c % 2 ^ 32)))))

/-- O38. While the time port does not run a message does nothing; one of another version or domain only counts IGNORED. An Announce enters its
sender's data and times and the best master is chosen anew, TIM_UTC taken from the selected one; a foreign master without Announces for
ANNOUNCE_TO intervals is removed. A Sync of the selected master is kept with the time of its arrival, a one-step one is followed by a
Delay_Req when due; a Follow_Up completes the two-step Sync with its sequence number; a Delay_Resp to the last request gives the mean path
delay, counted BAD_DELAY outside its bounds, filtered otherwise, and the offset of the PTP slot. Any other message of the four does
nothing. A change of the best master is reported, shown, and ends the PTP slot's qualification. (R322, R323, R324) -/
def Obligations.PtpSlaveFollowsItsMaster : Prop :=
  (∀ (s : State) (h : PtpHdr) (d : PtpData) (utc : Option (Nat × Bool × Bool)) (t1 t4 : Int) (o : Option Int) (mine : Bool) (n t : Nat),
    ∀ c ∈ [Instr.ptpSync h o n t, .ptpFollowUp h t1 t, .ptpAnnounce h d utc t, .ptpDelayResp h t4 mine t],
    (netOn s (s.rd TIM_CFG_TIME_PORT) = false → exec c s = .next (hstSettle (s.at t)))
    ∧ (netOn s (s.rd TIM_CFG_TIME_PORT) = true → (h.version % 16 ≠ 2 ∨ h.domain ≠ s.rd TIM_PTP_CFG_DOMAIN) →
      exec c s = .next (hstSettle ((s.at t).incSat TIM_PTP_CNT_IGNORED 0xFFFF))))
  ∧ (∀ (s : State) (h : PtpHdr) (d : PtpData) (utc : Option (Nat × Bool × Bool)) (t : Nat),
    netOn s (s.rd TIM_CFG_TIME_PORT) = true → h.version % 16 = 2 → h.domain = s.rd TIM_PTP_CFG_DOMAIN →
    let was := (s.tim.ptp.foreign.find? fun f => f.clock = h.clock ∧ f.port = h.port).map (·.times)
    let f : ForeignSt := ⟨h.clock, h.port, d, (t :: was.getD []).take 4, h.logInt, utc⟩
    exec (.ptpAnnounce h d utc t) s = .next (hstSettle (ptpUtc (ptpSelect ((s.at t).ptp fun x => { x with
      foreign := f :: x.foreign.filter fun g => ¬(g.clock = h.clock ∧ g.port = h.port) })) f)))
  ∧ (∀ (s : State) (clock port t : Nat),
    let iv (f : ForeignSt) : Nat := if 0 ≤ f.logInt then 250000000 * 2 ^ f.logInt.toNat else 250000000 / 2 ^ (-f.logInt).toNat
    let gone (f : ForeignSt) : Bool := f.clock = clock && f.port = port && s.rd TIM_PTP_CFG_ANNOUNCE_TO * iv f ≤ max s.tim.cnt t - f.times.headD 0
    exec (.ptpAnnounceTimeout clock port t) s = .next (hstSettle (ptpSelect ((s.at t).ptp fun x => { x with foreign := x.foreign.filter fun f => !gone f }))))
  ∧ (∀ (s : State) (h : PtpHdr) (o : Option Int) (n t : Nat), netOn s (s.rd TIM_CFG_TIME_PORT) = true → ptpMine s h = true →
    let S := s.at t
    let s1 := (S.wr TIM_PTP_STS_LOG_SYNC (unsigned 8 h.logInt)).ptp fun x => { x with sync := some (h.seq, o, h.corr, ingressTime S (s.rd TIM_CFG_TIME_PORT) n) }
    (s.tim.ptp.sel = some (h.clock, h.port) → o = none → exec (.ptpSync h o n t) s = .next (hstSettle s1))
    ∧ (s.tim.ptp.sel = some (h.clock, h.port) → o.isSome = true → exec (.ptpSync h o n t) s = .next (hstSettle (sendDelayReq s1)))
    ∧ (s.tim.ptp.sel ≠ some (h.clock, h.port) → exec (.ptpSync h o n t) s = .next (hstSettle S)))
  ∧ (∀ (s : State) (h : PtpHdr) (t1 c t2 : Int) (seq t : Nat), netOn s (s.rd TIM_CFG_TIME_PORT) = true → ptpMine s h = true →
    (s.tim.ptp.sel = some (h.clock, h.port) → s.tim.ptp.sync = some (seq, none, c, t2) → seq = h.seq →
      exec (.ptpFollowUp h t1 t) s = .next (hstSettle (sendDelayReq ((s.at t).ptp fun x => { x with sync := some (seq, some t1, c + h.corr, t2) }))))
    ∧ ((s.tim.ptp.sel ≠ some (h.clock, h.port) ∨ s.tim.ptp.sync = none ∨ (s.tim.ptp.sync.map (·.2.1.isSome)) = some true
        ∨ (s.tim.ptp.sync.map (·.1)) ≠ some h.seq) → exec (.ptpFollowUp h t1 t) s = .next (hstSettle (s.at t))))
  ∧ (∀ (s : State) (h : PtpHdr) (t1 cs t2 t3 t4 : Int) (seq0 at0 t i : Nat), netOn s (s.rd TIM_CFG_TIME_PORT) = true → ptpMine s h = true →
    s.tim.ptp.sel = some (h.clock, h.port) → s.tim.ptp.sync = some (seq0, some t1, cs, t2) → s.tim.ptp.dreq = some ⟨h.seq, at0, some t3⟩ →
    let s1 := (s.at t).ptp fun x => { x with dreqLog := h.logInt }
    let mpd := ((t2 - t1 - cs) + (t4 - t3 - h.corr)) / 2
    let f := match s.tim.ptp.mpdF with
      | none => mpd
      | some f => f + (mpd - f) / 16
    let fine : Bool := 0 ≤ mpd && mpd ≤ (s.rd TIM_PTP_CFG_MPD_MAX * 10 * 65536 : Int)
    let bad := s1.incSat TIM_PTP_CNT_BAD_DELAY 0xFFFF
    let s2 := (s1.ptp fun x => { x with mpdF := some f, sync := none }).wr TIM_PTP_MPD_MPD_F (divRne f 65536).toNat
    (fine = false → slotOfKind s 2 = none → exec (.ptpDelayResp h t4 true t) s = .next (hstSettle bad))
    ∧ (fine = false → slotOfKind s 2 = some i → exec (.ptpDelayResp h t4 true t) s = .next (hstSettle (breakRun bad i)))
    ∧ (fine = true → slotOfKind s 2 = some i → exec (.ptpDelayResp h t4 true t) s = .next (hstSettle (sourceOffset s2 i (t1 + cs + f - t2))))
    ∧ (fine = true → slotOfKind s 2 = none → exec (.ptpDelayResp h t4 true t) s = .next (hstSettle s2)))
  ∧ (∀ (s : State) (h : PtpHdr) (t4 : Int) (mine : Bool) (t : Nat), netOn s (s.rd TIM_CFG_TIME_PORT) = true → ptpMine s h = true →
    (mine = false ∨ s.tim.ptp.sel ≠ some (h.clock, h.port) ∨ (s.tim.ptp.sync.bind (·.2.1)) = none ∨ (s.tim.ptp.dreq.bind (·.t3)) = none
      ∨ (s.tim.ptp.dreq.map (·.seq)) ≠ some h.seq) → exec (.ptpDelayResp h t4 mine t) s = .next (hstSettle (s.at t)))
  ∧ (∀ (s : State) (c p i : Nat) (f : ForeignSt),
    let best := (bestMaster s).map fun f => (f.clock, f.port)
    let s1 := s.ptp fun x => { x with sel := best, sync := none, dreq := none, mpdF := none }
    let mark := s1.wrs [(TIM_PTP_STS_MASTER_VALID, 1), (TIM_PTP_MASTER_LO_CLOCK_ID, c), (TIM_PTP_MASTER_HI_CLOCK_ID, c / 2 ^ 32)]
    (best = s.tim.ptp.sel → ptpSelect s = s)
    ∧ (best ≠ s.tim.ptp.sel → best = some (c, p) → slotOfKind s 2 = some i → ptpSelect s = unqualify (report mark 0x060E) i)
    ∧ (best ≠ s.tim.ptp.sel → best = some (c, p) → slotOfKind s 2 = none → ptpSelect s = report mark 0x060E)
    ∧ (best ≠ s.tim.ptp.sel → best = none → slotOfKind s 2 = some i → ptpSelect s = unqualify (report (s1.wr TIM_PTP_STS_MASTER_VALID 0) 0x060E) i)
    ∧ (bestMaster s = some f → f ∈ s.tim.ptp.foreign ∧ f.data.steps < 255 ∧ f.clock ≠ clockId s ∧ 2 ≤ f.times.length))

/-- O39. A PPS_IN edge of right width and spacing is a valid offset of its slot unless time is UNSET or it is 0.4 s or more from a whole
second; it is then discarded, as is one of wrong width or spacing, the first of a run of which is reported; without a PPS_IN slot nothing
happens. A selected edge of a capture ball enters its FIFO of four, or is counted lost, the first of a run reported. A target reached
gives its pulse, once or advanced by PERIOD; a second reached gives the pulse of mode 3 once. Arming sets the target, a late one is
reported with LATE, one of a ball without WIDTH refused. A read of CAP_LO pops the oldest capture and latches its high word, an empty FIFO
reads 0. Every other edge or trigger does nothing. (R319, R326, R327, R328) -/
def Obligations.PpsInAndCaptureBalls : Prop :=
  (∀ (s : State) (t dur i : Nat),
    let S := s.at t
    let good := s.rd TIM_PPSIN_CFG_WMIN * 100 ≤ dur ∧ dur ≤ s.rd TIM_PPSIN_CFG_WMAX * 250000
      ∧ ((s.tim.ppsInLast.map fun l => decide (999000000 ≤ 4 * (t - l) ∧ 4 * (t - l) ≤ 1001000000)).getD true) = true
    let s1 := S.tb fun b => { b with ppsInLast := some t, ppsInRun := false }
    let tc := corrCap s1.tim t
    let th := divRne tc Config.secUnit * Config.secUnit - tc
    let drop (u : State) : State := breakRun (u.incSat (TIM_SRC_CNT_DISCARD i) 0xFFFF) i
    (slotOfKind s 4 = none → exec (.ppsInEdge t dur) s = .next (hstSettle S))
    ∧ (slotOfKind s 4 = some i → good → s.rd TIM_QUAL_STATE ≠ 0 → th.natAbs * 10 < 4 * Config.secUnit →
      exec (.ppsInEdge t dur) s = .next (hstSettle (sourceOffset s1 i th)))
    ∧ (slotOfKind s 4 = some i → good → (s.rd TIM_QUAL_STATE = 0 ∨ 4 * Config.secUnit ≤ th.natAbs * 10) →
      exec (.ppsInEdge t dur) s = .next (hstSettle (drop s1)))
    ∧ (slotOfKind s 4 = some i → ¬good → s.tim.ppsInRun = false → exec (.ppsInEdge t dur) s =
      .next (hstSettle (report ((drop S).tb fun b => { b with ppsInRun := true }) 0x0609)))
    ∧ (slotOfKind s 4 = some i → ¬good → s.tim.ppsInRun = true → exec (.ppsInEdge t dur) s = .next (hstSettle (drop S))))
  ∧ (∀ (s : State) (b t : Nat) (rising : Bool),
    let taken : Bool := s.rd (TIM_TCAP_CFG_MODE b) = 1 && bit (s.rd (TIM_TCAP_CFG_EDGE b)) (if rising then 0 else 1)
    let lost := (s.at t).incSat (TIM_TCAP_STS_CAP_LOST b) 255
    (taken = true → (tcapOf s b).fifo.length < 4 → exec (.tcapCapture b rising t) s = .next (hstSettle ((updTcap (s.at t) b fun x =>
      { x with fifo := x.fifo ++ [(t, rising)], lostRun := false }).wr (TIM_TCAP_STS_EMPTY b) 0)))
    ∧ (taken = true → 4 ≤ (tcapOf s b).fifo.length → (tcapOf s b).lostRun = false → exec (.tcapCapture b rising t) s =
      .next (hstSettle (report (updTcap lost b fun x => { x with lostRun := true }) 0x060D b)))
    ∧ (taken = true → 4 ≤ (tcapOf s b).fifo.length → (tcapOf s b).lostRun = true → exec (.tcapCapture b rising t) s = .next (hstSettle lost))
    ∧ (taken = false → exec (.tcapCapture b rising t) s = .next (hstSettle (s.at t))))
  ∧ (∀ (s : State) (b t : Nat),
    let S := s.at t
    let s1 := updTcap S b fun x => { x with highUntil := some (max s.tim.cnt t + s.rd (TIM_TCAP_CFG_WIDTH b)) }
    let per := s.rd (TIM_TCAP_PERIOD_PERIOD b)
    let n := (tcapTarget s b + per) % 2 ^ 40
    let due : Bool := (tcapOf s b).armed && targetDist S (tcapTarget s b) ≤ 0
    let sec := secOf (S.now - s.rd (TIM_TCAP_PHASE_PHASE_NS b) * 65536)
    let duePps : Bool := s.rd (TIM_TCAP_CFG_WIDTH b) ≠ 0 && s.rd TIM_QUAL_STATE ≠ 0 && s.tim.ppsMin ≤ sec && (tcapOf s b).lastSec ≠ some sec
    (s.rd (TIM_TCAP_CFG_MODE b) = 2 → due = true → per = 0 → exec (.tcapTrigger b t) s = .next (hstSettle (updTcap s1 b fun x => { x with armed := false })))
    ∧ (s.rd (TIM_TCAP_CFG_MODE b) = 2 → due = true → per ≠ 0 →
      exec (.tcapTrigger b t) s = .next (hstSettle (s1.wrs [(TIM_TCAP_TGT_LO_TGT b, n), (TIM_TCAP_TGT_HI_TGT b, n / 2 ^ 32)])))
    ∧ (s.rd (TIM_TCAP_CFG_MODE b) = 3 → duePps = true → exec (.tcapTrigger b t) s = .next (hstSettle (updTcap s1 b fun x => { x with lastSec := some sec })))
    ∧ (((s.rd (TIM_TCAP_CFG_MODE b) = 2 ∧ due = false) ∨ (s.rd (TIM_TCAP_CFG_MODE b) = 3 ∧ duePps = false) ∨ s.rd (TIM_TCAP_CFG_MODE b) < 2) →
      exec (.tcapTrigger b t) s = .next (hstSettle S)))
  ∧ (∀ (s : State) (p : Path) (b v t : Nat), s.lets p (0x200208 + b * 0x20) → b < 4 →
    let S := s.taken p t
    let s1 := updTcap (S.wr (TIM_TCAP_TGT_HI_TGT b) v) b fun x => { x with armed := true }
    (s.rd (TIM_TCAP_CFG_MODE b) ≠ 2 → exec (.tcapArm p b v t) s = .next (hstSettle (S.wr (TIM_TCAP_TGT_HI_TGT b) v)))
    ∧ (s.rd (TIM_TCAP_CFG_MODE b) = 2 → s.rd (TIM_TCAP_CFG_WIDTH b) = 0 → exec (.tcapArm p b v t) s = .next (hstSettle (refuse S 0x060B b)))
    ∧ (s.rd (TIM_TCAP_CFG_MODE b) = 2 → s.rd (TIM_TCAP_CFG_WIDTH b) ≠ 0 → 0 < targetDist s1 (tcapTarget s1 b) → exec (.tcapArm p b v t) s = .next (hstSettle s1))
    ∧ (s.rd (TIM_TCAP_CFG_MODE b) = 2 → s.rd (TIM_TCAP_CFG_WIDTH b) ≠ 0 → targetDist s1 (tcapTarget s1 b) ≤ 0 →
      exec (.tcapArm p b v t) s = .next (hstSettle (report (s1.wr (TIM_TCAP_STS_LATE b) 1) 0x060C b))))
  ∧ (∀ (s : State) (p : Path) (b c t : Nat) (r : Bool) (l : List (Nat × Bool)), s.letsRead p (0x200218 + b * 0x20) →
    let S := s.taken p t
    ((tcapOf s b).fifo = [] → exec (.tcapCapRead p b t) s = .next (hstSettle ((latchWord S p (0x20021C + b * 0x20) 0).emit (.read p 0))))
    ∧ ((tcapOf s b).fifo = (c, r) :: l → exec (.tcapCapRead p b t) s = .next (hstSettle ((latchWord ((updTcap S b fun x => { x with fifo := l }).wr
        (TIM_TCAP_STS_EMPTY b) (b2n l.isEmpty)) p (0x20021C + b * 0x20) (c / 2 ^ 32 % 2 ^ 31 + 2 ^ 31 * b2n r)).emit (.read p (c % 2 ^ 32))))))

/-- O40. GCLK more than 100 ppm out makes GCLK_OK 0 with GNS code 0x0503, and within 50 ppm makes it good again; between, nothing changes. An
occupancy window of an antenna in use records OCC, counts windows in a row out of and in range, and the antenna's FAULT follows the third
of either; with gain control on, an occupancy more than 2 % off its target steps the gain code towards it within its range. A completed
front-end write sets GAIN when it is a gain write, a read-back that differs reports FE_SPI and marks the antenna, and the next write
starts. A pass that detects starts its verification, a second detection hands off to the lowest free channel, which starts to pull in at
the code and Doppler of the cell found, and a pass without one goes on to the next or ends the job absent. Without the block, or for an
antenna not in use, nothing happens. (R127, R129, R130, R132, R133, R134) -/
def Obligations.FrontEndsAndAcquisition : Prop :=
  (∀ (s : State) (edges t : Nat),
    let fs : Nat := u32 (s.sec 9) 4
    let dev : Nat := ((edges : Int) - (fs : Int)).natAbs * 1000000
    let mark (x : State) (bad : Bool) : State := (x.gn fun g => { g with rateBad := bad }).wrb GNS_STATUS_GCLK_OK (!s.gns.lost && !bad)
    (gnsOn s = true → 100 * fs < dev → s.gns.rateBad = false → exec (.gclkRateCheck edges t) s =
      .next (hstSettle ((report ((s.at t).gn fun g => { g with rateBad := true }) 0x0503).wr GNS_STATUS_GCLK_OK 0)))
    ∧ (gnsOn s = true → dev ≤ 50 * fs → exec (.gclkRateCheck edges t) s = .next (hstSettle (mark (s.at t) false)))
    ∧ (gnsOn s = true → 50 * fs < dev → (dev ≤ 100 * fs ∨ s.gns.rateBad = true) → exec (.gclkRateCheck edges t) s =
      .next (hstSettle ((s.at t).wrb GNS_STATUS_GCLK_OK (!s.gns.lost && !s.gns.rateBad))))
    ∧ (gnsOn s = false → exec (.gclkRateCheck edges t) s = .next (hstSettle (s.at t))))
  ∧ (∀ (s : State) (a t : Nat) (rise fall : List Nat),
    let occ := occupancyOf (u8 (s.sec 9) (0x1C + a)) (if bit (u8 (s.sec 9) 2) 0 then fall else rise)
    let inside := u16 (s.sec 9) 0x20 ≤ occ ∧ occ ≤ u16 (s.sec 9) 0x22
    let out := if inside then 0 else at_ s.gns.out a 0 + 1
    let good := if inside then at_ s.gns.good a 0 + 1 else 0
    let was := at_ s.gns.occBad a false
    let bad : Bool := if was then good < 3 else 3 ≤ out
    let s1 := ((s.at t).wr (GNS_ANT_STS_OCC a) occ).gn fun x => { x with
      out := put_ x.out a 0 (min out 3), good := put_ x.good a 0 (min good 3), occBad := put_ x.occBad a false bad }
    let s2 := acqTake (antMarks (if bad = true ∧ was = false then report s1 0x0501 a a else s1))
    let code := s.rd (GNS_ANT_STS_GAIN a)
    let target := u16 (s.sec 9) 0x24
    let up : Bool := occ + 20 < target && code < u8 (s.sec 9) 0xBA
    let down : Bool := target + 20 < occ && u8 (s.sec 9) 0xB9 < code
    let auto : Bool := bit (u8 (s.sec 9) 2) 3
    let on : Bool := gnsRuns s && gnsCh s a ≠ 0
    (on = true → (auto = false ∨ (up = false ∧ down = false)) → exec (.occupancyWindow a rise fall t) s = .next (hstSettle s2))
    ∧ (on = true → auto = true → up = true → exec (.occupancyWindow a rise fall t) s =
      .next (hstSettle (spiQueue s2 [⟨a, u8 (s.sec 9) 0xB8, code + 1, false, true⟩])))
    ∧ (on = true → auto = true → down = true → exec (.occupancyWindow a rise fall t) s =
      .next (hstSettle (spiQueue s2 [⟨a, u8 (s.sec 9) 0xB8, code - 1, false, true⟩])))
    ∧ (on = false → exec (.occupancyWindow a rise fall t) s = .next (hstSettle (s.at t))))
  ∧ (∀ (s : State) (data t : Nat) (o : SpiOp) (l : List SpiOp),
    let s1 := (s.at t).gn fun g => { g with spi := l }
    let s2 := if o.gain then s1.wr (GNS_ANT_STS_GAIN o.ant) (o.data % 256) else s1
    (s.gns.spi = o :: l → (o.back = false ∨ data = o.data) → exec (.feSpiDone data t) s = .next (hstSettle (spiStart s2)))
    ∧ (s.gns.spi = o :: l → o.back = true → data ≠ o.data → exec (.feSpiDone data t) s =
      .next (hstSettle (spiStart (antMarks (report (s2.gn fun g => { g with spiBad := put_ g.spiBad o.ant false true }) 0x0504 o.ant o.ant)))))
    ∧ (s.gns.spi = [] → exec (.feSpiDone data t) s = .next (hstSettle (s.at t))))
  ∧ (∀ (s : State) (peak mean cb t : Nat) (db d : Int) (j : AcqJob) (m c : Nat),
    let reach (m : Nat) : Bool := le32 (m32 (u32 (s.sec 9) 0x38) (i32 m)) (i32 peak)
    let S := s.at t
    let again := S.gn fun g => { g with acq := some { j with pass := j.pass + 1, ver := none } }
    let gone := acqTake (S.gn fun g => { g with acq := none, absent := g.absent ++ [(j.cls, j.ant, j.sig, j.prn)] })
    let miss : Bool := match j.ver with
      | none => !reach mean
      | some x => !reach x.1
    ((s.gns.acq = none ∨ gnsRuns s = false ∨ gnsClocked s = false) → exec (.acqPassDone peak mean cb db t) s = .next (hstSettle S))
    ∧ (s.gns.acq = some j → gnsRuns s = true → gnsClocked s = true →
      (j.ver = none → reach mean = true → exec (.acqPassDone peak mean cb db t) s =
        .next (hstSettle (S.gn fun g => { g with acq := some { j with ver := some (mean, cb, db) } })))
      ∧ (miss = true → j.pass + 1 < j.passes → exec (.acqPassDone peak mean cb db t) s = .next (hstSettle again))
      ∧ (miss = true → j.passes ≤ j.pass + 1 → exec (.acqPassDone peak mean cb db t) s = .next (hstSettle gone))
      ∧ (j.ver = some (m, c, d) → reach m = true → exec (.acqPassDone peak mean cb db t) s = .next (hstSettle (handOff S j c d)))))
  ∧ (∀ (s : State) (j : AcqJob) (cb c : Nat) (db : Int),
    let dop := 65536 * (j.dop0 + db * 500000 / (tCoh j.sig : Int))
    let s0 := s.gn fun g => { g with acq := none }
    (freeCh s j.ant = none → handOff s j cb db = acqTake s0)
    ∧ (freeCh s j.ant = some c → handOff s j cb db = acqTake (updCh s0 c fun x => { chIdle x.slips with
        sig := j.sig, prn := j.prn, pull := true, pullEnd := s.tim.cnt + usTicks (1000 * u16 (s.sec 9) 0x42), since := s.tim.cnt
        code := (j.code0 + cb * 2 ^ 31) % codeMod j.sig false, dop := dop, vel := dop, slip := true, restart := true })))

/-- O41. With no injection waiting, an update of a tracking channel enters its prompt and its C/N0 over the last 50, counts the runs at
CN0_LOCK and below CN0_LOSS, gains code lock with the tenth in a row, sets CARR_LOCK with PLI_LOCK over 20 prompts and holds it within 0.1
of it, notes a slip where CARR_LOCK is lost or the discriminator exceeds SLIP_DISC, and changes no other channel or register; a locked
channel too long below CN0_LOSS is released. PULL_IN_END lets the PLL join once PULL_IN_MS has passed. A cycle epoch whose instant has
come latches every channel, puts the pending ephemerides in force, enters the records and ALL_LOST; an intermediate one latches slips and
smoothing alone. Job dispatch at JOB_OFS or later marks the satellites used and plans the PVT where enough remain, and settles without one
where not, or with every signal lost. Otherwise each of these does nothing. (R137, R139, R141, R143, R146) -/
def Obligations.TrackingAndEpochs : Prop :=
  (∀ (s : State) (c k ee ve ll vl t : Nat) (i q : Int), s.err.inj = none →
    let g := s.sec 9
    let S := s.at t
    let x := s.gch c
    let on : Bool := gnsRuns s && x.sig ≠ 0 && gnsClocked s
    let prompts := ((i, q) :: x.prompts).take 50
    let cn0 := cn0Of (tInt s x) prompts
    let up := if u16 g 0x44 ≤ cn0 then min (x.up + 1) 10 else 0
    let low := if cn0 < u16 g 0x46 then min (x.low + 1) 1000 else 0
    let free : Bool := x.codeLock && u16 g 0x48 ≤ low
    let carr : Bool := if x.carrLock then pliAtLeast (prompts.take 20) (s32 (u32 g 0x4C) (fofRat fmt32 1 10))
      else (prompts.take 20).length = 20 && pliAtLeast (prompts.take 20) (u32 g 0x4C)
    let u := loopUpdateOp c i q ee ll ve vl t s
    let y := u.gch c
    (on = false → exec (.loopUpdate c i q ee ll ve vl t) s = .next (hstSettle S))
    ∧ (on = true → free = true → exec (.loopUpdate c i q ee ll ve vl t) s = .next (hstSettle (acqTake (releaseCh S c))))
    ∧ (on = true → free = false → exec (.loopUpdate c i q ee ll ve vl t) s = .next (hstSettle u)
      ∧ y.sig = x.sig ∧ y.prn = x.prn ∧ y.prompts = prompts ∧ y.cn0 = cn0 ∧ y.up = up ∧ y.low = low ∧ y.codeLock = (x.codeLock || decide (10 ≤ up))
      ∧ y.carrLock = carr ∧ y.slip = (x.slip || (x.carrLock && !carr) || discSlip s (pllDisc x.sig i q))
      ∧ y.half = (x.half || (carr && !x.carrLock && !pilot x.sig)) ∧ y.slips = x.slips ∧ y.pull = x.pull
      ∧ u.regs = s.regs ∧ (k ≠ c → u.gch k = s.gch k)))
  ∧ (∀ (s : State) (c t : Nat),
    (gnsRuns s = true → (s.gch c).sig ≠ 0 → (s.gch c).pullEnd ≤ max s.tim.cnt t →
      exec (.pullInEnd c t) s = .next (hstSettle (updCh (s.at t) c fun x => { x with pull := false })))
    ∧ ((gnsRuns s = false ∨ (s.gch c).sig = 0 ∨ max s.tim.cnt t < (s.gch c).pullEnd) → exec (.pullInEnd c t) s = .next (hstSettle (s.at t))))
  ∧ (∀ (s : State) (n t : Nat) (d : Cyc),
    let S := s.at t
    let on : Bool := gnsRuns s && u16 (s.sec 9) 0x40 ≠ 0 && bit d.inp.runs 3 && (s.gns.epoch.map (·.n)) ≠ some n && d.inp.t0c + d.run.step ≤ S.now
    (s.cyc? n = some d → on = true → exec (.gnssEpoch n 0 t) s = .next (hstSettle (cycleEpoch S n d.inp.t0c)))
    ∧ ((s.cyc? n = none ∨ (s.cyc? n = some d ∧ on = false)) → exec (.gnssEpoch n 0 t) s = .next (hstSettle S)))
  ∧ (∀ (s : State) (n : Nat) (te : Int),
    let ti := te + latchErr n 0
    let before := (gnsChans s).map fun c => (c, atEpoch s ti (s.gch c))
    let s1 := latchChans s ti
    let recs := before.map fun x => recOf s1 ti x.1 x.2 (s1.gch x.1)
    let tracked := (recs.filter fun r => r.codeLock).length
    let s2 := s1.gn fun g => { g with store := navEpoch g.store, epoch := some ⟨n, 1, te, recs, [], none, [], none, [], false⟩ }
    let s3 := updCyc s2 n fun c => { c with
      results := c.results ++ recs.flatMap (fun r => recResults s2 r s.tim.cnt) ++ [(GNS_STATUS_TRACKED, tracked)] }
    ((tracked ≠ 0 ∨ s.flag GNS_STATUS_ALL_LOST = true) → cycleEpoch s n te = diffAge (s3.wr GNS_STATUS_ALL_LOST (if tracked = 0 then 1 else 0)) n te)
    ∧ (tracked = 0 → s.flag GNS_STATUS_ALL_LOST = false → cycleEpoch s n te =
      diffAge (((reportCyc s3 n 0x0505).gn fun g => { g with back := true }).wr GNS_STATUS_ALL_LOST 1) n te))
  ∧ (∀ (s : State) (n k t : Nat) (ep : GnsEpoch), k ≠ 0 →
    let S := s.at t
    let te := ep.t + ((k * (s.rd SEQ_PERIOD_VALUE * 1000 * 65536) / u16 (s.sec 9) 0x40 : Nat) : Int)
    let on : Bool := gnsRuns s && k < u16 (s.sec 9) 0x40 && ep.n = n && ep.kNext ≤ k && te ≤ S.now
    (s.gns.epoch = some ep → on = true → exec (.gnssEpoch n k t) s =
      .next (hstSettle ((latchChans S (te + latchErr n k)).gn fun g => { g with epoch := g.epoch.map fun x => { x with kNext := k + 1 } })))
    ∧ ((s.gns.epoch = none ∨ (s.gns.epoch = some ep ∧ on = false)) → exec (.gnssEpoch n k t) s = .next (hstSettle S)))
  ∧ (∀ (s : State) (n t : Nat) (ep : GnsEpoch),
    let on : Bool := ep.n = n && ep.pvt.isNone && ep.plan.isEmpty && ep.used.isEmpty && gnsRuns s
      && ep.t + ((u32 (s.sec 9) 0x54 * 1000 * 65536 : Nat) : Int) ≤ (s.at t).now && (s.isNode || !(gnsLanes s).isEmpty)
    let S := (s.at t).gn fun g => { g with jobs := [] }
    let rs := if s.flag GNS_STATUS_ALL_LOST then [] else (pvtSet S ep).1
    let dgnss := if s.flag GNS_STATUS_ALL_LOST then false else (pvtSet S ep).2
    (s.gns.epoch = some ep → on = true → unknowns rs + 1 ≤ rs.length → exec (.gnssJobDispatch n t) s = .next (hstSettle (gnsFill (judgeFixes (updEpoch
      ((S.wrb GNS_DIFF_STS_USED dgnss).gn fun g => { g with sol := { g.sol with mode := if dgnss then 2 else 1 } }) fun e =>
        { e with used := rs.map (·.c), plan := [⟨0, 0, 0⟩] })))))
    ∧ (s.gns.epoch = some ep → on = true → rs.length < unknowns rs + 1 → exec (.gnssJobDispatch n t) s =
      .next (hstSettle (gnsFill (judgeFixes (settlePvt ((S.wrb GNS_DIFF_STS_USED dgnss).wr GNS_DIFF_STS_USED 0) ep false [] [])))))
    ∧ ((s.gns.epoch = none ∨ (s.gns.epoch = some ep ∧ on = false)) → exec (.gnssJobDispatch n t) s = .next (hstSettle (s.at t))))

/-- O42. A word that passes its check on a tracking channel gives it synchronisation, at which integration begins anew, its polarity while
that is open, the time of week with the chip of the code, or puts an ephemeris or almanac entry into the store, Klobuchar words of signal
1 or range words of signal 4; a word that fails, or of an idle channel, changes nothing. An ephemeris waits for the next cycle epoch and
stands beside the one in force until then. The store is saved to NAND whole every 300 s and not before. An octet written to GNS_RTCM_DATA
enters the FIFO, from which the parser drops what no frame can start with, or sets OVERFLOW when 8,192 wait there. A whole RTCM frame
leaves its stream; one with a wrong CRC is counted and reported, one with a message is used. Without the block nothing happens. (R137,
R140, R145, R158) -/
def Obligations.NavigationDataAndCorrections : Prop :=
  (∀ (s : State) (c prn iod sec ci t : Nat) (inv good : Bool) (words : List Nat),
    let x := s.gch c
    let S := s.at t
    let on : Bool := gnsRuns s && x.sig ≠ 0
    let now : GnsCh := moveCh x (max s.tim.cnt t)
    let put (e : NavEntry) : State := S.gn fun g => { g with
      store := e :: g.store.filter fun y => !(y.sig = e.sig && y.prn = e.prn && y.alm = e.alm && y.inForce = e.inForce) }
    (on = true →
      exec (.navWordDecoded c .sync true t) s = .next (hstSettle (updCh S c fun _ => { now with sync := true, prompts := [] }))
      ∧ exec (.navWordDecoded c (.tow sec ci) true t) s =
        .next (hstSettle (updCh S c fun _ => { now with tow := true, code := (sec % 604800 * 1023000 + ci % 1023000) * 2 ^ 32 + now.code % 2 ^ 32 }))
      ∧ (x.half = true → exec (.navWordDecoded c (.preamble inv) true t) s = .next (hstSettle (updCh S c fun x => { x with half := false, inv := inv })))
      ∧ (x.half = false → exec (.navWordDecoded c (.preamble inv) true t) s = .next (hstSettle S))
      ∧ exec (.navWordDecoded c (.eph iod words) true t) s = .next (hstSettle (put ⟨x.sig, x.prn, false, iod, words, true,
          s.gns.store.any fun e => e.sig = x.sig && e.prn = x.prn && !e.alm && e.iod = iod && e.inForce⟩))
      ∧ exec (.navWordDecoded c (.alm prn iod words) true t) s = .next (hstSettle (put ⟨x.sig, prn, true, iod, words, true, true⟩))
      ∧ exec (.navWordDecoded c (.iono words) true t) s = .next (hstSettle (if x.sig = 1 then S.gn fun g => { g with iono := words } else S))
      ∧ exec (.navWordDecoded c (.range words) true t) s = .next (hstSettle (if x.sig = 4 then updCh S c fun x => { x with range := words } else S)))
    ∧ ((on = false ∨ good = false) →
      ∀ w ∈ [NavWord.sync, .preamble inv, .tow sec ci, .eph iod words, .alm prn iod words, .iono words, .range words],
        exec (.navWordDecoded c w good t) s = .next (hstSettle S)))
  ∧ (∀ (s : State) (t : Nat),
    (gnsOn s = true → s.gns.saveAt ≤ max s.tim.cnt t → exec (.ephemerisSave t) s =
      .next (hstSettle ((s.at t).gn fun g => { g with nand := g.store, saveAt := max s.tim.cnt t + usTicks 300000000 })))
    ∧ ((gnsOn s = false ∨ max s.tim.cnt t < s.gns.saveAt) → exec (.ephemerisSave t) s = .next (hstSettle (s.at t))))
  ∧ (∀ (s : State) (p : Path) (v t : Nat), s.lets p 0x180014 →
    let S := s.taken p t
    let fifo := rtcmSeek (s.gns.fifo ++ [BitVec.ofNat 8 v])
    (gnsOn s = true → s.gns.fifo.length < 8192 → exec (.gnsRtcmData p v t) s = .next (hstSettle ((S.gn fun g => { g with fifo := fifo }).wr
      GNS_RTCM_STS_FILL fifo.length)))
    ∧ (gnsOn s = true → 8192 ≤ s.gns.fifo.length → s.flag GNS_RTCM_STS_OVERFLOW = false → exec (.gnsRtcmData p v t) s =
      .next (hstSettle (report (S.wr GNS_RTCM_STS_OVERFLOW 1) 0x050F)))
    ∧ (gnsOn s = true → 8192 ≤ s.gns.fifo.length → s.flag GNS_RTCM_STS_OVERFLOW = true → exec (.gnsRtcmData p v t) s =
      .next (hstSettle (S.wr GNS_RTCM_STS_OVERFLOW 1)))
    ∧ (gnsOn s = false → exec (.gnsRtcmData p v t) s = .next (hstSettle S)))
  ∧ (∀ (s : State) (t : Nat) (b l : List Byte) (eth : Bool),
    let src := if eth then s.net.rtcm else s.gns.fifo
    let s1 : State := if eth then { s.at t with net := { s.net with rtcm := l } } else ((s.at t).gn fun g => { g with fifo := l }).wr GNS_RTCM_STS_FILL l.length
    ((gnsOn s = false ∨ rtcmTake src = none) → exec (.rtcmFrame eth t) s = .next (hstSettle (s.at t)))
    ∧ (gnsOn s = true → rtcmTake src = some (b, false, l) → exec (.rtcmFrame eth t) s =
      .next (hstSettle (report (s1.incSat GNS_RTCM_STS_CRC_CNT 255) 0x050E)))
    ∧ (gnsOn s = true → rtcmTake src = some (b, true, l) → b ≠ [] → exec (.rtcmFrame eth t) s = .next (hstSettle (rtcmMessage s1 b)))
    ∧ (gnsOn s = true → rtcmTake src = some ([], true, l) → exec (.rtcmFrame eth t) s = .next (hstSettle s1)))

/-- O43. A filter channel of a running device whose tick has come, and which REF's cycle of the tick samples, takes its slot's component with
its validity instant, 0 marked BAD where the slot is stale or invalid; no other channel or instant takes a sample. In Pairs the samples of
a cycle that become whole are sent. REINIT and SWAP are kept for the next T0. SEAL of the standby bank counts a new generation where every
word is in its format, else reports BANK_FORMAT with the place of the first that is not and clears SEALED. A word written to the unused
standby bank with HOST_WR is stored and clears SEALED, elsewhere it is refused BANK_BUSY. A read of MEM_DATA answers the lane word at ADDR
and moves ADDR on; of a lane that the variant has not it answers 0. On a node the four requests do nothing. (R103, R184, R191, R192, R193,
R231) -/
def Obligations.SamplesBanksAndLaneMemory : Prop :=
  (∀ (s : State) (k m t : Nat),
    let S := s.at t
    let i := s.rd (FLT_CH_CFG_SLOT k)
    let l := at_ s.flt.live i slotZero
    let e := (slotEntry (s.sec 3) i).getD []
    let bad := liveStale e l S.now || l.invalid
    let x := if bad then 0 else l.vals.getD (s.rd (FLT_CH_CFG_COMP k)) 0
    let due : Bool := 2 ≤ s.rd SEQ_STATUS_STATE && refSamples s k m && k < s.rd FLT_STATUS_CHANNELS && s.flt.next.getD k 0 = m && tickAt s k m ≤ S.now
    let u : State := { S with flt := { s.flt with
      next := put_ s.flt.next k 0 (m + 1), smp := s.flt.smp ++ [⟨k, m, bad, x, l.tSrc.getD l.tArr - slotLat e⟩] } }
    (due = true → exec (.firSample k m t) s = .next (hstSettle (writesBlocks (fun _ => u) S)))
    ∧ (due = true → s.seq.cycs = [] → exec (.firSample k m t) s = .next (hstSettle u))
    ∧ (due = false → exec (.firSample k m t) s = .next (hstSettle (writesBlocks id S)))
    ∧ (due = false → s.seq.cycs = [] → exec (.firSample k m t) s = .next (hstSettle S)))
  ∧ (∀ (s : State) (p : Path) (t : Nat),
    let S := s.taken p t
    (s.lets p 0x80004 → s.isNode = false → exec (.oceReinit p t) s = .next (hstSettle (S.sq fun q => { q with reinit := true })))
    ∧ (s.lets p 0x80014 → s.isNode = false → exec (.oceBankSwap p t) s = .next (hstSettle (S.wr OCE_BANK_STS_SWAP_PEND 1)))
    ∧ (s.lets p 0x80004 → s.isNode = true → exec (.oceReinit p t) s = .next (hstSettle S))
    ∧ (s.lets p 0x80014 → s.isNode = true → exec (.oceBankSwap p t) s = .next (hstSettle S) ∧ exec (.oceBankSeal p t) s = .next (hstSettle S)))
  ∧ (∀ (s : State) (p : Path) (w t : Nat), s.lets p 0x80014 → s.isNode = false →
    let S := s.taken p t
    let b := 1 - s.rd OCE_BANK_STS_ACTIVE
    (bankBadWord s b = none → exec (.oceBankSeal p t) s = .next (hstSettle ((S.wr (bankSealed b) 1).incWrap (bankGen b))))
    ∧ (bankBadWord s b = some w → exec (.oceBankSeal p t) s = .next (hstSettle (report ((S.wr (bankSealed b) 0).wr OCE_BANK_STS_FMT_OFS (w / 64)) 0x040E))))
  ∧ (∀ (s : State) (p : Path) (b w v t : Nat), b < 2 → w < 16384 → s.lets p (0xA0000 + b * 0x10000 + w * 4) →
    let S := s.taken p t
    let open_ : Bool := s.flag OCE_BANK_CTRL_HOST_WR && s.rd OCE_BANK_STS_ACTIVE ≠ b && !s.flag (bankInUse b)
    (s.isNode = false → open_ = true → exec (.bankWordWrite p b w v t) s =
      .next (hstSettle ({ S with banks := sput (fun _ => (0 : Word)) s.banks (b * 16384 + w) (BitVec.ofNat 32 v) }.wr (bankSealed b) 0)))
    ∧ (s.isNode = false → open_ = false → exec (.bankWordWrite p b w v t) s = .next (hstSettle (refuse S 0x040D 0 w)))
    ∧ (s.isNode = true → exec (.bankWordWrite p b w v t) s = .next (hstSettle S)))
  ∧ (∀ (s : State) (p : Path) (l t : Nat), s.letsRead p (0x100014 + l * 0x1000) →
    let a := s.rd (SLV_LANE_MEM_ADDR_ADDR l)
    (l < s.lanes → exec (.laneMemDataRead p l t) s = .next (hstSettle (((s.taken p t).wr (SLV_LANE_MEM_ADDR_ADDR l) (a + 1)).emit (.read p (laneWord s l a)))))
    ∧ (s.lanes ≤ l → exec (.laneMemDataRead p l t) s = .next (hstSettle ((s.taken p t).emit (.read p 0)))))

/-- O44. With no injection waiting, a waiting job whose lane is free, unfenced and in time starts and has its data staged; one whose
descriptor is bad ends with the descriptor fault. A running job that ends in time ends with its result: a QP job for the selector, its
lane's buffer then taking the next job's data, a GNSS job for its epoch, an imported one for its sender. At its deadline a job not ended
ends DEADLINE with what it has kept, and the later ones of the cycle with it; on lanes 0 to 3 the cycle is missed, and reported as
repeated where it was replayed. A residue fault ends the running job RESIDUE, or BAD_DESC for a descriptor check, and is classed; a check
fault of a running observer or filter stage is classed as a fault that asks for a replay. Of a job that does not run, of a stage that does
not run, or with another mechanism it does nothing. (R34, R235, R245, R246, R247, R248, R249, R361) -/
def Obligations.LaneJobsAndComputingFaults : Prop :=
  (∀ (s : State) (lane j n t : Nat) (x : Job), s.err.inj = none →
    let S := s.at t
    let busy := (laneJobs s lane).any fun x => x.res.isNone && (x.started.isSome || (x.cyc = n && x.j < j))
    let goes : Bool := x.started.isNone && !busy && lane < 64 && !laneFenced s lane && !s.flag ERR_STATUS_FAIL_SILENT && max s.tim.cnt t ≤ x.deadline
    (jobAt s lane j n = some x → goes = true → descBad x = false → exec (.laneJobStart lane j n t) s = .next (hstSettle (stageJob (putStart S x) x)))
    ∧ (jobAt s lane j n = some x → goes = true → descBad x = true → exec (.laneJobStart lane j n t) s =
      .next (hstSettle (laneFault (stageJob (putStart S x) x) { x with started := some (max s.tim.cnt t) } 12 0 false)))
    ∧ ((jobAt s lane j n = none ∨ (jobAt s lane j n = some x ∧ goes = false)) → exec (.laneJobStart lane j n t) s = .next (hstSettle S)))
  ∧ (∀ (s : State) (lane j n t : Nat) (x : Job) (i : ImpJob),
    let S := s.at t
    let ends : Bool := x.started.isSome && max s.tim.cnt t ≤ x.deadline && lane < 64
    let r := { (if x.typ = 1 then runJob S x x.cap else gnsRun x x.cap) with endNs := jobEndNs S x }
    (jobAt s lane j n = some x → ends = true → imported s x = none → x.typ = 1 → exec (.laneJobEnd lane j n t) s =
      .next (hstSettle (stageNext (endJob S x r) x)))
    ∧ (jobAt s lane j n = some x → ends = true → imported (lastData S x r) x = none → x.typ ≠ 1 → exec (.laneJobEnd lane j n t) s =
      .next (hstSettle (gnsJobDone (gnsEnd (lastData S x r) x r) x r)))
    ∧ (jobAt s lane j n = some x → ends = true → imported (lastData S x r) x = some i → exec (.laneJobEnd lane j n t) s =
      .next (hstSettle (gnsFill (stageNext (endImport (lastData S x r) i r) x))))
    ∧ ((jobAt s lane j n = none ∨ (jobAt s lane j n = some x ∧ ends = false)) → exec (.laneJobEnd lane j n t) s = .next (hstSettle S)))
  ∧ (∀ (s : State) (lane j n point iter t : Nat) (x : Job),
    let S := s.at t
    let late : Bool := x.deadline ≤ max s.tim.cnt t && (x.typ ≠ 1 || lane < 64)
    let r := lateRes S x point iter
    let rest := (laneJobs s lane).filter fun y => y.cyc = n && j < y.j && y.typ = x.typ && y.res.isNone
    let u := rest.foldl (fun u y => jobLate u y { emptyRes 6 with endNs := jobEndNs u y }) (jobLate (lastData S x r) x r)
    let own : Bool := x.typ = 1 && lane < 4 && (imported u x).isNone
    (jobAt s lane j n = some x → late = true → own = true → exec (.laneJobDeadline lane j n point iter t) s =
      .next (hstSettle (missCycle (if repeating u (some n) then reportCyc u n 0x020C else u) n)))
    ∧ (jobAt s lane j n = some x → late = true → own = false → exec (.laneJobDeadline lane j n point iter t) s = .next (hstSettle u))
    ∧ (jobAt s lane j n = some x → late = false → exec (.laneJobDeadline lane j n point iter t) s = .next (hstSettle S))
    ∧ (jobAt s lane j n = none → exec (.laneJobDeadline lane j n point iter t) s = .next (hstSettle (gnsPlanLate S n))))
  ∧ (∀ (s : State) (x : Job) (r : JobRes) (i : ImpJob) (point iter : Nat),
    (imported s x = some i → jobLate s x r = gnsFill (endImport s i r))
    ∧ (imported s x = none → x.typ = 1 → jobLate s x r = endJob s x r)
    ∧ (imported s x = none → x.typ ≠ 1 → jobLate s x r = gnsFill (gnsJobLate (gnsEnd s x r) x))
    ∧ (lateRes s x point iter).status = 6 ∧ (lateRes s x point iter).endNs = jobEndNs s x
    ∧ (x.started.isSome = true → 1 ≤ (lateRes s x point iter).dlPoint ∧ (lateRes s x point iter).dlPoint ≤ 3 ∧ (lateRes s x point iter).cert = false))
  ∧ (∀ (s : State) (lane j n mech t : Nat) (x : Job),
    let S := s.at t
    let r := { emptyRes (if mech = 12 then 8 else 7) with endNs := jobEndNs S x }
    let f : FaultIn := ⟨mech, 1, x.lane, workCyc s x.cyc, 0, false, false, x.typ = 1⟩
    let hit : Bool := x.started.isSome && (mech = 1 || mech = 2 || mech = 12)
    (jobAt s lane j n = some x → hit = true → imported s x = none → x.typ = 1 → exec (.laneResidueFault lane j n mech t) s =
      .next (hstSettle (takeFault (endJob S x r) f)))
    ∧ (jobAt s lane j n = some x → hit = true → imported s x = none → x.typ ≠ 1 → exec (.laneResidueFault lane j n mech t) s =
      .next (hstSettle (gnsJobFault (takeFault (gnsEnd S x r) f) x)))
    ∧ (jobAt s lane j n = some x → hit = true → (imported s x).isSome = true → exec (.laneResidueFault lane j n mech t) s =
      .next (hstSettle (laneFault S x mech 0 false)))
    ∧ ((jobAt s lane j n = none ∨ (jobAt s lane j n = some x ∧ hit = false)) → exec (.laneResidueFault lane j n mech t) s = .next (hstSettle S)))
  ∧ (∀ (s : State) (n mech t : Nat) (ch : Option Nat),
    let S := s.at t
    let oce : Bool := (stageRuns s n 4 || stageRuns s n 5) && (mech = 1 || mech = 2)
    let fir : Bool := stageRuns s n 2 && mech = 1
    (oce = true → exec (.oceCheckFault n mech t) s = .next (hstSettle (takeFault S ⟨mech, 2, 0, workCyc s n, 0, false, false, true⟩)))
    ∧ (oce = false → exec (.oceCheckFault n mech t) s = .next (hstSettle S))
    ∧ (fir = true → exec (.firCheckFault n ch mech t) s =
      .next (hstSettle (takeFault S ⟨mech, if ch.isSome then 3 else 13, ch.getD 0, workCyc s n, 0, false, false, true⟩)))
    ∧ (fir = false → exec (.firCheckFault n ch mech t) s = .next (hstSettle S)))

/-- O45. A corrected word counts class C and is remembered; the second of an address takes it into the table of 64 hard addresses, a hard
address counts HARD_CORR alone. An uncorrectable word of host staging is reported alone, and not at all by the Mower; of the configuration
it stops the machine fail-silent with cause 2; the second one of a block written again stops it with cause 4, the first is a class-T
fault. In a running lane job it ends the job, in a running stage of observer or filters it is classed and asks for a replay; in an input
of a cycle it is classed and the cycle missed; in other areas it has their effect and is classed. What the Mower finds is classed without
the effect of a read. An armed injection on a unit strikes its next operation: a correction is noted and the operation runs, another
mechanism is classed in its place; an injection on another unit waits. A sequencer comparison that fails is a class-S fault with cause 1.
(R33, R34, R37, R362, R369, R370) -/
def Obligations.FaultsAreClassed : Prop :=
  (∀ (s : State) (unit index addr t : Nat) (w : Option Nat) (mower : Bool),
    let S := s.at t
    let f : FaultIn := ⟨3, unit, index, w.bind fun n => workCyc s n, addr, mower, false, false⟩
    let e := { S with err := { S.err with corr := if s.err.corr.contains addr then s.err.corr else addr :: s.err.corr } }
    let u := noteFault e f 1 (repeating s f.cyc)
    let hard : Bool := s.err.hard.contains addr
    let takes : Bool := s.err.corr.contains addr && u.err.hard.length < 64
    (hard = true → exec (.sramCorrected unit index addr w mower t) s = .next (hstSettle (S.incSat ERR_HARD_CORR_CNT 0xFFFFFF)))
    ∧ (hard = false → takes = false → exec (.sramCorrected unit index addr w mower t) s = .next (hstSettle u))
    ∧ (hard = false → takes = true → exec (.sramCorrected unit index addr w mower t) s = .next (hstSettle (report
        ({ u with err := { u.err with hard := addr :: u.err.hard } }.wr ERR_HARD_ENTRIES (u.err.hard.length + 1)) 0x0B06))))
  ∧ (∀ (s : State) (syn mower : Bool) (addr m typ t : Nat),
    let S := s.at t
    let mech := if syn then 5 else 4
    (mower = false → exec (.sramUncorrectable .host syn addr mower t) s = .next (hstSettle (report S 0x0B07)))
    ∧ (mower = true → exec (.sramUncorrectable .host syn addr mower t) s = .next (hstSettle S))
    ∧ exec (.sramUncorrectable .config syn addr mower t) s = .next (hstSettle (classS S ⟨mech, 11, 0, none, addr, mower, false, false⟩ 2))
    ∧ (mower = false → s.err.rewrote = some (m, typ) → exec (.sramUncorrectable (.block m typ) syn addr mower t) s =
      .next (hstSettle (classS S ⟨9, 9, 0, workCyc s m, addr, false, false, false⟩ 4)))
    ∧ (mower = false → s.err.rewrote ≠ some (m, typ) → exec (.sramUncorrectable (.block m typ) syn addr mower t) s =
      .next (hstSettle (takeFault { S with err := { S.err with rewrote := some (m, typ) } } ⟨mech, 9, 0, workCyc s m, addr, false, false, false⟩)))
    ∧ (mower = true → exec (.sramUncorrectable (.block m typ) syn addr mower t) s =
      .next (hstSettle (takeFault S ⟨mech, 9, 0, none, addr, true, false, false⟩))))
  ∧ (∀ (s : State) (syn : Bool) (addr n l j t : Nat) (ch : Option Nat) (x : Job) (d : Cyc),
    let S := s.at t
    let mech := if syn then 5 else 4
    let f (unit index : Nat) (replay : Bool) : FaultIn := ⟨mech, unit, index, workCyc s n, addr, false, false, replay⟩
    let m (unit index : Nat) : FaultIn := ⟨mech, unit, index, none, addr, true, false, false⟩
    let fi := if ch.isSome then 3 else 13
    let missed := takeFault S (f l j false)
    (jobAt s l j n = some x → x.started.isSome = true → exec (.sramUncorrectable (.lane l j n) syn addr false t) s =
      .next (hstSettle (laneFault S x mech addr false)))
    ∧ ((jobAt s l j n = none ∨ (jobAt s l j n = some x ∧ x.started = none)) → exec (.sramUncorrectable (.lane l j n) syn addr false t) s = .next (hstSettle S))
    ∧ exec (.sramUncorrectable (.lane l j n) syn addr true t) s = .next (hstSettle (takeFault S (m 1 l)))
    ∧ ((stageRuns s n 4 || stageRuns s n 5) = true → exec (.sramUncorrectable (.oce n) syn addr false t) s = .next (hstSettle (takeFault S (f 2 0 true))))
    ∧ ((stageRuns s n 4 || stageRuns s n 5) = false → exec (.sramUncorrectable (.oce n) syn addr false t) s = .next (hstSettle S))
    ∧ exec (.sramUncorrectable (.oce n) syn addr true t) s = .next (hstSettle (takeFault S (m 2 0)))
    ∧ (stageRuns s n 2 = true → exec (.sramUncorrectable (.fir n ch) syn addr false t) s = .next (hstSettle (takeFault S (f fi (ch.getD 0) true))))
    ∧ (stageRuns s n 2 = false → exec (.sramUncorrectable (.fir n ch) syn addr false t) s = .next (hstSettle S))
    ∧ exec (.sramUncorrectable (.fir n ch) syn addr true t) s = .next (hstSettle (takeFault S (m fi (ch.getD 0))))
    ∧ (s.cyc? n = some d → d.committed = false → d.missed = false → exec (.sramUncorrectable (.input n l j) syn addr false t) s =
      .next (hstSettle (if missed.flag ERR_STATUS_FAIL_SILENT then missed else missCycle (reportCyc missed n 0x0C02) n)))
    ∧ ((s.cyc? n = none ∨ (s.cyc? n = some d ∧ (d.committed = true ∨ d.missed = true))) →
      exec (.sramUncorrectable (.input n l j) syn addr false t) s = .next (hstSettle S)))
  ∧ (∀ (s : State) (syn : Bool) (addr i e n t : Nat),
    let S := s.at t
    let mech := if syn then 5 else 4
    let f (unit index : Nat) (cyc : Option Nat) (mower : Bool) : FaultIn := ⟨mech, unit, index, cyc, addr, mower, false, false⟩
    let at' (a : UeArea) (mower : Bool) (u : State) (g : FaultIn) : Prop := exec (.sramUncorrectable a syn addr mower t) s = .next (hstSettle (takeFault u g))
    at' (.slot i) false { S with flt := { S.flt with live := upd_ S.flt.live i slotZero fun l => { l with invalid := true } } } (f 0 0 none false)
    ∧ at' (.track i) false (acqTake (releaseCh S i)) (f 4 i none false) ∧ at' (.track i) true S (f 4 i none true)
    ∧ at' (.position e n) false (notRead S e n) (f 5 e (workCyc s n) false) ∧ at' (.position e n) true S (f 5 e none true)
    ∧ at' (.ethRx i) false (netCount S i 1) (f 6 i none false)
    ∧ at' (.ethTx i) false (if (s.port i).wire.isSome then S.emit (.badFcs i) else S) (f 6 i none false)
    ∧ at' (.canRx i) false (S.incSat (CAN_CNT_RX_LOST i) 255) (f 7 i none false) ∧ at' (.canTx i e) true S (f 7 i none true)
    ∧ at' (.record i) false (areaMark S (.record i)) (f 9 0 none false) ∧ at' (.record i) true (areaMark S (.record i)) (f 9 0 none true)
    ∧ at' (.snapshot n) false (updCyc S n fun c => { c with run := { c.run with snapOk := false } }) (f 10 0 (workCyc s n) false)
    ∧ at' (.checkpoint i) true (ckptLost S i) (f 10 0 none true))
  ∧ (∀ (s : State) (k m ee ll ve vl sof w0 dlc ts t : Nat) (ip q : Int) (esi rtr fcs full : Bool) (b : List Byte),
    let S := s.at t
    let s1 : State := { S.wr ERR_INJ_ARM 0 with err := { S.err with inj := none } }
    let f (unit : Nat) : FaultIn := ⟨m, unit, k, none, 0, false, true, false⟩
    let hit (unit : Nat) (x : Instr) (bad op : State → State) : Prop :=
      (s.err.inj = some (m, unit, k) → m ≠ 3 → exec x s = .next (hstSettle (takeFault (bad s1) (f unit))))
      ∧ (s.err.inj = some (m, unit, k) → m = 3 → exec x s = .next (hstSettle (op (noteFault s1 (f unit) 1 false))))
      ∧ (s.err.inj = some (m, unit + 1, k) → exec x s = .next (hstSettle (op S)))
    hit 4 (.loopUpdate k ip q ee ll ve vl t) (fun u => acqTake (releaseCh u k)) (loopUpdateOp k ip q ee ll ve vl t)
    ∧ hit 6 (.ethFrameRx k b fcs full ts t) (fun u => netCount u k 1) (ethFrameRxOp k b fcs full ts t)
    ∧ hit 7 (.canFrameRx k w0 dlc esi rtr b sof t) (fun u => u.incSat (CAN_CNT_RX_LOST k) 255) (canFrameRxOp k w0 dlc esi rtr b sof t))
  ∧ (∀ (s : State) (t : Nat),
    let n := s.rd SEQ_CYC_LO_CYC_LO
    exec (.seqCompare t) s = .next (hstSettle (classS (report (s.at t) 0x0B08) ⟨8, 8, 0, if s.rd SEQ_STATUS_STATE = 2 then some n else none, 0, false, false, false⟩ 1)))

/-- O46. FORCE_S stops the machine fail-silent with cause 6, CLR_CNT clears the three counters; an injection is armed where the evaluated
configuration allows it and its fields are in range, else refused 0x0B0A. A read of the journal window answers the word, 0 of an empty
slot, and moves on within the slot. The copy of the oldest final record that fails is reported, one that succeeds moves the mirror;
without NAND or such a record nothing happens. A Mower pass starts when it is due, or is late while one runs, and ends with its counts, a
waiting one then starting. A restart acts only while one is due, a structure is loaded and the machine is not fail-silent: it resumes, or
in Pairs joins the partner that sends or that resumes first. (R34, R368, R371, R378, R379, R388, R493) -/
def Obligations.ErrorCommandsAndRestart : Prop :=
  (∀ (s : State) (p : Path) (v t : Nat),
    let S := s.taken p t
    (s.lets p 0x250004 → exec (.forceS p t) s = .next (hstSettle (classS S ⟨11, 8, 0, none, 0, false, false, false⟩ 6)) ∧ exec (.clrCnt p t) s =
      .next (hstSettle (S.wrs [(ERR_CNT_C_COUNT, 0), (ERR_CNT_T_COUNT, 0), (ERR_CNT_P_COUNT, 0)])))
    ∧ (s.lets p 0x250028 → v < 2 ^ 31 →
      let m := bitsOf v 27 24
      let u := bitsOf v 23 16
      let ok := bit (s.rd SEC_POLICY_FLAGS) 3 && 1 ≤ m && m ≤ 4 && 1 ≤ u && u ≤ 7
      (ok = true → exec (.errInjArm p v t) s = .next (hstSettle
        (S.wrs [(ERR_INJ_ARM, 1), (ERR_INJ_MECH, m), (ERR_INJ_UNIT, u), (ERR_INJ_INDEX, bitsOf v 15 8)])))
      ∧ (ok = false → exec (.errInjArm p v t) s = .next (hstSettle (refuse S 0x0B0A))))
    ∧ (s.letsRead p 0x260020 →
      let w := s.rd JNL_RD_ADDR_WORD
      let x := ((s.jnlAt (s.rd JNL_RD_ADDR_SLOT)).map fun r => jnlWord r w).getD 0
      exec (.jnlRdDataRead p t) s = .next (hstSettle ((S.wr JNL_RD_ADDR_WORD ((w + 1) % 16384)).emit (.read p x)))))
  ∧ (∀ (s : State) (t : Nat) (good : Bool) (k : Nat) (r : JnlRec),
    let ok : Bool := s.flag JNL_STATUS_NAND_OK
    let r' := { r with copied := true }
    let u : State := { s.at t with jnl := { s.jnl with
      nand := r' :: s.jnl.nand, gapRun := false
      ring := if 64 ≤ k then s.jnl.ring.filter fun (e : Nat × JnlRec) => e.1 ≠ k
        else s.jnl.ring.map fun (e : Nat × JnlRec) => if e.1 = k then (e.1, r') else e } }
    ((nextCopy s = none ∨ ok = false) → exec (.journalMirrorCopy good t) s = .next (hstSettle (s.at t)))
    ∧ (nextCopy s = some (k, r) → ok = true → good = false → exec (.journalMirrorCopy good t) s = .next (hstSettle (report (s.at t) 0x0C06)))
    ∧ (nextCopy s = some (k, r) → ok = true → good = true → exec (.journalMirrorCopy good t) s =
      .next (hstSettle ((u.wr JNL_MIRROR_CYC r.n).incWrap JNL_NAND_PTR_PTR))))
  ∧ (∀ (s : State) (t skipped x : Nat),
    let now := max s.tim.cnt t
    let S := (s.at t).rc fun r => { r with mowerNext := now + usTicks 2000000 }
    let start (u : State) : State := { u.rc fun r => { r with mowerAt := some now, mowerDue := false } with err := { u.err with corr := [] } }
    let gone : Bool := (List.range 12).any fun d => [4, 5, 6].contains (s.rd (CLK_DOM_STS_STATE d))
    let ms := (now - x) / usTicks 1000
    let e (ms : Nat) (u : State) : State := ((u.wrs [(BKG_MOWER_SKIPPED, if gone then skipped else 0), (BKG_MOWER_PASS_MS, ms)]).incWrap BKG_MOWER_PASSES).rc
      fun r => { r with mowerAt := none }
    let ended := if ms < 4096 then e ms (s.at t) else e (s.at t).draw.1 (s.at t).draw.2
    (now < s.rcd.mowerNext → exec (.mowerPassStart t) s = .next (hstSettle (s.at t)))
    ∧ (s.rcd.mowerNext ≤ now → s.rcd.mowerAt = none → exec (.mowerPassStart t) s = .next (hstSettle (start S)))
    ∧ (s.rcd.mowerNext ≤ now → s.rcd.mowerAt.isSome = true → exec (.mowerPassStart t) s =
      .next (hstSettle (report ((S.rc fun r => { r with mowerDue := true }).wr BKG_STATUS_MOWER_LATE 1) 0x1106)))
    ∧ (s.rcd.mowerAt = none → exec (.mowerPassEnd skipped t) s = .next (hstSettle (s.at t)))
    ∧ (s.rcd.mowerAt = some x → s.rcd.mowerDue = false → exec (.mowerPassEnd skipped t) s = .next (hstSettle ended))
    ∧ (s.rcd.mowerAt = some x → s.rcd.mowerDue = true → exec (.mowerPassEnd skipped t) s = .next (hstSettle (start ended))))
  ∧ (∀ (s : State) (t : Nat),
    let S := (s.at t).sq fun q => { q with resumeDue := false, cycs := [] }
    let due : Bool := s.seq.resumeDue && s.loaded && !s.flag ERR_STATUS_FAIL_SILENT
    let joins : Bool := isPair s && s.flag RED_STATUS_PAIRED && (s.red.pSends || !pairLow s)
    (due = false → exec (.restartResume t) s = .next (hstSettle (s.at t)))
    ∧ (due = true → joins = true → exec (.restartResume t) s =
      .next (hstSettle (startChain (startRole ((enterArming S).rs fun x => { x with pState := 2 })) none)))
    ∧ (due = true → joins = false → isPair s = true → exec (.restartResume t) s =
      .next (hstSettle (resumeRun (S.wrs [(RED_STATUS_ROLE, 1), (RED_STATUS_SYNC, 0)]))))
    ∧ (due = true → isPair s = false → exec (.restartResume t) s = .next (hstSettle (resumeRun S))))

/-- O47. With no injection waiting, a sample that is due is taken: a running absolute channel's awaits a transfer that it owns, or shares a
forwarded one and takes its word when that has ended; a stopped or fenced one is NOT_READ; a quadrature sample 0 records the count, speed
and flags and clears the error. One not due, or beyond the channels or DIV, is not taken. A transfer's word ends the sample it was for. A
monoflop ends the channel's ownership or the forwarded transfer. A drive that clocks during ownership is counted, reported once per run;
one that clocks less than MONO after is not forwarded; a forwarded word ends the sample that shares it; an abandoned one ends it
RELAY_ABORT; any other clocking does nothing. In Pairs the blocks that become whole are sent; unpaired nothing more happens. (R261, R263,
R264, R266, R267, R268, R269) -/
def Obligations.EncoderChannels : Prop :=
  (∀ (s : State) (e n k t : Nat) (t0 : Int), s.err.inj = none →
    let S := s.at t
    let c := s.chan e
    let ts := sampleTime s e t0 k
    let B := updChan S e fun c => { c with base := some (n, t0, k + 1) }
    let due : Bool := e < s.rd FLD_STATUS_CHANNELS && k < max 1 (s.rd (FLD_POS_TIM_DIV e)) && decide (sampleDue S e n k = some t0)
    let quad : Bool := s.flag (FLD_POS_CFG_MODE e)
    let runs : Bool := chanRuns s e
    let gives (u : State) : Prop := exec (.encSample e n k t) s = .next (hstSettle (writesBlocks (fun _ => u) S))
    (due = true → quad = false → runs = true → c.relay = none → gives (updChan B e fun c => { c with xfer := some ⟨n, k, ts, false⟩, owns := true }))
    ∧ (due = true → quad = false → runs = true → ∀ r ∈ c.relay, r.word = none → gives (updChan B e fun c => { c with xfer := some ⟨n, k, r.tFirst, true⟩ }))
    ∧ (due = true → quad = false → runs = true → ∀ r ∈ c.relay, ∀ w ∈ r.word, gives (absSample B e ⟨n, k, r.tFirst, true⟩ (some w) 0))
    ∧ (due = true → quad = false → runs = false → gives (absSample B e ⟨n, k, ts, false⟩ none 7))
    ∧ (due = true → quad = true →
      let v := quadSpeed S e c (S.rawNow - (S.now - ts))
      let spd := if runs then v.1 else none
      let q := updChan B e fun c => { c with qerr := false, spd := spd }
      (k = 0 → gives (fieldResult q e n
        ⟨c.count, spd.getD 0, ts, runs, spd.isSome, c.qerr, false, v.2.1 && runs, v.2.2 && runs, if runs then 0 else 7⟩ (i32 (signed 32 c.count))))
      ∧ (k ≠ 0 → gives q))
    ∧ ((s.rd FLD_STATUS_CHANNELS ≤ e ∨ max 1 (s.rd (FLD_POS_TIM_DIV e)) ≤ k ∨ sampleDue S e n k = none) → gives S))
  ∧ (∀ (s u : State), u.flag RED_STATUS_PAIRED = false → writesBlocks (fun _ => u) s = u)
  ∧ (∀ (s : State) (e t : Nat) (w : EncWord) (x : EncXfer),
    let S := s.at t
    let gives (u : State) : Prop := exec (.encTransferEnd e w t) s = .next (hstSettle (writesBlocks (fun _ => u) S))
    ((s.chan e).xfer = some x → x.shared = false → gives (absSample S e x (some w) 0))
    ∧ (((s.chan e).xfer = none ∨ ((s.chan e).xfer = some x ∧ x.shared = true)) → gives S))
  ∧ (∀ (s : State) (e t : Nat),
    let S := s.at t
    ((s.chan e).owns = true → exec (.monoflopEnd e t) s = .next (hstSettle (updChan S e fun c => { c with owns := false, monoEnd := S.rawNow, deferRun := false })))
    ∧ ((s.chan e).owns = false → exec (.monoflopEnd e t) s = .next (hstSettle (updChan S e fun c => { c with relay := none }))))
  ∧ (∀ (s : State) (e t : Nat) (w : EncWord),
    let S := s.at t
    let c := s.chan e
    let on : Bool := !s.flag (FLD_POS_CFG_MODE e) && s.flag (FLD_POS_CFG_RELAY e) && groupRuns s 4
    let d := updChan (S.incSat (FLD_POS_CNT_RELAY_CNT e) 255) e fun c => { c with deferRun := true, monoEnd := S.rawNow }
    let gives (w : Option EncWord) (u : State) : Prop := exec (.relayTransfer e w t) s = .next (hstSettle (writesBlocks (fun _ => u) S))
    (on = true → c.owns = true → c.deferRun = false → gives none (report d 0x0907 e))
    ∧ (on = true → c.owns = true → c.deferRun = true → gives none d)
    ∧ (on = true → c.owns = false → c.relay = none → S.rawNow - c.monoEnd < ((s.rd (FLD_POS_TIM_MONO e) * 65536000 : Nat) : Int) →
      gives none (updChan S e fun c => { c with monoEnd := S.rawNow }))
    ∧ (on = true → c.owns = false → c.relay = none → ((s.rd (FLD_POS_TIM_MONO e) * 65536000 : Nat) : Int) ≤ S.rawNow - c.monoEnd →
      gives none (updChan S e fun c => { c with relay := some ⟨S.now, none⟩ }))
    ∧ (on = true → c.owns = false → c.xfer = none → ∀ r ∈ c.relay, gives (some w) (updChan S e fun c => { c with relay := some { r with word := some w } }))
    ∧ (on = true → c.owns = false → ∀ r ∈ c.relay, ∀ x ∈ c.xfer,
      gives (some w) (absSample (updChan S e fun c => { c with relay := some { r with word := some w } }) e x (some w) 0))
    ∧ ((on = false ∨ (c.owns = false ∧ c.relay.isSome)) → gives none S)
    ∧ ((on = false ∨ c.owns = true ∨ c.relay = none) → gives (some w) S))
  ∧ (∀ (s : State) (e t : Nat),
    let S := s.at t
    let c := s.chan e
    let gone := updChan S e fun c => { c with relay := none }
    (∀ r ∈ c.relay, r.word = none → c.xfer = none → exec (.relayAbort e t) s = .next (hstSettle gone))
    ∧ (∀ r ∈ c.relay, ∀ x ∈ c.xfer, r.word = none → exec (.relayAbort e t) s = .next (hstSettle (absSample gone e x none 6)))
    ∧ ((c.relay.bind fun r => if r.word.isSome then none else some r) = none → exec (.relayAbort e t) s = .next (hstSettle S)))

/-- O48. One legal edge of a running quadrature channel counts up where A leads B, else down, modulo 2^32, and joins the edges of its
direction at the instant of its capture less the filter's delay; both lines at once is an illegal edge, counted, reported once per run; of
a stopped or fenced one only the lines are taken, of an absolute one none. The accepted levels of the two pins follow. The index records
the count and with ZCLR clears it. An accepted level of an assigned pin sets its bit of FLD_LVL, inverted where INV is set; of an
unassigned pin nothing. A PWM output takes its new pattern when its period starts, unless the machine is fail-silent, or the outputs are
parked and the pin does not hold. (R257, R258, R259, R268, R269, R270) -/
def Obligations.QuadratureAndPins : Prop :=
  (∀ (s : State) (e t : Nat) (a b : Bool),
    let c := s.chan e
    let quad : Bool := e < s.rd FLD_STATUS_CHANNELS && s.flag (FLD_POS_CFG_MODE e)
    let up : Bool := if c.a != a then c.b != a else c.a == b
    let pa := s.rd (FLD_POS_PINS_PINS e) / 2 ^ 24 % 64
    let pb := s.rd (FLD_POS_PINS_PINS e) / 2 ^ 16 % 64
    let S := ((s.at t).wrBit (FLD_LVL_LEVEL (pa / 32)) (pa % 32) a).wrBit (FLD_LVL_LEVEL (pb / 32)) (pb % 32) b
    let at' := (s.at t).rawNow - (s.rd (FLD_PIN_CFG_FILT (if c.a == a then pb else pa)) * 409600 : Nat)
    let ill := updChan (S.incSat (FLD_POS_CNT_ILLEGAL e) 0xFFFF) e fun c =>
      { c with a := a, b := b, qerr := true, illRun := true, legal := 0, edges := [], dir := none }
    (quad = false → exec (.quadEdge e a b t) s = .next (hstSettle S))
    ∧ (quad = true → (chanRuns s e = false ∨ (c.a = a ∧ c.b = b)) → exec (.quadEdge e a b t) s = .next (hstSettle (updChan S e fun c => { c with a := a, b := b })))
    ∧ (quad = true → chanRuns s e = true → c.a ≠ a → c.b ≠ b → c.illRun = false → exec (.quadEdge e a b t) s = .next (hstSettle (report ill 0x0908 e)))
    ∧ (quad = true → chanRuns s e = true → c.a ≠ a → c.b ≠ b → c.illRun = true → exec (.quadEdge e a b t) s = .next (hstSettle ill))
    ∧ (quad = true → chanRuns s e = true → (c.a != a) = (c.b == b) → exec (.quadEdge e a b t) s = .next (hstSettle (updChan S e fun c => { c with
        a := a, b := b, illRun := false, legal := c.legal + 1, dir := some up, lastEdge := some at'
        count := (if up then c.count + 1 else c.count + (2 ^ 32 - 1)) % 2 ^ 32
        edges := if c.dir = some up then at' :: c.edges else [at'] }))))
  ∧ (∀ (s : State) (e t : Nat),
    let quad : Bool := e < s.rd FLD_STATUS_CHANNELS && s.flag (FLD_POS_CFG_MODE e) && chanRuns s e
    let S := (s.at t).wr (FLD_POS_ZCOUNT_ZCOUNT e) (s.chan e).count
    (quad = true → s.flag (FLD_POS_CFG_ZCLR e) = true → exec (.quadZEdge e t) s = .next (hstSettle (updChan S e fun c => { c with count := 0 })))
    ∧ (quad = true → s.flag (FLD_POS_CFG_ZCLR e) = false → exec (.quadZEdge e t) s = .next (hstSettle S))
    ∧ (quad = false → exec (.quadZEdge e t) s = .next (hstSettle (s.at t))))
  ∧ (∀ (s : State) (p t : Nat) (level : Bool),
    (p < 64 → s.rd (FLD_PIN_CFG_FUNC p) ≠ 0 → exec (.pinLevelAccept p level t) s =
      .next (hstSettle ((s.at t).wrBit (FLD_LVL_LEVEL (p / 32)) (p % 32) (level != s.flag (FLD_PIN_CFG_INV p)))))
    ∧ ((64 ≤ p ∨ s.rd (FLD_PIN_CFG_FUNC p) = 0) → exec (.pinLevelAccept p level t) s = .next (hstSettle (s.at t))))
  ∧ (∀ (s : State) (p t : Nat),
    let goes : Bool := !s.flag ERR_STATUS_FAIL_SILENT && (!s.fld.parked || s.flag (FLD_PIN_CFG_HOLD_LAST p))
    (goes = true → exec (.pwmPeriodStart p t) s = .next (hstSettle
      { s.at t with fld := { s.fld with pwm := s.fld.pwm.map fun w => if w.pin = p then { w with cur := w.next } else w } }))
    ∧ (goes = false → exec (.pwmPeriodStart p t) s = .next (hstSettle (s.at t))))

/-- O49. An accepted level of a named ball is kept and moves the pairs' timers; the reset ball's press starts, and its end within 50 ms to 3 s
resets the functions. A press of 3 s or more is queued as RESET_STUCK once. A test pulse, due by TP_PERIOD, notes the tested balls and, at
the end of its window, a ball missed twice faults its function TP_FAULT and a cross-shorted one CROSS_SHORT. A discrepancy beyond T_DISC
faults the function, STOP1 ends in STOP after T_STOP1, and one hand alone from rest for more than 500 ms is queued as SYNC once. A
readback wrong for more than two ticks and a dark pulse not read low fault their output; a dark pulse comes at most once a second and
alternates between the switches. Otherwise, and without a configuration, nothing but the SAFE time changes. (R287, R288, R289, R294, R295,
R296, R298) -/
def Obligations.SafetyInputsAndPulses : Prop :=
  (∀ (s : State) (x c : Nat) (l : Bool),
    let S := safAt s c
    let T := { S with saf := { S.saf with acc := setBit s.saf.acc x l } }
    let P := { S with saf := { S.saf with acc := setBit s.saf.acc x false } }
    let gives (u : State) : Prop := exec (.safeInputAccept x l c) s = .next (hstSettle u)
    let goes : Bool := x < 16 && s.saf.conf.isSome && bit (namedBalls s.sconf) x && bit s.saf.acc x != l
    (goes = true → resetBall s.sconf ≠ some x → gives (safPairs T c))
    ∧ (goes = true → resetBall s.sconf = some x → l = true → gives { T with saf := { T.saf with press := some c, stuck := false } })
    ∧ (goes = true → resetBall s.sconf = some x → l = false → gives (safPressEnd T c))
    ∧ (goes = false → gives S)
    ∧ (resetBall s.sconf = some x → exec (.resetPressEnd c) s = .next (hstSettle (safPressEnd P c)))
    ∧ (resetBall s.sconf = none → exec (.resetPressEnd c) s = .next (hstSettle S)))
  ∧ (∀ (s : State) (c p : Nat),
    (s.saf.press = some p → s.saf.stuck = false → 144000000 ≤ c - p → exec (.resetStuck c) s =
      .next (hstSettle (safQueue { safAt s c with saf := { (safAt s c).saf with stuck := true } } 0x0A0A 0)))
    ∧ (s.saf.press = some p → s.saf.stuck = true ∨ c - p < 144000000 → exec (.resetStuck c) s = .next (hstSettle (safAt s c)))
    ∧ (s.saf.press = none → exec (.resetStuck c) s = .next (hstSettle (safAt s c)) ∧ safPressEnd s c = s)
    ∧ (s.saf.press = some p →
      let u := { s with saf := { s.saf with press := none, stuck := false } }
      (2400000 ≤ c - p → c - p ≤ 144000000 → safPressEnd s c = safReset u) ∧ (c - p < 2400000 ∨ 144000000 < c - p → safPressEnd s c = u)))
  ∧ (∀ (s : State) (p raw c : Nat),
    let S := safAt s c
    let on : Bool := p < 2 && s.saf.conf.isSome && bit (u8 s.sconf 1) p
    let v := s.saf
    (on = true → pulseDue s p c = true → exec (.testPulseStart p raw c) s = .next (hstSettle { S with saf := { S.saf with
      stp := setBit v.stp p false, own := put_ v.own p 0 (allTested s.sconf (p + 1) &&& raw), cross := put_ v.cross p 0 (allTested s.sconf (2 - p) &&& raw),
      pulseAt := put_ v.pulseAt p none (some c) } }))
    ∧ (on = false ∨ pulseDue s p c = false → exec (.testPulseStart p raw c) s = .next (hstSettle S))
    ∧ (pulseDue s 0 c = clkDue (at_ v.pulseAt 0 none) (u16 s.sconf 2 * 48000) c
      ∧ pulseDue s 1 c = (clkDue (at_ v.pulseAt 1 none) (u16 s.sconf 2 * 48000) c && clkDue (at_ v.pulseAt 0 none) (u16 s.sconf 2 * 24000) c)))
  ∧ (∀ (s : State) (p low c : Nat),
    let S := safAt s c
    let v := s.saf
    let goes : Bool := p < 2 && s.saf.conf.isSome && bit (u8 s.sconf 1) p && !bit s.saf.stp p
      && clkDue (at_ v.pulseAt p none) ((u16 s.sconf 4 + 50) * 48) c
    let own := at_ v.own p 0
    let cross := at_ v.cross p 0
    let miss := (List.range 16).map fun i =>
      if bit (allTested s.sconf (p + 1)) i then (if bit own i && !bit low i then min (at_ v.miss i 0 + 1) 2 else 0) else at_ v.miss i 0
    let E := { S with saf := { S.saf with stp := setBit v.stp p true, own := put_ v.own p 0 0, cross := put_ v.cross p 0 0, miss := miss } }
    (goes = true → exec (.testPulseEnd p low c) s = .next (hstSettle ((List.range (safNfn s.sconf)).foldl (fun s f =>
      let bad : Bool := (List.range 16).any fun i => bit (testedBalls s.sconf f (p + 1)) i && at_ miss i 0 == 2
      let u := if bad then safFault s f 2 (some 0x0A05) else s
      if testedBalls s.sconf f (2 - p) &&& cross &&& low ≠ 0 then safFault u f 3 (some 0x0A06) else u) E)))
    ∧ (goes = false → exec (.testPulseEnd p low c) s = .next (hstSettle S)))
  ∧ (∀ (s : State) (f c : Nat),
    let S := safAt s c
    let e := fnEnt s.sconf f
    let known : Bool := f < safNfn s.sconf
    let late : Bool := (s.fn f).disc.any fun d => (d.map fun a => decide (u16 e 6 * 48000 < c - a)).getD false
    let one (a b : Option Nat) : Bool := (a.map fun x => decide (24000000 < c - x)).getD false && b.isNone
    let hand : Bool := known && fnType s.sconf f == 3 && (s.fn f).state == 0 && (s.fn f).rested && !(s.fn f).syncWait
      && (one (at_ (s.fn f).perm 0 none) (at_ (s.fn f).perm 1 none) || one (at_ (s.fn f).perm 1 none) (at_ (s.fn f).perm 0 none))
    let run : Bool := known && (s.fn f).state == 3 && decide (u16 e 10 * 48000 ≤ c - (s.fn f).tripAt)
    (known = true → late = true → exec (.discrepancyTimeout f c) s = .next (hstSettle (safFault S f 1 (some 0x0A04))))
    ∧ (known = false ∨ late = false → exec (.discrepancyTimeout f c) s = .next (hstSettle S))
    ∧ (run = true → exec (.stop1Expired f c) s = .next (hstSettle (updFn S f fun x => { x with state := 0 })))
    ∧ (run = false → exec (.stop1Expired f c) s = .next (hstSettle S))
    ∧ (hand = true → exec (.twoHandSyncTimeout f c) s =
      .next (hstSettle (safQueue (updFn S f fun x => { x with syncWait := true, syncSaid := true }) 0x0A08 f)))
    ∧ (hand = false → exec (.twoHandSyncTimeout f c) s = .next (hstSettle S)))
  ∧ (∀ (s : State) (o c : Nat) (side low : Bool),
    let S := safAt s c
    let D := { S with saf := { S.saf with darkSide := setBit s.saf.darkSide o (!side), darkAt := put_ s.saf.darkAt o none (some c) } }
    let on : Bool := o < 4 && s.saf.conf.isSome
    let wrong : Bool := 2 < at_ s.saf.wrong (2 * o) 0 || 2 < at_ s.saf.wrong (2 * o + 1) 0
    let dark : Bool := on && bit (u8 s.sconf 7) o && bit s.saf.cmd (2 * o) && bit s.saf.darkSide o == side && clkDue (at_ s.saf.darkAt o none) 48000000 c
    (on = true → wrong = true → exec (.readbackFault o c) s = .next (hstSettle (safOutFault S o)))
    ∧ (on = false ∨ wrong = false → exec (.readbackFault o c) s = .next (hstSettle S))
    ∧ (dark = true → low = true → exec (.darkPulse o side low c) s = .next (hstSettle D))
    ∧ (dark = true → low = false → exec (.darkPulse o side low c) s = .next (hstSettle (safOutFault D o)))
    ∧ (dark = false → exec (.darkPulse o side low c) s = .next (hstSettle S)))

/-- O50. A tick that is due counts, samples and checks the readback; where the two evaluations disagree or the memory fails it takes the
internal fault, also without a configuration. With a configuration and no internal fault the functions are evaluated and each output is
commanded by them. The mirror registers follow. A tick that is not due, or comes in SLEEP, does nothing. An internal fault puts every
function in FAULT with reason INTERNAL and every output off. A ratio of FRC to SRC outside 2,560 to 3,380 and a stopped FRC are internal
faults. The oldest queued event is reported, not in SLEEP. (R282, R284, R291, R297, R299, R301) -/
def Obligations.SafetyTickAndInternalFault : Prop :=
  (∀ (s : State) (raw rb c : Nat) (agree ecc : Bool),
    let S := safAt s c
    let acc := (List.range 16).foldl (fun a i => if bit (namedBalls s.sconf) i then a else setBit a i (bit raw i)) s.saf.acc
    let T := { S with saf := { S.saf with tickAt := some c, tick := s.saf.tick + 1, raw := raw % 65536, acc := acc } }
    let I := if agree && ecc then T else safInternal T
    let R := safReadback I rb
    let goes : Bool := !asleep s && clkDue s.saf.tickAt 12000 c
    (goes = true → s.saf.conf = none → exec (.safeTick raw rb agree ecc c) s = .next (hstSettle (safMirror R)))
    ∧ (goes = true → s.saf.conf.isSome = true →
      let E := if R.saf.internal then R else (List.range (safNfn s.sconf)).foldl safEval R
      let cmd := (List.range 4).foldl (fun m o => setBit (setBit m (2 * o) (outOn E o)) (2 * o + 1) (outOn E o)) 0
      exec (.safeTick raw rb agree ecc c) s = .next (hstSettle (safMirror { E with saf := { E.saf with cmd := cmd } })))
    ∧ (goes = false → exec (.safeTick raw rb agree ecc c) s = .next (hstSettle S)))
  ∧ (∀ (s : State) (o : Nat),
    (s.saf.conf = none ∨ s.saf.internal = true ∨ s.err.jtag = true ∨ outMap s.sconf o = 0 ∨ bit s.saf.rbFault o = true → outOn s o = false)
    ∧ (s.saf.conf.isSome = true → s.saf.internal = false → s.err.jtag = false → outMap s.sconf o ≠ 0 → bit s.saf.rbFault o = false →
      (outOn s o = true ↔ ∀ f < safNfn s.sconf, bit (outMap s.sconf o) f = true → (s.fn f).state = 2 ∨ (s.fn f).state = 3)))
  ∧ (∀ (s : State) (frc src c t f : Nat),
    let ok : Bool := asleep s || (2560 * src ≤ frc && frc ≤ 3380 * src)
    (ok = false → exec (.safeClockCheck frc src c) s = .next (hstSettle (safInternal (safAt s c))))
    ∧ (ok = true → exec (.safeClockCheck frc src c) s = .next (hstSettle (safAt s c)))
    ∧ exec (.frcStopWatchdog t) s = .next (hstSettle (safInternal { s.at t with saf := { s.saf with cmd := 0 } }))
    ∧ (s.saf.internal = true → safInternal s = s)
    ∧ (s.saf.internal = false → (safInternal s).saf.internal = true ∧ (safInternal s).saf.cmd = 0 ∧ (safInternal s).rd SAF_EVT_INTERNAL = 1
      ∧ (f < safNfn s.sconf → ((safInternal s).fn f).state = 4 ∧ ((safInternal s).fn f).why = 6)))
  ∧ (∀ (s : State) (t : Nat) (e : SafEvent) (l : List SafEvent),
    (asleep s = false → s.saf.queue = e :: l → exec (.safeEventDrain t) s =
      .next (hstSettle (report { s.at t with saf := { s.saf with queue := l } } e.code e.fn e.tick)))
    ∧ (asleep s = true ∨ s.saf.queue = [] → exec (.safeEventDrain t) s = .next (hstSettle (s.at t))))

/-- O51. With the ETH clock on its primary source a link comes up at 100 or 1,000 Mb/s full duplex, as SPEED_SEL fixes or as negotiated, with
its report, and the transmitter selects; any other mode and a loss take it down with their code, the frame on the wire being counted as
lost. With no injection waiting, a frame at a running, unfenced port whose link is up is counted overrun when the buffer is full, reported
once per run, bad by FCS or length, not mine by its destination, else classified with its ingress time; elsewhere it is not received. A
target's arrival lets the transmitter of an idle port select. The end of a frame counts it, also for its definition, keeps the egress time
of the Delay_Req waited for, and lets the transmitter select the next. While the port runs initialisation writes, is fenced, has no image
or the device is fail-silent, nothing is selected and nothing is taken into a queue. (R324, R332, R335, R336, R338, R339, R340) -/
def Obligations.EthernetLinksAndFrames : Prop :=
  (∀ (s : State) (p mbps t : Nat) (full mode : Bool),
    let S := s.at t
    let sel := s.rd (NET_CFG_SPEED_SEL p)
    let rate := if sel = 1 then 100 else if sel = 2 then 1000 else mbps
    let good : Bool := full && (rate == 100 || rate == 1000)
    let runs : Bool := p < 4 && onPrimary s 7
    let link : Bool := s.flag (NET_STATUS_LINK p)
    let d := updPort (S.wrs [(NET_STATUS_LINK p, 0), (NET_STATUS_SPEED p, 0)]) p fun x => { x with wire := none }
    let D := if (s.port p).wire.isSome then netCount d p 6 else d
    (runs = true → good = true → link = false → exec (.ethLinkUp p mbps full t) s =
      .next (hstSettle (netTry (report (S.wrs [(NET_STATUS_LINK p, 1), (NET_STATUS_SPEED p, if rate = 1000 then 2 else 1)]) 0x0701 p) p)))
    ∧ (runs = true → good = false → link = true → exec (.ethLinkUp p mbps full t) s = .next (hstSettle (netTry (report D 0x0703 p) p)))
    ∧ (runs = true → good = false → link = false → exec (.ethLinkUp p mbps full t) s = .next (hstSettle (report S 0x0703 p)))
    ∧ (runs = false ∨ (good = true ∧ link = true) → exec (.ethLinkUp p mbps full t) s = .next (hstSettle S))
    ∧ (p < 4 → link = true → exec (.ethLinkDown p mode t) s = .next (hstSettle (netTry (report D (if mode then 0x0703 else 0x0702) p) p)))
    ∧ (p < 4 → link = false → mode = true → exec (.ethLinkDown p mode t) s = .next (hstSettle (report S 0x0703 p)))
    ∧ (4 ≤ p ∨ (link = false ∧ mode = false) → exec (.ethLinkDown p mode t) s = .next (hstSettle S)))
  ∧ (∀ (s : State) (p ts t : Nat) (b : List Byte) (fcs full : Bool), s.err.inj = none →
    let runs : Bool := netOn s p && !bit (s.rd ERR_FENCE_PORT_NET) p && s.flag (NET_STATUS_LINK p)
    let S := updPort (s.at t) p fun x => { x with rxRun := false }
    let F := updPort (netCount (s.at t) p 4) p fun x => { x with rxRun := true }
    let long := if beN b 12 2 = 0x8100 then 1522 else 1518
    let whole : Bool := fcs && 60 ≤ b.length && b.length + 4 ≤ long
    let mine : Bool := slice b 0 6 = slice (s.netSec p) 0 6 || slice b 0 6 = broadcast || bit (u8 b 0) 0
    let gives (u : State) : Prop := exec (.ethFrameRx p b fcs full ts t) s = .next (hstSettle u)
    (runs = true → full = true → (s.port p).rxRun = false → gives (report F 0x0704 p))
    ∧ (runs = true → full = true → (s.port p).rxRun = true → gives F)
    ∧ (runs = true → full = false → whole = false → gives (netCount S p 1))
    ∧ (runs = true → full = false → whole = true → mine = false → gives (netCount S p 2))
    ∧ (runs = true → full = false → whole = true → mine = true → gives (classify S p b (ingressTime S p ts)))
    ∧ (runs = false → gives (s.at t)))
  ∧ (∀ (s : State) (p ts t : Nat) (f : TxFrame),
    let E := netCount (updPort (s.at t) p fun x => { x with wire := none }) p 5
    let C := match f.def_ with
      | some d => E.incWrap (NET_FDEF_STS_FRAMES p d)
      | none => E
    (s.err.inj = none → p < 4 → exec (.ethLaunch p t) s = .next (hstSettle (netTry (s.at t) p)))
    ∧ (s.err.inj = none → 4 ≤ p → exec (.ethLaunch p t) s = .next (hstSettle (s.at t)))
    ∧ ((s.port p).wire = some f → (f.dreq = none ∨ f.dreq ≠ s.tim.ptp.dreq.map DelayReqSt.seq) → exec (.ethTxComplete p ts t) s = .next (hstSettle (netTry C p)))
    ∧ ((s.port p).wire = some f → ∀ d ∈ s.tim.ptp.dreq, f.dreq = some d.seq → exec (.ethTxComplete p ts t) s =
      .next (hstSettle (netTry { C with tim := { C.tim with ptp := { C.tim.ptp with dreq := some { d with t3 := some (egressTime C p ts) } } } } p)))
    ∧ ((s.port p).wire = none → exec (.ethTxComplete p ts t) s = .next (hstSettle (s.at t))))
  ∧ (∀ (s : State) (p k : Nat) (f : TxFrame),
    let quiet : Bool := s.flag ERR_STATUS_FAIL_SILENT || bit (s.rd ERR_FENCE_PORT_NET) p || s.img.secs.isEmpty
    (quiet = true → netTry s p = s ∧ netHand s p k f = s) ∧ (initRuns s p = true ∨ (s.port p).wire.isSome = true → netTry s p = s))

/-- O52. With NET_MDIO_CMD idle, an address frame, a write and a read set the command's fields, GO_BUSY and NET_MDIO_DATA, and queue the
frame; while it is busy they change nothing. The frame on the wire is done: a read without an answer is reported. A host frame's end
clears GO_BUSY, sets NORESP for such a read and stores what was read; an initialisation write's read-back that differs is reported. The
next frame waiting starts, and after an initialisation frame the port's transmitter selects. With none on the wire nothing happens. (R333,
R334) -/
def Obligations.MdioFramesAreRun : Prop :=
  (∀ (s : State) (a : Path) (c45 : Bool) (phy x v t : Nat), s.lets a 0x214000 → s.lets a 0x214004 →
    let S := s.taken a t
    let W (c : Bool) (op : Nat) (d : State) := mdioQueue (d.wrs [(NET_MDIO_CMD_C45, b2n c), (NET_MDIO_CMD_OP, op), (NET_MDIO_CMD_PHYAD, phy), (NET_MDIO_CMD_REGAD, x),
        (NET_MDIO_CMD_NORESP, 0), (NET_MDIO_CMD_GO_BUSY, 1)]) [⟨true, phyPort s (phy % 32), c, op, phy % 32, x % 32, d.rd NET_MDIO_DATA_DATA, none⟩]
    let D := (endRun (S.wr NET_MDIO_DATA_DATA v) a)
    (s.flag NET_MDIO_CMD_GO_BUSY = false →
      exec (.mdioAddress a phy x v t) s = .next (hstSettle (W true 0 D))
      ∧ exec (.mdioWrite a c45 phy x v t) s = .next (hstSettle (W c45 1 D))
      ∧ exec (.mdioRead a c45 phy x t) s = .next (hstSettle (W c45 2 S)))
    ∧ (s.flag NET_MDIO_CMD_GO_BUSY = true → exec (.mdioRead a c45 phy x t) s = .next (hstSettle S)
      ∧ exec (.mdioAddress a phy x v t) s = .next (hstSettle (endRun S a)) ∧ exec (.mdioWrite a c45 phy x v t) s = .next (hstSettle (endRun S a))))
  ∧ (∀ (s : State) (data t v : Nat) (noresp : Bool) (o : MdioOp) (l : List MdioOp),
    let S := { s.at t with net := { s.net with mdio := l } }
    let miss : Bool := o.op == 2 && noresp
    let M := if miss then report S 0x0708 o.port else S
    let H := M.wrs [(NET_MDIO_CMD_GO_BUSY, 0), (NET_MDIO_CMD_NORESP, if miss then 1 else 0)]
    let gives (u : State) : Prop := exec (.mdioDone data noresp t) s = .next (hstSettle u)
    (s.net.mdio = [] → gives (s.at t))
    ∧ (s.net.mdio = o :: l → o.host = true → (o.op = 2 → noresp = false → gives (mdioStart (H.wr NET_MDIO_DATA_DATA data)))
      ∧ (o.op ≠ 2 ∨ noresp = true → gives (mdioStart H)))
    ∧ (s.net.mdio = o :: l → o.host = false →
      (o.verify = some v → miss = false → data % 65536 ≠ v → gives (netTry (mdioStart (report M 0x0709 o.port)) o.port))
      ∧ (o.verify = some v → miss = true ∨ data % 65536 = v → gives (netTry (mdioStart M) o.port))
      ∧ (o.verify = none → gives (netTry (mdioStart M) o.port))))

/-- O53. With no injection waiting, a received frame lowers REC and is matched to the probe set, the high-priority buffer and the filters, a
remote frame only counted; one at a controller that takes no part, or in internal loop-back, does nothing. Integration ends in active or
passive by the counts; a due probe is then settled or sent. An error of an attempt raises TEC by 8, but for an unacknowledged one of a
passive controller; a received error raises REC by 1, or 8 for a dominant bit after it; lost arbitration raises neither; the attempt's
buffer or probe fails. Above 255 the controller is bus-off, unless it monitors. An attempt that ends after a stop fails its buffer; a
controller that takes no part otherwise ignores it. Bus-off recovery clears the counts and integrates. A protocol exception with PEX_EN is
counted and, its run's first, reported. A probe without a reply by its time settles the GK5 set. (R347, R348, R349, R350, R357, R358,
R359, R447) -/
def Obligations.CanBusEvents : Prop :=
  (∀ (s : State) (c w0 dlc sof t : Nat) (esi rtr : Bool) (d : List Byte), s.err.inj = none →
    let S := s.at t
    let R := S.wr (CAN_STATUS_REC c) (if 127 < s.rd (CAN_STATUS_REC c) then 127 else s.rd (CAN_STATUS_REC c) - 1)
    let T := canService (canConfine (updCan R c fun x => { x with recovering := false, pexRun := false }) c) c
    let takes : Bool := canTakes s c && s.rd (CAN_CFG_LOOPBACK c) != 1
    let gives (u : State) : Prop := exec (.canFrameRx c w0 dlc esi rtr d sof t) s = .next (hstSettle u)
    (takes = true → rtr = true → gives (T.incSat (CAN_CNT_REMOTE_CNT c) 255))
    ∧ (takes = true → rtr = false → gives (canAccept (probeFrames T c w0 d) c w0 dlc esi d sof))
    ∧ (takes = false → gives S))
  ∧ (∀ (s : State) (c t : Nat),
    let S := (s.at t).wr (CAN_STATUS_STATE c) (if 128 ≤ s.rd (CAN_STATUS_TEC c) ∨ 128 ≤ s.rd (CAN_STATUS_REC c) then 3 else 2)
    let here : Bool := s.rd (CAN_STATUS_STATE c) == 1
    let due : Bool := (s.canOf c).probe.due
    let native : Bool := (nativeMinor s c).isSome
    let gives (u : State) : Prop := exec (.canIntegrated c t) s = .next (hstSettle u)
    (here = false → gives (s.at t))
    ∧ (here = true → due = false → gives S)
    ∧ (here = true → due = true → native = false → gives (settleSet S c true))
    ∧ (here = true → due = true → native = true → gk5Offered s c = false → gives (settleSet S c false))
    ∧ (here = true → due = true → native = true → gk5Offered s c = true →
      gives (updCan S c fun x => { x with probe := { x.probe with due := false, sending := true, lim := 0, waitTo := some (max s.tim.cnt t + 50000000) } })))
  ∧ (∀ (s : State) (c lec t : Nat) (phase dom : Bool) (tx : Option Nat),
    let S := s.at t
    let st := s.rd (CAN_STATUS_STATE c)
    let E := if lec = 0 then S else S.wrs [(CAN_ERR_LEC c, lec), (CAN_ERR_PHASE c, if phase then 1 else 0)]
    let up : Bool := lec != 0 && !(st == 3 && lec == 3 && !dom)
    let tec := if tx.isSome && up then s.rd (CAN_STATUS_TEC c) + 8 else s.rd (CAN_STATUS_TEC c)
    let R := if tx.isNone && lec ≠ 0 && st ≠ 5 then E.wr (CAN_STATUS_REC c) (min (s.rd (CAN_STATUS_REC c) + if dom then 8 else 1) 255) else E
    let V := canService (R.wr (CAN_STATUS_TEC c) (min tec 255)) c
    let off : Bool := 255 < tec && st != 5
    let ends (u : State) : State := if off then canBusOff u c else canConfine u c
    let gives (u : State) : Prop := exec (.canError c lec phase tx dom t) s = .next (hstSettle u)
    (st = 0 → (tx = none → gives S) ∧ (∀ b ∈ tx, gives (failAttempt S c b false)))
    ∧ (st ≠ 0 → canTakes s c = false → gives S)
    ∧ (canTakes s c = true → tx = none → gives (ends V))
    ∧ (canTakes s c = true → ∀ b ∈ tx,
      (b < 32 → off = true → s.rd (CAN_TXB_STS_KIND c b) = 1 → gives (canBusOff (V.incSat (CAN_TXB_STS_ATTEMPTS c b) 255) c))
      ∧ (b < 32 → off = false ∨ s.rd (CAN_TXB_STS_KIND c b) ≠ 1 → gives (ends (failAttempt V c b (lec == 3))))
      ∧ (b = 32 → gives (ends (failProbe V c (lec == 3))))
      ∧ (32 < b → gives (ends V))))
  ∧ (∀ (s : State) (c t : Nat),
    let S := s.at t
    let P := updCan (S.incSat (CAN_CNT_PEX_CNT c) 255) c fun x => { x with pexRun := true }
    let Q := if s.rd (CAN_STATUS_STATE c) = 5 then P else P.wr (CAN_STATUS_STATE c) 1
    let pex : Bool := canTakes s c && s.flag (CAN_CFG_PEX_EN c)
    (s.rd (CAN_STATUS_STATE c) = 4 → exec (.canBusoffRecovered c t) s = .next (hstSettle (report (canService (updCan
      (S.wrs [(CAN_STATUS_STATE c, 1), (CAN_STATUS_TEC c, 0), (CAN_STATUS_REC c, 0)]) c fun x => { x with recovering := true }) c) 0x0804 c)))
    ∧ (s.rd (CAN_STATUS_STATE c) ≠ 4 → exec (.canBusoffRecovered c t) s = .next (hstSettle S))
    ∧ (pex = true → exec (.canProtocolException c t) s = .next (hstSettle (if (s.canOf c).pexRun then Q else report Q 0x080A c)))
    ∧ (pex = false → exec (.canProtocolException c t) s = .next (hstSettle S))
    ∧ (∀ w ∈ (s.canOf c).probe.waitTo, w ≤ max s.tim.cnt t → exec (.canProbeTimeout c t) s = .next (hstSettle (settleSet S c true)))
    ∧ (∀ w ∈ (s.canOf c).probe.waitTo, max s.tim.cnt t < w → exec (.canProbeTimeout c t) s = .next (hstSettle S))
    ∧ ((s.canOf c).probe.waitTo = none → exec (.canProbeTimeout c t) s = .next (hstSettle S)))

/-- O54. With no injection waiting, a cycle buffer whose target has come is requested while the controller may send cycle frames. A sent
buffer's frame leaves with its header and data (not in internal loop-back), TEC falls by one, its attempts are counted and it ends SENT
with the count of its start of frame; a cancelled one is reported as late, the delay compensation and the loop-back reception follow, and
content that waited enters the buffer. The probe and its reply leave with the native set's version. CAN_TX_REQ requests the host buffers
written that are not pending, but at a stopped controller; CAN_TX_CANCEL ends those pending CANCELLED, and marks one whose frame is on the
bus. POP releases the head record of a queue, or the held high-priority frame. Anything else changes nothing. (R352, R353, R354, R355,
R356) -/
def Obligations.CanTransmitBuffersAndQueues : Prop :=
  (∀ (s : State) (c b t : Nat), s.err.inj = none →
    let due : Bool := ((s.txb c b).target.map fun x => due40 x (max s.tim.cnt t)).getD false
    let goes : Bool := b < 32 && due && !(s.txb c b).pend && cycleMaySend s c
    (goes = true → exec (.canTxLaunch c b t) s = .next (hstSettle (reqBuf (s.at t) c b)))
    ∧ (goes = false → exec (.canTxLaunch c b t) s = .next (hstSettle (s.at t))))
  ∧ (∀ (s : State) (c b sof tdcv t : Nat),
    let S := s.at t
    let good (g : State) : State :=
      let g := g.wr (CAN_STATUS_TEC c) (g.rd (CAN_STATUS_TEC c) - 1)
      canService (canConfine (updCan g c fun x => { x with recovering := false }) c) c
    let sends (w : Nat) (d : List Byte) : State := if s.rd (CAN_CFG_LOOPBACK c) = 1 then S else S.emit (.can c w d)
    let arg := probeArg s c
    let ver : List Byte := [1, BitVec.ofNat 8 ((nativeMinor s c).getD 0)]
    let w0 := bufW0 s c b
    let dlc := s.rd (CAN_TXB_STS_DLC c b)
    let d := bufData s c b (dlcLen (bit w0 30) dlc)
    let late : Bool := (s.txb c b).cancel
    let g := (good (sends w0 d)).incSat (CAN_TXB_STS_ATTEMPTS c b) 255
    let z := (((endBuf g c b 2).wrs [(CAN_TXB_TIME_LO_SOF_CNT c b, sof), (CAN_TXB_TIME_HI_SOF_CNT c b, sof / 2 ^ 32), (CAN_TXB_STS_CANCEL_LATE c b, if late then 1 else 0)]).wrBit
      (CAN_TX_DONE_BUF c) b true).wrBit (CAN_EVT_EVT c) 0 true
    let y := if late then report z 0x0807 c else z
    let tdc : Bool := y.flag (CAN_DBT_TDC_EN c) && bit w0 31
    let v := updCan (y.wr (CAN_STATUS_TDCV c) (min tdcv 127)) c fun x => { x with tdcRun := decide (127 ≤ tdcv) }
    let n := if tdc then (if 127 ≤ tdcv ∧ (y.canOf c).tdcRun = false then report v 0x080B c else v) else y
    let m := if n.rd (CAN_CFG_LOOPBACK c) = 0 then n else canAccept n c w0 dlc false d sof
    let gives (u : State) : Prop := exec (.canTxDone c b sof tdcv t) s = .next (hstSettle u)
    let ends : Bool := (s.txb c b).pend && attemptEnds s c sof
    (b < 32 → ends = true → gives (afterAttempt m c b))
    ∧ (b = 32 → (s.canOf c).probe.sending = true → gives (updCan (good (sends (arg * 2 ^ 18) ver)) c
      fun x => { x with probe := { x.probe with sending := false, waitTo := x.probe.waitTo.map fun _ => max s.tim.cnt t + 50000000 } }))
    ∧ (b = 33 → (s.canOf c).probe.reply = true →
      gives (updCan (good (sends ((arg + 1) * 2 ^ 18) ver)) c fun x => { x with probe := { x.probe with reply := false } }))
    ∧ (33 < b ∨ (b < 32 ∧ ends = false) ∨ (b = 32 ∧ (s.canOf c).probe.sending = false) ∨ (b = 33 ∧ (s.canOf c).probe.reply = false) → gives S))
  ∧ (∀ (s : State) (p : Path) (c v t : Nat), s.lets p (0x220020 + c * 0x1000) →
    (groupStopped s (8 + c) = false → exec (.canTxReq p c v t) s = .next (hstSettle ((List.range 32).foldl (fun u b =>
      if bit v b && u.rd (CAN_TXB_STS_KIND c b) = 2 && !(u.txb c b).pend then reqBuf u c b else u) (s.taken p t))))
    ∧ (groupStopped s (8 + c) = true → exec (.canTxReq p c v t) s = .next (hstSettle (s.taken p t))))
  ∧ (∀ (s : State) (p : Path) (c v t : Nat) (att : Option Nat), s.lets p (0x220024 + c * 0x1000) →
    exec (.canTxCancel p c v att t) s = .next (hstSettle ((List.range 32).foldl (fun u b =>
      if bit v b && u.rd (CAN_TXB_STS_KIND c b) = 2 && (u.txb c b).pend then
        (if att = some b then updTxb u c b fun x => { x with cancel := true } else endBuf u c b 3) else u) (s.taken p t))))
  ∧ (∀ (s : State) (p : Path) (c x t : Nat),
    let l := (at_ (s.canOf c).rxq x []).drop 1
    (s.lets p (0x220040 + c * 0x1000 + 4 * x) →
      (x < 2 → exec (.canRxqPop p c x t) s = .next (hstSettle
        ((updCan (s.taken p t) c fun y => { y with rxq := put_ y.rxq x [] l }).wr (CAN_RXQ_STS_FILL c x) l.length)))
      ∧ (2 ≤ x → exec (.canRxqPop p c x t) s = .next (hstSettle (s.taken p t))))
    ∧ (s.lets p (0x220048 + c * 0x1000) → exec (.canHpbPop p c t) s = .next (hstSettle
      ((updCan (s.taken p t) c fun x => { x with hpb := none }).wr (CAN_RXQ_STS_FILL c 2) 0))))

/-- O55. The agreement deadline settles a cycle not yet agreed: at once, on the own set, where no partner takes part; FULL where both sets are
whole; SOLO at the deadline where the partner's is not whole. PROMOTE and STAND_DOWN are kept for the next T0 where the role and the
partner allow them, else refused 0x0D0E; RESYNC starts attempts again; CLR_FEED zeroes the feed counters. A copied checkpoint is rebuilt,
the chain goes on from its last record, and the member is SYNCED, RESUMED and RESYNCED. A VAON feed's loss is counted and reported; a main
feed's loss selects the other, is counted and reported, and both feeds in warning write the LAST_GASP marker, in SLEEP only its count; a
feed neither lost nor in warning is selected again, awake, and reported where it had been lost. Otherwise nothing changes. (R391, R396,
R403, R404, R409, R410, R411, R412) -/
def Obligations.PairRequestsAndAgreement : Prop :=
  (∀ (s : State) (n t : Nat) (c : Cyc),
    let S := s.at t
    let gives (u : State) : Prop := exec (.agreeDeadline n t) s = .next (hstSettle u)
    let due : Bool := dueAt S c (s.rd RED_CFG_AGREE_DL) ≤ max s.tim.cnt t
    let own : Bool := (sampleBlock S c).isSome && (fieldBlock S c).isSome
    (s.cyc? n = none ∨ (s.cyc? n = some c ∧ c.run.agreed = true) → gives S)
    ∧ (s.cyc? n = some c → c.run.agreed = false →
      (partnerIn s n = false → gives (settleAgree S n false false))
      ∧ (partnerIn s n = true → partWhole s n = true → own = true → gives (settleAgree S n true false))
      ∧ (partnerIn s n = true → partWhole s n = false → due = true → gives (settleAgree S n false true))
      ∧ (partnerIn s n = true → (partWhole s n = true ∧ own = false) ∨ (partWhole s n = false ∧ due = false) → gives S)))
  ∧ (∀ (s : State) (p : Path) (t : Nat), s.lets p 0x270004 →
    let S := s.taken p t
    let up : Bool := s.rd RED_STATUS_ROLE == 3 && (s.rd RED_STATUS_SYNC == 3 || s.flag RED_STATUS_NO_PARTNER)
    let down : Bool := (s.rd RED_STATUS_ROLE == 1 || s.rd RED_STATUS_ROLE == 2) && s.flag RED_STATUS_PAIRED && s.flag RED_STATUS_PARTNER_OK && s.red.pSends
    let again : Bool := s.rd RED_STATUS_ROLE == 3 && s.rd RED_STATUS_SYNC == 0 && s.rd SEQ_STATUS_STATE != 0
    let B := (S.rs fun r => { r with gaveUp := false }).wr RED_RESYNC_ATTEMPTS 0
    (up = true → exec (.redPromote p t) s = .next (hstSettle (S.rs fun r => { r with promote := true })))
    ∧ (up = false → exec (.redPromote p t) s = .next (hstSettle (refuse S 0x0D0E)))
    ∧ (down = true → exec (.redStandDown p t) s = .next (hstSettle (S.rs fun r => { r with standDown := true })))
    ∧ (down = false → exec (.redStandDown p t) s = .next (hstSettle (refuse S 0x0D0E)))
    ∧ (again = true → exec (.redResync p t) s = .next (hstSettle (beginResync B)))
    ∧ (again = false → exec (.redResync p t) s = .next (hstSettle B))
    ∧ exec (.clrFeed p t) s = .next (hstSettle
      (S.wrs [(RED_FEED_CNT_A_LOSS, 0), (RED_FEED_CNT_B_LOSS, 0), (RED_FEED_CNT_VAON_LOSS, 0), (RED_FEED_CNT_LAST_GASP, 0)])))
  ∧ (∀ (s : State) (t : Nat) (z : ResyncSt) (k : Ckpt),
    let R := rebuild (s.at t) k z.recs
    let W := { R with alloc := { R.alloc with warm := !z.broken } }
    let C := match z.recs.getLast?.bind fun r => r.inp.map fun i => (r.n, i) with
      | some (n, i) =>
        let G := { W with seq := { W.seq with gens := i.gens } }
        if W.pst.joinAt.isSome then G else chainFrom_ G n i.t0c
      | none => W
    let copying : Bool := s.rd RED_STATUS_SYNC == 1 && s.rd SEQ_STATUS_STATE != 0
    (s.red.resync = some z → z.ckpt = some k → copying = true → exec (.resyncCopyDone t) s = .next (hstSettle ((fltResume C C.seq.nextN).wrs
      [(RED_STATUS_SYNC, 2), (RED_RESYNC_LAG, 0), (RED_RESYNC_CONFIRM, 0), (SEQ_STATUS_RESUMED, 1), (SEQ_STATUS_RESYNCED, 1)])))
    ∧ (copying = false ∨ s.red.resync.bind ResyncSt.ckpt = none → exec (.resyncCopyDone t) s = .next (hstSettle (s.at t))))
  ∧ (∀ (s : State) (x t : Nat) (on : Bool),
    let S := s.at t
    let known : Bool := x < 2
    let vaon := if x = 0 then RED_FEED_VAON_A_OK else RED_FEED_VAON_B_OK
    let lost := if x = 0 then RED_FEED_A_LOST else RED_FEED_B_LOST
    let other := if x = 0 then RED_FEED_B_LOST else RED_FEED_A_LOST
    let sel := if x = 0 then RED_FEED_FEEDSEL_A else RED_FEED_FEEDSEL_B
    let cnt := if x = 0 then RED_FEED_CNT_A_LOSS else RED_FEED_CNT_B_LOSS
    let warn := if x = 0 then RED_FEED_A_WARN else RED_FEED_B_WARN
    let L := S.wr lost 1
    let D := ((if s.flag other then L else L.wr sel 0).incSat cnt 255).rs fun r => { r with down := setBit r.down x true }
    let G := S.rs fun r => { r with gasp := false, down := setBit r.down x false }
    let F := if asleep s then G else G.wr sel 1
    let back : Bool := bit s.red.down x
    (known = true →
      (on = true → exec (.vaonLoss x on t) s = .next (hstSettle (report ((S.wr vaon 0).incSat RED_FEED_CNT_VAON_LOSS 255) 0x0D15 x)))
      ∧ (on = false → exec (.vaonLoss x on t) s = .next (hstSettle (S.wr vaon 1)))
      ∧ exec (.feedWarning x on t) s = .next (hstSettle (lastGasp (S.wr warn (if on then 1 else 0))))
      ∧ (on = true → exec (.feedLoss x on t) s = .next (hstSettle (lastGasp (report D 0x0D16 x))))
      ∧ (on = false → exec (.feedLoss x on t) s = .next (hstSettle (S.wr lost 0)))
      ∧ (s.flag warn = true ∨ s.flag lost = true → exec (.feedRestored x t) s = .next (hstSettle S))
      ∧ (s.flag warn = false → s.flag lost = false → exec (.feedRestored x t) s = .next (hstSettle (if back then report F 0x0D17 x else F))))
    ∧ (known = false → exec (.vaonLoss x on t) s = .next (hstSettle S) ∧ exec (.feedWarning x on t) s = .next (hstSettle S)
      ∧ exec (.feedLoss x on t) s = .next (hstSettle S) ∧ exec (.feedRestored x t) s = .next (hstSettle S)))
  ∧ (∀ (s : State),
    let both : Bool := (s.flag RED_FEED_A_WARN || s.flag RED_FEED_A_LOST) && (s.flag RED_FEED_B_WARN || s.flag RED_FEED_B_LOST)
    let C := (s.incSat RED_FEED_CNT_LAST_GASP 255).rs fun r => { r with gasp := true }
    let mark : JnlRec := ⟨s.rd SEQ_LAST_COMMIT_LAST_COMMIT, 5, 0, s.tim.cnt, imageTag s, none, none, none, 0, true, false⟩
    (both = false ∨ s.red.gasp = true → lastGasp s = s)
    ∧ (both = true → s.red.gasp = false → asleep s = true ∨ s.flag JNL_STATUS_NAND_OK = false → lastGasp s = C)
    ∧ (both = true → s.red.gasp = false → asleep s = false → s.flag JNL_STATUS_NAND_OK = true →
      lastGasp s = report ({ C with jnl := { C.jnl with nand := mark :: C.jnl.nand } }.incWrap JNL_NAND_PTR_PTR) 0x0D18))

/-- O56. The wake timer wakes a sleeping device that keeps one, and skips and counts a session that still runs. WAKE_N wakes a sleeping
device, is kept during a session or while no structure is loaded, else activates it. A session's end programs the checkpoint received into
the older slot, unless that failed or both feeds warn, and activates the device where WAKE_N has fallen or fewer than two members send,
else it sleeps again. An activated Reserve that finds no partner for 5 s rebuilds from its own checkpoint and reports NO_PARTNER. SLEEP of
RED_CTRL is taken where the device may sleep, else refused. Otherwise nothing changes. (R405, R406, R407, R408) -/
def Obligations.ReserveSessionsAndActivation : Prop :=
  (∀ (s : State) (t : Nat),
    let S := s.at t
    (asleep s = true → exec (.wakeN t) s = .next (hstSettle (S.ck fun x => { x with wake := x.wake ||| 1 })))
    ∧ (asleep s = true → s.red.wakeI ≠ 0 → exec (.reserveWakeTimer t) s = .next (hstSettle (S.ck fun x => { x with wake := x.wake ||| 2 })))
    ∧ (asleep s = false → s.red.mirror = true → s.rd RED_MIRROR_CFG_MIRROR_I ≠ 0 → exec (.reserveWakeTimer t) s =
        .next (hstSettle ((S.incSat RED_MIRROR_CNT_SKIPPED 0xFFFF).rs fun r => { r with skips := r.skips + 1 })))
    ∧ ((asleep s = true ∧ s.red.wakeI = 0) ∨ (asleep s = false ∧ (s.red.mirror = false ∨ s.rd RED_MIRROR_CFG_MIRROR_I = 0)) →
      exec (.reserveWakeTimer t) s = .next (hstSettle S))
    ∧ (asleep s = false → s.red.mirror = true ∨ s.loaded = false → exec (.wakeN t) s = .next (hstSettle (S.rs fun r => { r with wakeN := true })))
    ∧ (asleep s = false → s.red.mirror = false → s.loaded = true → exec (.wakeN t) s = .next (hstSettle (activate S)))
    ∧ (cascRole s ≠ 5 ∨ s.red.activated = true → activate s = s)
    ∧ (cascRole s = 5 → s.red.activated = false → activate s = reserveSeek (askMembers (report ((s.rs fun r =>
      { r with activated := true, mirror := false, wakeN := false, gaveUp := false }).wr RED_STATUS_ROLE 3) 0x0D11))))
  ∧ (∀ (s : State) (t : Nat) (ok : Bool) (k : Ckpt),
    let S := s.at t
    let kept : Option Ckpt := s.red.resync.bind ResyncSt.ckpt
    let put : Bool := ok && !s.red.gasp
    let P := if put then report ((nandCkPut S k).incWrap RED_MIRROR_CNT_SESSIONS) 0x0D0F else S
    let ends (u : State) : State :=
      let q := u.rs fun r => { r with mirror := false, resync := none }
      if s.red.few || s.red.wakeN then activate q else reserveSleep q
    (s.red.mirror = true → kept = some k → exec (.mirrorDone ok t) s = .next (hstSettle (ends P)))
    ∧ (s.red.mirror = true → kept = none → exec (.mirrorDone ok t) s = .next (hstSettle (ends S)))
    ∧ (s.red.mirror = false → exec (.mirrorDone ok t) s = .next (hstSettle S)))
  ∧ (∀ (s : State) (recs : List JnlRec) (t : Nat),
    let due : Bool := (s.red.since.map fun x => decide (x + 1250000000 ≤ max s.tim.cnt t)).getD false
    let goes : Bool := due && s.red.activated && !s.flag RED_STATUS_PAIRED && !s.red.gaveUp && !s.flag RED_STATUS_NO_PARTNER
    (goes = true → exec (.noPartnerTimeout recs t) s = .next (hstSettle (report ((rebuildAlone (enterArming (s.at t)) recs).wrs
        [(RED_STATUS_NO_PARTNER, 1), (RED_STATUS_ROLE, 3), (RED_STATUS_SYNC, 0), (SEQ_STATUS_RESUMED, 1)]) 0x0D13)))
    ∧ (goes = false → exec (.noPartnerTimeout recs t) s = .next (hstSettle (s.at t))))
  ∧ (∀ (s : State) (p : Path) (t : Nat), s.lets p 0x270004 →
    let may : Bool := cascRole s = 5 && s.red.activated && !s.flag RED_STATUS_PAIRED
    let pw := s.rd RST_PWR_STS_STATE
    (may = false → exec (.redSleep p t) s = .next (hstSettle (refuse (s.taken p t) 0x0D0E)))
    ∧ (may = true → pw = 1 ∨ pw = 3 → exec (.redSleep p t) s = .next (hstSettle (sleepEnter ((s.taken p t).rs fun r => { r with activated := false }))))
    ∧ (may = true → pw ≠ 1 → pw ≠ 3 → exec (.redSleep p t) s = .next (hstSettle (pwrRefuse (s.taken p t)))))

/-- O57. A POR, a PIN reset (outside SLEEP) and a SYS reset with the key put the main die into reset: no structure is loaded, the sequencer is
IDLE, no cycle is in flight, the safety configuration is discarded; the cause reads 1, 2 or 4 and the reset is counted; the image slots,
the NAND journal and the incident ring stay, and the kept counters and RED_CKPT_NAND with them. A wrong key is refused 0x0F0E; in SLEEP
nothing happens. An undervoltage of the running die is a PIN reset with the rails down, during SLEEP entry its last step, before the
release the rails only. Rails good start the sources. The die, once it may, is released to HOLD with its straps and its NAND layout, a
broken audit chain is reported, and it seeks an image; the PHY resets are released 10 ms later. (R464, R465, R471, R472, R551, R555, R556) -/
def Obligations.ResetsAndRelease : Prop :=
  (∀ (s : State) (k : Nat), k < 3 →
    let u := mainReset s k
    u.img.secs = [] ∧ u.rd IMG_STATUS_STATE = 0 ∧ u.rd SEQ_STATUS_STATE = 0 ∧ u.seq.cycs = [] ∧ u.saf.conf = none
      ∧ u.rd RST_PWR_STS_STATE = 0 ∧ u.img.slotA = s.img.slotA ∧ u.img.slotB = s.img.slotB ∧ u.jnl.nand = s.jnl.nand ∧ u.log.ring = s.log.ring
      ∧ u.rd RED_CKPT_NAND_CYC = s.rd RED_CKPT_NAND_CYC ∧ u.rd JNL_NAND_PTR_PTR = s.rd JNL_NAND_PTR_PTR ∧ (k ≠ 0 → u.rd RST_CNT_PIN_CNT = s.rd RST_CNT_PIN_CNT))
  ∧ (∀ (s : State),
    exec .por s = .next (hstSettle ((mainReset s 0).wrs
      [(RST_CAUSE_CAUSE, 1), (RED_FEED_VAON_A_OK, 1), (RED_FEED_VAON_B_OK, 1), (RED_FEED_FEEDSEL_A, 0), (RED_FEED_FEEDSEL_B, 0)]))
    ∧ (asleep s = false → exec .pinReset s = .next (hstSettle (((mainReset s 1).incSat RST_CNT_PIN_CNT 255).wr RST_CAUSE_CAUSE 2)))
    ∧ (asleep s = true → exec .pinReset s = .next (hstSettle s)))
  ∧ (∀ (s : State) (p : Path) (key t : Nat), s.lets p 0x20004 →
    let S := s.taken p t
    let keyed : Bool := key % 65536 == 0x5359
    (asleep s = false → keyed = true → exec (.sysReset p key t) s = .next (hstSettle (((mainReset S 2).incSat RST_CNT_SYS_CNT 255).wr RST_CAUSE_CAUSE 4)))
    ∧ (asleep s = false → keyed = false → exec (.sysReset p key t) s = .next (hstSettle (refuse S 0x0F0E)))
    ∧ (asleep s = true → exec (.sysReset p key t) s = .next (hstSettle S)))
  ∧ (∀ (s : State) (t src : Nat),
    let S := s.at t
    let out : Bool := s.clk.off.isSome
    let st := s.rd RST_PWR_STS_STATE
    let started (l : List Nat) (k : Nat) : List Nat := if bit s.clk.proven k then l else l.set k (max s.tim.cnt t)
    let low (u : State) : Prop := exec (.railUndervoltage src t) s = .next (hstSettle u)
    (out = true → exec (.railsGood t) s = .next (hstSettle S) ∧ low S)
    ∧ (out = false → exec (.railsGood t) s = .next (hstSettle (S.ck fun x =>
      { x with rails := true, run := x.run ||| 8 ||| (if xaFitted s then 4 else 0), since := started (started x.since 2) 3 })))
    ∧ (out = false → st = 5 → low (sleepDone S src false))
    ∧ (out = false → st ≠ 5 → s.clk.released = true →
      low (((mainReset (S.ck fun x => { x with rails := false, run := 3, proven := x.proven &&& 2 }) 1).incSat RST_CNT_PIN_CNT 255).wr RST_CAUSE_CAUSE 2))
    ∧ (out = false → st ≠ 5 → s.clk.released = false → low (S.ck fun x => { x with rails := false }))
    ∧ (s.clk.released = true → 2500000 ≤ max s.tim.cnt t → exec (.phyResetRelease t) s = .next (hstSettle (S.ck fun x => { x with phyRst := true })))
    ∧ (s.clk.released = false ∨ max s.tim.cnt t < 2500000 → exec (.phyResetRelease t) s = .next (hstSettle S)))
  ∧ (∀ (s : State) (straps blocks page block bad t : Nat) (solv clean : Bool),
    let S := s.at t
    let L := nandLayout (dieRelease (nandFresh S blocks page block) straps solv) blocks page block bad
    let fine : Bool := clean || L.sec_.nand.isEmpty
    let gives (u : State) : Prop := exec (.mainDieRelease straps solv blocks page block bad clean t) s = .next (hstSettle u)
    (mayRelease S = true → fine = true → gives (bootSeek L))
    ∧ (mayRelease S = true → fine = false → gives (bootSeek (auditFrom (report L 0x1015) (List.replicate 8 0) 0x1015 0)))
    ∧ (mayRelease S = false → gives S)
    ∧ (s.clk.off.isSome = true ∨ s.clk.released = true ∨ s.clk.rails = false → mayRelease S = false)
    ∧ (dieRelease S straps solv).clk.released = true ∧ (dieRelease S straps solv).rd RST_PWR_STS_STATE = 1 ∧ (dieRelease S straps solv).rd GLB_STRAP_BOOT = straps % 8
    ∧ (blocks ≠ 0 → s.rcd.geom ≠ [blocks, page, block] → (nandLayout S blocks page block bad).rd BKG_NAND_GEOM_BLOCKS = blocks % 2 ^ 24
      ∧ (nandLayout S blocks page block bad).flag JNL_STATUS_NAND_OK = true ∧ (nandLayout S blocks page block bad).rcd.geom = [blocks, page, block]))

/-- O58. DOZE from HOLD requests the gating of SOLV and GNSS-C and reads DOZE_ENTERING; from another awake state it is refused. WAKE in DOZE
starts the return, elsewhere it does nothing; held accesses whose clock runs follow. SLEEP from HOLD or DOZE, unless AON runs on its
fallback, begins the entry, with the safety outputs off and FRC stopped, else it is refused; asleep nothing happens. The end of the entry
puts the main die off from an SRC count on. A wake at least 328 SRC ticks later returns: SLEEP_CNT counts, the cause reads 32, and with
coarse time the time base resumes in holdover; without a cause, earlier, or outside SLEEP nothing happens. (R467, R468, R469, R470) -/
def Obligations.PowerStatesAreEntered : Prop :=
  (∀ (s : State) (p : Path) (t : Nat), s.lets p 0x20008 →
    let S := s.taken p t
    let st := s.rd RST_PWR_STS_STATE
    let may : Bool := (st == 1 || st == 3) && domState s 0 != 2
    (asleep s = true → exec (.pwrDoze p t) s = .next (hstSettle S) ∧ exec (.pwrSleep p t) s = .next (hstSettle S))
    ∧ (asleep s = false → st = 1 → exec (.pwrDoze p t) s = .next (hstSettle (dozeEnter (gateReq (gateReq (S.wr RST_PWR_STS_STATE 2) 3 2) 5 2))))
    ∧ (asleep s = false → st ≠ 1 → exec (.pwrDoze p t) s = .next (hstSettle (refuse (S.wr RST_PWR_STS_REFUSED 1) 0x0F0D)))
    ∧ (st ≠ 3 → exec (.pwrWake p t) s = .next (hstSettle (runHeld S)))
    ∧ (st = 3 → exec (.pwrWake p t) s = .next (hstSettle (runHeld (pwrWake S))))
    ∧ (asleep s = false → may = true → exec (.pwrSleep p t) s = .next (hstSettle (sleepEnter S)))
    ∧ (asleep s = false → may = false → exec (.pwrSleep p t) s = .next (hstSettle (refuse (S.wr RST_PWR_STS_REFUSED 1) 0x0F0D)))
    ∧ ((sleepEnter S).rd RST_PWR_STS_STATE = 5 ∧ (sleepEnter S).saf.conf = none ∧ bit (sleepEnter S).clk.run 0 = false
      ∧ ((sleepEnter S).tim.coarse = none ↔ s.rd TIM_QUAL_STATE = 0)))
  ∧ (∀ (s : State) (src t : Nat) (copied : Bool),
    let u := sleepDone (s.at t) src copied
    (s.rd RST_PWR_STS_STATE = 5 → exec (.sleepEntryComplete src t) s = .next (hstSettle (sleepDone (s.at t) src true)))
    ∧ (s.rd RST_PWR_STS_STATE ≠ 5 → exec (.sleepEntryComplete src t) s = .next (hstSettle (s.at t)))
    ∧ u.clk.off = some src ∧ u.saf.conf = none ∧ u.img.secs = [] ∧ u.rd RED_FEED_FEEDSEL_A = 0 ∧ u.rd RED_FEED_FEEDSEL_B = 0
    ∧ u.tim.coarse = s.tim.coarse ∧ u.img.slotA = s.img.slotA)
  ∧ (∀ (s : State) (src o : Nat),
    let R := ((s.ck fun x => { x with off := none, run := setBit x.run 0 true, wake := 0 }).rs fun r => { r with wakeN := bit s.clk.wake 0 }).incSat RST_CNT2_SLEEP_CNT 0xFFFF
    let W := R.wrs [(RST_CAUSE_CAUSE, 32), (RED_FEED_FEEDSEL_A, 1 - s.rd RED_FEED_A_LOST), (RED_FEED_FEEDSEL_B, 1 - s.rd RED_FEED_B_LOST)]
    let wakes : Bool := s.clk.wake != 0 && decide (o + 328 ≤ src)
    (s.clk.off = some o → wakes = true →
      (s.tim.coarse = none → exec (.sleepExit src) s = .next (hstSettle W))
      ∧ (∀ c ∈ s.tim.coarse, exec (.sleepExit src) s = .next (hstSettle (enterHoldover (W.tb fun t =>
        { t with coarse := none, cnt := 0, cntA := 0, tA := c.time + ((src * c.ratio : Nat) : Int), rate := 0 }) (61000 + src * c.ratio / 65536 / 10000)))))
    ∧ (s.clk.off = none ∨ (s.clk.off = some o ∧ wakes = false) → exec (.sleepExit src) s = .next (hstSettle s)))

/-- O59. With a proven reference and 10 s after the last run the FRC trim takes the code found at first, then steps against an error above 10
of ERR, and reports a bound code with an error above 50. A SerDes lane's state is kept at training and every second while its link is up,
and a failed training reported. A temperature, due every 100 ms, moves NOW and MAX; 140 °C and 150 °C set and 5 °C less clear their bits;
the tenth reading in a row above 155 °C is a class-S fault. A patrol of 7 days queues the worn pages, a refresh takes one off the queue
and is reported, a bad block takes a spare, or with none left a journal block, and spares below 0.5 % are reported once. What is not due,
or has no NAND, changes nothing. (R497, R498, R499, R500, R502, R503) -/
def Obligations.BackgroundActivities : Prop :=
  (∀ (s : State) (code t : Nat) (err : Int),
    let now := max s.tim.cnt t
    let lim := 50 < err.natAbs
    let W (c : Nat) := ((s.at t).rc fun r => { r with trimNext := now + 2500000000 }).wrs
      [(CLK_FRC_TRIM_CAL_VALID, 1), (CLK_FRC_TRIM_CODE, c), (CLK_FRC_TRIM_ERR, unsigned 16 err)]
    let R (c : Nat) := if (c = 0 ∨ c = 255) ∧ lim then report (W c) 0x110E else W c
    let old := s.rd CLK_FRC_TRIM_CODE
    let due : Bool := trimRef s && decide (s.rcd.trimNext ≤ now)
    (due = false → exec (.frcTrim code err t) s = .next (hstSettle (s.at t)))
    ∧ (due = true → s.flag CLK_FRC_TRIM_CAL_VALID = false → exec (.frcTrim code err t) s = .next (hstSettle (R (code % 256))))
    ∧ (due = true → s.flag CLK_FRC_TRIM_CAL_VALID = true →
      (10 < err → exec (.frcTrim code err t) s = .next (hstSettle (R (old - 1))))
      ∧ (err < -10 → exec (.frcTrim code err t) s = .next (hstSettle (R (min (old + 1) 255))))
      ∧ (-10 ≤ err → err ≤ 10 → exec (.frcTrim code err t) s = .next (hstSettle (R old)))))
  ∧ (∀ (s : State) (p t : Nat) (ok train : Bool),
    let S := (s.at t).rc fun r => { r with serdesNext := r.serdesNext.set p (max s.tim.cnt t + 250000000) }
    let D := if p < 4 then S.wrBit BKG_SERDES_NET p ok else if p < 6 then S.wrBit BKG_SERDES_PISTE (p - 4) ok else S.wr BKG_SERDES_PCIE (if ok then 1 else 0)
    let up : Bool := if p < 4 then s.flag (NET_STATUS_LINK p) else if p < 6 then 2 ≤ s.rd (PST_PORT_STS_STATE (p - 4)) else s.flag HST_STATUS_LINK_UP
    let due : Bool := p < 7 && (train || (up && decide (s.rcd.serdesNext.getD p 0 ≤ max s.tim.cnt t)))
    (due = true → exec (.serdesAdapt p ok train t) s = .next (hstSettle (if train = true ∧ ok = false then report D 0x110D else D)))
    ∧ (due = false → exec (.serdesAdapt p ok train t) s = .next (hstSettle (s.at t))))
  ∧ (∀ (s : State) (t : Nat) (v : Int),
    let now := max s.tim.cnt t
    let top := if s.rcd.tempRead then max (signed 16 (s.rd BKG_TEMP_MAX)) v else v
    let W := ((s.at t).rc fun r => { r with tempRead := true, tempNext := now + 25000000, hot := if 620 < v then r.hot + 1 else 0 }).wrs
      [(BKG_TEMP_NOW, unsigned 16 v), (BKG_TEMP_MAX, unsigned 16 top)]
    let level (u : State) (f : Fld) (on off : Int) (code : Nat) : State :=
      if u.flag f then (if v ≤ off then u.wr f 0 else u) else if on ≤ v then report (u.wr f 1) code else u
    let H := level (level W BKG_STATUS_TEMP_WARN 560 540 0x1107) BKG_STATUS_TEMP_HIGH 600 580 0x1108
    (s.rcd.tempNext ≤ now → ¬(s.rcd.hot = 9 ∧ 620 < v) → exec (.tempReading v t) s = .next (hstSettle H))
    ∧ (s.rcd.tempNext ≤ now → s.rcd.hot = 9 → 620 < v → exec (.tempReading v t) s = .next (hstSettle (classOther (report H 0x1109))))
    ∧ (now < s.rcd.tempNext → exec (.tempReading v t) s = .next (hstSettle (s.at t)))
    ∧ (classOther s).flag ERR_STATUS_FAIL_SILENT = true)
  ∧ (∀ (s : State) (worn maxE minE t : Nat),
    let S := s.at t
    let q := s.rd BKG_NAND_REFRESH_QUEUED
    let k := s.rd BKG_NAND_STS_SPARE
    let B := (S.incSat BKG_NAND_STS_BAD 65535).wr BKG_NAND_STS_SPARE (k - 1)
    let C := report (if k = 0 then nandRecords (B.rc fun r => { r with jnlBlocks := r.jnlBlocks - 1 }) else B) 0x110A
    (s.rd BKG_NAND_GEOM_BLOCKS ≠ 0 → s.rcd.patrolAt ≤ S.now → exec (.nandPatrol worn t) s = .next (hstSettle
      ((S.rc fun r => { r with patrolAt := S.now + 604800 * (Config.secUnit : Int) }).wr BKG_NAND_REFRESH_QUEUED (min (q + worn) 65535))))
    ∧ (s.rd BKG_NAND_GEOM_BLOCKS = 0 ∨ S.now < s.rcd.patrolAt → exec (.nandPatrol worn t) s = .next (hstSettle S))
    ∧ (q ≠ 0 → exec (.nandRefresh maxE minE t) s = .next (hstSettle (report ((S.wrs [(BKG_NAND_REFRESH_QUEUED, q - 1),
      (BKG_NAND_WEAR_MAX_ERASE, min maxE 65535), (BKG_NAND_WEAR_MIN_ERASE, min minE 65535)]).incWrap BKG_NAND_REFRESH_DONE) 0x110C)))
    ∧ (q = 0 → exec (.nandRefresh maxE minE t) s = .next (hstSettle S))
    ∧ (s.rd BKG_NAND_GEOM_BLOCKS ≠ 0 → exec (.nandBadBlock t) s = .next (hstSettle
      (if (k - 1) * 200 < s.rd BKG_NAND_GEOM_BLOCKS ∧ s.flag BKG_STATUS_SPARES_LOW = false then report (C.wr BKG_STATUS_SPARES_LOW 1) 0x110B else C)))
    ∧ (s.rd BKG_NAND_GEOM_BLOCKS = 0 → exec (.nandBadBlock t) s = .next (hstSettle S)))

/-- O60. FREEZE is kept pending until a commit, CLR_LOST zeroes the lost count, and the clears written are kept for the next commit. An
acknowledgement of an entry in the log frees the entries up to it that are also copied, and of none is refused 0x1105. A read answers the
next word of the entry at its place and after its eighth word goes to the next place. The oldest entry not yet copied goes into the NAND
ring, which keeps its ISEQ; with none, or without NAND, nothing happens. (R512, R516, R517, R518) -/
def Obligations.RecorderRequestsAndIncidentLog : Prop :=
  (∀ (s : State) (p : Path) (v w t : Nat) (trk : Bool),
    let S := s.taken p t
    let n := if trk then 4 else 2
    (s.lets p 0x290004 → exec (.freeze p t) s = .next (hstSettle (S.wr REC_STATUS_FREEZE_PEND 1))
      ∧ exec (.clrLost p t) s = .next (hstSettle (S.wr REC_LOG_LOST_LOST 0)))
    ∧ (w < n → trk = false → s.lets p (0x290018 + 4 * w) → exec (.recClr p trk w v t) s =
      .next (hstSettle (S.rc fun r => { r with clrHist := r.clrHist ||| v % 2 ^ 32 * 2 ^ (32 * w) })))
    ∧ (w < n → trk = true → s.lets p (0x290020 + 4 * w) → exec (.recClr p trk w v t) s =
      .next (hstSettle (S.rc fun r => { r with clrTrk := r.clrTrk ||| v % 2 ^ 32 * 2 ^ (32 * w) })))
    ∧ (n ≤ w → exec (.recClr p trk w v t) s = .next (hstSettle (s.at t))))
  ∧ (∀ (s : State) (p : Path) (v t : Nat), s.lets p 0x290048 →
    let S := s.taken p t
    let back := (s.rd REC_LOG_HEAD_ISEQ + 2 ^ 32 - v % 2 ^ 32) % 2 ^ 32
    (s.log.fill ≤ back → exec (.recLogAck p v t) s = .next (hstSettle (refuse S 0x1105)))
    ∧ (back < s.log.fill → exec (.recLogAck p v t) s = .next (hstSettle (logFree
      (({ S with log := { s.log with unacked := min s.log.unacked back } }).wr REC_LOG_ACK_ISEQ v)))))
  ∧ (∀ (s : State) (p : Path) (t : Nat), s.letsRead p 0x290054 →
    let S := s.taken p t
    let place := s.rd REC_LOG_RD_ADDR_ENTRY
    let r := logWord S place s.log.rdWord
    (s.log.rdWord = 7 → exec (.recLogRdDataRead p t) s = .next (hstSettle
      ((({ r.2 with log := { r.2.log with rdWord := 0 } }).wr REC_LOG_RD_ADDR_ENTRY (place + 1)).emit (.read p r.1))))
    ∧ (s.log.rdWord ≠ 7 → exec (.recLogRdDataRead p t) s = .next (hstSettle
      (({ r.2 with log := { r.2.log with rdWord := s.log.rdWord + 1 } }).emit (.read p r.1)))))
  ∧ (∀ (s : State) (t k : Nat) (e : Nat × Incident),
    let goes : Bool := s.flag JNL_STATUS_NAND_OK && 0 < s.log.unmirrored
    (goes = false ∨ s.log.held[s.log.unmirrored - 1]? = none → exec (.incidentMirrorCopy t) s = .next (hstSettle (s.at t)))
    ∧ (goes = true → s.log.held[s.log.unmirrored - 1]? = some e → exec (.incidentMirrorCopy t) s = .next (hstSettle (logFree
        (({ s.at t with log := { s.log with unmirrored := s.log.unmirrored - 1, ring := (e :: s.log.ring).take 1048576 } }).wr REC_LOG_MIRROR_ISEQ e.1))))
    ∧ (s.log.held.find? (fun x => x.1 % logPlaces = k) = some e →
      logWord s k 0 = (e.1, s) ∧ logWord s k 5 = (e.2.code % 65536 + e.2.source % 65536 * 65536, s)
      ∧ logWord s k 6 = (e.2.detail % 2 ^ 32, s) ∧ logWord s k 7 = (e.2.detail / 2 ^ 32 % 2 ^ 32, s)))
end

