-- ==== Sys2Proof/Laws/Sparse.lean ====
section
/-! SUPPORT. The laws of the sparse tables: what a read finds after a write, and that every operation keeps the canonical form. The laws
of reading hold of every list of pairs, canonical or not. -/

namespace Sys2Proof.Laws

open Sys2Proof Sys2Proof.Machine

variable {α : Type}

/-! ### Reads after writes -/

/-- A key that is kept reads as before; every other key reads as an unlisted one. -/
theorem sget_skeep (d : Nat → α) (p : Nat → Bool) (t : Sparse α) (k : Nat) :
    sget d (skeep p t) k = if p k then sget d t k else d k := by
  induction t with
  | nil => simp [skeep, sget]
  | cons e r ih =>
    obtain ⟨a, w⟩ := e
    simp only [skeep, List.filter_cons] at ih ⊢
    by_cases hp : p a = true
    · rw [if_pos hp]
      by_cases hka : a = k
      · subst hka; simp [sget, hp]
      · simp [sget, hka, ih]
    · rw [if_neg hp, ih]
      by_cases hka : a = k
      · subst hka; simp [hp]
      · simp [sget, hka]

theorem sget_senter_same (d : Nat → α) (t : Sparse α) (k : Nat) (v : α) (h : sget (fun _ => none) (t.map fun e => (e.1, some e.2)) k = none) :
    sget d (senter k v t) k = v := by
  induction t with
  | nil => simp [senter, sget]
  | cons e r ih =>
    obtain ⟨a, w⟩ := e
    by_cases hka : a = k
    · subst hka; simp [sget] at h
    · simp only [senter]
      split
      · simp [sget]
      · simp only [List.map_cons, sget, hka, if_false] at h
        simp [sget, hka, ih h]

theorem sget_senter_ne (d : Nat → α) (t : Sparse α) (k j : Nat) (v : α) (hj : j ≠ k) : sget d (senter k v t) j = sget d t j := by
  induction t with
  | nil => simp [senter, sget, Ne.symm hj]
  | cons e r ih =>
    obtain ⟨a, w⟩ := e
    simp only [senter]
    split
    · simp [sget, Ne.symm hj]
    · simp only [sget, ih]

theorem skeep_map (p : Nat → Bool) (t : Sparse α) :
    (skeep p t).map (fun e => (e.1, some e.2)) = skeep p (t.map fun e => (e.1, some e.2)) := by
  simp [skeep, List.filter_map, Function.comp_def]

/-- A read of the key written gives the value written. -/
@[simp] theorem sget_sput_same [DecidableEq α] (d : Nat → α) (t : Sparse α) (k : Nat) (v : α) : sget d (sput d t k v) k = v := by
  simp only [sput]
  split
  · rename_i hv
    rw [sget_skeep]
    simp [hv]
  · apply sget_senter_same
    rw [skeep_map, sget_skeep]
    simp

/-- A read of another key gives what it gave before. -/
theorem sget_sput_ne [DecidableEq α] (d : Nat → α) (t : Sparse α) (k j : Nat) (v : α) (hj : j ≠ k) :
    sget d (sput d t k v) j = sget d t j := by
  simp only [sput]
  split
  · rw [sget_skeep]; simp [hj]
  · rw [sget_senter_ne d _ k j v hj, sget_skeep]; simp [hj]

/-- What a table reads as after one write, at every key. -/
theorem sget_sput [DecidableEq α] (d : Nat → α) (t : Sparse α) (k j : Nat) (v : α) :
    sget d (sput d t k v) j = if j = k then v else sget d t j := by
  split
  · rename_i hj
    rw [hj, sget_sput_same]
  · rename_i hj
    exact sget_sput_ne d t k j v hj

/-! ### The canonical form -/

theorem sabove_mono {t : Sparse α} {a b : Nat} (h : sabove b t = true) (hab : a ≤ b) : sabove a t = true := by
  cases t with
  | nil => rfl
  | cons e r =>
    have hb : b < e.1 := by simpa [sabove] using h
    simp only [sabove, decide_eq_true_eq]
    omega

theorem sabove_skeep (p : Nat → Bool) {d : Nat → α} [DecidableEq α] {t : Sparse α} {b : Nat} (h : sabove b t = true) (hw : swf d t = true) :
    sabove b (skeep p t) = true := by
  induction t generalizing b with
  | nil => rfl
  | cons e r ih =>
    obtain ⟨a, w⟩ := e
    have hb : b < a := by simpa [sabove] using h
    simp only [swf, Bool.and_eq_true] at hw
    have hr := ih (sabove_mono hw.1.2 (Nat.le_refl _)) hw.2
    simp only [skeep, List.filter_cons] at hr ⊢
    split
    · simp [sabove, hb]
    · exact sabove_mono hr (by omega)

/-- Keeping some keys keeps the canonical form. -/
theorem swf_skeep [DecidableEq α] (d : Nat → α) (p : Nat → Bool) (t : Sparse α) (h : swf d t = true) : swf d (skeep p t) = true := by
  induction t with
  | nil => rfl
  | cons e r ih =>
    obtain ⟨a, w⟩ := e
    simp only [swf, Bool.and_eq_true] at h
    have hs := sabove_skeep p h.1.2 h.2
    have ih := ih h.2
    simp only [skeep, List.filter_cons] at hs ih ⊢
    split
    · simp only [swf, Bool.and_eq_true]
      exact ⟨⟨h.1.1, hs⟩, ih⟩
    · exact ih

theorem sabove_senter {t : Sparse α} {b k : Nat} (v : α) (h : sabove b t = true) (hk : b < k) : sabove b (senter k v t) = true := by
  cases t with
  | nil => simp [senter, sabove, hk]
  | cons e r =>
    have hb : b < e.1 := by simpa [sabove] using h
    simp only [senter]
    split <;> simp [sabove, hb, hk]

theorem swf_senter [DecidableEq α] (d : Nat → α) (t : Sparse α) (k : Nat) (v : α) (h : swf d t = true) (hv : v ≠ d k)
    (hk : ∀ e ∈ t, e.1 ≠ k) : swf d (senter k v t) = true := by
  induction t with
  | nil => simp [senter, swf, sabove, hv]
  | cons e r ih =>
    obtain ⟨a, w⟩ := e
    have h' := h
    simp only [swf, Bool.and_eq_true, decide_eq_true_eq] at h
    simp only [senter]
    split
    · rename_i hka
      simp only [swf, Bool.and_eq_true, decide_eq_true_eq]
      exact ⟨⟨hv, by simp [sabove, hka]⟩, h⟩
    · rename_i hka
      have hne : a ≠ k := hk (a, w) (by simp)
      simp only [swf, Bool.and_eq_true, decide_eq_true_eq]
      exact ⟨⟨h.1.1, sabove_senter v h.1.2 (by omega)⟩, ih h.2 fun e he => hk e (by simp [he])⟩

/-- A write keeps the canonical form. -/
theorem swf_sput [DecidableEq α] (d : Nat → α) (t : Sparse α) (k : Nat) (v : α) (h : swf d t = true) : swf d (sput d t k v) = true := by
  simp only [sput]
  split
  · exact swf_skeep d _ t h
  · rename_i hv
    refine swf_senter d _ k v (swf_skeep d _ t h) hv fun e he => ?_
    simpa [skeep] using (List.mem_filter.mp he).2

/-- A run of writes keeps the canonical form. -/
theorem swf_sputs [DecidableEq α] (d : Nat → α) (l : List α) (t : Sparse α) (k : Nat) (h : swf d t = true) :
    swf d (sputs d t k l) = true := by
  induction l generalizing t k with
  | nil => exact h
  | cons v r ih => exact ih _ _ (swf_sput d t k v h)

end Sys2Proof.Laws
end

