-- ==== Sys2Proof/Laws/State.lean ====
section
/-! SUPPORT. The state's updates, field by field: what each of the shared updates of Machine/Ops.lean leaves as it was, and what a register
field reads as after a write. -/

namespace Sys2Proof.Laws

open Sys2Proof Sys2Proof.Machine

/-! ### A register write touches the register file alone -/

@[simp] theorem wr_pending (s : State) (f : Fld) (v : Nat) : (s.wr f v).pending = s.pending := rfl
@[simp] theorem wr_shadow (s : State) (f : Fld) (v : Nat) : (s.wr f v).shadow = s.shadow := rfl
@[simp] theorem wr_free (s : State) (f : Fld) (v : Nat) : (s.wr f v).free = s.free := rfl
@[simp] theorem wr_sent (s : State) (f : Fld) (v : Nat) : (s.wr f v).sent = s.sent := rfl
@[simp] theorem wr_log (s : State) (f : Fld) (v : Nat) : (s.wr f v).log = s.log := rfl
@[simp] theorem wr_hst (s : State) (f : Fld) (v : Nat) : (s.wr f v).hst = s.hst := rfl
@[simp] theorem wr_tim (s : State) (f : Fld) (v : Nat) : (s.wr f v).tim = s.tim := rfl
@[simp] theorem wr_seq (s : State) (f : Fld) (v : Nat) : (s.wr f v).seq = s.seq := rfl
@[simp] theorem wr_img (s : State) (f : Fld) (v : Nat) : (s.wr f v).img = s.img := rfl
@[simp] theorem wr_flt (s : State) (f : Fld) (v : Nat) : (s.wr f v).flt = s.flt := rfl
@[simp] theorem wr_ref (s : State) (f : Fld) (v : Nat) : (s.wr f v).ref = s.ref := rfl
@[simp] theorem wr_oce (s : State) (f : Fld) (v : Nat) : (s.wr f v).oce = s.oce := rfl
@[simp] theorem wr_banks (s : State) (f : Fld) (v : Nat) : (s.wr f v).banks = s.banks := rfl
@[simp] theorem wr_alloc (s : State) (f : Fld) (v : Nat) : (s.wr f v).alloc = s.alloc := rfl
@[simp] theorem wr_lmem (s : State) (f : Fld) (v : Nat) : (s.wr f v).lmem = s.lmem := rfl
@[simp] theorem wr_fld (s : State) (f : Fld) (v : Nat) : (s.wr f v).fld = s.fld := rfl
@[simp] theorem wr_saf (s : State) (f : Fld) (v : Nat) : (s.wr f v).saf = s.saf := rfl
@[simp] theorem wr_net (s : State) (f : Fld) (v : Nat) : (s.wr f v).net = s.net := rfl
@[simp] theorem wr_can (s : State) (f : Fld) (v : Nat) : (s.wr f v).can = s.can := rfl
@[simp] theorem wr_err (s : State) (f : Fld) (v : Nat) : (s.wr f v).err = s.err := rfl
@[simp] theorem wr_jnl (s : State) (f : Fld) (v : Nat) : (s.wr f v).jnl = s.jnl := rfl
@[simp] theorem wr_red (s : State) (f : Fld) (v : Nat) : (s.wr f v).red = s.red := rfl
@[simp] theorem wr_pst (s : State) (f : Fld) (v : Nat) : (s.wr f v).pst = s.pst := rfl
@[simp] theorem wr_gns (s : State) (f : Fld) (v : Nat) : (s.wr f v).gns = s.gns := rfl
@[simp] theorem wr_sec_ (s : State) (f : Fld) (v : Nat) : (s.wr f v).sec_ = s.sec_ := rfl
@[simp] theorem wr_rcd (s : State) (f : Fld) (v : Nat) : (s.wr f v).rcd = s.rcd := rfl
@[simp] theorem wr_clk (s : State) (f : Fld) (v : Nat) : (s.wr f v).clk = s.clk := rfl

@[simp] theorem wrb_pending (s : State) (f : Fld) (b : Bool) : (s.wrb f b).pending = s.pending := rfl
@[simp] theorem wrb_shadow (s : State) (f : Fld) (b : Bool) : (s.wrb f b).shadow = s.shadow := rfl
@[simp] theorem wrb_free (s : State) (f : Fld) (b : Bool) : (s.wrb f b).free = s.free := rfl
@[simp] theorem wrb_sent (s : State) (f : Fld) (b : Bool) : (s.wrb f b).sent = s.sent := rfl
@[simp] theorem wrb_log (s : State) (f : Fld) (b : Bool) : (s.wrb f b).log = s.log := rfl
@[simp] theorem wrb_hst (s : State) (f : Fld) (b : Bool) : (s.wrb f b).hst = s.hst := rfl
@[simp] theorem wrb_tim (s : State) (f : Fld) (b : Bool) : (s.wrb f b).tim = s.tim := rfl
@[simp] theorem wrb_seq (s : State) (f : Fld) (b : Bool) : (s.wrb f b).seq = s.seq := rfl
@[simp] theorem wrb_img (s : State) (f : Fld) (b : Bool) : (s.wrb f b).img = s.img := rfl
@[simp] theorem wrb_flt (s : State) (f : Fld) (b : Bool) : (s.wrb f b).flt = s.flt := rfl
@[simp] theorem wrb_ref (s : State) (f : Fld) (b : Bool) : (s.wrb f b).ref = s.ref := rfl
@[simp] theorem wrb_oce (s : State) (f : Fld) (b : Bool) : (s.wrb f b).oce = s.oce := rfl
@[simp] theorem wrb_banks (s : State) (f : Fld) (b : Bool) : (s.wrb f b).banks = s.banks := rfl
@[simp] theorem wrb_alloc (s : State) (f : Fld) (b : Bool) : (s.wrb f b).alloc = s.alloc := rfl
@[simp] theorem wrb_lmem (s : State) (f : Fld) (b : Bool) : (s.wrb f b).lmem = s.lmem := rfl
@[simp] theorem wrb_fld (s : State) (f : Fld) (b : Bool) : (s.wrb f b).fld = s.fld := rfl
@[simp] theorem wrb_saf (s : State) (f : Fld) (b : Bool) : (s.wrb f b).saf = s.saf := rfl
@[simp] theorem wrb_net (s : State) (f : Fld) (b : Bool) : (s.wrb f b).net = s.net := rfl
@[simp] theorem wrb_can (s : State) (f : Fld) (b : Bool) : (s.wrb f b).can = s.can := rfl
@[simp] theorem wrb_err (s : State) (f : Fld) (b : Bool) : (s.wrb f b).err = s.err := rfl
@[simp] theorem wrb_jnl (s : State) (f : Fld) (b : Bool) : (s.wrb f b).jnl = s.jnl := rfl
@[simp] theorem wrb_red (s : State) (f : Fld) (b : Bool) : (s.wrb f b).red = s.red := rfl
@[simp] theorem wrb_pst (s : State) (f : Fld) (b : Bool) : (s.wrb f b).pst = s.pst := rfl
@[simp] theorem wrb_gns (s : State) (f : Fld) (b : Bool) : (s.wrb f b).gns = s.gns := rfl
@[simp] theorem wrb_sec_ (s : State) (f : Fld) (b : Bool) : (s.wrb f b).sec_ = s.sec_ := rfl
@[simp] theorem wrb_rcd (s : State) (f : Fld) (b : Bool) : (s.wrb f b).rcd = s.rcd := rfl
@[simp] theorem wrb_clk (s : State) (f : Fld) (b : Bool) : (s.wrb f b).clk = s.clk := rfl

@[simp] theorem wrBit_pending (s : State) (f : Fld) (i : Nat) (b : Bool) : (s.wrBit f i b).pending = s.pending := rfl
@[simp] theorem wrBit_shadow (s : State) (f : Fld) (i : Nat) (b : Bool) : (s.wrBit f i b).shadow = s.shadow := rfl
@[simp] theorem wrBit_free (s : State) (f : Fld) (i : Nat) (b : Bool) : (s.wrBit f i b).free = s.free := rfl
@[simp] theorem wrBit_sent (s : State) (f : Fld) (i : Nat) (b : Bool) : (s.wrBit f i b).sent = s.sent := rfl
@[simp] theorem wrBit_log (s : State) (f : Fld) (i : Nat) (b : Bool) : (s.wrBit f i b).log = s.log := rfl
@[simp] theorem wrBit_hst (s : State) (f : Fld) (i : Nat) (b : Bool) : (s.wrBit f i b).hst = s.hst := rfl
@[simp] theorem wrBit_tim (s : State) (f : Fld) (i : Nat) (b : Bool) : (s.wrBit f i b).tim = s.tim := rfl
@[simp] theorem wrBit_seq (s : State) (f : Fld) (i : Nat) (b : Bool) : (s.wrBit f i b).seq = s.seq := rfl
@[simp] theorem wrBit_img (s : State) (f : Fld) (i : Nat) (b : Bool) : (s.wrBit f i b).img = s.img := rfl
@[simp] theorem wrBit_flt (s : State) (f : Fld) (i : Nat) (b : Bool) : (s.wrBit f i b).flt = s.flt := rfl
@[simp] theorem wrBit_ref (s : State) (f : Fld) (i : Nat) (b : Bool) : (s.wrBit f i b).ref = s.ref := rfl
@[simp] theorem wrBit_oce (s : State) (f : Fld) (i : Nat) (b : Bool) : (s.wrBit f i b).oce = s.oce := rfl
@[simp] theorem wrBit_banks (s : State) (f : Fld) (i : Nat) (b : Bool) : (s.wrBit f i b).banks = s.banks := rfl
@[simp] theorem wrBit_alloc (s : State) (f : Fld) (i : Nat) (b : Bool) : (s.wrBit f i b).alloc = s.alloc := rfl
@[simp] theorem wrBit_lmem (s : State) (f : Fld) (i : Nat) (b : Bool) : (s.wrBit f i b).lmem = s.lmem := rfl
@[simp] theorem wrBit_fld (s : State) (f : Fld) (i : Nat) (b : Bool) : (s.wrBit f i b).fld = s.fld := rfl
@[simp] theorem wrBit_saf (s : State) (f : Fld) (i : Nat) (b : Bool) : (s.wrBit f i b).saf = s.saf := rfl
@[simp] theorem wrBit_net (s : State) (f : Fld) (i : Nat) (b : Bool) : (s.wrBit f i b).net = s.net := rfl
@[simp] theorem wrBit_can (s : State) (f : Fld) (i : Nat) (b : Bool) : (s.wrBit f i b).can = s.can := rfl
@[simp] theorem wrBit_err (s : State) (f : Fld) (i : Nat) (b : Bool) : (s.wrBit f i b).err = s.err := rfl
@[simp] theorem wrBit_jnl (s : State) (f : Fld) (i : Nat) (b : Bool) : (s.wrBit f i b).jnl = s.jnl := rfl
@[simp] theorem wrBit_red (s : State) (f : Fld) (i : Nat) (b : Bool) : (s.wrBit f i b).red = s.red := rfl
@[simp] theorem wrBit_pst (s : State) (f : Fld) (i : Nat) (b : Bool) : (s.wrBit f i b).pst = s.pst := rfl
@[simp] theorem wrBit_gns (s : State) (f : Fld) (i : Nat) (b : Bool) : (s.wrBit f i b).gns = s.gns := rfl
@[simp] theorem wrBit_sec_ (s : State) (f : Fld) (i : Nat) (b : Bool) : (s.wrBit f i b).sec_ = s.sec_ := rfl
@[simp] theorem wrBit_rcd (s : State) (f : Fld) (i : Nat) (b : Bool) : (s.wrBit f i b).rcd = s.rcd := rfl
@[simp] theorem wrBit_clk (s : State) (f : Fld) (i : Nat) (b : Bool) : (s.wrBit f i b).clk = s.clk := rfl

@[simp] theorem incSat_pending (s : State) (f : Fld) (m : Nat) : (s.incSat f m).pending = s.pending := rfl
@[simp] theorem incSat_shadow (s : State) (f : Fld) (m : Nat) : (s.incSat f m).shadow = s.shadow := rfl
@[simp] theorem incSat_free (s : State) (f : Fld) (m : Nat) : (s.incSat f m).free = s.free := rfl
@[simp] theorem incSat_sent (s : State) (f : Fld) (m : Nat) : (s.incSat f m).sent = s.sent := rfl
@[simp] theorem incSat_log (s : State) (f : Fld) (m : Nat) : (s.incSat f m).log = s.log := rfl
@[simp] theorem incSat_hst (s : State) (f : Fld) (m : Nat) : (s.incSat f m).hst = s.hst := rfl
@[simp] theorem incSat_tim (s : State) (f : Fld) (m : Nat) : (s.incSat f m).tim = s.tim := rfl
@[simp] theorem incSat_seq (s : State) (f : Fld) (m : Nat) : (s.incSat f m).seq = s.seq := rfl
@[simp] theorem incSat_img (s : State) (f : Fld) (m : Nat) : (s.incSat f m).img = s.img := rfl
@[simp] theorem incSat_flt (s : State) (f : Fld) (m : Nat) : (s.incSat f m).flt = s.flt := rfl
@[simp] theorem incSat_ref (s : State) (f : Fld) (m : Nat) : (s.incSat f m).ref = s.ref := rfl
@[simp] theorem incSat_oce (s : State) (f : Fld) (m : Nat) : (s.incSat f m).oce = s.oce := rfl
@[simp] theorem incSat_banks (s : State) (f : Fld) (m : Nat) : (s.incSat f m).banks = s.banks := rfl
@[simp] theorem incSat_alloc (s : State) (f : Fld) (m : Nat) : (s.incSat f m).alloc = s.alloc := rfl
@[simp] theorem incSat_lmem (s : State) (f : Fld) (m : Nat) : (s.incSat f m).lmem = s.lmem := rfl
@[simp] theorem incSat_fld (s : State) (f : Fld) (m : Nat) : (s.incSat f m).fld = s.fld := rfl
@[simp] theorem incSat_saf (s : State) (f : Fld) (m : Nat) : (s.incSat f m).saf = s.saf := rfl
@[simp] theorem incSat_net (s : State) (f : Fld) (m : Nat) : (s.incSat f m).net = s.net := rfl
@[simp] theorem incSat_can (s : State) (f : Fld) (m : Nat) : (s.incSat f m).can = s.can := rfl
@[simp] theorem incSat_err (s : State) (f : Fld) (m : Nat) : (s.incSat f m).err = s.err := rfl
@[simp] theorem incSat_jnl (s : State) (f : Fld) (m : Nat) : (s.incSat f m).jnl = s.jnl := rfl
@[simp] theorem incSat_red (s : State) (f : Fld) (m : Nat) : (s.incSat f m).red = s.red := rfl
@[simp] theorem incSat_pst (s : State) (f : Fld) (m : Nat) : (s.incSat f m).pst = s.pst := rfl
@[simp] theorem incSat_gns (s : State) (f : Fld) (m : Nat) : (s.incSat f m).gns = s.gns := rfl
@[simp] theorem incSat_sec_ (s : State) (f : Fld) (m : Nat) : (s.incSat f m).sec_ = s.sec_ := rfl
@[simp] theorem incSat_rcd (s : State) (f : Fld) (m : Nat) : (s.incSat f m).rcd = s.rcd := rfl
@[simp] theorem incSat_clk (s : State) (f : Fld) (m : Nat) : (s.incSat f m).clk = s.clk := rfl

@[simp] theorem incWrap_pending (s : State) (f : Fld) : (s.incWrap f).pending = s.pending := rfl
@[simp] theorem incWrap_shadow (s : State) (f : Fld) : (s.incWrap f).shadow = s.shadow := rfl
@[simp] theorem incWrap_free (s : State) (f : Fld) : (s.incWrap f).free = s.free := rfl
@[simp] theorem incWrap_sent (s : State) (f : Fld) : (s.incWrap f).sent = s.sent := rfl
@[simp] theorem incWrap_log (s : State) (f : Fld) : (s.incWrap f).log = s.log := rfl
@[simp] theorem incWrap_hst (s : State) (f : Fld) : (s.incWrap f).hst = s.hst := rfl
@[simp] theorem incWrap_tim (s : State) (f : Fld) : (s.incWrap f).tim = s.tim := rfl
@[simp] theorem incWrap_seq (s : State) (f : Fld) : (s.incWrap f).seq = s.seq := rfl
@[simp] theorem incWrap_img (s : State) (f : Fld) : (s.incWrap f).img = s.img := rfl
@[simp] theorem incWrap_flt (s : State) (f : Fld) : (s.incWrap f).flt = s.flt := rfl
@[simp] theorem incWrap_ref (s : State) (f : Fld) : (s.incWrap f).ref = s.ref := rfl
@[simp] theorem incWrap_oce (s : State) (f : Fld) : (s.incWrap f).oce = s.oce := rfl
@[simp] theorem incWrap_banks (s : State) (f : Fld) : (s.incWrap f).banks = s.banks := rfl
@[simp] theorem incWrap_alloc (s : State) (f : Fld) : (s.incWrap f).alloc = s.alloc := rfl
@[simp] theorem incWrap_lmem (s : State) (f : Fld) : (s.incWrap f).lmem = s.lmem := rfl
@[simp] theorem incWrap_fld (s : State) (f : Fld) : (s.incWrap f).fld = s.fld := rfl
@[simp] theorem incWrap_saf (s : State) (f : Fld) : (s.incWrap f).saf = s.saf := rfl
@[simp] theorem incWrap_net (s : State) (f : Fld) : (s.incWrap f).net = s.net := rfl
@[simp] theorem incWrap_can (s : State) (f : Fld) : (s.incWrap f).can = s.can := rfl
@[simp] theorem incWrap_err (s : State) (f : Fld) : (s.incWrap f).err = s.err := rfl
@[simp] theorem incWrap_jnl (s : State) (f : Fld) : (s.incWrap f).jnl = s.jnl := rfl
@[simp] theorem incWrap_red (s : State) (f : Fld) : (s.incWrap f).red = s.red := rfl
@[simp] theorem incWrap_pst (s : State) (f : Fld) : (s.incWrap f).pst = s.pst := rfl
@[simp] theorem incWrap_gns (s : State) (f : Fld) : (s.incWrap f).gns = s.gns := rfl
@[simp] theorem incWrap_sec_ (s : State) (f : Fld) : (s.incWrap f).sec_ = s.sec_ := rfl
@[simp] theorem incWrap_rcd (s : State) (f : Fld) : (s.incWrap f).rcd = s.rcd := rfl
@[simp] theorem incWrap_clk (s : State) (f : Fld) : (s.incWrap f).clk = s.clk := rfl

/-- A run of register writes changes no other part of the state. -/
theorem wrs_only_regs (s : State) (l : List (Fld × Nat)) : s.wrs l = { s with regs := (s.wrs l).regs } := by
  induction l generalizing s with
  | nil => rfl
  | cons p r ih =>
    show (s.wr p.1 p.2).wrs r = _
    rw [ih (s.wr p.1 p.2)]
    rfl

@[simp] theorem wrs_pending (s : State) (l : List (Fld × Nat)) : (s.wrs l).pending = s.pending := by rw [wrs_only_regs]
@[simp] theorem wrs_shadow (s : State) (l : List (Fld × Nat)) : (s.wrs l).shadow = s.shadow := by rw [wrs_only_regs]
@[simp] theorem wrs_free (s : State) (l : List (Fld × Nat)) : (s.wrs l).free = s.free := by rw [wrs_only_regs]
@[simp] theorem wrs_sent (s : State) (l : List (Fld × Nat)) : (s.wrs l).sent = s.sent := by rw [wrs_only_regs]
@[simp] theorem wrs_log (s : State) (l : List (Fld × Nat)) : (s.wrs l).log = s.log := by rw [wrs_only_regs]
@[simp] theorem wrs_hst (s : State) (l : List (Fld × Nat)) : (s.wrs l).hst = s.hst := by rw [wrs_only_regs]
@[simp] theorem wrs_tim (s : State) (l : List (Fld × Nat)) : (s.wrs l).tim = s.tim := by rw [wrs_only_regs]
@[simp] theorem wrs_seq (s : State) (l : List (Fld × Nat)) : (s.wrs l).seq = s.seq := by rw [wrs_only_regs]
@[simp] theorem wrs_img (s : State) (l : List (Fld × Nat)) : (s.wrs l).img = s.img := by rw [wrs_only_regs]
@[simp] theorem wrs_flt (s : State) (l : List (Fld × Nat)) : (s.wrs l).flt = s.flt := by rw [wrs_only_regs]
@[simp] theorem wrs_ref (s : State) (l : List (Fld × Nat)) : (s.wrs l).ref = s.ref := by rw [wrs_only_regs]
@[simp] theorem wrs_oce (s : State) (l : List (Fld × Nat)) : (s.wrs l).oce = s.oce := by rw [wrs_only_regs]
@[simp] theorem wrs_banks (s : State) (l : List (Fld × Nat)) : (s.wrs l).banks = s.banks := by rw [wrs_only_regs]
@[simp] theorem wrs_alloc (s : State) (l : List (Fld × Nat)) : (s.wrs l).alloc = s.alloc := by rw [wrs_only_regs]
@[simp] theorem wrs_lmem (s : State) (l : List (Fld × Nat)) : (s.wrs l).lmem = s.lmem := by rw [wrs_only_regs]
@[simp] theorem wrs_fld (s : State) (l : List (Fld × Nat)) : (s.wrs l).fld = s.fld := by rw [wrs_only_regs]
@[simp] theorem wrs_saf (s : State) (l : List (Fld × Nat)) : (s.wrs l).saf = s.saf := by rw [wrs_only_regs]
@[simp] theorem wrs_net (s : State) (l : List (Fld × Nat)) : (s.wrs l).net = s.net := by rw [wrs_only_regs]
@[simp] theorem wrs_can (s : State) (l : List (Fld × Nat)) : (s.wrs l).can = s.can := by rw [wrs_only_regs]
@[simp] theorem wrs_err (s : State) (l : List (Fld × Nat)) : (s.wrs l).err = s.err := by rw [wrs_only_regs]
@[simp] theorem wrs_jnl (s : State) (l : List (Fld × Nat)) : (s.wrs l).jnl = s.jnl := by rw [wrs_only_regs]
@[simp] theorem wrs_red (s : State) (l : List (Fld × Nat)) : (s.wrs l).red = s.red := by rw [wrs_only_regs]
@[simp] theorem wrs_pst (s : State) (l : List (Fld × Nat)) : (s.wrs l).pst = s.pst := by rw [wrs_only_regs]
@[simp] theorem wrs_gns (s : State) (l : List (Fld × Nat)) : (s.wrs l).gns = s.gns := by rw [wrs_only_regs]
@[simp] theorem wrs_sec_ (s : State) (l : List (Fld × Nat)) : (s.wrs l).sec_ = s.sec_ := by rw [wrs_only_regs]
@[simp] theorem wrs_rcd (s : State) (l : List (Fld × Nat)) : (s.wrs l).rcd = s.rcd := by rw [wrs_only_regs]
@[simp] theorem wrs_clk (s : State) (l : List (Fld × Nat)) : (s.wrs l).clk = s.clk := by rw [wrs_only_regs]

/-! ### Time, the interfaces, the free values, the security block -/

@[simp] theorem at_pending (s : State) (t : Nat) : (s.at t).pending = s.pending := rfl
@[simp] theorem at_regs (s : State) (t : Nat) : (s.at t).regs = s.regs := rfl
@[simp] theorem at_shadow (s : State) (t : Nat) : (s.at t).shadow = s.shadow := rfl
@[simp] theorem at_free (s : State) (t : Nat) : (s.at t).free = s.free := rfl
@[simp] theorem at_sent (s : State) (t : Nat) : (s.at t).sent = s.sent := rfl
@[simp] theorem at_log (s : State) (t : Nat) : (s.at t).log = s.log := rfl
@[simp] theorem at_hst (s : State) (t : Nat) : (s.at t).hst = s.hst := rfl
@[simp] theorem at_seq (s : State) (t : Nat) : (s.at t).seq = s.seq := rfl
@[simp] theorem at_img (s : State) (t : Nat) : (s.at t).img = s.img := rfl
@[simp] theorem at_flt (s : State) (t : Nat) : (s.at t).flt = s.flt := rfl
@[simp] theorem at_ref (s : State) (t : Nat) : (s.at t).ref = s.ref := rfl
@[simp] theorem at_oce (s : State) (t : Nat) : (s.at t).oce = s.oce := rfl
@[simp] theorem at_banks (s : State) (t : Nat) : (s.at t).banks = s.banks := rfl
@[simp] theorem at_alloc (s : State) (t : Nat) : (s.at t).alloc = s.alloc := rfl
@[simp] theorem at_lmem (s : State) (t : Nat) : (s.at t).lmem = s.lmem := rfl
@[simp] theorem at_fld (s : State) (t : Nat) : (s.at t).fld = s.fld := rfl
@[simp] theorem at_saf (s : State) (t : Nat) : (s.at t).saf = s.saf := rfl
@[simp] theorem at_net (s : State) (t : Nat) : (s.at t).net = s.net := rfl
@[simp] theorem at_can (s : State) (t : Nat) : (s.at t).can = s.can := rfl
@[simp] theorem at_err (s : State) (t : Nat) : (s.at t).err = s.err := rfl
@[simp] theorem at_jnl (s : State) (t : Nat) : (s.at t).jnl = s.jnl := rfl
@[simp] theorem at_red (s : State) (t : Nat) : (s.at t).red = s.red := rfl
@[simp] theorem at_pst (s : State) (t : Nat) : (s.at t).pst = s.pst := rfl
@[simp] theorem at_gns (s : State) (t : Nat) : (s.at t).gns = s.gns := rfl
@[simp] theorem at_sec_ (s : State) (t : Nat) : (s.at t).sec_ = s.sec_ := rfl
@[simp] theorem at_rcd (s : State) (t : Nat) : (s.at t).rcd = s.rcd := rfl
@[simp] theorem at_clk (s : State) (t : Nat) : (s.at t).clk = s.clk := rfl

@[simp] theorem emit_pending (s : State) (e : Emit) : (s.emit e).pending = s.pending := rfl
@[simp] theorem emit_regs (s : State) (e : Emit) : (s.emit e).regs = s.regs := rfl
@[simp] theorem emit_shadow (s : State) (e : Emit) : (s.emit e).shadow = s.shadow := rfl
@[simp] theorem emit_free (s : State) (e : Emit) : (s.emit e).free = s.free := rfl
@[simp] theorem emit_log (s : State) (e : Emit) : (s.emit e).log = s.log := rfl
@[simp] theorem emit_hst (s : State) (e : Emit) : (s.emit e).hst = s.hst := rfl
@[simp] theorem emit_tim (s : State) (e : Emit) : (s.emit e).tim = s.tim := rfl
@[simp] theorem emit_seq (s : State) (e : Emit) : (s.emit e).seq = s.seq := rfl
@[simp] theorem emit_img (s : State) (e : Emit) : (s.emit e).img = s.img := rfl
@[simp] theorem emit_flt (s : State) (e : Emit) : (s.emit e).flt = s.flt := rfl
@[simp] theorem emit_ref (s : State) (e : Emit) : (s.emit e).ref = s.ref := rfl
@[simp] theorem emit_oce (s : State) (e : Emit) : (s.emit e).oce = s.oce := rfl
@[simp] theorem emit_banks (s : State) (e : Emit) : (s.emit e).banks = s.banks := rfl
@[simp] theorem emit_alloc (s : State) (e : Emit) : (s.emit e).alloc = s.alloc := rfl
@[simp] theorem emit_lmem (s : State) (e : Emit) : (s.emit e).lmem = s.lmem := rfl
@[simp] theorem emit_fld (s : State) (e : Emit) : (s.emit e).fld = s.fld := rfl
@[simp] theorem emit_saf (s : State) (e : Emit) : (s.emit e).saf = s.saf := rfl
@[simp] theorem emit_net (s : State) (e : Emit) : (s.emit e).net = s.net := rfl
@[simp] theorem emit_can (s : State) (e : Emit) : (s.emit e).can = s.can := rfl
@[simp] theorem emit_err (s : State) (e : Emit) : (s.emit e).err = s.err := rfl
@[simp] theorem emit_jnl (s : State) (e : Emit) : (s.emit e).jnl = s.jnl := rfl
@[simp] theorem emit_red (s : State) (e : Emit) : (s.emit e).red = s.red := rfl
@[simp] theorem emit_pst (s : State) (e : Emit) : (s.emit e).pst = s.pst := rfl
@[simp] theorem emit_gns (s : State) (e : Emit) : (s.emit e).gns = s.gns := rfl
@[simp] theorem emit_sec_ (s : State) (e : Emit) : (s.emit e).sec_ = s.sec_ := rfl
@[simp] theorem emit_rcd (s : State) (e : Emit) : (s.emit e).rcd = s.rcd := rfl
@[simp] theorem emit_clk (s : State) (e : Emit) : (s.emit e).clk = s.clk := rfl

@[simp] theorem draw_pending (s : State) : (s.draw.2).pending = s.pending := rfl
@[simp] theorem draw_regs (s : State) : (s.draw.2).regs = s.regs := rfl
@[simp] theorem draw_shadow (s : State) : (s.draw.2).shadow = s.shadow := rfl
@[simp] theorem draw_sent (s : State) : (s.draw.2).sent = s.sent := rfl
@[simp] theorem draw_log (s : State) : (s.draw.2).log = s.log := rfl
@[simp] theorem draw_hst (s : State) : (s.draw.2).hst = s.hst := rfl
@[simp] theorem draw_tim (s : State) : (s.draw.2).tim = s.tim := rfl
@[simp] theorem draw_seq (s : State) : (s.draw.2).seq = s.seq := rfl
@[simp] theorem draw_img (s : State) : (s.draw.2).img = s.img := rfl
@[simp] theorem draw_flt (s : State) : (s.draw.2).flt = s.flt := rfl
@[simp] theorem draw_ref (s : State) : (s.draw.2).ref = s.ref := rfl
@[simp] theorem draw_oce (s : State) : (s.draw.2).oce = s.oce := rfl
@[simp] theorem draw_banks (s : State) : (s.draw.2).banks = s.banks := rfl
@[simp] theorem draw_alloc (s : State) : (s.draw.2).alloc = s.alloc := rfl
@[simp] theorem draw_lmem (s : State) : (s.draw.2).lmem = s.lmem := rfl
@[simp] theorem draw_fld (s : State) : (s.draw.2).fld = s.fld := rfl
@[simp] theorem draw_saf (s : State) : (s.draw.2).saf = s.saf := rfl
@[simp] theorem draw_net (s : State) : (s.draw.2).net = s.net := rfl
@[simp] theorem draw_can (s : State) : (s.draw.2).can = s.can := rfl
@[simp] theorem draw_err (s : State) : (s.draw.2).err = s.err := rfl
@[simp] theorem draw_jnl (s : State) : (s.draw.2).jnl = s.jnl := rfl
@[simp] theorem draw_red (s : State) : (s.draw.2).red = s.red := rfl
@[simp] theorem draw_pst (s : State) : (s.draw.2).pst = s.pst := rfl
@[simp] theorem draw_gns (s : State) : (s.draw.2).gns = s.gns := rfl
@[simp] theorem draw_sec_ (s : State) : (s.draw.2).sec_ = s.sec_ := rfl
@[simp] theorem draw_rcd (s : State) : (s.draw.2).rcd = s.rcd := rfl
@[simp] theorem draw_clk (s : State) : (s.draw.2).clk = s.clk := rfl

@[simp] theorem sc_pending (s : State) (f : SecSt → SecSt) : (s.sc f).pending = s.pending := rfl
@[simp] theorem sc_regs (s : State) (f : SecSt → SecSt) : (s.sc f).regs = s.regs := rfl
@[simp] theorem sc_shadow (s : State) (f : SecSt → SecSt) : (s.sc f).shadow = s.shadow := rfl
@[simp] theorem sc_free (s : State) (f : SecSt → SecSt) : (s.sc f).free = s.free := rfl
@[simp] theorem sc_sent (s : State) (f : SecSt → SecSt) : (s.sc f).sent = s.sent := rfl
@[simp] theorem sc_log (s : State) (f : SecSt → SecSt) : (s.sc f).log = s.log := rfl
@[simp] theorem sc_hst (s : State) (f : SecSt → SecSt) : (s.sc f).hst = s.hst := rfl
@[simp] theorem sc_tim (s : State) (f : SecSt → SecSt) : (s.sc f).tim = s.tim := rfl
@[simp] theorem sc_seq (s : State) (f : SecSt → SecSt) : (s.sc f).seq = s.seq := rfl
@[simp] theorem sc_img (s : State) (f : SecSt → SecSt) : (s.sc f).img = s.img := rfl
@[simp] theorem sc_flt (s : State) (f : SecSt → SecSt) : (s.sc f).flt = s.flt := rfl
@[simp] theorem sc_ref (s : State) (f : SecSt → SecSt) : (s.sc f).ref = s.ref := rfl
@[simp] theorem sc_oce (s : State) (f : SecSt → SecSt) : (s.sc f).oce = s.oce := rfl
@[simp] theorem sc_banks (s : State) (f : SecSt → SecSt) : (s.sc f).banks = s.banks := rfl
@[simp] theorem sc_alloc (s : State) (f : SecSt → SecSt) : (s.sc f).alloc = s.alloc := rfl
@[simp] theorem sc_lmem (s : State) (f : SecSt → SecSt) : (s.sc f).lmem = s.lmem := rfl
@[simp] theorem sc_fld (s : State) (f : SecSt → SecSt) : (s.sc f).fld = s.fld := rfl
@[simp] theorem sc_saf (s : State) (f : SecSt → SecSt) : (s.sc f).saf = s.saf := rfl
@[simp] theorem sc_net (s : State) (f : SecSt → SecSt) : (s.sc f).net = s.net := rfl
@[simp] theorem sc_can (s : State) (f : SecSt → SecSt) : (s.sc f).can = s.can := rfl
@[simp] theorem sc_err (s : State) (f : SecSt → SecSt) : (s.sc f).err = s.err := rfl
@[simp] theorem sc_jnl (s : State) (f : SecSt → SecSt) : (s.sc f).jnl = s.jnl := rfl
@[simp] theorem sc_red (s : State) (f : SecSt → SecSt) : (s.sc f).red = s.red := rfl
@[simp] theorem sc_pst (s : State) (f : SecSt → SecSt) : (s.sc f).pst = s.pst := rfl
@[simp] theorem sc_gns (s : State) (f : SecSt → SecSt) : (s.sc f).gns = s.gns := rfl
@[simp] theorem sc_rcd (s : State) (f : SecSt → SecSt) : (s.sc f).rcd = s.rcd := rfl
@[simp] theorem sc_clk (s : State) (f : SecSt → SecSt) : (s.sc f).clk = s.clk := rfl

@[simp] theorem updCyc_pending (s : State) (n : Nat) (f : Cyc → Cyc) : (updCyc s n f).pending = s.pending := rfl
@[simp] theorem updCyc_regs (s : State) (n : Nat) (f : Cyc → Cyc) : (updCyc s n f).regs = s.regs := rfl
@[simp] theorem updCyc_shadow (s : State) (n : Nat) (f : Cyc → Cyc) : (updCyc s n f).shadow = s.shadow := rfl
@[simp] theorem updCyc_free (s : State) (n : Nat) (f : Cyc → Cyc) : (updCyc s n f).free = s.free := rfl
@[simp] theorem updCyc_sent (s : State) (n : Nat) (f : Cyc → Cyc) : (updCyc s n f).sent = s.sent := rfl
@[simp] theorem updCyc_log (s : State) (n : Nat) (f : Cyc → Cyc) : (updCyc s n f).log = s.log := rfl
@[simp] theorem updCyc_hst (s : State) (n : Nat) (f : Cyc → Cyc) : (updCyc s n f).hst = s.hst := rfl
@[simp] theorem updCyc_tim (s : State) (n : Nat) (f : Cyc → Cyc) : (updCyc s n f).tim = s.tim := rfl
@[simp] theorem updCyc_img (s : State) (n : Nat) (f : Cyc → Cyc) : (updCyc s n f).img = s.img := rfl
@[simp] theorem updCyc_flt (s : State) (n : Nat) (f : Cyc → Cyc) : (updCyc s n f).flt = s.flt := rfl
@[simp] theorem updCyc_ref (s : State) (n : Nat) (f : Cyc → Cyc) : (updCyc s n f).ref = s.ref := rfl
@[simp] theorem updCyc_oce (s : State) (n : Nat) (f : Cyc → Cyc) : (updCyc s n f).oce = s.oce := rfl
@[simp] theorem updCyc_banks (s : State) (n : Nat) (f : Cyc → Cyc) : (updCyc s n f).banks = s.banks := rfl
@[simp] theorem updCyc_alloc (s : State) (n : Nat) (f : Cyc → Cyc) : (updCyc s n f).alloc = s.alloc := rfl
@[simp] theorem updCyc_lmem (s : State) (n : Nat) (f : Cyc → Cyc) : (updCyc s n f).lmem = s.lmem := rfl
@[simp] theorem updCyc_fld (s : State) (n : Nat) (f : Cyc → Cyc) : (updCyc s n f).fld = s.fld := rfl
@[simp] theorem updCyc_saf (s : State) (n : Nat) (f : Cyc → Cyc) : (updCyc s n f).saf = s.saf := rfl
@[simp] theorem updCyc_net (s : State) (n : Nat) (f : Cyc → Cyc) : (updCyc s n f).net = s.net := rfl
@[simp] theorem updCyc_can (s : State) (n : Nat) (f : Cyc → Cyc) : (updCyc s n f).can = s.can := rfl
@[simp] theorem updCyc_err (s : State) (n : Nat) (f : Cyc → Cyc) : (updCyc s n f).err = s.err := rfl
@[simp] theorem updCyc_jnl (s : State) (n : Nat) (f : Cyc → Cyc) : (updCyc s n f).jnl = s.jnl := rfl
@[simp] theorem updCyc_red (s : State) (n : Nat) (f : Cyc → Cyc) : (updCyc s n f).red = s.red := rfl
@[simp] theorem updCyc_pst (s : State) (n : Nat) (f : Cyc → Cyc) : (updCyc s n f).pst = s.pst := rfl
@[simp] theorem updCyc_gns (s : State) (n : Nat) (f : Cyc → Cyc) : (updCyc s n f).gns = s.gns := rfl
@[simp] theorem updCyc_sec_ (s : State) (n : Nat) (f : Cyc → Cyc) : (updCyc s n f).sec_ = s.sec_ := rfl
@[simp] theorem updCyc_rcd (s : State) (n : Nat) (f : Cyc → Cyc) : (updCyc s n f).rcd = s.rcd := rfl
@[simp] theorem updCyc_clk (s : State) (n : Nat) (f : Cyc → Cyc) : (updCyc s n f).clk = s.clk := rfl

@[simp] theorem endRun_pending (s : State) (p : Path) : (endRun s p).pending = s.pending := rfl
@[simp] theorem endRun_regs (s : State) (p : Path) : (endRun s p).regs = s.regs := rfl
@[simp] theorem endRun_shadow (s : State) (p : Path) : (endRun s p).shadow = s.shadow := rfl
@[simp] theorem endRun_free (s : State) (p : Path) : (endRun s p).free = s.free := rfl
@[simp] theorem endRun_sent (s : State) (p : Path) : (endRun s p).sent = s.sent := rfl
@[simp] theorem endRun_log (s : State) (p : Path) : (endRun s p).log = s.log := rfl
@[simp] theorem endRun_tim (s : State) (p : Path) : (endRun s p).tim = s.tim := rfl
@[simp] theorem endRun_seq (s : State) (p : Path) : (endRun s p).seq = s.seq := rfl
@[simp] theorem endRun_img (s : State) (p : Path) : (endRun s p).img = s.img := rfl
@[simp] theorem endRun_flt (s : State) (p : Path) : (endRun s p).flt = s.flt := rfl
@[simp] theorem endRun_ref (s : State) (p : Path) : (endRun s p).ref = s.ref := rfl
@[simp] theorem endRun_oce (s : State) (p : Path) : (endRun s p).oce = s.oce := rfl
@[simp] theorem endRun_banks (s : State) (p : Path) : (endRun s p).banks = s.banks := rfl
@[simp] theorem endRun_alloc (s : State) (p : Path) : (endRun s p).alloc = s.alloc := rfl
@[simp] theorem endRun_lmem (s : State) (p : Path) : (endRun s p).lmem = s.lmem := rfl
@[simp] theorem endRun_fld (s : State) (p : Path) : (endRun s p).fld = s.fld := rfl
@[simp] theorem endRun_saf (s : State) (p : Path) : (endRun s p).saf = s.saf := rfl
@[simp] theorem endRun_net (s : State) (p : Path) : (endRun s p).net = s.net := rfl
@[simp] theorem endRun_can (s : State) (p : Path) : (endRun s p).can = s.can := rfl
@[simp] theorem endRun_err (s : State) (p : Path) : (endRun s p).err = s.err := rfl
@[simp] theorem endRun_jnl (s : State) (p : Path) : (endRun s p).jnl = s.jnl := rfl
@[simp] theorem endRun_red (s : State) (p : Path) : (endRun s p).red = s.red := rfl
@[simp] theorem endRun_pst (s : State) (p : Path) : (endRun s p).pst = s.pst := rfl
@[simp] theorem endRun_gns (s : State) (p : Path) : (endRun s p).gns = s.gns := rfl
@[simp] theorem endRun_sec_ (s : State) (p : Path) : (endRun s p).sec_ = s.sec_ := rfl
@[simp] theorem endRun_rcd (s : State) (p : Path) : (endRun s p).rcd = s.rcd := rfl
@[simp] theorem endRun_clk (s : State) (p : Path) : (endRun s p).clk = s.clk := rfl

@[simp] theorem latchWord_pending (s : State) (p : Path) (off v : Nat) : (latchWord s p off v).pending = s.pending := rfl
@[simp] theorem latchWord_regs (s : State) (p : Path) (off v : Nat) : (latchWord s p off v).regs = s.regs := rfl
@[simp] theorem latchWord_shadow (s : State) (p : Path) (off v : Nat) : (latchWord s p off v).shadow = s.shadow := rfl
@[simp] theorem latchWord_free (s : State) (p : Path) (off v : Nat) : (latchWord s p off v).free = s.free := rfl
@[simp] theorem latchWord_sent (s : State) (p : Path) (off v : Nat) : (latchWord s p off v).sent = s.sent := rfl
@[simp] theorem latchWord_log (s : State) (p : Path) (off v : Nat) : (latchWord s p off v).log = s.log := rfl
@[simp] theorem latchWord_tim (s : State) (p : Path) (off v : Nat) : (latchWord s p off v).tim = s.tim := rfl
@[simp] theorem latchWord_seq (s : State) (p : Path) (off v : Nat) : (latchWord s p off v).seq = s.seq := rfl
@[simp] theorem latchWord_img (s : State) (p : Path) (off v : Nat) : (latchWord s p off v).img = s.img := rfl
@[simp] theorem latchWord_flt (s : State) (p : Path) (off v : Nat) : (latchWord s p off v).flt = s.flt := rfl
@[simp] theorem latchWord_ref (s : State) (p : Path) (off v : Nat) : (latchWord s p off v).ref = s.ref := rfl
@[simp] theorem latchWord_oce (s : State) (p : Path) (off v : Nat) : (latchWord s p off v).oce = s.oce := rfl
@[simp] theorem latchWord_banks (s : State) (p : Path) (off v : Nat) : (latchWord s p off v).banks = s.banks := rfl
@[simp] theorem latchWord_alloc (s : State) (p : Path) (off v : Nat) : (latchWord s p off v).alloc = s.alloc := rfl
@[simp] theorem latchWord_lmem (s : State) (p : Path) (off v : Nat) : (latchWord s p off v).lmem = s.lmem := rfl
@[simp] theorem latchWord_fld (s : State) (p : Path) (off v : Nat) : (latchWord s p off v).fld = s.fld := rfl
@[simp] theorem latchWord_saf (s : State) (p : Path) (off v : Nat) : (latchWord s p off v).saf = s.saf := rfl
@[simp] theorem latchWord_net (s : State) (p : Path) (off v : Nat) : (latchWord s p off v).net = s.net := rfl
@[simp] theorem latchWord_can (s : State) (p : Path) (off v : Nat) : (latchWord s p off v).can = s.can := rfl
@[simp] theorem latchWord_err (s : State) (p : Path) (off v : Nat) : (latchWord s p off v).err = s.err := rfl
@[simp] theorem latchWord_jnl (s : State) (p : Path) (off v : Nat) : (latchWord s p off v).jnl = s.jnl := rfl
@[simp] theorem latchWord_red (s : State) (p : Path) (off v : Nat) : (latchWord s p off v).red = s.red := rfl
@[simp] theorem latchWord_pst (s : State) (p : Path) (off v : Nat) : (latchWord s p off v).pst = s.pst := rfl
@[simp] theorem latchWord_gns (s : State) (p : Path) (off v : Nat) : (latchWord s p off v).gns = s.gns := rfl
@[simp] theorem latchWord_sec_ (s : State) (p : Path) (off v : Nat) : (latchWord s p off v).sec_ = s.sec_ := rfl
@[simp] theorem latchWord_rcd (s : State) (p : Path) (off v : Nat) : (latchWord s p off v).rcd = s.rcd := rfl
@[simp] theorem latchWord_clk (s : State) (p : Path) (off v : Nat) : (latchWord s p off v).clk = s.clk := rfl

@[simp] theorem holdAcc_pending (s : State) (p : Path) (off : Nat) (d : Option Nat) : (holdAcc s p off d).pending = s.pending := rfl
@[simp] theorem holdAcc_regs (s : State) (p : Path) (off : Nat) (d : Option Nat) : (holdAcc s p off d).regs = s.regs := rfl
@[simp] theorem holdAcc_shadow (s : State) (p : Path) (off : Nat) (d : Option Nat) : (holdAcc s p off d).shadow = s.shadow := rfl
@[simp] theorem holdAcc_free (s : State) (p : Path) (off : Nat) (d : Option Nat) : (holdAcc s p off d).free = s.free := rfl
@[simp] theorem holdAcc_sent (s : State) (p : Path) (off : Nat) (d : Option Nat) : (holdAcc s p off d).sent = s.sent := rfl
@[simp] theorem holdAcc_log (s : State) (p : Path) (off : Nat) (d : Option Nat) : (holdAcc s p off d).log = s.log := rfl
@[simp] theorem holdAcc_tim (s : State) (p : Path) (off : Nat) (d : Option Nat) : (holdAcc s p off d).tim = s.tim := rfl
@[simp] theorem holdAcc_seq (s : State) (p : Path) (off : Nat) (d : Option Nat) : (holdAcc s p off d).seq = s.seq := rfl
@[simp] theorem holdAcc_img (s : State) (p : Path) (off : Nat) (d : Option Nat) : (holdAcc s p off d).img = s.img := rfl
@[simp] theorem holdAcc_flt (s : State) (p : Path) (off : Nat) (d : Option Nat) : (holdAcc s p off d).flt = s.flt := rfl
@[simp] theorem holdAcc_ref (s : State) (p : Path) (off : Nat) (d : Option Nat) : (holdAcc s p off d).ref = s.ref := rfl
@[simp] theorem holdAcc_oce (s : State) (p : Path) (off : Nat) (d : Option Nat) : (holdAcc s p off d).oce = s.oce := rfl
@[simp] theorem holdAcc_banks (s : State) (p : Path) (off : Nat) (d : Option Nat) : (holdAcc s p off d).banks = s.banks := rfl
@[simp] theorem holdAcc_alloc (s : State) (p : Path) (off : Nat) (d : Option Nat) : (holdAcc s p off d).alloc = s.alloc := rfl
@[simp] theorem holdAcc_lmem (s : State) (p : Path) (off : Nat) (d : Option Nat) : (holdAcc s p off d).lmem = s.lmem := rfl
@[simp] theorem holdAcc_fld (s : State) (p : Path) (off : Nat) (d : Option Nat) : (holdAcc s p off d).fld = s.fld := rfl
@[simp] theorem holdAcc_saf (s : State) (p : Path) (off : Nat) (d : Option Nat) : (holdAcc s p off d).saf = s.saf := rfl
@[simp] theorem holdAcc_net (s : State) (p : Path) (off : Nat) (d : Option Nat) : (holdAcc s p off d).net = s.net := rfl
@[simp] theorem holdAcc_can (s : State) (p : Path) (off : Nat) (d : Option Nat) : (holdAcc s p off d).can = s.can := rfl
@[simp] theorem holdAcc_err (s : State) (p : Path) (off : Nat) (d : Option Nat) : (holdAcc s p off d).err = s.err := rfl
@[simp] theorem holdAcc_jnl (s : State) (p : Path) (off : Nat) (d : Option Nat) : (holdAcc s p off d).jnl = s.jnl := rfl
@[simp] theorem holdAcc_red (s : State) (p : Path) (off : Nat) (d : Option Nat) : (holdAcc s p off d).red = s.red := rfl
@[simp] theorem holdAcc_pst (s : State) (p : Path) (off : Nat) (d : Option Nat) : (holdAcc s p off d).pst = s.pst := rfl
@[simp] theorem holdAcc_gns (s : State) (p : Path) (off : Nat) (d : Option Nat) : (holdAcc s p off d).gns = s.gns := rfl
@[simp] theorem holdAcc_sec_ (s : State) (p : Path) (off : Nat) (d : Option Nat) : (holdAcc s p off d).sec_ = s.sec_ := rfl
@[simp] theorem holdAcc_rcd (s : State) (p : Path) (off : Nat) (d : Option Nat) : (holdAcc s p off d).rcd = s.rcd := rfl
@[simp] theorem holdAcc_clk (s : State) (p : Path) (off : Nat) (d : Option Nat) : (holdAcc s p off d).clk = s.clk := rfl

@[simp] theorem at_cnt (s : State) (t : Nat) : (s.at t).tim.cnt = max s.tim.cnt t := rfl
@[simp] theorem emit_sent (s : State) (e : Emit) : (s.emit e).sent = e :: s.sent := rfl
@[simp] theorem sc_sec (s : State) (f : SecSt → SecSt) : (s.sc f).sec_ = f s.sec_ := rfl

/-! ### What a field reads as after a write -/

@[simp] theorem at_rd (s : State) (t : Nat) (f : Fld) : (s.at t).rd f = s.rd f := rfl
@[simp] theorem emit_rd (s : State) (e : Emit) (f : Fld) : (s.emit e).rd f = s.rd f := rfl
@[simp] theorem draw_rd (s : State) (f : Fld) : s.draw.2.rd f = s.rd f := rfl
@[simp] theorem sc_rd (s : State) (g : SecSt → SecSt) (f : Fld) : (s.sc g).rd f = s.rd f := rfl
@[simp] theorem updCyc_rd (s : State) (n : Nat) (g : Cyc → Cyc) (f : Fld) : (updCyc s n g).rd f = s.rd f := rfl
@[simp] theorem endRun_rd (s : State) (p : Path) (f : Fld) : (endRun s p).rd f = s.rd f := rfl

/-- A read of the field written gives the value, cut to the field's width. -/
theorem rd_wr_same (s : State) (f : Fld) (v : Nat) (hw : f.w ≤ 32) : (s.wr f v).rd f = v % 2 ^ f.w := by
  have h : v % 2 ^ f.w < 2 ^ 32 := Nat.lt_of_lt_of_le (Nat.mod_lt _ (Nat.two_pow_pos _)) (Nat.pow_le_pow_right (by decide) hw)
  simp only [State.rd, State.wr, RegFile.get, RegFile.set, sget_sput_same, BitVec.toNat_ofNat]
  exact Nat.mod_eq_of_lt h

/-- A read of a field at another place gives what it gave before. -/
theorem rd_wr_ne (s : State) (f g : Fld) (v : Nat) (h : g.key ≠ f.key) : (s.wr f v).rd g = s.rd g := by
  simp [State.rd, State.wr, RegFile.get, RegFile.set, sget_sput_ne _ _ _ _ _ h]

/-- A run of writes leaves a field at none of their places as it was. -/
theorem rd_wrs_ne (s : State) (l : List (Fld × Nat)) (g : Fld) (h : ∀ p ∈ l, g.key ≠ p.1.key) : (s.wrs l).rd g = s.rd g := by
  induction l generalizing s with
  | nil => rfl
  | cons p r ih =>
    show ((s.wr p.1 p.2).wrs r).rd g = _
    rw [ih _ fun q hq => h q (by simp [hq]), rd_wr_ne s p.1 g p.2 (h p (by simp))]

/-- Every stored field is at most a 32-bit word. -/
theorem rd_lt (s : State) (f : Fld) : s.rd f < 2 ^ 32 := (sget resetValue s.regs f.key).isLt

/-- A register write keeps the register file canonical. -/
theorem wr_canonical (s : State) (f : Fld) (v : Nat) (h : swf resetValue s.regs = true) : swf resetValue (s.wr f v).regs = true :=
  swf_sput resetValue s.regs f.key _ h

/-- A run of register writes keeps the register file canonical. -/
theorem wrs_canonical (s : State) (l : List (Fld × Nat)) (h : swf resetValue s.regs = true) : swf resetValue (s.wrs l).regs = true := by
  induction l generalizing s with
  | nil => exact h
  | cons p r ih => exact ih _ (wr_canonical s p.1 p.2 h)

end Sys2Proof.Laws
end

