-- ==== Sys2Proof/Laws/Ops.lean ====
section
/-! SUPPORT. What the shared operations can do: a report (R16, R513 to R516), a discarded access (R543), and the interrupts brought up to
date at the end of every command (R537 to R540). -/

namespace Sys2Proof.Laws

open Sys2Proof Sys2Proof.Machine

/-! ### Reports -/

theorem edgeSrc_only (s : State) (n : Nat) : edgeSrc s n = { s with regs := (edgeSrc s n).regs } := by
  simp only [edgeSrc]; split <;> rfl

theorem reportMarks_only (s : State) (c u : Nat) : reportMarks s c u = { s with regs := (reportMarks s c u).regs } := by
  simp only [reportMarks]
  split
  · rw [edgeSrc_only, wrs_only_regs]
  · rw [wrs_only_regs]

theorem logAppend_only (s : State) (e : Incident) :
    logAppend s e = { s with regs := (logAppend s e).regs, log := (logAppend s e).log } := by
  simp only [logAppend]
  split
  · rw [State.wrb, State.wr, wrs_only_regs]
  · rw [wrs_only_regs]

/-- An entry changes the log and registers alone. -/
theorem logEntry_only (s : State) (e : Incident) :
    logEntry s e = { s with regs := (logEntry s e).regs, log := (logEntry s e).log } := by
  simp only [logEntry]
  split
  · split
    · split
      · rw [logAppend_only]
        simp only [State.wr, State.wrb]
        rw [logAppend_only]
      · rw [wrs_only_regs]
        simp only [State.wr, State.wrb]
        rw [logAppend_only]
        simp only [State.incSat, State.wr]
        rw [logAppend_only]
    · rfl
  · split
    · rw [logAppend_only]
    · rw [wrs_only_regs]
      simp only [State.wr, State.wrb]
      rw [logAppend_only]
      rfl

/-- A report changes the log and registers alone. -/
theorem report_only (s : State) (c u d : Nat) :
    report s c u d = { s with regs := (report s c u d).regs, log := (report s c u d).log } := by
  simp only [report]
  rw [logEntry_only, reportMarks_only]

/-- A report of a cycle changes the log, registers and the cycle's own list of entries alone. -/
theorem reportCyc_only (s : State) (n c u d : Nat) :
    reportCyc s n c u d = { s with regs := (reportCyc s n c u d).regs, log := (reportCyc s n c u d).log, seq := (reportCyc s n c u d).seq } := by
  simp only [reportCyc]
  split
  · split
    · rw [reportMarks_only]
    · rw [logEntry_only, reportMarks_only]
  · split
    · rfl
    · split
      · rw [logEntry_only, reportMarks_only]
      · simp only [updCyc]
        rw [reportMarks_only]

theorem refuse_only (s : State) (c u d : Nat) :
    refuse s c u d = { s with regs := (refuse s c u d).regs, log := (refuse s c u d).log, hst := (refuse s c u d).hst } := by
  simp only [refuse]
  rw [report_only]

@[simp] theorem edgeSrc_pending (s : State) (n : Nat) : (edgeSrc s n).pending = s.pending := by rw [edgeSrc_only]
@[simp] theorem edgeSrc_shadow (s : State) (n : Nat) : (edgeSrc s n).shadow = s.shadow := by rw [edgeSrc_only]
@[simp] theorem edgeSrc_free (s : State) (n : Nat) : (edgeSrc s n).free = s.free := by rw [edgeSrc_only]
@[simp] theorem edgeSrc_sent (s : State) (n : Nat) : (edgeSrc s n).sent = s.sent := by rw [edgeSrc_only]
@[simp] theorem edgeSrc_log (s : State) (n : Nat) : (edgeSrc s n).log = s.log := by rw [edgeSrc_only]
@[simp] theorem edgeSrc_hst (s : State) (n : Nat) : (edgeSrc s n).hst = s.hst := by rw [edgeSrc_only]
@[simp] theorem edgeSrc_tim (s : State) (n : Nat) : (edgeSrc s n).tim = s.tim := by rw [edgeSrc_only]
@[simp] theorem edgeSrc_seq (s : State) (n : Nat) : (edgeSrc s n).seq = s.seq := by rw [edgeSrc_only]
@[simp] theorem edgeSrc_img (s : State) (n : Nat) : (edgeSrc s n).img = s.img := by rw [edgeSrc_only]
@[simp] theorem edgeSrc_flt (s : State) (n : Nat) : (edgeSrc s n).flt = s.flt := by rw [edgeSrc_only]
@[simp] theorem edgeSrc_ref (s : State) (n : Nat) : (edgeSrc s n).ref = s.ref := by rw [edgeSrc_only]
@[simp] theorem edgeSrc_oce (s : State) (n : Nat) : (edgeSrc s n).oce = s.oce := by rw [edgeSrc_only]
@[simp] theorem edgeSrc_banks (s : State) (n : Nat) : (edgeSrc s n).banks = s.banks := by rw [edgeSrc_only]
@[simp] theorem edgeSrc_alloc (s : State) (n : Nat) : (edgeSrc s n).alloc = s.alloc := by rw [edgeSrc_only]
@[simp] theorem edgeSrc_lmem (s : State) (n : Nat) : (edgeSrc s n).lmem = s.lmem := by rw [edgeSrc_only]
@[simp] theorem edgeSrc_fld (s : State) (n : Nat) : (edgeSrc s n).fld = s.fld := by rw [edgeSrc_only]
@[simp] theorem edgeSrc_saf (s : State) (n : Nat) : (edgeSrc s n).saf = s.saf := by rw [edgeSrc_only]
@[simp] theorem edgeSrc_net (s : State) (n : Nat) : (edgeSrc s n).net = s.net := by rw [edgeSrc_only]
@[simp] theorem edgeSrc_can (s : State) (n : Nat) : (edgeSrc s n).can = s.can := by rw [edgeSrc_only]
@[simp] theorem edgeSrc_err (s : State) (n : Nat) : (edgeSrc s n).err = s.err := by rw [edgeSrc_only]
@[simp] theorem edgeSrc_jnl (s : State) (n : Nat) : (edgeSrc s n).jnl = s.jnl := by rw [edgeSrc_only]
@[simp] theorem edgeSrc_red (s : State) (n : Nat) : (edgeSrc s n).red = s.red := by rw [edgeSrc_only]
@[simp] theorem edgeSrc_pst (s : State) (n : Nat) : (edgeSrc s n).pst = s.pst := by rw [edgeSrc_only]
@[simp] theorem edgeSrc_gns (s : State) (n : Nat) : (edgeSrc s n).gns = s.gns := by rw [edgeSrc_only]
@[simp] theorem edgeSrc_sec_ (s : State) (n : Nat) : (edgeSrc s n).sec_ = s.sec_ := by rw [edgeSrc_only]
@[simp] theorem edgeSrc_rcd (s : State) (n : Nat) : (edgeSrc s n).rcd = s.rcd := by rw [edgeSrc_only]
@[simp] theorem edgeSrc_clk (s : State) (n : Nat) : (edgeSrc s n).clk = s.clk := by rw [edgeSrc_only]

@[simp] theorem logEntry_pending (s : State) (e : Incident) : (logEntry s e).pending = s.pending := by rw [logEntry_only]
@[simp] theorem logEntry_shadow (s : State) (e : Incident) : (logEntry s e).shadow = s.shadow := by rw [logEntry_only]
@[simp] theorem logEntry_free (s : State) (e : Incident) : (logEntry s e).free = s.free := by rw [logEntry_only]
@[simp] theorem logEntry_sent (s : State) (e : Incident) : (logEntry s e).sent = s.sent := by rw [logEntry_only]
@[simp] theorem logEntry_hst (s : State) (e : Incident) : (logEntry s e).hst = s.hst := by rw [logEntry_only]
@[simp] theorem logEntry_tim (s : State) (e : Incident) : (logEntry s e).tim = s.tim := by rw [logEntry_only]
@[simp] theorem logEntry_seq (s : State) (e : Incident) : (logEntry s e).seq = s.seq := by rw [logEntry_only]
@[simp] theorem logEntry_img (s : State) (e : Incident) : (logEntry s e).img = s.img := by rw [logEntry_only]
@[simp] theorem logEntry_flt (s : State) (e : Incident) : (logEntry s e).flt = s.flt := by rw [logEntry_only]
@[simp] theorem logEntry_ref (s : State) (e : Incident) : (logEntry s e).ref = s.ref := by rw [logEntry_only]
@[simp] theorem logEntry_oce (s : State) (e : Incident) : (logEntry s e).oce = s.oce := by rw [logEntry_only]
@[simp] theorem logEntry_banks (s : State) (e : Incident) : (logEntry s e).banks = s.banks := by rw [logEntry_only]
@[simp] theorem logEntry_alloc (s : State) (e : Incident) : (logEntry s e).alloc = s.alloc := by rw [logEntry_only]
@[simp] theorem logEntry_lmem (s : State) (e : Incident) : (logEntry s e).lmem = s.lmem := by rw [logEntry_only]
@[simp] theorem logEntry_fld (s : State) (e : Incident) : (logEntry s e).fld = s.fld := by rw [logEntry_only]
@[simp] theorem logEntry_saf (s : State) (e : Incident) : (logEntry s e).saf = s.saf := by rw [logEntry_only]
@[simp] theorem logEntry_net (s : State) (e : Incident) : (logEntry s e).net = s.net := by rw [logEntry_only]
@[simp] theorem logEntry_can (s : State) (e : Incident) : (logEntry s e).can = s.can := by rw [logEntry_only]
@[simp] theorem logEntry_err (s : State) (e : Incident) : (logEntry s e).err = s.err := by rw [logEntry_only]
@[simp] theorem logEntry_jnl (s : State) (e : Incident) : (logEntry s e).jnl = s.jnl := by rw [logEntry_only]
@[simp] theorem logEntry_red (s : State) (e : Incident) : (logEntry s e).red = s.red := by rw [logEntry_only]
@[simp] theorem logEntry_pst (s : State) (e : Incident) : (logEntry s e).pst = s.pst := by rw [logEntry_only]
@[simp] theorem logEntry_gns (s : State) (e : Incident) : (logEntry s e).gns = s.gns := by rw [logEntry_only]
@[simp] theorem logEntry_sec_ (s : State) (e : Incident) : (logEntry s e).sec_ = s.sec_ := by rw [logEntry_only]
@[simp] theorem logEntry_rcd (s : State) (e : Incident) : (logEntry s e).rcd = s.rcd := by rw [logEntry_only]
@[simp] theorem logEntry_clk (s : State) (e : Incident) : (logEntry s e).clk = s.clk := by rw [logEntry_only]

@[simp] theorem report_pending (s : State) (c u d : Nat) : (report s c u d).pending = s.pending := by rw [report_only]
@[simp] theorem report_shadow (s : State) (c u d : Nat) : (report s c u d).shadow = s.shadow := by rw [report_only]
@[simp] theorem report_free (s : State) (c u d : Nat) : (report s c u d).free = s.free := by rw [report_only]
@[simp] theorem report_sent (s : State) (c u d : Nat) : (report s c u d).sent = s.sent := by rw [report_only]
@[simp] theorem report_hst (s : State) (c u d : Nat) : (report s c u d).hst = s.hst := by rw [report_only]
@[simp] theorem report_tim (s : State) (c u d : Nat) : (report s c u d).tim = s.tim := by rw [report_only]
@[simp] theorem report_seq (s : State) (c u d : Nat) : (report s c u d).seq = s.seq := by rw [report_only]
@[simp] theorem report_img (s : State) (c u d : Nat) : (report s c u d).img = s.img := by rw [report_only]
@[simp] theorem report_flt (s : State) (c u d : Nat) : (report s c u d).flt = s.flt := by rw [report_only]
@[simp] theorem report_ref (s : State) (c u d : Nat) : (report s c u d).ref = s.ref := by rw [report_only]
@[simp] theorem report_oce (s : State) (c u d : Nat) : (report s c u d).oce = s.oce := by rw [report_only]
@[simp] theorem report_banks (s : State) (c u d : Nat) : (report s c u d).banks = s.banks := by rw [report_only]
@[simp] theorem report_alloc (s : State) (c u d : Nat) : (report s c u d).alloc = s.alloc := by rw [report_only]
@[simp] theorem report_lmem (s : State) (c u d : Nat) : (report s c u d).lmem = s.lmem := by rw [report_only]
@[simp] theorem report_fld (s : State) (c u d : Nat) : (report s c u d).fld = s.fld := by rw [report_only]
@[simp] theorem report_saf (s : State) (c u d : Nat) : (report s c u d).saf = s.saf := by rw [report_only]
@[simp] theorem report_net (s : State) (c u d : Nat) : (report s c u d).net = s.net := by rw [report_only]
@[simp] theorem report_can (s : State) (c u d : Nat) : (report s c u d).can = s.can := by rw [report_only]
@[simp] theorem report_err (s : State) (c u d : Nat) : (report s c u d).err = s.err := by rw [report_only]
@[simp] theorem report_jnl (s : State) (c u d : Nat) : (report s c u d).jnl = s.jnl := by rw [report_only]
@[simp] theorem report_red (s : State) (c u d : Nat) : (report s c u d).red = s.red := by rw [report_only]
@[simp] theorem report_pst (s : State) (c u d : Nat) : (report s c u d).pst = s.pst := by rw [report_only]
@[simp] theorem report_gns (s : State) (c u d : Nat) : (report s c u d).gns = s.gns := by rw [report_only]
@[simp] theorem report_sec_ (s : State) (c u d : Nat) : (report s c u d).sec_ = s.sec_ := by rw [report_only]
@[simp] theorem report_rcd (s : State) (c u d : Nat) : (report s c u d).rcd = s.rcd := by rw [report_only]
@[simp] theorem report_clk (s : State) (c u d : Nat) : (report s c u d).clk = s.clk := by rw [report_only]

@[simp] theorem reportCyc_pending (s : State) (n c u d : Nat) : (reportCyc s n c u d).pending = s.pending := by rw [reportCyc_only]
@[simp] theorem reportCyc_shadow (s : State) (n c u d : Nat) : (reportCyc s n c u d).shadow = s.shadow := by rw [reportCyc_only]
@[simp] theorem reportCyc_free (s : State) (n c u d : Nat) : (reportCyc s n c u d).free = s.free := by rw [reportCyc_only]
@[simp] theorem reportCyc_sent (s : State) (n c u d : Nat) : (reportCyc s n c u d).sent = s.sent := by rw [reportCyc_only]
@[simp] theorem reportCyc_hst (s : State) (n c u d : Nat) : (reportCyc s n c u d).hst = s.hst := by rw [reportCyc_only]
@[simp] theorem reportCyc_tim (s : State) (n c u d : Nat) : (reportCyc s n c u d).tim = s.tim := by rw [reportCyc_only]
@[simp] theorem reportCyc_img (s : State) (n c u d : Nat) : (reportCyc s n c u d).img = s.img := by rw [reportCyc_only]
@[simp] theorem reportCyc_flt (s : State) (n c u d : Nat) : (reportCyc s n c u d).flt = s.flt := by rw [reportCyc_only]
@[simp] theorem reportCyc_ref (s : State) (n c u d : Nat) : (reportCyc s n c u d).ref = s.ref := by rw [reportCyc_only]
@[simp] theorem reportCyc_oce (s : State) (n c u d : Nat) : (reportCyc s n c u d).oce = s.oce := by rw [reportCyc_only]
@[simp] theorem reportCyc_banks (s : State) (n c u d : Nat) : (reportCyc s n c u d).banks = s.banks := by rw [reportCyc_only]
@[simp] theorem reportCyc_alloc (s : State) (n c u d : Nat) : (reportCyc s n c u d).alloc = s.alloc := by rw [reportCyc_only]
@[simp] theorem reportCyc_lmem (s : State) (n c u d : Nat) : (reportCyc s n c u d).lmem = s.lmem := by rw [reportCyc_only]
@[simp] theorem reportCyc_fld (s : State) (n c u d : Nat) : (reportCyc s n c u d).fld = s.fld := by rw [reportCyc_only]
@[simp] theorem reportCyc_saf (s : State) (n c u d : Nat) : (reportCyc s n c u d).saf = s.saf := by rw [reportCyc_only]
@[simp] theorem reportCyc_net (s : State) (n c u d : Nat) : (reportCyc s n c u d).net = s.net := by rw [reportCyc_only]
@[simp] theorem reportCyc_can (s : State) (n c u d : Nat) : (reportCyc s n c u d).can = s.can := by rw [reportCyc_only]
@[simp] theorem reportCyc_err (s : State) (n c u d : Nat) : (reportCyc s n c u d).err = s.err := by rw [reportCyc_only]
@[simp] theorem reportCyc_jnl (s : State) (n c u d : Nat) : (reportCyc s n c u d).jnl = s.jnl := by rw [reportCyc_only]
@[simp] theorem reportCyc_red (s : State) (n c u d : Nat) : (reportCyc s n c u d).red = s.red := by rw [reportCyc_only]
@[simp] theorem reportCyc_pst (s : State) (n c u d : Nat) : (reportCyc s n c u d).pst = s.pst := by rw [reportCyc_only]
@[simp] theorem reportCyc_gns (s : State) (n c u d : Nat) : (reportCyc s n c u d).gns = s.gns := by rw [reportCyc_only]
@[simp] theorem reportCyc_sec_ (s : State) (n c u d : Nat) : (reportCyc s n c u d).sec_ = s.sec_ := by rw [reportCyc_only]
@[simp] theorem reportCyc_rcd (s : State) (n c u d : Nat) : (reportCyc s n c u d).rcd = s.rcd := by rw [reportCyc_only]
@[simp] theorem reportCyc_clk (s : State) (n c u d : Nat) : (reportCyc s n c u d).clk = s.clk := by rw [reportCyc_only]

@[simp] theorem refuse_pending (s : State) (c u d : Nat) : (refuse s c u d).pending = s.pending := by rw [refuse_only]
@[simp] theorem refuse_shadow (s : State) (c u d : Nat) : (refuse s c u d).shadow = s.shadow := by rw [refuse_only]
@[simp] theorem refuse_free (s : State) (c u d : Nat) : (refuse s c u d).free = s.free := by rw [refuse_only]
@[simp] theorem refuse_sent (s : State) (c u d : Nat) : (refuse s c u d).sent = s.sent := by rw [refuse_only]
@[simp] theorem refuse_tim (s : State) (c u d : Nat) : (refuse s c u d).tim = s.tim := by rw [refuse_only]
@[simp] theorem refuse_seq (s : State) (c u d : Nat) : (refuse s c u d).seq = s.seq := by rw [refuse_only]
@[simp] theorem refuse_img (s : State) (c u d : Nat) : (refuse s c u d).img = s.img := by rw [refuse_only]
@[simp] theorem refuse_flt (s : State) (c u d : Nat) : (refuse s c u d).flt = s.flt := by rw [refuse_only]
@[simp] theorem refuse_ref (s : State) (c u d : Nat) : (refuse s c u d).ref = s.ref := by rw [refuse_only]
@[simp] theorem refuse_oce (s : State) (c u d : Nat) : (refuse s c u d).oce = s.oce := by rw [refuse_only]
@[simp] theorem refuse_banks (s : State) (c u d : Nat) : (refuse s c u d).banks = s.banks := by rw [refuse_only]
@[simp] theorem refuse_alloc (s : State) (c u d : Nat) : (refuse s c u d).alloc = s.alloc := by rw [refuse_only]
@[simp] theorem refuse_lmem (s : State) (c u d : Nat) : (refuse s c u d).lmem = s.lmem := by rw [refuse_only]
@[simp] theorem refuse_fld (s : State) (c u d : Nat) : (refuse s c u d).fld = s.fld := by rw [refuse_only]
@[simp] theorem refuse_saf (s : State) (c u d : Nat) : (refuse s c u d).saf = s.saf := by rw [refuse_only]
@[simp] theorem refuse_net (s : State) (c u d : Nat) : (refuse s c u d).net = s.net := by rw [refuse_only]
@[simp] theorem refuse_can (s : State) (c u d : Nat) : (refuse s c u d).can = s.can := by rw [refuse_only]
@[simp] theorem refuse_err (s : State) (c u d : Nat) : (refuse s c u d).err = s.err := by rw [refuse_only]
@[simp] theorem refuse_jnl (s : State) (c u d : Nat) : (refuse s c u d).jnl = s.jnl := by rw [refuse_only]
@[simp] theorem refuse_red (s : State) (c u d : Nat) : (refuse s c u d).red = s.red := by rw [refuse_only]
@[simp] theorem refuse_pst (s : State) (c u d : Nat) : (refuse s c u d).pst = s.pst := by rw [refuse_only]
@[simp] theorem refuse_gns (s : State) (c u d : Nat) : (refuse s c u d).gns = s.gns := by rw [refuse_only]
@[simp] theorem refuse_sec_ (s : State) (c u d : Nat) : (refuse s c u d).sec_ = s.sec_ := by rw [refuse_only]
@[simp] theorem refuse_rcd (s : State) (c u d : Nat) : (refuse s c u d).rcd = s.rcd := by rw [refuse_only]
@[simp] theorem refuse_clk (s : State) (c u d : Nat) : (refuse s c u d).clk = s.clk := by rw [refuse_only]

/-- The places of the registers a report may write: LAST_CODE of the class, HST_SRC_PEND and the log's own registers. -/
def reportKeys (c u : Nat) : List Nat :=
  (condFields c u).map (·.key) ++ [HST_SRC_PEND_LO_PEND, HST_SRC_PEND_HI_PEND, REC_LOG_HEAD_ISEQ, REC_LOG_STS_FILL, REC_LOG_STS_UNMIRRORED,
    REC_EVT_LOG_HALF, REC_LOG_LOST_LOST, REC_STATUS_LOG_FULL, REC_COND_LAST_CODE, REC_EVT_LOG_FULL].map (·.key)

theorem edgeSrc_rd (s : State) (n : Nat) (g : Fld) (h1 : g.key ≠ HST_SRC_PEND_LO_PEND.key) (h2 : g.key ≠ HST_SRC_PEND_HI_PEND.key) :
    (edgeSrc s n).rd g = s.rd g := by
  simp only [edgeSrc, State.wrBit]
  split
  · exact rd_wr_ne _ _ _ _ h1
  · exact rd_wr_ne _ _ _ _ h2

theorem logAppend_rd (s : State) (e : Incident) (g : Fld) (h : g.key ∉ [REC_LOG_HEAD_ISEQ, REC_LOG_STS_FILL, REC_LOG_STS_UNMIRRORED, REC_EVT_LOG_HALF].map (·.key)) :
    (logAppend s e).rd g = s.rd g := by
  simp only [List.map_cons, List.map_nil, List.mem_cons, List.not_mem_nil, or_false, not_or] at h
  obtain ⟨h1, h2, h3, h4⟩ := h
  have hl : ∀ (x : State) (a b c : Nat), (x.wrs [(REC_LOG_HEAD_ISEQ, a), (REC_LOG_STS_FILL, b), (REC_LOG_STS_UNMIRRORED, c)]).rd g = x.rd g := by
    intro x a b c
    apply rd_wrs_ne
    intro p hp
    simp only [List.mem_cons, List.not_mem_nil, or_false] at hp
    rcases hp with rfl | rfl | rfl <;> assumption
  simp only [logAppend]
  split
  · rw [State.wrb, rd_wr_ne _ _ _ _ h4, hl]; rfl
  · rw [hl]; rfl

theorem logEntry_rd (s : State) (e : Incident) (g : Fld)
    (h : g.key ∉ [REC_LOG_HEAD_ISEQ, REC_LOG_STS_FILL, REC_LOG_STS_UNMIRRORED, REC_EVT_LOG_HALF, REC_LOG_LOST_LOST, REC_STATUS_LOG_FULL,
      REC_COND_LAST_CODE, REC_EVT_LOG_FULL].map (·.key)) : (logEntry s e).rd g = s.rd g := by
  have ha : ∀ (x : State) (i : Incident), (logAppend x i).rd g = x.rd g := by
    intro x i
    apply logAppend_rd
    simp only [List.map_cons, List.map_nil, List.mem_cons, List.not_mem_nil, or_false, not_or] at h ⊢
    exact ⟨h.1, h.2.1, h.2.2.1, h.2.2.2.1⟩
  simp only [List.map_cons, List.map_nil, List.mem_cons, List.not_mem_nil, or_false, not_or] at h
  obtain ⟨_, _, _, _, h5, h6, h7, h8⟩ := h
  have hlost : ∀ (x : State) (l : LogSt), ({ x with log := l } : State).rd g = x.rd g := fun _ _ => rfl
  have hinc : ∀ (x : State) (m : Nat), (x.incSat REC_LOG_LOST_LOST m).rd g = x.rd g := fun x m => rd_wr_ne _ _ _ _ h5
  have hfull : ∀ (x : State) (b : Bool), (x.wrb REC_STATUS_LOG_FULL b).rd g = x.rd g := fun x b => rd_wr_ne _ _ _ _ h6
  have hcode : ∀ (x : State) (v : Nat), (x.wr REC_COND_LAST_CODE v).rd g = x.rd g := fun x v => rd_wr_ne _ _ _ _ h7
  have htwo : ∀ (x : State) (a b : Nat), (x.wrs [(REC_COND_LAST_CODE, a), (REC_EVT_LOG_FULL, b)]).rd g = x.rd g := by
    intro x a b
    apply rd_wrs_ne
    intro p hp
    simp only [List.mem_cons, List.not_mem_nil, or_false] at hp
    rcases hp with rfl | rfl <;> assumption
  simp only [logEntry]
  split
  · split
    · split <;> simp only [ha, hcode, hfull, htwo, hinc, hlost]
    · simp only [hinc, hlost]
  · split <;> simp only [ha, hfull, htwo, hinc, hlost]

/-- A report leaves every other register field as it was. -/
theorem report_rd (s : State) (c u d : Nat) (g : Fld) (h : g.key ∉ reportKeys c u) : (report s c u d).rd g = s.rd g := by
  simp only [reportKeys, List.map_cons, List.map_nil, List.mem_append, List.mem_cons, List.not_mem_nil, or_false, not_or, List.mem_map,
    not_exists, not_and] at h
  obtain ⟨hc, h1, h2, h3, h4, h5, h6, h7, h8, h9, h10⟩ := h
  have hm : (reportMarks s c u).rd g = s.rd g := by
    have hw : (s.wrs ((condFields c u).map fun f => (f, c))).rd g = s.rd g := by
      apply rd_wrs_ne
      intro p hp
      obtain ⟨f, hf, rfl⟩ := List.mem_map.mp hp
      exact fun he => hc f hf he.symm
    simp only [reportMarks]
    split
    · rw [edgeSrc_rd _ _ _ h1 h2, hw]
    · exact hw
  simp only [report]
  rw [logEntry_rd, hm]
  simp only [List.map_cons, List.map_nil, List.mem_cons, List.not_mem_nil, or_false, not_or]
  exact ⟨h3, h4, h5, h6, h7, h8, h9, h10⟩

/-! ### The interrupts brought up to date -/

theorem vecMessage_only (s : State) (v : Nat) :
    vecMessage s v = { s with regs := (vecMessage s v).regs, hst := (vecMessage s v).hst, sent := (vecMessage s v).sent } := by
  simp only [vecMessage]
  repeat' split
  all_goals rfl

/-- A message leaves every register field but the PBA as it was. -/
theorem vecMessage_rd (s : State) (v : Nat) (g : Fld) (h : g.key ≠ (HST_MSIX_PBA_PBA 0).key) : (vecMessage s v).rd g = s.rd g := by
  have hw : ∀ (x : State) (b : Bool), (x.wrBit (HST_MSIX_PBA_PBA 0) v b).rd g = x.rd g := fun x b => rd_wr_ne _ _ _ _ h
  simp only [vecMessage]
  repeat' split
  all_goals first | rfl | rw [hw] | (rw [emit_rd, hw]; rfl)

theorem settleSend_only (vec old : Nat) (s : State) :
    settleSend vec old s = { s with regs := (settleSend vec old s).regs, hst := (settleSend vec old s).hst, sent := (settleSend vec old s).sent } := by
  unfold settleSend
  generalize List.range 32 = l
  induction l generalizing s with
  | nil => rfl
  | cons v r ih =>
    simp only [List.foldl_cons]
    split
    · rw [ih (vecMessage s v), vecMessage_only s v]
    · exact ih s

theorem settleSend_rd (vec old : Nat) (s : State) (g : Fld) (h : g.key ≠ (HST_MSIX_PBA_PBA 0).key) : (settleSend vec old s).rd g = s.rd g := by
  unfold settleSend
  generalize List.range 32 = l
  induction l generalizing s with
  | nil => rfl
  | cons v r ih =>
    simp only [List.foldl_cons]
    rw [ih]
    split
    · exact vecMessage_rd s v g h
    · rfl

theorem settleMarks_only (s : State) (pend vec : Nat) :
    settleMarks s pend vec = { s with regs := (settleMarks s pend vec).regs, hst := (settleMarks s pend vec).hst } := by
  simp only [settleMarks, State.wr]
  rw [wrs_only_regs]

/-- Bringing the interrupts up to date changes registers, the host interface and what has left the device alone. -/
theorem settle_only (s : State) :
    hstSettle s = { s with regs := (hstSettle s).regs, hst := (hstSettle s).hst, sent := (hstSettle s).sent } := by
  unfold hstSettle
  generalize vecSet s (pendSet s) = vec
  generalize pendSet s = pend
  rw [settleSend_only, settleMarks_only]

/-- The places of the registers that bringing the interrupts up to date may write. -/
def settleKeys : List Nat :=
  [HST_SRC_PEND_LO_PEND.key, HST_SRC_PEND_HI_PEND.key, HST_VEC_STS_ASSERTED.key, (HST_MSIX_PBA_PBA 0).key]

/-- Every other register field reads as before. -/
theorem settle_rd (s : State) (g : Fld) (h : g.key ∉ settleKeys) : (hstSettle s).rd g = s.rd g := by
  simp only [settleKeys, List.mem_cons, List.not_mem_nil, or_false, not_or] at h
  obtain ⟨h1, h2, h3, h4⟩ := h
  have hw : ∀ (x : State) (a b c : Nat),
      (x.wrs [(HST_SRC_PEND_LO_PEND, a), (HST_SRC_PEND_HI_PEND, b), (HST_VEC_STS_ASSERTED, c)]).rd g = x.rd g := by
    intro x a b c
    apply rd_wrs_ne
    intro p hp
    simp only [List.mem_cons, List.not_mem_nil, or_false] at hp
    rcases hp with rfl | rfl | rfl <;> assumption
  unfold hstSettle
  rw [settleSend_rd _ _ _ _ h4]
  generalize vecSet s (pendSet s) = vec
  generalize pendSet s = pend
  unfold settleMarks
  rw [rd_wr_ne _ _ _ _ h4]
  exact hw _ _ _ _

@[simp] theorem settle_pending (s : State) : (hstSettle s).pending = s.pending := by rw [settle_only]
@[simp] theorem settle_shadow (s : State) : (hstSettle s).shadow = s.shadow := by rw [settle_only]
@[simp] theorem settle_free (s : State) : (hstSettle s).free = s.free := by rw [settle_only]
@[simp] theorem settle_log (s : State) : (hstSettle s).log = s.log := by rw [settle_only]
@[simp] theorem settle_tim (s : State) : (hstSettle s).tim = s.tim := by rw [settle_only]
@[simp] theorem settle_seq (s : State) : (hstSettle s).seq = s.seq := by rw [settle_only]
@[simp] theorem settle_img (s : State) : (hstSettle s).img = s.img := by rw [settle_only]
@[simp] theorem settle_flt (s : State) : (hstSettle s).flt = s.flt := by rw [settle_only]
@[simp] theorem settle_ref (s : State) : (hstSettle s).ref = s.ref := by rw [settle_only]
@[simp] theorem settle_oce (s : State) : (hstSettle s).oce = s.oce := by rw [settle_only]
@[simp] theorem settle_banks (s : State) : (hstSettle s).banks = s.banks := by rw [settle_only]
@[simp] theorem settle_alloc (s : State) : (hstSettle s).alloc = s.alloc := by rw [settle_only]
@[simp] theorem settle_lmem (s : State) : (hstSettle s).lmem = s.lmem := by rw [settle_only]
@[simp] theorem settle_fld (s : State) : (hstSettle s).fld = s.fld := by rw [settle_only]
@[simp] theorem settle_saf (s : State) : (hstSettle s).saf = s.saf := by rw [settle_only]
@[simp] theorem settle_net (s : State) : (hstSettle s).net = s.net := by rw [settle_only]
@[simp] theorem settle_can (s : State) : (hstSettle s).can = s.can := by rw [settle_only]
@[simp] theorem settle_err (s : State) : (hstSettle s).err = s.err := by rw [settle_only]
@[simp] theorem settle_jnl (s : State) : (hstSettle s).jnl = s.jnl := by rw [settle_only]
@[simp] theorem settle_red (s : State) : (hstSettle s).red = s.red := by rw [settle_only]
@[simp] theorem settle_pst (s : State) : (hstSettle s).pst = s.pst := by rw [settle_only]
@[simp] theorem settle_gns (s : State) : (hstSettle s).gns = s.gns := by rw [settle_only]
@[simp] theorem settle_sec_ (s : State) : (hstSettle s).sec_ = s.sec_ := by rw [settle_only]
@[simp] theorem settle_rcd (s : State) : (hstSettle s).rcd = s.rcd := by rw [settle_only]
@[simp] theorem settle_clk (s : State) : (hstSettle s).clk = s.clk := by rw [settle_only]

/-! ### Host accesses -/

/-- A write that is let through has its effect on the state in which the access is taken. -/
theorem hostDo_lets (s : State) (p : Path) (off v t : Nat) (f : State → State) (h : s.lets p off) :
    hostDo (s.at t) p off v f = f (s.taken p t) := by
  have h' : gate (s.at t) p off true = .pass := h
  simp only [hostDo, h', State.taken]

/-- A read that is let through has its effect on the state in which the access is taken. -/
theorem hostRd_lets (s : State) (p : Path) (off t : Nat) (f : State → State) (h : s.letsRead p off) :
    hostRd (s.at t) p off f = f (s.taken p t) := by
  have h' : gate (s.at t) p off false = .pass := h
  simp only [hostRd, h', State.taken]

@[simp] theorem taken_rd (s : State) (p : Path) (t : Nat) (f : Fld) : (s.taken p t).rd f = s.rd f := rfl
@[simp] theorem taken_flag (s : State) (p : Path) (t : Nat) (f : Fld) : (s.taken p t).flag f = s.flag f := rfl

end Sys2Proof.Laws
end

