-- ==== Sys2Proof/Laws/Exec.lean ====
section
/-! SUPPORT. What holds of every command: it answers a next state, and the interrupts of that state are up to date. -/

namespace Sys2Proof.Laws

open Sys2Proof Sys2Proof.Machine

/-- Every command answers a state whose interrupts have been brought up to date. -/
theorem exec_settles (i : Instr) (s : State) : ∃ x, exec i s = .next (hstSettle x) := by
  cases i <;> exact ⟨_, rfl⟩

end Sys2Proof.Laws
end

