-- ==== Sys2Proof/Tests/Slice0.lean ====
section
/-! SUPPORT. Tests: the well-formedness checks refuse an ill-formed term each, and every statement's hypotheses are met by a small concrete
state, on which the command then does what its rule says. -/

namespace Sys2Proof.Tests

open Sys2Proof Sys2Proof.Machine

set_option Elab.async false

/-- The state after a command. -/
def after (c : Instr) (s : State) : State :=
  match exec c s with
  | .next t => t
  | _ => s

/-- The state after reset with some register fields written. -/
def withRegs (l : List (Fld × Nat)) : State := State.reset.wrs l

/-- As after reset, with the PCIe path's register-map version settled to 4.1, so that its accesses reach every register. -/
def readyWith (l : List (Fld × Nat)) : State :=
  withRegs ([(HST_MAP_SET_SETTLED, 1), (HST_MAP_SET_MAJOR, 4), (HST_MAP_SET_MINOR, 1)] ++ l)


/-- `n` octets, zero but for those listed by place. -/
def octets (n : Nat) (l : List (Nat × Nat)) : List Byte := l.foldl (fun b p => b.set p.1 (BitVec.ofNat 8 p.2)) (List.replicate n 0)

/-- A state with some sections of instance 0 in place. -/
def withSecs (l : List (Nat × List Byte)) (s : State) : State := { s with img := { s.img with secs := l.map fun x => ⟨x.1, 0, x.2⟩ } }

/-- A cycle in flight, number `n`, T0 at count 0, that has reached stage `st`. -/
def cycAt (n st : Nat) : Cyc :=
  { n := n, t0 := 0, missed := false, committed := false, results := [], entries := [], reported := [],
    inp := ⟨0, [], 1, [], 0, 0, [], false, false, false, 0, 0, 0, [], [], [], []⟩,
    run := ⟨st, false, 0, false, false, false, 0, false, false, true, false, false, false, false, [], 0, 0, 0, 0⟩,
    out := ⟨[], [], none, none, [], [], [], 0, [], [], []⟩, snap := ⟨[], ⟨[], []⟩, OceSt.reset⟩, fail := none, commit := none }

/-- A state whose cycles in flight are the ones given. -/
def withCycs (l : List Cyc) (s : State) : State := { s with seq := { s.seq with cycs := l } }

/-! Well-formedness: for each check of each command, a value just outside it is refused whatever the other operands are. -/

theorem test_wf_1 :
    (∀ (x1 : Nat) (x2 : Nat) (x3 : Bool) (x4 : Nat), (Instr.registerWrite (.sess 4) x1 x2 x3 x4).wf = false)
    ∧ (∀ (x2 : Nat) (x3 : Bool) (x4 : Nat), (Instr.registerWrite .pcie (0x400000) x2 x3 x4).wf = false)
    ∧ (∀ (x1 : Nat) (x3 : Bool) (x4 : Nat), (Instr.registerWrite .pcie x1 (2 ^ 32) x3 x4).wf = false)
    ∧ (∀ (x1 : Nat) (x2 : Bool) (x3 : Nat), (Instr.pairLowWordRead (.sess 4) x1 x2 x3).wf = false)
    ∧ (∀ (x2 : Bool) (x3 : Nat), (Instr.pairLowWordRead .pcie (0x400000) x2 x3).wf = false)
    ∧ (∀ (x1 : Nat), (Instr.seqStart (.sess 4) x1).wf = false)
    ∧ (∀ (x1 : Nat), (Instr.seqHalt (.sess 4) x1).wf = false)
    ∧ (∀ (x0 : Nat) (x2 : Nat), (Instr.stageStart x0 0 x2).wf = false)
    ∧ (∀ (x0 : Nat) (x2 : Nat), (Instr.stageStart x0 (9 + 1) x2).wf = false)
    ∧ (∀ (x0 : Nat) (x2 : List (Nat × Nat)) (x3 : Nat), (Instr.stageEnd x0 0 x2 x3).wf = false)
    ∧ (∀ (x0 : Nat) (x2 : List (Nat × Nat)) (x3 : Nat), (Instr.stageEnd x0 (9 + 1) x2 x3).wf = false)
    ∧ (∀ (x0 : Nat) (x2 : Nat), (Instr.stageDeadline x0 0 x2).wf = false)
    ∧ (∀ (x0 : Nat) (x2 : Nat), (Instr.stageDeadline x0 (9 + 1) x2).wf = false)
    ∧ (∀ (x1 : Nat), (Instr.spArm (.sess 4) x1).wf = false)
    ∧ (∀ (x1 : Nat), (Instr.spDisarm (.sess 4) x1).wf = false)
    ∧ (∀ (x1 : Nat) (x2 : Nat), (Instr.imgLoad (.sess 4) x1 x2).wf = false)
    ∧ (∀ (x2 : Nat), (Instr.imgLoad .pcie (8) x2).wf = false)
    ∧ (∀ (x1 : Nat) (x2 : Nat), (Instr.imgCheck (.sess 4) x1 x2).wf = false)
    ∧ (∀ (x2 : Nat), (Instr.imgCheck .pcie (8) x2).wf = false)
    ∧ (∀ (x1 : Nat) (x2 : Nat), (Instr.imgStore (.sess 4) x1 x2).wf = false)
    ∧ (∀ (x2 : Nat), (Instr.imgStore .pcie (8) x2).wf = false)
    ∧ (∀ (x1 : Nat) (x2 : Nat), (Instr.imgConfirm (.sess 4) x1 x2).wf = false)
    ∧ (∀ (x2 : Nat), (Instr.imgConfirm .pcie (8) x2).wf = false)
    ∧ (∀ (x1 : Nat) (x2 : Nat), (Instr.imgAbandon (.sess 4) x1 x2).wf = false) := by
  refine ⟨?_, ?_, ?_, ?_, ?_, ?_, ?_, ?_, ?_, ?_, ?_, ?_, ?_, ?_, ?_, ?_, ?_, ?_, ?_, ?_, ?_, ?_, ?_, ?_⟩ <;> intros <;> simp [Instr.wf, Path.wf, PtpHdr.wf, PstHdr.wf]

theorem test_wf_2 :
    (∀ (x2 : Nat), (Instr.imgAbandon .pcie (8) x2).wf = false)
    ∧ (∀ (x1 : Nat) (x2 : Nat), (Instr.funcStop (.sess 4) x1 x2).wf = false)
    ∧ (∀ (x2 : Nat), (Instr.funcStop .pcie (2 ^ 32) x2).wf = false)
    ∧ (∀ (x1 : Nat), (Instr.groupStopped (20) x1).wf = false)
    ∧ (∀ (x1 : Nat) (x2 : Nat), (Instr.funcRestart (.sess 4) x1 x2).wf = false)
    ∧ (∀ (x2 : Nat), (Instr.funcRestart .pcie (2 ^ 32) x2).wf = false)
    ∧ (∀ (x1 : Nat) (x2 : Nat), (Instr.firSample (48) x1 x2).wf = false)
    ∧ (∀ (x1 : List Nat) (x2 : List Nat) (x3 : Nat), (Instr.occupancyWindow (4) x1 x2 x3).wf = false)
    ∧ (∀ (x0 : Nat) (x2 : List Nat) (x3 : Nat), (Instr.occupancyWindow x0 (List.replicate 65 0) x2 x3).wf = false)
    ∧ (∀ (x0 : Nat) (x1 : List Nat) (x3 : Nat), (Instr.occupancyWindow x0 x1 (List.replicate 65 0) x3).wf = false)
    ∧ (∀ (x1 : Nat), (Instr.feSpiDone (2 ^ 24) x1).wf = false)
    ∧ (∀ (x1 : Int) (x2 : Int) (x3 : Nat) (x4 : Nat) (x5 : Nat) (x6 : Nat) (x7 : Nat), (Instr.loopUpdate (256) x1 x2 x3 x4 x5 x6 x7).wf = false)
    ∧ (∀ (x1 : Nat), (Instr.pullInEnd (256) x1).wf = false)
    ∧ (∀ (x1 : NavWord) (x2 : Bool) (x3 : Nat), (Instr.navWordDecoded (256) x1 x2 x3).wf = false)
    ∧ (∀ (x1 : Nat) (x2 : Nat), (Instr.gnsRtcmData (.sess 4) x1 x2).wf = false)
    ∧ (∀ (x2 : Nat), (Instr.gnsRtcmData .pcie (2 ^ 32) x2).wf = false)
    ∧ (∀ (x1 : Nat), (Instr.oceReinit (.sess 4) x1).wf = false)
    ∧ (∀ (x1 : Nat), (Instr.oceBankSwap (.sess 4) x1).wf = false)
    ∧ (∀ (x1 : Nat), (Instr.oceBankSeal (.sess 4) x1).wf = false)
    ∧ (∀ (x1 : Nat) (x2 : Nat) (x3 : Nat) (x4 : Nat), (Instr.bankWordWrite (.sess 4) x1 x2 x3 x4).wf = false)
    ∧ (∀ (x2 : Nat) (x3 : Nat) (x4 : Nat), (Instr.bankWordWrite .pcie (2) x2 x3 x4).wf = false)
    ∧ (∀ (x1 : Nat) (x3 : Nat) (x4 : Nat), (Instr.bankWordWrite .pcie x1 (16384) x3 x4).wf = false)
    ∧ (∀ (x1 : Nat) (x2 : Nat) (x4 : Nat), (Instr.bankWordWrite .pcie x1 x2 (2 ^ 32) x4).wf = false)
    ∧ (∀ (x1 : Nat) (x2 : Nat) (x3 : Nat), (Instr.laneJobStart (64) x1 x2 x3).wf = false) := by
  refine ⟨?_, ?_, ?_, ?_, ?_, ?_, ?_, ?_, ?_, ?_, ?_, ?_, ?_, ?_, ?_, ?_, ?_, ?_, ?_, ?_, ?_, ?_, ?_, ?_⟩ <;> intros <;> simp [Instr.wf, Path.wf, PtpHdr.wf, PstHdr.wf]

theorem test_wf_3 :
    (∀ (x1 : Nat) (x2 : Nat) (x3 : Nat), (Instr.laneJobEnd (64) x1 x2 x3).wf = false)
    ∧ (∀ (x1 : Nat) (x2 : Nat) (x3 : Nat) (x4 : Nat) (x5 : Nat), (Instr.laneJobDeadline (64) x1 x2 x3 x4 x5).wf = false)
    ∧ (∀ (x1 : Nat) (x2 : Nat), (Instr.laneMemDataRead (.sess 4) x1 x2).wf = false)
    ∧ (∀ (x2 : Nat), (Instr.laneMemDataRead .pcie (64) x2).wf = false)
    ∧ (∀ (x1 : Nat) (x2 : Nat) (x3 : Nat) (x4 : Nat), (Instr.laneResidueFault (64) x1 x2 x3 x4).wf = false)
    ∧ (∀ (x0 : Nat) (x2 : Nat) (x3 : Nat), (Instr.firCheckFault x0 (some (48)) x2 x3).wf = false)
    ∧ (∀ (x1 : Nat), (Instr.forceS (.sess 4) x1).wf = false)
    ∧ (∀ (x1 : Nat), (Instr.clrCnt (.sess 4) x1).wf = false)
    ∧ (∀ (x1 : Nat) (x2 : Nat), (Instr.errInjArm (.sess 4) x1 x2).wf = false)
    ∧ (∀ (x2 : Nat), (Instr.errInjArm .pcie (2 ^ 32) x2).wf = false)
    ∧ (∀ (x1 : Nat), (Instr.jnlRdDataRead (.sess 4) x1).wf = false)
    ∧ (∀ (x1 : Nat) (x2 : Nat) (x3 : Nat), (Instr.encSample (32) x1 x2 x3).wf = false)
    ∧ (∀ (x1 : EncWord) (x2 : Nat), (Instr.encTransferEnd (32) x1 x2).wf = false)
    ∧ (∀ (x1 : Nat), (Instr.monoflopEnd (32) x1).wf = false)
    ∧ (∀ (x1 : Option EncWord) (x2 : Nat), (Instr.relayTransfer (32) x1 x2).wf = false)
    ∧ (∀ (x1 : Nat), (Instr.relayAbort (32) x1).wf = false)
    ∧ (∀ (x1 : Bool) (x2 : Bool) (x3 : Nat), (Instr.quadEdge (32) x1 x2 x3).wf = false)
    ∧ (∀ (x1 : Nat), (Instr.quadZEdge (32) x1).wf = false)
    ∧ (∀ (x1 : Bool) (x2 : Nat), (Instr.pinLevelAccept (64) x1 x2).wf = false)
    ∧ (∀ (x1 : Nat), (Instr.pwmPeriodStart (64) x1).wf = false)
    ∧ (∀ (x1 : Nat) (x2 : Bool) (x3 : Bool) (x4 : Nat), (Instr.safeTick (2 ^ 16) x1 x2 x3 x4).wf = false)
    ∧ (∀ (x0 : Nat) (x2 : Bool) (x3 : Bool) (x4 : Nat), (Instr.safeTick x0 (2 ^ 8) x2 x3 x4).wf = false)
    ∧ (∀ (x1 : Bool) (x2 : Nat), (Instr.safeInputAccept (16) x1 x2).wf = false)
    ∧ (∀ (x1 : Nat), (Instr.discrepancyTimeout (8) x1).wf = false) := by
  refine ⟨?_, ?_, ?_, ?_, ?_, ?_, ?_, ?_, ?_, ?_, ?_, ?_, ?_, ?_, ?_, ?_, ?_, ?_, ?_, ?_, ?_, ?_, ?_, ?_⟩ <;> intros <;> simp [Instr.wf, Path.wf, PtpHdr.wf, PstHdr.wf]

theorem test_wf_4 :
    (∀ (x1 : Nat) (x2 : Nat), (Instr.testPulseStart (2) x1 x2).wf = false)
    ∧ (∀ (x0 : Nat) (x2 : Nat), (Instr.testPulseStart x0 (2 ^ 16) x2).wf = false)
    ∧ (∀ (x1 : Nat) (x2 : Nat), (Instr.testPulseEnd (2) x1 x2).wf = false)
    ∧ (∀ (x0 : Nat) (x2 : Nat), (Instr.testPulseEnd x0 (2 ^ 16) x2).wf = false)
    ∧ (∀ (x1 : Nat), (Instr.stop1Expired (8) x1).wf = false)
    ∧ (∀ (x1 : Nat), (Instr.twoHandSyncTimeout (8) x1).wf = false)
    ∧ (∀ (x1 : Nat), (Instr.readbackFault (4) x1).wf = false)
    ∧ (∀ (x1 : Bool) (x2 : Bool) (x3 : Nat), (Instr.darkPulse (4) x1 x2 x3).wf = false)
    ∧ (∀ (x1 : Int) (x2 : Nat), (Instr.sourceOffset (4) x1 x2).wf = false)
    ∧ (∀ (x1 : Nat), (Instr.sourceLossTimeout (4) x1).wf = false)
    ∧ (∀ (x1 : Nat), (Instr.sourceRevert (4) x1).wf = false)
    ∧ (∀ (x1 : Nat), (Instr.timSet (.sess 4) x1).wf = false)
    ∧ (∀ (x1 : Nat), (Instr.timNowRead (.sess 4) x1).wf = false)
    ∧ (∀ (x1 : Nat), (Instr.timConvRead (.sess 4) x1).wf = false)
    ∧ (∀ (x1 : Option Int) (x2 : Nat) (x3 : Nat), (Instr.ptpSync ⟨16, 0, 0, 0, 0, 0, 0⟩ x1 x2 x3).wf = false)
    ∧ (∀ (x1 : Int) (x2 : Nat), (Instr.ptpFollowUp ⟨16, 0, 0, 0, 0, 0, 0⟩ x1 x2).wf = false)
    ∧ (∀ (x1 : PtpData) (x2 : Option (Nat × Bool × Bool)) (x3 : Nat), (Instr.ptpAnnounce ⟨16, 0, 0, 0, 0, 0, 0⟩ x1 x2 x3).wf = false)
    ∧ (∀ (x1 : Int) (x2 : Bool) (x3 : Nat), (Instr.ptpDelayResp ⟨16, 0, 0, 0, 0, 0, 0⟩ x1 x2 x3).wf = false)
    ∧ (∀ (x1 : Bool) (x2 : Nat), (Instr.tcapCapture (4) x1 x2).wf = false)
    ∧ (∀ (x1 : Nat), (Instr.tcapTrigger (4) x1).wf = false)
    ∧ (∀ (x1 : Nat) (x2 : Nat) (x3 : Nat), (Instr.tcapArm (.sess 4) x1 x2 x3).wf = false)
    ∧ (∀ (x2 : Nat) (x3 : Nat), (Instr.tcapArm .pcie (4) x2 x3).wf = false)
    ∧ (∀ (x1 : Nat) (x3 : Nat), (Instr.tcapArm .pcie x1 (2 ^ 32) x3).wf = false)
    ∧ (∀ (x1 : Nat) (x2 : Nat), (Instr.tcapCapRead (.sess 4) x1 x2).wf = false) := by
  refine ⟨?_, ?_, ?_, ?_, ?_, ?_, ?_, ?_, ?_, ?_, ?_, ?_, ?_, ?_, ?_, ?_, ?_, ?_, ?_, ?_, ?_, ?_, ?_, ?_⟩ <;> intros <;> simp [Instr.wf, Path.wf, PtpHdr.wf, PstHdr.wf]

theorem test_wf_5 :
    (∀ (x2 : Nat), (Instr.tcapCapRead .pcie (4) x2).wf = false)
    ∧ (∀ (x1 : Nat) (x2 : Bool) (x3 : Nat), (Instr.ethLinkUp (4) x1 x2 x3).wf = false)
    ∧ (∀ (x0 : Nat) (x2 : Bool) (x3 : Nat), (Instr.ethLinkUp x0 7 x2 x3).wf = false)
    ∧ (∀ (x1 : Bool) (x2 : Nat), (Instr.ethLinkDown (4) x1 x2).wf = false)
    ∧ (∀ (x1 : Nat) (x2 : Nat) (x3 : Nat) (x4 : Nat), (Instr.mdioAddress (.sess 4) x1 x2 x3 x4).wf = false)
    ∧ (∀ (x2 : Nat) (x3 : Nat) (x4 : Nat), (Instr.mdioAddress .pcie (32) x2 x3 x4).wf = false)
    ∧ (∀ (x1 : Nat) (x3 : Nat) (x4 : Nat), (Instr.mdioAddress .pcie x1 (32) x3 x4).wf = false)
    ∧ (∀ (x1 : Nat) (x2 : Nat) (x4 : Nat), (Instr.mdioAddress .pcie x1 x2 (2 ^ 16) x4).wf = false)
    ∧ (∀ (x1 : Bool) (x2 : Nat) (x3 : Nat) (x4 : Nat) (x5 : Nat), (Instr.mdioWrite (.sess 4) x1 x2 x3 x4 x5).wf = false)
    ∧ (∀ (x1 : Bool) (x3 : Nat) (x4 : Nat) (x5 : Nat), (Instr.mdioWrite .pcie x1 (32) x3 x4 x5).wf = false)
    ∧ (∀ (x1 : Bool) (x2 : Nat) (x4 : Nat) (x5 : Nat), (Instr.mdioWrite .pcie x1 x2 (32) x4 x5).wf = false)
    ∧ (∀ (x1 : Bool) (x2 : Nat) (x3 : Nat) (x5 : Nat), (Instr.mdioWrite .pcie x1 x2 x3 (2 ^ 16) x5).wf = false)
    ∧ (∀ (x1 : Bool) (x2 : Nat) (x3 : Nat) (x4 : Nat), (Instr.mdioRead (.sess 4) x1 x2 x3 x4).wf = false)
    ∧ (∀ (x1 : Bool) (x3 : Nat) (x4 : Nat), (Instr.mdioRead .pcie x1 (32) x3 x4).wf = false)
    ∧ (∀ (x1 : Bool) (x2 : Nat) (x4 : Nat), (Instr.mdioRead .pcie x1 x2 (32) x4).wf = false)
    ∧ (∀ (x1 : Bool) (x2 : Nat), (Instr.mdioDone (2 ^ 16) x1 x2).wf = false)
    ∧ (∀ (x1 : List Byte) (x2 : Bool) (x3 : Bool) (x4 : Nat) (x5 : Nat), (Instr.ethFrameRx (4) x1 x2 x3 x4 x5).wf = false)
    ∧ (∀ (x1 : Nat), (Instr.ethLaunch (4) x1).wf = false)
    ∧ (∀ (x1 : Nat) (x2 : Nat), (Instr.ethTxComplete (4) x1 x2).wf = false)
    ∧ (∀ (x1 : Nat) (x2 : Nat) (x3 : Bool) (x4 : Bool) (x5 : List Byte) (x6 : Nat) (x7 : Nat), (Instr.canFrameRx (8) x1 x2 x3 x4 x5 x6 x7).wf = false)
    ∧ (∀ (x0 : Nat) (x2 : Nat) (x3 : Bool) (x4 : Bool) (x5 : List Byte) (x6 : Nat) (x7 : Nat), (Instr.canFrameRx x0 (2 ^ 32) x2 x3 x4 x5 x6 x7).wf = false)
    ∧ (∀ (x0 : Nat) (x1 : Nat) (x3 : Bool) (x4 : Bool) (x5 : List Byte) (x6 : Nat) (x7 : Nat), (Instr.canFrameRx x0 x1 (16) x3 x4 x5 x6 x7).wf = false)
    ∧ (∀ (x0 : Nat) (x1 : Nat) (x2 : Nat) (x3 : Bool) (x4 : Bool) (x6 : Nat) (x7 : Nat), (Instr.canFrameRx x0 x1 x2 x3 x4 (List.replicate 65 0) x6 x7).wf = false)
    ∧ (∀ (x1 : Nat), (Instr.canIntegrated (8) x1).wf = false) := by
  refine ⟨?_, ?_, ?_, ?_, ?_, ?_, ?_, ?_, ?_, ?_, ?_, ?_, ?_, ?_, ?_, ?_, ?_, ?_, ?_, ?_, ?_, ?_, ?_, ?_⟩ <;> intros <;> simp [Instr.wf, Path.wf, PtpHdr.wf, PstHdr.wf]

theorem test_wf_6 :
    (∀ (x1 : Nat) (x2 : Bool) (x3 : Option Nat) (x4 : Bool) (x5 : Nat), (Instr.canError (8) x1 x2 x3 x4 x5).wf = false)
    ∧ (∀ (x0 : Nat) (x2 : Bool) (x3 : Option Nat) (x4 : Bool) (x5 : Nat), (Instr.canError x0 (8) x2 x3 x4 x5).wf = false)
    ∧ (∀ (x0 : Nat) (x1 : Nat) (x2 : Bool) (x4 : Bool) (x5 : Nat), (Instr.canError x0 x1 x2 (some (32)) x4 x5).wf = false)
    ∧ (∀ (x1 : Nat), (Instr.canBusoffRecovered (8) x1).wf = false)
    ∧ (∀ (x1 : Nat), (Instr.canProtocolException (8) x1).wf = false)
    ∧ (∀ (x1 : Nat) (x2 : Nat), (Instr.canTxLaunch (8) x1 x2).wf = false)
    ∧ (∀ (x0 : Nat) (x2 : Nat), (Instr.canTxLaunch x0 (32) x2).wf = false)
    ∧ (∀ (x1 : Nat) (x2 : Nat) (x3 : Nat) (x4 : Nat), (Instr.canTxDone (8) x1 x2 x3 x4).wf = false)
    ∧ (∀ (x0 : Nat) (x2 : Nat) (x3 : Nat) (x4 : Nat), (Instr.canTxDone x0 (32) x2 x3 x4).wf = false)
    ∧ (∀ (x1 : Nat) (x2 : Nat) (x3 : Nat), (Instr.canTxReq (.sess 4) x1 x2 x3).wf = false)
    ∧ (∀ (x2 : Nat) (x3 : Nat), (Instr.canTxReq .pcie (8) x2 x3).wf = false)
    ∧ (∀ (x1 : Nat) (x3 : Nat), (Instr.canTxReq .pcie x1 (2 ^ 32) x3).wf = false)
    ∧ (∀ (x1 : Nat) (x2 : Nat) (x3 : Option Nat) (x4 : Nat), (Instr.canTxCancel (.sess 4) x1 x2 x3 x4).wf = false)
    ∧ (∀ (x2 : Nat) (x3 : Option Nat) (x4 : Nat), (Instr.canTxCancel .pcie (8) x2 x3 x4).wf = false)
    ∧ (∀ (x1 : Nat) (x3 : Option Nat) (x4 : Nat), (Instr.canTxCancel .pcie x1 (2 ^ 32) x3 x4).wf = false)
    ∧ (∀ (x1 : Nat) (x2 : Nat) (x4 : Nat), (Instr.canTxCancel .pcie x1 x2 (some (32)) x4).wf = false)
    ∧ (∀ (x1 : Nat) (x2 : Nat) (x3 : Nat), (Instr.canRxqPop (.sess 4) x1 x2 x3).wf = false)
    ∧ (∀ (x2 : Nat) (x3 : Nat), (Instr.canRxqPop .pcie (8) x2 x3).wf = false)
    ∧ (∀ (x1 : Nat) (x3 : Nat), (Instr.canRxqPop .pcie x1 (2) x3).wf = false)
    ∧ (∀ (x1 : Nat) (x2 : Nat), (Instr.canHpbPop (.sess 4) x1 x2).wf = false)
    ∧ (∀ (x2 : Nat), (Instr.canHpbPop .pcie (8) x2).wf = false)
    ∧ (∀ (x1 : Nat), (Instr.canProbeTimeout (8) x1).wf = false)
    ∧ (∀ (x1 : Nat), (Instr.redPromote (.sess 4) x1).wf = false)
    ∧ (∀ (x1 : Nat), (Instr.redStandDown (.sess 4) x1).wf = false) := by
  refine ⟨?_, ?_, ?_, ?_, ?_, ?_, ?_, ?_, ?_, ?_, ?_, ?_, ?_, ?_, ?_, ?_, ?_, ?_, ?_, ?_, ?_, ?_, ?_, ?_⟩ <;> intros <;> simp [Instr.wf, Path.wf, PtpHdr.wf, PstHdr.wf]

theorem test_wf_7 :
    (∀ (x1 : Nat), (Instr.redResync (.sess 4) x1).wf = false)
    ∧ (∀ (x1 : Nat), (Instr.redSleep (.sess 4) x1).wf = false)
    ∧ (∀ (x1 : Nat), (Instr.clrFeed (.sess 4) x1).wf = false)
    ∧ (∀ (x1 : Bool) (x2 : Nat), (Instr.vaonLoss (2) x1 x2).wf = false)
    ∧ (∀ (x1 : Bool) (x2 : Nat), (Instr.feedWarning (2) x1 x2).wf = false)
    ∧ (∀ (x1 : Bool) (x2 : Nat), (Instr.feedLoss (2) x1 x2).wf = false)
    ∧ (∀ (x1 : Nat), (Instr.feedRestored (2) x1).wf = false)
    ∧ (∀ (x1 : Bool) (x2 : Bool) (x3 : Nat), (Instr.pisteTrained (2) x1 x2 x3).wf = false)
    ∧ (∀ (x1 : Nat), (Instr.pisteTrainTimeout (2) x1).wf = false)
    ∧ (∀ (x1 : Bool) (x2 : Nat), (Instr.pisteLaneRetry (2) x1 x2).wf = false)
    ∧ (∀ (x1 : Nat), (Instr.pisteLinkLoss (2) x1).wf = false)
    ∧ (∀ (x1 : Nat), (Instr.helloSend (2) x1).wf = false)
    ∧ (∀ (x1 : Nat), (Instr.helloTimeout (2) x1).wf = false)
    ∧ (∀ (x1 : Option Nat) (x2 : Nat), (Instr.pisteFrameError (2) x1 x2).wf = false)
    ∧ (∀ (x1 : Nat), (Instr.delayTimer (2) x1).wf = false)
    ∧ (∀ (x1 : HelloData) (x2 : Nat), (Instr.hello ⟨3, 0, 0, false, false, 0, 0⟩ x1 x2).wf = false)
    ∧ (∀ (x1 : Nat), (Instr.noticeFailSilent ⟨3, 0, 0, false, false, 0, 0⟩ x1).wf = false)
    ∧ (∀ (x1 : Nat), (Instr.noticeOutOfStep ⟨3, 0, 0, false, false, 0, 0⟩ x1).wf = false)
    ∧ (∀ (x1 : Nat), (Instr.noticeActingMaster ⟨3, 0, 0, false, false, 0, 0⟩ x1).wf = false)
    ∧ (∀ (x1 : Nat), (Instr.noticeMasterLost ⟨3, 0, 0, false, false, 0, 0⟩ x1).wf = false)
    ∧ (∀ (x1 : Int) (x2 : Int) (x3 : Int) (x4 : Int) (x5 : Nat), (Instr.delay (2) x1 x2 x3 x4 x5).wf = false)
    ∧ (∀ (x1 : Int) (x2 : Int) (x3 : Bool) (x4 : Nat), (Instr.align ⟨3, 0, 0, false, false, 0, 0⟩ x1 x2 x3 x4).wf = false)
    ∧ (∀ (x1 : Option Int) (x2 : Nat), (Instr.modeStart ⟨3, 0, 0, false, false, 0, 0⟩ x1 x2).wf = false)
    ∧ (∀ (x1 : Option (Nat × Int)) (x2 : Nat), (Instr.join ⟨3, 0, 0, false, false, 0, 0⟩ x1 x2).wf = false) := by
  refine ⟨?_, ?_, ?_, ?_, ?_, ?_, ?_, ?_, ?_, ?_, ?_, ?_, ?_, ?_, ?_, ?_, ?_, ?_, ?_, ?_, ?_, ?_, ?_, ?_⟩ <;> intros <;> simp [Instr.wf, Path.wf, PtpHdr.wf, PstHdr.wf]

theorem test_wf_8 :
    (∀ (x1 : Nat) (x2 : Nat) (x3 : Nat), (Instr.prepare ⟨3, 0, 0, false, false, 0, 0⟩ x1 x2 x3).wf = false)
    ∧ (∀ (x0 : PstHdr) (x2 : Nat) (x3 : Nat), (Instr.prepare x0 (2 ^ 32) x2 x3).wf = false)
    ∧ (∀ (x0 : PstHdr) (x1 : Nat) (x3 : Nat), (Instr.prepare x0 x1 (2 ^ 20) x3).wf = false)
    ∧ (∀ (x1 : Nat) (x2 : Nat), (Instr.ack ⟨3, 0, 0, false, false, 0, 0⟩ x1 x2).wf = false)
    ∧ (∀ (x0 : PstHdr) (x2 : Nat), (Instr.ack x0 (2 ^ 32) x2).wf = false)
    ∧ (∀ (x1 : Nat) (x2 : Nat), (Instr.nack ⟨3, 0, 0, false, false, 0, 0⟩ x1 x2).wf = false)
    ∧ (∀ (x0 : PstHdr) (x2 : Nat), (Instr.nack x0 (2 ^ 32) x2).wf = false)
    ∧ (∀ (x1 : Nat) (x2 : Nat) (x3 : Nat), (Instr.seal ⟨3, 0, 0, false, false, 0, 0⟩ x1 x2 x3).wf = false)
    ∧ (∀ (x0 : PstHdr) (x2 : Nat) (x3 : Nat), (Instr.seal x0 (2 ^ 32) x2 x3).wf = false)
    ∧ (∀ (x1 : Nat) (x2 : Bool) (x3 : Nat), (Instr.vote ⟨3, 0, 0, false, false, 0, 0⟩ x1 x2 x3).wf = false)
    ∧ (∀ (x0 : PstHdr) (x2 : Bool) (x3 : Nat), (Instr.vote x0 (2 ^ 32) x2 x3).wf = false)
    ∧ (∀ (x1 : Nat) (x2 : Nat) (x3 : Nat), (Instr.mcCommit ⟨3, 0, 0, false, false, 0, 0⟩ x1 x2 x3).wf = false)
    ∧ (∀ (x0 : PstHdr) (x2 : Nat) (x3 : Nat), (Instr.mcCommit x0 (2 ^ 32) x2 x3).wf = false)
    ∧ (∀ (x1 : Nat) (x2 : Nat), (Instr.mcAbort ⟨3, 0, 0, false, false, 0, 0⟩ x1 x2).wf = false)
    ∧ (∀ (x0 : PstHdr) (x2 : Nat), (Instr.mcAbort x0 (2 ^ 32) x2).wf = false)
    ∧ (∀ (x1 : Nat) (x2 : Nat), (Instr.applied ⟨3, 0, 0, false, false, 0, 0⟩ x1 x2).wf = false)
    ∧ (∀ (x0 : PstHdr) (x2 : Nat), (Instr.applied x0 (2 ^ 32) x2).wf = false)
    ∧ (∀ (x1 : Nat), (Instr.reload ⟨3, 0, 0, false, false, 0, 0⟩ x1).wf = false)
    ∧ (∀ (x1 : AgreeBlk) (x2 : Nat), (Instr.agree ⟨3, 0, 0, false, false, 0, 0⟩ x1 x2).wf = false)
    ∧ (∀ (x1 : SrcWord) (x2 : Nat), (Instr.srcword ⟨3, 0, 0, false, false, 0, 0⟩ x1 x2).wf = false)
    ∧ (∀ (x1 : Option Nat) (x2 : Bool) (x3 : List (Nat × Nat)) (x4 : Nat), (Instr.digest ⟨3, 0, 0, false, false, 0, 0⟩ x1 x2 x3 x4).wf = false)
    ∧ (∀ (x0 : PstHdr) (x2 : Bool) (x3 : List (Nat × Nat)) (x4 : Nat), (Instr.digest x0 (some (2 ^ 32)) x2 x3 x4).wf = false)
    ∧ (∀ (x1 : CommitRec) (x2 : Nat), (Instr.commitblk ⟨3, 0, 0, false, false, 0, 0⟩ x1 x2).wf = false)
    ∧ (∀ (x1 : ShareMsg) (x2 : Nat), (Instr.share ⟨3, 0, 0, false, false, 0, 0⟩ x1 x2).wf = false) := by
  refine ⟨?_, ?_, ?_, ?_, ?_, ?_, ?_, ?_, ?_, ?_, ?_, ?_, ?_, ?_, ?_, ?_, ?_, ?_, ?_, ?_, ?_, ?_, ?_, ?_⟩ <;> intros <;> simp [Instr.wf, Path.wf, PtpHdr.wf, PstHdr.wf]

theorem test_wf_9 :
    (∀ (x1 : Nat) (x2 : Int) (x3 : Bool) (x4 : Nat) (x5 : Prob) (x6 : Nat), (Instr.multJob ⟨3, 0, 0, false, false, 0, 0⟩ x1 x2 x3 x4 x5 x6).wf = false)
    ∧ (∀ (x1 : Nat) (x2 : JobRes) (x3 : Nat), (Instr.multRes ⟨3, 0, 0, false, false, 0, 0⟩ x1 x2 x3).wf = false)
    ∧ (∀ (x1 : Nat) (x2 : LsProb) (x3 : Option JobRes) (x4 : Nat), (Instr.gnssRec ⟨3, 0, 0, false, false, 0, 0⟩ x1 x2 x3 x4).wf = false)
    ∧ (∀ (x1 : Option Ckpt) (x2 : Nat) (x3 : Nat) (x4 : List (Nat × Nat)) (x5 : List Nat) (x6 : Nat), (Instr.ckpt ⟨3, 0, 0, false, false, 0, 0⟩ x1 x2 x3 x4 x5 x6).wf = false)
    ∧ (∀ (x1 : JnlRec) (x2 : Bool) (x3 : Nat), (Instr.jrec ⟨3, 0, 0, false, false, 0, 0⟩ x1 x2 x3).wf = false)
    ∧ (∀ (x1 : TunMsg) (x2 : Nat), (Instr.tunnel ⟨3, 0, 0, false, false, 0, 0⟩ x1 x2).wf = false)
    ∧ (∀ (x1 : ImgMsg) (x2 : Nat), (Instr.image ⟨3, 0, 0, false, false, 0, 0⟩ x1 x2).wf = false)
    ∧ (∀ (x1 : Nat), (Instr.handback (.sess 4) x1).wf = false)
    ∧ (∀ (x1 : Nat), (Instr.pstReload (.sess 4) x1).wf = false)
    ∧ (∀ (x1 : Nat) (x2 : Nat), (Instr.mcPrepare (.sess 4) x1 x2).wf = false)
    ∧ (∀ (x2 : Nat), (Instr.mcPrepare .pcie (2 ^ 20) x2).wf = false)
    ∧ (∀ (x1 : Nat), (Instr.mcSeal (.sess 4) x1).wf = false)
    ∧ (∀ (x1 : Nat), (Instr.mcHostAbort (.sess 4) x1).wf = false)
    ∧ (∀ (x1 : Nat) (x2 : Nat), (Instr.tunnelRead (.sess 4) x1 x2).wf = false)
    ∧ (∀ (x2 : Nat), (Instr.tunnelRead .pcie (2 ^ 14) x2).wf = false)
    ∧ (∀ (x1 : Nat) (x2 : Nat), (Instr.tunnelWrite (.sess 4) x1 x2).wf = false)
    ∧ (∀ (x2 : Nat), (Instr.tunnelWrite .pcie (2 ^ 14) x2).wf = false)
    ∧ (∀ (x1 : Nat), (Instr.imgdGo (.sess 4) x1).wf = false)
    ∧ (∀ (x1 : Nat), (Instr.sourceProven (11) x1).wf = false)
    ∧ (∀ (x1 : Nat), (Instr.pllLocked (5) x1).wf = false)
    ∧ (∀ (x1 : Nat), (Instr.clockMonitorTrip (11) x1).wf = false)
    ∧ (∀ (x1 : Nat), (Instr.clockReturn (12) x1).wf = false)
    ∧ (∀ (x1 : Nat), (Instr.rampStep (12) x1).wf = false)
    ∧ (∀ (x1 : Nat) (x2 : Nat), (Instr.clkGateReq (.sess 4) x1 x2).wf = false) := by
  refine ⟨?_, ?_, ?_, ?_, ?_, ?_, ?_, ?_, ?_, ?_, ?_, ?_, ?_, ?_, ?_, ?_, ?_, ?_, ?_, ?_, ?_, ?_, ?_, ?_⟩ <;> intros <;> simp [Instr.wf, Path.wf, PtpHdr.wf, PstHdr.wf]

theorem test_wf_10 :
    (∀ (x2 : Nat), (Instr.clkGateReq .pcie (2 ^ 32) x2).wf = false)
    ∧ (∀ (x1 : Nat), (Instr.gateDone (12) x1).wf = false)
    ∧ (∀ (x1 : Nat), (Instr.gateBusy (12) x1).wf = false)
    ∧ (∀ (x1 : Nat) (x2 : Nat), (Instr.fmeasGo (.sess 4) x1 x2).wf = false)
    ∧ (∀ (x2 : Nat), (Instr.fmeasGo .pcie (2 ^ 32) x2).wf = false)
    ∧ (∀ (x1 : Nat), (Instr.fmeasAbort (.sess 4) x1).wf = false)
    ∧ (∀ (x1 : Nat) (x2 : Nat), (Instr.sysReset (.sess 4) x1 x2).wf = false)
    ∧ (∀ (x2 : Nat), (Instr.sysReset .pcie (2 ^ 32) x2).wf = false)
    ∧ (∀ (x1 : Bool) (x2 : Nat) (x3 : Nat) (x4 : Nat) (x5 : Nat) (x6 : Bool) (x7 : Nat), (Instr.mainDieRelease (2 ^ 8) x1 x2 x3 x4 x5 x6 x7).wf = false)
    ∧ (∀ (x1 : Nat), (Instr.pwrDoze (.sess 4) x1).wf = false)
    ∧ (∀ (x1 : Nat), (Instr.pwrWake (.sess 4) x1).wf = false)
    ∧ (∀ (x1 : Nat), (Instr.pwrSleep (.sess 4) x1).wf = false)
    ∧ (∀ (x1 : Nat), (Instr.getId (.sess 4) x1).wf = false)
    ∧ (∀ (x1 : Option Nat) (x2 : Nat), (Instr.provision (.sess 4) x1 x2).wf = false)
    ∧ (∀ (x1 : Option Nat) (x2 : Nat), (Instr.addKey (.sess 4) x1 x2).wf = false)
    ∧ (∀ (x1 : Option Nat) (x2 : Nat), (Instr.revoke (.sess 4) x1 x2).wf = false)
    ∧ (∀ (x1 : Option Nat) (x2 : Nat), (Instr.raiseSecver (.sess 4) x1 x2).wf = false)
    ∧ (∀ (x1 : Option Nat) (x2 : Nat), (Instr.setClockOtp (.sess 4) x1 x2).wf = false)
    ∧ (∀ (x1 : Option Nat) (x2 : Nat), (Instr.deploy (.sess 4) x1 x2).wf = false)
    ∧ (∀ (x1 : Option Nat) (x2 : Nat), (Instr.retire (.sess 4) x1 x2).wf = false)
    ∧ (∀ (x1 : Nat), (Instr.debugUnlock (.sess 4) x1).wf = false)
    ∧ (∀ (x1 : Nat), (Instr.debugLock (.sess 4) x1).wf = false)
    ∧ (∀ (x1 : Nat), (Instr.auditSeal (.sess 4) x1).wf = false)
    ∧ (∀ (x1 : Bool) (x2 : List Byte) (x3 : Nat), (Instr.init (4) x1 x2 x3).wf = false) := by
  refine ⟨?_, ?_, ?_, ?_, ?_, ?_, ?_, ?_, ?_, ?_, ?_, ?_, ?_, ?_, ?_, ?_, ?_, ?_, ?_, ?_, ?_, ?_, ?_, ?_⟩ <;> intros <;> simp [Instr.wf, Path.wf, PtpHdr.wf, PstHdr.wf]

theorem test_wf_11 :
    (∀ (x0 : Nat) (x2 : Nat), (Instr.fin x0 [] x2).wf = false)
    ∧ (∀ (x0 : Nat) (x1 : Nat) (x2 : List Byte) (x4 : Nat), (Instr.reg x0 x1 x2 [] x4).wf = false)
    ∧ (∀ (x0 : Nat) (x1 : Nat) (x2 : List Byte) (x4 : Nat), (Instr.close x0 x1 x2 [] x4).wf = false)
    ∧ (∀ (x1 : Nat), (Instr.lockoutEnd (4) x1).wf = false)
    ∧ (∀ (x1 : Nat) (x2 : Nat), (Instr.auditAck (.sess 4) x1 x2).wf = false)
    ∧ (∀ (x2 : Nat), (Instr.auditAck .pcie (2 ^ 32) x2).wf = false)
    ∧ (∀ (x1 : Nat), (Instr.auditRdDataRead (.sess 4) x1).wf = false)
    ∧ (∀ (x1 : Bool) (x2 : Bool) (x3 : Nat), (Instr.serdesAdapt (7) x1 x2 x3).wf = false)
    ∧ (∀ (x1 : Nat), (Instr.freeze (.sess 4) x1).wf = false)
    ∧ (∀ (x1 : Nat), (Instr.clrLost (.sess 4) x1).wf = false)
    ∧ (∀ (x1 : Bool) (x2 : Nat) (x3 : Nat) (x4 : Nat), (Instr.recClr (.sess 4) x1 x2 x3 x4).wf = false)
    ∧ (∀ (x1 : Bool) (x3 : Nat) (x4 : Nat), (Instr.recClr .pcie x1 (4) x3 x4).wf = false)
    ∧ (∀ (x1 : Bool) (x2 : Nat) (x4 : Nat), (Instr.recClr .pcie x1 x2 (2 ^ 32) x4).wf = false)
    ∧ (∀ (x1 : Nat) (x2 : Nat), (Instr.recLogAck (.sess 4) x1 x2).wf = false)
    ∧ (∀ (x2 : Nat), (Instr.recLogAck .pcie (2 ^ 32) x2).wf = false)
    ∧ (∀ (x1 : Nat), (Instr.recLogRdDataRead (.sess 4) x1).wf = false)
    ∧ (∀ (x1 : List (Option Byte)) (x2 : Bool) (x3 : Nat), (Instr.bar2Write (0x4000000) x1 x2 x3).wf = false)
    ∧ (∀ (x1 : Nat) (x2 : Nat), (Instr.pcieLinkUp 0 x1 x2).wf = false)
    ∧ (∀ (x1 : Nat) (x2 : Nat), (Instr.pcieLinkUp (3 + 1) x1 x2).wf = false)
    ∧ (∀ (x0 : Nat) (x2 : Nat), (Instr.pcieLinkUp x0 0 x2).wf = false)
    ∧ (∀ (x0 : Nat) (x2 : Nat), (Instr.pcieLinkUp x0 (2 + 1) x2).wf = false)
    ∧ (∀ (x1 : Nat) (x2 : Nat), (Instr.qspiRead (0x1000000) x1 x2).wf = false)
    ∧ (∀ (x1 : Nat) (x2 : Nat), (Instr.qspiQuadRead (0x1000000) x1 x2).wf = false)
    ∧ (∀ (x1 : Nat) (x2 : Nat), (Instr.qspiWrite (0x1000000) x1 x2).wf = false) := by
  refine ⟨?_, ?_, ?_, ?_, ?_, ?_, ?_, ?_, ?_, ?_, ?_, ?_, ?_, ?_, ?_, ?_, ?_, ?_, ?_, ?_, ?_, ?_, ?_, ?_⟩ <;> intros <;> simp [Instr.wf, Path.wf, PtpHdr.wf, PstHdr.wf]

theorem test_wf_12 :
    (∀ (x0 : Nat) (x2 : Nat), (Instr.qspiWrite x0 (2 ^ 32) x2).wf = false)
    ∧ (∀ (x1 : Nat) (x2 : Nat), (Instr.qspiQuadWrite (0x1000000) x1 x2).wf = false)
    ∧ (∀ (x0 : Nat) (x2 : Nat), (Instr.qspiQuadWrite x0 (2 ^ 32) x2).wf = false)
    ∧ (∀ (x1 : Nat), (Instr.qspiFrameError (0x1000000) x1).wf = false)
    ∧ (∀ (x1 : Nat) (x2 : Nat) (x3 : Nat) (x4 : Nat), (Instr.hstMapSel (.sess 4) x1 x2 x3 x4).wf = false)
    ∧ (∀ (x2 : Nat) (x3 : Nat) (x4 : Nat), (Instr.hstMapSel .pcie (16) x2 x3 x4).wf = false)
    ∧ (∀ (x1 : Nat) (x3 : Nat) (x4 : Nat), (Instr.hstMapSel .pcie x1 (16) x3 x4).wf = false)
    ∧ (∀ (x1 : Nat) (x2 : Nat) (x4 : Nat), (Instr.hstMapSel .pcie x1 x2 (16) x4).wf = false)
    ∧ (∀ (x1 : Bool) (x2 : Bool) (x3 : Bool) (x4 : Nat), (Instr.msixUnmask (some (32)) x1 x2 x3 x4).wf = false)
    ∧ (∀ (x1 : Nat), (Instr.holdoffEnd (32) x1).wf = false)
    ∧ (∀ (x1 : Nat) (x2 : Nat) (x3 : Nat) (x4 : Nat), (Instr.mbxSend (.sess 4) x1 x2 x3 x4).wf = false)
    ∧ (∀ (x2 : Nat) (x3 : Nat) (x4 : Nat), (Instr.mbxSend .pcie (4) x2 x3 x4).wf = false)
    ∧ (∀ (x1 : Nat) (x3 : Nat) (x4 : Nat), (Instr.mbxSend .pcie x1 (2 ^ 11) x3 x4).wf = false)
    ∧ (∀ (x1 : Nat) (x2 : Nat) (x4 : Nat), (Instr.mbxSend .pcie x1 x2 (2 ^ 14) x4).wf = false)
    ∧ (∀ (x1 : Nat), (Instr.mbxTimeout (4) x1).wf = false)
    ∧ (∀ (x1 : Nat) (x2 : Nat), (Instr.mbxFree (.sess 4) x1 x2).wf = false)
    ∧ (∀ (x2 : Nat), (Instr.mbxFree .pcie (2 ^ 32) x2).wf = false) := by
  refine ⟨?_, ?_, ?_, ?_, ?_, ?_, ?_, ?_, ?_, ?_, ?_, ?_, ?_, ?_, ?_, ?_, ?_⟩ <;> intros <;> simp [Instr.wf, Path.wf, PtpHdr.wf, PstHdr.wf]

/-! O1 StepRunsTheFrontCommand -/

theorem test_step : (match step { State.reset with pending := [.railsGood 5, .por] } with
      | .next t => decide (t.pending = [.por] ∧ t.clk.rails = true)
      | _ => false) = true
    ∧ decodeTableWord 32 5 = none := by decide +kernel

/-! O4 VectorsAreAssertedByTheirSources -/

theorem test_vectors : (after (.forceS .pcie 5) (readyWith [(HST_SRC_ROUTE_EN 25, 1), (HST_SRC_ROUTE_VECTOR 25, 7)])).rd HST_VEC_STS_ASSERTED
      = (if bit ((after (.forceS .pcie 5) (readyWith [])).rd HST_SRC_PEND_LO_PEND) 25 then 128 else 0)
    ∧ State.reset.irqAgrees := by decide +kernel

/-! O5 OffsetsWithoutARegister -/

theorem test_no_register : findReg regTable 0x4FFFC = none ∧ inBlocks 0x4FFFC = true ∧ inBlocks 0xC0000 = false
    ∧ (after (.registerWrite .pcie 0x4FFFC 5 true 3) (readyWith [])).regs = (readyWith []).regs
    ∧ (after (.registerWrite .pcie 0xC0000 5 true 3) (readyWith [])).rd HST_COND_LAST_CODE = 0x1207
    ∧ (after (.registerWrite .pcie 0x120010 5 true 3) (readyWith [(GLB_VARIANT_LANES, 32)])).regs = (readyWith [(GLB_VARIANT_LANES, 32)]).regs := by
  decide +kernel

/-! O6 AccessesTurnedAway -/

theorem test_turned_away : hostAccess (.forceS .pcie 5) = some (.pcie, 0x250004, some 1, 5)
    ∧ gate (readyWith [(CLK_DOM_STS_STATE (domOf 0x250004), 4)]) .pcie 0x250004 true = .held
    ∧ (after (.forceS .pcie 5) (readyWith [(CLK_DOM_STS_STATE (domOf 0x250004), 4)])).hst.held.length = 1
    ∧ (after (.forceS .pcie 5) State.reset).rd HST_COND_LAST_CODE = 0x1208
    ∧ (after (.forceS .pcie 5) State.reset).rd ERR_STATUS_FAIL_SILENT = 0
    ∧ (after (.forceS .pcie 5) { readyWith [] with hst := { (readyWith []).hst with d3hot := true } }).rd ERR_STATUS_FAIL_SILENT = 0
    ∧ (after (.forceS .qspi 5) (readyWith [])).hst.q.denied = true
    ∧ (after (.timNowRead .qspi 5) { readyWith [] with hst := { (readyWith []).hst with mem := [] } }).sent = [.read .qspi 0]
    ∧ (after (.seqStart .pcie 5) State.reset).rd HST_COND_LAST_CODE = 0x1208
    ∧ (after (.getId (.sess 0) 5) (readyWith [])).rd SEC_CMD_DONE = 0 := by decide +kernel
/-- A member of a string at address 3, both ports trained. -/
def midString : State := withRegs [(PST_CFG_ROLE, 2), (PST_PORT_STS_STATE 0, 3), (PST_PORT_STS_STATE 1, 3), (PST_STATUS_ADDR, 3)]
theorem test_frames_passed_by : midString.hears ⟨0, 4, 2, false, false, 1, 5⟩ 4 = false
    ∧ (after (.ack ⟨0, 4, 2, false, false, 1, 5⟩ 1 5) midString).sent.length = 1
    ∧ (after (.ack ⟨0, 4, 3, false, false, 1, 5⟩ 1 5) State.reset).sent = [] := by decide +kernel

/-! O7 ReportsAreLogged -/

/-- The log holding `k` entries that are not free. -/
def filled (k : Nat) (l : List (Fld × Nat)) : State :=
  { withRegs l with log := ⟨[], 7, k, 0, 0, 3, [], 0⟩ }
theorem test_reports : ((report (filled 16382 []) 0x0201 3 9).log.held.map fun e => (e.1, e.2.code, e.2.source, e.2.detail)) = [(7, 0x0201, 0x0203, 9)]
    ∧ ((report (filled 16383 []) 0x0201).log.held.map (·.2.code)) = [0x1101]
    ∧ (report (filled 16383 [(REC_STATUS_LOG_FULL, 1)]) 0x0201).rd REC_LOG_LOST_LOST = 1
    ∧ ((report (filled 16381 [(REC_STATUS_LOG_FULL, 1)]) 0x0201).log.held.map fun e => (e.1, e.2.code, e.2.detail)) = [(8, 0x0201, 0), (7, 0x1102, 3)]
    ∧ (report State.reset 0x0201).rd SEQ_COND_LAST_CODE = 0x0201
    ∧ (reportCyc (withCycs [cycAt 5 3] State.reset) 5 0x0201).log.held = [] := by decide +kernel

/-! O8 FrequencyCounterRuns -/

theorem test_fmeas_go : (readyWith []).lets .pcie 0x10014
    ∧ (after (.fmeasGo .pcie 0x04700064 7) (readyWith [])).rd CLK_FMEAS_REFCNT_REFCNT = 32736000
    ∧ (after (.fmeasGo .pcie 0x04700064 7) (readyWith [])).rd CLK_FMEAS_CTRL_GO_BUSY = 1
    ∧ (after (.fmeasGo .pcie 0x04700000 7) (readyWith [])).rd CLK_COND_LAST_CODE = 0x0F0A
    ∧ (after (.fmeasGo .pcie 0x047003E9 7) (readyWith [])).rd CLK_COND_LAST_CODE = 0x0F0B
    ∧ (after (.fmeasGo .pcie 0x0D700064 7) (readyWith [])).rd CLK_COND_LAST_CODE = 0x0F0B
    ∧ (after (.fmeasGo .pcie 0x04700064 7) (readyWith [(CLK_FMEAS_CTRL_GO_BUSY, 1)])).rd CLK_COND_LAST_CODE = 0x0F0C := by decide +kernel
theorem test_fmeas_done : (after (.fmeasDone 5 100) ((withRegs [(CLK_FMEAS_CTRL_GO_BUSY, 1)]).ck fun c => { c with run := 1 })).rd CLK_FMEAS_CNT_COUNT = 5
    ∧ (after (.fmeasDone 5 100) ((withRegs [(CLK_FMEAS_CTRL_GO_BUSY, 1)]).ck fun c => { c with run := 0 })).rd CLK_FMEAS_CTRL_GO_BUSY = 1
    ∧ (after (.fmeasAbort .pcie 9) (readyWith [(CLK_FMEAS_CTRL_GO_BUSY, 1)])).rd CLK_FMEAS_CTRL_GO_BUSY = 0 := by decide +kernel

/-! O9 SourcesAndPllsBecomeUsable -/

theorem test_source_proven : bit State.reset.clk.run 1 = true
    ∧ bit (after (.sourceProven 1 5) State.reset).clk.proven 1 = true
    ∧ (after (.sourceProven 1 5) State.reset).rd RED_FEED_FEEDSEL_A = 1
    ∧ (after (.sourceProven 0 5) State.reset).rd CLK_STATUS_FRC_PROVEN = 1
    ∧ (after (.sourceProven 3 5) (State.reset.ck fun c => { c with run := 15 })).rd (CLK_PLL_CFG_EN 2) = 1 := by decide +kernel
theorem test_pll_locked : (after (.pllLocked 2 9) ((withRegs [(CLK_PLL_CFG_EN 2, 1)]).ck fun c => { c with proven := 8 })).rd CLK_STATUS_PLL_LOCK = 4
    ∧ (after (.pllLocked 0 9) ((withRegs [(CLK_PLL_CFG_EN 0, 1)]).ck fun c => { c with proven := 8 })).rd CLK_STATUS_PLL_LOCK = 1
    ∧ (after (.pllLocked 3 9) ((withRegs [(CLK_PLL_CFG_EN 3, 1), (CLK_DOM_STS_STATE 3, 4)]).ck fun c => { c with proven := 8, released := true })).rd
      (CLK_DOM_STS_STATE 3) ≠ 4
    ∧ (after (.pllLocked 2 9) State.reset).rd CLK_STATUS_PLL_LOCK = 0
    ∧ (after (.pllLocked 1 9) ((withRegs [(CLK_PLL_CFG_EN 1, 1)]).ck fun c => { c with proven := 8 })).rd CLK_STATUS_PLL_LOCK = 2 := by
  decide +kernel

/-! O10 MonitorsMoveDomains -/

theorem test_clock_trip :
    (after (.clockMonitorTrip 3 9) (State.reset.ck fun c => { c with proven := 8 })).rd (CLK_DOM_STS_TRIP_CNT 7) = 1
    ∧ (after (.clockMonitorTrip 3 9) (State.reset.ck fun c => { c with proven := 8 })).rd CLK_COND_LAST_CODE = 0x0F05
    ∧ (after (.clockMonitorTrip 9 9) (withRegs [(CLK_PLL_CFG_EN 3, 1), (CLK_PLL_CFG_LOCKED 3, 1)])).rd CLK_STATUS_PLL_LOCK = 0
    ∧ (after (.clockMonitorTrip 0 9) (State.reset.ck fun c => { c with proven := 1 })).rd CLK_STATUS_FRC_BAD = 1
    ∧ (after (.noClockTimeout 9) (withRegs [(CLK_DOM_STS_STATE 8, 3)])).rd (CLK_DOM_STS_STATE 8) = 6 := by decide +kernel
theorem test_clock_return :
    (after (.clockReturn 8 2500000) ((withRegs [(CLK_DOM_STS_STATE 8, 2)]).ck fun c => { c with proven := 8, released := true })).rd
      (CLK_DOM_STS_STATE 8) = 0
    ∧ (after (.clockReturn 4 2500000) ((withRegs [(CLK_DOM_STS_STATE 4, 6)]).ck fun c => { c with proven := 16, released := true })).rd
      (CLK_DOM_STS_STATE 4) = 0
    ∧ (after (.clockReturn 2 2500000) ((withRegs [(CLK_DOM_STS_STATE 2, 2), (SEQ_STATUS_STATE, 2)]).ck fun c =>
      { c with proven := 8, released := true })).rd (CLK_DOM_STS_STATE 2) = 2
    ∧ (after (.rampStep 2 9) (withRegs [(CLK_DOM_STS_STATE 2, 1)])).rd (CLK_DOM_STS_RAMP_STEP 2) = 1
    ∧ (after (.rampStep 2 9) (withRegs [(CLK_DOM_STS_STATE 2, 1), (CLK_DOM_STS_RAMP_STEP 2, 7)])).rd (CLK_DOM_STS_STATE 2) = 0 := by
  decide +kernel

/-! O11 GatesAndHeldAccesses -/

theorem test_gate_request : mayGate (readyWith []) 8 = true ∧ domState (readyWith []) 8 < 3
    ∧ (after (.clkGateReq .pcie 0x100 3) (readyWith [])).rd (CLK_DOM_STS_GATE_PEND 8) = 1
    ∧ mayGate (readyWith []) 3 = false ∧ (after (.clkGateReq .pcie 8 3) (readyWith [])).rd CLK_COND_LAST_CODE = 0x0F09 := by decide +kernel
theorem test_gate_done : (after (.gateDone 3 9) (updDom State.reset 3 fun y => { y with pend := 1 })).rd (CLK_DOM_STS_STATE 3) = 4
    ∧ (after (.gateDone 5 9) (updDom State.reset 5 fun y => { y with pend := 2 })).rd (CLK_DOM_STS_STATE 5) = 4
    ∧ (after (.gateDone 5 9) State.reset).rd (CLK_DOM_STS_STATE 5) = State.reset.rd (CLK_DOM_STS_STATE 5)
    ∧ (after (.gateBusy 3 9) (updDom State.reset 3 fun y => { y with pend := 2 })).rd RST_PWR_STS_REFUSED = 1
    ∧ (after (.gateBusy 8 9) (updDom State.reset 8 fun y => { y with pend := 1 })).rd (CLK_DOM_STS_BUSY_FAIL 8) = 1
    ∧ (after (.accessTimeout 500000) { State.reset with hst := { HstSt.reset with held := [⟨.pcie, 0x50000, none, 0, 2⟩] } }).sent
      = [.read .pcie 0] := by decide +kernel

/-! O12 RegisterWritesFollowAccessTypes -/

theorem test_register_write : (readyWith []).lets .pcie 0x200100 ∧ inBlocks 0x200100 = true
    ∧ (after (.registerWrite .pcie 0x60020 5 true 3) (readyWith [])).rd (FLT_EVT_EN_EN 0) = 5
    ∧ (after (.registerWrite .pcie 0x18 0x1234 true 3) (readyWith [])).rd GLB_SCRATCH_VALUE = 0x1234
    ∧ (after (.registerWrite .pcie 0x50014 9 true 3) (readyWith [(SEQ_CYC_LO_CYC_LO, 77)])).rd SEQ_CYC_LO_CYC_LO = 77
    ∧ (after (.registerWrite .pcie 0x50038 1 true 3) (readyWith [])).rd SEQ_SP_CTRL_ARM = 1
    ∧ gate (readyWith [(CLK_DOM_STS_STATE 2, 4)]) .pcie 0x50000 true = .held ∧ gate State.reset .pcie 0x50000 true = .code 0x1208
    ∧ (after (.registerWrite .pcie 0x50002 5 true 3) (readyWith [])).rd HST_COND_LAST_CODE = 0x1203
    ∧ (writeField { State.reset with img := { ImgSt.reset with votedGroups := 1 } } (some 0) 0x60100 ⟨0, 8, .rwl, 0⟩ 3).2 = 0x1206
    ∧ (after (.registerWrite .pcie 0x60020 5 false 3) (readyWith [])).rd HST_COND_LAST_CODE = 0x1203
    ∧ (after (.registerWrite .pcie 0x50008 5 true 3) (readyWith [])).rd HST_COND_LAST_CODE = 0x1202 := by decide +kernel

/-! O13 ReadsAnswerAndLatch -/

theorem test_reads : (readyWith []).letsRead .pcie 0x50014 ∧ lowWord 0x50014 = true
    ∧ (after (.pairLowWordRead .pcie 0x50014 true 3) (readyWith [(SEQ_CYC_LO_CYC_LO, 77)])).sent.head? = some (.read .pcie 77)
    ∧ (after (.pairLowWordRead .pcie 0x50014 false 3) (readyWith [(SEQ_CYC_LO_CYC_LO, 77)])).sent.head? = some (.read .pcie 0)
    ∧ (after (.qspiRead 0x50014 1 3) (readyWith [])).hst.q.denied = false
    ∧ (after (.qspiRead 0x2B0010 1 3) (readyWith [])).sent.head? = some (.qspi [0, 0xA5, 0, 0, 0, 0])
    ∧ (after (.qspiQuadRead 0x50014 1 3) (readyWith [(IMG_STATUS_STATE, 2)])).hst.q.denied = true := by decide +kernel
theorem test_qspi_late : (after (.qspiRead 0x2B0010 64 3) (readyWith [])).hst.q.timeout = true
    ∧ (after (.qspiWrite 0x18 5 3) { readyWith [] with hst := { (readyWith []).hst with q := { (readyWith []).hst.q with busy := true } } }).hst.q.frameErr = true
    ∧ (readyWith []).letsRead .pcie 0x50014 ∧ hidden40 0x2B0040 = true := by decide +kernel
theorem test_qspi_writes : (after (.qspiWrite 0x18 5 3) (readyWith [])).hst.q.refused = false
    ∧ (after (.qspiQuadWrite 0x1A 5 3) (readyWith [])).hst.q.refused = false
    ∧ (after (.qspiReadStatus 3) (readyWith [])).sent.head? = some (.qspi [0x80])
    ∧ (after (.qspiFrameError 0x18 3) (readyWith [])).hst.q.frameErr = true := by decide +kernel

/-! O14 PcieEndpointAndVectors -/

theorem test_pcie : (after (.pcieLinkUp 2 1 3) State.reset).rd HST_STATUS_GEN = 2
    ∧ (after (.pcieLinkDown 3) (withRegs [(HST_STATUS_LINK_UP, 1), (HST_STATUS_GEN, 2)])).rd HST_COND_LAST_CODE = 0x1210
    ∧ (after (.d3hot true 3) State.reset).hst.d3hot = true
    ∧ (after (.perst 3) (readyWith [(HST_MSIX_TABLE_WORD 5 3, 0)])).rd (HST_MSIX_TABLE_WORD 5 3) = 1
    ∧ (after (.perst 3) (readyWith [])).rd HST_MAP_SET_SETTLED = 0
    ∧ (after (.hstMapSel .pcie 4 0 3 3) State.reset).rd HST_MAP_SET_MINOR = 1 := by decide +kernel
theorem test_pcie_rest : (after (.pcieLinkUp 4 1 3) State.reset).rd HST_STATUS_LINK_UP = 0 ∧ onPrimary State.reset 9 = true
    ∧ (after (.hstMapSel .pcie 3 0 3 3) State.reset).rd HST_COND_LAST_CODE = 0x1209
    ∧ (after (.hstMapSel .qspi 4 0 3 3) State.reset).hst.q.settled = some (4, 1) := by decide +kernel
theorem test_msix : (after (.msixUnmask (some 31) false false false 3) State.reset).rd (HST_MSIX_TABLE_WORD 31 3) = 0
    ∧ (after (.msixUnmask none true false true 3) State.reset).hst.msixEn = true
    ∧ (after (.holdoffEnd 3 9) { withRegs [(HST_SRC_ROUTE_EN 2, 1), (HST_SRC_ROUTE_VECTOR 2, 3), (HST_SRC_PEND_LO_PEND, 4), (HST_VEC_STS_ASSERTED, 8),
        (HST_MSIX_TABLE_WORD 3 3, 0)] with
      hst := { HstSt.reset with holdUntil := [(3, 5)], deferMask := 8, msixEn := true, busMaster := true } }).sent = [.msix 3] := by decide +kernel

/-! O15 Bar2StoresEnabledOctets -/

theorem test_bar2_codes : bar2Code State.reset 0x20000 = 0x1207 ∧ (after (.bar2Write 0x20000 [some 7] false 3) State.reset).rd HST_COND_LAST_CODE = 0x1207
    ∧ (after (.bar2Write 0x17FFF [some 7, some 8] false 3) State.reset).hst.mem = [(0x17FFF, 7), (0x18000, 8)].take 1
    ∧ (after (.bar2Write 0x10000 [some 7] false 3) { State.reset with hst := { HstSt.reset with d3hot := true } }).hst.mem = [] := by decide +kernel
theorem test_bar2 : bar2Code State.reset 0x10000 = 0 ∧ bar2Code State.reset 0x17FFF = 0
    ∧ sget (fun _ => (0 : Byte)) (after (.bar2Write 0x10000 [some 7, none, some 9] false 3) State.reset).hst.mem 0x10002 = 9
    ∧ (after (.bar2Write 0x17FFF [some 7] false 3) State.reset).hst.mem = [(0x17FFF, 7)]
    ∧ (after (.bar2Write 0x10000 [some 7] true 3) State.reset).hst.mem = [] := by decide +kernel

/-! O16 MailboxesAndTunnelledAccesses -/

theorem test_tunnel_start : (after (.tunnelRead .pcie 5 3) (readyWith [])).rd PST_TUN_STS_RESULT = 2
    ∧ (after (.tunnelWrite .pcie 5 3) (readyWith [(PST_CFG_ROLE, 1), (PST_PORT_STS_STATE 0, 3)])).rd PST_TUN_CTRL_GO_BUSY = 1
    ∧ (after (.tunnelTimeout 2500010) { withRegs [(PST_TUN_CTRL_GO_BUSY, 1)] with pst := { PstSt.reset with tunAt := some 10 } }).rd
      PST_TUN_STS_RESULT = 3 := by decide +kernel
theorem test_mailbox_refusals : (after (.mbxSend .pcie 3 0 5 3) (readyWith [])).rd HST_COND_LAST_CODE = 0x1211
    ∧ (after (.mbxSend .pcie 3 5 5 3) (readyWith [(HST_MBX_OUT_GO_BUSY 3, 1)])).rd HST_COND_LAST_CODE = 0x1212
    ∧ (after (.mbxSend .pcie 3 1009 5 3) (readyWith [])).hst.mark = true
    ∧ (after (.tunnelWrite .pcie 5 3) (readyWith [(PST_TUN_CTRL_GO_BUSY, 1)])).hst.mark = true
    ∧ canSend (readyWith [(PST_CFG_ROLE, 1), (PST_PORT_STS_STATE 0, 3)]) 5 0x30 = true := by decide +kernel
theorem test_mailboxes : (after (.mbxSend .pcie 3 1008 5 3) (readyWith [])).rd (HST_MBX_OUT_RESULT 3) = 2
    ∧ (after (.mbxSend .pcie 0 1 5 3) (readyWith [(PST_CFG_ROLE, 1), (PST_PORT_STS_STATE 0, 3)])).rd (HST_MBX_OUT_GO_BUSY 0) = 1
    ∧ (after (.mbxTimeout 2 2500000) { State.reset with hst := { HstSt.reset with mbxWait := [(2, 0)] } }).rd (HST_MBX_OUT_RESULT 2) = 4
    ∧ (after (.mbxFree .pcie 9 3) (readyWith [(HST_MBX_IN_STS_FULL, 15)])).rd HST_MBX_IN_STS_FULL = 6 := by decide +kernel

/-! O17 PistePortsTrainAndFail -/

/-- Port 0 at a training step, its peer's HELLO received. -/
def training (st : Nat) (o : List (Nat × Nat × Nat)) : State :=
  updPst (withRegs [(PST_PORT_STS_STATE 0, st), (PST_CFG_ROLE, 2)]) 0 fun x => { x with peer := some ⟨2, false, 0, 0x3FFF, o, 0, 0, 0, none, none, 0, false⟩ }
theorem test_piste_ports : (after (.pisteTrained 0 true true 5) (training 1 [(2, 0, 2)])).rd (PST_PORT_STS_STATE 0) = 3
    ∧ (after (.pisteTrained 0 true false 5) (training 1 [(2, 0, 2)])).rd (PST_PORT_STS_STATE 0) = 4
    ∧ (after (.pisteTrained 0 true true 5) (training 1 [(1, 0, 3)])).rd (PST_PORT_STS_STATE 0) = 2
    ∧ (after (.pisteTrainTimeout 0 12500000) (training 1 [])).rd (PST_PORT_CNT_TRAIN_FAIL 0) = 1
    ∧ (after (.pisteLaneRetry 0 true 5) (training 4 [])).rd (PST_PORT_STS_STATE 0) = 3
    ∧ (after (.pisteLinkLoss 1 5) (withRegs [(PST_PORT_STS_STATE 1, 3)])).rd (PST_PORT_STS_STATE 1) = 1
    ∧ (after (.helloTimeout 1 2500000) (withRegs [(PST_PORT_STS_STATE 1, 3)])).rd (PST_PORT_STS_STATE 1) = 1
    ∧ (after (.pisteFrameError 1 (some 5) 5) (withRegs [(PST_PORT_STS_STATE 1, 3)])).rd (PST_PORT_STS_STATE 1) = 1 := by decide +kernel
theorem test_piste_frames : (after (.pisteFrameError 1 (some 4) 5) (withRegs [(PST_PORT_STS_STATE 1, 3)])).rd (PST_PORT_CNT_REPLAY 1) = 1
    ∧ (after (.helloSend 1 5) (withRegs [(PST_PORT_STS_STATE 1, 3)])).sent.length = 1
    ∧ (after (.delayTimer 1 5) (withRegs [(PST_PORT_STS_STATE 1, 3), (PST_PORT_VER_MAJOR 1, 2)])).sent.length = 1
    ∧ (after (.delayTimer 2 5) State.reset).sent = []
    ∧ (after (.pisteLaneRetry 0 true 5) (training 2 [])).rd (PST_PORT_STS_STATE 0) = 2
    ∧ (after (.pisteLinkLoss 0 5) ((training 3 []).wrs [(PST_PORT_STS_PEER_ADDR 0, 7), (PST_MASTER_MASTER_ADDR, 7)])).pst.masterLost = true
    ∧ (after (.delay 1 0 100 110 300 5) (withRegs [(PST_PORT_STS_STATE 1, 3)])).rd (PST_PORT_DELAY_DELAY_NS 1) = 580 := by decide +kernel

/-! O18 HelloAndNoticesAct -/

/-- A member at address 3, port 0 trained, with some fields written. -/
def member (l : List (Fld × Nat)) : State :=
  withRegs ([(PST_CFG_ROLE, 2), (PST_PORT_STS_STATE 0, 3), (PST_PORT_VER_MAJOR 0, 2), (PST_STATUS_ADDR, 3)] ++ l)
/-- A frame to it from a device. -/
def from_ (src : Nat) : PstHdr := ⟨0, src, 3, false, false, 1, 5⟩
theorem test_notices : (member []).hears (from_ 4) 2
    ∧ (after (.hello (from_ 4) ⟨2, false, 0, 0x3FFF, [(2, 0, 2)], 0, 0, 0, none, none, 0, false⟩ 5) (member [])).rd (PST_PORT_STS_PEER_ADDR 0) = 4
    ∧ (after (.noticeFailSilent (from_ 4) 5) (member [(PST_CFG_PAIRS, 1), (RED_STATUS_PARTNER_ADDR, 4), (RED_STATUS_PAIRED, 1), (RED_STATUS_PARTNER_OK, 1)])).rd RED_STATUS_PARTNER_OK = 0
    ∧ (after (.noticeOutOfStep (from_ 4) 5) { member [(PST_CFG_PAIRS, 1), (RED_STATUS_PARTNER_ADDR, 4)] with red := { RedSt.reset with pSends := true } }).red.pSends = false
    ∧ (after (.noticeActingMaster (from_ 4) 5) (member [])).pst.backup = some 4
    ∧ (after (.noticeMasterLost (from_ 4) 5) (member [])).rd PST_COND_LAST_CODE = 0x0E0B := by decide +kernel

/-! O19 AlignJoinAndStartOverPiste -/

theorem test_align_join : (member [(PST_MASTER_MASTER_ADDR, 4)]).hears (from_ 4) 5
    ∧ (after (.align (from_ 4) 0 0 true 5) (member [(PST_MASTER_MASTER_ADDR, 4), (PST_ALIGN_MISS, 3)])).rd PST_STATUS_MASTER_OK = 1
    ∧ (after (.join (from_ 4) none 5) (member [(PST_CFG_ROLE, 1), (SEQ_STATUS_STATE, 2)])).pst.joins = [4]
    ∧ (after (.join (from_ 4) (some (9, 100)) 5) { member [(PST_MASTER_MASTER_ADDR, 4), (SEQ_STATUS_STATE, 1)] with
        pst := { PstSt.reset with joining := true } }).seq.nextN = 9
    ∧ (after (.modeStart (from_ 4) (some 1000000) 5) (member [(PST_MASTER_MASTER_ADDR, 4), (IMG_STATUS_STATE, 2), (TIM_QUAL_STATE, 1), (SEQ_PERIOD_VALUE, 1000)])).rd
      SEQ_STATUS_STATE = 1 := by decide +kernel
theorem test_handback : pairOk { readyWith [(PST_STATUS_ACTING_MASTER, 1), (PST_CFG_PAIRS, 1), (RED_STATUS_PAIRED, 1), (RED_STATUS_PARTNER_OK, 1)] with
      red := { RedSt.reset with pSends := true } } = true
    ∧ (after (.handback .pcie 5) { readyWith [(PST_STATUS_ACTING_MASTER, 1), (PST_CFG_PAIRS, 1), (RED_STATUS_PAIRED, 1), (RED_STATUS_PARTNER_OK, 1)] with
      red := { RedSt.reset with pSends := true } }).pst.handback = true := by decide +kernel

/-! O20 ModeChangeAtDevice -/

/-- A running member that holds change 1 of group 1 for cycle 7. -/
def holding (acked : Bool) : State :=
  let s := member [(PST_MASTER_MASTER_ADDR, 4), (SEQ_STATUS_STATE, 2), (PST_MC_STS_HELD, 1)]
  { s with pst := { s.pst with held := some ⟨1, 2, 4, acked, acked, some 7, false⟩ }, seq := { s.seq with nextT0 := 1000000, nextN := 3 } }
theorem test_mode_device : (after (.prepare (from_ 4) 1 2 5) (member [(PST_MASTER_MASTER_ADDR, 4), (SEQ_STATUS_STATE, 2)])).rd PST_MC_STS_HELD = 1
    ∧ (after (.seal (from_ 4) 1 7 5) (holding true)).sent.length = 1
    ∧ ((after (.mcCommit (from_ 4) 1 7 0) (holding true)).pst.held.map (·.commit)) = some true
    ∧ (after (.mcCommit (from_ 4) 2 7 0) (holding true)).rd PST_STATUS_OUT_OF_STEP = 1
    ∧ (after (.mcAbort (from_ 4) 1 5) (holding true)).rd PST_MC_STS_HELD = 0
    ∧ groupStopped (holding false) 1 = false := by decide +kernel

/-! O21 ModeChangeAtMaster -/

/-- A running master at address 3 of devices 4 and 5, with the state of its change. -/
def mastering (st : Nat) (wait applied : List Nat) : State :=
  let s := readyWith [(PST_CFG_ROLE, 1), (PST_PORT_STS_STATE 0, 3), (PST_PORT_VER_MAJOR 0, 2), (PST_STATUS_ADDR, 3), (SEQ_STATUS_STATE, 2), (PST_MC_STS_STATE, st),
    (PST_DEVSET_SET 0, 0x30)]
  { s with pst := { s.pst with master := if st = 0 then none else some ⟨1, 2, [4, 5], wait, 7, false, some 7, applied⟩ }, seq := { s.seq with nextT0 := 10000000, nextN := 3 } }
theorem test_mode_master : (after (.mcPrepare .pcie 2 5) (mastering 0 [] [])).rd PST_MC_STS_PENDING = 2
    ∧ ((after (.mcSeal .pcie 5) (mastering 2 [] [])).pst.master.map (·.sealing)) = some true
    ∧ (after (.mcHostAbort .pcie 5) (mastering 3 [4, 5] [])).rd PST_MC_STS_STATE = 6
    ∧ (after (.ack (from_ 4) 1 5) (mastering 1 [4] [])).rd PST_MC_STS_STATE = 2
    ∧ (after (.nack (from_ 4) 1 5) (mastering 1 [4] [])).rd PST_MC_STS_STATE = 6
    ∧ (after (.vote (from_ 4) 1 true 0) (mastering 3 [4] [])).rd PST_MC_STS_STATE = 4
    ∧ (after (.vote (from_ 4) 1 false 0) (mastering 3 [4] [])).rd PST_MC_STS_STATE = 6
    ∧ (after (.applied (from_ 4) 1 5) (mastering 4 [] [5])).rd PST_MC_STS_PENDING = 0 := by decide +kernel
theorem test_mode_master_ends : (after (.prepDlTimeout 100) (mastering 1 [4] [])).rd PST_MC_STS_STATE = 6
    ∧ (after (.appliedCheck 1000000000000) (mastering 4 [] [4, 5])).rd PST_MC_STS_STATE = 5
    ∧ (after (.appliedCheck 1000000000000) (mastering 4 [] [4])).rd (PST_OOS_OOS 0) = 32
    ∧ (after (.mcPrepare .pcie 2 5) ((mastering 0 [] []).wr (PST_DEVSET_SET 0) 0)).rd PST_MC_STS_STATE = 2
    ∧ (after (.pstReload .pcie 5) (mastering 0 [] [])).sent.length = 2
    ∧ (after (.reload (from_ 4) 5) (member [(PST_MASTER_MASTER_ADDR, 4), (SEQ_STATUS_STATE, 2)])).rd SEQ_STATUS_STATE = 0 := by decide +kernel

/-! O22 PairFramesReachTheirCycle -/

/-- A running pair member at address 3 whose partner is device 4. -/
def paired (l : List (Fld × Nat)) : State :=
  member ([(PST_CFG_PAIRS, 1), (RED_STATUS_PARTNER_ADDR, 4), (RED_STATUS_PAIRED, 1), (SEQ_STATUS_STATE, 2)] ++ l)
/-- A checkpoint of cycle `n`. -/
def ckptOf (n : Nat) : Ckpt := ⟨n, false, ⟨[], ⟨[], []⟩, OceSt.reset⟩, [], [], [], [], none, 1, [], 0⟩
/-- A journal record of cycle `n`. -/
def recOf (n tag : Nat) : JnlRec := ⟨n, 3, 0, 0, tag, none, none, none, 0, false, false⟩
/-- A standby that has received the checkpoint of cycle 5. -/
def resyncing : State :=
  let s := paired [(RED_STATUS_SYNC, 1)]
  { s with red := { s.red with resync := some ⟨some (ckptOf 5), [], 7, false⟩ } }
theorem test_pair_frames : (paired []).hears (from_ 4) 0x10
    ∧ (after (.agree (from_ 4) (.held []) 5) (paired [])).rd RED_STATUS_PARTNER_OK = 1
    ∧ ((partOf (after (.srcword (from_ 4) ⟨[3], []⟩ 5) (paired [])) 5).src.map (·.src)) = some [3]
    ∧ (partOf (after (.digest (from_ 4) (some 9) true [] 5) (paired [])) 5).dig = some (some 9, true)
    ∧ (partOf (after (.commitblk (from_ 4) ⟨1, false, 0, 0, false, [], [], [], 0, false, []⟩ 5) (paired [])) 5).commit.isSome = true
    ∧ (after (.ckpt (from_ 4) none 0 0 [] [] 5) (paired [])).rd RED_STATUS_SYNC = 0
    ∧ (after (.jrec (from_ 4) (recOf 5 7) true 5) resyncing).rd RED_RESYNC_LAG = 1
    ∧ (after (.jrec (from_ 4) (recOf 6 7) true 5) resyncing).rd RED_CNT_RESYNC_FAIL = 1
    ∧ (after (.jrec (from_ 4) (recOf 5 7) false 5) resyncing).rd RED_CNT_RESYNC_FAIL = 1 := by decide +kernel

/-! O23 SharesAndExportedJobsArrive -/

/-- An empty problem, a job on lane 64 and one of a node. -/
def noProb : Prob := ⟨0, 0, 0, [], [], [], [], [], [], [], [], [], [], 0⟩
def jobOf (lane id : Nat) : Job := ⟨lane, 0, 1, id, false, false, 9, 0, 5, 1000, noProb, .none, [], none, none⟩
/-- A member of a string with a purpose, data routed over port 0, and the sections given. -/
def stringMember (purpose : Nat) (secs : List (Nat × List Byte)) : State :=
  withSecs secs (member [(PST_CFG_PURPOSE, purpose), (PST_MASTER_MASTER_ADDR, 4), (SEQ_STATUS_STATE, 2), (SEQ_CYC_LO_CYC_LO, 5)])
/-- A CASCADE section with one import: exporter 4, scenario 2, lane 0, place 0. -/
def importing : List Byte := octets 80 [(0x20, 1), (64, 4), (66, 2), (69, 9), (70, 9), (72, 9), (74, 9)]
/-- A WIDEN table of a device that runs, with nothing in it. -/
def emptyTable : WidenTable := ⟨true, 0, 0, [], [], [], []⟩
theorem test_shares : (after (.share (from_ 4) (.table emptyTable) 5) (stringMember 1 [])).alloc.tables = [(5, emptyTable)]
    ∧ (after (.share (from_ 4) (.share [7]) 5) (stringMember 2 [])).alloc.shares = [(5, [7])]
    ∧ (after (.share (from_ 4) (.box 3 [1] [2]) 5) ((stringMember 2 []).wr PST_STATUS_ACTING_MASTER 1)).alloc.boxNew = 8
    ∧ (importList (stringMember 4 [(15, importing)])).length = 1
    ∧ (after (.multJob (from_ 4) 2 1000000 false 9 { noProb with n := 1 } 5) (stringMember 4 [(15, importing)])).pst.imports.length = 1
    ∧ (after (.multJob (from_ 4) 2 1000000 false 9 noProb 5) (stringMember 4 [(15, importing)])).pst.imports = [] := by decide +kernel
theorem test_multiply : (after (.multRes (from_ 4) 2 (emptyRes 1) 5) (withCycs [{ cycAt 5 6 with out := { (cycAt 5 6).out with jobs := [jobOf 64 2] } }]
      (stringMember 4 [(15, octets 80 [(0x1E, 1), (64, 2), (66, 4)])]))).seq.cycs.all (fun c => c.out.jobs.all fun q => q.res.isSome) = true
    ∧ ((after (.gnssRec (from_ 4) 2 .none (some (emptyRes 1)) 5) { (stringMember 0 [(15, octets 80 [(0x14, 4)])]).wr GLB_VARIANT_LANES 0 with
      gns := { GnsSt.reset with jobs := [jobOf 64 2] } }).gns.jobs.all fun q => q.res.isSome) = true := by decide +kernel

/-! O24 TunnelAndImageFramesAct -/

theorem test_tunnel_frames : ((member []).heard (from_ 4) 0x30).rd SEC_POLICY_FLAGS = 0
    ∧ (after (.tunnel (from_ 4) (.req true 0x18 5) 5) (member [])).sent = [.piste 0x30 1 4 0 [4, 0]]
    ∧ (after (.tunnel (from_ 4) (.req true 0x40040 5) 5) (member [(SEC_POLICY_FLAGS, 16)])).sent.length = 1
    ∧ (after (.tunnel (from_ 4) (.req false 0x0 0) 5) (member [])).sent.length = 2
    ∧ (after (.tunnel (from_ 4) (.ans 1 77) 5) (member [(PST_TUN_CTRL_GO_BUSY, 1), (PST_TUN_CTRL_DST, 4)])).rd PST_TUN_DATA_DATA = 77
    ∧ (after (.tunnel (from_ 4) (.mbx 2 [1, 2]) 5) (member [])).rd (HST_MBX_IN_LEN 0) = 2
    ∧ (after (.tunnel (from_ 4) (.mbx 2 [1, 2]) 5) (member [(HST_MBX_IN_STS_FULL, 15)])).sent = [.piste 0x30 3 4 0 [2, 3]]
    ∧ (after (.tunnel (from_ 4) (.mbxAns 2 3) 5) (member [(HST_MBX_OUT_GO_BUSY 2, 1), (HST_MBX_OUT_DST 2, 4)])).rd HST_COND_LAST_CODE = 0x1214 := by decide +kernel
theorem test_image_frames : (after (.image (from_ 4) (.part 0 [1, 2] false) 5) (member [])).img.staged = [1, 2]
    ∧ (after (.image (from_ 4) (.digest [9]) 5) { member [] with pst := { (member []).pst with imgd := [4, 5], imgdDig := [9] } }).rd PST_IMGD_STS_DONE = 1
    ∧ (after (.imgdGo .pcie 5) (readyWith [])).rd PST_COND_LAST_CODE = 0x0E0F
    ∧ (addrsOf (mastering 0 [] []) PST_DEVSET_SET).filter (fun a => canSend (mastering 0 [] []) a 0x31) = [4, 5]
    ∧ (after (.imgdGo .pcie 5) (mastering 0 [] [])).rd PST_IMGD_STS_BUSY = 1 := by decide +kernel

/-! O25 UnsignedSecurityCommands -/

/-- The octets of a security request with a body, for the challenge in force after reset, signed with nothing by slot 0. -/
def secOctets (c : Nat) (body : List Byte) : List Byte :=
  leBytes 4 0x444D4353 ++ [BitVec.ofNat 8 c, 0, 0, 0] ++ leBytes 4 body.length ++ List.replicate 4 0 ++ devFp ++ Config.random 0 16 ++ List.replicate 16 0
    ++ body ++ leBytes 4 0x47495345 ++ List.replicate 124 0
/-- A state with that request in the window. -/
def asking (c : Nat) (body : List Byte) (s : State) : State :=
  { s with hst := { s.hst with mem := ((List.range (secOctets c body).length).zip (secOctets c body)).map fun e => (0x10000 + e.1, e.2) } }
/-- The body that the tests give a command. -/
def bodyFor (c : Nat) : List Byte :=
  if c = 3 then 2 :: List.replicate 49 1 else if c = 4 then [0] else if c = 5 then [5, 0, 0, 0] else if c = 6 then [1, 0, 0, 0] else []
/-- A provisioned device with two OWNER keys and an image, asked for a command. -/
def secReady (c : Nat) : State :=
  asking c (bodyFor c) { readyWith [(IMG_STATUS_STATE, 2)] with sec_ := { SecSt.reset with life := 3, slots := [⟨1, [7], false⟩, ⟨1, [8], false⟩] } }
set_option maxRecDepth 100000 in
theorem test_asks : ∀ c ∈ [1, 3, 4, 5, 6, 7, 8, 9, 10, 11], (secReady c).asks .pcie c := by
  intro c hc
  have h (c : Nat) (b : List Byte) : slice (secOctets c b) 0x10 16 = devFp := rfl
  simp only [List.mem_cons, List.not_mem_nil, or_false] at hc
  rcases hc with rfl | rfl | rfl | rfl | rfl | rfl | rfl | rfl | rfl | rfl <;>
    exact ⟨by decide +kernel, rfl, by decide +kernel, by decide +kernel,
      (show headerBad _ (secOctets _ _) = false by simp only [headerBad, h]; decide +kernel), by decide +kernel, rfl⟩
theorem test_security_refused : (secReady 10).flag SEC_CMD_GO_BUSY = false
    ∧ (after (.debugLock .pcie 5) ((secReady 10).wr SEC_CMD_GO_BUSY 1)).rd SEC_COND_LAST_CODE = 0x1004
    ∧ (after (.getId .pcie 5) { readyWith [] with hst := { (readyWith []).hst with mem := [(0x10004, 1)] } }).rd SEC_CMD_RESULT = 1 := by decide +kernel

/-! O26 SignedSecurityCommands -/

theorem test_signed_commands : secBody (secRequest (secReady 3)) = bodyFor 3 ∧ emptySlot (secReady 3) = some 2
    ∧ secBody (secRequest (secReady 4)) = [0] ∧ secBody (secRequest (secReady 5)) = [5, 0, 0, 0] ∧ minSecVer (secReady 5) = 0
    ∧ secBody (secRequest (secReady 6)) = [1, 0, 0, 0] ∧ (secReady 7).idle = true ∧ (secReady 9).loaded = true ∧ lifecycle (secReady 9) = 1 := by decide +kernel
/-- A PROVISION body: an OWNER, an IMAGE and a SAFETY key, the wrapped key, minimum version 7 and clock fields. -/
def provBody : List Byte :=
  1 :: List.replicate 49 1 ++ 2 :: List.replicate 49 1 ++ 3 :: List.replicate 49 1 ++ List.replicate 145 0 ++ [7, 0, 0, 0, 1, 0, 1, 1]
set_option maxRecDepth 100000 in
theorem test_asks_provision : (asking 2 provBody (readyWith [])).asks .pcie 2 := by
  have h (c : Nat) (b : List Byte) : slice (secOctets c b) 0x10 16 = devFp := rfl
  exact ⟨by decide +kernel, rfl, by decide +kernel, by decide +kernel,
    (show headerBad _ (secOctets _ _) = false by simp only [headerBad, h]; decide +kernel), by decide +kernel, rfl⟩
theorem test_provision_body : (provSlots provBody).length = 3 ∧ provBody.length = 303
    ∧ (provSlots provBody).findIdx? (fun e => e.1 = 1) = some (u32 (secRequest (asking 2 provBody (readyWith []))) (64 + 303 + 4)) := by decide +kernel

/-! O27 HostChannelHandshakes -/

/-- Port 0 serves the host channel for up to four sessions; HOST key in slot 1; three failures lock a port out for one second. -/
def hostChannel : State :=
  withSecs [(11, []), (18, octets 32 [(4, 60), (6, 3), (8, 1)])] { withRegs [(SEC_POLICY_FLAGS, 64), (SEC_POLICY_HC_PORTS, 15), (SEC_POLICY_SESS_MAX, 4)] with
    sec_ := { SecSt.reset with slots := [⟨1, [7], false⟩, ⟨5, [9], false⟩], hand := [⟨5, 0, 1, [1], [2], 1, 0⟩] } }
theorem test_handshake : hcOn hostChannel 0 = true ∧ slotKey hostChannel 1 5 = some [9] ∧ sessMinor hostChannel 0 1 = some 1
    ∧ (hostChannel.sec_.hand.find? fun h => h.id = 5) = some ⟨5, 0, 1, [1], [2], 1, 0⟩
    ∧ (after (.init 0 true (octets 132 [(129, 0), (131, 1)]) 5) hostChannel).rd SEC_COND_LAST_CODE = 0x100F
    ∧ (after (.finTimeout 5 500000000) hostChannel).sec_.fails = [1]
    ∧ (after (.finTimeout 5 500000000) { hostChannel with sec_ := { hostChannel.sec_ with fails := [2] } }).rd SEC_STATUS_LOCKOUT = 1
    ∧ (after (.lockoutEnd 0 250000000) { hostChannel.wr SEC_STATUS_LOCKOUT 1 with sec_ := { SecSt.reset with lockAt := [some 0] } }).rd SEC_STATUS_LOCKOUT = 0 := by decide +kernel

/-! O28 HostChannelRecords -/

/-- Session 5 open in place 0 on port 0, its highest accepted SEQ 70. -/
def sessX : SessSt := ⟨5, 0, 0, 1, [], [], 70, [70, 69, 60], 9, 3, 1, 0, 0⟩
def inSession : State := { hostChannel with sec_ := { hostChannel.sec_ with sess := [sessX] } }
theorem test_records : (inSession.sec_.sess.find? fun x => x.id = 5) = some sessX ∧ hcOn inSession sessX.port = true
    ∧ sessX.seen.contains 68 = false ∧ sessX.seen.contains 69 = true
    ∧ (after (.sessIdleTimeout 5 15000000000) inSession).sec_.sess = []
    ∧ (after (.sessIdleTimeout 5 14999999999) inSession).sec_.sess = [sessX]
    ∧ (regOps 0 5 [[1, 0, 0, 0, 0, 0, 0, 0]] (inSession, [])).2.2.1.length = 5 ∧ inSession.hst.jobs = [] := by decide +kernel

/-! O29 EntropyAuditAndJtag -/

/-- One audit entry, not yet copied. -/
def auditing : State := { readyWith [] with sec_ := { SecSt.reset with ring := [⟨0, 0, 0x1013, 7, [1, 2, 3, 4, 5, 6, 7, 8]⟩], uncopied := 1, rdWord := 7 } }
theorem test_entropy_audit : (after (.entropyFail 5) State.reset).rd SEC_STATUS_ENTROPY_OK = 0
    ∧ (after (.entropyRetest true 5) (withRegs [(SEC_STATUS_ENTROPY_OK, 0)])).rd SEC_STATUS_ENTROPY_OK = 1
    ∧ (after (.auditAck .pcie 9 5) (readyWith [])).rd SEC_AUDIT_ACK_ASEQ = 9
    ∧ (after (.auditRdDataRead .pcie 5) auditing).sent = [.read .pcie 0x08070605]
    ∧ (after (.auditRdDataRead .pcie 5) auditing).rd SEC_AUDIT_RD_ADDR_ENTRY = 1
    ∧ (after (.auditMirrorCopy 5) auditing).sec_.nand.length = 1
    ∧ debugOpen State.reset = true
    ∧ (after (.jtagExtest 5) { State.reset with sec_ := { SecSt.reset with life := 15 } }).err.jtag = false := by decide +kernel

/-! O30 StartHaltAndSetpoints -/

theorem test_start : startBad ((readyWith [(IMG_STATUS_STATE, 2)]).taken .pcie 5) = none
    ∧ (after (.seqStart .pcie 5) (readyWith [(IMG_STATUS_STATE, 2), (SEQ_PERIOD_VALUE, 1000)])).rd SEQ_STATUS_STATE = 1
    ∧ (after (.seqStart .pcie 5) (readyWith [(IMG_STATUS_STATE, 2), (SEQ_PERIOD_VALUE, 1000)])).seq.nextT0 = (20 + 2000000) * 65536
    ∧ (after (.seqStart .pcie 5) (readyWith [(IMG_STATUS_STATE, 2), (SEQ_PERIOD_VALUE, 1000), (PST_CFG_ROLE, 2), (PST_MASTER_MASTER_ADDR, 9)])).pst.joining = true
    ∧ (after (.seqStart .pcie 5) (readyWith [(IMG_STATUS_STATE, 2), (PST_CFG_PAIRS, 1), (PST_CFG_ROLE, 1), (RED_STATUS_PARTNER_ADDR, 9)])).rd RED_STATUS_ROLE = 1
    ∧ (after (.seqStart .pcie 5) (readyWith [])).rd SEQ_COND_LAST_CODE = 0x020B
    ∧ (after (.seqStart .pcie 5) (readyWith [(RST_PWR_STS_STATE, 2)])).rd SEQ_COND_LAST_CODE = 0x020B
    ∧ (after (.seqStart .pcie 5) (readyWith [(RST_PWR_STS_STATE, 4)])).clk.startDue = true := by decide +kernel
theorem test_halt : (after (.seqHalt .pcie 5) (readyWith [(SEQ_STATUS_STATE, 1)])).rd SEQ_STATUS_STATE = 0
    ∧ (after (.seqHalt .pcie 5) (readyWith [(SEQ_STATUS_STATE, 2)])).rd SEQ_STATUS_STATE = 3
    ∧ (after (.seqHalt .pcie 5) (readyWith [])).rd SEQ_STATUS_STATE = 0
    ∧ (after (.haltComplete 5) (withRegs [(SEQ_STATUS_STATE, 3), (RST_PWR_STS_STATE, 0)])).rd RST_PWR_STS_STATE = 1
    ∧ (after (.spArm .pcie 5) (readyWith [])).rd SEQ_SP_CTRL_ARM = 1
    ∧ (after (.spDisarm .pcie 5) (readyWith [(SEQ_SP_CTRL_ARM, 1)])).rd SEQ_SP_CTRL_ARM = 0
    ∧ (after (.spArm .pcie 5) (readyWith [(GLB_VARIANT_LANES, 0)])).rd SEQ_COND_LAST_CODE = 0x0205
    ∧ (after (.spArm .pcie 5) (readyWith [(ERR_STATUS_FAIL_SILENT, 1)])).rd HST_COND_LAST_CODE = 0x1205 := by decide +kernel

/-! O31 T0StagesAndSample -/

/-- A running device at T0 of cycle 6, on a 1 ms period. -/
def atT0 : State := { (withRegs [(SEQ_STATUS_STATE, 2), (SEQ_PERIOD_VALUE, 1000), (RST_PWR_STS_STATE, 0)]) with seq := { SeqSt.reset with nextN := 6, nextT0 := 65536 } }
theorem test_t0 : atT0.seq.nextT0 ≤ (atT0.at 5).now ∧ (after (.t0 5) atT0).rd SEQ_CYC_LO_CYC_LO = 6
    ∧ (after (.t0 5) atT0).seq.nextT0 = 65536 + 1000000 * 65536 ∧ (after (.t0 5) atT0).seq.cycs.length = 1
    ∧ (after (.t0 0) atT0).seq.cycs.length = 0
    ∧ (spTake (withRegs [(SEQ_SP_CTRL_ARM, 1), (SEQ_MODE_REQ_MODE, 7)]) 6 0).2 = false
    ∧ (spTake (withRegs [(SEQ_SP_CTRL_ARM, 1), (SEQ_MODE_REQ_MODE, 2), (SEQ_MODE_ACT_PERMIT, 4)]) 6 0).2 = true := by decide +kernel
theorem test_stage_start : mayStart (withCycs [cycAt 5 2] (withRegs [(SEQ_STATUS_STATE, 2)])) (cycAt 5 2) 3 = true
    ∧ ((after (.stageStart 5 3 5) (withCycs [cycAt 5 2] (withRegs [(SEQ_STATUS_STATE, 2)]))).seq.cycs.map fun c => c.run.stage) = [3]
    ∧ ((after (.failureSample 5 5) (withCycs [cycAt 5 2] (withRegs [(SEQ_STATUS_STATE, 2)]))).seq.cycs.map fun c => c.fail.isSome) = [true] := by decide +kernel

/-! O32 StagesEndAndCyclesCommitOrMiss -/

/-- A running device whose cycle 5 has reached a stage. -/
def atStage (st : Nat) (running committed : Bool) : State :=
  let c := cycAt 5 st
  withCycs [{ c with committed := committed, run := { c.run with running := running, agreed := true, ready := st = 7 } }] (withRegs [(SEQ_STATUS_STATE, 2), (SEQ_PERIOD_VALUE, 1000)])
theorem test_stage_end : ((after (.stageEnd 5 6 [] 5) (atStage 6 true false)).seq.cycs.map fun c => c.run.running) = [false]
    ∧ ((after (.stageEnd 5 3 [] 5) (atStage 3 true false)).seq.cycs.map fun c => c.run.running) = [false]
    ∧ ((after (.stageEnd 5 7 [] 5) (atStage 7 true false)).seq.cycs.map fun c => c.run.ready) = [true]
    ∧ (after (.stageEnd 5 4 [] 5) { atStage 4 true false with err := { ErrSt.reset with inj := some (1, 3, 0) } }).err.inj = some (1, 3, 0)
    ∧ (after (.stageEnd 5 9 [] 5) (atStage 9 true true)).seq.cycs.length = 0 := by decide +kernel
theorem test_stage_deadline : stageDue (atStage 3 true false) (cycAt 5 3) 3 = 0
    ∧ (after (.stageDeadline 5 3 5) (atStage 3 true false)).rd SEQ_STATUS_MISS = 1
    ∧ (after (.stageDeadline 5 6 5) (atStage 5 true false)).rd SEQ_STATUS_MISS = 1
    ∧ (after (.stageDeadline 5 9 5) (atStage 9 true true)).rd (SEQ_STG_LAST_LATE 8) = 1
    ∧ (after (.stageDeadline 5 3 5) (atStage 3 false false)).rd SEQ_STATUS_MISS = 0 := by decide +kernel
theorem test_commit : (after (.commit 5 5) (atStage 7 false false)).rd SEQ_LAST_COMMIT_LAST_COMMIT = 5
    ∧ isPair ((atStage 7 false false).wrs [(PST_CFG_PAIRS, 1), (PST_CFG_ROLE, 1), (RED_STATUS_ROLE, 1)]) = true
    ∧ isPair (atStage 7 false false) = false
    ∧ (after (.commit 5 5) (atStage 4 true false)).rd SEQ_MISS_CNT_MISS_CNT = 1
    ∧ (after (.seqWatchdog 5 500000) (atStage 4 true false)).rd RST_CAUSE_CAUSE = 8
    ∧ (after (.seqWatchdog 5 499999) (atStage 4 true false)).rd RST_CNT_WDT_CNT = 0 := by decide +kernel

/-! O33 ImageCommandsStart -/

theorem test_image_commands : (readyWith []).idle = true ∧ (readyWith []).rd IMG_STATUS_STATE = 0
    ∧ (after (.imgLoad .pcie 1 5) (readyWith [])).rd IMG_REJECT_CODE = 0x011E
    ∧ (nandSlot { readyWith [] with img := { ImgSt.reset with slotA := ⟨2, false, 0, []⟩ } } 1).tried = false
    ∧ (after (.imgLoad .pcie 3 5) (readyWith [(IMG_STATUS_STATE, 1)])).rd IMG_COND_LAST_CODE = 0x0120
    ∧ (after (.imgCheck .pcie 3 5) (readyWith [(IMG_STATUS_STATE, 1)])).rd IMG_STATUS_CHECK_BUSY = 1
    ∧ (after (.imgCheck .pcie 3 5) (readyWith [(IMG_STATUS_CHECK_BUSY, 1)])).rd IMG_COND_LAST_CODE = 0x0120
    ∧ (after (.imgCheck .pcie 2 5) (readyWith [])).rd IMG_REJECT_CODE = 0x011E
    ∧ (after (.imgStore .pcie 3 5) (readyWith [(IMG_STATUS_CHECK_BUSY, 1)])).rd IMG_COND_LAST_CODE = 0x0120
    ∧ (after (.imgStore .pcie 3 5) (readyWith [])).img.chk = some ⟨3, 3, false, [], false⟩
    ∧ (after (.imgConfirm .pcie 7 5) (readyWith [])).rd IMG_COND_LAST_CODE = 0x0121
    ∧ (after (.imgStore .pcie 4 5) (readyWith [])).rd IMG_COND_LAST_CODE = 0x0121 := by decide +kernel
theorem test_confirm : (after (.imgConfirm .pcie 1 5) { readyWith [(IMG_STATUS_STATE, 2), (IMG_STATUS_SRC, 1)] with
      img := { ImgSt.reset with slotA := ⟨2, true, 0, []⟩ } }).img.slotA.state = 1
    ∧ (after (.imgLoad .pcie 1 5) { readyWith [] with img := { ImgSt.reset with slotA := ⟨2, true, 0, []⟩ } }).img.slotA.state = 3
    ∧ (after (.imgLoad .pcie 1 5) { readyWith [] with img := { ImgSt.reset with slotA := ⟨2, false, 0, []⟩ } }).img.slotA.tried = true
    ∧ (after (.imgConfirm .pcie 1 5) (readyWith [])).img = (readyWith []).img
    ∧ (after (.imgAbandon .pcie 1 5) (readyWith [])).rd IMG_STATUS_CHECK_BUSY = 0
    ∧ (after (.sourceTimeout 2500000000) (withRegs [(GLB_STRAP_BOOT, 4)])).img.timedOut = false
    ∧ (after (.imgAbandon .pcie 1 5) (readyWith [(IMG_STATUS_CHECK_BUSY, 1)])).rd IMG_STATUS_CHECK_BUSY = 0
    ∧ (after (.sourceTimeout 2500000000) { withRegs [(GLB_STRAP_BOOT, 4)] with red := { RedSt.reset with since := some 0 } }).rd IMG_COND_LAST_CODE = 0x011C
    ∧ (after (.sourceTimeout 2499999999) { withRegs [(GLB_STRAP_BOOT, 4)] with red := { RedSt.reset with since := some 0 } }).img.timedOut = false := by decide +kernel

/-! O34 ImageLoadsChecksAndStoresEnd -/

/-- A check, load or store that runs. -/
def running (j : LoadJob) : State := { withRegs [(IMG_STATUS_STATE, 1), (IMG_STATUS_CHECK_BUSY, 1)] with
  img := if j.cmd = 1 then { ImgSt.reset with job := some j } else { ImgSt.reset with chk := some j } }
theorem test_image_ends : (after (.loadComplete none 5) (running ⟨1, 3, false, [], false⟩)).rd IMG_STATUS_STATE = 0
    ∧ (after (.loadComplete none 5) (running ⟨1, 3, false, [], false⟩)).rd IMG_REJECT_CODE = 0x0101
    ∧ (after (.loadComplete none 5) (running ⟨1, 1, true, [], false⟩)).rd IMG_COND_LAST_CODE = 0x011E
    ∧ (after (.checkComplete none 5) (running ⟨2, 3, false, [], false⟩)).rd IMG_REJECT_CODE = 0x0101
    ∧ loadRejected (readyWith [(GLB_STRAP_BOOT, 1)]) ⟨1, 1, true, [], false⟩ noImage
      = report (reject (readyWith [(GLB_STRAP_BOOT, 1)]) noImage) 0x011E
    ∧ (loadRejected (readyWith [(GLB_STRAP_BOOT, 1)]) ⟨1, 1, true, [2], false⟩ noImage).img.job = some ⟨1, 2, true, [], true⟩
    ∧ (after (.loadComplete none 5) (readyWith [])).rd IMG_REJECT_CODE = 0
    ∧ (after (.checkComplete none 5) (running ⟨1, 3, false, [], false⟩)).img = (running ⟨1, 3, false, [], false⟩).img
    ∧ (after (.storeComplete false 5) (readyWith [])).rd IMG_REJECT_CODE = 0
    ∧ (after (.storeComplete true 5) (running ⟨3, 3, false, [], false⟩)).rd IMG_STATUS_CHECK_BUSY = 0 := by decide +kernel

/-! O35 GroupsStopAndRestart -/

theorem test_groups : groupsIn (readyWith []) 4 = [2]
    ∧ (after (.funcStop .pcie 4 5) (readyWith [(SEQ_STATUS_STATE, 2)])).rd IMG_FUNC_PEND_CORE = 4
    ∧ (after (.funcStop .pcie 4 5) { readyWith [(SEQ_STATUS_STATE, 2)] with img := { ImgSt.reset with heldGroups := 4 } }).rd IMG_COND_LAST_CODE = 0x0124
    ∧ (after (.groupStopped 2 5) { withRegs [(SEQ_STATUS_STATE, 2), (IMG_FUNC_PEND_CORE, 4)] with img := { ImgSt.reset with taken := 4 } }).rd IMG_FUNC_STATE_CORE = 4
    ∧ (after (.funcRestart .pcie 4 5) (readyWith [(SEQ_STATUS_STATE, 2), (IMG_FUNC_STATE_CORE, 4)])).img.restart = 4
    ∧ (after (.funcRestart .pcie 4 5) (readyWith [(SEQ_STATUS_STATE, 2)])).rd IMG_COND_LAST_CODE = 0x0123
    ∧ (after (.groupStopped 2 5) (withRegs [(SEQ_STATUS_STATE, 2), (IMG_FUNC_PEND_CORE, 4)])).rd IMG_FUNC_STATE_CORE = 0
    ∧ (after (.funcRestart .pcie 4 5) { readyWith [(SEQ_STATUS_STATE, 2), (IMG_FUNC_STATE_CORE, 4)] with
        img := { ImgSt.reset with heldGroups := 4 } }).rd IMG_COND_LAST_CODE = 0x0124
    ∧ (after (.funcRestart .pcie 4 5) (readyWith [(ERR_STATUS_FAIL_SILENT, 1)])).rd HST_COND_LAST_CODE = 0x1205
    ∧ (after (.funcRestart .pcie 4 5) (readyWith [])).img.restart = 0
    ∧ (after (.funcStop .pcie 4 5) (readyWith [(ERR_STATUS_FAIL_SILENT, 1)])).rd HST_COND_LAST_CODE = 0x1205 := by decide +kernel

/-! O36 TimeSourcesAndServo -/

/-- Slot 1 (PTP) qualified and selected in LOCKED. -/
def timed (l : List (Fld × Nat)) : State :=
  let s := withRegs ([(TIM_SRC_CFG_KIND 1, 2), (TIM_SRC_CFG_QUALIFIED 1, 1), (TIM_STATUS_SEL_VALID, 1), (TIM_STATUS_SEL_SLOT, 1), (TIM_QUAL_STATE, 2),
    (TIM_STEP_THR_VALUE, 1000)] ++ l)
  s
theorem test_source_offset : (after (.sourceOffset 1 65536000 5) (timed [])).rd TIM_STATUS_STEP_ARMED = 1
    ∧ (after (.sourceOffset 1 65535999 5) (timed [])).rd TIM_STATUS_STEP_ARMED = 0
    ∧ (after (.sourceOffset 1 65536 5) (timed [(TIM_STATUS_STEP_ARMED, 1)])).rd (TIM_SRC_CNT_DISCARD 1) = 1
    ∧ (after (.sourceOffset 1 65536 5) (timed [(TIM_QUAL_CLK_FAULT, 1)])).rd (TIM_SRC_CNT_VALID_CNT 1) = 0
    ∧ (after (.sourceOffset 1 65536 5) (timed [(TIM_STATUS_SEL_SLOT, 0)])).rd (TIM_SRC_OFS_THETA 1) = 1 := by decide +kernel
theorem test_source_qualifies : (after (.sourceOffset 1 65536 5) (timed [(TIM_SRC_CFG_QUALIFIED 1, 0), (TIM_STATUS_SEL_VALID, 0)])).rd TIM_STATUS_SEL_VALID = 1
    ∧ (after (.sourceOffset 1 65536 5) (timed [(TIM_SRC_CFG_QUALIFIED 1, 0), (TIM_STATUS_SEL_VALID, 0), (TIM_CFG_QUAL_N, 2)])).rd TIM_STATUS_SEL_VALID = 0
    ∧ (after (.sourceOffset 2 65536 5) (timed [])).tim.srcs = (timed []).tim.srcs
    ∧ (reselect (timed [(TIM_SRC_CFG_QUALIFIED 0, 1)])).rd TIM_STATUS_SEL_SLOT = 0
    ∧ (reselect (timed [(TIM_SRC_CFG_QUALIFIED 0, 1), (TIM_SRC_CFG_REVERT_S 0, 5)])).rd TIM_STATUS_SEL_SLOT = 1
    ∧ (reselect (timed [(TIM_SRC_CFG_QUALIFIED 1, 0)])).rd TIM_QUAL_STATE = 3 := by decide +kernel
theorem test_source_loss : (after (.sourceLossTimeout 1 5) (timed [])).rd TIM_QUAL_STATE = 3
    ∧ (after (.sourceLossTimeout 2 5) (timed [])).rd TIM_QUAL_STATE = 2
    ∧ (after (.sourceRevert 0 250000000) { timed [(TIM_SRC_CFG_REVERT_S 0, 1)] with tim := { TimSt.reset with srcs := [⟨3, some 0, some 0, none⟩] } }).rd TIM_STATUS_SEL_SLOT = 0
    ∧ (after (.sourceRevert 0 249999999) { timed [(TIM_SRC_CFG_REVERT_S 0, 1)] with tim := { TimSt.reset with srcs := [⟨3, some 0, some 0, none⟩] } }).rd TIM_STATUS_SEL_SLOT = 1
    ∧ (after (.holdoverLimit 5) (withSecs [(10, octets 64 [(0x1C, 1)])] (withRegs [(TIM_QUAL_STATE, 3)]))).rd TIM_QUAL_STATE = 4
    ∧ (after (.holdoverLimit 5) (withRegs [(TIM_QUAL_STATE, 3)])).rd TIM_QUAL_STATE = 3 := by decide +kernel

/-! O37 TimeStepsPpsAndReads -/

theorem test_tim_set : (after (.timSet .pcie 0) (readyWith [(TIM_SET_VALUE 1, 1)])).tim.step = some ⟨65536000000000, some 0⟩
    ∧ (after (.timSet .pcie 0) (readyWith [(TIM_QUAL_STATE, 2)])).rd TIM_COND_LAST_CODE = 0x060B
    ∧ (after (.timeStep 0) { withRegs [(TIM_STATUS_SEL_VALID, 1)] with tim := { TimSt.reset with step := some ⟨65536, none⟩ } }).tim.tA = 65536
    ∧ (after (.timeStep 0) { withRegs [] with tim := { TimSt.reset with step := some ⟨65536, some 9⟩ } }).rd TIM_QUAL_STATE = 3 := by decide +kernel
theorem test_step_walks : (after (.timeStep 0) { withRegs [(SEQ_STATUS_STATE, 2), (TIM_STATUS_SEL_VALID, 1), (SEQ_PERIOD_VALUE, 4000)] with
      tim := { TimSt.reset with step := some ⟨65536, none⟩ } }).rd SEQ_STATUS_PHASE_WALK = 1
    ∧ (after (.timeStep 0) (withRegs [])).tim = TimSt.reset
    ∧ (after (.timeStep 0) { withRegs [(TIM_QUAL_STATE, 2), (TIM_PPS_CFG_PPS_WIDTH, 1), (TIM_STATUS_SEL_VALID, 1)] with
        tim := { TimSt.reset with step := some ⟨65536, none⟩ } }).rd TIM_PPS_STS_SUPPRESSED = 1
    ∧ (after (.timeStep 0) { withRegs [] with tim := { TimSt.reset with step := some ⟨65536, none⟩ } }).rd TIM_QUAL_STATE = 3 := by decide +kernel
theorem test_pps : (after (.ppsOutPulse 5) (withRegs [(TIM_PPS_CFG_PPS_WIDTH, 1), (TIM_QUAL_STATE, 2)])).tim.ppsHigh = some 2005
    ∧ (after (.ppsOutPulse 5) (withRegs [(TIM_PPS_CFG_PPS_WIDTH, 1)])).tim.ppsHigh = none
    ∧ (after (.ppsWidthEnd 2005) { State.reset with tim := { TimSt.reset with ppsHigh := some 2005 } }).tim.ppsHigh = none
    ∧ (after (.ppsWidthEnd 2004) { State.reset with tim := { TimSt.reset with ppsHigh := some 2005 } }).tim.ppsHigh = some 2005
    ∧ (after (.timNowRead .pcie 5) (readyWith [])).sent = [.read .pcie 20]
    ∧ (after (.timConvRead .pcie 5) (readyWith [(TIM_CONV_TIME_VALUE 0, 400)])).sent = [.read .pcie 100] := by decide +kernel

/-! O38 PtpSlaveFollowsItsMaster -/

/-- The slave on port 0 follows master 7, port 1; its last Sync and Delay_Req have sequence number 3. -/
def slave (t1 : Option Int) : State :=
  { withSecs [(10, octets 64 []), (11, octets 400 [])] (withRegs [(TIM_SRC_CFG_KIND 1, 2), (TIM_PTP_CFG_MPD_MAX, 10)]) with tim := { TimSt.reset with
    ptp := ⟨[⟨7, 1, ⟨1, 2, 3, 4, 5, 6, 7⟩, [0], 0, none⟩], some (7, 1), some (3, t1, 0, 900), some ⟨3, 10, some 1000⟩, 0, 4, none⟩ } }
def hdr7 : PtpHdr := ⟨2, 0, 7, 1, 3, 0, 0⟩
theorem test_ptp_runs : netOn (slave none) ((slave none).rd TIM_CFG_TIME_PORT) = true ∧ ptpMine (slave none) hdr7 = true
    ∧ (after (.ptpSync { hdr7 with domain := 4 } none 0 5) (slave none)).rd TIM_PTP_CNT_IGNORED = 1
    ∧ (after (.ptpSync { hdr7 with domain := 4 } none 0 5) { slave none with img := ImgSt.reset }).rd TIM_PTP_CNT_IGNORED = 0 := by decide +kernel
theorem test_ptp_sync : (after (.ptpSync { hdr7 with seq := 9 } none 80 5) (slave none)).tim.ptp.sync = some (9, none, 0, ingressTime (slave none) 0 80)
    ∧ (after (.ptpSync { hdr7 with seq := 9 } (some 5) 80 5) (slave none)).tim.ptp.sync.isSome = true
    ∧ (after (.ptpSync { hdr7 with clock := 9 } none 80 5) (slave none)).tim.ptp = (slave none).tim.ptp
    ∧ (after (.ptpFollowUp hdr7 100 5) (slave none)).tim.ptp.sync = some (3, some 100, 0, 900)
    ∧ (after (.ptpFollowUp { hdr7 with seq := 4 } 100 5) (slave none)).tim.ptp.sync = some (3, none, 0, 900) := by decide +kernel
theorem test_ptp_announce : (after (.ptpAnnounce { hdr7 with clock := 8 } ⟨1, 2, 3, 4, 5, 6, 7⟩ none 5) (slave none)).tim.ptp.foreign.length = 2
    ∧ (after (.ptpAnnounceTimeout 7 1 5) ((slave none).wr TIM_PTP_CFG_ANNOUNCE_TO 3)).tim.ptp.foreign.length = 1
    ∧ (after (.ptpAnnounceTimeout 7 1 750000000) ((slave none).wr TIM_PTP_CFG_ANNOUNCE_TO 3)).tim.ptp.foreign.length = 0
    ∧ (ptpSelect (slave none)).rd TIM_COND_LAST_CODE = 0x060E ∧ (bestMaster (slave none)).isNone = true := by decide +kernel
theorem test_ptp_delay : (after (.ptpDelayResp hdr7 2000 true 5) (slave (some 100))).tim.ptp.mpdF = some 900
    ∧ (after (.ptpDelayResp hdr7 0 true 5) (slave (some 100))).rd TIM_PTP_CNT_BAD_DELAY = 1
    ∧ (after (.ptpDelayResp hdr7 2000 true 5) ((slave (some 100)).wr (TIM_SRC_CFG_KIND 1) 0)).tim.ptp.mpdF = some 900
    ∧ (after (.ptpDelayResp hdr7 0 true 5) ((slave (some 100)).wr (TIM_SRC_CFG_KIND 1) 0)).rd TIM_PTP_CNT_BAD_DELAY = 1
    ∧ (after (.ptpDelayResp hdr7 2000 false 5) (slave (some 100))).tim.ptp.mpdF = none := by decide +kernel

/-! O39 PpsInAndCaptureBalls -/

/-- Balls with a FIFO of one capture and an armed target. -/
def balls (l : List (Fld × Nat)) : State :=
  { readyWith ([(TIM_SRC_CFG_KIND 1, 4), (TIM_PPSIN_CFG_WMAX, 5)] ++ l) with tim := { TimSt.reset with tcap := List.replicate 4 ⟨[(2 ^ 33 + 9, true)], true, false, none, false, none⟩ } }
theorem test_pps_in : slotOfKind (balls []) 4 = some 1
    ∧ (after (.ppsInEdge 250000000 100) (balls [(TIM_QUAL_STATE, 2)])).rd (TIM_SRC_CNT_VALID_CNT 1) = 1
    ∧ (after (.ppsInEdge 250000000 100) (balls [])).rd (TIM_SRC_CNT_DISCARD 1) = 1
    ∧ (after (.ppsInEdge 5 2000000) (balls [])).rd TIM_COND_LAST_CODE = 0x0609 := by decide +kernel
theorem test_tcap_more : (after (.tcapTrigger 0 7) (balls [(TIM_TCAP_CFG_MODE 0, 3), (TIM_TCAP_CFG_WIDTH 0, 9), (TIM_QUAL_STATE, 2)])).tim.tcap.map (·.lastSec)
      = [some 0, none, none, none]
    ∧ (tcapOf (after (.tcapTrigger 0 7) (balls [(TIM_TCAP_CFG_MODE 0, 3)])) 0).lastSec = none
    ∧ (tcapOf (after (.tcapCapture 0 true 7) (balls [])) 0).fifo.length = 1
    ∧ (after (.tcapCapture 0 true 7) { balls [(TIM_TCAP_CFG_MODE 0, 1), (TIM_TCAP_CFG_EDGE 0, 1)] with
        tim := { TimSt.reset with tcap := List.replicate 4 ⟨List.replicate 4 (7, true), true, false, none, false, none⟩ } }).rd (TIM_TCAP_STS_CAP_LOST 0) = 1
    ∧ (after (.ppsInEdge 5 100) (readyWith [])).tim.ppsInLast = none := by decide +kernel
theorem test_tcap : (tcapOf (after (.tcapCapture 0 true 7) (balls [(TIM_TCAP_CFG_MODE 0, 1), (TIM_TCAP_CFG_EDGE 0, 1)])) 0).fifo.length = 2
    ∧ (tcapOf (after (.tcapTrigger 0 7) (balls [(TIM_TCAP_CFG_MODE 0, 2)])) 0).armed = false
    ∧ (after (.tcapTrigger 0 7) (balls [(TIM_TCAP_CFG_MODE 0, 2), (TIM_TCAP_PERIOD_PERIOD 0, 9)])).rd (TIM_TCAP_TGT_LO_TGT 0) = 9
    ∧ (after (.tcapArm .pcie 1 1 7) (balls [(TIM_TCAP_CFG_MODE 1, 2), (TIM_TCAP_CFG_WIDTH 1, 4)])).rd (TIM_TCAP_STS_LATE 1) = 0
    ∧ (after (.tcapArm .pcie 1 0 7) (balls [(TIM_TCAP_CFG_MODE 1, 2), (TIM_TCAP_CFG_WIDTH 1, 4)])).rd (TIM_TCAP_STS_LATE 1) = 1
    ∧ (after (.tcapArm .pcie 1 0 7) (balls [(TIM_TCAP_CFG_MODE 1, 2)])).rd TIM_COND_LAST_CODE = 0x060B
    ∧ (after (.tcapCapRead .pcie 2 7) (balls [])).sent = [.read .pcie 9]
    ∧ (after (.tcapCapRead .pcie 2 7) { balls [] with tim := TimSt.reset }).sent = [.read .pcie 0] := by decide +kernel

/-! O40 FrontEndsAndAcquisition -/

/-- A running device with antennas of two channels each on 2-bit samples, occupancy between 30 % and 50 % in range; a detection is a peak of
half the mean. -/
def gnssOn (l : List (Fld × Nat)) : State :=
  withSecs [(9, octets 256 [(4, 100), (0x18, 2), (0x19, 2), (0x1C, 2), (0x1D, 2), (0x20, 44), (0x21, 1), (0x22, 244), (0x23, 1), (0x3B, 0x3F)])]
    (readyWith ([(SEQ_STATUS_STATE, 2), (CLK_DOM_STS_STATE 5, 0), (CLK_DOM_STS_STATE 4, 2)] ++ l))
/-- The job that the bank runs in the tests. -/
def acqJob (v : Option (Nat × Nat × Int)) : AcqJob := ⟨1, 0, 1, 4, 0, 2, 0, 0, v⟩
/-- The bank runs it. -/
def acquiring (j : AcqJob) : State := { gnssOn [] with gns := { GnsSt.reset with acq := some j } }
theorem test_front_ends : gnsRuns (gnssOn []) = true ∧ gnsClocked (gnssOn []) = true ∧ gnsCh (gnssOn []) 0 = 2
    ∧ (after (.gclkRateCheck 101 5) (gnssOn [])).rd GNS_COND_LAST_CODE = 0x0503
    ∧ (after (.gclkRateCheck 100 5) (gnssOn [])).rd GNS_STATUS_GCLK_OK = 1
    ∧ (after (.gclkRateCheck 900 5) (readyWith [])).rd GNS_COND_LAST_CODE = 0
    ∧ (after (.occupancyWindow 0 [3, 0, 2, 0, 3, 0, 2, 0] [] 5) (gnssOn [])).rd (GNS_ANT_STS_OCC 0) = 400
    ∧ (after (.occupancyWindow 0 [3, 0, 2, 0, 3, 0, 2, 0] [] 5) (readyWith [])).rd (GNS_ANT_STS_OCC 0) = 0
    ∧ (after (.occupancyWindow 0 [0, 0, 1] [] 5) { gnssOn [] with gns := { GnsSt.reset with out := [2] } }).rd (GNS_ANT_STS_FAULT 0) = 1 := by
  decide +kernel
theorem test_front_end_writes : (after (.feSpiDone 7 5) { gnssOn [] with gns := { GnsSt.reset with spi := [⟨0, 5, 9, true, false⟩] } }).rd GNS_COND_LAST_CODE = 0x0504
    ∧ (after (.feSpiDone 9 5) { gnssOn [] with gns := { GnsSt.reset with spi := [⟨0, 5, 9, true, true⟩] } }).rd (GNS_ANT_STS_GAIN 0) = 9
    ∧ (after (.feSpiDone 9 5) (gnssOn [])).rd (GNS_ANT_STS_GAIN 0) = 0 := by decide +kernel
theorem test_acquisition : ((after (.acqPassDone 9 2 4 5 5) (acquiring (acqJob none))).gns.acq.bind (·.ver)) = some (2, 4, 5)
    ∧ ((after (.acqPassDone 9 2 4 5 5) (acquiring (acqJob (some (2, 4, 5))))).gch 0).sig = 1
    ∧ ((after (.acqPassDone 0 200 4 5 5) (acquiring (acqJob none))).gns.acq.map (·.pass)) = some 1
    ∧ (after (.acqPassDone 0 200 4 5 5) (acquiring { acqJob none with pass := 1 })).gns.absent = [(1, 0, 1, 4)]
    ∧ (after (.acqPassDone 9 2 4 5 5) (gnssOn [])).gns.acq = none := by decide +kernel

/-! O41 TrackingAndEpochs -/

/-- A channel that tracks signal 1. -/
def trackCh (codeLock : Bool) (up low : Nat) : GnsCh := { chIdle 0 with sig := 1, prn := 4, pull := true, codeLock := codeLock, up := up, low := low }
/-- It is channel 0 of a running device; some words of the section are filled in. -/
def trackingIn (k : Nat) (x : GnsCh) : State :=
  withSecs [(9, octets 256 [(0x18, 2), (0x40, 2), (0x44, k), (0x46, 1), (0x48, 3)])] (withCycs [{ cycAt 5 0 with inp := { (cycAt 5 0).inp with runs := 8 } }]
    { withRegs [(SEQ_STATUS_STATE, 2), (GNS_LANES_LO_LANES, 1), (CLK_DOM_STS_STATE 5, 0), (CLK_DOM_STS_STATE 4, 2)] with gns := { GnsSt.reset with
      chs := [(0, x)], epoch := some ⟨4, 1, 0, [], [], none, [], none, [], false⟩ } })
/-- As above; CN0_LOCK is 0, so that every update counts. -/
def tracking (codeLock : Bool) (up low : Nat) : State := trackingIn 0 (trackCh codeLock up low)
/-- Job dispatch waits on cycle 5. -/
def dispatching (used : List Nat) : State :=
  (tracking true 9 0).gn fun g => { g with epoch := some ⟨5, 1, 0, [], used, none, [], none, [], false⟩ }
theorem test_tracking : ((after (.loopUpdate 0 5 5 0 0 0 0 5) (tracking false 9 0)).gch 0).codeLock = true
    ∧ ((after (.loopUpdate 0 0 0 0 0 0 0 5) (trackingIn 9 (trackCh false 9 0))).gch 0).up = 0
    ∧ ((after (.loopUpdate 0 0 0 0 0 0 0 5) (tracking true 9 2)).gch 0).sig = 0
    ∧ ((after (.loopUpdate 0 5 5 0 0 0 0 5) (tracking true 9 1)).gch 0).prompts = [(5, 5)]
    ∧ (after (.loopUpdate 1 5 5 0 0 0 0 5) (tracking true 9 1)).gns = (tracking true 9 1).gns
    ∧ ((after (.pullInEnd 0 5) (tracking true 9 2)).gch 0).pull = false
    ∧ ((after (.pullInEnd 0 5) (trackingIn 0 { trackCh true 9 0 with pullEnd := 6 })).gch 0).pull = true := by decide +kernel
theorem test_epochs : (after (.gnssEpoch 5 0 5) (tracking true 9 2)).rd GNS_STATUS_ALL_LOST = 0
    ∧ (after (.gnssEpoch 5 0 5) (tracking false 9 2)).rd GNS_COND_LAST_CODE = 0x0505
    ∧ (after (.gnssEpoch 5 0 5) ((tracking false 9 2).wr GNS_STATUS_ALL_LOST 1)).rd GNS_COND_LAST_CODE = 0
    ∧ ((after (.gnssEpoch 5 0 5) (tracking true 9 2)).gns.epoch.map (·.n)) = some 5
    ∧ ((after (.gnssEpoch 6 0 5) (tracking true 9 2)).gns.epoch.map (·.n)) = some 4
    ∧ ((after (.gnssEpoch 4 1 5) (tracking true 9 2)).gns.epoch.map (·.kNext)) = some 2
    ∧ ((after (.gnssEpoch 4 2 5) (tracking true 9 2)).gns.epoch.map (·.kNext)) = some 1 := by decide +kernel
theorem test_dispatch : ((after (.gnssJobDispatch 5 5) (dispatching [])).gns.epoch.bind (·.pvt)) = some false
    ∧ ((after (.gnssJobDispatch 5 5) (dispatching [0])).gns.epoch.bind (·.pvt)) = none
    ∧ ((after (.gnssJobDispatch 6 5) (dispatching [])).gns.epoch.bind (·.pvt)) = none := by decide +kernel

/-! O42 NavigationDataAndCorrections -/

/-- A running device whose RTCM stream holds some octets. -/
def streaming (l : List Byte) : State := { gnssOn [] with gns := { GnsSt.reset with fifo := l } }
theorem test_navigation : (after (.navWordDecoded 0 (.eph 3 [4]) true 5) (tracking true 9 0)).gns.store.length = 1
    ∧ ((after (.navWordDecoded 0 .sync true 5) (tracking true 9 0)).gch 0).sync = true
    ∧ ((after (.navWordDecoded 0 (.tow 2 3) true 5) (tracking true 9 0)).gch 0).code / 2 ^ 32 = 2046003
    ∧ ((after (.navWordDecoded 0 (.preamble true) true 5) (trackingIn 0 { trackCh true 9 0 with half := true })).gch 0).inv = true
    ∧ ((after (.navWordDecoded 0 (.preamble true) true 5) (tracking true 9 0)).gch 0).inv = false
    ∧ ((after (.navWordDecoded 0 (.range [4]) true 5) (trackingIn 0 { trackCh true 9 0 with sig := 4 })).gch 0).range = [4]
    ∧ (after (.navWordDecoded 0 (.iono [4]) true 5) (tracking true 9 0)).gns.iono = [4]
    ∧ (after (.navWordDecoded 0 (.eph 3 [4]) false 5) (tracking true 9 0)).gns.store = []
    ∧ (after (.navWordDecoded 1 (.eph 3 [4]) true 5) (tracking true 9 0)).gns.store = [] := by decide +kernel
theorem test_store : (after (.ephemerisSave 5) { gnssOn [] with gns := { GnsSt.reset with store := [⟨1, 2, false, 3, [4], true, true⟩] } }).gns.nand.length = 1
    ∧ (after (.ephemerisSave 5) { gnssOn [] with gns := { GnsSt.reset with store := [⟨1, 2, false, 3, [4], true, true⟩], saveAt := 6 } }).gns.nand = []
    ∧ (navEpoch [⟨1, 2, false, 4, [5], true, false⟩, ⟨1, 2, false, 3, [4], true, true⟩]) = [⟨1, 2, false, 4, [5], true, true⟩] := by decide +kernel
theorem test_rtcm : (after (.gnsRtcmData .pcie 0xD3 5) (gnssOn [])).rd GNS_RTCM_STS_FILL = 1
    ∧ (after (.gnsRtcmData .pcie 0xD2 5) (gnssOn [])).rd GNS_RTCM_STS_FILL = 0
    ∧ (after (.gnsRtcmData .pcie 0xD3 5) (streaming (List.replicate 8192 0xD3))).rd GNS_COND_LAST_CODE = 0x050F
    ∧ (after (.gnsRtcmData .pcie 0xD3 5) (readyWith [])).gns.fifo = []
    ∧ rtcmTake [0xD3, 0, 2, 0x3E, 0xD0, 1, 2, 3, 9] = some ([0x3E, 0xD0], false, [9])
    ∧ rtcmTake [0xD3, 0, 0, 0x47, 0xEA, 0x4B] = some ([], true, [])
    ∧ (after (.rtcmFrame false 5) (streaming [0xD3, 0, 2, 0x3E, 0xD0, 1, 2, 3, 9])).rd GNS_COND_LAST_CODE = 0x050E
    ∧ (after (.rtcmFrame false 5) (streaming [0xD3, 0, 0, 0x47, 0xEA, 0x4B])).gns.fifo = []
    ∧ (after (.rtcmFrame false 5) (gnssOn [])).gns.fifo = [] := by decide +kernel

/-! O43 SamplesBanksAndLaneMemory -/

theorem test_samples_banks : (after (.firSample 0 5 5) { withRegs [(SEQ_STATUS_STATE, 2), (FLT_STATUS_CHANNELS, 1)] with
      flt := ⟨[⟨[7], 0, none, false, true, 0, 0, 0⟩], [], [5], []⟩ }).flt.smp.map (fun x => (x.ch, x.m, x.bad)) = [(0, 5, true)]
    ∧ (after (.firSample 0 6 5) { withRegs [(SEQ_STATUS_STATE, 2), (FLT_STATUS_CHANNELS, 1)] with flt := ⟨[], [], [5], []⟩ }).flt.smp = []
    ∧ (after (.firSample 3 5 5) { withRegs [(SEQ_STATUS_STATE, 2), (FLT_STATUS_CHANNELS, 1)] with flt := ⟨[], [], [5, 5, 5, 5], []⟩ }).flt.smp = []
    ∧ (after (.bankWordWrite .pcie 1 3 9 5) (readyWith [(OCE_BANK_CTRL_HOST_WR, 1), (GLB_VARIANT_LANES, 0)])).banks = []
    ∧ (after (.oceBankSeal .pcie 5) { readyWith [] with banks := [(16384 + 64, 256)] }).rd OCE_BANK_STS_B_SEALED = 1
    ∧ (after (.laneMemDataRead .pcie 9 5) (readyWith [])).sent = [.read .pcie 0]
    ∧ (after (.oceReinit .pcie 5) (readyWith [])).seq.reinit = true
    ∧ (after (.oceReinit .pcie 5) (readyWith [(GLB_VARIANT_LANES, 0)])).seq.reinit = false
    ∧ (after (.oceBankSwap .pcie 5) (readyWith [])).rd OCE_BANK_STS_SWAP_PEND = 1
    ∧ (after (.oceBankSeal .pcie 5) (readyWith [])).rd OCE_BANK_STS_B_SEALED = 1
    ∧ (after (.oceBankSeal .pcie 5) (readyWith [])).rd OCE_BANK_STS_GEN_B = (readyWith []).rd OCE_BANK_STS_GEN_B + 1
    ∧ (after (.bankWordWrite .pcie 1 3 9 5) (readyWith [(OCE_BANK_CTRL_HOST_WR, 1)])).banks = [(16387, 9)]
    ∧ (after (.bankWordWrite .pcie 0 3 9 5) (readyWith [(OCE_BANK_CTRL_HOST_WR, 1)])).rd OCE_COND_LAST_CODE = 0x040D
    ∧ (after (.laneMemDataRead .pcie 0 5) { readyWith [] with lmem := [(0, 77)] }).sent = [.read .pcie 77] := by decide +kernel

/-! O44 LaneJobsAndComputingFaults -/

/-- Cycle 5 in stage 6 with one job on lane 0, started or not. -/
def jobbing (st : Nat) (started : Option Nat) : State :=
  let c := cycAt 5 st
  withCycs [{ c with out := { c.out with jobs := [{ jobOf 0 0 with started := started }] }, run := { c.run with running := true } }]
    (withRegs [(SEQ_STATUS_STATE, 2), (SEQ_MISS_CFG_MISS_LIMIT, 3)])
/-- The same with one variable in its problem, not yet started: its descriptor is in range. -/
def sizedJob (st : Nat) : State :=
  let s := jobbing st none
  { s with seq := { s.seq with cycs := s.seq.cycs.map fun c => { c with out := { c.out with jobs := c.out.jobs.map fun q => { q with prob := { q.prob with n := 1 } } } } } }
theorem test_lane_jobs : jobAt (jobbing 6 none) 0 0 5 = some (jobOf 0 0) ∧ laneFenced (jobbing 6 none) 0 = false
    ∧ ((jobAt (after (.laneJobStart 0 0 5 7) (sizedJob 6)) 0 0 5).bind (·.started)) = some 7
    ∧ ((jobAt (after (.laneJobStart 0 0 5 7) (jobbing 6 none)) 0 0 5).bind (·.started)) = none
    ∧ jobAt (after (.laneJobEnd 0 0 5 9) (jobbing 6 (some 7))) 0 0 5 = none
    ∧ (after (.laneJobDeadline 0 0 5 1 0 1000) (jobbing 6 (some 7))).rd SEQ_STATUS_MISS = 1
    ∧ (after (.laneJobDeadline 0 0 5 1 0 999) (jobbing 6 (some 7))).rd SEQ_STATUS_MISS = 0
    ∧ (after (.laneResidueFault 0 0 5 1 9) (jobbing 6 (some 7))).rd ERR_CNT_T_COUNT = 1
    ∧ (after (.oceCheckFault 5 1 9) (jobbing 4 none)).rd ERR_LAST_UNIT = 2
    ∧ (after (.firCheckFault 5 (some 3) 1 9) (jobbing 2 none)).rd ERR_LAST_INDEX = 3
    ∧ (after (.firCheckFault 5 (some 3) 1 9) (jobbing 3 none)).rd ERR_CNT_T_COUNT = 0 := by decide +kernel

/-! O45 FaultsAreClassed -/

theorem test_sram_corrected : (after (.sramCorrected 1 0 77 none false 5) State.reset).rd ERR_CNT_C_COUNT = 1
    ∧ (after (.sramCorrected 1 0 77 none false 5) State.reset).err.corr = [77]
    ∧ (after (.sramCorrected 1 0 77 none false 6) (after (.sramCorrected 1 0 77 none false 5) State.reset)).rd ERR_HARD_ENTRIES = 1
    ∧ (after (.sramCorrected 1 0 77 none false 6) { State.reset with err := { State.reset.err with hard := [77] } }).rd ERR_HARD_CORR_CNT = 1
    ∧ (after (.sramCorrected 1 0 77 none false 6) { State.reset with err := { State.reset.err with hard := [77] } }).rd ERR_CNT_C_COUNT = 0 := by decide +kernel
theorem test_sram_uncorrectable : (after (.sramUncorrectable .host false 3 false 5) State.reset).rd ERR_COND_LAST_CODE = 0x0B07
    ∧ (after (.sramUncorrectable .host false 3 true 5) State.reset).rd ERR_COND_LAST_CODE = 0
    ∧ (after (.sramUncorrectable .config false 3 false 5) State.reset).rd ERR_STATUS_S_CAUSE = 2
    ∧ (after (.sramUncorrectable (.block 5 1) true 3 false 5) State.reset).rd ERR_CNT_T_COUNT = 1
    ∧ (after (.sramUncorrectable (.block 5 1) true 3 false 5) { State.reset with err := { State.reset.err with rewrote := some (5, 1) } }).rd ERR_STATUS_S_CAUSE = 4
    ∧ (after (.sramUncorrectable (.block 5 1) true 3 true 5) State.reset).err.rewrote = none
    ∧ (after (.seqCompare 5) State.reset).rd ERR_STATUS_S_CAUSE = 1 := by decide +kernel
theorem test_sram_areas : (after (.sramUncorrectable (.lane 0 0 5) true 3 false 9) (jobbing 6 (some 7))).rd ERR_LAST_UNIT = 1
    ∧ (after (.sramUncorrectable (.lane 0 0 5) true 3 false 9) (jobbing 6 none)).rd ERR_CNT_T_COUNT = 0
    ∧ (after (.sramUncorrectable (.oce 5) true 3 false 9) (jobbing 4 none)).rd ERR_LAST_UNIT = 2
    ∧ (after (.sramUncorrectable (.oce 5) true 3 false 9) (jobbing 3 none)).rd ERR_CNT_T_COUNT = 0
    ∧ (after (.sramUncorrectable (.fir 5 none) true 3 false 9) (jobbing 2 none)).rd ERR_LAST_UNIT = 13
    ∧ (after (.sramUncorrectable (.input 5 0 0) true 3 false 9) (jobbing 2 none)).rd SEQ_STATUS_MISS = 1
    ∧ (after (.sramUncorrectable (.input 6 0 0) true 3 false 9) (jobbing 2 none)).rd ERR_CNT_T_COUNT = 0
    ∧ ((after (.sramUncorrectable (.snapshot 5) true 3 true 9) (jobbing 2 none)).cyc? 5).map (·.run.snapOk) = some false := by decide +kernel
/-- An injection of mechanism `m` waits on a unit. -/
def armed (m unit index : Nat) (s : State) : State := { s with err := { s.err with inj := some (m, unit, index) } }
theorem test_injections : (after (.loopUpdate 0 5 5 0 0 0 0 5) (armed 4 4 0 (tracking true 9 1))).gch 0 = chIdle 0
    ∧ ((after (.loopUpdate 0 5 5 0 0 0 0 5) (armed 3 4 0 (tracking true 9 1))).gch 0).prompts = [(5, 5)]
    ∧ (after (.loopUpdate 0 5 5 0 0 0 0 5) (armed 3 4 0 (tracking true 9 1))).rd ERR_CNT_C_COUNT = 1
    ∧ (after (.loopUpdate 0 5 5 0 0 0 0 5) (armed 3 5 0 (tracking true 9 1))).err.inj = some (3, 5, 0) := by decide +kernel

/-! O46 ErrorCommandsAndRestart -/

theorem test_err_commands : (after (.forceS .pcie 5) (readyWith [])).rd ERR_STATUS_FAIL_SILENT = 1
    ∧ (after (.clrCnt .pcie 5) (readyWith [(ERR_CNT_C_COUNT, 7)])).rd ERR_CNT_C_COUNT = 0
    ∧ (after (.errInjArm .pcie 0x02030100 5) (readyWith [(SEC_POLICY_FLAGS, 8)])).rd ERR_INJ_UNIT = 3
    ∧ (after (.errInjArm .pcie 0x02030100 5) (readyWith [(SEC_POLICY_FLAGS, 0)])).rd ERR_INJ_UNIT = 0
    ∧ (after (.errInjArm .pcie 0x02080100 5) (readyWith [(SEC_POLICY_FLAGS, 8)])).rd ERR_INJ_UNIT = 0
    ∧ (after (.jnlRdDataRead .pcie 5) (readyWith [(JNL_RD_ADDR_WORD, 16383)])).rd JNL_RD_ADDR_WORD = 0 := by decide +kernel
theorem test_mirror_and_mower :
    (after (.journalMirrorCopy true 5) { withRegs [(JNL_STATUS_NAND_OK, 1)] with jnl := { State.reset.jnl with ring := [(3, recOf 5 5)] } }).rd JNL_MIRROR_CYC = 5
    ∧ (after (.journalMirrorCopy false 5) { withRegs [(JNL_STATUS_NAND_OK, 1)] with jnl := { State.reset.jnl with ring := [(3, recOf 5 5)] } }).jnl.nand = []
    ∧ (after (.journalMirrorCopy true 5) { withRegs [(JNL_STATUS_NAND_OK, 0)] with jnl := { State.reset.jnl with ring := [(3, recOf 5 5)] } }).jnl.nand = []
    ∧ (after (.mowerPassStart 500000000) State.reset).rcd.mowerAt = some 500000000
    ∧ (after (.mowerPassStart 1000000000) (after (.mowerPassStart 500000000) State.reset)).rd BKG_STATUS_MOWER_LATE = 1
    ∧ (after (.mowerPassEnd 2 501000000) (after (.mowerPassStart 500000000) State.reset)).rd BKG_MOWER_PASS_MS = 4
    ∧ (after (.mowerPassStart 1000000) (after (.mowerPassEnd 2 501000000) (after (.mowerPassStart 500000000) State.reset))).rcd.mowerAt = none
    ∧ (after (.mowerPassEnd 2 1000001000) (after (.mowerPassStart 1000000000) (after (.mowerPassStart 500000000) State.reset))).rcd.mowerAt = some 1000001000
    ∧ (after (.mowerPassEnd 2 501000000) State.reset).rd BKG_MOWER_PASSES = 0
    ∧ (after (.restartResume 5) { withRegs [(IMG_STATUS_STATE, 2)] with seq := { State.reset.seq with resumeDue := true } }).seq.restartFail = true
    ∧ (after (.restartResume 5) (withRegs [(IMG_STATUS_STATE, 2)])).seq.restartFail = false := by decide +kernel

/-! O47 EncoderChannels -/

/-- Channel 0 absolute with relay, MONO 10 µs, 8-bit words, in RUNNING; cycle 5 is in flight. -/
def channel (c : ChanSt) : State :=
  withCycs [cycAt 5 1] { withRegs [(SEQ_STATUS_STATE, 2), (FLD_STATUS_CHANNELS, 1), (FLD_POS_CFG_RELAY 0, 1), (FLD_POS_CFG_WORD_LEN 0, 8), (FLD_POS_CFG_POS_BITS 0, 8),
    (FLD_POS_TIM_DIV 0, 1), (FLD_POS_TIM_MONO 0, 10), (FLD_POS_DLY_ERR_BIT 0, 32)] with fld := { State.reset.fld with ch := [c] } }
theorem test_encoder : sampleDue (channel chanZero) 0 5 0 = some 0
    ∧ ((after (.encSample 0 5 0 7) (channel chanZero)).chan 0).owns = true
    ∧ ((after (.encSample 0 6 0 7) (channel chanZero)).chan 0).owns = false
    ∧ ((after (.encSample 0 5 0 7) (channel { chanZero with relay := some ⟨3, none⟩ })).chan 0).owns = false
    ∧ ((after (.encSample 0 5 0 7) (channel { chanZero with relay := some ⟨3, none⟩ })).chan 0).xfer = some ⟨5, 0, 3, true⟩
    ∧ ((after (.encSample 0 5 0 7) (channel { chanZero with relay := some ⟨3, some ⟨true, 5, true⟩⟩ })).chan 0).prevOk = true
    ∧ ((after (.encSample 0 5 0 7) ((channel chanZero).wr (FLD_POS_CFG_MODE 0) 1)).chan 0).base = some (5, 0, 1)
    ∧ ((after (.encSample 0 5 0 7) ((channel chanZero).wr ERR_FENCE_POS_UNIT 1)).chan 0).xfer = none := by decide +kernel
theorem test_encoder_ends : ((after (.encTransferEnd 0 ⟨true, 5, true⟩ 7) (channel { chanZero with xfer := some ⟨5, 0, 3, false⟩ })).chan 0).prevOk = true
    ∧ (after (.encTransferEnd 0 ⟨false, 5, true⟩ 7) (channel { chanZero with xfer := some ⟨5, 0, 3, false⟩ })).rd (FLD_POS_CNT_BAD_WORDS 0) = 1
    ∧ (after (.encTransferEnd 0 ⟨false, 5, true⟩ 7) (channel chanZero)).rd (FLD_POS_CNT_BAD_WORDS 0) = 0
    ∧ (channel chanZero).flag RED_STATUS_PAIRED = false
    ∧ ((after (.monoflopEnd 0 7) (channel { chanZero with owns := true })).chan 0).owns = false
    ∧ ((after (.monoflopEnd 0 7) (channel { chanZero with relay := some ⟨3, none⟩ })).chan 0).relay = none := by decide +kernel
theorem test_relay : (after (.relayTransfer 0 none 7) (channel { chanZero with owns := true })).rd (FLD_POS_CNT_RELAY_CNT 0) = 1
    ∧ ((after (.relayTransfer 0 none 2499) (channel chanZero)).chan 0).relay = none
    ∧ ((after (.relayTransfer 0 none 2500) (channel chanZero)).chan 0).relay = some ⟨655360000, none⟩
    ∧ ((after (.relayTransfer 0 (some ⟨true, 5, true⟩) 7) (channel { chanZero with relay := some ⟨3, none⟩ })).chan 0).relay = some ⟨3, some ⟨true, 5, true⟩⟩
    ∧ ((after (.relayTransfer 0 (some ⟨true, 5, true⟩) 7) (channel { chanZero with relay := some ⟨3, none⟩, xfer := some ⟨5, 0, 3, true⟩ })).chan 0).xfer = none
    ∧ ((after (.relayTransfer 0 (some ⟨true, 5, true⟩) 7) (channel chanZero)).chan 0).relay = none
    ∧ ((after (.relayTransfer 0 none 7) (channel { chanZero with relay := some ⟨3, none⟩ })).chan 0).relay = some ⟨3, none⟩ := by decide +kernel
theorem test_relay_abort :
    (after (.relayAbort 0 7) (channel { chanZero with relay := some ⟨3, none⟩, xfer := some ⟨5, 0, 3, true⟩ })).rd FLD_COND_LAST_CODE = 0x0906
    ∧ ((after (.relayAbort 0 7) (channel { chanZero with relay := some ⟨3, none⟩ })).chan 0).relay = none
    ∧ ((after (.relayAbort 0 7) (channel { chanZero with relay := some ⟨3, some ⟨true, 5, true⟩⟩ })).chan 0).relay.isSome = true := by decide +kernel

/-! O48 QuadratureAndPins -/

/-- Channel 0 in quadrature, in RUNNING. -/
def quadrature (l : List (Fld × Nat)) (c : ChanSt) : State :=
  { withRegs ([(SEQ_STATUS_STATE, 2), (FLD_STATUS_CHANNELS, 1), (FLD_POS_CFG_MODE 0, 1)] ++ l) with fld := { State.reset.fld with ch := [c] } }
theorem test_quadrature : ((after (.quadEdge 0 true false 7) (quadrature [] chanZero)).chan 0).count = 1
    ∧ ((after (.quadEdge 0 false true 7) (quadrature [] chanZero)).chan 0).count = 2 ^ 32 - 1
    ∧ ((after (.quadEdge 0 true true 7) (quadrature [] { chanZero with a := true })).chan 0).count = 1
    ∧ (after (.quadEdge 0 true true 7) (quadrature [] chanZero)).rd (FLD_POS_CNT_ILLEGAL 0) = 1
    ∧ ((after (.quadEdge 0 false false 7) (quadrature [] chanZero)).chan 0).count = 0
    ∧ ((after (.quadZEdge 0 7) (quadrature [(FLD_POS_CFG_ZCLR 0, 1)] { chanZero with count := 9 })).chan 0).count = 0
    ∧ (after (.quadZEdge 0 7) (quadrature [(FLD_POS_CFG_ZCLR 0, 0)] { chanZero with count := 9 })).rd (FLD_POS_ZCOUNT_ZCOUNT 0) = 9 := by decide +kernel
theorem test_quadrature_off : ((after (.quadEdge 0 true false 7) ((quadrature [] chanZero).wr ERR_FENCE_POS_UNIT 1)).chan 0).a = true
    ∧ ((after (.quadEdge 0 true false 7) ((quadrature [] chanZero).wr ERR_FENCE_POS_UNIT 1)).chan 0).count = 0
    ∧ ((after (.quadEdge 1 true false 7) (quadrature [] chanZero)).chan 0) = chanZero
    ∧ (after (.quadZEdge 1 7) (quadrature [] chanZero)).rd (FLD_POS_ZCOUNT_ZCOUNT 1) = 0
    ∧ (after (.quadEdge 0 true true 7) (quadrature [] { chanZero with illRun := true })).rd FLD_COND_LAST_CODE = 0 := by decide +kernel
theorem test_pins : (after (.pinLevelAccept 33 true 7) (withRegs [(FLD_PIN_CFG_FUNC 33, 9)])).rd (FLD_LVL_LEVEL 1) = 2
    ∧ (after (.pinLevelAccept 33 true 7) (withRegs [(FLD_PIN_CFG_FUNC 33, 9), (FLD_PIN_CFG_INV 33, 1)])).rd (FLD_LVL_LEVEL 1) = 0
    ∧ (after (.pinLevelAccept 33 true 7) (withRegs [(FLD_PIN_CFG_FUNC 33, 0)])).rd (FLD_LVL_LEVEL 1) = 0
    ∧ (after (.pwmPeriodStart 3 7) { State.reset with fld := { State.reset.fld with parked := false, pwm := [⟨3, 5, 6⟩] } }).fld.pwm = [⟨3, 5, 5⟩]
    ∧ (after (.pwmPeriodStart 3 7) { State.reset with fld := { State.reset.fld with parked := true, pwm := [⟨3, 5, 6⟩] } }).fld.pwm = [⟨3, 5, 6⟩] := by
  decide +kernel

/-! O49 SafetyInputsAndPulses -/

/-- A configuration: an ESTOP with AUTO on pair 0 (T_DISC 1 ms, category 1 of 1 ms), tested from STP0 and STP1, gating output 0; reset ball 4. -/
def estop : List Byte :=
  octets 48 [(0, 1), (1, 3), (6, 0x84), (7, 1), (8, 1), (32, 1), (33, 1), (34, 0), (35, 255), (38, 1), (42, 1), (44, 1), (45, 2)]
/-- The evaluator configured so, its function in a state. -/
def evaluating (st acc : Nat) : State :=
  { State.reset with saf := { SafSt.reset with conf := some estop, acc := acc, fns := [{ fnZero with state := st }] } }
theorem test_safe_inputs : (after (.safeInputAccept 0 true 7) (evaluating 0 0)).saf.acc = 1
    ∧ ((after (.safeInputAccept 0 true 7) (evaluating 0 0)).fn 0).disc = [some 7, none]
    ∧ (after (.safeInputAccept 1 true 7) (evaluating 0 1)).fn 0 = { fnZero with perm := [some 7, none] }
    ∧ (after (.safeInputAccept 4 true 7) (evaluating 0 0)).saf.press = some 7
    ∧ ((after (.safeInputAccept 4 false 2400007) (after (.safeInputAccept 4 true 7) (evaluating 1 3))).fn 0).state = 2
    ∧ ((after (.safeInputAccept 4 false 2400006) (after (.safeInputAccept 4 true 7) (evaluating 1 3))).fn 0).state = 1
    ∧ ((after (.resetPressEnd 2400007) (after (.safeInputAccept 4 true 7) (evaluating 1 3))).fn 0).state = 2
    ∧ (after (.safeInputAccept 3 true 7) (evaluating 0 0)).saf.acc = 0
    ∧ (after (.resetStuck 144000007) (after (.safeInputAccept 4 true 7) (evaluating 0 0))).saf.queue = [⟨0x0A0A, 0, 0⟩]
    ∧ (after (.resetStuck 144000006) (after (.safeInputAccept 4 true 7) (evaluating 0 0))).saf.queue = [] := by decide +kernel
theorem test_safe_pulses :
    ((after (.testPulseEnd 0 0 2407) (after (.testPulseStart 0 1 7) (evaluating 2 3))).fn 0).state = 2
    ∧ ((after (.testPulseEnd 0 0 2407) (after (.testPulseStart 0 1 7) { evaluating 2 3 with saf := { (evaluating 2 3).saf with miss := [1] } })).fn 0).why = 2
    ∧ ((after (.testPulseEnd 0 3 2407) (after (.testPulseStart 0 3 7) (evaluating 2 3))).fn 0).why = 3
    ∧ ((after (.testPulseEnd 0 1 2407) (after (.testPulseStart 0 3 7) (evaluating 2 3))).fn 0).state = 2 := by decide +kernel
theorem test_safe_timers :
    ((after (.discrepancyTimeout 0 48008) (after (.safeInputAccept 0 true 7) (evaluating 0 0))).fn 0).why = 1
    ∧ ((after (.discrepancyTimeout 0 48007) (after (.safeInputAccept 0 true 7) (evaluating 0 0))).fn 0).state = 0
    ∧ ((after (.stop1Expired 0 48000) (evaluating 3 0)).fn 0).state = 0
    ∧ ((after (.stop1Expired 0 47999) (evaluating 3 0)).fn 0).state = 3
    ∧ (after (.readbackFault 0 7) { evaluating 2 3 with saf := { (evaluating 2 3).saf with wrong := [3] } }).saf.rbFault = 1
    ∧ (after (.readbackFault 0 7) { evaluating 2 3 with saf := { (evaluating 2 3).saf with wrong := [2] } }).saf.rbFault = 0
    ∧ (after (.darkPulse 0 false false 7) { evaluating 2 3 with saf := { (evaluating 2 3).saf with cmd := 3 } }).saf.rbFault = 1
    ∧ (after (.darkPulse 0 false true 7) { evaluating 2 3 with saf := { (evaluating 2 3).saf with cmd := 3 } }).saf.darkSide = 1 := by decide +kernel
/-- A two-hand function on pairs 0 and 1, one hand permissive since clock 7. -/
def oneHand : State :=
  { State.reset with saf := { SafSt.reset with conf := some (octets 48 [(0, 1), (32, 3), (34, 0), (35, 1)]),
                                               fns := [{ fnZero with state := 0, rested := true, perm := [some 7, none] }] } }
theorem test_safe_conditions : pulseDue (evaluating 2 3) 0 9 = true ∧ pulseDue (evaluating 2 3) 2 9 = true
    ∧ (after (.testPulseEnd 0 0 2000) (after (.testPulseStart 0 1 7) (evaluating 2 3))).saf.stp = 0
    ∧ (after (.darkPulse 0 true true 8) (after (.darkPulse 0 false true 7) { evaluating 2 3 with saf := { (evaluating 2 3).saf with cmd := 3 } })).saf.darkSide = 1
    ∧ after (.resetPressEnd 7) State.reset = safAt State.reset 7 := by decide +kernel
theorem test_two_hands : (after (.twoHandSyncTimeout 0 24000008) oneHand).saf.queue = [⟨0x0A08, 0, 0⟩]
    ∧ (after (.twoHandSyncTimeout 0 24000007) oneHand).saf.queue = [] := by decide +kernel

/-! O50 SafetyTickAndInternalFault -/

theorem test_safe_tick : (after (.safeTick 3 0 true true 12000) (evaluating 2 3)).saf.cmd = 3
    ∧ (after (.safeTick 3 0 true true 12000) (evaluating 2 3)).rd SAF_STATUS_OUT_ON = 1
    ∧ (after (.safeTick 3 0 true true 12000) (evaluating 2 1)).rd (SAF_FN_STS_STATE 0) = 3
    ∧ (after (.safeTick 3 0 false true 12000) (evaluating 2 3)).rd SAF_STATUS_INTERNAL = 1
    ∧ (after (.safeTick 3 0 false true 12000) (evaluating 2 3)).saf.cmd = 0
    ∧ (after (.safeTick 0x8000 5 true true 12000) State.reset).rd SAF_IN_RAW = 0x8000 := by decide +kernel
theorem test_safe_rest : clkDue (some 5) 12000 12004 = false ∧ (after (.safeTick 3 0 true true 12004) { evaluating 2 3 with saf := { (evaluating 2 3).saf with tickAt := some 5 } }).saf.tick = 0
    ∧ (after (.safeTick 3 0 true false 12005) { State.reset with saf := { SafSt.reset with tickAt := some 5 } }).saf.internal = true
    ∧ asleep (State.reset.wr RST_PWR_STS_STATE 5) = true ∧ asleep State.reset = false
    ∧ outOn (evaluating 2 3) 0 = true ∧ outOn (evaluating 1 3) 0 = false := by decide +kernel
theorem test_safe_internal : (after (.safeClockCheck 2559 1 7) (evaluating 2 3)).saf.internal = true
    ∧ (after (.safeClockCheck 2560 1 7) (evaluating 2 3)).saf.internal = false
    ∧ (after (.safeClockCheck 3380 1 7) (evaluating 2 3)).saf.internal = false
    ∧ ((after (.safeClockCheck 3381 1 7) (evaluating 2 3)).fn 0).why = 6
    ∧ ((after (.frcStopWatchdog 7) (evaluating 2 3)).fn 0).state = 4
    ∧ (after (.safeEventDrain 7) { State.reset with saf := { SafSt.reset with queue := [⟨0x0A04, 3, 9⟩] } }).rd SAF_COND_LAST_CODE = 0x0A04 := by decide +kernel

/-! O51 EthernetLinksAndFrames -/

/-- Port 1 of a structure whose NET section gives it the MAC address 02-07-00-00-00-01, its link up. -/
def wired (x : PortSt) (l : List (Fld × Nat)) : State :=
  let s := withRegs ([(IMG_STATUS_STATE, 2), (SEQ_STATUS_STATE, 2), (NET_STATUS_LINK 1, 1), (NET_STATUS_SPEED 1, 2)] ++ l)
  { s with img := { s.img with secs := [⟨11, 1, octets 200 [(0, 2), (1, 7), (5, 1)]⟩] }, net := { s.net with ports := [portZero, x] } }
theorem test_eth_runs : onPrimary (wired portZero []) 7 = true ∧ netOn (wired portZero []) 1 = true ∧ initRuns (wired portZero []) 1 = false
    ∧ netTry ((wired { portZero with q := [[⟨[7], none, none, none, false, none⟩]] } []).wr ERR_STATUS_FAIL_SILENT 1) 1
      = (wired { portZero with q := [[⟨[7], none, none, none, false, none⟩]] } []).wr ERR_STATUS_FAIL_SILENT 1 := by decide +kernel
theorem test_eth_links : (after (.ethLinkUp 1 1000 true 5) (wired portZero [(NET_STATUS_LINK 1, 0), (NET_STATUS_SPEED 1, 0)])).rd (NET_STATUS_SPEED 1) = 2
    ∧ (after (.ethLinkUp 1 10 true 5) (wired portZero [(NET_STATUS_LINK 1, 0)])).rd (NET_STATUS_LINK 1) = 0
    ∧ (after (.ethLinkDown 1 false 5) (wired { portZero with wire := some ⟨[], none, none, none, false, none⟩ } [])).rd (NET_STATUS_LINK 1) = 0
    ∧ (after (.ethLinkDown 1 false 5) (wired { portZero with wire := some ⟨[], none, none, none, false, none⟩ } [])).rd (NET_CNT_COUNT 1 6) = 1 := by
  decide +kernel
theorem test_eth_frames : (after (.ethFrameRx 1 (octets 59 [(0, 0xFF)]) true false 5 5) (wired portZero [])).rd (NET_CNT_COUNT 1 1) = 1
    ∧ (after (.ethFrameRx 1 (octets 60 [(0, 2)]) true false 5 5) (wired portZero [])).rd (NET_CNT_COUNT 1 2) = 1
    ∧ (after (.ethFrameRx 1 (octets 60 [(0, 2), (1, 7), (5, 1)]) true false 5 5) (wired portZero [])).rd (NET_CNT_COUNT 1 3) = 1
    ∧ (after (.ethFrameRx 1 (octets 60 [(0, 2), (1, 7), (5, 1)]) true true 5 5) (wired portZero [])).rd (NET_CNT_COUNT 1 4) = 1
    ∧ (after (.ethFrameRx 1 (octets 60 [(0, 1), (12, 0x88), (13, 0xF7)]) true false 5 5) (wired portZero [(NET_STATUS_TIME_PORT 1, 1)])).rd (NET_CNT_COUNT 1 0) = 1 := by
  decide +kernel
theorem test_eth_transmit :
    ((after (.ethLaunch 1 5) (wired { portZero with q := [[⟨[7], some 5, none, none, false, none⟩]] } [])).port 1).wire = some ⟨[7], some 5, none, none, false, none⟩
    ∧ ((after (.ethLaunch 1 4) (wired { portZero with q := [[⟨[7], some 5, none, none, false, none⟩]] } [])).port 1).wire = none
    ∧ (after (.ethTxComplete 1 77 5) (wired { portZero with wire := some ⟨[7], none, some 3, none, false, none⟩ } [])).rd (NET_FDEF_STS_FRAMES 1 3) = 1
    ∧ (after (.ethTxComplete 1 77 5) { wired { portZero with wire := some ⟨[7], none, none, none, false, some 4⟩ } [] with
        tim := { TimSt.reset with ptp := { TimSt.reset.ptp with dreq := some ⟨4, 0, none⟩ } } }).tim.ptp.dreq = some ⟨4, 0, some (380 * 65536)⟩ := by decide +kernel

/-! O52 MdioFramesAreRun -/

theorem test_mdio_init : (after (.mdioDone 0x54 false 6) { readyWith [] with net := { (readyWith []).net with mdio := [⟨false, 1, false, 2, 3, 4, 0, some 0x55⟩] } }).rd (NET_COND_LAST_CODE 1) = 0x0709
    ∧ (after (.mdioDone 0x55 false 6) { readyWith [] with net := { (readyWith []).net with mdio := [⟨false, 1, false, 2, 3, 4, 0, some 0x55⟩] } }).rd (NET_COND_LAST_CODE 1) = 0
    ∧ (after (.mdioDone 0x55 true 6) { readyWith [] with net := { (readyWith []).net with mdio := [⟨false, 1, false, 2, 3, 4, 0, some 0x55⟩] } }).rd (NET_COND_LAST_CODE 1) = 0x0708 := by decide +kernel
theorem test_mdio : (readyWith []).lets .pcie 0x214000 ∧ (readyWith []).lets .pcie 0x214004
    ∧ (after (.mdioWrite .pcie true 3 4 0x55 5) (readyWith [])).sent = [.mdio true 1 3 4 0x55]
    ∧ (after (.mdioAddress .pcie 3 4 0x55 5) (readyWith [])).sent = [.mdio true 0 3 4 0x55]
    ∧ (after (.mdioRead .pcie false 3 4 5) (readyWith [])).rd NET_MDIO_CMD_GO_BUSY = 1
    ∧ (after (.mdioDone 0x99 false 6) (after (.mdioRead .pcie false 3 4 5) (readyWith []))).rd NET_MDIO_DATA_DATA = 0x99
    ∧ (after (.mdioDone 0x99 true 6) (after (.mdioRead .pcie false 3 4 5) (readyWith []))).rd NET_MDIO_CMD_NORESP = 1
    ∧ (after (.mdioDone 0x99 false 6) (after (.mdioRead .pcie false 3 4 5) (readyWith []))).rd NET_MDIO_CMD_GO_BUSY = 0 := by decide +kernel

/-! O53 CanBusEvents -/

/-- Controller 1 in a state, with its counts. -/
def canIn (st tec rec_ : Nat) (l : List (Fld × Nat)) : State :=
  withRegs ([(CAN_STATUS_STATE 1, st), (CAN_STATUS_TEC 1, tec), (CAN_STATUS_REC 1, rec_)] ++ l)
theorem test_can_events : (after (.canFrameRx 1 5 0 false true [] 5 5) (canIn 2 0 7 [])).rd (CAN_CNT_REMOTE_CNT 1) = 1
    ∧ (after (.canFrameRx 1 5 0 false false [] 5 5) (canIn 2 0 7 [])).rd (CAN_STATUS_REC 1) = 6
    ∧ (after (.canFrameRx 1 5 0 false false [] 5 5) (canIn 4 0 7 [])).rd (CAN_STATUS_REC 1) = 7
    ∧ (after (.canIntegrated 1 5) (canIn 1 128 0 [])).rd (CAN_STATUS_STATE 1) = 3
    ∧ (after (.canIntegrated 1 5) (canIn 1 127 127 [])).rd (CAN_STATUS_STATE 1) = 2
    ∧ (after (.canError 1 2 false (some 33) false 5) (canIn 2 120 0 [])).rd (CAN_STATUS_STATE 1) = 3
    ∧ (after (.canError 1 2 false (some 33) false 5) (canIn 3 248 0 [])).rd (CAN_STATUS_STATE 1) = 4
    ∧ (after (.canError 1 2 false (some 33) false 5) (canIn 3 247 0 [])).rd (CAN_STATUS_TEC 1) = 255
    ∧ (after (.canError 1 3 false (some 33) false 5) (canIn 3 248 0 [])).rd (CAN_STATUS_TEC 1) = 248
    ∧ (after (.canError 1 2 false none true 5) (canIn 2 0 5 [])).rd (CAN_STATUS_REC 1) = 13 := by decide +kernel
theorem test_can_attempts : ((after (.canError 1 2 false (some 0) false 5) { canIn 2 0 0 [(SEQ_STATUS_STATE, 2)] with can := [canZero, { canZero with bufs := [⟨none, none, true, true, 0, 0⟩] }] }).txb 1 0).pend = false
    ∧ ((after (.canError 1 2 false (some 0) false 5) { canIn 2 0 0 [(SEQ_STATUS_STATE, 2)] with can := [canZero, { canZero with bufs := [⟨none, none, true, false, 0, 0⟩] }] }).txb 1 0).pend = true
    ∧ ((after (.canError 1 2 false (some 0) false 5) { canIn 0 0 0 [(SEQ_STATUS_STATE, 2)] with can := [canZero, { canZero with bufs := [⟨none, none, true, false, 0, 0⟩] }] }).txb 1 0).pend = false
    ∧ (after (.canError 1 3 false (some 32) false 5) { canIn 2 0 0 [] with can := [canZero, { canZero with probe := ⟨false, true, some 50, false, false, 0⟩ }] }).rd (CAN_COND_LAST_CODE 1) = 0x0805
    ∧ (after (.canError 1 0 false (some 32) false 5) (canIn 2 7 0 [])).rd (CAN_STATUS_TEC 1) = 7
    ∧ (after (.canIntegrated 1 5) (canIn 2 0 0 [])).rd (CAN_STATUS_STATE 1) = 2 := by decide +kernel
theorem test_can_recovery : (after (.canBusoffRecovered 1 5) (canIn 4 255 0 [])).rd (CAN_STATUS_STATE 1) = 1
    ∧ (after (.canBusoffRecovered 1 5) (canIn 3 200 0 [])).rd (CAN_STATUS_STATE 1) = 3
    ∧ (after (.canProtocolException 1 5) (canIn 2 0 0 [(CAN_CFG_PEX_EN 1, 1)])).rd (CAN_STATUS_STATE 1) = 1
    ∧ (after (.canProtocolException 1 5) (canIn 2 0 0 [(CAN_CFG_PEX_EN 1, 0)])).rd (CAN_STATUS_STATE 1) = 2
    ∧ (after (.canProbeTimeout 1 50) { canIn 2 0 0 [] with can := [canZero, { canZero with probe := ⟨false, false, some 50, false, false, 0⟩ }] }).rd (CAN_STATUS_MSGSET 1) = 1
    ∧ (after (.canProbeTimeout 1 49) { canIn 2 0 0 [] with can := [canZero, { canZero with probe := ⟨false, false, some 50, false, false, 0⟩ }] }).rd (CAN_STATUS_MSGSET 1) = 0 := by
  decide +kernel

/-! O54 CanTransmitBuffersAndQueues -/

/-- Controller 1 error active, its buffers 0 (a host buffer) and 1 (a cycle buffer) as given. -/
def canBufs (x y : TxBufSt) : State :=
  { readyWith [(SEQ_STATUS_STATE, 2), (CAN_STATUS_STATE 1, 2), (CAN_STATUS_TEC 1, 5), (CAN_TXB_STS_KIND 1 0, 2), (CAN_TXB_STS_KIND 1 1, 1), (CAN_TXB_HDR_ID 1 0, 0x123),
    (CAN_TXB_STS_DLC 1 0, 1), (CAN_TXB_DATA_DATA 1 0 0, 0x77)] with
    can := [canZero, { canZero with
      bufs := [x, y], probe := ⟨false, false, none, true, false, 0⟩, rxq := [[⟨1, 2, 3, []⟩, ⟨4, 5, 6, []⟩], []], hpb := some ⟨1, 2, 3, []⟩ }] }
/-- A buffer that is idle, and one that is pending. -/
def idleBuf : TxBufSt := ⟨none, none, false, false, 0, 0⟩
def pendBuf : TxBufSt := ⟨none, none, true, false, 0, 0⟩
theorem test_can_transmit : (after (.canTxLaunch 1 1 9) (canBufs idleBuf ⟨some 9, none, false, false, 0, 0⟩)).rd (CAN_TX_PEND_BUF 1) = 2
    ∧ (after (.canTxLaunch 1 1 8) (canBufs idleBuf ⟨some 9, none, false, false, 0, 0⟩)).rd (CAN_TX_PEND_BUF 1) = 0
    ∧ (after (.canTxDone 1 0 5 0 9) (canBufs pendBuf idleBuf)).sent = [.can 1 0x123 [0x77]]
    ∧ (after (.canTxDone 1 0 5 0 9) (canBufs pendBuf idleBuf)).rd (CAN_STATUS_TEC 1) = 4
    ∧ (after (.canTxDone 1 0 5 0 9) (canBufs pendBuf idleBuf)).rd (CAN_TXB_STS_STATUS 1 0) = 2 := by decide +kernel
theorem test_can_probe : (after (.canTxDone 1 32 5 0 9) { canBufs idleBuf idleBuf with can := [canZero, { canZero with probe := ⟨false, true, some 7, false, false, 0⟩ }] }).sent = [.can 1 0 [1, 1]]
    ∧ ((after (.canTxDone 1 33 5 0 9) { canBufs idleBuf idleBuf with can := [canZero, { canZero with probe := ⟨false, false, none, true, true, 0⟩ }] }).canOf 1).probe.reply = false
    ∧ after (.canTxDone 1 34 5 0 0) (canBufs pendBuf idleBuf) = canBufs pendBuf idleBuf
    ∧ ((after (.canTxDone 1 1 5 0 9) (canBufs idleBuf ⟨none, some ([0x44], 5, 99), true, true, 0, 5⟩)).txb 1 1).target = some 99
    ∧ (after (.canTxDone 1 0 5 0 9) (canBufs ⟨none, none, true, true, 0, 0⟩ idleBuf)).rd (CAN_TXB_STS_CANCEL_LATE 1 0) = 1 := by decide +kernel
theorem test_can_requests : (canBufs idleBuf idleBuf).lets .pcie 0x221020
    ∧ (after (.canTxReq .pcie 1 3 9) (canBufs idleBuf idleBuf)).rd (CAN_TX_PEND_BUF 1) = 1
    ∧ (after (.canTxCancel .pcie 1 1 none 9) (canBufs pendBuf idleBuf)).rd (CAN_TXB_STS_STATUS 1 0) = 3
    ∧ ((after (.canTxCancel .pcie 1 1 (some 0) 9) (canBufs pendBuf idleBuf)).txb 1 0).cancel = true
    ∧ (after (.canRxqPop .pcie 1 0 9) (canBufs idleBuf idleBuf)).rd (CAN_RXQ_STS_FILL 1 0) = 1
    ∧ ((after (.canHpbPop .pcie 1 9) (canBufs idleBuf idleBuf)).canOf 1).hpb = none := by decide +kernel

/-! O55 PairRequestsAndAgreement -/

/-- A pair member whose partner takes part and sends, in a role and a state of synchronisation. -/
def partnered (role sync : Nat) : State :=
  { readyWith [(RED_STATUS_ROLE, role), (RED_STATUS_SYNC, sync), (RED_STATUS_PAIRED, 1), (RED_STATUS_PARTNER_OK, 1)] with
    red := { RedSt.reset with pSends := true } }
theorem test_red_requests : (partnered 3 3).lets .pcie 0x270004
    ∧ (after (.redPromote .pcie 5) (partnered 3 3)).red.promote = true
    ∧ (after (.redPromote .pcie 5) (partnered 3 2)).rd RED_COND_LAST_CODE = 0x0D0E
    ∧ (after (.redStandDown .pcie 5) (partnered 2 3)).red.standDown = true
    ∧ (after (.redStandDown .pcie 5) (partnered 3 3)).red.standDown = false
    ∧ (after (.redResync .pcie 5) { partnered 3 0 with red := { RedSt.reset with gaveUp := true } }).red.gaveUp = false
    ∧ (after (.clrFeed .pcie 5) (readyWith [(RED_FEED_CNT_A_LOSS, 7)])).rd RED_FEED_CNT_A_LOSS = 0 := by decide +kernel
theorem test_agreement : ((after (.agreeDeadline 5 100) (withCycs [cycAt 5 3] State.reset)).cyc? 5).map (·.run.agreed) = some true
    ∧ (after (.resyncCopyDone 9) (resyncing)).rd RED_STATUS_SYNC = 2
    ∧ (after (.resyncCopyDone 9) { resyncing with red := RedSt.reset }).rd RED_STATUS_SYNC = 1 := by decide +kernel
theorem test_gasp : (after (.feedWarning 0 true 5) (withRegs [(RED_FEED_B_WARN, 1)])).jnl.nand = []
    ∧ (after (.feedWarning 0 true 5) (withRegs [(RED_FEED_B_WARN, 1)])).rd RED_FEED_CNT_LAST_GASP = 1
    ∧ (after (.feedLoss 0 true 5) State.reset).red.down = 1
    ∧ (after (.feedRestored 0 5) { State.reset with red := { RedSt.reset with down := 1 } }).rd RED_COND_LAST_CODE = 0x0D17
    ∧ (after (.feedRestored 0 5) { State.reset with red := { RedSt.reset with down := 2 } }).rd RED_COND_LAST_CODE = 0
    ∧ (after (.feedLoss 2 true 5) State.reset).red.down = 0 := by decide +kernel
theorem test_feeds : (after (.vaonLoss 1 true 5) State.reset).rd RED_FEED_VAON_B_OK = 0
    ∧ (after (.vaonLoss 1 false 5) (withRegs [(RED_FEED_VAON_B_OK, 0)])).rd RED_FEED_VAON_B_OK = 1
    ∧ (after (.feedLoss 0 true 5) (withRegs [(RED_FEED_FEEDSEL_A, 1)])).rd RED_FEED_FEEDSEL_A = 0
    ∧ (after (.feedLoss 0 true 5) (withRegs [(RED_FEED_FEEDSEL_A, 1), (RED_FEED_B_LOST, 1)])).rd RED_FEED_FEEDSEL_A = 1
    ∧ ((after (.feedWarning 0 true 5) (withRegs [(RED_FEED_B_WARN, 1), (JNL_STATUS_NAND_OK, 1)])).jnl.nand.map (·.status)) = [5]
    ∧ (after (.feedRestored 0 5) (withRegs [(RED_FEED_FEEDSEL_A, 0)])).rd RED_FEED_FEEDSEL_A = 1
    ∧ (after (.feedRestored 0 5) (withRegs [(RED_FEED_FEEDSEL_A, 0), (RED_FEED_A_WARN, 1)])).rd RED_FEED_FEEDSEL_A = 0 := by decide +kernel

/-! O56 ReserveSessionsAndActivation -/

theorem test_reserve : (after (.reserveWakeTimer 5) { State.reset with clk := { State.reset.clk with off := some 3 }, red := { RedSt.reset with wakeI := 9 } }).clk.wake = 2
    ∧ (after (.reserveWakeTimer 5) { State.reset with clk := { State.reset.clk with off := some 3 } }).clk.wake = 0
    ∧ (after (.reserveWakeTimer 5) { withRegs [(RED_MIRROR_CFG_MIRROR_I, 4)] with clk := { State.reset.clk with off := none }, red := { RedSt.reset with mirror := true } }).rd RED_MIRROR_CNT_SKIPPED = 1
    ∧ (after (.wakeN 5) { State.reset with clk := { State.reset.clk with off := some 3 } }).clk.wake = 1
    ∧ (after (.wakeN 5) { State.reset with clk := { State.reset.clk with off := none } }).red.wakeN = true
    ∧ (after (.mirrorDone true 5) { State.reset with red := { RedSt.reset with mirror := true, resync := some ⟨some (ckptOf 9), [], 7, false⟩ } }).rd RED_CKPT_NAND_CYC = 9
    ∧ (after (.mirrorDone false 5) { State.reset with red := { RedSt.reset with mirror := true, resync := some ⟨some (ckptOf 9), [], 7, false⟩ } }).red.nandCk = [none, none]
    ∧ (after (.noPartnerTimeout [] 1250000007) { State.reset with red := { RedSt.reset with activated := true, since := some 7 } }).rd RED_STATUS_NO_PARTNER = 1
    ∧ (after (.noPartnerTimeout [] 1250000006) { State.reset with red := { RedSt.reset with activated := true, since := some 7 } }).rd RED_STATUS_NO_PARTNER = 0
    ∧ (readyWith []).lets .pcie 0x270004 := by decide +kernel

/-! O57 ResetsAndRelease -/

theorem test_resets : (readyWith []).lets .pcie 0x20004
    ∧ (after .por (withRegs [(RED_CKPT_NAND_CYC, 9), (SEQ_STATUS_STATE, 2)])).rd SEQ_STATUS_STATE = 0
    ∧ (after .por (withRegs [(RED_CKPT_NAND_CYC, 9)])).rd RED_CKPT_NAND_CYC = 9
    ∧ (after .pinReset (withRegs [(RST_CNT_PIN_CNT, 255)])).rd RST_CNT_PIN_CNT = 255
    ∧ (after .pinReset { State.reset with clk := { State.reset.clk with off := some 5 } }).rd RST_CAUSE_CAUSE = State.reset.rd RST_CAUSE_CAUSE
    ∧ (after (.sysReset .pcie 0x5359 5) (readyWith [(SEQ_STATUS_STATE, 2)])).rd RST_CAUSE_CAUSE = 4
    ∧ (after (.sysReset .pcie 0x5358 5) (readyWith [])).rd CLK_COND_LAST_CODE = 0x0F0E := by decide +kernel
theorem test_rails : bit (after (.railsGood 5) State.reset).clk.run 3 = true
    ∧ (after (.railUndervoltage 7 5) { State.reset with clk := { State.reset.clk with rails := true, released := true } }).rd RST_CAUSE_CAUSE = 2
    ∧ (after (.railUndervoltage 7 5) { State.reset with clk := { State.reset.clk with rails := true, released := false } }).clk.rails = false
    ∧ (after (.phyResetRelease 2500000) { State.reset with clk := { State.reset.clk with released := true } }).clk.phyRst = true
    ∧ (after (.phyResetRelease 2499999) { State.reset with clk := { State.reset.clk with released := true } }).clk.phyRst = false := by decide +kernel
/-- Rails and the sources that a release needs are good. -/
def releasable : State := { State.reset with clk := { State.reset.clk with rails := true, proven := 0x7FF, run := 0x3F, off := none }, tim := { TimSt.reset with cnt := 25000000 } }
theorem test_layout : (nandLayout { State.reset with rcd := { State.reset.rcd with geom := [400, 16, 4096], jnlBlocks := 40 } } 400 16 4096 3).rd BKG_NAND_GEOM_BLOCKS = 400
    ∧ (after (.railUndervoltage 7 5) { withRegs [(RST_PWR_STS_STATE, 5)] with clk := { State.reset.clk with rails := true, released := true, off := none } }).clk.off = some 7
    ∧ (after (.sysReset .pcie 0x5359 5) { readyWith [] with clk := { (readyWith []).clk with off := some 3 } }).rd RST_CNT_SYS_CNT = 0 := by decide +kernel
theorem test_release : mayRelease releasable = true ∧ mayRelease State.reset = false
    ∧ (dieRelease releasable 9 true).rd GLB_STRAP_BOOT = 1 ∧ (dieRelease releasable 9 true).rd RST_PWR_STS_STATE = 1
    ∧ (after (.mainDieRelease 1 true 4096 16 4096 0 true 5) State.reset).clk.released = false := by decide +kernel

/-! O58 PowerStatesAreEntered -/

theorem test_power_states : (readyWith [(RST_PWR_STS_STATE, 1)]).lets .pcie 0x20008
    ∧ (after (.pwrDoze .pcie 5) { readyWith [(RST_PWR_STS_STATE, 1)] with clk := { State.reset.clk with off := none } }).rd RST_PWR_STS_STATE = 2
    ∧ (after (.pwrDoze .pcie 5) { readyWith [(RST_PWR_STS_STATE, 0)] with clk := { State.reset.clk with off := none } }).rd RST_PWR_STS_REFUSED = 1
    ∧ (after (.pwrWake .pcie 5) (readyWith [(RST_PWR_STS_STATE, 3)])).rd RST_PWR_STS_STATE ≠ 3
    ∧ (after (.pwrWake .pcie 5) (readyWith [(RST_PWR_STS_STATE, 1)])).rd RST_PWR_STS_STATE = 1
    ∧ (after (.pwrSleep .pcie 5) (readyWith [(RST_PWR_STS_STATE, 0)])).rd RST_PWR_STS_REFUSED = 1 := by decide +kernel
theorem test_sleep : (after (.sleepEntryComplete 7 5) (withRegs [(RST_PWR_STS_STATE, 5)])).clk.off = some 7
    ∧ (after (.sleepEntryComplete 7 5) (withRegs [(RST_PWR_STS_STATE, 1)])).clk.off = State.reset.clk.off
    ∧ (after (.sleepExit 335) { State.reset with clk := { State.reset.clk with off := some 7, wake := 1 } }).clk.off = none
    ∧ (after (.sleepExit 334) { State.reset with clk := { State.reset.clk with off := some 7, wake := 1 } }).clk.off = some 7
    ∧ (after (.sleepExit 335) { State.reset with clk := { State.reset.clk with off := some 7, wake := 0 } }).clk.off = some 7
    ∧ (after (.sleepExit 335) { State.reset with clk := { State.reset.clk with off := some 7, wake := 1 }, tim := { TimSt.reset with coarse := some ⟨9, 10⟩ } }).tim.tA = 3359 := by
  decide +kernel

/-! O59 BackgroundActivities -/

/-- A reading was taken, `k` in a row being above 155 °C. -/
def warm (k : Nat) : State := { State.reset with rcd := { State.reset.rcd with tempRead := true, hot := k } }
theorem test_background : (after (.frcTrim 77 60 5) (withRegs [(CLK_STATUS_XB_OK, 1)])).rd CLK_FRC_TRIM_CODE = 77
    ∧ (after (.frcTrim 77 11 5) (withRegs [(CLK_STATUS_XB_OK, 1), (CLK_FRC_TRIM_CAL_VALID, 1), (CLK_FRC_TRIM_CODE, 9)])).rd CLK_FRC_TRIM_CODE = 8
    ∧ (after (.frcTrim 77 10 5) (withRegs [(CLK_STATUS_XB_OK, 1), (CLK_FRC_TRIM_CAL_VALID, 1), (CLK_FRC_TRIM_CODE, 9)])).rd CLK_FRC_TRIM_CODE = 9
    ∧ (after (.frcTrim 77 60 2500000004) (after (.frcTrim 77 60 5) (withRegs [(CLK_STATUS_XB_OK, 1)]))).rd CLK_FRC_TRIM_CODE = 77
    ∧ (after (.frcTrim 77 60 2500000005) (after (.frcTrim 77 60 5) (withRegs [(CLK_STATUS_XB_OK, 1)]))).rd CLK_FRC_TRIM_CODE = 76
    ∧ (after (.serdesAdapt 5 true true 5) State.reset).rd BKG_SERDES_PISTE = 2
    ∧ (after (.serdesAdapt 5 true false 5) State.reset).rd BKG_SERDES_PISTE = 0
    ∧ (after (.tempReading 560 25000004) (after (.tempReading 500 5) State.reset)).rd BKG_STATUS_TEMP_WARN = 0
    ∧ (after (.tempReading 560 5) State.reset).rd BKG_STATUS_TEMP_WARN = 1
    ∧ (after (.tempReading 559 5) State.reset).rd BKG_STATUS_TEMP_WARN = 0
    ∧ (after (.tempReading 621 5) (warm 8)).rcd.hot = 9
    ∧ (after (.tempReading 621 5) (warm 8)).rd ERR_STATUS_FAIL_SILENT = 0
    ∧ (after (.tempReading 620 5) (warm 9)).rcd.hot = 0 := by decide +kernel
theorem test_nand : (after (.nandPatrol 3 5) { withRegs [(BKG_NAND_GEOM_BLOCKS, 400)] with rcd := { State.reset.rcd with patrolAt := 0 } }).rd BKG_NAND_REFRESH_QUEUED = 3
    ∧ (after (.nandRefresh 5 4 5) (withRegs [(BKG_NAND_REFRESH_QUEUED, 3)])).rd BKG_NAND_REFRESH_QUEUED = 2
    ∧ (after (.nandRefresh 5 4 5) State.reset).rd BKG_NAND_REFRESH_DONE = 0
    ∧ (after (.nandBadBlock 5) (withRegs [(BKG_NAND_GEOM_BLOCKS, 400), (BKG_NAND_STS_SPARE, 3)])).rd BKG_STATUS_SPARES_LOW = 0
    ∧ (after (.nandBadBlock 5) (withRegs [(BKG_NAND_GEOM_BLOCKS, 400), (BKG_NAND_STS_SPARE, 2)])).rd BKG_STATUS_SPARES_LOW = 1 := by decide +kernel

/-! O60 RecorderRequestsAndIncidentLog -/

/-- Two entries in the log, ISEQ 8 and 9, neither acknowledged nor copied, the next word to read being word `w`. -/
def logged (w : Nat) : State :=
  { readyWith [(REC_LOG_HEAD_ISEQ, 9), (JNL_STATUS_NAND_OK, 1)] with
    log := ⟨[(9, ⟨1, none, 0x0201, 0x0200, 4⟩), (8, ⟨1, none, 0x0202, 0x0200, 4⟩)], 10, 2, 2, 2, 0, [], w⟩ }
theorem test_recorder : (logged 0).lets .pcie 0x290004 ∧ (logged 0).lets .pcie 0x290048
    ∧ (after (.freeze .pcie 5) (logged 0)).rd REC_STATUS_FREEZE_PEND = 1
    ∧ (after (.clrLost .pcie 5) { logged 0 with regs := (readyWith [(REC_LOG_LOST_LOST, 7)]).regs }).rd REC_LOG_LOST_LOST = 0
    ∧ (after (.recClr .pcie true 1 2 5) (logged 0)).rcd.clrTrk = 2 ^ 33
    ∧ (after (.recClr .pcie false 1 2 5) (logged 0)).rcd.clrHist = 2 ^ 33
    ∧ after (.recClr .pcie false 2 2 5) (logged 0) = (logged 0).at 5
    ∧ (logWord (logged 0) 9 5).1 = 0x02000201
    ∧ (after (.recLogAck .pcie 8 5) (logged 0)).log.unacked = 1
    ∧ (after (.recLogAck .pcie 7 5) (logged 0)).rd REC_COND_LAST_CODE = 0x1105
    ∧ (after (.recLogRdDataRead .pcie 5) (logged 7)).rd REC_LOG_RD_ADDR_ENTRY = 1
    ∧ (after (.recLogRdDataRead .pcie 5) (logged 6)).log.rdWord = 7
    ∧ ((after (.incidentMirrorCopy 5) (logged 0)).log.ring.map (·.1)) = [8]
    ∧ (after (.incidentMirrorCopy 5) (logged 0)).log.fill = 2 := by decide +kernel

end Sys2Proof.Tests
end

section
/-! PROOFS. How a host access runs: what its gate depends on, and what a write and a read do for each answer of the gate (R11 to R14, R526,
R534, R543). -/

namespace Sys2Proof.Proofs

open Sys2Proof Sys2Proof.Machine Sys2Proof.Laws

/-- The state in which a host write begins: nothing has refused it yet. -/
def unmarked (s : State) : State := { s with hst := { s.hst with mark := false } }

/-! ### What the gate depends on -/

@[simp] theorem shut_unmarked (s : State) (p : Path) (off : Nat) (wr : Bool) : shut (unmarked s) p off wr = shut s p off wr := rfl

/-- The path is shut exactly where its gate locks the access out or denies it. -/
theorem shut_iff (s : State) (p : Path) (off : Nat) (wr : Bool) :
    shut s p off wr = true ↔ gate s p off wr = .locked ∨ gate s p off wr = .denied := by
  simp [shut]

/-- An access that its gate answers in any other way is not shut out. -/
theorem not_shut_of_gate {s : State} {p : Path} {off : Nat} {wr : Bool} {g : Gate} (h : gate s p off wr = g) (hl : g ≠ .locked)
    (hd : g ≠ .denied) : shut s p off wr = false := by
  simp [shut, h, hl, hd]

/-! ### An access by its gate -/

section Gated

variable {s : State} {p : Path} {off : Nat} (v : Nat) (f : State → State)

theorem hostDo_locked (h : gate s p off true = .locked) : hostDo s p off v f = s := by
  simp only [hostDo, h]

theorem hostDo_denied (h : gate s p off true = .denied) :
    hostDo s p off v f = { s with hst := { s.hst with q := { s.hst.q with denied := true } } } := by
  simp only [hostDo, h]

theorem hostDo_held (h : gate s p off true = .held) : hostDo s p off v f = holdAcc s p off (some v) := by
  simp only [hostDo, h]

theorem hostDo_code {c : Nat} (h : gate s p off true = .code c) : hostDo s p off v f = discard s p off c := by
  simp only [hostDo, h]

theorem hostDo_pass (h : s.lets p off) : hostDo s p off v f = f (endRun s p) := by
  have hg : gate s p off true = .pass := h
  simp only [hostDo, hg]

theorem hostRd_locked (h : gate s p off false = .locked) : hostRd s p off f = s.emit (.read p 0) := by
  simp only [hostRd, h]

theorem hostRd_denied (h : gate s p off false = .denied) :
    hostRd s p off f = ({ s with hst := { s.hst with q := { s.hst.q with denied := true } } } : State).emit (.read p 0) := by
  simp only [hostRd, h]

theorem hostRd_held (h : gate s p off false = .held) : hostRd s p off f = holdAcc s p off none := by
  simp only [hostRd, h]

theorem hostRd_code {c : Nat} (h : gate s p off false = .code c) : hostRd s p off f = (discard s p off c).emit (.read p 0) := by
  simp only [hostRd, h]

end Gated

/-! ### A write of a whole word -/

section Written

variable {s : State} {p : Path} {off : Nat} (v : Nat)

/-- A write on a path that is shut out has no effect at its offset. -/
theorem hostWrite_shut (h : shut s p off true = true) : hostWrite s p off v = hostDo (unmarked s) p off v id :=
  if_pos h

theorem hostWrite_unaligned (h : shut s p off true = false) (ha : off % 4 ≠ 0) : hostWrite s p off v = discard (unmarked s) p off 0x1203 := by
  have hs : ¬ shut (unmarked s) p off true = true := by simp [h]
  exact (if_neg hs).trans (if_pos ha)

theorem hostWrite_unmapped (h : shut s p off true = false) (ha : off % 4 = 0) (hb : inBlocks off = false) :
    hostWrite s p off v = discard (unmarked s) p off 0x1207 := by
  have hs : ¬ shut (unmarked s) p off true = true := by simp [h]
  exact (if_neg hs).trans ((if_neg (by simp [ha])).trans (if_pos (by simp [hb])))

/-- An aligned write within the blocks goes on to its register. -/
theorem hostWrite_fits (h : shut s p off true = false) (hf : (off % 4 == 0 && inBlocks off) = true) :
    hostWrite s p off v = hostDo (unmarked s) p off v fun x => writeDo x p off (v % 2 ^ 32) := by
  have hs : ¬ shut (unmarked s) p off true = true := by simp [h]
  obtain ⟨ha, hb⟩ : off % 4 = 0 ∧ inBlocks off = true := by simpa using hf
  exact (if_neg hs).trans ((if_neg (by simp [ha])).trans (if_neg (by simp [hb])))

/-- A write that is let through acts on its register in the state in which the path's run of discarded accesses is over. -/
theorem hostWrite_lets (h : s.lets p off) (hf : (off % 4 == 0 && inBlocks off) = true) :
    hostWrite s p off v = writeDo (endRun (unmarked s) p) p off (v % 2 ^ 32) := by
  rw [hostWrite_fits v (not_shut_of_gate h nofun nofun) hf]
  exact hostDo_pass v _ h

end Written

/-! ### A write that reaches its register -/

/-- The offset lies in the window of a lane that the variant lacks (R2). -/
def inAbsentLane (s : State) (off : Nat) : Bool := 0x100000 ≤ off && off < 0x140000 && s.lanes ≤ (off - 0x100000) / 0x1000

section Reached

variable {s : State} {p : Path} {off : Nat} {v : Nat}

theorem writeDo_absentLane (h : inAbsentLane s off = true) : writeDo s p off v = s :=
  if_pos h

theorem writeDo_ownRule {s1 : State} (h : inAbsentLane s off = false) (ho : ownWrite s p off v = some s1) : writeDo s p off v = s1 := by
  unfold inAbsentLane at h
  simp only [writeDo, h, ho, Bool.false_eq_true, if_false]

theorem writeDo_row {r : RegRow} {idx : List Nat} (h : inAbsentLane s off = false) (ho : ownWrite s p off v = none)
    (hr : findReg regTable off = some (r, idx)) : writeDo s p off v = writeRow s p r idx off v := by
  unfold inAbsentLane at h
  simp only [writeDo, h, ho, hr, Bool.false_eq_true, if_false]

theorem writeDo_noRegister (h : inAbsentLane s off = false) (ho : ownWrite s p off v = none) (hr : findReg regTable off = none) :
    writeDo s p off v = s := by
  unfold inAbsentLane at h
  simp only [writeDo, h, ho, hr, Bool.false_eq_true, if_false]

/-- A register of one RW field takes the field's bits. -/
theorem writeRow_oneRw {r : RegRow} {idx : List Nat} {lo w rst : Nat} (hr : r.fields = [⟨lo, w, .rw, rst⟩]) :
    writeRow s p r idx off v = s.wr ⟨off * 8 + lo, w⟩ (v / 2 ^ lo % 2 ^ w) := by
  simp [writeRow, hr, writeField]

/-- A register of one RO field keeps its value. -/
theorem writeRow_oneRo {r : RegRow} {idx : List Nat} {lo w rst : Nat} (hr : r.fields = [⟨lo, w, .ro, rst⟩]) :
    writeRow s p r idx off v = s := by
  simp [writeRow, hr, writeField]

end Reached

/-! ### The commands that write a register -/

theorem exec_registerWrite_whole (p : Path) (off v t : Nat) (s : State) :
    exec (.registerWrite p off v true t) s = .next (hstSettle (runHeld (hostWrite (s.at t) p off v))) := rfl

theorem exec_registerWrite_part (p : Path) (off v t : Nat) (s : State) :
    exec (.registerWrite p off v false t) s = .next (hstSettle (runHeld
      (if shut s p off true then hostDo (s.at t) p off v id else discard (s.at t) p off 0x1203))) := rfl

/-- A register write on a path that is shut out, whole or not, has no effect at its offset. -/
theorem exec_registerWrite_shut {s : State} {p : Path} {off : Nat} (v t : Nat) (whole : Bool) (h : shut s p off true = true) :
    exec (.registerWrite p off v whole t) s
      = .next (hstSettle (runHeld (hostDo (if whole then unmarked (s.at t) else s.at t) p off v id))) := by
  cases whole with
  | true => rw [exec_registerWrite_whole, hostWrite_shut (s := s.at t) v h, if_pos rfl]
  | false => rw [exec_registerWrite_part, if_pos h, if_neg Bool.false_ne_true]

/-- A whole aligned register write within the blocks goes on to its register. -/
theorem exec_registerWrite_fits {s : State} {p : Path} {off : Nat} (v t : Nat) (h : shut s p off true = false)
    (hf : (off % 4 == 0 && inBlocks off) = true) :
    exec (.registerWrite p off v true t) s
      = .next (hstSettle (runHeld (hostDo (unmarked (s.at t)) p off v fun x => writeDo x p off (v % 2 ^ 32)))) := by
  rw [exec_registerWrite_whole, hostWrite_fits (s := s.at t) v h hf]

/-- A whole aligned register write that is let through acts on its register. -/
theorem exec_registerWrite_lets {s : State} {p : Path} {off : Nat} (v t : Nat) (h : s.lets p off)
    (hf : (off % 4 == 0 && inBlocks off) = true) :
    exec (.registerWrite p off v true t) s
      = .next (hstSettle (runHeld (writeDo (endRun (unmarked (s.at t)) p) p off (v % 2 ^ 32)))) := by
  rw [exec_registerWrite_whole, hostWrite_lets (s := s.at t) v h hf]

/-! ### Reads -/

section Reads

variable {s : State} {p : Path} {off : Nat} {whole : Bool}

/-- A read that is not one whole aligned DW is discarded on a path that answers (R11). -/
theorem hostRead_partial (h : shut s p off false = false) (hf : (off % 4 == 0 && whole) = false) :
    hostRead s p off whole = (discard s p off 0x1203).emit (.read p 0) := by
  refine if_pos ?_
  rw [h, Bool.not_false, Bool.and_true]
  cases whole with
  | false => simp
  | true => simpa using hf

theorem hostRead_shut (h : shut s p off false = true) : hostRead s p off whole = hostRd s p off fun x => readDo x p off := by
  refine if_neg ?_
  simp [h]

/-- A whole aligned read goes on to its register. -/
theorem hostRead_fits (hf : (off % 4 == 0 && whole) = true) : hostRead s p off whole = hostRd s p off fun x => readDo x p off := by
  obtain ⟨ha, hw⟩ : off % 4 = 0 ∧ whole = true := by simpa using hf
  refine if_neg ?_
  simp [ha, hw]

/-- A register that the path's map version hides reads 0 (R534). -/
theorem readDo_hidden (h : (hidden40 off && (mapOf s p).map (·.2) = some 0) = true) : readDo s p off = s.emit (.read p 0) :=
  if_pos h

end Reads

/-! ### Low words of 64-bit quantities (R12) -/

section LowWords

variable {off : Nat}

/-- The low words lie at these offsets and in these arrays. -/
theorem lowWord_place (h : lowWord off = true) :
    off ∈ [0x8, 0x50014, 0x40010, 0x140010, 0x180008, 0x200010, 0x200030, 0x200038, 0x200094, 0x200308, 0x250040, 0x250048, 0x270014, 0x27001C,
      0x270024, 0x27002C]
    ∨ (0x181000 ≤ off ∧ off < 0x185000) ∨ (0x200200 ≤ off ∧ off < 0x200280 ∧ off % 32 = 4) ∨ (0x210000 ≤ off ∧ off < 0x228000) := by
  simp only [lowWord, Bool.or_eq_true, Bool.and_eq_true, decide_eq_true_eq, List.contains_iff_mem] at h
  rcases h with (((h | h) | h) | h) | h
  · exact .inl h
  all_goals omega

/-- No low word is hidden by version 4.0. -/
theorem hidden40_of_lowWord (h : lowWord off = true) : hidden40 off = false := by
  have hp := lowWord_place h
  simp only [List.mem_cons, List.not_mem_nil, or_false] at hp
  simp only [hidden40, Bool.or_eq_false_iff, Bool.and_eq_false_iff, decide_eq_false_iff_not]
  omega

/-- No low word is the capture word of a TCAP ball. -/
theorem not_tcapCap_of_lowWord (h : lowWord off = true) : (0x200200 ≤ off && off < 0x200280 && off % 32 = 0x18) = false := by
  have hp := lowWord_place h
  simp only [List.mem_cons, List.not_mem_nil, or_false] at hp
  simp only [Bool.and_eq_false_iff, decide_eq_false_iff_not]
  omega

/-- No low word is a lane's memory window. -/
theorem not_laneMem_of_lowWord (h : lowWord off = true) : (0x100000 ≤ off && off < 0x140000 && off % 0x1000 = 0x14) = false := by
  have hp := lowWord_place h
  simp only [List.mem_cons, List.not_mem_nil, or_false] at hp
  simp only [Bool.and_eq_false_iff, decide_eq_false_iff_not]
  omega

/-- Latching the high word of a pair leaves the path without a latch at the low word where it had none. -/
theorem latchWord_find_low (s : State) (p : Path) (off v : Nat) (h : (s.hst.latch.any fun e => decide (e.1 = p ∧ e.2.1 = off)) = false) :
    ((latchWord s p (off + 4) v).hst.latch.find? fun e => decide (e.1 = p ∧ e.2.1 = off)) = none := by
  rw [List.find?_eq_none]
  intro e he
  rw [List.any_eq_false] at h
  rcases List.mem_cons.mp he with rfl | hr
  · simp
  · exact h e (List.mem_of_mem_filter hr)

/-- A read of a low word for which the path has no latch answers that word and latches the high word. -/
theorem readDo_lowWord (s : State) (p : Path) (h : lowWord off = true)
    (hl : (s.hst.latch.any fun e => decide (e.1 = p ∧ e.2.1 = off)) = false) :
    readDo s p off = (latchWord s p (off + 4) (plainWord s (off + 4))).emit
      (.read p (plainWord (latchWord s p (off + 4) (plainWord s (off + 4))) off)) := by
  have hf := latchWord_find_low s p off (plainWord s (off + 4)) hl
  unfold readDo
  rw [hidden40_of_lowWord h, Bool.false_and, if_neg Bool.false_ne_true]
  split
  case h_11 =>
    rw [not_tcapCap_of_lowWord h, not_laneMem_of_lowWord h, if_neg Bool.false_ne_true, if_neg Bool.false_ne_true, if_pos h]
    simp only [hf]
  all_goals exact absurd h Bool.false_ne_true

end LowWords

end Sys2Proof.Proofs
end

section
/-! PROOFS. O12: a register write acts on each field by its access type, and a partial write is discarded. -/

namespace Sys2Proof.Proofs

open Sys2Proof Sys2Proof.Machine Sys2Proof.Laws

/-! ### What a field reads as -/

/-- A readable field that belongs to no group reads as it is stored. -/
theorem readField_noGroup (s : State) (key w : Nat) {acc : Access} (h : acc ≠ .wo) : readField s key acc none = s.rd ⟨key, w⟩ := by
  cases acc with
  | wo => exact absurd rfl h
  | _ => rfl

/-- An RWL field of a running group reads as it is stored. -/
theorem readField_running (s : State) (key w g : Nat) (h : groupStopped s g = false) : readField s key .rwl (some g) = s.rd ⟨key, w⟩ := by
  simp only [readField, h, Bool.false_eq_true, if_false]
  rfl

/-! ### What a write does to a field, by its access type (R14) -/

section Fields

variable (s : State) (off lo w rst v : Nat) {g : Nat}

theorem writeField_ro : writeField s none off ⟨lo, w, .ro, rst⟩ v = (s, 0) := rfl

theorem writeField_wo : writeField s none off ⟨lo, w, .wo, rst⟩ v = (s, 0) := rfl

theorem writeField_rw : writeField s none off ⟨lo, w, .rw, rst⟩ v = (s.wr ⟨off * 8 + lo, w⟩ (v / 2 ^ lo % 2 ^ w), 0) := rfl

theorem writeField_w1c : writeField s none off ⟨lo, w, .w1c, rst⟩ v
    = (s.wr ⟨off * 8 + lo, w⟩ (s.rd ⟨off * 8 + lo, w⟩ - (s.rd ⟨off * 8 + lo, w⟩ &&& v / 2 ^ lo % 2 ^ w)), 0) := by
  simp only [writeField, readField_noGroup s (off * 8 + lo) w (acc := .w1c) nofun]

theorem writeField_rwi : writeField s none off ⟨lo, w, .rwi, rst⟩ v
    = (s, if v / 2 ^ lo % 2 ^ w = s.rd ⟨off * 8 + lo, w⟩ then 0 else 0x1202) := by
  simp only [writeField, readField_noGroup s (off * 8 + lo) w (acc := .rwi) nofun]

/-- An RWL field of a running group keeps its value; a difference is reported. -/
theorem writeField_running (hv : bit s.img.votedGroups g = false) (hs : groupStopped s g = false) :
    writeField s (some g) off ⟨lo, w, .rwl, rst⟩ v = (s, if v / 2 ^ lo % 2 ^ w = s.rd ⟨off * 8 + lo, w⟩ then 0 else 0x1201) := by
  simp only [writeField, hv, hs, readField_running s (off * 8 + lo) w g hs, Bool.false_eq_true, if_false]

/-- Once the group's restart is voted, a difference is reported as such (R563). -/
theorem writeField_voted (hv : bit s.img.votedGroups g = true) (hx : v / 2 ^ lo % 2 ^ w ≠ s.rd ⟨off * 8 + lo, w⟩)
    (hs : groupStopped s g = false) : writeField s (some g) off ⟨lo, w, .rwl, rst⟩ v = (s, 0x1206) := by
  simp only [writeField, hv, readField_running s (off * 8 + lo) w g hs, if_true, if_neg hx]

/-- An RWL field of a stopped group is staged (R86). -/
theorem writeField_stopped (hv : bit s.img.votedGroups g = false) (hs : groupStopped s g = true) :
    writeField s (some g) off ⟨lo, w, .rwl, rst⟩ v = (stage s (off * 8 + lo) (v / 2 ^ lo % 2 ^ w), 0) := by
  simp only [writeField, hv, hs, Bool.false_eq_true, if_false, if_true]

end Fields

/-! ### Three registers that follow their access types -/

theorem findReg_scratch : findReg regTable 0x18 = some (⟨"GLB_SCRATCH", 0x18, [], .none, [⟨0, 32, .rw, 39⟩]⟩, []) := by decide +kernel

theorem findReg_fltEvtEn : findReg regTable 0x60020 = some (⟨"FLT_EVT_EN", 0x60020, [(3, 0x4)], .none, [⟨0, 32, .rw, 63⟩]⟩, [0]) := by
  decide +kernel

theorem findReg_seqCycLo : findReg regTable 0x50014 = some (⟨"SEQ_CYC_LO", 0x50014, [], .none, [⟨0, 32, .ro, 39⟩]⟩, []) := by decide +kernel

theorem writeDo_scratch (s : State) (p : Path) (v : Nat) : writeDo s p 0x18 (v % 2 ^ 32) = s.wr GLB_SCRATCH_VALUE (v % 2 ^ 32) := by
  rw [writeDo_row rfl rfl findReg_scratch, writeRow_oneRw rfl, pow_zero, Nat.div_one, Nat.mod_mod]
  rfl

theorem writeDo_fltEvtEn (s : State) (p : Path) (v : Nat) : writeDo s p 0x60020 (v % 2 ^ 32) = s.wr (FLT_EVT_EN_EN 0) (v % 2 ^ 32) := by
  rw [writeDo_row rfl rfl findReg_fltEvtEn, writeRow_oneRw rfl, pow_zero, Nat.div_one, Nat.mod_mod]
  rfl

theorem writeDo_seqCycLo (s : State) (p : Path) (v : Nat) : writeDo s p 0x50014 v = s := by
  have ho : ownWrite s p 0x50014 v = none := by simp [ownWrite]
  rw [writeDo_row rfl ho findReg_seqCycLo, writeRow_oneRo rfl]

/-- Settles O12: the write runs by the answer of its gate, and, where it reaches its register, by the register's own rule or the access types
of the fields. -/
theorem registerWritesFollowAccessTypes : Obligations.RegisterWritesFollowAccessTypes := by
  unfold Obligations.RegisterWritesFollowAccessTypes
  refine ⟨?_, ?_, ?_⟩
  · intro s p off v t whole M S E open_ fits noLane gives
    have gives_of {u w : State} (he : exec (.registerWrite p off v whole t) s = .next (hstSettle (runHeld u))) (h : u = w) : gives w :=
      he.trans (congrArg (fun x => done (runHeld x)) h)
    refine ⟨fun hl => ?_, fun hd => ?_, fun ho hw => ?_, fun ho hw ha => ?_, fun ho hw ha hb => ?_, fun hg hw hf => ?_, fun hg hw hf => ?_,
      fun hg hw hf => ?_, fun hg hw hf hn => ?_, fun hg hw hf hn => ?_⟩
    · have hS : gate S p off true = .locked := by cases whole <;> exact hl
      exact gives_of (exec_registerWrite_shut v t whole ((shut_iff s p off true).mpr (.inl hl))) (hostDo_locked v id hS)
    · have hS : gate S p off true = .denied := by cases whole <;> exact hd
      exact gives_of (exec_registerWrite_shut v t whole ((shut_iff s p off true).mpr (.inr hd))) (hostDo_denied v id hS)
    · subst hw
      have hs : ¬ shut s p off true = true := by simpa [open_] using ho
      exact gives_of (exec_registerWrite_part p off v t s) (if_neg hs)
    · subst hw
      have hs : shut s p off true = false := by simpa [open_] using ho
      exact gives_of (exec_registerWrite_whole p off v t s) (hostWrite_unaligned v hs ha)
    · subst hw
      have hs : shut s p off true = false := by simpa [open_] using ho
      exact gives_of (exec_registerWrite_whole p off v t s) (hostWrite_unmapped v hs ha hb)
    · subst hw
      exact gives_of (exec_registerWrite_fits v t (not_shut_of_gate hg nofun nofun) hf) (hostDo_held v _ hg)
    · subst hw
      exact gives_of (exec_registerWrite_fits v t (not_shut_of_gate hg nofun nofun) hf) (hostDo_code v _ hg)
    · subst hw
      exact gives_of (exec_registerWrite_fits v t (not_shut_of_gate hg nofun nofun) hf) (hostDo_code v _ hg)
    · subst hw
      exact gives_of (exec_registerWrite_lets v t hg hf) (writeDo_absentLane hn)
    · subst hw
      refine gives_of (exec_registerWrite_lets v t hg hf) ?_
      change writeDo E p off (v % 2 ^ 32) = _
      cases ho : ownWrite E p off (v % 2 ^ 32) with
      | some s1 => exact writeDo_ownRule hn ho
      | none =>
        cases hr : findReg regTable off with
        | some r => exact writeDo_row hn ho hr
        | none => exact writeDo_noRegister hn ho hr
  · intro s p v t s0
    refine ⟨fun h => ?_, fun h => ?_, fun h => ?_⟩
    · exact (exec_registerWrite_lets v t h rfl).trans (congrArg (fun x => done (runHeld x)) (writeDo_scratch _ p v))
    · exact (exec_registerWrite_lets v t h rfl).trans (congrArg (fun x => done (runHeld x)) (writeDo_fltEvtEn _ p v))
    · exact (exec_registerWrite_lets v t h rfl).trans (congrArg (fun x => done (runHeld x)) (writeDo_seqCycLo _ p _))
  · intro s g off lo w v key x
    exact ⟨writeField_ro s off lo w 0 v, writeField_wo s off lo w 0 v, writeField_rw s off lo w 0 v, writeField_w1c s off lo w 0 v,
      writeField_rwi s off lo w 0 v, writeField_running s off lo w 0 v, writeField_voted s off lo w 0 v, writeField_stopped s off lo w 0 v⟩

end Sys2Proof.Proofs
end

section
/-! PROOFS. O13: what reads answer, and the frames of the QSPI target. -/

namespace Sys2Proof.Proofs

open Sys2Proof Sys2Proof.Machine Sys2Proof.Laws

/-! ### A frame of the QSPI target (R526 to R529) -/

section Qspi

variable {s : State} {off : Nat}

theorem qspiRead_denied (n : Nat) (h : qspiAnswers s off false = false) :
    qspiRead s off n = qspiFail (updQspi s fun q => { q with denied := true }) := by
  simp only [qspiRead, h, Bool.not_false, if_true]

/-- While a write has yet to execute, a read is late (R529). -/
theorem qspiRead_busy (n : Nat) (h : qspiAnswers s off false = true) (hb : s.hst.q.busy = true) : qspiRead s off n = qspiLate s := by
  simp only [qspiRead, h, hb, Bool.not_true, Bool.false_eq_true, if_false, if_true]

/-- A value that is ready in time follows its wait octets and the octet 0xA5 (R528). -/
theorem qspiRead_ready {n v : Nat} (h : qspiAnswers s off false = true) (hb : s.hst.q.busy = false) (hn : n < 64)
    (hv : readValue s (hostRead s .qspi off) = some v) :
    qspiRead s off n = (hostRead s .qspi off).emit (.qspi (List.replicate n 0 ++ [0xA5] ++ leBytes 4 v)) := by
  simp only [qspiRead, h, hb, hv, hn, Bool.not_true, Bool.false_eq_true, if_false, if_true]

/-- A value that is not ready within 64 wait octets is late. -/
theorem qspiRead_late {n : Nat} (h : qspiAnswers s off false = true) (hb : s.hst.q.busy = false)
    (hn : 64 ≤ n ∨ readValue s (hostRead s .qspi off) = none) : qspiRead s off n = qspiLate (hostRead s .qspi off) := by
  simp only [qspiRead, h, hb, Bool.not_true, Bool.false_eq_true, if_false]
  cases hv : readValue s (hostRead s .qspi off) with
  | none => rfl
  | some v => exact if_neg (by simpa [hv] using hn)

theorem qspiWrite_busy (v : Nat) (h : s.hst.q.busy = true) :
    qspiWrite s off v = updQspi (discard s .qspi off 0x120D) fun q => { q with frameErr := true } :=
  if_pos h

/-- A write while the target is not busy has the effect of a host write, and REFUSED and BUSY say how it went. -/
theorem qspiWrite_free (v : Nat) (h : s.hst.q.busy = false) :
    qspiWrite s off v = updQspi (hostWrite s .qspi off v) fun q =>
      { q with refused := (hostWrite s .qspi off v).hst.mark, busy := decide (s.hst.held.length < (hostWrite s .qspi off v).hst.held.length) } :=
  if_neg (by simp [h])

end Qspi

/-- Settles O13: a read runs by the answer of its gate and by what its offset holds; a QSPI frame by BUSY and by whether the target answers. -/
theorem readsAnswerAndLatch : Obligations.ReadsAnswerAndLatch := by
  unfold Obligations.ReadsAnswerAndLatch
  refine ⟨?_, ?_, ?_, ?_, ?_⟩
  · intro s p off t whole S E fits gives latched hidden L
    have gives_of {u : State} (h : hostRead S p off whole = u) : gives u := congrArg done h
    refine ⟨fun hl => gives_of ?_, fun hd => gives_of ?_, fun hs hf => gives_of ?_, fun hg hf => gives_of ?_, fun hg hf => gives_of ?_,
      fun hg hf => gives_of ?_, fun hh => ?_, fun hlow hl => ?_⟩
    · rw [hostRead_shut ((shut_iff S p off false).mpr (.inl hl)), hostRd_locked (s := S) _ hl]
    · rw [hostRead_shut ((shut_iff S p off false).mpr (.inr hd)), hostRd_denied (s := S) _ hd]
    · exact hostRead_partial (s := S) hs hf
    · rw [hostRead_fits hf, hostRd_held (s := S) _ hg]
    · rw [hostRead_fits hf, hostRd_code (s := S) _ hg]
    · rw [hostRead_fits hf, hostRd_lets s p off t _ hg]
    · exact readDo_hidden (s := E) hh
    · exact readDo_lowWord E p hlow hl
  · intro s off n t S R busy answers late gives
    have gives_of {u : State} (h : qspiRead S off n = u) : gives u :=
      ⟨congrArg done h, congrArg done h⟩
    exact ⟨fun ha => gives_of (qspiRead_denied (s := S) n ha), fun ha hb => gives_of (qspiRead_busy (s := S) n ha hb),
      fun ha hb hn v hv => gives_of (qspiRead_ready (s := S) ha hb hn hv), fun ha hb hn => gives_of (qspiRead_late (s := S) ha hb hn)⟩
  · intro s off v t S W gives
    have gives_of {u : State} (h : qspiWrite S off v = u) : gives u :=
      ⟨congrArg done h, congrArg done h⟩
    exact ⟨fun hb => gives_of (qspiWrite_free (s := S) v hb), fun hb => gives_of (qspiWrite_busy (s := S) v hb)⟩
  · exact fun s t => rfl
  · exact fun s off t => rfl

end Sys2Proof.Proofs
end

section
/-! PROOFS. O5, refuted: the last word of a filter channel's window holds no register, yet a write to it on a device whose image has no such
channel is reported (R110 and R536). -/

namespace Sys2Proof.Proofs

open Sys2Proof Sys2Proof.Machine Sys2Proof.Laws

/-- The machine after reset, without filter channels, with the PCIe path's register map settled to 4.1. -/
def mapSettled : State := State.reset.wrs [(HST_MAP_SET_SETTLED, 1), (HST_MAP_SET_MAJOR, 4), (HST_MAP_SET_MINOR, 1)]

/-- The field HST_COND.LAST_CODE of the state that a command answers. -/
def lastHstCode : Host.Outcome State Fault Refusal → Nat
  | .next s => s.rd HST_COND_LAST_CODE
  | _ => 0

/-- No register lies at the word behind FLT_CH_OUT of channel 0. -/
theorem findReg_behindFltChOut : findReg regTable 0x6101C = none := by decide +kernel

theorem mapSettled_lets : mapSettled.lets .pcie 0x6101C := by decide +kernel

/-- The word is taken for a channel that the image does not have, so that the write is discarded with HST 0x1204. -/
theorem write_behindFltChOut_reports : lastHstCode (exec (.registerWrite .pcie 0x6101C 0 true 0) mapSettled) = 0x1204 := by decide +kernel

theorem taken_write_reports_nothing :
    lastHstCode (.next (hstSettle (runHeld (endRun (unmarked (mapSettled.at 0)) .pcie)))) = 0 := by decide +kernel

/-- Refutes O5: a write to offset 0x6101C, which no register occupies and which lies within FLT's range, is let through on the PCIe path of a
device without filter channels, and is reported HST 0x1204 where the statement says that it does nothing. -/
theorem not_offsetsWithoutARegister : ¬ Obligations.OffsetsWithoutARegister := by
  unfold Obligations.OffsetsWithoutARegister
  intro h
  obtain ⟨-, hwrite, -⟩ := h mapSettled .pcie 0x6101C 0 0 rfl (by decide) rfl
  have hexec := hwrite (by rw [findReg_behindFltChOut]; rfl) (by decide) rfl mapSettled_lets
  have hcode : 0x1204 = 0 := write_behindFltChOut_reports.symm.trans ((congrArg lastHstCode hexec).trans taken_write_reports_nothing)
  exact absurd hcode (by decide)

end Sys2Proof.Proofs
end

section
/-! PROOFS. O2: what reset leaves. -/

namespace Sys2Proof.Proofs

open Sys2Proof Sys2Proof.Machine Sys2Proof.Laws

/-- At reset no field is listed, so each reads its reset value. -/
theorem reset_rd (f : Fld) : State.reset.rd f = (resetValue f.key).toNat := rfl

/-- No source is enabled at reset (R550). -/
theorem reset_routeEn : ∀ n < 39, State.reset.rd (HST_SRC_ROUTE_EN n) = 0 := by
  simp only [reset_rd]
  decide +kernel

/-- No level source is raised at reset, and no edge source is latched. -/
theorem reset_pendSet : pendSet State.reset = 0 := by decide +kernel

/-! ### Without a pending source nothing is asserted (R538, R540) -/

@[simp] theorem bit_zero (i : Nat) : bit 0 i = false := by simp [bit]

theorem vecSet_zero (s : State) : vecSet s 0 = 0 := by
  simp only [vecSet, bit_zero, Bool.false_and, Bool.false_eq_true, if_false, List.foldl_fixed]

theorem irqLow_zero (s : State) (k : Nat) : irqLow s 0 k = false := by
  simp [irqLow]

/-- At reset no source is pending, so that no vector is asserted or marked and the balls are high (R537 to R540). -/
theorem reset_irqAgrees : State.reset.irqAgrees := by
  simp only [State.irqAgrees, reset_pendSet, vecSet_zero, irqLow_zero, reset_rd]
  exact ⟨rfl, rfl, rfl, rfl, fun v _ h => absurd h (by simp [State.reset, HstSt.reset]), fun v _ h => absurd h (by simp [State.reset, HstSt.reset]),
    fun v _ h => absurd h (by simp [HST_MSIX_PBA_PBA, resetValue, resetValueOf])⟩

/-- The register file and every addressed memory are empty at reset, the canonical form of a table that holds nothing. -/
theorem reset_canonical : State.reset.canonical = true := rfl

/-- Settles O2: every register field reads its reset value, and no source is pending. -/
theorem resetLeavesTheStatedValues : Obligations.ResetLeavesTheStatedValues := by
  unfold Obligations.ResetLeavesTheStatedValues
  exact ⟨rfl, rfl, rfl, rfl, rfl, rfl, rfl, rfl, rfl, rfl, rfl, rfl, reset_routeEn, rfl, rfl, reset_canonical, rfl, reset_irqAgrees⟩

end Sys2Proof.Proofs
end

section
/-! PROOFS. The cycles in flight: how one is found, what a change of one leaves, and what a report leaves of the numbers and runs of all (R28,
R515). -/

namespace Sys2Proof.Proofs

open Sys2Proof Sys2Proof.Machine Sys2Proof.Laws

/-! ### A cycle in flight by its number -/

@[simp] theorem at_cyc? (s : State) (t n : Nat) : (s.at t).cyc? n = s.cyc? n := rfl

/-- The cycle found has the number asked for. -/
theorem n_of_cyc? {s : State} {n : Nat} {c : Cyc} (h : s.cyc? n = some c) : c.n = n := by
  simpa using List.find?_some h

/-- An instant of a cycle is reckoned by the anchor of its T0, so that the passing of time does not move it (R314). -/
@[simp] theorem dueAt_at (s : State) (t : Nat) (c : Cyc) (us : Nat) : dueAt (s.at t) c us = dueAt s c us := rfl

/-! ### The numbers and runs of the cycles in flight -/

/-- The numbers of the cycles in flight, each with its working parts. -/
def flightRuns (s : State) : List (Nat × CycRun) := s.seq.cycs.map fun c => (c.n, c.run)

/-- The working parts of a cycle are those listed first under its number. -/
theorem cyc?_run (s : State) (n : Nat) : (s.cyc? n).map (·.run) = ((flightRuns s).find? fun x => x.1 = n).map (·.2) := by
  simp only [flightRuns, State.cyc?, List.find?_map, Option.map_map]
  rfl

/-- A change of one cycle that keeps its number and run keeps them all. -/
theorem flightRuns_updCyc (s : State) (m : Nat) (f : Cyc → Cyc) (hn : ∀ c, (f c).n = c.n) (hr : ∀ c, (f c).run = c.run) :
    flightRuns (updCyc s m f) = flightRuns s := by
  simp only [flightRuns, updCyc, List.map_map]
  refine List.map_congr_left fun c _ => ?_
  by_cases h : c.n = m <;> simp [h, hn, hr]

theorem reportMarks_seq (s : State) (c u : Nat) : (reportMarks s c u).seq = s.seq := by rw [reportMarks_only]

theorem flightRuns_congr {s t : State} (h : t.seq.cycs = s.seq.cycs) : flightRuns t = flightRuns s := by rw [flightRuns, flightRuns, h]

/-- A report of a cycle adds to the cycle's own list of entries at most. -/
theorem flightRuns_reportCyc (s : State) (n c u d i : Nat) : flightRuns (reportCyc s n c u d i) = flightRuns s := by
  have hm : flightRuns (reportMarks s c u) = flightRuns s := flightRuns_congr (by rw [reportMarks_seq])
  have hl (e : Incident) : flightRuns (logEntry (reportMarks s c u) e) = flightRuns s := flightRuns_congr (by rw [logEntry_seq, reportMarks_seq])
  simp only [reportCyc]
  split
  · split
    · exact hm
    · exact hl _
  · split
    · rfl
    · split
      · exact hl _
      · rw [flightRuns_updCyc, hm]
        · exact fun _ => rfl
        · exact fun _ => rfl

/-! ### The register fields that a report of a cycle may write -/

theorem reportMarks_rd (s : State) (c u : Nat) (g : Fld) (h : g.key ∉ reportKeys c u) : (reportMarks s c u).rd g = s.rd g := by
  simp only [reportKeys, List.mem_append, List.map_cons, List.mem_cons, not_or] at h
  obtain ⟨hc, hlo, hhi, -⟩ := h
  have hw : (s.wrs ((condFields c u).map fun f => (f, c))).rd g = s.rd g := by
    refine rd_wrs_ne _ _ _ fun p hp he => ?_
    obtain ⟨f, hf, rfl⟩ := List.mem_map.mp hp
    exact hc (List.mem_map.mpr ⟨f, hf, he.symm⟩)
  simp only [reportMarks]
  split
  · rw [edgeSrc_rd _ _ _ hlo hhi, hw]
  · exact hw

theorem logEntry_reportMarks_rd (s : State) (c u : Nat) (e : Incident) (g : Fld) (h : g.key ∉ reportKeys c u) :
    (logEntry (reportMarks s c u) e).rd g = s.rd g := by
  rw [logEntry_rd, reportMarks_rd s c u g h]
  simp only [reportKeys, List.mem_append, List.map_cons, List.map_nil, List.mem_cons, not_or] at h ⊢
  exact h.2.2.2

/-- A report of a cycle leaves every register field that no report writes as it was. -/
theorem reportCyc_rd (s : State) (n c u d i : Nat) (g : Fld) (h : g.key ∉ reportKeys c u) : (reportCyc s n c u d i).rd g = s.rd g := by
  simp only [reportCyc]
  split
  · split
    · exact reportMarks_rd s c u g h
    · exact logEntry_reportMarks_rd s c u _ g h
  · split
    · rfl
    · split
      · exact logEntry_reportMarks_rd s c u _ g h
      · exact reportMarks_rd s c u g h

end Sys2Proof.Proofs
end

section
/-! PROOFS. O30: START, HALT, its completion and the arming of setpoints. -/

namespace Sys2Proof.Proofs

open Sys2Proof Sys2Proof.Machine Sys2Proof.Laws

/-! ### START by the power state (R467, R468) -/

section PowerStates

variable {s : State}

theorem startWrite_awake (h : s.rd RST_PWR_STS_STATE < 2 ∨ 5 < s.rd RST_PWR_STS_STATE) : startWrite s = seqStart s := by
  have h2 : s.rd RST_PWR_STS_STATE ≠ 2 := by omega
  have h3 : s.rd RST_PWR_STS_STATE ≠ 3 := by omega
  have h4 : s.rd RST_PWR_STS_STATE ≠ 4 := by omega
  have h5 : s.rd RST_PWR_STS_STATE ≠ 5 := by omega
  simp [startWrite, h2, h3, h4, h5]

theorem startWrite_entering (h : s.rd RST_PWR_STS_STATE = 2 ∨ s.rd RST_PWR_STS_STATE = 5) : startWrite s = refuse s 0x020B := by
  rcases h with h | h <;> simp [startWrite, h]

theorem startWrite_doze (h : s.rd RST_PWR_STS_STATE = 3) : startWrite s = pwrWake (s.ck fun x => { x with startDue := true }) := by
  simp only [startWrite, h, if_true]

theorem startWrite_leaving (h : s.rd RST_PWR_STS_STATE = 4) : startWrite s = s.ck fun x => { x with startDue := true } := by
  simp [startWrite, h]

end PowerStates

/-! ### START in HOLD (R22, R88, R394, R430, R431) -/

section Starts

variable {s : State}

theorem seqStart_refused (h : s.loaded = false ∨ s.idle = false ∨ (cascRole s = 5 ∧ s.red.activated = false)) :
    seqStart s = refuse s 0x020B := by
  refine if_pos ?_
  rcases h with h | h | ⟨hr, ha⟩
  · simp [h]
  · simp [h]
  · simp [hr, ha]

/-- START is open: an image is loaded, the sequencer is IDLE, and a Reserve has been activated. -/
theorem not_seqStart_refused (hl : s.loaded = true) (hi : s.idle = true) (ha : cascRole s ≠ 5 ∨ s.red.activated = true) :
    ¬ (!s.loaded || !s.idle || (cascRole s = 5 && !s.red.activated)) = true := by
  rcases ha with ha | ha <;> simp [hl, hi, ha]

variable (hl : s.loaded = true) (hi : s.idle = true) (ha : cascRole s ≠ 5 ∨ s.red.activated = true)
include hl hi ha

theorem seqStart_tagRefused (ht : tagRefused s = true) : seqStart s = refuse s 0x0D02 :=
  (if_neg (not_seqStart_refused hl hi ha)).trans (if_pos ht)

theorem seqStart_stagedBad (ht : tagRefused s = false) {g ofs : Nat} (hb : startBad s = some (g, ofs)) :
    seqStart s = refuse (s.wrs [(IMG_FUNC_ERR_GROUP, g), (IMG_FUNC_ERR_REG_OFS, ofs)]) 0x020B := by
  refine (if_neg (not_seqStart_refused hl hi ha)).trans ((if_neg (by simp [ht])).trans ?_)
  simp only [hb, startFailed]

end Starts

/-! ### The chain that a START begins (R19, R430, R431) -/

/-- Without a T0(0) to take, it is fixed here, passed on by a master, or asked for. -/
theorem startChain_own (s : State) :
    startChain s none =
      if cascRole s = 0 then s.sq fun q => { q with nextN := 0, nextT0 := firstT0 s }
      else if isMaster s = true then modeSend (s.sq fun q => { q with nextN := 0, nextT0 := firstT0 s }) 1 bcastAll [(firstT0 s).toNat]
      else modeSend (s.ps fun x => { x with joining := true }) 2 (s.pst.backup.getD (masterAddr s)) [] := rfl

/-- A device that is no master takes the T0(0) given. -/
theorem startChain_given {s : State} (x : Int) (h : isMaster s = false) :
    startChain s (some x) = s.sq fun q => { q with nextN := 0, nextT0 := x } :=
  if_neg (by rw [show isMaster (s.sq fun q => { q with nextN := 0, nextT0 := x }) = isMaster s from rfl, h]; exact Bool.false_ne_true)

/-- What a START that is made does with the chain, by whether an idle partner is told and whether this device is the master. -/
theorem startChains (s : State) (both : Bool) :
    (if (!both || isMaster s) = true then startChain s none
      else if masterAddr s = partnerAddr s then modeSend (startChain s (some (firstT0 s))) 1 (partnerAddr s) [(firstT0 s).toNat]
      else modeSend (startChain s none) 1 (partnerAddr s) []) =
    if both = true ∧ isMaster s = false then
      if masterAddr s = partnerAddr s then
        modeSend (s.sq fun q => { q with nextN := 0, nextT0 := firstT0 s }) 1 (partnerAddr s) [(firstT0 s).toNat]
      else modeSend (startChain s none) 1 (partnerAddr s) []
    else if cascRole s = 0 then s.sq fun q => { q with nextN := 0, nextT0 := firstT0 s }
    else if isMaster s = true then modeSend (s.sq fun q => { q with nextN := 0, nextT0 := firstT0 s }) 1 bcastAll [(firstT0 s).toNat]
    else modeSend (s.ps fun x => { x with joining := true }) 2 (s.pst.backup.getD (masterAddr s)) [] := by
  rw [← startChain_own]
  by_cases h : both = true ∧ isMaster s = false
  · rw [if_pos h, if_neg (by simp [h.1, h.2]), startChain_given _ h.2]
  · rw [if_neg h, if_pos (by cases both <;> simp_all)]

/-- A START that is made: the cold entry, the role, and the chain, which an idle partner is told of. -/
theorem seqStart_made {s : State} (hl : s.loaded = true) (hi : s.idle = true) (ha : cascRole s ≠ 5 ∨ s.red.activated = true)
    (ht : tagRefused s = false) (hb : startBad s = none) :
    seqStart s =
      let s1 := startRole (coldEntry s)
      if (isPair s && s.flag RED_STATUS_PAIRED && s.red.pState = 0) = true ∧ isMaster s1 = false then
        if masterAddr s1 = partnerAddr s1 then
          modeSend (s1.sq fun q => { q with nextN := 0, nextT0 := firstT0 s1 }) 1 (partnerAddr s1) [(firstT0 s1).toNat]
        else modeSend (startChain s1 none) 1 (partnerAddr s1) []
      else if cascRole s1 = 0 then s1.sq fun q => { q with nextN := 0, nextT0 := firstT0 s1 }
      else if isMaster s1 = true then modeSend (s1.sq fun q => { q with nextN := 0, nextT0 := firstT0 s1 }) 1 bcastAll [(firstT0 s1).toNat]
      else modeSend (s1.ps fun x => { x with joining := true }) 2 (s1.pst.backup.getD (masterAddr s1)) [] := by
  refine (if_neg (not_seqStart_refused hl hi ha)).trans ((if_neg (by simp [ht])).trans ?_)
  simp only [hb]
  exact startChains (startRole (coldEntry s)) _

/-- T0(0) two periods from the request, aligned where corrected time is known (R19). -/
theorem firstT0_eq (s : State) :
    firstT0 s = s.now + 2 * periodUnits s + (if s.rd TIM_QUAL_STATE = 0 then 0 else
      (s.rd SEQ_T0_PHASE_VALUE * usUnits - (s.now + 2 * periodUnits s)) % max 1 (periodUnits s)) := by
  simp only [firstT0]
  split
  · exact (add_zero _).symm
  · rfl

/-- The role that R394 gives at a START. -/
theorem startRole_eq (s : State) :
    startRole s =
      if isPair s = false then s
      else if s.rd RED_STATUS_PAIRED = 0 then s.wrs [(RED_STATUS_ROLE, 1), (RED_STATUS_PARTNER_OK, 0), (RED_STATUS_SYNC, 0)]
      else if s.red.pState = 0 then s.wrs [(RED_STATUS_ROLE, if ownAddr s < partnerAddr s then 1 else 2), (RED_STATUS_SYNC, 0)]
      else takeStandby ((if cascRole s = 1 ∧ s.pst.backup = none then s.ps fun x => { x with backup := some (partnerAddr s) } else s).rs fun x =>
        { x with gaveUp := false }) := by
  simp only [startRole, State.flag, pairLow, Bool.not_eq_true', decide_eq_false_iff_not, not_not, decide_eq_true_eq, Bool.and_eq_true,
    Option.isNone_iff_eq_none, ne_eq]

/-! ### HALT (R42, R467) -/

section Halt

variable {s : State}

theorem seqHalt_arming (h : s.rd SEQ_STATUS_STATE = 1) :
    seqHalt s = (s.ps fun x => { x with joining := false, joinAt := none }).wrs
      [(SEQ_STATUS_STATE, 0), (RST_PWR_STS_STATE, 1), (SEQ_STATUS_PHASE_WALK, 0)] :=
  if_pos h

theorem seqHalt_running (h : s.rd SEQ_STATUS_STATE = 2) : seqHalt s = canServices (s.wr SEQ_STATUS_STATE 3) :=
  (if_neg (by omega)).trans (if_pos h)

theorem seqHalt_elsewhere (h1 : s.rd SEQ_STATUS_STATE ≠ 1) (h2 : s.rd SEQ_STATUS_STATE ≠ 2) : seqHalt s = s :=
  (if_neg h1).trans (if_neg h2)

theorem exec_haltComplete_last (t : Nat) (h : s.rd SEQ_STATUS_STATE = 3) (hc : s.seq.cycs = []) :
    exec (.haltComplete t) s = .next (hstSettle ((s.at t).wrs [(IMG_FUNC_PEND_CORE, 0), (IMG_FUNC_PEND_CAN, 0), (IMG_FUNC_PEND_NET, 0),
      (SEQ_STATUS_STATE, 0), (RST_PWR_STS_STATE, 1), (SEQ_STATUS_PHASE_WALK, 0), (RED_STATUS_SENDING, 0)])) :=
  congrArg done (if_pos (by simp [h, hc]))

theorem exec_haltComplete_not (t : Nat) (h : s.rd SEQ_STATUS_STATE ≠ 3 ∨ s.seq.cycs ≠ []) :
    exec (.haltComplete t) s = .next (hstSettle (s.at t)) :=
  congrArg done (if_neg (by rcases h with h | h <;> simp [h]))

end Halt

/-! ### The arming of setpoints (R43, R44, R46, R385) -/

section Arming

variable {s : State} (p : Path) (on : Bool)

theorem spArm_device (hf : s.flag ERR_STATUS_FAIL_SILENT = false) (hn : s.isNode = false) : spArm s p on = s.wr SEQ_SP_CTRL_ARM (b2n on) := by
  simp [spArm, unlessSilent, hf, hn, State.wrb]

theorem spArm_node (hf : s.flag ERR_STATUS_FAIL_SILENT = false) (hn : s.isNode = true) : spArm s p on = refuse s 0x0205 := by
  simp [spArm, unlessSilent, hf, hn]

theorem spArm_silent (hf : s.flag ERR_STATUS_FAIL_SILENT = true) : spArm s p on = discard s p 0x50038 0x1205 :=
  if_pos hf

end Arming

/-! ### The commands where the path lets them through -/

section Commands

variable {s : State} {p : Path} (t : Nat)

theorem exec_seqStart_lets (h : s.lets p 0x50000) :
    exec (.seqStart p t) s = .next (hstSettle (runHeld (startWrite (s.taken p t)))) :=
  congrArg (fun x => done (runHeld x)) (hostDo_lets s p _ _ t _ h)

theorem exec_seqHalt_lets (h : s.lets p 0x50000) : exec (.seqHalt p t) s = .next (hstSettle (seqHalt (s.taken p t))) :=
  congrArg done (hostDo_lets s p _ _ t _ h)

theorem exec_spArm_lets (h : s.lets p 0x50038) : exec (.spArm p t) s = .next (hstSettle (spArm (s.taken p t) p true)) :=
  congrArg done (hostDo_lets s p _ _ t _ h)

theorem exec_spDisarm_lets (h : s.lets p 0x50038) : exec (.spDisarm p t) s = .next (hstSettle (spArm (s.taken p t) p false)) :=
  congrArg done (hostDo_lets s p _ _ t _ h)

end Commands

/-- Settles O30: START by the power state and by what stands against it, HALT by the sequencer's state, ARM by the device. -/
theorem startHaltAndSetpoints : Obligations.StartHaltAndSetpoints := by
  unfold Obligations.StartHaltAndSetpoints
  refine ⟨?_, firstT0_eq, startRole_eq, ?_, ?_, ?_⟩
  · intro s p t g ofs hg S ends both s1
    have ends_of {u v : State} (h : startWrite S = u) (huv : u = v) : ends v :=
      (exec_seqStart_lets t hg).trans (congrArg (fun x => done (runHeld x)) (h.trans huv))
    refine ⟨fun hw => ⟨fun hr => ?_, fun hl hi ha => ⟨fun ht => ?_, fun ht hb => ?_, fun ht hb => ?_⟩⟩, fun he => ?_, fun hd => ?_, fun hx => ?_⟩
    · exact ends_of (startWrite_awake (s := S) hw) (seqStart_refused (s := S) hr)
    · exact ends_of (startWrite_awake (s := S) hw) (seqStart_tagRefused (s := S) hl hi ha ht)
    · exact ends_of (startWrite_awake (s := S) hw) (seqStart_stagedBad (s := S) hl hi ha ht hb)
    · exact ends_of (startWrite_awake (s := S) hw) (seqStart_made (s := S) hl hi ha ht hb)
    · exact ends_of (startWrite_entering he) rfl
    · exact ends_of (startWrite_doze hd) rfl
    · exact ends_of (startWrite_leaving hx) rfl
  · intro s p t hg S
    have halts {u : State} (h : seqHalt S = u) : exec (.seqHalt p t) s = .next (hstSettle u) :=
      (exec_seqHalt_lets t hg).trans (congrArg done h)
    exact ⟨fun h => halts (seqHalt_arming h), fun h => halts (seqHalt_running h), fun h1 h2 => halts (seqHalt_elsewhere h1 h2)⟩
  · exact fun s t => ⟨exec_haltComplete_last t, exec_haltComplete_not t⟩
  · intro s p t hg S
    have arms {u w : State} (hu : spArm S p true = u) (hw : spArm S p false = w) :
        exec (.spArm p t) s = .next (hstSettle u) ∧ exec (.spDisarm p t) s = .next (hstSettle w) :=
      ⟨(exec_spArm_lets t hg).trans (congrArg done hu), (exec_spDisarm_lets t hg).trans (congrArg done hw)⟩
    exact ⟨fun hf hn => arms (spArm_device p true hf hn) (spArm_device p false hf hn),
      fun hf hn => arms (spArm_node p true hf hn) (spArm_node p false hf hn), fun hf => arms (spArm_silent p true hf) (spArm_silent p false hf)⟩

end Sys2Proof.Proofs
end

section
/-! PROOFS. O31: T0, the starts of stages and the failure sample of a cycle. -/

namespace Sys2Proof.Proofs

open Sys2Proof Sys2Proof.Machine Sys2Proof.Laws

/-! ### When T0 comes, and how the chain goes on (R20, R22, R28) -/

theorem t0Due_iff (s : State) : t0Due s = true ↔ ((s.rd SEQ_STATUS_STATE = 1 ∨ s.rd SEQ_STATUS_STATE = 2) ∧ s.flag ERR_STATUS_FAIL_SILENT = false
    ∧ s.pst.joining = false ∧ s.seq.nextT0 ≤ s.now ∧ s.seq.cycs.length < 2) := by
  simp only [t0Due, Bool.and_eq_true, Bool.or_eq_true, decide_eq_true_eq, Bool.not_eq_true', and_assoc]

/-- Not both branches of a test and its opposite. -/
theorem ite_bnot {α : Type} (b : Bool) (x y : α) : (if (!b) = true then x else y) = if b = true then y else x := by
  cases b <;> rfl

/-- The sample instant: RUN entered, the chain moved on, what T0 lets act, and then the latch of a device that computes. -/
theorem t0Now_eq (s : State) :
    let n := s.seq.nextN
    let x := s.seq.nextT0
    let r := enterRun s
    let s1 := (chainStep r.1).wrs [(SEQ_CYC_LO_CYC_LO, n), (SEQ_CYC_HI_CYC_HI, n / 2 ^ 32)]
    let s2 := armInjection (joinsAtT0 (alignAtT0 (masterAtT0 (roleAtT0 (groupsAtT0 s1 n)) n) n) n)
    let s3 := jnlMark (bankUse (takeHost (latchCyc s2 n x) n x)) n 0
    let s4 := match r.2, s3.jnlOf n with
      | true, some j => jnlPut s3 { j with flags := j.flags ||| 4 }
      | _, _ => s3
    t0Now s = if computes s2 then beginAgree s4 n else if isPair s2 then s2.wr RED_STATUS_SENDING 0 else s2 := by
  intro n x r s1 s2 s3 s4
  exact ite_bnot (computes s2) (if isPair s2 then s2.wr RED_STATUS_SENDING 0 else s2) (beginAgree s4 n)

section AtT0

variable {s : State} (t : Nat)

theorem exec_t0_notDue (h : t0Due (s.at t) = false) : exec (.t0 t) s = .next (hstSettle (s.at t)) :=
  congrArg done (if_neg (by rw [h]; exact Bool.false_ne_true))

theorem exec_t0_due (h : t0Due (s.at t) = true) :
    exec (.t0 t) s = .next (hstSettle (if (decide (s.rd SEQ_STATUS_STATE = 1) && (t0Now (s.at t)).rd SEQ_STATUS_STATE = 2 && clkSlow (t0Now (s.at t))) = true
      then classOther (t0Now (s.at t)) else t0Now (s.at t))) :=
  congrArg done (if_pos h)

/-- T0 of a machine that runs already. -/
theorem exec_t0_running (h : t0Due (s.at t) = true) (hs : s.rd SEQ_STATUS_STATE ≠ 1) :
    exec (.t0 t) s = .next (hstSettle (t0Now (s.at t))) :=
  (exec_t0_due t h).trans (congrArg done (if_neg (by simp [hs])))

/-- The first T0 enters RUN, which on a fallback clock is a class S fault (R455). -/
theorem exec_t0_arming (h : t0Due (s.at t) = true) (hs : s.rd SEQ_STATUS_STATE = 1) :
    exec (.t0 t) s = .next (hstSettle (if ((t0Now (s.at t)).rd SEQ_STATUS_STATE = 2 && clkSlow (t0Now (s.at t))) = true
      then classOther (t0Now (s.at t)) else t0Now (s.at t))) := by
  rw [exec_t0_due t h, decide_eq_true hs, Bool.true_and]

end AtT0

/-- The chain goes on by P and at most 1 µs of walk (R20). -/
theorem chainStep_eq (s : State) :
    let w := max (-usUnits) (min usUnits s.seq.walk)
    (chainStep s).seq.nextN = s.seq.nextN + 1 ∧ (chainStep s).seq.nextT0 = s.seq.nextT0 + periodUnits s + w ∧ (chainStep s).seq.walk = s.seq.walk - w
    ∧ (chainStep s).rd SEQ_STATUS_PHASE_WALK = (if w = 0 then 0 else 1) := by
  refine ⟨rfl, rfl, rfl, ?_⟩
  refine (rd_wr_same _ SEQ_STATUS_PHASE_WALK _ (by decide)).trans ?_
  by_cases hw : max (-usUnits) (min usUnits s.seq.walk) = 0
  · rw [if_pos hw, hw]; rfl
  · rw [if_neg hw, decide_eq_true hw]; rfl

/-! ### An armed set at its T0 (R43, R45) -/

section ArmedSet

variable {s : State} (n : Nat) (x : Int)

/-- The set is taken off ARM. -/
def disarmed (s : State) : State := s.wr SEQ_SP_CTRL_ARM 0

theorem disarmed_rd (s : State) (g : Fld) (h : g.key ≠ SEQ_SP_CTRL_ARM.key) : (disarmed s).rd g = s.rd g :=
  rd_wr_ne s _ g 0 h

theorem disarmed_rd_pend (s : State) (i : Nat) : (disarmed s).rd (SEQ_SP_PEND_VALUE i) = s.rd (SEQ_SP_PEND_VALUE i) :=
  disarmed_rd s _ (by simp only [SEQ_SP_PEND_VALUE, SEQ_SP_CTRL_ARM]; omega)

/-- The armed set as it becomes active. -/
def activeSet (s : State) (x : Int) : State :=
  (((disarmed s).wrs ((List.range 8).map fun i => (SEQ_SP_ACT_VALUE i, s.rd (SEQ_SP_PEND_VALUE i)))).wr SEQ_MODE_ACT_MODE
    (s.rd SEQ_MODE_REQ_MODE)).sq fun q => { q with spT0 := x }

theorem activeSet_pends_key {p : Fld × Nat} {v : Nat → Nat} (h : p ∈ (List.range 8).map fun i => (SEQ_SP_ACT_VALUE i, v i)) :
    0x280400 ≤ p.1.key ∧ p.1.key < 0x280500 := by
  obtain ⟨i, hi, rfl⟩ := List.mem_map.mp h
  have := List.mem_range.mp hi
  simp only [SEQ_SP_ACT_VALUE]
  omega

theorem sq_rd (s : State) (f : SeqSt → SeqSt) (g : Fld) : (s.sq f).rd g = s.rd g := rfl

/-- A field of another block reads as before the set became active. -/
theorem activeSet_rd (s : State) (x : Int) (g : Fld) (h : 0x280500 ≤ g.key) : (activeSet s x).rd g = s.rd g := by
  have harm : g.key ≠ SEQ_SP_CTRL_ARM.key := by simp only [SEQ_SP_CTRL_ARM]; omega
  have hmode : g.key ≠ SEQ_MODE_ACT_MODE.key := by simp only [SEQ_MODE_ACT_MODE]; omega
  rw [activeSet, sq_rd, rd_wr_ne _ _ g _ hmode, rd_wrs_ne _ _ g, disarmed_rd s g harm]
  intro p hp
  have := activeSet_pends_key hp
  omega

theorem pairOk_activeSet (s : State) (x : Int) : pairOk (activeSet s x) = pairOk s := by
  simp only [pairOk, State.flag, activeSet_rd s x RED_STATUS_PAIRED (by decide), activeSet_rd s x RED_STATUS_PARTNER_OK (by decide)]

theorem spTake_notArmed (h : s.flag SEQ_SP_CTRL_ARM = false) : spTake s n x = (s, false) :=
  if_pos (by simp [h])

theorem spCheck_disarmed (s : State) : spCheck (disarmed s) =
    if (5 < s.rd SEQ_MODE_REQ_MODE || !bit (s.rd SEQ_MODE_ACT_PERMIT) (s.rd SEQ_MODE_REQ_MODE)) = true then 0x0205
    else if ((modeWords (s.rd SEQ_MODE_REQ_MODE)).any fun i => !ffinite fmt32 (s.rd (SEQ_SP_PEND_VALUE i))) = true then 0x0207 else 0 := by
  simp only [spCheck, disarmed_rd_pend, disarmed_rd s SEQ_MODE_REQ_MODE (by decide), disarmed_rd s SEQ_MODE_ACT_PERMIT (by decide)]

/-- A set that is not in order is refused with its code. -/
theorem spTake_refused (ha : s.flag SEQ_SP_CTRL_ARM = true) {code : Nat} (hc : spCheck (disarmed s) = code) (h0 : code ≠ 0) :
    spTake s n x = (reportCyc ((disarmed s).wr SEQ_SP_CTRL_REFUSED 1) n code, false) := by
  subst hc
  exact (if_neg (by simp [ha])).trans (if_pos h0)

/-- A set in order becomes active; in Pairs SP_TAKEN waits for agreement (R395). -/
theorem spTake_taken (ha : s.flag SEQ_SP_CTRL_ARM = true) (hc : spCheck (disarmed s) = 0) :
    spTake s n x = (if pairOk s then activeSet s x else (activeSet s x).wr SEQ_SP_TAKEN_TAKEN n, true) := by
  have hmode (v : Nat → Nat) : ((disarmed s).wrs ((List.range 8).map fun i => (SEQ_SP_ACT_VALUE i, v i))).rd SEQ_MODE_REQ_MODE
      = s.rd SEQ_MODE_REQ_MODE := by
    refine (rd_wrs_ne _ _ _ fun p hp => ?_).trans (disarmed_rd s _ (by decide))
    have := activeSet_pends_key hp
    have hk : SEQ_MODE_REQ_MODE.key = 0x280180 := rfl
    omega
  refine (if_neg (by simp [ha])).trans ((if_neg (not_not.mpr hc)).trans ?_)
  have hpend : (fun i => (SEQ_SP_ACT_VALUE i, (disarmed s).rd (SEQ_SP_PEND_VALUE i))) = fun i => (SEQ_SP_ACT_VALUE i, s.rd (SEQ_SP_PEND_VALUE i)) :=
    funext fun i => by rw [disarmed_rd_pend]
  rw [← pairOk_activeSet s x, ← disarmed, hpend, activeSet, ← hmode fun i => s.rd (SEQ_SP_PEND_VALUE i)]

end ArmedSet

/-! ### T0 of a device that stands alone and to which nothing is pending -/

section Alone

variable {s : State} (n : Nat)

theorem stopGroup_noPend (g : Nat) (h : pendBits s = 0) : stopGroup s g = s :=
  if_neg (by simp [h])

theorem takeStops_noPend (h : pendBits s = 0) : takeStops s = s := by
  have hs : ({ s with img := { s.img with taken := s.img.taken ||| pendBits s } } : State) = s := by rw [h, Nat.or_zero]
  rw [takeStops, hs]
  exact List.foldl_fixed' (fun g => stopGroup_noPend g h) _

theorem takeRestarts_none (h : s.img.restart = 0) : takeRestarts s n = s := by
  unfold takeRestarts
  refine List.foldl_fixed' (fun g => ?_) _
  rw [h, bit_zero, Bool.not_false, if_pos rfl]

/-- Without a held change, a restart or a stop, T0 lets every group go on. -/
theorem groupsAtT0_quiet (hh : s.pst.held = none) (hr : s.img.restart = 0) (hp : pendBits s = 0) (hi : isPair s = false) : groupsAtT0 s n = s := by
  have hd : devAtT0 s n = s := by simp only [devAtT0, hh]
  have hm : mcAck s = s := by simp only [mcAck, hh]
  simp only [groupsAtT0, hd, takeRestarts_none n hr, hi, Bool.false_and, Bool.false_eq_true, if_false, takeStops_noPend hp, hm]

theorem roleAtT0_quiet (hs : s.red.stop = false) (hd : s.red.standDown = false) (hp : s.red.promote = false) : roleAtT0 s = s := by
  simp only [roleAtT0, hs, hd, hp, Bool.false_and, Bool.false_eq_true, if_false]

theorem masterAtT0_quiet (h : s.pst.master = none) : masterAtT0 s n = s := by
  simp only [masterAtT0, h]

theorem alignAtT0_standalone (h : cascRole s = 0) : alignAtT0 s n = s :=
  if_pos (by simp [h])

theorem joinsAtT0_quiet (h : s.pst.joins = []) : joinsAtT0 s n = s := by
  have hs : ({ s with pst := { s.pst with joins := [] } } : State) = s := by rw [← h]
  simp only [joinsAtT0, h]
  exact hs

theorem armInjection_quiet (h : s.flag ERR_INJ_ARM = false) : armInjection s = s :=
  if_neg (by simp [h])

theorem enterRun_running (h : s.rd SEQ_STATUS_STATE = 2) : enterRun s = (s, false) :=
  if_pos (by omega)

end Alone

/-! ### What the latch, the host's inputs and the journal leave of the flight

At T0 of a device that stands alone, agreement is settled at once: its partner is not paired, and the cycle just latched has not agreed. Both
facts hold from the latch on. -/

/-- The two states pair alike, and the same cycles are in flight with the same runs. -/
def SameFlight (s t : State) : Prop := t.rd RED_STATUS_PAIRED = s.rd RED_STATUS_PAIRED ∧ flightRuns t = flightRuns s

theorem SameFlight.refl (s : State) : SameFlight s s := ⟨rfl, rfl⟩

theorem SameFlight.trans {s t u : State} (h : SameFlight s t) (k : SameFlight t u) : SameFlight s u :=
  ⟨k.1.trans h.1, k.2.trans h.2⟩

theorem sameFlight_wr (s : State) (f : Fld) (v : Nat) (h : RED_STATUS_PAIRED.key ≠ f.key) : SameFlight s (s.wr f v) :=
  ⟨rd_wr_ne s f _ v h, rfl⟩

theorem sameFlight_wrs (s : State) (l : List (Fld × Nat)) (h : ∀ p ∈ l, RED_STATUS_PAIRED.key ≠ p.1.key) : SameFlight s (s.wrs l) :=
  ⟨rd_wrs_ne s l _ h, flightRuns_congr (by rw [wrs_seq])⟩

theorem sameFlight_report (s : State) (c u d : Nat) (h : RED_STATUS_PAIRED.key ∉ reportKeys c u) : SameFlight s (report s c u d) :=
  ⟨report_rd s c u d _ h, flightRuns_congr (by rw [report_seq])⟩

theorem sameFlight_reportCyc (s : State) (n c u d i : Nat) (h : RED_STATUS_PAIRED.key ∉ reportKeys c u) :
    SameFlight s (reportCyc s n c u d i) :=
  ⟨reportCyc_rd s n c u d i _ h, flightRuns_reportCyc s n c u d i⟩

/-- An armed set in order becomes active. -/
theorem sameFlight_activeSet (s : State) (x : Int) : SameFlight s (activeSet s x) :=
  ⟨activeSet_rd s x _ (by decide), flightRuns_congr (by rw [activeSet, State.sq, wr_seq, wrs_seq]; rfl)⟩

/-- The armed set is refused or taken. -/
theorem sameFlight_spTake (s : State) (n : Nat) (x : Int) : SameFlight s (spTake s n x).1 := by
  have hrefused (code : Nat) (hk : RED_STATUS_PAIRED.key ∉ reportKeys code 0) :
      SameFlight s (reportCyc ((disarmed s).wr SEQ_SP_CTRL_REFUSED 1) n code) :=
    (sameFlight_wr s SEQ_SP_CTRL_ARM 0 (by decide)).trans ((sameFlight_wr _ _ _ (by decide)).trans (sameFlight_reportCyc _ _ _ _ _ _ hk))
  cases ha : s.flag SEQ_SP_CTRL_ARM with
  | false => rw [spTake_notArmed n x ha]; exact .refl s
  | true =>
    have hcheck := spCheck_disarmed s
    split_ifs at hcheck
    · rw [spTake_refused n x ha hcheck (by decide)]; exact hrefused _ (by decide)
    · rw [spTake_refused n x ha hcheck (by decide)]; exact hrefused _ (by decide)
    · rw [spTake_taken n x ha hcheck]
      split_ifs
      · exact sameFlight_activeSet s x
      · exact (sameFlight_activeSet s x).trans (sameFlight_wr _ _ _ (by decide))

/-- A pending bank swap is made, refused or discarded. -/
theorem sameFlight_bankTake (s : State) (n : Nat) : SameFlight s (bankTake s n).1 := by
  have hpend : SameFlight s (s.wr OCE_BANK_STS_SWAP_PEND 0) := sameFlight_wr _ _ _ (by decide)
  simp only [bankTake]
  split_ifs
  · exact hpend.trans (sameFlight_reportCyc _ _ _ _ _ _ (by decide))
  · exact hpend.trans (sameFlight_reportCyc _ _ _ _ _ _ (by decide))
  · exact hpend.trans ((sameFlight_wr _ _ _ (by decide)).trans (sameFlight_reportCyc _ _ _ _ _ _ (by decide)))

theorem sameFlight_swapDrop (s : State) : SameFlight s (swapDrop s) := by
  simp only [swapDrop]
  split_ifs
  · exact (sameFlight_wr _ _ _ (by decide)).trans (sameFlight_report _ _ _ _ (by decide))
  · exact .refl s

theorem sameFlight_takeHost (s : State) (n : Nat) (x : Int) : SameFlight s (takeHost s n x) := by
  have hswap (u : State) : SameFlight u
      (if (!u.flag OCE_BANK_STS_SWAP_PEND) = true then (u, false) else if groupRuns u 1 = true then bankTake u n else (swapDrop u, false)).1 := by
    split_ifs
    · exact .refl u
    · exact sameFlight_bankTake u n
    · exact sameFlight_swapDrop u
  exact (sameFlight_spTake s n x).trans ((hswap _).trans ⟨rfl, flightRuns_updCyc _ _ _ (fun _ => rfl) fun _ => rfl⟩)

theorem sameFlight_bankUse (s : State) : SameFlight s (bankUse s) :=
  (sameFlight_wr s (bankInUse 0) _ (by decide)).trans (sameFlight_wr _ (bankInUse 1) _ (by decide))

/-- The journal takes a record. -/
theorem sameFlight_jnlPut (s : State) (r : JnlRec) : SameFlight s (jnlPut s r) := by
  have hcount (u : State) : SameFlight u (jnlCount u) := sameFlight_wr _ _ _ (by decide)
  have hgap (u : State) : SameFlight u (u.incSat JNL_CNT_MIRROR_GAP 255) := sameFlight_wr _ _ _ (by decide)
  have hrep (u : State) : SameFlight u (report u 0x0C05) := sameFlight_report _ _ _ _ (by decide)
  have hring (u : State) (j : JnlSt) : SameFlight u { u with jnl := j } := ⟨rfl, rfl⟩
  have hhead (u : State) : SameFlight u (if r.final then u.wr JNL_HEAD_CYC r.n else u) := by
    split_ifs
    · exact sameFlight_wr _ _ _ (by decide)
    · exact .refl u
  simp only [jnlPut]
  refine SameFlight.trans ?_ ((hhead _).trans (hcount _))
  split_ifs
  · exact (hring s _).trans ((hgap _).trans (hring _ _))
  · exact (hring s _).trans ((hgap _).trans ((hring _ _).trans (hrep _)))
  · exact hring s _

theorem sameFlight_jnlMark (s : State) (n status : Nat) : SameFlight s (jnlMark s n status) := by
  simp only [jnlMark]
  split
  · exact sameFlight_jnlPut s _
  · exact .refl s

/-! ### Agreement of a device without a paired partner (R395, R401) -/

/-- Without a pairing nothing is sent, and agreement of a cycle that has not agreed is settled at once. -/
theorem beginAgree_unpaired {s : State} {n : Nat} {c : Cyc} (hp : s.flag RED_STATUS_PAIRED = false) (hc : s.cyc? n = some c)
    (ha : c.run.agreed = false) : beginAgree s n = settleAgree s n false false := by
  have hsend (l : List AgreeBlk) : l.foldl (fun s b => sendBlock s n b) s = s :=
    List.foldl_fixed' (fun b => if_neg (by simp [hp])) l
  have hin : partnerIn s n = false := by simp only [partnerIn, pairOk, hp, Bool.false_and]
  simp only [beginAgree, hc, hsend, agreeTry, ha, hin, Bool.false_eq_true, if_false, Bool.not_false, if_true]

/-- The latch puts its cycle behind those in flight; the cycle has not agreed. -/
theorem latchCyc_cycs (s : State) (n : Nat) (x : Int) :
    ∃ c, (latchCyc s n x).seq.cycs = s.seq.cycs ++ [c] ∧ c.n = n ∧ c.run.agreed = false := by
  simp only [latchCyc]
  split
  · exact ⟨_, rfl, rfl, rfl⟩
  · exact ⟨_, rfl, rfl, rfl⟩

theorem latchCyc_cyc? {s : State} {n : Nat} (x : Int) (hn : ∀ c ∈ s.seq.cycs, c.n ≠ n) :
    ∃ c, (latchCyc s n x).cyc? n = some c ∧ c.run.agreed = false := by
  obtain ⟨c, hcycs, hcn, hca⟩ := latchCyc_cycs s n x
  have hold : (s.seq.cycs.find? fun c => decide (c.n = n)) = none := by
    simpa using hn
  exact ⟨c, by simp [State.cyc?, hcycs, List.find?_append, hold, hcn], hca⟩

theorem latchCyc_paired {s : State} (n : Nat) (x : Int) (hi : isPair s = false) :
    (latchCyc s n x).rd RED_STATUS_PAIRED = s.rd RED_STATUS_PAIRED := by
  simp only [latchCyc, hi, Bool.false_eq_true, if_false]
  rfl

/-- A cycle found in the one of two states that differ in no run is found in the other with the same run. -/
theorem SameFlight.cyc? {s t : State} {n : Nat} {c : Cyc} (h : SameFlight s t) (hc : s.cyc? n = some c) :
    ∃ d, t.cyc? n = some d ∧ d.run = c.run := by
  have hrun := cyc?_run t n
  rw [h.2, ← cyc?_run, hc, Option.map_some, Option.map_eq_some_iff] at hrun
  exact hrun

/-- The chain goes on, and CYC shows the number of the cycle that T0 begins. -/
def chained (s : State) : State := (chainStep s).wrs [(SEQ_CYC_LO_CYC_LO, s.seq.nextN), (SEQ_CYC_HI_CYC_HI, s.seq.nextN / 2 ^ 32)]

/-- Of the registers PHASE_WALK and CYC alone change with the chain. -/
theorem chained_rd (s : State) (g : Fld) (h : g.key ∉ [SEQ_STATUS_PHASE_WALK, SEQ_CYC_LO_CYC_LO, SEQ_CYC_HI_CYC_HI].map (·.key)) :
    (chained s).rd g = s.rd g := by
  simp only [List.map_cons, List.map_nil, List.mem_cons, List.not_mem_nil, or_false, not_or] at h
  obtain ⟨hw, hlo, hhi⟩ := h
  exact (rd_wr_ne _ _ g _ hhi).trans ((rd_wr_ne _ _ g _ hlo).trans (rd_wr_ne _ _ g _ hw))

theorem chained_flag (s : State) (g : Fld) (h : g.key ∉ [SEQ_STATUS_PHASE_WALK, SEQ_CYC_LO_CYC_LO, SEQ_CYC_HI_CYC_HI].map (·.key)) :
    (chained s).flag g = s.flag g := by
  simp only [State.flag, chained_rd s g h]

theorem chained_img (s : State) : (chained s).img = s.img := by rw [chained, wrs_img]; rfl

theorem chained_pst (s : State) : (chained s).pst = s.pst := by rw [chained, wrs_pst]; rfl

theorem chained_red (s : State) : (chained s).red = s.red := by rw [chained, wrs_red]; rfl

theorem chained_cycs (s : State) : (chained s).seq.cycs = s.seq.cycs := by rw [chained, wrs_seq]; rfl

/-- The device stands alone, has no partner, and nothing waits for its next T0. -/
structure StandsAlone (s : State) : Prop where
  role : cascRole s = 0
  pair : isPair s = false
  pend : pendBits s = 0
  restart : s.img.restart = 0
  held : s.pst.held = none
  master : s.pst.master = none
  joins : s.pst.joins = []
  stop : s.red.stop = false
  standDown : s.red.standDown = false
  promote : s.red.promote = false
  inj : s.flag ERR_INJ_ARM = false
  computing : s.rd RED_STATUS_ROLE ≠ 3
  paired : s.flag RED_STATUS_PAIRED = false

theorem StandsAlone.chained {s : State} (h : StandsAlone s) : StandsAlone (chained s) where
  role := (chained_rd s PST_CFG_ROLE (by decide)).trans h.role
  pair := by
    have := h.pair
    rwa [isPair, ← chained_flag s PST_CFG_PAIRS (by decide), ← chained_red] at this
  pend := by
    have := h.pend
    rwa [pendBits, ← chained_rd s IMG_FUNC_PEND_CORE (by decide), ← chained_rd s IMG_FUNC_PEND_CAN (by decide),
      ← chained_rd s IMG_FUNC_PEND_NET (by decide)] at this
  restart := by rw [chained_img, h.restart]
  held := by rw [chained_pst, h.held]
  master := by rw [chained_pst, h.master]
  joins := by rw [chained_pst, h.joins]
  stop := by rw [chained_red, h.stop]
  standDown := by rw [chained_red, h.standDown]
  promote := by rw [chained_red, h.promote]
  inj := (chained_flag s ERR_INJ_ARM (by decide)).trans h.inj
  computing := by rw [chained_rd s RED_STATUS_ROLE (by decide)]; exact h.computing
  paired := (chained_flag s RED_STATUS_PAIRED (by decide)).trans h.paired

/-- What a T0 lets act on such a device changes nothing. -/
theorem StandsAlone.acts {s : State} (h : StandsAlone s) (n : Nat) :
    armInjection (joinsAtT0 (alignAtT0 (masterAtT0 (roleAtT0 (groupsAtT0 s n)) n) n) n) = s := by
  rw [groupsAtT0_quiet n h.held h.restart h.pend h.pair, roleAtT0_quiet h.stop h.standDown h.promote, masterAtT0_quiet n h.master,
    alignAtT0_standalone n h.role, joinsAtT0_quiet n h.joins, armInjection_quiet h.inj]

theorem StandsAlone.computes {s : State} (h : StandsAlone s) : computes s = true := by
  simp [Machine.computes, h.computing]

/-- On such a device agreement of the cycle latched at this T0 is settled at once. -/
theorem StandsAlone.beginAgree_latched {s : State} (h : StandsAlone s) {n : Nat} (x : Int) (hn : ∀ c ∈ s.seq.cycs, c.n ≠ n) :
    beginAgree (jnlMark (bankUse (takeHost (latchCyc s n x) n x)) n 0) n
      = settleAgree (jnlMark (bankUse (takeHost (latchCyc s n x) n x)) n 0) n false false := by
  have hsame : SameFlight (latchCyc s n x) (jnlMark (bankUse (takeHost (latchCyc s n x) n x)) n 0) :=
    (sameFlight_takeHost _ n x).trans ((sameFlight_bankUse _).trans (sameFlight_jnlMark _ n 0))
  obtain ⟨c, hc, hca⟩ := latchCyc_cyc? x hn
  obtain ⟨d, hd, hdc⟩ := hsame.cyc? hc
  have hrd := hsame.1.trans (latchCyc_paired n x h.pair)
  refine beginAgree_unpaired ?_ hd (hdc ▸ hca)
  rw [State.flag, hrd]
  exact h.paired

/-- T0 of a machine that runs and computes: the latch, the host's inputs, the record, and the begin of agreement. -/
theorem t0Now_running {s u : State} (hrun : s.rd SEQ_STATUS_STATE = 2)
    (hu : armInjection (joinsAtT0 (alignAtT0 (masterAtT0 (roleAtT0 (groupsAtT0 (chained s) s.seq.nextN)) s.seq.nextN) s.seq.nextN) s.seq.nextN) = u)
    (hc : computes u = true) :
    t0Now s = beginAgree (jnlMark (bankUse (takeHost (latchCyc u s.seq.nextN s.seq.nextT0) s.seq.nextN s.seq.nextT0)) s.seq.nextN 0) s.seq.nextN := by
  have h := t0Now_eq s
  simp only [enterRun_running hrun] at h
  rw [← chained, hu, if_pos hc] at h
  exact h

/-- T0 of a device that stands alone: the latch, the host's inputs, the record, and agreement settled. -/
theorem t0Now_alone {s : State} (h : StandsAlone s) (hrun : s.rd SEQ_STATUS_STATE = 2) (hn : ∀ c ∈ s.seq.cycs, c.n ≠ s.seq.nextN) :
    t0Now s = settleAgree (jnlMark (bankUse (takeHost (latchCyc (chained s) s.seq.nextN s.seq.nextT0) s.seq.nextN s.seq.nextT0)) s.seq.nextN 0)
      s.seq.nextN false false := by
  rw [t0Now_running hrun (h.chained.acts _) h.chained.computes]
  exact h.chained.beginAgree_latched _ (by rw [chained_cycs]; exact hn)

/-! ### Stages start (R25) -/

section StageStart

variable {s : State} {n k : Nat} (t : Nat) {c : Cyc}

theorem exec_stageStart_not (h : ∀ c ∈ s.cyc? n, mayStart (s.at t) c k = false) : exec (.stageStart n k t) s = .next (hstSettle (s.at t)) := by
  refine congrArg done ?_
  simp only [at_cyc?]
  split
  · next c hc => rw [h c hc, if_neg Bool.false_ne_true]
  · rfl

theorem exec_stageStart_may (hc : s.cyc? n = some c) (h : mayStart (s.at t) c k = true) :
    exec (.stageStart n k t) s = .next (hstSettle (startStage (s.at t) c k)) := by
  refine congrArg done ?_
  simp only [at_cyc?, hc, h, if_true]

end StageStart

/-- The cycle's stage runs from now on, with the snapshot of what it starts from (R376). -/
def begunStage (s : State) (c : Cyc) (k : Nat) : State :=
  updCyc s c.n fun c => { c with
    run := { c.run with stage := k, running := true, began := s.tim.cnt }
    snap := if k = 2 then { c.snap with ch := chansBefore s c } else if k = 3 then { c.snap with ref := refBefore s c }
      else if k = 4 then { c.snap with oce := s.oce } else c.snap }

section StartStage

variable (s : State) (c : Cyc)

theorem startStage_plain {k : Nat} (h : k = 3 ∨ k = 5 ∨ k = 7 ∨ k = 9) : startStage s c k = begunStage s c k := by
  have h2 : k ≠ 2 := by omega
  have h4 : k ≠ 4 := by omega
  have h6 : k ≠ 6 := by omega
  exact (if_neg h2).trans ((if_neg h4).trans (if_neg h6))

theorem startStage_two : startStage s c 2 = moveSamples (begunStage s c 2) c.n := rfl

theorem startStage_four : startStage s c 4 = adoptLate (begunStage s c 4) c.n (kC s.regs) := rfl

theorem startStage_six : startStage s c 6 = startSix (adoptLate (begunStage s c 6) c.n (s.rd SLV_SEL_TIMING_K_S)) c := rfl

end StartStage

/-! ### The failure sample (R214) -/

section FailureSample

variable {s : State} {n : Nat} (t : Nat) {c : Cyc}

/-- T_S of a cycle on the device's counter. -/
def sampleDueAt (s : State) (c : Cyc) : Nat := dueAt s c (s.rd SEQ_COMMIT_OFS_VALUE - s.rd SLV_SEL_TIMING_SEL_LEAD)

theorem exec_failureSample_due (hc : s.cyc? n = some c) (hm : c.missed = false) (hk : c.committed = false) (hs : sampled c = false)
    (hf : s.flag ERR_STATUS_FAIL_SILENT = false) (hd : sampleDueAt s c ≤ max s.tim.cnt t) :
    exec (.failureSample n t) s = .next (hstSettle (failSample (s.at t) c)) := by
  refine congrArg done ?_
  simp only [at_cyc?, hc]
  refine if_neg ?_
  simp only [hm, hk, hs, show (s.at t).flag ERR_STATUS_FAIL_SILENT = false from hf, Bool.or_self, Bool.false_or, decide_eq_true_eq]
  exact not_lt.mpr hd

theorem exec_failureSample_not (hc : s.cyc? n = some c) (h : c.missed = true ∨ c.committed = true ∨ sampled c = true
      ∨ s.flag ERR_STATUS_FAIL_SILENT = true ∨ max s.tim.cnt t < sampleDueAt s c) :
    exec (.failureSample n t) s = .next (hstSettle (s.at t)) := by
  refine congrArg done ?_
  simp only [at_cyc?, hc]
  refine if_pos ?_
  simp only [Bool.or_eq_true, decide_eq_true_eq, or_assoc]
  exact h

theorem exec_failureSample_none (hc : s.cyc? n = none) : exec (.failureSample n t) s = .next (hstSettle (s.at t)) := by
  refine congrArg done ?_
  simp only [at_cyc?, hc]

end FailureSample

/-- Settles O31: T0 by the sequencer's state, the armed set by what is wrong with it, a stage by its number, the sample by its instant. -/
theorem t0StagesAndSample : Obligations.T0StagesAndSample := by
  unfold Obligations.T0StagesAndSample
  refine ⟨?_, t0Due_iff, ?_, chainStep_eq, ?_, ?_, ?_, ?_⟩
  · intro s t n x r s1 s2 s3 s4 s5
    have h5 : t0Now (s.at t) = s5 := t0Now_eq (s.at t)
    refine ⟨fun hd => ⟨fun hs => ?_, fun hs => ?_⟩, exec_t0_notDue t⟩
    · rw [exec_t0_running t hd hs, h5]
    · rw [exec_t0_arming t hd hs, h5]
  · intro s t hrun hf hj hdue hlen hrole hpair hpend hrestart hheld hmaster hjoins hstop hdown hprom hinj hrr hpaired hnew n x s1
    have halone : StandsAlone (s.at t) := ⟨hrole, hpair, hpend, hrestart, hheld, hmaster, hjoins, hstop, hdown, hprom, hinj, hrr, hpaired⟩
    have hd : t0Due (s.at t) = true := (t0Due_iff _).mpr ⟨.inr hrun, hf, hj, hdue, hlen⟩
    have hnow : t0Now (s.at t) = settleAgree (jnlMark (bankUse (takeHost (latchCyc s1 n x) n x)) n 0) n false false :=
      t0Now_alone halone hrun hnew
    rw [exec_t0_running t hd (by omega), hnow]
  · intro s n x m s1
    refine ⟨spTake_notArmed n x, fun ha hm => ?_, fun ha hm hp => ?_⟩
    · refine spTake_refused n x ha ((spCheck_disarmed s).trans (if_pos ?_)) (by decide)
      rcases hm with hm | hm
      · simp [show 5 < s.rd SEQ_MODE_REQ_MODE from hm]
      · simp [show bit (s.rd SEQ_MODE_ACT_PERMIT) (s.rd SEQ_MODE_REQ_MODE) = false from hm]
    · intro bad s2
      have hmode : ¬ (5 < s.rd SEQ_MODE_REQ_MODE || !bit (s.rd SEQ_MODE_ACT_PERMIT) (s.rd SEQ_MODE_REQ_MODE)) = true := by
        simp [show bit (s.rd SEQ_MODE_ACT_PERMIT) (s.rd SEQ_MODE_REQ_MODE) = true from hp, show s.rd SEQ_MODE_REQ_MODE ≤ 5 from hm]
      exact ⟨fun hb => spTake_refused n x ha ((spCheck_disarmed s).trans ((if_neg hmode).trans (if_pos hb))) (by decide),
        fun hb => spTake_taken n x ha ((spCheck_disarmed s).trans ((if_neg hmode).trans (if_neg (ne_true_of_eq_false hb))))⟩
  · exact fun s n k t => exec_stageStart_not t
  · intro s n k t c hc hm s1
    obtain rfl := n_of_cyc? hc
    have starts {u : State} (h : startStage (s.at t) c k = u) : exec (.stageStart c.n k t) s = .next (hstSettle u) :=
      (exec_stageStart_may t hc hm).trans (congrArg done h)
    refine ⟨fun hk => starts (startStage_plain _ c hk), fun hk => ?_, fun hk => ?_, fun hk => ?_⟩
    · subst hk; exact starts (startStage_two (s.at t) c)
    · subst hk; exact starts (startStage_four (s.at t) c)
    · subst hk; exact starts (startStage_six (s.at t) c)
  · exact fun s n t c => ⟨exec_failureSample_due t, exec_failureSample_not t, exec_failureSample_none t⟩

end Sys2Proof.Proofs
end

section
/-! PROOFS. O32, refuted: where a stage 7 ends, the verdicts formed are those of the cycle in flight (R223), whereas the statement takes them from
any cycle record that bears the same number. -/

namespace Sys2Proof.Proofs

open Sys2Proof Sys2Proof.Machine Sys2Proof.Laws

/-- Cycle 5 as just latched, with the given lane jobs. -/
def cycleFive (jobs : List Job) : Cyc :=
  { cycOf State.reset 5 0 ⟨0, [], 1, [], 0, 0, [], false, false, false, 0, 0, 0, [], [], [], []⟩ with out := { cycOut0 with jobs := jobs } }

/-- The job of scenario 0 on lane 4, which has ended INFEASIBLE. -/
def scenarioJob : Job :=
  ⟨4, 0, 1, 0, false, false, 1, 0, 5, 0, ⟨0, 0, 0, [], [], [], [], [], [], [], [], [], [], 0⟩, LsProb.none, [], some 0, some (emptyRes 2)⟩

/-- A machine with one scenario and cycle 5 in flight, whose job for that scenario has ended. -/
def endedFive : State :=
  { State.reset with
    seq := { SeqSt.reset with cycs := [cycleFive [scenarioJob]] }
    img := { ImgSt.reset with secs := [⟨8, 0, [1, 0]⟩] } }

/-- The classes of the outcomes that the verdicts of cycle 5 carry. -/
def fiveClasses (s : State) : Option (List Nat) := (s.cyc? 5).map fun c => c.out.verdicts.map (·.cls)

/-- The model reads the job of the cycle in flight: class 2, INFEASIBLE. -/
theorem endSeven_fiveClasses : fiveClasses (endSeven endedFive (cycleFive [])) = some [2] := by decide +kernel

/-- The state that the statement gives reads the record it was handed, which holds no job: class 4, NOT_RUN. -/
theorem stated_fiveClasses :
    fiveClasses (sendTables
      (jnlMark (updCyc endedFive 5 fun x =>
        { x with out := { x.out with verdicts := verdictsOf endedFive (cycleFive []) }, run := { x.run with ready := true } }) 5 1)
      (((updCyc endedFive 5 fun x =>
        { x with out := { x.out with verdicts := verdictsOf endedFive (cycleFive []) }, run := { x.run with ready := true } }).cyc? 5).getD
        (cycleFive []))) = some [4] := by
  decide +kernel

/-- Refutes O32: its equation for the end of stage 7 is stated of every cycle record `c`, and forms the verdicts from `c`. With cycle 5 in flight,
its job for the one scenario ended INFEASIBLE, and the record of a cycle 5 without jobs for `c`, the model gives the verdict class 2 and the
statement class 4. -/
theorem not_stagesEndAndCyclesCommitOrMiss : ¬ Obligations.StagesEndAndCyclesCommitOrMiss := by
  unfold Obligations.StagesEndAndCyclesCommitOrMiss
  rintro ⟨-, hseven, -⟩
  obtain ⟨-, hends⟩ := hseven endedFive (cycleFive []) 7
  have hclasses : some [2] = some [4] := endSeven_fiveClasses.symm.trans ((congrArg fiveClasses hends).trans stated_fiveClasses)
  exact absurd hclasses (by decide)

end Sys2Proof.Proofs
end

section
/-! PROOFS. O44: lane jobs start, end and meet their deadlines, and the check faults of lanes, observer and filters. -/

namespace Sys2Proof.Proofs

open Sys2Proof Sys2Proof.Machine Sys2Proof.Laws

@[simp] theorem at_jobAt (s : State) (t lane j n : Nat) : jobAt (s.at t) lane j n = jobAt s lane j n := rfl

/-! ### The start of a job (R235) -/

/-- The lane runs a job, or has an earlier one of the cycle to end first. -/
def laneBusy (s : State) (lane j n : Nat) : Bool :=
  (laneJobs s lane).any fun x => x.res.isNone && (x.started.isSome || (x.cyc = n && x.j < j))

/-- Nothing keeps the job back. -/
def jobGoes (s : State) (q : Job) (lane j n t : Nat) : Bool :=
  q.started.isNone && !laneBusy s lane j n && lane < 64 && !laneFenced s lane && !s.flag ERR_STATUS_FAIL_SILENT && max s.tim.cnt t ≤ q.deadline

/-- With no injection armed none strikes. -/
theorem takeInjection_none {s : State} (unit index : Nat) (h : s.err.inj = none) : takeInjection s unit index = (none, s) := by
  simp only [takeInjection, h]

/-- Starting a job and staging its data leave fault handling as it was. -/
theorem stageJob_putStart_err (s : State) (q x : Job) : (stageJob (putStart s q) x).err = s.err := rfl

/-- The model tests the opposite. -/
theorem jobGoes_eq (s : State) (q : Job) (lane j n t : Nat) :
    jobGoes s q lane j n t = !(q.started.isSome || laneBusy s lane j n || decide (64 ≤ lane) || laneFenced s lane || s.flag ERR_STATUS_FAIL_SILENT
      || decide (q.deadline < max s.tim.cnt t)) := by
  simp only [jobGoes, Bool.not_or, Option.not_isSome, ← decide_not, not_lt, not_le]

section JobStart

variable {s : State} {lane j n : Nat} (t : Nat) {q : Job}

theorem exec_laneJobStart_none (hq : jobAt s lane j n = none) : exec (.laneJobStart lane j n t) s = .next (hstSettle (s.at t)) := by
  refine congrArg done ?_
  simp only [at_jobAt, hq]

/-- The command by whether the job goes. -/
theorem exec_laneJobStart_eq (hi : s.err.inj = none) (hq : jobAt s lane j n = some q) :
    exec (.laneJobStart lane j n t) s = .next (hstSettle (
      if jobGoes s q lane j n t = true then
        if descBad q = true then laneFault (stageJob (putStart (s.at t) q) q) { q with started := some (max s.tim.cnt t) } 12 0 false
        else stageJob (putStart (s.at t) q) q
      else s.at t)) := by
  refine congrArg done ?_
  have hinj : takeInjection (stageJob (putStart (s.at t) q) q) 1 lane = (none, stageJob (putStart (s.at t) q) q) :=
    takeInjection_none 1 lane hi
  simp only [at_jobAt, hq, hinj]
  rw [← ite_bnot, jobGoes_eq]
  rfl

end JobStart
/-! ### The end of a job in time (R236, R248) -/

/-- The job runs and ends in time. -/
def jobEnds (s : State) (q : Job) (lane t : Nat) : Bool := q.started.isSome && max s.tim.cnt t ≤ q.deadline && lane < 64

theorem jobEnds_eq (s : State) (q : Job) (lane t : Nat) :
    jobEnds s q lane t = !(q.started.isNone || decide (q.deadline < max s.tim.cnt t) || decide (64 ≤ lane)) := by
  simp only [jobEnds, Bool.not_or, Option.not_isNone, ← decide_not, not_lt, not_le]

/-- What a job that ends now has come to. -/
def endRes (s : State) (q : Job) : JobRes := { (if q.typ = 1 then runJob s q q.cap else gnsRun q q.cap) with endNs := jobEndNs s q }

section JobEnd

variable {s : State} {lane j n : Nat} (t : Nat) {q : Job}

theorem exec_laneJobEnd_none (hq : jobAt s lane j n = none) : exec (.laneJobEnd lane j n t) s = .next (hstSettle (s.at t)) := by
  refine congrArg done ?_
  simp only [at_jobAt, hq]

theorem exec_laneJobEnd_eq (hq : jobAt s lane j n = some q) :
    exec (.laneJobEnd lane j n t) s =
      .next (hstSettle (if jobEnds s q lane t = true then finishJob (s.at t) q (endRes (s.at t) q) else s.at t)) := by
  refine congrArg done ?_
  simp only [at_jobAt, hq]
  rw [← ite_bnot, jobEnds_eq]
  rfl

end JobEnd

section Finish

variable {s : State} {q : Job} (r : JobRes)

/-- Only the staging buffer of a WLS job takes other data as the job runs (R243). -/
theorem lastData_qp (h : q.typ = 1) : lastData s q r = s :=
  if_neg (by simp [h])

theorem finishJob_qp (hi : imported s q = none) (h : q.typ = 1) : finishJob s q r = stageNext (endJob s q r) q := by
  simp only [finishJob, lastData_qp r h, hi, h, if_true]

theorem finishJob_gnss (hi : imported (lastData s q r) q = none) (h : q.typ ≠ 1) :
    finishJob s q r = gnsJobDone (gnsEnd (lastData s q r) q r) q r := by
  simp only [finishJob, hi, h, if_false]

theorem finishJob_imported {i : ImpJob} (hi : imported (lastData s q r) q = some i) :
    finishJob s q r = gnsFill (stageNext (endImport (lastData s q r) i r) q) := by
  simp only [finishJob, hi]

end Finish

/-! ### The deadline of a job (R246, R247) -/

section Late

variable {s : State} {q : Job} (r : JobRes)

theorem jobLate_imported {i : ImpJob} (hi : imported s q = some i) : jobLate s q r = gnsFill (endImport s i r) := by
  simp only [jobLate, hi]

theorem jobLate_qp (hi : imported s q = none) (h : q.typ = 1) : jobLate s q r = endJob s q r := by
  simp only [jobLate, hi, h, if_true]

theorem jobLate_gnss (hi : imported s q = none) (h : q.typ ≠ 1) : jobLate s q r = gnsFill (gnsJobLate (gnsEnd s q r) q) := by
  simp only [jobLate, hi, h, if_false]

end Late

section LateRes

variable (s : State) (q : Job) (point iter : Nat)

theorem lateRes_status : (lateRes s q point iter).status = 6 := by
  simp only [lateRes]
  split <;> rfl

theorem lateRes_endNs : (lateRes s q point iter).endNs = jobEndNs s q := by
  simp only [lateRes]
  split <;> rfl

/-- A job that ran keeps the place where its deadline met it, and no certificate. -/
theorem lateRes_started {q : Job} (h : q.started.isSome = true) :
    (lateRes s q point iter).dlPoint = max 1 (min 3 point) ∧ (lateRes s q point iter).cert = false := by
  have hn : ¬ q.started.isNone = true := by rw [← Option.not_isSome, h]; decide
  simp only [lateRes, if_neg hn, and_self]

end LateRes

/-- The deadline of the job has come; the lane is the device's own where the job is of a QP. -/
def jobIsLate (s : State) (q : Job) (lane t : Nat) : Bool := q.deadline ≤ max s.tim.cnt t && (q.typ ≠ 1 || lane < 64)

theorem jobIsLate_eq (s : State) (q : Job) (lane t : Nat) :
    jobIsLate s q lane t = !(decide (max s.tim.cnt t < q.deadline) || (decide (q.typ = 1) && decide (64 ≤ lane))) := by
  simp only [jobIsLate, Bool.not_or, Bool.not_and, ← decide_not, not_lt, not_le, ne_eq]

/-- The job and the later ones of its cycle on the lane have ended DEADLINE. -/
def lateJobs (s : State) (q : Job) (lane j n point iter : Nat) : State :=
  ((laneJobs s lane).filter fun y => y.cyc = n && j < y.j && y.typ = q.typ && y.res.isNone).foldl
    (fun u y => jobLate u y { emptyRes 6 with endNs := jobEndNs u y }) (jobLate (lastData s q (lateRes s q point iter)) q (lateRes s q point iter))

section JobDeadline

variable {s : State} {lane j n point iter : Nat} (t : Nat) {q : Job}

theorem exec_laneJobDeadline_none (hq : jobAt s lane j n = none) :
    exec (.laneJobDeadline lane j n point iter t) s = .next (hstSettle (gnsPlanLate (s.at t) n)) := by
  refine congrArg done ?_
  simp only [at_jobAt, hq]

/-- The command by whether the deadline has come, and by whether the cycle itself waits for the job. -/
theorem exec_laneJobDeadline_eq (hq : jobAt s lane j n = some q) :
    exec (.laneJobDeadline lane j n point iter t) s = .next (hstSettle (
      if jobIsLate s q lane t = true then
        let u := lateJobs (s.at t) q lane j n point iter
        if (q.typ = 1 && lane < 4 && (imported u q).isNone) = true then
          missCycle (if repeating u (some n) = true then reportCyc u n 0x020C else u) n
        else u
      else s.at t)) := by
  refine congrArg done ?_
  simp only [at_jobAt, hq]
  rw [← ite_bnot, jobIsLate_eq]
  rfl

end JobDeadline

/-! ### Check faults (R249, R361) -/

section Residue

variable {s : State} {lane j n mech : Nat} (t : Nat) {q : Job}

theorem exec_laneResidueFault_none (hq : jobAt s lane j n = none) : exec (.laneResidueFault lane j n mech t) s = .next (hstSettle (s.at t)) := by
  refine congrArg done ?_
  simp only [at_jobAt, hq]

theorem exec_laneResidueFault_eq (hq : jobAt s lane j n = some q) :
    exec (.laneResidueFault lane j n mech t) s = .next (hstSettle (
      if (q.started.isSome && (mech = 1 || mech = 2 || mech = 12)) = true then laneFault (s.at t) q mech 0 false else s.at t)) := by
  refine congrArg done ?_
  simp only [at_jobAt, hq]

end Residue

/-- The outcome of a job whose check has failed (R249). -/
def faultRes (s : State) (q : Job) (mech : Nat) : JobRes := { emptyRes (if mech = 12 then 8 else 7) with endNs := jobEndNs s q }

/-- The fault of a failed check in a job. -/
def jobFault (s : State) (q : Job) (mech addr : Nat) (inj : Bool) : FaultIn := ⟨mech, 1, q.lane, workCyc s q.cyc, addr, false, inj, q.typ = 1⟩

section LaneFault

variable {s : State} {q : Job} (mech addr : Nat) (inj : Bool)

theorem laneFault_qp (hi : imported s q = none) (h : q.typ = 1) :
    laneFault s q mech addr inj = takeFault (endJob s q (faultRes s q mech)) (jobFault s q mech addr inj) := by
  simp only [laneFault, hi]
  exact if_pos h

theorem laneFault_gnss (hi : imported s q = none) (h : q.typ ≠ 1) :
    laneFault s q mech addr inj = gnsJobFault (takeFault (gnsEnd s q (faultRes s q mech)) (jobFault s q mech addr inj)) q := by
  simp only [laneFault, hi]
  exact if_neg h

end LaneFault

section Engines

variable {s : State} {n mech : Nat} {ch : Option Nat} (t : Nat)

theorem exec_oceCheckFault_hit (h : ((stageRuns s n 4 || stageRuns s n 5) && (mech = 1 || mech = 2)) = true) :
    exec (.oceCheckFault n mech t) s = .next (hstSettle (oceFault (s.at t) n mech 0 false)) :=
  congrArg done (if_pos h)

theorem exec_oceCheckFault_not (h : ((stageRuns s n 4 || stageRuns s n 5) && (mech = 1 || mech = 2)) = false) :
    exec (.oceCheckFault n mech t) s = .next (hstSettle (s.at t)) :=
  congrArg done (if_neg (ne_true_of_eq_false h))

theorem exec_firCheckFault_hit (h : (stageRuns s n 2 && mech = 1) = true) :
    exec (.firCheckFault n ch mech t) s = .next (hstSettle (firFault (s.at t) n ch mech 0 false)) :=
  congrArg done (if_pos h)

theorem exec_firCheckFault_not (h : (stageRuns s n 2 && mech = 1) = false) :
    exec (.firCheckFault n ch mech t) s = .next (hstSettle (s.at t)) :=
  congrArg done (if_neg (ne_true_of_eq_false h))

end Engines

/-- Settles O44: each command by the job it finds, whether the job may go, end or is late, and whose job it is. -/
theorem laneJobsAndComputingFaults : Obligations.LaneJobsAndComputingFaults := by
  unfold Obligations.LaneJobsAndComputingFaults
  refine ⟨?_, ?_, ?_, ?_, ?_, ?_⟩
  · intro s lane j n t x hi S busy goes
    refine ⟨fun hx hg hd => ?_, fun hx hg hd => ?_, ?_⟩
    · exact (exec_laneJobStart_eq t hi hx).trans (congrArg done ((if_pos hg).trans (if_neg (ne_true_of_eq_false hd))))
    · exact (exec_laneJobStart_eq t hi hx).trans (congrArg done ((if_pos hg).trans (if_pos hd)))
    · rintro (hx | ⟨hx, hg⟩)
      · exact exec_laneJobStart_none t hx
      · exact (exec_laneJobStart_eq t hi hx).trans (congrArg done (if_neg (ne_true_of_eq_false hg)))
  · intro s lane j n t x i S ends r
    have finish {u : State} (hx : jobAt s lane j n = some x) (he : ends = true) (h : finishJob S x r = u) :
        exec (.laneJobEnd lane j n t) s = .next (hstSettle u) :=
      (exec_laneJobEnd_eq t hx).trans (congrArg done ((if_pos he).trans h))
    refine ⟨fun hx he hi h1 => finish hx he (finishJob_qp r hi h1), fun hx he hi h1 => finish hx he (finishJob_gnss r hi h1),
      fun hx he hi => finish hx he (finishJob_imported r hi), ?_⟩
    rintro (hx | ⟨hx, he⟩)
    · exact exec_laneJobEnd_none t hx
    · exact (exec_laneJobEnd_eq t hx).trans (congrArg done (if_neg (ne_true_of_eq_false he)))
  · intro s lane j n point iter t x S late r rest u own
    refine ⟨fun hx hl ho => ?_, fun hx hl ho => ?_, fun hx hl => ?_, exec_laneJobDeadline_none t⟩
    · exact (exec_laneJobDeadline_eq t hx).trans (congrArg done ((if_pos hl).trans (if_pos ho)))
    · exact (exec_laneJobDeadline_eq t hx).trans (congrArg done ((if_pos hl).trans (if_neg (ne_true_of_eq_false ho))))
    · exact (exec_laneJobDeadline_eq t hx).trans (congrArg done (if_neg (ne_true_of_eq_false hl)))
  · intro s x r i point iter
    refine ⟨jobLate_imported r, jobLate_qp r, jobLate_gnss r, lateRes_status s x point iter, lateRes_endNs s x point iter, fun hs => ?_⟩
    obtain ⟨hp, hc⟩ := lateRes_started s point iter hs
    exact ⟨by omega, by omega, hc⟩
  · intro s lane j n mech t x S r f hit
    have faults {u : State} (hx : jobAt s lane j n = some x) (hh : hit = true) (h : laneFault S x mech 0 false = u) :
        exec (.laneResidueFault lane j n mech t) s = .next (hstSettle u) :=
      (exec_laneResidueFault_eq t hx).trans (congrArg done ((if_pos hh).trans h))
    refine ⟨fun hx hh hi h1 => faults hx hh (laneFault_qp mech 0 false hi h1), fun hx hh hi h1 => faults hx hh (laneFault_gnss mech 0 false hi h1),
      fun hx hh _ => faults hx hh rfl, ?_⟩
    rintro (hx | ⟨hx, hh⟩)
    · exact exec_laneResidueFault_none t hx
    · exact (exec_laneResidueFault_eq t hx).trans (congrArg done (if_neg (ne_true_of_eq_false hh)))
  · exact fun s n mech t ch => ⟨exec_oceCheckFault_hit t, exec_oceCheckFault_not t, exec_firCheckFault_hit t, exec_firCheckFault_not t⟩

end Sys2Proof.Proofs
end

section
/-! PROOFS. O45: corrected, uncorrectable and duplication faults. -/

namespace Sys2Proof.Proofs

open Sys2Proof Sys2Proof.Machine Sys2Proof.Laws

/-! ### Corrected words (R362, R363) -/

section Corrected

variable {s : State} (unit index : Nat) {addr : Nat} (w : Option Nat) (mower : Bool) (t : Nat)

/-- The fault of a corrected word. -/
def correctedFault (s : State) (unit index addr : Nat) (w : Option Nat) (mower : Bool) : FaultIn :=
  ⟨3, unit, index, w.bind fun n => workCyc s n, addr, mower, false, false⟩

theorem exec_sramCorrected_hard (h : s.err.hard.contains addr = true) :
    exec (.sramCorrected unit index addr w mower t) s = .next (hstSettle ((s.at t).incSat ERR_HARD_CORR_CNT 0xFFFFFF)) :=
  congrArg done (if_pos h)

/-- A word that is not hard is noted; it becomes hard where its address was corrected before and a place is free. -/
theorem exec_sramCorrected_noted (h : s.err.hard.contains addr = false) :
    exec (.sramCorrected unit index addr w mower t) s = .next (hstSettle (
      let u := corrected (s.at t) (correctedFault (s.at t) unit index addr w mower)
      if (s.err.corr.contains addr && u.err.hard.length < 64) = true then
        report (({ u with err := { u.err with hard := addr :: u.err.hard } } : State).wr ERR_HARD_ENTRIES (u.err.hard.length + 1)) 0x0B06
      else u)) :=
  congrArg done (if_neg (ne_true_of_eq_false h))

end Corrected

/-! ### Uncorrectable words (R362, R364, R365, R373, R374) -/

/-- The mechanism of an uncorrectable word: ADDR where the syndrome names a bit of the address, else SRAM_UE (R362). -/
def ueMech (syn : Bool) : Nat := if syn then 5 else 4

section Uncorrectable

variable {s : State} (syn : Bool) (addr : Nat) (t : Nat)

theorem exec_ue_host (mower : Bool) :
    exec (.sramUncorrectable .host syn addr mower t) s = .next (hstSettle (if mower then s.at t else report (s.at t) 0x0B07)) := rfl

theorem exec_ue_config (mower : Bool) :
    exec (.sramUncorrectable .config syn addr mower t) s =
      .next (hstSettle (classS (s.at t) ⟨ueMech syn, 11, 0, none, addr, mower, false, false⟩ 2)) := by
  cases mower <;> rfl

/-- A journal block that the cycle's own work reads: rewritten once, the second time fail-silent (R373). -/
theorem exec_ue_block (m typ : Nat) :
    exec (.sramUncorrectable (.block m typ) syn addr false t) s = .next (hstSettle (
      if s.err.rewrote = some (m, typ) then classS (s.at t) ⟨9, 9, 0, workCyc s m, addr, false, false, false⟩ 4
      else takeFault { s.at t with err := { (s.at t).err with rewrote := some (m, typ) } }
        ⟨ueMech syn, 9, 0, workCyc s m, addr, false, false, false⟩)) := rfl

theorem exec_ue_lane_running {l j n : Nat} {q : Job} (hq : jobAt s l j n = some q) (h : q.started.isSome = true) :
    exec (.sramUncorrectable (.lane l j n) syn addr false t) s = .next (hstSettle (laneFault (s.at t) q (ueMech syn) addr false)) := by
  refine congrArg done ?_
  simp only [at_jobAt, hq, h, if_true, Bool.false_eq_true, if_false]
  rfl

theorem exec_ue_lane_idle {l j n : Nat} (h : ∀ q ∈ jobAt s l j n, q.started = none) :
    exec (.sramUncorrectable (.lane l j n) syn addr false t) s = .next (hstSettle (s.at t)) := by
  refine congrArg done ?_
  simp only [at_jobAt, Bool.false_eq_true, if_false]
  split
  · next q hq => simp [h q hq]
  · rfl

theorem exec_ue_oce (n : Nat) :
    exec (.sramUncorrectable (.oce n) syn addr false t) s = .next (hstSettle (
      if (stageRuns s n 4 || stageRuns s n 5) = true then takeFault (s.at t) ⟨ueMech syn, 2, 0, workCyc s n, addr, false, false, true⟩
      else s.at t)) := rfl

theorem exec_ue_fir (n : Nat) (ch : Option Nat) :
    exec (.sramUncorrectable (.fir n ch) syn addr false t) s = .next (hstSettle (
      if stageRuns s n 2 = true then
        takeFault (s.at t) ⟨ueMech syn, if ch.isSome then 3 else 13, ch.getD 0, workCyc s n, addr, false, false, true⟩
      else s.at t)) := by
  cases ch <;> rfl

theorem exec_ue_input {n u i : Nat} {c : Cyc} (hc : s.cyc? n = some c) (hk : c.committed = false) (hm : c.missed = false) :
    exec (.sramUncorrectable (.input n u i) syn addr false t) s = .next (hstSettle (
      let v := takeFault (s.at t) ⟨ueMech syn, u, i, workCyc s n, addr, false, false, false⟩
      if v.flag ERR_STATUS_FAIL_SILENT then v else missCycle (reportCyc v n 0x0C02) n)) := by
  refine congrArg done ?_
  simp only [at_cyc?, hc, hk, hm, Bool.or_self, Bool.false_eq_true, if_false]
  rfl

theorem exec_ue_input_decided {n u i : Nat} (h : ∀ c ∈ s.cyc? n, c.committed = true ∨ c.missed = true) :
    exec (.sramUncorrectable (.input n u i) syn addr false t) s = .next (hstSettle (s.at t)) := by
  refine congrArg done ?_
  simp only [at_cyc?]
  split
  · next c hc => exact if_pos (by simpa using h c hc)
  · rfl

/-- The areas whose loss is classed together with what it does to their user, or to what they hold. -/
def actsByEffect : UeArea → Bool
  | .slot _ | .track _ | .position _ _ | .ethRx _ | .ethTx _ | .canRx _ | .canTx _ _ | .record _ | .snapshot _ | .checkpoint _ => true
  | .host | .config | .lane _ _ _ | .oce _ | .fir _ _ | .block _ _ | .input _ _ _ => false

/-- What is held is marked whoever finds the word; the effect of the read is the user's alone. -/
theorem exec_ue_area {a : UeArea} (mower : Bool) (h : actsByEffect a = true) :
    exec (.sramUncorrectable a syn addr mower t) s = .next (hstSettle (takeFault
      (if mower then areaMark (s.at t) a else areaEffect (areaMark (s.at t) a) a)
      ⟨ueMech syn, (areaUnit a).1, (areaUnit a).2, if mower then none else (areaCyc a).bind fun n => workCyc s n, addr, mower, false, false⟩)) := by
  cases a with
  | host | config | lane | oce | fir | block | input => exact absurd h Bool.false_ne_true
  | slot | track | position | ethRx | ethTx | canRx | canTx | record | snapshot | checkpoint => rfl

end Uncorrectable

/-! ### Injections (R388) -/

section Injection

variable {s : State} {unit index m : Nat} (bad op : State → State)

/-- The state in which an armed injection has been used up. -/
def injectionTaken (s : State) : State := { s.wr ERR_INJ_ARM 0 with err := { s.err with inj := none } }

/-- The fault that an injection makes in an operation outside a cycle. -/
def injectedFault (m unit index : Nat) : FaultIn := ⟨m, unit, index, none, 0, false, true, false⟩

theorem takeInjection_taken (h : s.err.inj = some (m, unit, index)) : takeInjection s unit index = (some m, injectionTaken s) := by
  simp only [takeInjection, h, and_self, if_true]
  rfl

theorem takeInjection_elsewhere {u i : Nat} (h : s.err.inj = some (m, u, i)) (hu : ¬ (u = unit ∧ i = index)) :
    takeInjection s unit index = (none, s) := by
  simp only [takeInjection, h, if_neg hu]

/-- An injection on the unit strikes in place of the operation. -/
theorem injected_strikes (h : s.err.inj = some (m, unit, index)) (hm : m ≠ 3) :
    injected unit index none bad op s = takeFault (bad (injectionTaken s)) (injectedFault m unit index) := by
  simp only [injected, takeInjection_taken h, if_neg hm]
  rfl

/-- An injected correction is noted, and the operation runs. -/
theorem injected_corrects (h : s.err.inj = some (m, unit, index)) (hm : m = 3) :
    injected unit index none bad op s = op (noteFault (injectionTaken s) (injectedFault m unit index) 1 false) := by
  simp only [injected, takeInjection_taken h, if_pos hm]
  rfl

/-- An injection on another unit waits. -/
theorem injected_waits {u i : Nat} (h : s.err.inj = some (m, u, i)) (hu : ¬ (u = unit ∧ i = index)) :
    injected unit index none bad op s = op s := by
  simp only [injected, takeInjection_elsewhere h hu]

end Injection

/-- Settles O45: a corrected word by its address, an uncorrectable one by its area, an injection by its unit and mechanism. -/
theorem faultsAreClassed : Obligations.FaultsAreClassed := by
  unfold Obligations.FaultsAreClassed
  refine ⟨?_, ?_, ?_, ?_, ?_, ?_⟩
  · intro s unit index addr t w mower S f e u hard takes
    refine ⟨exec_sramCorrected_hard unit index w mower t, fun hh ht => ?_, fun hh ht => ?_⟩
    · exact (exec_sramCorrected_noted unit index w mower t hh).trans (congrArg done (if_neg (ne_true_of_eq_false ht)))
    · exact (exec_sramCorrected_noted unit index w mower t hh).trans (congrArg done (if_pos ht))
  · intro s syn mower addr m typ t S mech
    refine ⟨fun h => ?_, fun h => ?_, exec_ue_config syn addr t mower, fun h hr => ?_, fun h hr => ?_, fun h => ?_⟩
    · subst h; exact exec_ue_host syn addr t false
    · subst h; exact exec_ue_host syn addr t true
    · subst h; exact (exec_ue_block syn addr t m typ).trans (congrArg done (if_pos hr))
    · subst h; exact (exec_ue_block syn addr t m typ).trans (congrArg done (if_neg hr))
    · subst h; rfl
  · intro s syn addr n l j t ch x d S mech f m fi missed
    refine ⟨exec_ue_lane_running syn addr t, fun h => exec_ue_lane_idle syn addr t ?_, rfl,
      fun h => (exec_ue_oce syn addr t n).trans (congrArg done (if_pos h)),
      fun h => (exec_ue_oce syn addr t n).trans (congrArg done (if_neg (ne_true_of_eq_false h))), rfl,
      fun h => (exec_ue_fir syn addr t n ch).trans (congrArg done (if_pos h)),
      fun h => (exec_ue_fir syn addr t n ch).trans (congrArg done (if_neg (ne_true_of_eq_false h))), ?_,
      fun hc hk hm => exec_ue_input syn addr t hc hk hm, fun h => exec_ue_input_decided syn addr t ?_⟩
    · rcases h with hq | ⟨hq, hs⟩
      · simp [hq]
      · simpa [hq] using hs
    · cases ch <;> rfl
    · rcases h with hc | ⟨hc, hd⟩
      · simp [hc]
      · simpa [hc] using hd
  · intro s syn addr i e n t S mech f at'
    have areas (a : UeArea) (mower : Bool) (h : actsByEffect a = true) := exec_ue_area (s := s) syn addr t mower h
    exact ⟨areas (.slot i) false rfl, areas (.track i) false rfl, areas (.track i) true rfl, areas (.position e n) false rfl,
      areas (.position e n) true rfl, areas (.ethRx i) false rfl, areas (.ethTx i) false rfl, areas (.canRx i) false rfl,
      areas (.canTx i e) true rfl, areas (.record i) false rfl, areas (.record i) true rfl, areas (.snapshot n) false rfl,
      areas (.checkpoint i) true rfl⟩
  · intro s k m ee ll ve vl sof w0 dlc ts t ip q esi rtr fcs full b S s1 f hit
    have hits (unit : Nat) (x : Instr) (bad op : State → State) (hx : exec x s = done (injected unit k none bad op S)) : hit unit x bad op :=
      ⟨fun h hm => hx.trans (congrArg done (injected_strikes (s := S) bad op h hm)),
        fun h hm => hx.trans (congrArg done (injected_corrects (s := S) bad op h hm)),
        fun h => hx.trans (congrArg done (injected_waits (s := S) bad op h (by omega)))⟩
    exact ⟨hits 4 (.loopUpdate k ip q ee ll ve vl t) (fun u => acqTake (releaseCh u k)) (loopUpdateOp k ip q ee ll ve vl t) rfl,
      hits 6 (.ethFrameRx k b fcs full ts t) (fun u => netCount u k 1) (ethFrameRxOp k b fcs full ts t) rfl,
      hits 7 (.canFrameRx k w0 dlc esi rtr b sof t) (fun u => u.incSat (CAN_CNT_RX_LOST k) 255) (canFrameRxOp k w0 dlc esi rtr b sof t) rfl⟩
  · exact fun s t => rfl

end Sys2Proof.Proofs
end

section
/-! PROOFS. O46: ERR_CTRL and ERR_INJ, the journal window and mirror, the Mower, and the restart. -/

namespace Sys2Proof.Proofs

open Sys2Proof Sys2Proof.Machine Sys2Proof.Laws

/-! ### A word of 31 bits with ARM set beside it (R388) -/

theorem or_arm {v : Nat} (h : v < 2 ^ 31) : v ||| 2 ^ 31 = v + 2 ^ 31 := by
  have hor := Nat.two_pow_add_eq_or_of_lt h 1
  rw [mul_one] at hor
  rw [Nat.or_comm, ← hor, Nat.add_comm]

theorem bit_arm {v : Nat} (h : v < 2 ^ 31) : bit (v ||| 2 ^ 31) 31 = true := by
  simp only [or_arm h, bit, decide_eq_true_eq]
  omega

/-- ARM lies above every other field. -/
theorem bitsOf_arm {v hi lo : Nat} (h : v < 2 ^ 31) (hb : hi + 1 ≤ 31) (hl : lo ≤ hi) : bitsOf (v ||| 2 ^ 31) hi lo = bitsOf v hi lo := by
  have hp : 2 ^ 31 = 2 ^ lo * (2 ^ (hi + 1 - lo) * 2 ^ (31 - (hi + 1))) := by
    rw [← pow_add, ← pow_add]; congr 1; omega
  simp only [bitsOf]
  rw [or_arm h]
  conv_lhs => rw [hp]
  rw [Nat.add_mul_div_left _ _ (Nat.two_pow_pos lo), Nat.add_mul_mod_self_left]

/-- The evaluated configuration allows injections, and the fields of the word are in range. -/
def injAllowed (s : State) (v : Nat) : Bool :=
  bit (s.rd SEC_POLICY_FLAGS) 3 && 1 ≤ bitsOf v 27 24 && bitsOf v 27 24 ≤ 4 && 1 ≤ bitsOf v 23 16 && bitsOf v 23 16 ≤ 7

section InjArm

variable {s : State} {v : Nat}

theorem injArm_allowed (hv : v < 2 ^ 31) (h : injAllowed s v = true) :
    injArm s (v ||| 2 ^ 31) = s.wrs [(ERR_INJ_ARM, 1), (ERR_INJ_MECH, bitsOf v 27 24), (ERR_INJ_UNIT, bitsOf v 23 16), (ERR_INJ_INDEX, bitsOf v 15 8)] := by
  have harm : (v ||| 2 ^ 31) / 2 ^ 31 = 1 := by rw [or_arm hv]; omega
  rw [injAllowed] at h
  simp only [injArm, bit_arm hv, bitsOf_arm (hi := 27) (lo := 24) hv (by decide) (by decide),
    bitsOf_arm (hi := 23) (lo := 16) hv (by decide) (by decide), bitsOf_arm (hi := 15) (lo := 8) hv (by decide) (by decide), h, harm,
    Bool.not_true, Bool.and_false, Bool.false_eq_true, if_false, if_true]

theorem injArm_refused (hv : v < 2 ^ 31) (h : injAllowed s v = false) : injArm s (v ||| 2 ^ 31) = refuse s 0x0B0A := by
  rw [injAllowed] at h
  simp only [injArm, bit_arm hv, bitsOf_arm (hi := 27) (lo := 24) hv (by decide) (by decide),
    bitsOf_arm (hi := 23) (lo := 16) hv (by decide) (by decide), h, Bool.not_false, Bool.and_self, if_true]

end InjArm

/-! ### The journal window (R371) and mirror (R375) -/

/-- The word is that of the slot's record, 0 where the slot is empty. -/
theorem jnlRead_eq (s : State) (p : Path) :
    jnlRead s p = (s.wr JNL_RD_ADDR_WORD ((s.rd JNL_RD_ADDR_WORD + 1) % 16384)).emit
      (.read p (((s.jnlAt (s.rd JNL_RD_ADDR_SLOT)).map fun r => jnlWord r (s.rd JNL_RD_ADDR_WORD)).getD 0)) := by
  simp only [jnlRead]
  cases s.jnlAt (s.rd JNL_RD_ADDR_SLOT) <;> rfl

section Mirror

variable {s : State} {k : Nat} {r : JnlRec}

theorem journalCopy_idle (good : Bool) (h : nextCopy s = none ∨ s.flag JNL_STATUS_NAND_OK = false) : journalCopy s good = s := by
  rcases h with h | h
  · simp only [journalCopy, h]
  · simp only [journalCopy, h, Bool.not_false, if_true]
    split <;> rfl

theorem journalCopy_failed (h : nextCopy s = some (k, r)) (hn : s.flag JNL_STATUS_NAND_OK = true) : journalCopy s false = report s 0x0C06 := by
  simp only [journalCopy, h, hn, Bool.not_true, Bool.false_eq_true, if_false, Bool.not_false, if_true]

/-- The journal after the NAND copy of a record in a place: one of an earlier run leaves its place (R566). -/
def copiedJnl (j : JnlSt) (k : Nat) (r : JnlRec) : JnlSt :=
  { j with
    nand := { r with copied := true } :: j.nand, gapRun := false
    ring := if 64 ≤ k then j.ring.filter fun (e : Nat × JnlRec) => e.1 ≠ k
      else j.ring.map fun (e : Nat × JnlRec) => if e.1 = k then (e.1, { r with copied := true }) else e }

theorem journalCopy_done (h : nextCopy s = some (k, r)) (hn : s.flag JNL_STATUS_NAND_OK = true) :
    journalCopy s true = (({ s with jnl := copiedJnl s.jnl k r } : State).wr JNL_MIRROR_CYC r.n).incWrap JNL_NAND_PTR_PTR := by
  simp only [journalCopy, h, hn, Bool.not_true, Bool.false_eq_true, if_false]
  rfl

end Mirror

/-! ### The Mower (R497, R498) -/

section Mower

variable {s : State} (t : Nat)

/-- The next pass is due 2 s from now. -/
def mowerAgain (s : State) : State := s.rc fun r => { r with mowerNext := s.tim.cnt + usTicks 2000000 }

theorem exec_mowerPassStart_early (h : max s.tim.cnt t < s.rcd.mowerNext) : exec (.mowerPassStart t) s = .next (hstSettle (s.at t)) :=
  congrArg done (if_pos h)

theorem exec_mowerPassStart_idle (h : s.rcd.mowerNext ≤ max s.tim.cnt t) (ha : s.rcd.mowerAt = none) :
    exec (.mowerPassStart t) s = .next (hstSettle (mowerStart (mowerAgain (s.at t)))) := by
  refine congrArg done ((if_neg (not_lt.mpr h)).trans ?_)
  have ha' : (s.at t).rcd.mowerAt = none := ha
  simp only [State.rc, ha']
  rfl

theorem exec_mowerPassStart_late (h : s.rcd.mowerNext ≤ max s.tim.cnt t) (ha : s.rcd.mowerAt.isSome = true) :
    exec (.mowerPassStart t) s =
      .next (hstSettle (report (((mowerAgain (s.at t)).rc fun r => { r with mowerDue := true }).wr BKG_STATUS_MOWER_LATE 1) 0x1106)) := by
  obtain ⟨x, hx⟩ := Option.isSome_iff_exists.mp ha
  refine congrArg done ((if_neg (not_lt.mpr h)).trans ?_)
  have hx' : (s.at t).rcd.mowerAt = some x := hx
  simp only [mowerAgain, State.rc, hx']

/-- Some clock domain is gated, off or without a clock. -/
def domainGone (s : State) : Bool := (List.range 12).any fun d => [4, 5, 6].contains (s.rd (CLK_DOM_STS_STATE d))

/-- A pass has ended with its counts. -/
def mowerCounted (s : State) (skipped ms : Nat) : State :=
  ((s.wrs [(BKG_MOWER_SKIPPED, skipped), (BKG_MOWER_PASS_MS, ms)]).incWrap BKG_MOWER_PASSES).rc fun r => { r with mowerAt := none }

/-- The duration that a pass shows, one beyond its field being a free value, and the state after the draw. -/
def mowerTimed (s : State) (ms : Nat) : Nat × State := if ms < 4096 then (ms, s) else s.draw

/-- A pass that took `ms` has ended. -/
def mowerEnded (s : State) (skipped ms : Nat) : State := mowerCounted (mowerTimed s ms).2 skipped (mowerTimed s ms).1

theorem mowerEnded_eq (s : State) (skipped ms : Nat) :
    mowerEnded s skipped ms = if ms < 4096 then mowerCounted s skipped ms else mowerCounted s.draw.2 skipped s.draw.1 := by
  simp only [mowerEnded, mowerTimed]
  split_ifs <;> rfl

theorem mowerTimed_rcd (s : State) (ms : Nat) : (mowerTimed s ms).2.rcd = s.rcd := by
  simp only [mowerTimed]
  split_ifs <;> rfl

theorem rc_tim (s : State) (f : RecSt → RecSt) : (s.rc f).tim = s.tim := rfl

theorem mowerEnded_tim (s : State) (skipped ms : Nat) : (mowerEnded s skipped ms).tim = s.tim := by
  have htimed : (mowerTimed s ms).2.tim = s.tim := by
    simp only [mowerTimed]
    split_ifs <;> rfl
  rw [mowerEnded, mowerCounted, rc_tim, incWrap_tim, wrs_tim, htimed]

/-- A pass starts at the count that the state shows. -/
theorem mowerStart_at {u : State} {now : Nat} (h : u.tim.cnt = now) :
    mowerStart u = { u.rc fun r => { r with mowerAt := some now, mowerDue := false } with err := { u.err with corr := [] } } := by
  subst h; rfl

theorem exec_mowerPassEnd_none (skipped : Nat) (h : s.rcd.mowerAt = none) : exec (.mowerPassEnd skipped t) s = .next (hstSettle (s.at t)) := by
  have h' : (s.at t).rcd.mowerAt = none := h
  refine congrArg done ?_
  simp only [h']

/-- A pass ends, and one that waits starts. -/
theorem exec_mowerPassEnd_some (skipped : Nat) {x : Nat} (h : s.rcd.mowerAt = some x) :
    exec (.mowerPassEnd skipped t) s = .next (hstSettle (
      let u := mowerEnded (s.at t) (if domainGone s then skipped else 0) ((max s.tim.cnt t - x) / usTicks 1000)
      if s.rcd.mowerDue = true then mowerStart u else u)) := by
  have h' : (s.at t).rcd.mowerAt = some x := h
  refine congrArg done ?_
  simp only [h']
  change (if (((mowerTimed (s.at t) _).2.wrs _).incWrap _).rcd.mowerDue = true then _ else _) = _
  rw [incWrap_rcd, wrs_rcd, mowerTimed_rcd]
  rfl

end Mower

/-! ### The restart (R383, R402) -/

/-- The cycles of the earlier run are forgotten, and the restart is no longer due. -/
def restartTaken (s : State) : State := s.sq fun q => { q with resumeDue := false, cycs := [] }

/-- A restart acts only while it is due, a structure is loaded and the machine is not fail-silent. -/
def restartActs (s : State) : Bool := s.seq.resumeDue && s.loaded && !s.flag ERR_STATUS_FAIL_SILENT

/-- In Pairs the member joins a partner that sends, or that has the lower address and resumes first (R402). -/
def restartJoins (s : State) : Bool := isPair s && s.flag RED_STATUS_PAIRED && (s.red.pSends || !pairLow s)

theorem restartActs_eq (s : State) : restartActs s = !(!s.seq.resumeDue || !s.loaded || s.flag ERR_STATUS_FAIL_SILENT) := by
  simp only [restartActs, Bool.not_or, Bool.not_not]

theorem exec_restartResume_eq (s : State) (t : Nat) :
    exec (.restartResume t) s = .next (hstSettle (
      if restartActs s = true then
        let u := restartTaken (s.at t)
        if restartJoins s = true then startChain (startRole ((enterArming u).rs fun x => { x with pState := 2 })) none
        else resumeRun (if isPair s = true then u.wrs [(RED_STATUS_ROLE, 1), (RED_STATUS_SYNC, 0)] else u)
      else s.at t)) := by
  refine congrArg done ?_
  rw [← ite_bnot, restartActs_eq]
  rfl

/-! ### The commands where the path lets them through -/

section Commands

variable {s : State} {p : Path} (t : Nat)

theorem exec_forceS_lets (h : s.lets p 0x250004) : exec (.forceS p t) s = .next (hstSettle (forceS (s.taken p t))) :=
  congrArg done (hostDo_lets s p _ _ t _ h)

theorem exec_clrCnt_lets (h : s.lets p 0x250004) : exec (.clrCnt p t) s = .next (hstSettle (clrCnt (s.taken p t))) :=
  congrArg done (hostDo_lets s p _ _ t _ h)

theorem exec_errInjArm_lets (v : Nat) (h : s.lets p 0x250028) :
    exec (.errInjArm p v t) s = .next (hstSettle (injArm (s.taken p t) (v ||| 2 ^ 31))) :=
  congrArg done (hostDo_lets s p _ _ t _ h)

theorem exec_jnlRdDataRead_lets (h : s.letsRead p 0x260020) : exec (.jnlRdDataRead p t) s = .next (hstSettle (jnlRead (s.taken p t) p)) :=
  congrArg done (hostRd_lets s p _ t _ h)

end Commands

/-- Settles O46: each command by its access, by what it finds in the journal, by the Mower's progress, and by whether a restart is due. -/
theorem errorCommandsAndRestart : Obligations.ErrorCommandsAndRestart := by
  unfold Obligations.ErrorCommandsAndRestart
  refine ⟨?_, ?_, ?_, ?_⟩
  · intro s p v t S
    refine ⟨fun hl => ⟨exec_forceS_lets t hl, exec_clrCnt_lets t hl⟩, fun hl hv => ?_, fun hl => ?_⟩
    · intro m u ok
      exact ⟨fun ho => (exec_errInjArm_lets t v hl).trans (congrArg done (injArm_allowed (s := S) hv ho)),
        fun ho => (exec_errInjArm_lets t v hl).trans (congrArg done (injArm_refused (s := S) hv ho))⟩
    · exact (exec_jnlRdDataRead_lets t hl).trans (congrArg done (jnlRead_eq S p))
  · intro s t good k r ok r' u
    refine ⟨fun h => congrArg done (journalCopy_idle (s := s.at t) good h), fun h hn hg => ?_, fun h hn hg => ?_⟩
    · subst hg; exact congrArg done (journalCopy_failed (s := s.at t) h hn)
    · subst hg; exact congrArg done (journalCopy_done (s := s.at t) h hn)
  · intro s t skipped x now S start gone ms e ended
    have hended : mowerEnded (s.at t) (if gone then skipped else 0) ms = ended := mowerEnded_eq _ _ _
    refine ⟨exec_mowerPassStart_early t, exec_mowerPassStart_idle t, exec_mowerPassStart_late t, exec_mowerPassEnd_none t skipped,
      fun hx hd => ?_, fun hx hd => ?_⟩
    · exact (exec_mowerPassEnd_some t skipped hx).trans (congrArg done ((if_neg (ne_true_of_eq_false hd)).trans hended))
    · refine (exec_mowerPassEnd_some t skipped hx).trans (congrArg done ((if_pos hd).trans ?_))
      exact (mowerStart_at (congrArg (·.cnt) (mowerEnded_tim (s.at t) (if gone then skipped else 0) ms))).trans (congrArg start hended)
  · intro s t S due joins
    have acts {u : State} (hd : due = true)
        (h : (if restartJoins s = true then startChain (startRole ((enterArming S).rs fun x => { x with pState := 2 })) none
          else resumeRun (if isPair s = true then S.wrs [(RED_STATUS_ROLE, 1), (RED_STATUS_SYNC, 0)] else S)) = u) :
        exec (.restartResume t) s = .next (hstSettle u) :=
      (exec_restartResume_eq s t).trans (congrArg done ((if_pos hd).trans h))
    refine ⟨fun hd => (exec_restartResume_eq s t).trans (congrArg done (if_neg (ne_true_of_eq_false hd))), fun hd hj => acts hd (if_pos hj),
      fun hd hj hp => acts hd ?_, fun hd hp => acts hd ?_⟩
    · exact (if_neg (ne_true_of_eq_false hj)).trans (by rw [if_pos hp])
    · have hj : restartJoins s = false := by simp only [restartJoins, hp, Bool.false_and]
      rw [hj, hp, if_neg Bool.false_ne_true, if_neg Bool.false_ne_true]

end Sys2Proof.Proofs
end

section
/-! PROOFS. O33: the commands of IMG_CTRL, and the cascade source that stays silent. -/

namespace Sys2Proof.Proofs

open Sys2Proof Sys2Proof.Machine Sys2Proof.Laws

/-! ### NAND slots (R76, R77) -/

/-- A slot reads as it was written. -/
@[simp] theorem nandSlot_putSlot_same (s : State) (k : Nat) (x : SlotSt) : nandSlot (putSlot s k x) k = x := by
  unfold nandSlot putSlot slotMarks
  by_cases hk : k = 1 <;> simp [hk]

theorem slotUsable_valid {x : SlotSt} (h : x.state = 1) : slotUsable x = true := by simp [slotUsable, h]

theorem slotUsable_trial {x : SlotSt} (h : x.state = 2) : slotUsable x = !x.tried := by simp [slotUsable, h]

theorem slotUsable_other {x : SlotSt} (h1 : x.state ≠ 1) (h2 : x.state ≠ 2) : slotUsable x = false := by simp [slotUsable, h1, h2]

section Tried

variable {s : State} {k : Nat}

theorem triedBad_tried (h : (nandSlot s k).state = 2) (ht : (nandSlot s k).tried = true) :
    triedBad s k = putSlot s k { nandSlot s k with state := 3 } :=
  if_pos (by simp [h, ht])

theorem triedBad_noTrial (h : (nandSlot s k).state ≠ 2) : triedBad s k = s :=
  if_neg (by simp [h])

theorem triedBad_untried (ht : (nandSlot s k).tried = false) : triedBad s k = s :=
  if_neg (by simp [ht])

end Tried

/-! ### A load starts (R77, R81) -/

section LoadFrom

variable {s : State} {src : Nat} (boot : Bool) (rest : List Nat) (fb : Bool)

/-- TRIED is set before a TRIAL slot is loaded. -/
theorem loadFrom_trial (hsrc : src = 1 ∨ src = 2) (h : (nandSlot s src).state = 2) :
    loadFrom s src boot rest fb = runImgJob (putSlot s src { nandSlot s src with tried := true }) ⟨1, src, boot, rest, fb⟩ :=
  congrArg (runImgJob · _) (if_pos (by simpa [h] using hsrc))

theorem loadFrom_plain (h : 3 ≤ src ∨ (nandSlot s src).state ≠ 2) : loadFrom s src boot rest fb = runImgJob s ⟨1, src, boot, rest, fb⟩ := by
  refine congrArg (runImgJob · _) (if_neg ?_)
  rcases h with h | h
  · simp [show src ≠ 1 by omega, show src ≠ 2 by omega]
  · simp [h]

end LoadFrom

/-! ### LOAD (R81) -/

/-- No LOAD may start: the sequencer works, or a load or check runs. -/
def loadBusy (s : State) : Bool := !s.idle || s.rd IMG_STATUS_STATE = 1 || s.flag IMG_STATUS_CHECK_BUSY

section Load

variable {s : State} {src : Nat}

theorem loadCmd_busy (h : loadBusy s = true) : loadCmd s src = refuse s 0x0120 := if_pos h

theorem loadCmd_staged (h : loadBusy s = false) (hsrc : 3 ≤ src) : loadCmd s src = runImgJob s ⟨1, src, false, [], false⟩ := by
  have hn : (decide (src = 1) || decide (src = 2)) = false := by simp [show src ≠ 1 by omega, show src ≠ 2 by omega]
  refine (if_neg (Bool.eq_false_iff.mp h)).trans ?_
  simp only [hn, Bool.false_and, Bool.false_eq_true, if_false]
  exact loadFrom_plain _ _ _ (.inl hsrc)

/-- A LOAD from a NAND slot first settles what a slot found TRIAL with TRIED becomes. -/
theorem loadCmd_nand (h : loadBusy s = false) (hsrc : src = 1 ∨ src = 2) :
    loadCmd s src = if slotUsable (nandSlot (triedBad s src) src) then loadFrom (triedBad s src) src false [] false
      else reject (triedBad s src) noImage := by
  have hn : (decide (src = 1) || decide (src = 2)) = true := by simpa using hsrc
  refine (if_neg (Bool.eq_false_iff.mp h)).trans ?_
  simp only [hn, Bool.true_and, if_true]
  exact ite_bnot _ _ _

theorem loadCmd_valid (h : loadBusy s = false) (hsrc : src = 1 ∨ src = 2) (hx : (nandSlot s src).state = 1) :
    loadCmd s src = runImgJob s ⟨1, src, false, [], false⟩ := by
  have h2 : (nandSlot s src).state ≠ 2 := by omega
  rw [loadCmd_nand h hsrc, triedBad_noTrial h2, if_pos (slotUsable_valid hx), loadFrom_plain _ _ _ (.inr h2)]

theorem loadCmd_untried (h : loadBusy s = false) (hsrc : src = 1 ∨ src = 2) (hx : (nandSlot s src).state = 2)
    (ht : (nandSlot s src).tried = false) :
    loadCmd s src = runImgJob (putSlot s src { nandSlot s src with tried := true }) ⟨1, src, false, [], false⟩ := by
  rw [loadCmd_nand h hsrc, triedBad_untried ht, if_pos (by simp [slotUsable_trial hx, ht]), loadFrom_trial _ _ _ hsrc hx]

theorem loadCmd_tried (h : loadBusy s = false) (hsrc : src = 1 ∨ src = 2) (hx : (nandSlot s src).state = 2)
    (ht : (nandSlot s src).tried = true) :
    loadCmd s src = reject (putSlot s src { nandSlot s src with state := 3 }) noImage := by
  rw [loadCmd_nand h hsrc, triedBad_tried hx ht, nandSlot_putSlot_same, slotUsable_other (by simp) (by simp), if_neg Bool.false_ne_true]

theorem loadCmd_unusable (h : loadBusy s = false) (hsrc : src = 1 ∨ src = 2) (h1 : (nandSlot s src).state ≠ 1)
    (h2 : (nandSlot s src).state ≠ 2) : loadCmd s src = reject s noImage := by
  rw [loadCmd_nand h hsrc, triedBad_noTrial h2, slotUsable_other h1 h2, if_neg Bool.false_ne_true]

end Load

/-! ### CHECK, STORE, CONFIRM and ABANDON (R77, R79, R82) -/

section Checks

variable {s : State} {src : Nat}

/-- A source that a check can use: a staging area, or a usable slot. -/
def sourceFit (s : State) (src : Nat) : Bool :=
  3 ≤ src || (nandSlot s src).state = 1 || ((nandSlot s src).state = 2 && !(nandSlot s src).tried)

/-- A NAND source is unfit exactly where its slot is not usable. -/
theorem not_sourceFit (hsrc : 1 ≤ src) :
    ((decide (src = 1) || decide (src = 2)) && !slotUsable (nandSlot s src)) = !sourceFit s src := by
  by_cases h : 3 ≤ src
  · simp [sourceFit, h, show src ≠ 1 by omega, show src ≠ 2 by omega]
  · have hn : src = 1 ∨ src = 2 := by omega
    have hb : (decide (src = 1) || decide (src = 2)) = true := by simpa using hn
    simp [sourceFit, slotUsable, h, hb]

theorem checkCmd_busy (cmd : Nat) (h : s.flag IMG_STATUS_CHECK_BUSY = true) : checkCmd s cmd src = refuse s 0x0120 := if_pos h

theorem checkCmd_fit (cmd : Nat) (hsrc : 1 ≤ src) (h : s.flag IMG_STATUS_CHECK_BUSY = false) (hf : sourceFit s src = true) :
    checkCmd s cmd src = runImgJob s ⟨cmd, src, false, [], false⟩ :=
  (if_neg (Bool.eq_false_iff.mp h)).trans (if_neg (by simp [not_sourceFit hsrc, hf]))

theorem checkCmd_unfit (cmd : Nat) (hsrc : 1 ≤ src) (h : s.flag IMG_STATUS_CHECK_BUSY = false) (hf : sourceFit s src = false) :
    checkCmd s cmd src = reject s noImage :=
  (if_neg (Bool.eq_false_iff.mp h)).trans (if_pos (by simp [not_sourceFit hsrc, hf]))

theorem confirmCmd_trial (hl : s.loaded = true) (h1 : 1 ≤ s.rd IMG_STATUS_SRC) (h2 : s.rd IMG_STATUS_SRC ≤ 2)
    (hx : (nandSlot s (s.rd IMG_STATUS_SRC)).state = 2) :
    confirmCmd s = putSlot s (s.rd IMG_STATUS_SRC) { nandSlot s (s.rd IMG_STATUS_SRC) with state := 1 } := by
  have hn : s.rd IMG_STATUS_SRC = 1 ∨ s.rd IMG_STATUS_SRC = 2 := by omega
  exact if_pos (by simpa [hl, hx] using hn)

theorem confirmCmd_none (h : s.loaded = false ∨ 3 ≤ s.rd IMG_STATUS_SRC ∨ s.rd IMG_STATUS_SRC = 0
    ∨ (nandSlot s (s.rd IMG_STATUS_SRC)).state ≠ 2) : confirmCmd s = s := by
  refine if_neg ?_
  rcases h with h | h | h | h
  · simp [h]
  · simp [show s.rd IMG_STATUS_SRC ≠ 1 by omega, show s.rd IMG_STATUS_SRC ≠ 2 by omega]
  · simp [h]
  · simp [h]

theorem abandonCmd_running (h : s.flag IMG_STATUS_CHECK_BUSY = true) : abandonCmd s = endChkJob s := if_pos h

theorem abandonCmd_idle (h : s.flag IMG_STATUS_CHECK_BUSY = false) : abandonCmd s = s := if_neg (Bool.eq_false_iff.mp h)

end Checks

/-! ### A write of IMG_CTRL (R75, R79) -/

section Ctrl

variable {s : State} {p : Path} {src : Nat} (t : Nat)

/-- The state in which a command of IMG_CTRL acts: the access is taken and SOURCE written. -/
def sourced (s : State) (p : Path) (t src : Nat) : State := (s.taken p t).wr IMG_CTRL_SOURCE src

theorem sourced_rd (f : Fld) (h : f.key ≠ IMG_CTRL_SOURCE.key) : (sourced s p t src).rd f = s.rd f :=
  rd_wr_ne (s.taken p t) _ f src h

theorem sourced_flag (f : Fld) (h : f.key ≠ IMG_CTRL_SOURCE.key) : (sourced s p t src).flag f = s.flag f := by
  rw [State.flag, State.flag, sourced_rd t f h]

theorem sourced_loaded : (sourced s p t src).loaded = s.loaded := by
  rw [State.loaded, State.loaded, sourced_rd t _ (by decide)]

theorem sourced_loadBusy : loadBusy (sourced s p t src) = loadBusy s := by
  rw [loadBusy, loadBusy, State.idle, State.idle, sourced_rd t SEQ_STATUS_STATE (by decide), sourced_rd t IMG_STATUS_STATE (by decide),
    sourced_flag t _ (by decide)]

/-- What a command of IMG_CTRL that is accepted does once SOURCE is written. -/
def ctrlCmd (s : State) (src : Nat) : Nat → State
  | 1 => loadCmd s src
  | 4 => confirmCmd s
  | 5 => abandonCmd s
  | cmd => checkCmd s cmd src

/-- A command whose source does not exist, or a STORE from elsewhere than host staging, is refused. -/
theorem imgWrite_refused {cmd : Nat} (h : s.lets p 0x40000) (hs : src < 8) (h0 : cmd ≠ 0) (hc : cmd < 6)
    (hb : src = 0 ∨ 5 ≤ src ∨ (cmd = 3 ∧ src ≠ 3)) : imgWrite (s.at t) p src cmd = refuse (sourced s p t src) 0x0121 := by
  have hsrc : (src % 8 * 16 + cmd) / 16 % 8 = src := by omega
  have hcmd : (src % 8 * 16 + cmd) % 16 = cmd := by omega
  rw [imgWrite, hostDo_lets s p _ _ t _ h, imgCtrl, hsrc, hcmd]
  refine (if_neg h0).trans (if_pos ?_)
  simpa [show ¬ 6 ≤ cmd by omega, or_assoc] using hb

/-- Every other command acts in the state in which SOURCE is written. -/
theorem imgWrite_accepted {cmd : Nat} (h : s.lets p 0x40000) (h1 : 1 ≤ src) (h4 : src ≤ 4) (h0 : cmd ≠ 0) (hc : cmd < 6)
    (h3 : cmd = 3 → src = 3) : imgWrite (s.at t) p src cmd = ctrlCmd (sourced s p t src) src cmd := by
  have hsrc : (src % 8 * 16 + cmd) / 16 % 8 = src := by omega
  have hcmd : (src % 8 * 16 + cmd) % 16 = cmd := by omega
  have hgood : ¬ (src = 0 ∨ 5 ≤ src ∨ (cmd = 3 ∧ src ≠ 3)) := by omega
  rw [imgWrite, hostDo_lets s p _ _ t _ h, imgCtrl, hsrc, hcmd]
  refine (if_neg h0).trans ((if_neg ?_).trans ?_)
  · simpa [show ¬ 6 ≤ cmd by omega, or_assoc] using hgood
  · interval_cases cmd <;> rfl

end Ctrl

/-! ### A job runs (R80) -/

theorem runImgJob_load {j : LoadJob} (s : State) (h : j.cmd = 1) :
    runImgJob s j = { s with img := { s.img with job := some j } }.wrs [(IMG_STATUS_STATE, 1), (IMG_STATUS_PHASE, 1)] :=
  if_pos h

theorem runImgJob_check {j : LoadJob} (s : State) (h : j.cmd ≠ 1) :
    runImgJob s j = { s with img := { s.img with chk := some j } }.wrs
      [(IMG_STATUS_CHECK_BUSY, 1), (IMG_STATUS_PHASE, if s.img.job.isSome then s.rd IMG_STATUS_PHASE else 1)] :=
  if_neg h

/-- A check runs beside what else runs, and CHECK_BUSY shows it. -/
theorem runImgJob_check_shows {j : LoadJob} (s : State) (h : j.cmd ≠ 1) :
    (runImgJob s j).img.chk = some j ∧ (runImgJob s j).img.job = s.img.job ∧ (runImgJob s j).flag IMG_STATUS_CHECK_BUSY = true
      ∧ (runImgJob s j).rd IMG_STATUS_STATE = s.rd IMG_STATUS_STATE := by
  rw [runImgJob_check s h]
  refine ⟨by rw [wrs_img], by rw [wrs_img], ?_, ?_⟩
  · have hb : (({ s with img := { s.img with chk := some j } } : State).wrs [(IMG_STATUS_CHECK_BUSY, 1),
        (IMG_STATUS_PHASE, if s.img.job.isSome then s.rd IMG_STATUS_PHASE else 1)]).rd IMG_STATUS_CHECK_BUSY = 1 :=
      (rd_wr_ne _ IMG_STATUS_PHASE _ _ (by decide)).trans (rd_wr_same _ IMG_STATUS_CHECK_BUSY 1 (by decide))
    rw [State.flag, hb]
    rfl
  · exact (rd_wr_ne _ IMG_STATUS_PHASE _ _ (by decide)).trans (rd_wr_ne _ IMG_STATUS_CHECK_BUSY _ _ (by decide))

/-! ### A cascade source that stays silent (R75) -/

section SourceTimeout

variable {s : State} (t : Nat)

theorem exec_sourceTimeout_due {x : Nat} (hx : s.red.since = some x) (hb : bootTarget s = true) (hj : s.img.job = none)
    (ho : s.img.timedOut = false) (hd : x + usTicks 10000000 ≤ max s.tim.cnt t) :
    exec (.sourceTimeout t) s = .next (hstSettle (report { s.at t with img := { s.img with timedOut := true } } 0x011C)) := by
  refine congrArg done ?_
  simp only [at_red, hx]
  exact if_pos (by simp [show bootTarget (s.at t) = true from hb, hj, ho, hd])

theorem exec_sourceTimeout_early {x : Nat} (hx : s.red.since = some x) (hd : max s.tim.cnt t < x + usTicks 10000000) :
    exec (.sourceTimeout t) s = .next (hstSettle (s.at t)) := by
  refine congrArg done ?_
  simp only [at_red, hx]
  have hn : decide (x + usTicks 10000000 ≤ (s.at t).tim.cnt) = false := decide_eq_false (Nat.not_le.mpr hd)
  exact if_neg (by rw [hn, Bool.and_false]; exact Bool.false_ne_true)

theorem exec_sourceTimeout_not (h : s.red.since = none ∨ bootTarget s = false ∨ s.img.job ≠ none ∨ s.img.timedOut = true) :
    exec (.sourceTimeout t) s = .next (hstSettle (s.at t)) := by
  refine congrArg done ?_
  simp only [at_red]
  cases hs : s.red.since with
  | none => rfl
  | some x =>
    refine if_neg ?_
    rcases h with h | h | h | h
    · exact absurd (hs.symm.trans h) nofun
    · simp [show bootTarget (s.at t) = false from h]
    · simp [h]
    · simp [h]

end SourceTimeout

/-- Settles O33: each command by its source, by what runs, and by the slot it names. -/
theorem imageCommandsStart : Obligations.ImageCommandsStart := by
  unfold Obligations.ImageCommandsStart
  refine ⟨?_, fun s j => ⟨runImgJob_load s, runImgJob_check_shows s⟩, fun s t x => ?_⟩
  · intro s p src t hg hs S x own busy fit
    have refused {i : Instr} {cmd : Nat} (hi : exec i s = done (imgWrite (s.at t) p src cmd)) (h0 : cmd ≠ 0) (hc : cmd < 6)
        (hb : src = 0 ∨ 5 ≤ src ∨ (cmd = 3 ∧ src ≠ 3)) : exec i s = .next (hstSettle (refuse S 0x0121)) :=
      hi.trans (congrArg done (imgWrite_refused t hg hs h0 hc hb))
    refine ⟨fun hbad c hmem => ?_, fun h1 h4 => ?_⟩
    · have hb (cmd : Nat) : src = 0 ∨ 5 ≤ src ∨ (cmd = 3 ∧ src ≠ 3) := hbad.imp_right .inl
      simp only [List.mem_cons, List.not_mem_nil, or_false] at hmem
      rcases hmem with rfl | rfl | rfl | rfl | rfl <;> exact refused rfl (by decide) (by decide) (hb _)
    · have acts {i : Instr} {cmd : Nat} {u : State} (hi : exec i s = done (imgWrite (s.at t) p src cmd)) (h0 : cmd ≠ 0) (hc : cmd < 6)
          (h3 : cmd = 3 → src = 3) (h : ctrlCmd S src cmd = u) : exec i s = .next (hstSettle u) :=
        hi.trans (congrArg done ((imgWrite_accepted t hg h1 h4 h0 hc h3).trans h))
      have load {u : State} (h : loadCmd S src = u) : exec (.imgLoad p src t) s = .next (hstSettle u) :=
        acts rfl (by decide) (by decide) nofun h
      have check {u : State} (h : checkCmd S 2 src = u) : exec (.imgCheck p src t) s = .next (hstSettle u) :=
        acts rfl (by decide) (by decide) nofun h
      have store {u : State} (h3 : src = 3) (h : checkCmd S 3 src = u) : exec (.imgStore p src t) s = .next (hstSettle u) :=
        acts rfl (by decide) (by decide) (fun _ => h3) h
      have confirm {u : State} (h : confirmCmd S = u) : exec (.imgConfirm p src t) s = .next (hstSettle u) :=
        acts rfl (by decide) (by decide) nofun h
      have abandon {u : State} (h : abandonCmd S = u) : exec (.imgAbandon p src t) s = .next (hstSettle u) :=
        acts rfl (by decide) (by decide) nofun h
      have nand (h2 : src ≤ 2) : src = 1 ∨ src = 2 := by omega
      have hB : loadBusy S = busy := sourced_loadBusy t
      have hC : S.flag IMG_STATUS_CHECK_BUSY = s.flag IMG_STATUS_CHECK_BUSY := sourced_flag t _ (by decide)
      have hO : S.rd IMG_STATUS_SRC = own := sourced_rd t _ (by decide)
      have hL : S.loaded = s.loaded := sourced_loaded t
      refine ⟨fun h => load (loadCmd_busy (hB.trans h)), fun h hf => ?_, fun h h2 hx ht => load (loadCmd_untried (hB.trans h) (nand h2) hx ht),
        fun h h2 hx ht => load (loadCmd_tried (hB.trans h) (nand h2) hx ht),
        fun h h2 hx hy => load (loadCmd_unusable (hB.trans h) (nand h2) hx hy), fun h => check (checkCmd_busy 2 (hC.trans h)),
        fun h hf => check (checkCmd_fit 2 h1 (hC.trans h) hf), fun h hf => check (checkCmd_unfit 2 h1 (hC.trans h) hf),
        fun h3 => refused rfl (by decide) (by decide) (.inr (.inr ⟨rfl, h3⟩)), fun h3 h => store h3 (checkCmd_busy 3 (hC.trans h)),
        fun h3 h => store h3 (checkCmd_fit 3 h1 (hC.trans h) (by simp [sourceFit, h3])), fun hl ho1 ho2 hx => confirm ?_, fun h => confirm ?_,
        fun h => abandon (abandonCmd_running (hC.trans h)), fun h => abandon (abandonCmd_idle (hC.trans h))⟩
      · by_cases h3 : 3 ≤ src
        · exact load (loadCmd_staged (hB.trans h) h3)
        · exact load (loadCmd_valid (hB.trans h) (by omega) (hf.resolve_left h3))
      · rw [← hO] at ho1 ho2 hx ⊢
        exact confirmCmd_trial (hL.trans hl) ho1 ho2 hx
      · rw [← hO, ← hL] at h
        exact confirmCmd_none h
  · intro now
    exact ⟨exec_sourceTimeout_due t, exec_sourceTimeout_early t, exec_sourceTimeout_not t⟩

end Sys2Proof.Proofs
end

section
/-! PROOFS. O34: how loads, checks and stores end. -/

namespace Sys2Proof.Proofs

open Sys2Proof Sys2Proof.Machine Sys2Proof.Laws

/-! ### What a rejection and the end of a job leave (R78, R80, R82) -/

theorem audit_rd (s : State) (c d : Nat) (g : Fld) (h : g.key ≠ SEC_AUDIT_HEAD_ASEQ.key) : (audit s c d).rd g = s.rd g := by
  simp only [audit, auditFrom]
  rw [rd_wr_ne _ _ g _ h, sc_rd]

@[simp] theorem audit_img (s : State) (c d : Nat) : (audit s c d).img = s.img := rfl

@[simp] theorem reject_img (s : State) (r : Reject) : (reject s r).img = s.img := by
  simp only [reject]
  split <;> simp

/-- A rejection leaves every field but its own records, those of the report and the audit's head as it was. -/
theorem reject_rd (s : State) (r : Reject) (g : Fld)
    (h : g.key ∉ [IMG_REJECT_CODE, IMG_REJECT_SECTION, IMG_REJECT_OFS_OFFSET, SEC_AUDIT_HEAD_ASEQ].map (·.key)) (hk : g.key ∉ reportKeys r.code 0) :
    (reject s r).rd g = s.rd g := by
  simp only [List.map_cons, List.map_nil, List.mem_cons, List.not_mem_nil, or_false, not_or] at h
  obtain ⟨hcode, hsect, hofs, haseq⟩ := h
  have hr : (report (s.wrs [(IMG_REJECT_CODE, r.code), (IMG_REJECT_SECTION, r.sect), (IMG_REJECT_OFS_OFFSET, r.off)]) r.code).rd g = s.rd g := by
    rw [report_rd _ _ _ _ _ hk, rd_wrs_ne]
    simp [hcode, hsect, hofs]
  simp only [reject]
  split
  · rw [audit_rd _ _ _ _ haseq, hr]
  · exact hr

/-- No report writes the straps. -/
theorem strapBoot_not_reported (c : Nat) : GLB_STRAP_BOOT.key ∉ reportKeys c 0 := by
  have hc : ∀ f ∈ condFields c 0, f.key ≠ GLB_STRAP_BOOT.key := by
    simp only [condFields]
    repeat' split
    all_goals decide
  simp only [reportKeys, List.mem_append, not_or]
  refine ⟨fun h => ?_, by decide⟩
  obtain ⟨f, hf, he⟩ := List.mem_map.mp h
  exact hc f hf he

/-- The straps stand over a rejection. -/
theorem reject_strapBoot (s : State) (r : Reject) : (reject s r).rd GLB_STRAP_BOOT = s.rd GLB_STRAP_BOOT :=
  reject_rd s r _ (by decide) (strapBoot_not_reported r.code)

/-- A read of the phase finds it as it was, or further on. -/
theorem phaseGo_cases (s : State) : phaseGo s = s ∨ ∃ v, phaseGo s = s.draw.2.wr IMG_STATUS_PHASE v := by
  simp only [phaseGo]
  generalize (if s.img.job.isSome then 6 else 5) = top
  split
  · exact .inl rfl
  · exact .inr ⟨_, rfl⟩

theorem phaseGo_img (s : State) : (phaseGo s).img = s.img := by
  obtain h | ⟨v, h⟩ := phaseGo_cases s
  · rw [h]
  · rw [h, wr_img, draw_img]

theorem phaseGo_hst (s : State) : (phaseGo s).hst = s.hst := by
  obtain h | ⟨v, h⟩ := phaseGo_cases s
  · rw [h]
  · rw [h, wr_hst, draw_hst]

theorem phaseGo_rd (s : State) (g : Fld) (h : g.key ≠ IMG_STATUS_PHASE.key) : (phaseGo s).rd g = s.rd g := by
  obtain hp | ⟨v, hp⟩ := phaseGo_cases s
  · rw [hp]
  · rw [hp, rd_wr_ne _ _ g _ h, draw_rd]

/-- The end of a load takes the load away, and leaves a check. -/
theorem endImgJob_img (s : State) : (endImgJob s).img = { s.img with job := none } := by
  simp only [endImgJob, edgeSrc_img, phaseGo_img, wrs_img]

/-- The end of a check takes the check away, and leaves a load. -/
theorem endChkJob_img (s : State) : (endChkJob s).img = { s.img with chk := none } := by
  simp only [endChkJob, edgeSrc_img, wrs_img]

section JobEnds

variable (s : State) (g : Fld)

/-- A write of two fields leaves a field at another place as it was. -/
theorem rd_wrs_two {f f' : Fld} (v v' : Nat) (h : g.key ≠ f.key) (h' : g.key ≠ f'.key) : (s.wrs [(f, v), (f', v')]).rd g = s.rd g :=
  (rd_wr_ne _ f' g v' h').trans (rd_wr_ne _ f g v h)

theorem endImgJob_rd (hp : g.key ≠ IMG_STATUS_PHASE.key) (hs : g.key ≠ IMG_STATUS_STATE.key) (hlo : g.key ≠ HST_SRC_PEND_LO_PEND.key)
    (hhi : g.key ≠ HST_SRC_PEND_HI_PEND.key) : (endImgJob s).rd g = s.rd g :=
  (edgeSrc_rd _ _ g hlo hhi).trans ((phaseGo_rd _ g hp).trans (rd_wrs_two _ g _ _ hp hs))

theorem endChkJob_rd (hp : g.key ≠ IMG_STATUS_PHASE.key) (hb : g.key ≠ IMG_STATUS_CHECK_BUSY.key) (hlo : g.key ≠ HST_SRC_PEND_LO_PEND.key)
    (hhi : g.key ≠ HST_SRC_PEND_HI_PEND.key) : (endChkJob s).rd g = s.rd g :=
  (edgeSrc_rd _ _ g hlo hhi).trans (rd_wrs_two _ g _ _ hp hb)

theorem endChkJob_rd_checkBusy : (endChkJob s).rd IMG_STATUS_CHECK_BUSY = 0 :=
  (edgeSrc_rd _ _ IMG_STATUS_CHECK_BUSY (by decide) (by decide)).trans (rd_wr_same _ IMG_STATUS_CHECK_BUSY 0 (by decide))

end JobEnds

/-- The end of a load leaves the octets of every source. -/
theorem endImgJob_sourceData (s : State) (src : Nat) : sourceData (endImgJob s) src = sourceData s src := by
  have h : (endImgJob s).hst = s.hst := by simp only [endImgJob, edgeSrc_hst, phaseGo_hst, wrs_hst]
  simp only [sourceData, hostStaged, bar2Bytes, nandSlot, h, endImgJob_img]

theorem endChkJob_nandSlot (s : State) (k : Nat) : nandSlot (endChkJob s) k = nandSlot s k := by
  simp only [nandSlot, endChkJob_img]

theorem endChkJob_hostStaged (s : State) : hostStaged (endChkJob s) = hostStaged s := by
  have h : (endChkJob s).hst = s.hst := by simp only [endChkJob, edgeSrc_hst, wrs_hst]
  simp only [hostStaged, bar2Bytes, h]

/-! ### A load ends (R78, R80, R81) -/

section LoadRejected

variable {s : State} {j : LoadJob} (r : Reject)

theorem loadRejected_command (h : (j.boot && decide (j.src ≤ 2)) = false) : loadRejected s j r = reject s r := by
  refine if_pos ?_
  cases hb : j.boot with
  | false => rfl
  | true =>
    have hs : ¬ j.src ≤ 2 := by simpa [hb] using h
    simp only [Bool.not_true, Bool.false_or, decide_eq_true_eq]
    omega

/-- At boot a rejected TRIAL slot becomes BAD where the search covers both slots. -/
def bootRejected (s : State) (j : LoadJob) (r : Reject) : State :=
  if s.rd GLB_STRAP_BOOT = 0 ∧ (nandSlot s j.src).state = 2 then putSlot (reject s r) j.src { nandSlot s j.src with state := 3 } else reject s r

/-- At boot the next usable slot is tried, or NO_IMAGE reported. -/
theorem loadRejected_boot (hb : j.boot = true) (hs : j.src ≤ 2) :
    loadRejected s j r = match j.rest with
      | [] => report (bootRejected s j r) 0x011E
      | k :: rest => loadFrom (bootRejected s j r) k true rest true := by
  have hx : nandSlot (reject s r) j.src = nandSlot s j.src := by simp only [nandSlot, reject_img]
  have hgo : ¬ (!j.boot || decide (2 < j.src)) = true := by simp [hb, hs]
  refine (if_neg hgo).trans ?_
  simp only [hx, reject_strapBoot, Bool.and_eq_true, decide_eq_true_eq]
  rfl

end LoadRejected

section LoadEnds

variable {s : State} (t : Nat) (bad : Option Nat)

/-- The load that runs ends as its phases say (R80). -/
theorem loadEnd_rejected {j : LoadJob} {r : Reject} (hj : s.img.job = some j) (hc : j.cmd = 1)
    (hr : checkSource (endImgJob s) j.src bad = .error r) : loadEnd s bad = loadRejected (endImgJob s) j r := by
  simp only [loadEnd, hj, hc, hr, ne_eq, not_true_eq_false, if_false]

/-- The structure built from a source when the load ends, `k` being what the phases have made of it, and FALLBACK for a NAND source (R78). -/
def builtFrom (s : State) (j : LoadJob) (k : State) : State :=
  let d := sourceData s j.src
  let s1 := build (endImgJob s) k (d.take (u32 d 0x0C)) j.src
  if 2 < j.src then s1 else if j.fallback then report (s1.wr IMG_STATUS_FALLBACK 1) 0x011F else s1.wr IMG_STATUS_FALLBACK 0

theorem loadEnd_built {j : LoadJob} {k : State} (hj : s.img.job = some j) (hc : j.cmd = 1)
    (hk : checkSource (endImgJob s) j.src bad = .ok k) : loadEnd s bad = builtFrom s j k := by
  simp only [loadEnd, hj, hc, hk, ne_eq, not_true_eq_false, if_false, builtFrom, endImgJob_sourceData, State.wrb]
  cases j.fallback <;> simp only [b2n, if_true, if_false, Bool.false_eq_true]

theorem exec_loadComplete_not (h : s.img.job = none ∨ ∃ j, s.img.job = some j ∧ j.cmd ≠ 1) :
    exec (.loadComplete bad t) s = .next (hstSettle (s.at t)) := by
  refine congrArg done ?_
  rcases h with h | ⟨j, hj, hc⟩
  · simp only [loadEnd, at_img, h]
  · simp only [loadEnd, at_img, hj]
    exact if_pos hc

end LoadEnds

/-! ### A check and a store end (R79, R82) -/

section CheckEnds

variable {s : State} {j : LoadJob} (t : Nat) (bad : Option Nat) (good : Bool)

theorem checkEnd_rejected {r : Reject} (hj : s.img.chk = some j) (hc : j.cmd = 2) (hr : checkSource s j.src bad = .error r) :
    checkEnd s bad = reject (endChkJob s) r := by
  simp only [checkEnd, hj, hc, hr, ne_eq, not_true_eq_false, if_false]

theorem checkEnd_passed {k : State} (hj : s.img.chk = some j) (hc : j.cmd = 2) (hk : checkSource s j.src bad = .ok k) :
    checkEnd s bad = endChkJob s := by
  simp only [checkEnd, hj, hc, hk, ne_eq, not_true_eq_false, if_false]

theorem exec_checkComplete_not (h : s.img.chk = none ∨ ∃ j, s.img.chk = some j ∧ j.cmd ≠ 2) :
    exec (.checkComplete bad t) s = .next (hstSettle (s.at t)) := by
  refine congrArg done ?_
  rcases h with h | ⟨j, hj, hc⟩
  · simp only [checkEnd, at_img, h]
  · simp only [checkEnd, at_img, hj]
    exact if_pos hc

theorem storeEnd_rejected {r : Reject} (hj : s.img.chk = some j) (hc : j.cmd = 3) (hr : checkSource s 3 none = .error r) :
    storeEnd s good = reject (endChkJob s) r := by
  simp only [storeEnd, hj, hc, hr, ne_eq, not_true_eq_false, if_false]

/-- A store whose check passes writes the inactive slot, or leaves it EMPTY where NAND does not program. -/
theorem storeEnd_passed {k : State} (hj : s.img.chk = some j) (hc : j.cmd = 3) (hk : checkSource s 3 none = .ok k) :
    storeEnd s good =
      if good then putSlot (endChkJob s) (inactiveSlot s)
        ⟨2, false, ((nandSlot s (3 - inactiveSlot s)).gen + 1) % 256, (hostStaged s).take (u32 (hostStaged s) 0x0C)⟩
      else report (putSlot (endChkJob s) (inactiveSlot s) { nandSlot s (inactiveSlot s) with state := 0 }) 0x011B := by
  simp only [storeEnd, hj, hc, hk, ne_eq, not_true_eq_false, if_false, endChkJob_nandSlot, endChkJob_hostStaged]

theorem exec_storeComplete_not (h : s.img.chk = none ∨ ∃ j, s.img.chk = some j ∧ j.cmd ≠ 3) :
    exec (.storeComplete good t) s = .next (hstSettle (s.at t)) := by
  refine congrArg done ?_
  rcases h with h | ⟨j, hj, hc⟩
  · simp only [storeEnd, at_img, h]
  · simp only [storeEnd, at_img, hj]
    exact if_pos hc

end CheckEnds

/-- Settles O34: each end by the job that runs and by what its phases say. -/
theorem imageLoadsChecksAndStoresEnd : Obligations.ImageLoadsChecksAndStoresEnd := by
  unfold Obligations.ImageLoadsChecksAndStoresEnd
  refine ⟨?_, ?_, ?_, ?_, ?_, ?_⟩
  · intro s t j bad hj hc S
    refine congrArg done ?_
    cases hr : checkSource S j.src bad with
    | ok k => exact loadEnd_built (s := s.at t) bad hj hc hr
    | error r =>
      refine (loadEnd_rejected (s := s.at t) bad hj hc hr).trans ?_
      by_cases h : (j.boot && decide (j.src ≤ 2)) = true
      · exact (if_pos h).symm
      · exact (loadRejected_command r (Bool.eq_false_iff.mpr h)).trans (if_neg h).symm
  · intro s j r k l hb hs x s1 s2
    refine ⟨fun hr => ?_, fun hr => ?_⟩
    · rw [loadRejected_boot r hb hs, hr]
      rfl
    · rw [loadRejected_boot r hb hs, hr]
      rfl
  · intro s t j bad hj hc
    refine congrArg done ?_
    cases hr : checkSource (s.at t) j.src bad with
    | error r => exact checkEnd_rejected (s := s.at t) bad hj hc hr
    | ok k => exact checkEnd_passed (s := s.at t) bad hj hc hr
  · intro s good t j hj hc S n d
    refine congrArg done ?_
    cases hr : checkSource S 3 none with
    | error r => exact storeEnd_rejected (s := s.at t) good hj hc hr
    | ok k => exact storeEnd_passed (s := s.at t) good hj hc hr
  · exact fun s good bad t => ⟨exec_loadComplete_not t bad, exec_checkComplete_not t bad, exec_storeComplete_not t good⟩
  · intro s
    refine ⟨endImgJob_img s, endChkJob_img s, ?_, endChkJob_rd s _ (by decide) (by decide) (by decide) (by decide), ?_⟩
    · simp only [State.flag, endChkJob_rd_checkBusy]
      rfl
    · simp only [State.flag, endImgJob_rd s IMG_STATUS_CHECK_BUSY (by decide) (by decide) (by decide) (by decide)]

end Sys2Proof.Proofs
end

section
/-! PROOFS. O35: function groups stop and restart. -/

namespace Sys2Proof.Proofs

open Sys2Proof Sys2Proof.Machine Sys2Proof.Laws

@[simp] theorem putPend_img (s : State) (v : Nat) : (putPend s v).img = s.img := by rw [putPend, wrs_img]

/-! ### Writes of IMG_FUNC_STOP and IMG_FUNC_RESTART (R85, R87, R385, R440) -/

section Writes

variable {s : State} {p : Path} {g : Nat} (v t : Nat)

/-- What a write of IMG_FUNC_STOP asks of one group that it names. -/
def stopNamed (r : State) (g : Nat) : State :=
  if groupStopped r g || bit (pendBits r) g then r else putPend r (setBit (pendBits r) g true)

theorem stopNamed_img (r : State) (g : Nat) : (stopNamed r g).img = r.img := by
  simp only [stopNamed]
  split <;> simp

/-- The groups named go one after another, and the groups held stand while they do. -/
theorem foldl_held (s : State) (l : List Nat) (f : State → Nat → State)
    (hf : ∀ r g, (f r g).img.heldGroups = r.img.heldGroups) :
    l.foldl (fun r g => if bit r.img.heldGroups g then refuse r 0x0124 0 g else f r g) s =
      l.foldl (fun r g => if bit s.img.heldGroups g then refuse r 0x0124 0 g else f r g) s := by
  refine (List.foldl_rel (r := fun x y => x = y ∧ y.img.heldGroups = s.img.heldGroups) ⟨rfl, rfl⟩ ?_).1
  rintro g - x r ⟨rfl, hx⟩
  refine ⟨by rw [hx], ?_⟩
  split
  · rw [refuse_img, hx]
  · rw [hf, hx]

theorem funcStop_eq (s : State) (v : Nat) :
    funcStop s v = (groupsIn s v).foldl (fun r g => if bit s.img.heldGroups g then refuse r 0x0124 0 g else stopNamed r g) s :=
  foldl_held s (groupsIn s v) stopNamed fun r g => by rw [stopNamed_img]

theorem funcStop_one (hv : groupsIn s v = [g]) (hh : bit s.img.heldGroups g = false) (hs : groupStopped s g = false)
    (hp : bit (pendBits s) g = false) : funcStop s v = putPend s (setBit (pendBits s) g true) := by
  rw [funcStop_eq, hv, List.foldl_cons, List.foldl_nil, if_neg (Bool.eq_false_iff.mp hh)]
  exact if_neg (by simp [hs, hp])

/-- What a write of IMG_FUNC_RESTART asks of one group that it names. -/
def restartNamed (r : State) (g : Nat) : State :=
  if groupStopped r g then { r with img := { r.img with restart := setBit r.img.restart g true } } else refuse r 0x0123 0 g

theorem restartNamed_held (r : State) (g : Nat) : (restartNamed r g).img.heldGroups = r.img.heldGroups := by
  simp only [restartNamed]
  split
  · rfl
  · rw [refuse_img]

theorem funcRestart_idle (h : s.idle = true) : funcRestart s v = s := if_pos h

theorem funcRestart_eq (h : s.idle = false) :
    funcRestart s v = (groupsIn s v).foldl (fun r g => if bit s.img.heldGroups g then refuse r 0x0124 0 g else restartNamed r g) s := by
  refine (if_neg (Bool.eq_false_iff.mp h)).trans ?_
  simp only [ite_bnot]
  exact foldl_held s (groupsIn s v) restartNamed restartNamed_held

theorem funcRestart_one (hi : s.idle = false) (hv : groupsIn s v = [g]) (hh : bit s.img.heldGroups g = false) (hs : groupStopped s g = true) :
    funcRestart s v = { s with img := { s.img with restart := setBit s.img.restart g true } } := by
  rw [funcRestart_eq v hi, hv, List.foldl_cons, List.foldl_nil, if_neg (Bool.eq_false_iff.mp hh)]
  exact if_pos hs

theorem unlessSilent_works {off : Nat} {f : State → State} (h : s.flag ERR_STATUS_FAIL_SILENT = false) : unlessSilent s p off f = f s :=
  if_neg (Bool.eq_false_iff.mp h)

theorem unlessSilent_silent {off : Nat} {f : State → State} (h : s.flag ERR_STATUS_FAIL_SILENT = true) :
    unlessSilent s p off f = discard s p off 0x1205 :=
  if_pos h

theorem exec_funcStop_lets (h : s.lets p 0x40030) :
    exec (.funcStop p v t) s = .next (hstSettle (unlessSilent (s.taken p t) p 0x40030 fun x => funcStop x v)) :=
  congrArg done (hostDo_lets s p _ _ t _ h)

theorem exec_funcRestart_lets (h : s.lets p 0x40034) :
    exec (.funcRestart p v t) s = .next (hstSettle (unlessSilent (s.taken p t) p 0x40034 fun x => funcRestart x v)) :=
  congrArg done (hostDo_lets s p _ _ t _ h)

end Writes

/-! ### A group stops (R85, R89, R437) -/

section Stops

variable {s : State} {g : Nat} (t : Nat)

/-- The group that T0 has taken leaves PEND and reads stopped. -/
def markStopped (s : State) (g : Nat) : State := putState (putPend s (setBit (pendBits s) g false)) (setBit (stateBits s) g true)

theorem groupInFlight_iff : groupInFlight s g = true ↔ ∃ c ∈ s.seq.cycs, bit c.inp.runs g = true := by
  simp [groupInFlight]

theorem stopGroup_last (hp : bit (pendBits s) g = true) (ht : bit s.img.taken g = true) (hc : ∀ c ∈ s.seq.cycs, bit c.inp.runs g = false) :
    stopGroup s g = groupEffect (markStopped s g) g := by
  have hf : groupInFlight s g = false := by simpa [groupInFlight] using hc
  exact if_pos (by simp [hp, ht, hf])

theorem stopGroup_not (h : bit (pendBits s) g = false ∨ bit s.img.taken g = false ∨ ∃ c ∈ s.seq.cycs, bit c.inp.runs g = true) :
    stopGroup s g = s := by
  refine if_neg ?_
  rcases h with h | h | h
  · simp [h]
  · simp [h]
  · simp [groupInFlight_iff.mpr h]

theorem mcAck_notHeld (h : s.pst.held = none) : mcAck s = s := by simp only [mcAck, h]

theorem exec_groupStopped_eq (s : State) (g t : Nat) : exec (.groupStopped g t) s = .next (hstSettle (mcAck (stopGroup (s.at t) g))) := rfl

/-! ### What the stop of each kind of group does (R89) -/

theorem groupEffect_none (h : g = 0 ∨ g = 2 ∨ g = 5 ∨ g = 6 ∨ g = 7) : groupEffect s g = s := by
  rcases h with rfl | rfl | rfl | rfl | rfl <;> rfl

theorem groupEffect_can (h8 : 8 ≤ g) (h16 : g < 16) : groupEffect s g = canStop s (g - 8) := by
  simp only [groupEffect, if_neg (show g ≠ 1 by omega), if_neg (show g ≠ 3 by omega), if_neg (show g ≠ 4 by omega), if_pos (And.intro h8 h16)]

theorem groupEffect_net (h : 16 ≤ g) : groupEffect s g = netStop s (g - 16) := by
  simp only [groupEffect, if_neg (show g ≠ 1 by omega), if_neg (show g ≠ 3 by omega), if_neg (show g ≠ 4 by omega),
    if_neg (show ¬ (8 ≤ g ∧ g < 16) by omega), if_pos h]

end Stops

/-- Settles O35: the writes group by group, and the stop of a group by what it waits for. -/
theorem groupsStopAndRestart : Obligations.GroupsStopAndRestart := by
  unfold Obligations.GroupsStopAndRestart
  refine ⟨?_, ?_, ?_, ?_⟩
  · intro s p v t g hg S
    have ends {u : State} (h : unlessSilent S p 0x40030 (fun x => funcStop x v) = u) : exec (.funcStop p v t) s = .next (hstSettle u) :=
      (exec_funcStop_lets v t hg).trans (congrArg done h)
    refine ⟨fun hw => ends ((unlessSilent_works (s := S) hw).trans (funcStop_eq S v)), fun hs => ends (unlessSilent_silent (s := S) hs),
      fun hw hv hh hs hp => ends ((unlessSilent_works (s := S) hw).trans (funcStop_one (s := S) v hv hh hs hp))⟩
  · intro s g t hp ht hc S
    refine ⟨?_, groupEffect_none, rfl, rfl, groupEffect_can, groupEffect_net⟩
    exact (exec_groupStopped_eq s g t).trans (congrArg (fun x => done (mcAck x)) (stopGroup_last (s := s.at t) hp ht hc))
  · intro s g t h
    have hs : exec (.groupStopped g t) s = .next (hstSettle (mcAck (s.at t))) :=
      (exec_groupStopped_eq s g t).trans (congrArg (fun x => done (mcAck x)) (stopGroup_not (s := s.at t) h))
    exact ⟨hs, fun hh => hs.trans (congrArg done (mcAck_notHeld (s := s.at t) hh))⟩
  · intro s p v t g hg S
    have ends {u : State} (h : unlessSilent S p 0x40034 (fun x => funcRestart x v) = u) : exec (.funcRestart p v t) s = .next (hstSettle u) :=
      (exec_funcRestart_lets v t hg).trans (congrArg done h)
    refine ⟨fun hw hi => ends ((unlessSilent_works (s := S) hw).trans (funcRestart_idle (s := S) v hi)),
      fun hw hi => ends ((unlessSilent_works (s := S) hw).trans (funcRestart_eq (s := S) v hi)), fun hs => ends (unlessSilent_silent (s := S) hs),
      fun hw hi hv hh hs => ends ((unlessSilent_works (s := S) hw).trans (funcRestart_one (s := S) v hi hv hh hs))⟩

end Sys2Proof.Proofs
end

section
/-! PROOFS. O24, refuted: a tunnelled write that is executed is answered although an access held before it is dropped by what it does (R434,
R487, R493), whereas the statement answers it only where as many accesses are held after it as before. -/

namespace Sys2Proof.Proofs

open Sys2Proof Sys2Proof.Machine Sys2Proof.Laws

/-- A cascade device, number 1 of its string, whose policy permits tunnelled writes; a write of its only session to GNS_RTCM_DATA waits for
the clock of a gated domain. -/
def sessionWaits : State :=
  let s := State.reset.wrs [(PST_CFG_ROLE, 2), (PST_STATUS_ADDR, 1), (PST_PORT_STS_STATE 0, 3), (IMG_STATUS_STATE, 2), (SEC_POLICY_FLAGS, 16),
    (HST_MAP_IMPL_OFF_MAJOR, 4), (HST_MAP_IMPL_OFF_MAX, 1), (CLK_DOM_STS_STATE 5, 3)]
  { s with
    hst := { s.hst with held := [⟨.sess 0, 0x180014, some 0, 0, 5⟩] },
    sec_ := { s.sec_ with sess := [⟨1, 0, 0, 0, [], [], 0, [], 0, 0, 0, 0, 0⟩] } }

/-- The header of a frame from device 2 of the string to this one. -/
def fromTwo : PstHdr := ⟨0, 2, 1, false, false, 0, 0⟩

/-- What a tunnelled write that a frame brings leaves, before any answer. -/
def tunnelWritten (s : State) (f : PstHdr) (off v t : Nat) : State := hostWrite ((s.at t).heard f 0x30) (.tun f.src) off v

/-- The answers to tunnelled accesses that a command has sent. -/
def tunnelAnswers : Host.Outcome State Fault Refusal → Nat
  | .next s => s.sent.countP fun
    | .piste 0x30 1 _ _ _ => true
    | _ => false
  | _ => 0

theorem sessionWaits_hears : sessionWaits.hears fromTwo 0x30 = true := by decide +kernel

theorem sessionWaits_permits : bit (((sessionWaits.at 0).heard fromTwo 0x30).rd SEC_POLICY_FLAGS) 4 = true := by decide +kernel

/-- A write of ERR_CTRL.FORCE_S leaves a fail-silent device, which has closed the session and dropped its access. -/
theorem forceS_tunnelled_drops :
    (tunnelWritten sessionWaits fromTwo 0x250004 1 0).hst.held.length ≠ ((sessionWaits.at 0).heard fromTwo 0x30).hst.held.length := by
  decide +kernel

theorem forceS_tunnelled_answers : tunnelAnswers (exec (.tunnel fromTwo (.req true 0x250004 1) 0) sessionWaits) = 1 := by decide +kernel

theorem tunnelWritten_unanswered : tunnelAnswers (.next (hstSettle (tunnelWritten sessionWaits fromTwo 0x250004 1 0))) = 0 := by
  decide +kernel

/-- What O24 says of a permitted write after which another number of accesses is held than before: no answer is sent. -/
theorem stated_unanswered (h : Obligations.TunnelAndImageFramesAct) {s : State} {f : PstHdr} {off v t : Nat} (hh : s.hears f 0x30 = true)
    (hp : bit (((s.at t).heard f 0x30).rd SEC_POLICY_FLAGS) 4 = true)
    (hl : (tunnelWritten s f off v t).hst.held.length ≠ ((s.at t).heard f 0x30).hst.held.length) :
    exec (.tunnel f (.req true off v) t) s = .next (hstSettle (tunnelWritten s f off v t)) := by
  unfold Obligations.TunnelAndImageFramesAct at h
  obtain ⟨hreq, -⟩ := h
  obtain ⟨-, hpermitted, -⟩ := hreq s f true off v t hh
  exact (hpermitted rfl hp).trans (congrArg done (if_pos hl))

/-- Refutes O24: device 2 writes ERR_CTRL.FORCE_S through the tunnel of a device that holds an access of a session. The device goes fail-silent,
which closes the session and drops its access (R385, R487, R493), and answers the write (R434); the statement, which takes any change of the number of
held accesses for the write being held, has no answer sent. -/
theorem not_tunnelAndImageFramesAct : ¬ Obligations.TunnelAndImageFramesAct := by
  intro h
  have hexec := stated_unanswered h sessionWaits_hears sessionWaits_permits forceS_tunnelled_drops
  have hcount : 1 = 0 := forceS_tunnelled_answers.symm.trans ((congrArg tunnelAnswers hexec).trans tunnelWritten_unanswered)
  exact absurd hcount (by decide)

end Sys2Proof.Proofs
end

section
/-! PROOFS. How a Piste frame reaches its user: a device that hears the frame passes it on where that is its part, and then takes it (R418,
R420, R423, R426). -/

namespace Sys2Proof.Proofs

open Sys2Proof Sys2Proof.Machine Sys2Proof.Laws

section Heard

variable {s : State} {h : PstHdr} {typ : Nat}

/-- A frame is heard outside a boot over Piste where the port works and carries it, the device is addressed, and no conflict stands against it. -/
theorem hears_iff (hb : bootTarget s = false) :
    s.hears h typ = true ↔
      (cascRole s ≠ 0 ∧ (h.port = 2 ∨ (h.port < 2 ∧ 2 ≤ s.rd (PST_PORT_STS_STATE h.port)))) ∧ portCarries s h.port typ = true
      ∧ (if (h.bstr || h.ball) = true then h.src ≠ ownAddr s else h.dst = ownAddr s)
      ∧ (if isData typ = true then
          (s.pport h.port).addrBad = false ∧ (s.pport h.port).masterBad = false ∧ timingBad s = false ∧ cascStopped s = false
        else (s.pport h.port).masterBad = false ∨ typ = 1 ∨ typ = 2) := by
  simp only [State.hears, hb, Bool.false_eq_true, if_false]
  split_ifs <;> simp [and_assoc, or_assoc]

/-- Management frames alone are heard during a boot over Piste (R435). -/
theorem hears_boot_iff (hb : bootTarget s = true) :
    s.hears h typ = true ↔ (h.port < 2 && portCarries s h.port typ && !isData typ) = true := by
  simp only [State.hears, hb, if_true]

/-- A device outside a boot over Piste passes on broadcasts alone of what it hears (R423, R426). -/
theorem heard_run (ws : List Nat) (hb : bootTarget s = false) :
    s.heard h typ ws =
      if (h.bstr || h.ball) && !(s.pport h.port).addrBad && typ ≠ 1 && typ ≠ 3 then pstForward s h typ ws else s := by
  simp only [State.heard, hb, Bool.not_false, Bool.true_and, Bool.and_assoc, Bool.and_comm, Bool.and_left_comm]

/-- A frame that is heard is for this device. -/
theorem hears_notForOthers (hb : bootTarget s = false) (hh : s.hears h typ = true) : forOthers s h = false := by
  obtain ⟨-, -, haddr, -⟩ := (hears_iff hb).mp hh
  unfold forOthers
  split at haddr
  · next hc => rw [← Bool.not_or, hc]; rfl
  · simp [haddr]

/-- It is so too once it has been passed on: only a broadcast is. -/
theorem heard_notForOthers (ws : List Nat) (hb : bootTarget s = false) (hh : s.hears h typ = true) : forOthers (s.heard h typ ws) h = false := by
  rw [heard_run ws hb]
  cases hc : h.bstr || h.ball with
  | true => rw [forOthers, ← Bool.not_or, hc]; rfl
  | false => exact hears_notForOthers hb hh

/-- The device takes part in the cascade, and the frame's port is its own. -/
theorem hears_port (hb : bootTarget s = false) (hh : s.hears h typ = true) :
    (cascRole s = 0 || 2 < h.port || (h.port = 2 && !portCarries s 2 typ)) = false := by
  obtain ⟨⟨hrole, hport⟩, hcarries, -⟩ := (hears_iff hb).mp hh
  rcases hport with hp | ⟨hp, -⟩
  · rw [hp] at hcarries
    simp [hrole, hp, hcarries]
  · simp [hrole, hp.le, hp.ne]

/-- The port is up. -/
theorem hears_portUp (hb : bootTarget s = false) (hh : s.hears h typ = true) :
    (h.port < 2 && s.rd (PST_PORT_STS_STATE h.port) < 2) = false := by
  obtain ⟨⟨-, hport⟩, -⟩ := (hears_iff hb).mp hh
  rcases hport with hp | ⟨-, hs⟩
  · simp [hp]
  · simp [Nat.not_lt.mpr hs]

/-- The frame is not the device's own broadcast come round the ring. -/
theorem hears_notOwn (hb : bootTarget s = false) (hh : s.hears h typ = true) : ((h.bstr || h.ball) && h.src = ownAddr s) = false := by
  obtain ⟨-, -, haddr, -⟩ := (hears_iff hb).mp hh
  split at haddr
  · simp [haddr]
  · next hc => simp [hc]

/-- A frame that is heard acts on its user, in the state in which it has been passed on: no gate of R418 and R420 turns it away. -/
theorem pstTakeWith_hears (ws : List Nat) (f : State → State) (hh : s.hears h typ = true) :
    pstTakeWith s h typ ws f = f (s.heard h typ ws) := by
  cases hb : bootTarget s with
  | true =>
    rw [pstTakeWith, hb, if_pos rfl, if_pos ((hears_boot_iff hb).mp hh)]
    simp only [State.heard, hb, Bool.not_true, Bool.false_and, Bool.false_eq_true, if_false]
  | false =>
    obtain ⟨-, hcarries, -, hfree⟩ := (hears_iff hb).mp hh
    have hmine := heard_notForOthers ws hb hh
    rw [heard_run ws hb] at hmine ⊢
    simp only [pstTakeWith, hb, hears_port hb hh, hears_portUp hb hh, hears_notOwn hb hh, hcarries, hears_notForOthers hb hh,
      Bool.false_eq_true, if_false, Bool.not_true, Bool.false_or, Bool.or_false]
    cases hd : isData typ with
    | true =>
      rw [hd, if_pos rfl] at hfree
      obtain ⟨ha, hm, ht, hc⟩ := hfree
      have hkind : typ ≠ 1 ∧ typ ≠ 3 := by constructor <;> rintro rfl <;> exact absurd hd (by decide)
      simp only [ha, hkind, ne_eq, not_false_eq_true, decide_true, Bool.not_false, Bool.and_true] at hmine ⊢
      simp only [hm, ht, hc, hmine, Bool.or_self, Bool.false_eq_true, if_false, if_true]
    | false =>
      rw [hd, if_neg Bool.false_ne_true] at hfree
      have hm : ((s.pport h.port).masterBad && typ ≠ 1 && typ ≠ 2) = false := by
        rcases hfree with hm | rfl | rfl <;> simp [*]
      simp only [hm, hmine, Bool.false_eq_true, if_false]

/-- The same of a frame that forwarding leaves as it is, at the time it arrives. -/
theorem pstTake_hears (t : Nat) (f : State → State) (hh : s.hears h typ = true) :
    pstTake (s.at t) h typ f = f ((s.at t).heard h typ) :=
  pstTakeWith_hears [] f (show (s.at t).hears h typ = true from hh)

end Heard

end Sys2Proof.Proofs
end

section
/-! PROOFS. O23: WIDEN tables, DEEPEN shares and boxes, slots of other devices, exported jobs and their outcomes, and the data of reference
nodes. -/

namespace Sys2Proof.Proofs

open Sys2Proof Sys2Proof.Machine Sys2Proof.Laws

/-! ### Tables, shares, boxes and slots (R95, R225, R226, R432) -/

/-- A WIDEN table is kept: it comes from the master in WIDEN, for a cycle that has not committed. -/
def keepsTable (s : State) (h : PstHdr) : Bool :=
  hasPurpose s 0 && isMasterAddr s h.src && ((s.cyc? (fullCyc s h.cyc)).map fun c => !c.committed).getD true

/-- Stage 6 of the cycle that uses a share of cycle `n` has started. -/
def shareLate (s : State) (n : Nat) : Bool :=
  let user := n + u8 s.casc 0x0B
  user < s.seq.nextN && ((s.cyc? user).map fun c => c.missed || c.committed || 6 ≤ c.run.stage).getD true

/-- A slot's value goes to each slot of kind 4 that names the device and the slot. -/
theorem slotFrom_eq (s : State) (src i : Nat) (vals : List Nat) (tArr : Int) (tSrc : Option Int) (invalid : Bool) :
    slotFrom s src i vals tArr tSrc invalid = (definedSlots (s.sec 3)).foldl (fun x k =>
      let e := (slotEntry (s.sec 3) k).getD []
      if u8 e 1 = 4 ∧ u32 e 8 = src ∧ u16 e 6 = i then slotArrive x k vals tArr tSrc invalid else x) s := by
  simp only [slotFrom, Bool.and_eq_true, decide_eq_true_eq, and_assoc]

section Share

variable {s : State} {h : PstHdr} (t : Nat) (hh : s.hears h 0x14 = true)
include hh

theorem exec_share_table (w : WidenTable) :
    let u := (s.at t).heard h 0x14
    exec (.share h (.table w) t) s = .next (hstSettle (
      if keepsTable u h = true then
        { u with alloc := { u.alloc with
          tables := ((fullCyc u h.cyc, w) :: u.alloc.tables.filter fun x => x.1 ≠ fullCyc u h.cyc).take 4 } }
      else u)) :=
  congrArg done (pstTake_hears t _ hh)

theorem exec_share_share (f : List Nat) :
    let u := (s.at t).heard h 0x14
    exec (.share h (.share f) t) s = .next (hstSettle (
      if (deepenGroup u && isMasterAddr u h.src && !shareLate u (fullCyc u h.cyc)) = true then
        { u with alloc := { u.alloc with shares := ((fullCyc u h.cyc, f) :: u.alloc.shares).take 8 } }
      else u)) :=
  congrArg done (pstTake_hears t _ hh)

theorem exec_share_box (thr : Nat) (neg pos : List Nat) :
    let u := (s.at t).heard h 0x14
    exec (.share h (.box thr neg pos) t) s = .next (hstSettle (
      if (hasPurpose u 1 && isMaster u) = true then
        { u with alloc := { u.alloc with
          boxes := (thr, neg, pos) :: u.alloc.boxes.filter fun b => b.1 ≠ thr
          boxNew := setBit u.alloc.boxNew thr true } }
      else u)) :=
  congrArg done (pstTake_hears t _ hh)

theorem exec_share_slot (i : Nat) (vals : List Nat) (tArr : Int) (tSrc : Option Int) (invalid : Bool) :
    exec (.share h (.slot i vals tArr tSrc invalid) t) s =
      .next (hstSettle (slotFrom ((s.at t).heard h 0x14) h.src i vals tArr tSrc invalid)) :=
  congrArg done (pstTake_hears t _ hh)

end Share

/-! ### Exported jobs and their outcomes (R433) -/

/-- The entry of the import list that names a scenario of the device a frame comes from. -/
def importNamed (s : State) (h : PstHdr) (scen : Nat) : Option ImpEntry := (importList s).find? fun e => e.src = h.src && e.scen = scen

/-- The place of an import in the job table of its lane. -/
def importPlace (s : State) (e : ImpEntry) : Nat := (laneOrders s e.lane).findIdx fun o => o = e.order

/-- The job that an exported problem makes at its server; it ends by the exporter's stage 6 deadline less the import's return time. -/
def importJob (s : State) (h : PstHdr) (e : ImpEntry) (scen : Nat) (d6 : Int) (warm : Bool) (cap : Nat) (prob : Prob) : Job :=
  { lane := e.lane, j := importPlace s e, typ := 1, id := scen, embed := false, warm := warm, cap := cap, sub := 0, cyc := fullCyc s h.cyc,
    deadline := cntFrom s.tim (d6 - ((e.retUs * 1000 * 65536 : Nat) : Int)), prob := prob, ls := .none, words := prob.words,
    started := none, res := none }

/-- The job stands among the imports, in the stead of what held its place before. -/
def importPut (s : State) (i : ImpJob) : State :=
  s.ps fun x => { x with imports := (x.imports.filter fun y => !(y.job.lane = i.job.lane && y.job.j = i.job.j && y.job.typ = 1)) ++ [i] }

/-- The shape is beyond the import's bounds, or the descriptor is bad. -/
def importBad (e : ImpEntry) (prob : Prob) (q : Job) : Bool := e.nMax < prob.n || e.pMax < prob.p || e.mMax < prob.m || descBad q

section MultJob

variable {s : State} {h : PstHdr} {scen : Nat} (d6 : Int) (warm : Bool) (cap : Nat) (prob : Prob) (t : Nat) (hh : s.hears h 0x15 = true)
include hh

/-- A job that the import list does not name is discarded. -/
theorem exec_multJob_unnamed
    (hn : hasPurpose ((s.at t).heard h 0x15) 2 = false ∨ importNamed ((s.at t).heard h 0x15) h scen = none) :
    exec (.multJob h scen d6 warm cap prob t) s = .next (hstSettle ((s.at t).heard h 0x15)) := by
  refine congrArg done ((pstTake_hears t _ hh).trans ?_)
  have hnone : (if hasPurpose ((s.at t).heard h 0x15) 2 then importNamed ((s.at t).heard h 0x15) h scen else none) = none := by
    rcases hn with hp | hi
    · rw [hp, if_neg Bool.false_ne_true]
    · rw [hi, ite_self]
  rw [importNamed] at hnone
  simp only [hnone]

/-- One that it names is judged by its shape and by its lane. -/
theorem exec_multJob_named {e : ImpEntry} (hp : hasPurpose ((s.at t).heard h 0x15) 2 = true)
    (hi : importNamed ((s.at t).heard h 0x15) h scen = some e) :
    let u := (s.at t).heard h 0x15
    let q := importJob u h e scen d6 warm cap prob
    let i : ImpJob := ⟨h.src, scen, q, false⟩
    exec (.multJob h scen d6 warm cap prob t) s = .next (hstSettle (
      if importBad e prob q = true then endImport (importPut u i) i (emptyRes 8)
      else if laneFenced (importPut u i) e.lane = true then endImport (importPut u i) i (emptyRes 9)
      else placeJob (importPut u i) q)) := by
  refine congrArg done ((pstTake_hears t _ hh).trans ?_)
  rw [importNamed] at hi
  simp only [hp, hi, if_true]
  rfl

end MultJob

/-- The job of a cycle that waits for the outcome from the server of its scenario. -/
def exportWaits (s : State) (n scen : Nat) : Option Job :=
  (s.cyc? n).bind fun c => c.out.jobs.find? fun q => q.lane = 64 && q.id = scen && q.res.isNone

section MultRes

variable {s : State} {h : PstHdr} {scen : Nat} (r : JobRes) (t : Nat) (hh : s.hears h 0x16 = true)
include hh

theorem exec_multRes_none (hq : exportWaits ((s.at t).heard h 0x16) (fullCyc ((s.at t).heard h 0x16) h.cyc) scen = none) :
    exec (.multRes h scen r t) s = .next (hstSettle ((s.at t).heard h 0x16)) := by
  refine congrArg done ((pstTake_hears t _ hh).trans ?_)
  rw [exportWaits] at hq
  simp only [hq]

theorem exec_multRes_some {q : Job} (hq : exportWaits ((s.at t).heard h 0x16) (fullCyc ((s.at t).heard h 0x16) h.cyc) scen = some q) :
    let u := (s.at t).heard h 0x16
    exec (.multRes h scen r t) s =
      .next (hstSettle (if serverOf u scen = some h.src ∧ u.tim.cnt ≤ q.deadline then endJob u q r else u)) := by
  refine congrArg done ((pstTake_hears t _ hh).trans ?_)
  rw [exportWaits] at hq
  simp only [hq, Bool.and_eq_true, decide_eq_true_eq]

end MultRes

/-! ### Reference nodes (R152) -/

/-- The job of a node that waits for the result from its lane device. -/
def nodeWaits (s : State) (n id : Nat) : Option Job :=
  s.gns.jobs.find? fun q => 64 ≤ q.lane && q.id = id && q.cyc = n && q.res.isNone

/-- The device computes for the reference node that a frame comes from. -/
def computesFor (s : State) (h : PstHdr) : Bool := !s.isNode && (peerList s).any fun x => x.1 = h.src && x.2.1 = 3

/-- The job that a node's data make at its lane device. -/
def nodeJob (s : State) (h : PstHdr) (id : Nat) (ls : LsProb) : Job :=
  gnsJob s 64 id (fullCyc s h.cyc) (gnsDeadline s (t0At s (fullCyc s h.cyc))) ls

section GnssRec

variable {s : State} {h : PstHdr} {id : Nat} (ls : LsProb) (t : Nat) (hh : s.hears h 0x17 = true)
include hh

theorem exec_gnssRec_result_none (r : JobRes)
    (hq : nodeWaits ((s.at t).heard h 0x17) (fullCyc ((s.at t).heard h 0x17) h.cyc) id = none) :
    exec (.gnssRec h id ls (some r) t) s = .next (hstSettle ((s.at t).heard h 0x17)) := by
  refine congrArg done ((pstTake_hears t _ hh).trans ?_)
  rw [nodeWaits] at hq
  simp only [hq]

theorem exec_gnssRec_result_some (r : JobRes) {q : Job}
    (hq : nodeWaits ((s.at t).heard h 0x17) (fullCyc ((s.at t).heard h 0x17) h.cyc) id = some q) :
    let u := (s.at t).heard h 0x17
    exec (.gnssRec h id ls (some r) t) s = .next (hstSettle (
      if u.isNode = true ∧ h.src = laneDevice u ∧ u.tim.cnt ≤ q.deadline then gnsJobDone (gnsEnd u q r) q r else u)) := by
  refine congrArg done ((pstTake_hears t _ hh).trans ?_)
  rw [nodeWaits] at hq
  simp only [hq, Bool.and_eq_true, decide_eq_true_eq, and_assoc]

theorem exec_gnssRec_data :
    let u := (s.at t).heard h 0x17
    let q := nodeJob u h id ls
    exec (.gnssRec h id ls none t) s = .next (hstSettle (
      if computesFor u h = true then
        if descBad q = true then endImport u ⟨h.src, id, q, false⟩ (emptyRes 8)
        else waitFill (u.gn fun g => { g with wait := g.wait ++ [(h.src, q)] })
      else u)) := by
  refine congrArg done ((pstTake_hears t _ hh).trans ?_)
  rw [← ite_bnot, computesFor, Bool.not_and, Bool.not_not]
  rfl

end GnssRec

/-- Settles O23: each frame by who sends it and by what the device is to the cascade, a job by its shape, its lane, its server and its deadline. -/
theorem sharesAndExportedJobsArrive : Obligations.SharesAndExportedJobsArrive := by
  unfold Obligations.SharesAndExportedJobsArrive
  refine ⟨?_, ?_, ?_, ?_, ?_, ?_, ?_, ?_⟩
  · intro s h w t hh s0 n open_
    have command := exec_share_table t hh w
    refine ⟨fun hm hp ho => ?_, fun hn => ?_⟩
    · have hkeep : (hasPurpose s0 0 && isMasterAddr s0 h.src && open_) = true := by rw [hp, hm, ho]; rfl
      exact command.trans (congrArg done (if_pos hkeep))
    · have hkeep : (hasPurpose s0 0 && isMasterAddr s0 h.src && open_) = false := by
        rcases hn with hm | hp | ho
        · rw [hm, Bool.and_false, Bool.false_and]
        · rw [hp, Bool.false_and, Bool.false_and]
        · rw [ho, Bool.and_false]
      exact command.trans (congrArg done (if_neg (ne_true_of_eq_false hkeep)))
  · intro s h f t hh s0 n user late
    have command := exec_share_share t hh f
    refine ⟨fun hg hm hl => ?_, fun hn => ?_⟩
    · have hkeep : (deepenGroup s0 && isMasterAddr s0 h.src && !late) = true := by rw [hg, hm, hl]; rfl
      exact command.trans (congrArg done (if_pos hkeep))
    · have hkeep : (deepenGroup s0 && isMasterAddr s0 h.src && !late) = false := by
        rcases hn with hg | hm | hl
        · rw [hg, Bool.false_and, Bool.false_and]
        · rw [hm, Bool.and_false, Bool.false_and]
        · rw [hl, Bool.not_true, Bool.and_false]
      exact command.trans (congrArg done (if_neg (ne_true_of_eq_false hkeep)))
  · intro s h thr neg pos t hh s0
    have command := exec_share_box t hh thr neg pos
    refine ⟨fun hp hm => ?_, fun hn => ?_⟩
    · exact command.trans (congrArg done (if_pos (Bool.and_eq_true_iff.mpr ⟨hp, hm⟩)))
    · exact command.trans (congrArg done (if_neg (ne_true_of_eq_false (Bool.and_eq_false_iff.mpr hn))))
  · intro s h i vals tArr tSrc invalid t hh s0
    refine (exec_share_slot t hh i vals tArr tSrc invalid).trans (congrArg done ?_)
    rw [slotFrom_eq]
  · intro s h scen d6 warm cap prob t e hh s0 named place q i s1 bad
    refine ⟨fun hp he => ?_, exec_multJob_unnamed d6 warm cap prob t hh⟩
    have command := exec_multJob_named d6 warm cap prob t hh hp he
    refine ⟨fun hb hf => ?_, fun hb => ?_, fun hb hf => ?_⟩
    · exact command.trans (congrArg done ((if_neg (ne_true_of_eq_false hb)).trans (if_neg (ne_true_of_eq_false hf))))
    · exact command.trans (congrArg done (if_pos hb))
    · exact command.trans (congrArg done ((if_neg (ne_true_of_eq_false hb)).trans (if_pos hf)))
  · intro s h scen r t q hh s0 waits
    refine ⟨fun hq hs hd => ?_, ?_⟩
    · exact (exec_multRes_some r t hh hq).trans (congrArg done (if_pos ⟨hs, hd⟩))
    · rintro (hq | ⟨hq, hn⟩)
      · exact exec_multRes_none r t hh hq
      · refine (exec_multRes_some r t hh hq).trans (congrArg done (if_neg ?_))
        rintro ⟨hs, hd⟩
        exact hn.elim (absurd hs) hd.not_gt
  · intro s h id ls r t q hh s0 waits
    refine ⟨fun hq hn hs hd => ?_, ?_⟩
    · exact (exec_gnssRec_result_some ls t hh r hq).trans (congrArg done (if_pos ⟨hn, hs, hd⟩))
    · rintro (hq | ⟨hq, hn⟩)
      · exact exec_gnssRec_result_none ls t hh r hq
      · refine (exec_gnssRec_result_some ls t hh r hq).trans (congrArg done (if_neg ?_))
        rintro ⟨hnode, hs, hd⟩
        rcases hn with hn | hn | hn
        · exact absurd (hnode.symm.trans hn) (by decide)
        · exact hn hs
        · exact hd.not_gt hn
  · intro s h id ls t hh s0 n q node
    have command := exec_gnssRec_data (id := id) ls t hh
    refine ⟨fun hn hb => ?_, fun hn hb => ?_, fun hn => ?_⟩
    · exact command.trans (congrArg done ((if_pos hn).trans (if_neg (ne_true_of_eq_false hb))))
    · exact command.trans (congrArg done ((if_pos hn).trans (if_pos hb)))
    · exact command.trans (congrArg done (if_neg (ne_true_of_eq_false hn)))

end Sys2Proof.Proofs
end

section
/-! PROOFS. O43: filter samples, the observer's host requests, the words of its banks, and reads of lane memory. -/

namespace Sys2Proof.Proofs

open Sys2Proof Sys2Proof.Machine Sys2Proof.Laws

/-! ### Filter samples (R103) and the blocks that they complete (R395) -/

/-- A channel's tick has come, and REF samples it in a device that runs. -/
def firDue (s : State) (k m : Nat) : Bool :=
  2 ≤ s.rd SEQ_STATUS_STATE && refSamples s k m && k < s.rd FLT_STATUS_CHANNELS && s.flt.next.getD k 0 = m && tickAt s k m ≤ s.now

/-- The sample that a channel takes of its slot now, BAD where the slot is stale or invalid. -/
def firTake (s : State) (k m : Nat) : FirSample :=
  let i := s.rd (FLT_CH_CFG_SLOT k)
  let l := at_ s.flt.live i slotZero
  let e := (slotEntry (s.sec 3) i).getD []
  let bad := liveStale e l s.now || l.invalid
  ⟨k, m, bad, if bad then 0 else l.vals.getD (s.rd (FLT_CH_CFG_COMP k)) 0, l.tSrc.getD l.tArr - slotLat e⟩

/-- The channel has taken its sample and waits for the next tick. -/
def firTaken (s : State) (k m : Nat) : State :=
  { s with flt := { s.flt with next := put_ s.flt.next k 0 (m + 1), smp := s.flt.smp ++ [firTake s k m] } }

theorem firSampleOp_due {s : State} {k m : Nat} (h : firDue s k m = true) : firSampleOp k m s = firTaken s k m := if_pos h

theorem firSampleOp_notDue {s : State} {k m : Nat} (h : firDue s k m = false) : firSampleOp k m s = s :=
  if_neg (ne_true_of_eq_false h)

/-- What is sent depends on the operation's outcome alone. -/
theorem writesBlocks_congr {op op' : State → State} {s : State} (h : op s = op' s) : writesBlocks op s = writesBlocks op' s := by
  simp only [writesBlocks, h]

/-- With no cycle in flight no block is sent. -/
theorem writesBlocks_noCycles {op : State → State} {s : State} (h : (op s).seq.cycs = []) : writesBlocks op s = op s := by
  simp only [writesBlocks, h, List.foldl_nil]

theorem exec_firSample_due {s : State} {k m t : Nat} (h : firDue (s.at t) k m = true) :
    exec (.firSample k m t) s = .next (hstSettle (writesBlocks (fun _ => firTaken (s.at t) k m) (s.at t))) :=
  congrArg done (writesBlocks_congr (firSampleOp_due h))

theorem exec_firSample_notDue {s : State} {k m t : Nat} (h : firDue (s.at t) k m = false) :
    exec (.firSample k m t) s = .next (hstSettle (writesBlocks id (s.at t))) :=
  congrArg done (writesBlocks_congr (firSampleOp_notDue h))

/-! ### The requests to the observer (R184, R192, R193): nothing on a node (R1) -/

section Requests

variable {s : State}

theorem reinitReq_engine (h : s.isNode = false) : reinitReq s = s.sq fun q => { q with reinit := true } := if_neg (ne_true_of_eq_false h)

theorem reinitReq_node (h : s.isNode = true) : reinitReq s = s := if_pos h

theorem bankSwapReq_engine (h : s.isNode = false) : bankSwapReq s = s.wr OCE_BANK_STS_SWAP_PEND 1 := if_neg (ne_true_of_eq_false h)

theorem bankSwapReq_node (h : s.isNode = true) : bankSwapReq s = s := if_pos h

/-- The bank that is not in force. -/
def standbyBank (s : State) : Nat := 1 - s.rd OCE_BANK_STS_ACTIVE

theorem bankSeal_node (h : s.isNode = true) : bankSeal s = s := if_pos h

theorem bankSeal_good (h : s.isNode = false) (hb : bankBadWord s (standbyBank s) = none) :
    bankSeal s = (s.wr (bankSealed (standbyBank s)) 1).incWrap (bankGen (standbyBank s)) := by
  rw [standbyBank] at hb
  simp only [bankSeal, h, hb, Bool.false_eq_true, if_false, standbyBank]

theorem bankSeal_bad {w : Nat} (h : s.isNode = false) (hb : bankBadWord s (standbyBank s) = some w) :
    bankSeal s = report ((s.wr (bankSealed (standbyBank s)) 0).wr OCE_BANK_STS_FMT_OFS (w / 64)) 0x040E := by
  rw [standbyBank] at hb
  simp only [bankSeal, h, hb, Bool.false_eq_true, if_false, standbyBank]

/-- The policy permits a host write to a bank: it is on standby and not in use (R193). -/
def bankOpen (s : State) (b : Nat) : Bool :=
  s.flag OCE_BANK_CTRL_HOST_WR && s.rd OCE_BANK_STS_ACTIVE ≠ b && !s.flag (bankInUse b)

variable (b w v : Nat)

theorem bankWrite_node (h : s.isNode = true) : bankWrite b w v s = s := if_pos h

theorem bankWrite_engine (h : s.isNode = false) :
    bankWrite b w v s = if bankOpen s b = true then (bankPut s b w v).wr (bankSealed b) 0 else refuse s 0x040D 0 w := by
  have hopen : (!s.flag OCE_BANK_CTRL_HOST_WR || s.rd OCE_BANK_STS_ACTIVE = b || s.flag (bankInUse b)) = !bankOpen s b := by
    simp only [bankOpen, Bool.not_and, Bool.not_not, ne_eq, decide_not]
  rw [← ite_bnot, ← hopen]
  exact if_neg (ne_true_of_eq_false h)

end Requests

/-! ### Lane memory (R231) -/

theorem laneMemRead_present {s : State} {l : Nat} (p : Path) (h : l < s.lanes) :
    laneMemRead s p l = (s.wr (SLV_LANE_MEM_ADDR_ADDR l) (s.rd (SLV_LANE_MEM_ADDR_ADDR l) + 1)).emit
      (.read p (laneWord s l (s.rd (SLV_LANE_MEM_ADDR_ADDR l)))) :=
  if_neg (not_le.mpr h)

/-- A lane that the variant has not reads 0 (R2). -/
theorem laneMemRead_absent {s : State} {l : Nat} (p : Path) (h : s.lanes ≤ l) : laneMemRead s p l = s.emit (.read p 0) := if_pos h

/-! ### The commands where the path lets them through -/

section Lets

variable {s : State} {p : Path} (t : Nat)

theorem exec_oceReinit_lets (h : s.lets p 0x80004) : exec (.oceReinit p t) s = .next (hstSettle (reinitReq (s.taken p t))) :=
  congrArg done (hostDo_lets s p _ _ t _ h)

theorem exec_oceBankSwap_lets (h : s.lets p 0x80014) : exec (.oceBankSwap p t) s = .next (hstSettle (bankSwapReq (s.taken p t))) :=
  congrArg done (hostDo_lets s p _ _ t _ h)

theorem exec_oceBankSeal_lets (h : s.lets p 0x80014) : exec (.oceBankSeal p t) s = .next (hstSettle (bankSeal (s.taken p t))) :=
  congrArg done (hostDo_lets s p _ _ t _ h)

theorem exec_bankWordWrite_lets {b w : Nat} (v : Nat) (hb : b < 2) (hw : w < 16384) (h : s.lets p (0xA0000 + b * 0x10000 + w * 4)) :
    exec (.bankWordWrite p b w v t) s = .next (hstSettle (bankWrite b w v (s.taken p t))) := by
  refine congrArg done ?_
  rw [Nat.mod_eq_of_lt hb, Nat.mod_eq_of_lt hw]
  exact hostDo_lets s p _ v t _ h

theorem exec_laneMemDataRead_lets {l : Nat} (h : s.letsRead p (0x100014 + l * 0x1000)) :
    exec (.laneMemDataRead p l t) s = .next (hstSettle (laneMemRead (s.taken p t) p l)) :=
  congrArg done (hostRd_lets s p _ t _ h)

end Lets

/-- Settles O43: a sample by whether its tick is due, a request by whether the variant has an observer, a bank by its words and its use, a
read of lane memory by whether the variant has the lane. -/
theorem samplesBanksAndLaneMemory : Obligations.SamplesBanksAndLaneMemory := by
  unfold Obligations.SamplesBanksAndLaneMemory
  refine ⟨?_, ?_, ?_, ?_, ?_⟩
  · intro s k m t S i l e bad x due u
    refine ⟨exec_firSample_due, fun hd hc => ?_, exec_firSample_notDue, fun hd hc => ?_⟩
    · exact (exec_firSample_due hd).trans (congrArg done (writesBlocks_noCycles hc))
    · exact (exec_firSample_notDue hd).trans (congrArg done (writesBlocks_noCycles hc))
  · intro s p t S
    refine ⟨fun hl hn => ?_, fun hl hn => ?_, fun hl hn => ?_, fun hl hn => ⟨?_, ?_⟩⟩
    · exact (exec_oceReinit_lets t hl).trans (congrArg done (reinitReq_engine (s := S) hn))
    · exact (exec_oceBankSwap_lets t hl).trans (congrArg done (bankSwapReq_engine (s := S) hn))
    · exact (exec_oceReinit_lets t hl).trans (congrArg done (reinitReq_node (s := S) hn))
    · exact (exec_oceBankSwap_lets t hl).trans (congrArg done (bankSwapReq_node (s := S) hn))
    · exact (exec_oceBankSeal_lets t hl).trans (congrArg done (bankSeal_node (s := S) hn))
  · intro s p w t hl hn S b
    refine ⟨fun hb => ?_, fun hb => ?_⟩
    · exact (exec_oceBankSeal_lets t hl).trans (congrArg done (bankSeal_good (s := S) hn hb))
    · exact (exec_oceBankSeal_lets t hl).trans (congrArg done (bankSeal_bad (s := S) hn hb))
  · intro s p b w v t hb hw hl S open_
    have command := exec_bankWordWrite_lets t v hb hw hl
    refine ⟨fun hn ho => ?_, fun hn ho => ?_, fun hn => command.trans (congrArg done (bankWrite_node (s := S) b w v hn))⟩
    · exact command.trans (congrArg done ((bankWrite_engine (s := S) b w v hn).trans (if_pos ho)))
    · exact command.trans (congrArg done ((bankWrite_engine (s := S) b w v hn).trans (if_neg (ne_true_of_eq_false ho))))
  · intro s p l t hl a
    refine ⟨fun h => ?_, fun h => ?_⟩
    · exact (exec_laneMemDataRead_lets t hl).trans (congrArg done (laneMemRead_present (s := s.taken p t) p h))
    · exact (exec_laneMemDataRead_lets t hl).trans (congrArg done (laneMemRead_absent (s := s.taken p t) p h))

end Sys2Proof.Proofs
end

section
/-! PROOFS. O40: the GCLK rate check, occupancy windows, front-end writes and acquisition passes. -/

namespace Sys2Proof.Proofs

open Sys2Proof Sys2Proof.Machine Sys2Proof.Laws

/-- What refuses a unit that is off, or of which there is none. -/
theorem not_or_eq_zero (b : Bool) (n : Nat) : (!b || decide (n = 0)) = !(b && decide (n ≠ 0)) := by simp

/-! ### What the search bank's choice and the antenna marks leave -/

/-- The bank's choice of a job changes the job and the list of absent satellites alone. -/
theorem acqTake_only (s : State) : ∃ j l, acqTake s = s.gn fun g => { g with acq := j, absent := l } := by
  simp only [acqTake]
  split
  · exact ⟨s.gns.acq, s.gns.absent, rfl⟩
  · split
    · exact ⟨s.gns.acq, s.gns.absent, rfl⟩
    · exact ⟨_, _, rfl⟩

@[simp] theorem acqTake_regs (s : State) : (acqTake s).regs = s.regs := by
  obtain ⟨j, l, h⟩ := acqTake_only s
  rw [h]
  rfl

theorem acqTake_rd (s : State) (f : Fld) : (acqTake s).rd f = s.rd f := by rw [State.rd, State.rd, acqTake_regs]

/-- The marks of the antennas write FAULT and ANT_FAULT alone. -/
theorem antMarks_rd (s : State) (f : Fld) (hf : ∀ i, f.key ≠ (GNS_ANT_STS_FAULT i).key) (ha : f.key ≠ GNS_STATUS_ANT_FAULT.key) :
    (antMarks s).rd f = s.rd f := by
  simp only [antMarks]
  generalize List.range 4 = l
  induction l generalizing s with
  | nil => rfl
  | cons i r ih =>
    rw [List.foldl_cons, ih, State.wrBit, rd_wr_ne _ _ f _ ha]
    exact rd_wr_ne _ _ f _ (hf i)

/-! ### The rate of GCLK (R127) -/

section Gclk

variable {s : State} {edges : Nat} (t : Nat)

/-- How far a count of edges is out, a million times, as it is set against a number of ppm of the rate. -/
def gclkDev (s : State) (edges : Nat) : Nat := ((edges : Int) - (u32 (s.sec 9) 4 : Nat)).natAbs * 1000000

theorem gclkMark_bad (h : s.gns.rateBad = true) : gclkMark s = s.wr GNS_STATUS_GCLK_OK 0 := by
  simp only [gclkMark, h, Bool.not_true, Bool.and_false, State.wrb, b2n, Bool.false_eq_true, if_false]

theorem exec_gclkRateCheck_off (edges : Nat) (h : gnsOn s = false) : exec (.gclkRateCheck edges t) s = .next (hstSettle (s.at t)) :=
  congrArg done (if_pos (congrArg (!·) h))

theorem exec_gclkRateCheck_on (h : gnsOn s = true) : exec (.gclkRateCheck edges t) s = .next (hstSettle (
    if (decide (100 * u32 (s.sec 9) 4 < gclkDev s edges) && !s.gns.rateBad) = true then
      gclkMark (report ((s.at t).gn fun g => { g with rateBad := true }) 0x0503)
    else if gclkDev s edges ≤ 50 * u32 (s.sec 9) 4 then gclkMark ((s.at t).gn fun g => { g with rateBad := false })
    else gclkMark (s.at t))) :=
  congrArg done (if_neg (ne_true_of_eq_false (congrArg (!·) h)))

end Gclk

/-! ### Occupancy windows (R126, R129, R130) -/

section Occupancy

variable (s : State) (a occ : Nat)

/-- The occupancy of a window, by the samples of the edge that GCLK_EDGE names. -/
def windowOcc (rise fall : List Nat) : Nat := occupancyOf (u8 (s.sec 9) (0x1C + a)) (if bit (u8 (s.sec 9) 2) 0 then fall else rise)

/-- The occupancy lies within its range. -/
def occInside : Bool := u16 (s.sec 9) 0x20 ≤ occ && occ ≤ u16 (s.sec 9) 0x22

/-- The antenna's windows in a row out of range, with one more of an occupancy. -/
def outRun : Nat := if occInside s occ then 0 else at_ s.gns.out a 0 + 1

/-- The antenna's windows in a row in range, with one more of an occupancy. -/
def goodRun : Nat := if occInside s occ then at_ s.gns.good a 0 + 1 else 0

/-- The antenna's occupancy fault follows the third window of either run (R129). -/
def occFault : Bool := if at_ s.gns.occBad a false then goodRun s a occ < 3 else 3 ≤ outRun s a occ

/-- A window has been counted. -/
def windowCounted : State := (s.wr (GNS_ANT_STS_OCC a) occ).gn fun x => { x with
  out := put_ x.out a 0 (min (outRun s a occ) 3), good := put_ x.good a 0 (min (goodRun s a occ) 3), occBad := put_ x.occBad a false (occFault s a occ) }

/-- A window has been counted, a new fault reported, and the bank chooses its job by the antennas then open. -/
def windowed : State := acqTake (antMarks (
  if occFault s a occ && !at_ s.gns.occBad a false then report (windowCounted s a occ) 0x0501 a a else windowCounted s a occ))

/-- The occupancy is more than 2 % below its target, and the gain code below its greatest. -/
def gainUp (code : Nat) : Bool := occ + 20 < u16 (s.sec 9) 0x24 && code < u8 (s.sec 9) 0xBA

/-- The occupancy is more than 2 % above its target, and the gain code above its least. -/
def gainDown (code : Nat) : Bool := u16 (s.sec 9) 0x24 + 20 < occ && u8 (s.sec 9) 0xB9 < code

/-- The gain step of a window (R129), from gain code `code`: `w` is the state that the window has left. -/
def gainStep (w : State) (code : Nat) : State :=
  if !bit (u8 (s.sec 9) 2) 3 then w
  else if gainUp s occ code then spiQueue w [⟨a, u8 (s.sec 9) 0xB8, code + 1, false, true⟩]
  else if gainDown s occ code then spiQueue w [⟨a, u8 (s.sec 9) 0xB8, code - 1, false, true⟩]
  else w

variable {s a occ}

theorem occInside_iff : occInside s occ = true ↔ u16 (s.sec 9) 0x20 ≤ occ ∧ occ ≤ u16 (s.sec 9) 0x22 := by
  simp only [occInside, Bool.and_eq_true, decide_eq_true_eq]

theorem gain_not_reported (ha : a < 4) : (GNS_ANT_STS_GAIN a).key ∉ reportKeys 0x0501 a := by interval_cases a <;> decide

/-- A window leaves the gain code. -/
theorem windowed_rd_gain (ha : a < 4) : (windowed s a occ).rd (GNS_ANT_STS_GAIN a) = s.rd (GNS_ANT_STS_GAIN a) := by
  have hcounted : (windowCounted s a occ).rd (GNS_ANT_STS_GAIN a) = s.rd (GNS_ANT_STS_GAIN a) :=
    rd_wr_ne s _ (GNS_ANT_STS_GAIN a) _ (by simp only [GNS_ANT_STS_GAIN, GNS_ANT_STS_OCC]; omega)
  rw [windowed, acqTake_rd, antMarks_rd _ _ (fun i => by simp only [GNS_ANT_STS_GAIN, GNS_ANT_STS_FAULT]; omega)
    (by simp only [GNS_ANT_STS_GAIN, GNS_STATUS_ANT_FAULT]; omega)]
  split
  · rw [report_rd _ _ _ _ _ (gain_not_reported ha), hcounted]
  · exact hcounted

/-- An antenna in use is one of the four. -/
theorem lt_four_of_gnsCh (h : gnsCh s a ≠ 0) : a < 4 := by
  by_contra hge
  exact h (if_neg hge)

section Gain

variable {w : State} {code : Nat}

theorem gainStep_still (h : bit (u8 (s.sec 9) 2) 3 = false ∨ gainUp s occ code = false ∧ gainDown s occ code = false) :
    gainStep s a occ w code = w := by
  rcases h with hauto | ⟨hup, hdown⟩
  · exact if_pos (congrArg (!·) hauto)
  · simp only [gainStep, hup, hdown, Bool.false_eq_true, if_false, ite_self]

theorem gainStep_up (hauto : bit (u8 (s.sec 9) 2) 3 = true) (hup : gainUp s occ code = true) :
    gainStep s a occ w code = spiQueue w [⟨a, u8 (s.sec 9) 0xB8, code + 1, false, true⟩] := by
  simp only [gainStep, hauto, hup, Bool.not_true, Bool.false_eq_true, if_false, if_true]

/-- An occupancy above its target is not below it. -/
theorem not_gainUp_of_gainDown (h : gainDown s occ code = true) : gainUp s occ code = false := by
  simp only [gainDown, gainUp, Bool.and_eq_true, Bool.and_eq_false_iff, decide_eq_true_eq, decide_eq_false_iff_not] at h ⊢
  omega

theorem gainStep_down (hauto : bit (u8 (s.sec 9) 2) 3 = true) (hdown : gainDown s occ code = true) :
    gainStep s a occ w code = spiQueue w [⟨a, u8 (s.sec 9) 0xB8, code - 1, false, true⟩] := by
  simp only [gainStep, hauto, hdown, not_gainUp_of_gainDown hdown, Bool.not_true, Bool.false_eq_true, if_false, if_true]

end Gain

variable (rise fall : List Nat) (t : Nat)

theorem exec_occupancyWindow_off (h : (gnsRuns s && decide (gnsCh s a ≠ 0)) = false) :
    exec (.occupancyWindow a rise fall t) s = .next (hstSettle (s.at t)) :=
  congrArg done (if_pos ((not_or_eq_zero (gnsRuns s) (gnsCh s a)).trans (congrArg (!·) h)))

theorem exec_occupancyWindow_on (h : (gnsRuns s && decide (gnsCh s a ≠ 0)) = true) : exec (.occupancyWindow a rise fall t) s =
    .next (hstSettle (gainStep s a (windowOcc s a rise fall) (windowed (s.at t) a (windowOcc s a rise fall)) (s.rd (GNS_ANT_STS_GAIN a)))) := by
  have hgain := windowed_rd_gain (s := s.at t) (occ := windowOcc s a rise fall) (lt_four_of_gnsCh (of_decide_eq_true (Bool.and_eq_true_iff.mp h).2))
  rw [← at_rd s t, ← hgain]
  exact congrArg done (if_neg (ne_true_of_eq_false ((not_or_eq_zero (gnsRuns s) (gnsCh s a)).trans (congrArg (!·) h))))

end Occupancy

/-! ### Front-end writes (R130) -/

section FrontEnd

variable {s : State} {o : SpiOp} {l : List SpiOp} {data : Nat} (t : Nat)

/-- The write at the head of the queue has completed; a gain write shows its code. -/
def spiTaken (s : State) (o : SpiOp) (l : List SpiOp) : State :=
  if o.gain then (s.gn fun g => { g with spi := l }).wr (GNS_ANT_STS_GAIN o.ant) (o.data % 256) else s.gn fun g => { g with spi := l }

/-- A read-back has brought other data than were written. -/
def spiFailed (s : State) (o : SpiOp) : State :=
  antMarks (report (s.gn fun g => { g with spiBad := put_ g.spiBad o.ant false true }) 0x0504 o.ant o.ant)

theorem exec_feSpiDone_idle (h : s.gns.spi = []) : exec (.feSpiDone data t) s = .next (hstSettle (s.at t)) := by
  have hspi : (s.at t).gns.spi = [] := h
  refine congrArg done ?_
  simp only [hspi]

theorem exec_feSpiDone_head (h : s.gns.spi = o :: l) : exec (.feSpiDone data t) s = .next (hstSettle (spiStart (
    if o.back && decide (data ≠ o.data) then spiFailed (spiTaken (s.at t) o l) o else spiTaken (s.at t) o l))) := by
  have hspi : (s.at t).gns.spi = o :: l := h
  refine congrArg done ?_
  simp only [hspi]
  rfl

end FrontEnd

/-! ### Acquisition passes (R133, R137, R139) -/

section Acquisition

variable {s : State} {j : AcqJob} {peak mean cb : Nat} {db : Int} (t : Nat)

theorem acqNext_more (h : j.pass + 1 < j.passes) :
    acqNext s j = s.gn fun g => { g with acq := some { j with pass := j.pass + 1, ver := none } } := if_pos h

theorem acqNext_absent (h : j.passes ≤ j.pass + 1) :
    acqNext s j = acqTake (s.gn fun g => { g with acq := none, absent := g.absent ++ [(j.cls, j.ant, j.sig, j.prn)] }) :=
  if_neg (not_lt_of_ge h)

/-- The peak reaches the threshold above a mean (R133). -/
def acqReach (s : State) (peak mean : Nat) : Bool := le32 (m32 (u32 (s.sec 9) 0x38) (i32 mean)) (i32 peak)

/-- A pass of a job ends with no detection: a first pass by its own mean, a verification by that of the pass it verifies. -/
def acqMiss (s : State) (j : AcqJob) (peak mean : Nat) : Bool :=
  match j.ver with
  | none => !acqReach s peak mean
  | some x => !acqReach s peak x.1

/-- What a pass of the job at work does (R133). -/
def passEnd (s : State) (j : AcqJob) (peak mean cb : Nat) (db : Int) : State :=
  match j.ver with
  | none => if acqReach s peak mean then s.gn fun g => { g with acq := some { j with ver := some (mean, cb, db) } } else acqNext s j
  | some (m, c, d) => if acqReach s peak m then handOff s j c d else acqNext s j

theorem passEnd_miss (h : acqMiss s j peak mean = true) : passEnd s j peak mean cb db = acqNext s j := by
  cases hv : j.ver with
  | none =>
    simp only [acqMiss, hv, Bool.not_eq_true'] at h
    simp only [passEnd, hv, h, Bool.false_eq_true, if_false]
  | some x =>
    simp only [acqMiss, hv, Bool.not_eq_true'] at h
    simp only [passEnd, hv, h, Bool.false_eq_true, if_false]

theorem passEnd_detected (hv : j.ver = none) (h : acqReach s peak mean = true) :
    passEnd s j peak mean cb db = s.gn fun g => { g with acq := some { j with ver := some (mean, cb, db) } } := by
  simp only [passEnd, hv, h, if_true]

theorem passEnd_verified {m c : Nat} {d : Int} (hv : j.ver = some (m, c, d)) (h : acqReach s peak m = true) :
    passEnd s j peak mean cb db = handOff s j c d := by
  simp only [passEnd, hv, h, if_true]

theorem exec_acqPassDone_idle (h : s.gns.acq = none ∨ gnsRuns s = false ∨ gnsClocked s = false) :
    exec (.acqPassDone peak mean cb db t) s = .next (hstSettle (s.at t)) := by
  refine congrArg done ?_
  cases hj : (s.at t).gns.acq with
  | none => rfl
  | some j =>
    have hj' : s.gns.acq ≠ none := fun hn => Option.some_ne_none j (hj.symm.trans hn)
    have hstill : (!gnsRuns s || !gnsClocked s) = true := by
      simpa only [Bool.or_eq_true, Bool.not_eq_true'] using h.resolve_left hj'
    exact if_pos hstill

theorem exec_acqPassDone_runs (hj : s.gns.acq = some j) (hr : gnsRuns s = true) (hc : gnsClocked s = true) :
    exec (.acqPassDone peak mean cb db t) s = .next (hstSettle (passEnd (s.at t) j peak mean cb db)) := by
  have hj' : (s.at t).gns.acq = some j := hj
  have hgo : ¬ (!gnsRuns s || !gnsClocked s) = true := by simp only [hr, hc, Bool.not_true, Bool.or_self, Bool.false_eq_true, not_false_eq_true]
  refine congrArg done ?_
  simp only [hj']
  exact if_neg hgo

theorem handOff_full {cb : Nat} (h : freeCh s j.ant = none) : handOff s j cb db = acqTake (s.gn fun g => { g with acq := none }) := by
  have hfree : freeCh (s.gn fun g => { g with acq := none }) j.ant = none := h
  simp only [handOff, hfree]

/-- The channel that a detection goes to pulls in at the code and the Doppler of its cell. -/
def pullIn (s : State) (j : AcqJob) (cb : Nat) (db : Int) (x : GnsCh) : GnsCh :=
  let dop := 65536 * (j.dop0 + db * 500000 / (tCoh j.sig : Int))
  { chIdle x.slips with
    sig := j.sig, prn := j.prn, pull := true, pullEnd := s.tim.cnt + pullTicks s, since := s.tim.cnt,
    code := (j.code0 + cb * 2 ^ 31) % codeMod j.sig false, dop := dop, vel := dop, slip := true, restart := true }

theorem handOff_free {cb c : Nat} (h : freeCh s j.ant = some c) :
    handOff s j cb db = acqTake (updCh (s.gn fun g => { g with acq := none }) c (pullIn s j cb db)) := by
  have hfree : freeCh (s.gn fun g => { g with acq := none }) j.ant = some c := h
  simp only [handOff, hfree]
  rfl

end Acquisition

/-- Settles O40: the rate by how far it is out, a window by its occupancy, a front-end write by its read-back, a pass by what it detects. -/
theorem frontEndsAndAcquisition : Obligations.FrontEndsAndAcquisition := by
  unfold Obligations.FrontEndsAndAcquisition
  refine ⟨?_, ?_, ?_, ?_, ?_⟩
  · intro s edges t fs dev mark
    refine ⟨fun hon hd hb => ?_, fun hon hd => ?_, fun hon hd hb => ?_, exec_gclkRateCheck_off t edges⟩
    · have hbad : (decide (100 * fs < dev) && !s.gns.rateBad) = true := by rw [hb, decide_eq_true hd]; rfl
      exact (exec_gclkRateCheck_on t hon).trans (congrArg done ((if_pos hbad).trans (gclkMark_bad (by rw [report_gns]; rfl))))
    · have hgood : ¬ (decide (100 * fs < dev) && !s.gns.rateBad) = true := by
        simp only [Bool.and_eq_true, decide_eq_true_eq]
        omega
      exact (exec_gclkRateCheck_on t hon).trans (congrArg done ((if_neg hgood).trans (if_pos hd)))
    · have hkept : ¬ (decide (100 * fs < dev) && !s.gns.rateBad) = true := by
        simp only [Bool.and_eq_true, decide_eq_true_eq, Bool.not_eq_true', not_and, Bool.not_eq_false]
        exact fun hfar => hb.resolve_left (not_le_of_gt hfar)
      exact (exec_gclkRateCheck_on t hon).trans (congrArg done ((if_neg hkept).trans (if_neg (not_le_of_gt hd))))
  · intro s a t rise fall occ inside out good was bad s1 s2 code target up down auto on
    have hout : outRun (s.at t) a occ = out := if_congr (occInside_iff (s := s.at t)) rfl rfl
    have hgood : goodRun (s.at t) a occ = good := if_congr (occInside_iff (s := s.at t)) rfl rfl
    have hbad : occFault (s.at t) a occ = bad := by rw [occFault, hout, hgood]; rfl
    have hcounted : windowCounted (s.at t) a occ = s1 := by rw [windowCounted, hout, hgood, hbad]
    have hnew : (bad && !was) = true ↔ bad = true ∧ was = false := by rw [Bool.and_eq_true, Bool.not_eq_true']
    have hwindow : windowed (s.at t) a occ = s2 := by
      rw [windowed, hcounted, hbad]
      exact congrArg (fun x => acqTake (antMarks x)) (if_congr hnew rfl rfl)
    have command (hon : on = true) : exec (.occupancyWindow a rise fall t) s = .next (hstSettle (gainStep s a occ s2 code)) :=
      hwindow ▸ exec_occupancyWindow_on rise fall t hon
    refine ⟨fun hon h => ?_, fun hon hauto hup => ?_, fun hon hauto hdown => ?_, exec_occupancyWindow_off rise fall t⟩
    · exact (command hon).trans (congrArg done (gainStep_still h))
    · exact (command hon).trans (congrArg done (gainStep_up hauto hup))
    · exact (command hon).trans (congrArg done (gainStep_down hauto hdown))
  · intro s data t o l s1 s2
    refine ⟨fun h hb => ?_, fun h hb hd => ?_, exec_feSpiDone_idle t⟩
    · have hgood : ¬ (o.back && decide (data ≠ o.data)) = true := by
        simp only [Bool.and_eq_true, decide_eq_true_eq, not_and, not_not]
        exact fun hback => hb.resolve_left (ne_false_of_eq_true hback)
      exact (exec_feSpiDone_head t h).trans (congrArg (fun x => done (spiStart x)) (if_neg hgood))
    · have hbad : (o.back && decide (data ≠ o.data)) = true := Bool.and_eq_true_iff.mpr ⟨hb, decide_eq_true hd⟩
      exact (exec_feSpiDone_head t h).trans (congrArg (fun x => done (spiStart x)) (if_pos hbad))
  · intro s peak mean cb t db d j m c reach S again gone miss
    refine ⟨exec_acqPassDone_idle t, fun hj hr hc => ?_⟩
    have command := exec_acqPassDone_runs (peak := peak) (mean := mean) (cb := cb) (db := db) t hj hr hc
    refine ⟨fun hv h => ?_, fun h hp => ?_, fun h hp => ?_, fun hv h => ?_⟩
    · exact command.trans (congrArg done (passEnd_detected (s := S) hv h))
    · exact command.trans (congrArg done ((passEnd_miss (s := S) h).trans (acqNext_more hp)))
    · exact command.trans (congrArg done ((passEnd_miss (s := S) h).trans (acqNext_absent hp)))
    · exact command.trans (congrArg done (passEnd_verified (s := S) hv h))
  · exact fun s j cb c db => ⟨handOff_full, handOff_free⟩

end Sys2Proof.Proofs
end

section
/-! PROOFS. O41: loop updates, the end of pull-in, epochs and the dispatch of GNSS jobs. -/

namespace Sys2Proof.Proofs

open Sys2Proof Sys2Proof.Machine Sys2Proof.Laws

/-! ### The channels after a change of one -/

@[simp] theorem acqTake_gch (s : State) (c : Nat) : (acqTake s).gch c = s.gch c := by
  obtain ⟨j, l, h⟩ := acqTake_only s
  rw [h]
  rfl

@[simp] theorem updCh_regs (s : State) (c : Nat) (f : GnsCh → GnsCh) : (updCh s c f).regs = s.regs := rfl

@[simp] theorem updCh_gch_same (s : State) (c : Nat) (f : GnsCh → GnsCh) : (updCh s c f).gch c = f (s.gch c) := by
  simp [updCh, State.gn, State.gch]

theorem updCh_gch_ne (s : State) {c k : Nat} (f : GnsCh → GnsCh) (h : k ≠ c) : (updCh s c f).gch k = s.gch k := by
  have hkeep (e : Nat × GnsCh) : (decide (e.1 ≠ c) = true ∧ decide (e.1 = k) = true) ↔ e.1 = k := by
    simp only [decide_eq_true_eq, and_iff_right_iff_imp]
    exact fun he hc => h (he.symm.trans hc)
  simp only [updCh, State.gn, State.gch, List.find?_cons, Ne.symm h, decide_false, List.find?_filter, hkeep]

theorem at_at (s : State) (t : Nat) : (s.at t).at t = s.at t := by
  simp only [State.at, le_max_right, max_eq_left]

/-! ### Loop updates (R135 to R140) -/

section Loops

variable {s : State} {c : Nat} {i q : Int} {ee ll ve vl : Nat} (t : Nat)

/-- The channel tracks a signal in a block that runs and has its clocks. -/
def loopRuns (s : State) (c : Nat) : Bool := gnsRuns s && decide ((s.gch c).sig ≠ 0) && gnsClocked s

theorem loop_refused (s : State) (c : Nat) : (!gnsRuns s || decide ((s.gch c).sig = 0) || !gnsClocked s) = !loopRuns s c := by
  rw [loopRuns, not_or_eq_zero, ← Bool.not_and]

/-- The channel's C/N0 over its last prompts, with one more. -/
def loopCn0 (s : State) (x : GnsCh) (i q : Int) : Nat := cn0Of (tInt s x) (((i, q) :: x.prompts).take 50)

/-- Updates in a row at CN0_LOCK, with one more (R138). -/
def upRun (s : State) (x : GnsCh) (i q : Int) : Nat := if u16 (s.sec 9) 0x44 ≤ loopCn0 s x i q then min (x.up + 1) 10 else 0

/-- Updates in a row below CN0_LOSS, with one more (R138). -/
def lowRun (s : State) (x : GnsCh) (i q : Int) : Nat := if loopCn0 s x i q < u16 (s.sec 9) 0x46 then min (x.low + 1) 1000 else 0

/-- A locked channel has been below CN0_LOSS for too long. -/
def loopLost (s : State) (x : GnsCh) (i q : Int) : Bool := x.codeLock && u16 (s.sec 9) 0x48 ≤ lowRun s x i q

/-- Carrier lock after an update: set with PLI_LOCK over 20 prompts, held within 0.1 of it (R138). -/
def loopCarr (s : State) (x : GnsCh) (i q : Int) : Bool :=
  let pli := (((i, q) :: x.prompts).take 50).take 20
  if x.carrLock then pliAtLeast pli (s32 (u32 (s.sec 9) 0x4C) (fofRat fmt32 1 10)) else pli.length = 20 && pliAtLeast pli (u32 (s.sec 9) 0x4C)

/-- What an update makes of a channel `x` that goes on tracking, as far as the prompt alone decides it (R137 to R140). -/
structure LoopUpdated (s : State) (x y : GnsCh) (i q : Int) : Prop where
  sig : y.sig = x.sig
  prn : y.prn = x.prn
  prompts : y.prompts = ((i, q) :: x.prompts).take 50
  cn0 : y.cn0 = loopCn0 s x i q
  up : y.up = upRun s x i q
  low : y.low = lowRun s x i q
  codeLock : y.codeLock = (x.codeLock || decide (10 ≤ upRun s x i q))
  carrLock : y.carrLock = loopCarr s x i q
  slip : y.slip = (x.slip || (x.carrLock && !loopCarr s x i q) || discSlip s (pllDisc x.sig i q))
  half : y.half = (x.half || (loopCarr s x i q && !x.carrLock && !pilot x.sig))
  slips : y.slips = x.slips
  pull : y.pull = x.pull

theorem exec_loopUpdate_eq (h : s.err.inj = none) :
    exec (.loopUpdate c i q ee ll ve vl t) s = .next (hstSettle (loopUpdateOp c i q ee ll ve vl t s)) := by
  have hat : loopUpdateOp c i q ee ll ve vl t (s.at t) = loopUpdateOp c i q ee ll ve vl t s := by rw [loopUpdateOp, at_at]; rfl
  have hinj : injected 4 c none (fun s => areaEffect s (.track c)) (loopUpdateOp c i q ee ll ve vl t) (s.at t)
      = loopUpdateOp c i q ee ll ve vl t (s.at t) := by
    rw [injected, takeInjection_none (s := s.at t) 4 c h]
  exact congrArg done (hinj.trans hat)

theorem loopUpdateOp_off (h : loopRuns s c = false) : loopUpdateOp c i q ee ll ve vl t s = s.at t :=
  if_pos ((loop_refused s c).trans (congrArg (!·) h))

/-- Code lock after an update: kept at CN0_LOSS, gained with the tenth update in a row at CN0_LOCK (R138). -/
def loopCode (s : State) (x : GnsCh) (i q : Int) : Bool := if x.codeLock then lowRun s x i q < u16 (s.sec 9) 0x48 else 10 ≤ upRun s x i q

theorem loopLost_eq (s : State) (x : GnsCh) (i q : Int) : (x.codeLock && !loopCode s x i q) = loopLost s x i q := by
  cases hx : x.codeLock with
  | false => rw [loopLost, hx, Bool.false_and, Bool.false_and]
  | true => simp only [loopLost, loopCode, hx, if_true, ← decide_not, not_lt]

theorem loopCode_of_not_lost {x : GnsCh} (h : loopLost s x i q = false) : loopCode s x i q = (x.codeLock || decide (10 ≤ upRun s x i q)) := by
  rw [← loopLost_eq] at h
  cases hx : x.codeLock with
  | false => simp only [loopCode, hx, Bool.false_eq_true, if_false, Bool.false_or]
  | true => simpa only [hx, Bool.true_and, Bool.not_eq_false', Bool.true_or] using h

theorem loopUpdateOp_lost (h : loopRuns s c = true) (hl : loopLost s (s.gch c) i q = true) :
    loopUpdateOp c i q ee ll ve vl t s = acqTake (releaseCh (s.at t) c) :=
  (if_neg (ne_true_of_eq_false ((loop_refused s c).trans (congrArg (!·) h)))).trans
    (if_pos ((loopLost_eq s (s.gch c) i q).trans hl))

theorem loopUpdateOp_tracks (h : loopRuns s c = true) (hl : loopLost s (s.gch c) i q = false) :
    ∃ y, loopUpdateOp c i q ee ll ve vl t s = acqTake (updCh (s.at t) c fun _ => y) ∧ LoopUpdated s (s.gch c) y i q := by
  refine ⟨_, (if_neg (ne_true_of_eq_false ((loop_refused s c).trans (congrArg (!·) h)))).trans
    (if_neg (ne_true_of_eq_false ((loopLost_eq s (s.gch c) i q).trans hl))), ?_⟩
  constructor
  case codeLock => exact loopCode_of_not_lost hl
  all_goals rfl

end Loops

/-! ### The end of pull-in (R137) -/

section PullIn

variable {s : State} {c t : Nat}

theorem exec_pullInEnd_due (hr : gnsRuns s = true) (hx : (s.gch c).sig ≠ 0) (hd : (s.gch c).pullEnd ≤ max s.tim.cnt t) :
    exec (.pullInEnd c t) s = .next (hstSettle (updCh (s.at t) c fun x => { x with pull := false })) :=
  congrArg done (if_pos (Bool.and_eq_true_iff.mpr ⟨Bool.and_eq_true_iff.mpr ⟨hr, decide_eq_true hx⟩, decide_eq_true hd⟩))

theorem exec_pullInEnd_not (h : gnsRuns s = false ∨ (s.gch c).sig = 0 ∨ max s.tim.cnt t < (s.gch c).pullEnd) :
    exec (.pullInEnd c t) s = .next (hstSettle (s.at t)) := by
  refine congrArg done (if_neg fun hgo => ?_)
  obtain ⟨hgo, hd⟩ := Bool.and_eq_true_iff.mp hgo
  obtain ⟨hr, hx⟩ := Bool.and_eq_true_iff.mp hgo
  rcases h with hoff | h0 | hl
  · exact ne_false_of_eq_true hr hoff
  · exact of_decide_eq_true hx h0
  · exact not_lt_of_ge (of_decide_eq_true hd) hl

end PullIn

/-! ### Cycle epochs (R139, R141 to R143, R161) -/

section CycleEpochs

variable {s : State} {n t : Nat} {d : Cyc}

/-- A cycle epoch is due: the block has epochs and the cycle runs it, the epoch has not been taken, and its instant has come. -/
def cycleDue (s : State) (n : Nat) (d : Cyc) : Bool :=
  gnsRuns s && u16 (s.sec 9) 0x40 ≠ 0 && bit d.inp.runs 3 && (s.gns.epoch.map (·.n)) ≠ some n && d.inp.t0c + d.run.step ≤ s.now

/-- Two refusals with one outcome, and what is done where neither stands. -/
theorem ite_or_refused {α : Type} {a b go : Bool} (h : (a || b) = !go) (x y : α) :
    (if a = true then x else if b = true then x else y) = if go = true then y else x := by
  cases a with
  | true =>
    have hgo : go = false := by simpa using h
    rw [hgo]
    rfl
  | false =>
    have hb : b = !go := h
    rw [hb, ite_bnot]
    rfl

theorem cycleEpoch_refused (s : State) (n : Nat) (d : Cyc) :
    (!gnsRuns s || decide (u16 (s.sec 9) 0x40 ≤ 0)
      || (!bit d.inp.runs 3 || decide (s.gns.epoch.map (·.n) = some n) || decide (s.now < d.inp.t0c + d.run.step))) = !cycleDue s n d := by
  simp only [cycleDue, Bool.not_and, ne_eq, ← decide_not, not_not, not_le, Nat.le_zero_eq, Bool.or_assoc]

theorem exec_gnssEpoch_cycle (hd : s.cyc? n = some d) : exec (.gnssEpoch n 0 t) s =
    .next (hstSettle (if cycleDue (s.at t) n d then cycleEpoch (s.at t) n d.inp.t0c else s.at t)) := by
  have hd' : (s.at t).cyc? n = some d := hd
  rw [← ite_or_refused (cycleEpoch_refused (s.at t) n d)]
  refine congrArg done ?_
  simp only [hd', if_true]
  rfl

/-- Without the cycle in flight there is no epoch of it. -/
theorem exec_gnssEpoch_noCycle (h : s.cyc? n = none) : exec (.gnssEpoch n 0 t) s = .next (hstSettle (s.at t)) := by
  have h' : (s.at t).cyc? n = none := h
  refine congrArg done ?_
  simp only [h', ite_true, ite_self]

/-- What each step of a fold keeps, the fold keeps. -/
theorem foldl_keeps {α β : Type} (p : State → β) (f : State → α → State) (hf : ∀ s x, p (f s x) = p s) (l : List α) (s : State) :
    p (l.foldl f s) = p s := by
  induction l generalizing s with
  | nil => rfl
  | cons x r ih => exact (ih (f s x)).trans (hf s x)

theorem latchChans_regs (s : State) (te : Int) : (latchChans s te).regs = s.regs := by
  rw [latchChans]
  refine foldl_keeps State.regs _ ?_ _ s
  exact fun _ _ => rfl

theorem latchChans_tim (s : State) (te : Int) : (latchChans s te).tim = s.tim := by
  rw [latchChans]
  refine foldl_keeps State.tim _ ?_ _ s
  exact fun _ _ => rfl

/-- The records of a cycle epoch, latched at `ti`. -/
def epochRecs (s : State) (ti : Int) : List GnsRec :=
  ((gnsChans s).map fun c => (c, atEpoch s ti (s.gch c))).map fun x => recOf (latchChans s ti) ti x.1 x.2 ((latchChans s ti).gch x.1)

/-- Records with code lock. -/
def trackedCount (l : List GnsRec) : Nat := (l.filter fun r => r.codeLock).length

/-- A cycle epoch has latched the channels, put the pending ephemerides in force and entered its records. -/
def epochTaken (s : State) (n : Nat) (te : Int) : State :=
  let ti := te + latchErr n 0
  let recs := epochRecs s ti
  let s2 := (latchChans s ti).gn fun g => { g with store := navEpoch g.store, epoch := some ⟨n, 1, te, recs, [], none, [], none, [], false⟩ }
  updCyc s2 n fun c => { c with
    results := c.results ++ recs.flatMap (fun r => recResults s2 r s.tim.cnt) ++ [(GNS_STATUS_TRACKED, trackedCount recs)] }

theorem epochTaken_flag (s : State) (n : Nat) (te : Int) (f : Fld) : (epochTaken s n te).flag f = s.flag f := by
  rw [State.flag, State.flag, State.rd, State.rd, epochTaken, updCyc_regs]
  exact congrArg (fun r : RegFile => decide (r.get f ≠ 0)) (latchChans_regs s _)

/-- No record of the cycle epoch has code lock. -/
def noneTracked (s : State) (n : Nat) (te : Int) : Bool := decide (trackedCount (epochRecs s (te + latchErr n 0)) = 0)

theorem cycleEpoch_eq (s : State) (n : Nat) (te : Int) : cycleEpoch s n te =
    diffAge ((if noneTracked s n te && !(epochTaken s n te).flag GNS_STATUS_ALL_LOST then
        (reportCyc (epochTaken s n te) n 0x0505).gn fun g => { g with back := true }
      else epochTaken s n te).wrb GNS_STATUS_ALL_LOST (noneTracked s n te)) n te := by
  rw [epochTaken, ← latchChans_tim s (te + latchErr n 0)]
  rfl

theorem cycleEpoch_known {te : Int} (h : noneTracked s n te = false ∨ s.flag GNS_STATUS_ALL_LOST = true) :
    cycleEpoch s n te = diffAge ((epochTaken s n te).wrb GNS_STATUS_ALL_LOST (noneTracked s n te)) n te := by
  rw [cycleEpoch_eq, epochTaken_flag, if_neg]
  rcases h with h | h <;> simp [h]

/-- The epoch at which the last signal is gone reports it (R161). -/
theorem cycleEpoch_allLost {te : Int} (h : noneTracked s n te = true) (hf : s.flag GNS_STATUS_ALL_LOST = false) :
    cycleEpoch s n te =
      diffAge (((reportCyc (epochTaken s n te) n 0x0505).gn fun g => { g with back := true }).wr GNS_STATUS_ALL_LOST 1) n te := by
  rw [cycleEpoch_eq, epochTaken_flag, h, hf, if_pos (by rfl)]
  rfl

end CycleEpochs

/-! ### Intermediate epochs (R139, R141) -/

section MidEpochs

variable {s : State} {n k : Nat} {ep : GnsEpoch} (t : Nat)

/-- The instant of epoch `k` after a cycle epoch (R141). -/
def midInstant (s : State) (k : Nat) (ep : GnsEpoch) : Int :=
  ep.t + ((k * (s.rd SEQ_PERIOD_VALUE * 1000 * 65536) / u16 (s.sec 9) 0x40 : Nat) : Int)

/-- An intermediate epoch of the cycle epoch at work is due, and has not been taken. -/
def midDue (s : State) (n k : Nat) (ep : GnsEpoch) : Bool :=
  gnsRuns s && k < u16 (s.sec 9) 0x40 && ep.n = n && ep.kNext ≤ k && midInstant s k ep ≤ s.now

theorem midEpoch_refused (s : State) (n k : Nat) (ep : GnsEpoch) :
    (!gnsRuns s || decide (u16 (s.sec 9) 0x40 ≤ k) || (decide (ep.n ≠ n) || decide (k < ep.kNext) || decide (s.now < midInstant s k ep)))
      = !midDue s n k ep := by
  simp only [midDue, Bool.not_and, ne_eq, ← decide_not, not_le, not_lt, Bool.or_assoc]

theorem exec_gnssEpoch_mid (hk : k ≠ 0) (he : s.gns.epoch = some ep) : exec (.gnssEpoch n k t) s = .next (hstSettle (
    if midDue (s.at t) n k ep then (latchChans (s.at t) (midInstant (s.at t) k ep + latchErr n k)).gn fun g =>
      { g with epoch := g.epoch.map fun x => { x with kNext := k + 1 } }
    else s.at t)) := by
  have he' : (s.at t).gns.epoch = some ep := he
  rw [← ite_or_refused (midEpoch_refused (s.at t) n k ep)]
  refine congrArg done ?_
  simp only [he', if_neg hk]
  rfl

theorem exec_gnssEpoch_mid_none (hk : k ≠ 0) (he : s.gns.epoch = none) : exec (.gnssEpoch n k t) s = .next (hstSettle (s.at t)) := by
  have he' : (s.at t).gns.epoch = none := he
  refine congrArg done ?_
  simp only [he', if_neg hk, ite_self]

end MidEpochs

/-! ### The dispatch of GNSS jobs (R146, R148, R161) -/

section Dispatch

variable {s : State} {n : Nat} {ep : GnsEpoch} (t : Nat)

/-- The jobs of the epoch at work are due and have not been dispatched, and the device has lanes for them or is a node. -/
def dispatchDue (s : State) (n : Nat) (ep : GnsEpoch) : Bool :=
  ep.n = n && ep.pvt.isNone && ep.plan.isEmpty && ep.used.isEmpty && gnsRuns s
    && ep.t + ((u32 (s.sec 9) 0x54 * 1000 * 65536 : Nat) : Int) ≤ s.now && (s.isNode || !(gnsLanes s).isEmpty)

theorem decide_ne_nil {α : Type} [DecidableEq α] (l : List α) : decide (l ≠ []) = !l.isEmpty := by cases l <;> rfl

theorem dispatch_refused (s : State) (n : Nat) (ep : GnsEpoch) :
    (decide (ep.n ≠ n) || ep.pvt.isSome || decide (ep.plan ≠ []) || decide (ep.used ≠ []) || !gnsRuns s
      || decide (s.now < ep.t + ((u32 (s.sec 9) 0x54 * 1000 * 65536 : Nat) : Int)) || ((gnsLanes s).isEmpty && !s.isNode)) = !dispatchDue s n ep := by
  simp only [dispatchDue, Bool.not_and, Bool.not_or, Bool.not_not, decide_ne_nil, Option.not_isNone, ← decide_not, not_le, Bool.and_comm (gnsLanes s).isEmpty]

/-- The measurements of the epoch's position and whether they are corrected: none with every signal lost. -/
def pvtInput (s : State) (ep : GnsEpoch) : List GnsRec × Bool := if s.flag GNS_STATUS_ALL_LOST then ([], false) else pvtSet s ep

theorem pvtInput_eq (s : State) (ep : GnsEpoch) : pvtInput s ep =
    (if s.flag GNS_STATUS_ALL_LOST then [] else (pvtSet s ep).1, if s.flag GNS_STATUS_ALL_LOST then false else (pvtSet s ep).2) := by
  cases h : s.flag GNS_STATUS_ALL_LOST with
  | false => simp only [pvtInput, h, Bool.false_eq_true, if_false]
  | true => simp only [pvtInput, h, if_true]

/-- The position of some measurements is planned where they are enough, and settled without a fit where not. -/
def pvtPlanned (s : State) (ep : GnsEpoch) (rs : List GnsRec) (dgnss : Bool) : State :=
  let s := s.wrb GNS_DIFF_STS_USED dgnss
  if unknowns rs + 1 ≤ rs.length then
    updEpoch (s.gn fun g => { g with sol := { g.sol with mode := if dgnss then 2 else 1 } }) fun e => { e with used := rs.map (·.c), plan := [⟨0, 0, 0⟩] }
  else settlePvt (s.wr GNS_DIFF_STS_USED 0) ep false [] []

/-- The jobs of an epoch before are gone. -/
def jobsGone (s : State) : State := s.gn fun g => { g with jobs := [] }

theorem exec_gnssJobDispatch_epoch (he : s.gns.epoch = some ep) : exec (.gnssJobDispatch n t) s = .next (hstSettle (
    if dispatchDue (s.at t) n ep then
      gnsFill (judgeFixes (pvtPlanned (jobsGone (s.at t)) ep (pvtInput (jobsGone (s.at t)) ep).1 (pvtInput (jobsGone (s.at t)) ep).2))
    else s.at t)) := by
  have he' : (s.at t).gns.epoch = some ep := he
  rw [← ite_bnot, ← dispatch_refused]
  refine congrArg done ?_
  simp only [he']
  rfl

theorem exec_gnssJobDispatch_none (he : s.gns.epoch = none) : exec (.gnssJobDispatch n t) s = .next (hstSettle (s.at t)) := by
  have he' : (s.at t).gns.epoch = none := he
  refine congrArg done ?_
  simp only [he']

end Dispatch

/-- Settles O41: an update by whether its channel tracks and is lost, an epoch by its number and instant, the dispatch by what it may use. -/
theorem trackingAndEpochs : Obligations.TrackingAndEpochs := by
  unfold Obligations.TrackingAndEpochs
  refine ⟨?_, ?_, ?_, ?_, ?_, ?_⟩
  · intro s c k ee ve ll vl t i q hi g S x on prompts cn0 up low free carr u y
    have command : exec (.loopUpdate c i q ee ll ve vl t) s = .next (hstSettle u) := exec_loopUpdate_eq t hi
    refine ⟨fun hon => ?_, fun hon hf => ?_, fun hon hf => ?_⟩
    · exact command.trans (congrArg done (loopUpdateOp_off t hon))
    · exact command.trans (congrArg done (loopUpdateOp_lost t hon hf))
    · obtain ⟨z, hu, hz⟩ := loopUpdateOp_tracks (ee := ee) (ll := ll) (ve := ve) (vl := vl) t hon hf
      have hu' : u = acqTake (updCh S c fun _ => z) := hu
      have hy : y = z := by simp only [y, hu', acqTake_gch, updCh_gch_same]
      rw [hy]
      refine ⟨command, hz.sig, hz.prn, hz.prompts, hz.cn0, hz.up, hz.low, hz.codeLock, hz.carrLock, hz.slip, hz.half, hz.slips, hz.pull, ?_, ?_⟩
      · rw [hu', acqTake_regs, updCh_regs]
        rfl
      · intro hk
        rw [hu', acqTake_gch, updCh_gch_ne S _ hk]
        rfl
  · exact fun s c t => ⟨exec_pullInEnd_due, exec_pullInEnd_not⟩
  · intro s n t d S on
    refine ⟨fun hd hon => ?_, fun h => ?_⟩
    · exact (exec_gnssEpoch_cycle hd).trans (congrArg done (if_pos hon))
    · rcases h with hnone | ⟨hd, hoff⟩
      · exact exec_gnssEpoch_noCycle hnone
      · exact (exec_gnssEpoch_cycle hd).trans (congrArg done (if_neg (ne_true_of_eq_false hoff)))
  · intro s n te ti before s1 recs tracked s2 s3
    have htaken : epochTaken s n te = s3 := rfl
    have hmark : s3.wrb GNS_STATUS_ALL_LOST (noneTracked s n te) = s3.wr GNS_STATUS_ALL_LOST (if tracked = 0 then 1 else 0) :=
      congrArg (s3.wr GNS_STATUS_ALL_LOST) (if_congr decide_eq_true_iff rfl rfl)
    refine ⟨fun h => ?_, fun h hf => cycleEpoch_allLost (decide_eq_true h) hf⟩
    rw [cycleEpoch_known (h.imp decide_eq_false id), htaken, hmark]
  · intro s n k t ep hk S te on
    refine ⟨fun he hon => ?_, fun h => ?_⟩
    · exact (exec_gnssEpoch_mid t hk he).trans (congrArg done (if_pos hon))
    · rcases h with hnone | ⟨he, hoff⟩
      · exact exec_gnssEpoch_mid_none t hk hnone
      · exact (exec_gnssEpoch_mid t hk he).trans (congrArg done (if_neg (ne_true_of_eq_false hoff)))
  · intro s n t ep on S rs dgnss
    have hinput : pvtInput S ep = (rs, dgnss) := pvtInput_eq S ep
    have command (he : s.gns.epoch = some ep) (hon : on = true) :
        exec (.gnssJobDispatch n t) s = .next (hstSettle (gnsFill (judgeFixes (pvtPlanned S ep rs dgnss)))) := by
      have h := (exec_gnssJobDispatch_epoch t he).trans (congrArg done (if_pos hon))
      rwa [show pvtInput (jobsGone (s.at t)) ep = (rs, dgnss) from hinput] at h
    refine ⟨fun he hon hm => ?_, fun he hon hm => ?_, fun h => ?_⟩
    · exact (command he hon).trans (congrArg (fun x => done (gnsFill (judgeFixes x))) (if_pos hm))
    · exact (command he hon).trans (congrArg (fun x => done (gnsFill (judgeFixes x))) (if_neg (not_le_of_gt hm)))
    · rcases h with hnone | ⟨he, hoff⟩
      · exact exec_gnssJobDispatch_none t hnone
      · exact (exec_gnssJobDispatch_epoch t he).trans (congrArg done (if_neg (ne_true_of_eq_false hoff)))

end Sys2Proof.Proofs
end

section
/-! PROOFS. O42: navigation words, the saved store, and the RTCM FIFO and parser. -/

namespace Sys2Proof.Proofs

open Sys2Proof Sys2Proof.Machine Sys2Proof.Laws

/-! ### Navigation words (R137, R140, R145) -/

/-- The channel tracks a signal in a block that runs. -/
def trackedIn (s : State) (c : Nat) : Bool := gnsRuns s && decide ((s.gch c).sig ≠ 0)

section NavWords

variable {s : State} {c : Nat} (t : Nat)

theorem navWord_refused (s : State) (c : Nat) (good : Bool) :
    (!gnsRuns s || decide ((s.gch c).sig = 0) || !good) = !(trackedIn s c && good) := by
  rw [trackedIn, not_or_eq_zero, ← Bool.not_and]

/-- A word that fails its check, or of a channel that tracks nothing, changes nothing. -/
theorem exec_navWordDecoded_not {good : Bool} (w : NavWord) (h : trackedIn s c = false ∨ good = false) :
    exec (.navWordDecoded c w good t) s = .next (hstSettle (s.at t)) :=
  congrArg done (if_pos ((navWord_refused s c good).trans (congrArg (!·) (Bool.and_eq_false_iff.mpr h))))

/-- A channel's word that passes its check is not refused. -/
theorem navWord_accepted (h : trackedIn s c = true) : ¬ (!gnsRuns s || decide ((s.gch c).sig = 0) || !true) = true :=
  ne_true_of_eq_false ((navWord_refused s c true).trans (congrArg (!·) (Bool.and_eq_true_iff.mpr ⟨h, rfl⟩)))

theorem exec_navWordDecoded_sync (h : trackedIn s c = true) : exec (.navWordDecoded c .sync true t) s =
    .next (hstSettle (updCh (s.at t) c fun x => { moveCh x (s.at t).tim.cnt with sync := true, prompts := [] })) :=
  congrArg done (if_neg (navWord_accepted h))

/-- The week's chips up to the word replace the code, of which the fraction of a chip remains. -/
theorem exec_navWordDecoded_tow (sec ci : Nat) (h : trackedIn s c = true) : exec (.navWordDecoded c (.tow sec ci) true t) s =
    .next (hstSettle (updCh (s.at t) c fun x => { moveCh x (s.at t).tim.cnt with
      tow := true, code := (sec % 604800 * 1023000 + ci % 1023000) * 2 ^ 32 + (moveCh x (s.at t).tim.cnt).code % 2 ^ 32 })) :=
  congrArg done (if_neg (navWord_accepted h))

theorem exec_navWordDecoded_preamble (inv : Bool) (h : trackedIn s c = true) : exec (.navWordDecoded c (.preamble inv) true t) s =
    .next (hstSettle (if (s.gch c).half then updCh (s.at t) c fun x => { x with half := false, inv := inv } else s.at t)) :=
  congrArg done (if_neg (navWord_accepted h))

/-- The store holds an ephemeris of a satellite in force with an issue of data (R145). -/
def ephInForce (s : State) (sig prn iod : Nat) : Bool :=
  s.gns.store.any fun e => e.sig = sig && e.prn = prn && !e.alm && e.iod = iod && e.inForce

theorem exec_navWordDecoded_eph (iod : Nat) (words : List Nat) (h : trackedIn s c = true) :
    exec (.navWordDecoded c (.eph iod words) true t) s = .next (hstSettle (navPut (s.at t)
      ⟨(s.gch c).sig, (s.gch c).prn, false, iod, words, true, ephInForce s (s.gch c).sig (s.gch c).prn iod⟩)) :=
  congrArg done (if_neg (navWord_accepted h))

theorem exec_navWordDecoded_alm (prn iod : Nat) (words : List Nat) (h : trackedIn s c = true) :
    exec (.navWordDecoded c (.alm prn iod words) true t) s =
      .next (hstSettle (navPut (s.at t) ⟨(s.gch c).sig, prn, true, iod, words, true, true⟩)) :=
  congrArg done (if_neg (navWord_accepted h))

theorem exec_navWordDecoded_iono (words : List Nat) (h : trackedIn s c = true) : exec (.navWordDecoded c (.iono words) true t) s =
    .next (hstSettle (if (s.gch c).sig = 1 then (s.at t).gn fun g => { g with iono := words } else s.at t)) :=
  congrArg done (if_neg (navWord_accepted h))

theorem exec_navWordDecoded_range (words : List Nat) (h : trackedIn s c = true) : exec (.navWordDecoded c (.range words) true t) s =
    .next (hstSettle (if (s.gch c).sig = 4 then updCh (s.at t) c fun x => { x with range := words } else s.at t)) :=
  congrArg done (if_neg (navWord_accepted h))

end NavWords

/-! ### The store in NAND (R145) -/

section Saves

variable {s : State} {t : Nat}

theorem exec_ephemerisSave_due (hon : gnsOn s = true) (hd : s.gns.saveAt ≤ max s.tim.cnt t) : exec (.ephemerisSave t) s =
    .next (hstSettle ((s.at t).gn fun g => { g with nand := g.store, saveAt := max s.tim.cnt t + usTicks 300000000 })) :=
  congrArg done (if_pos (Bool.and_eq_true_iff.mpr ⟨hon, decide_eq_true hd⟩))

theorem exec_ephemerisSave_not (h : gnsOn s = false ∨ max s.tim.cnt t < s.gns.saveAt) :
    exec (.ephemerisSave t) s = .next (hstSettle (s.at t)) := by
  refine congrArg done (if_neg fun hgo => ?_)
  obtain ⟨hon, hd⟩ := Bool.and_eq_true_iff.mp hgo
  exact h.elim (ne_false_of_eq_true hon) fun hl => (not_lt_of_ge (of_decide_eq_true hd)) hl

end Saves

/-! ### The host's RTCM stream (R125, R158) -/

section Fifo

variable {s : State} (v : Nat)

theorem rtcmWrite_off (h : gnsOn s = false) : rtcmWrite s v = s := by
  simp only [rtcmWrite, h, Bool.not_false, if_true]

/-- The FIFO once an octet has entered it and the parser has dropped what no frame can start with. -/
def fifoWith (s : State) (v : Nat) : List Byte := rtcmSeek (s.gns.fifo ++ [BitVec.ofNat 8 v])

theorem rtcmWrite_room (hon : gnsOn s = true) (hr : s.gns.fifo.length < 8192) :
    rtcmWrite s v = (s.gn fun g => { g with fifo := fifoWith s v }).wr GNS_RTCM_STS_FILL (fifoWith s v).length := by
  simp only [rtcmWrite, hon, hr, Bool.not_true, Bool.false_eq_true, if_false, if_true]
  rfl

theorem rtcmWrite_full (hon : gnsOn s = true) (hr : 8192 ≤ s.gns.fifo.length) :
    rtcmWrite s v = if s.flag GNS_RTCM_STS_OVERFLOW = true then s.wr GNS_RTCM_STS_OVERFLOW 1
      else report (s.wr GNS_RTCM_STS_OVERFLOW 1) 0x050F := by
  simp only [rtcmWrite, hon, not_lt_of_ge hr, Bool.not_true, Bool.false_eq_true, if_false]

theorem exec_gnsRtcmData_lets {p : Path} (t : Nat) (h : s.lets p 0x180014) :
    exec (.gnsRtcmData p v t) s = .next (hstSettle (rtcmWrite (s.taken p t) v)) :=
  congrArg done (hostDo_lets s p _ v t _ h)

end Fifo

/-! ### Frames of the two RTCM streams (R158) -/

section Frames

variable {s : State} {eth : Bool} (t : Nat)

/-- The stream from Ethernet, or the host's. -/
def rtcmStream (s : State) (eth : Bool) : List Byte := if eth then s.net.rtcm else s.gns.fifo

/-- The stream with a frame taken out of it. -/
def rtcmLeft (s : State) (eth : Bool) (l : List Byte) : State :=
  if eth then { s with net := { s.net with rtcm := l } } else (s.gn fun g => { g with fifo := l }).wr GNS_RTCM_STS_FILL l.length

theorem exec_rtcmFrame_none (h : gnsOn s = false ∨ rtcmTake (rtcmStream s eth) = none) :
    exec (.rtcmFrame eth t) s = .next (hstSettle (s.at t)) := by
  refine congrArg done ?_
  rcases h with hoff | hnone
  · exact if_pos (congrArg (!·) hoff)
  · have htake : rtcmTake (if eth then (s.at t).net.rtcm else (s.at t).gns.fifo) = none := hnone
    simp only [htake, ite_self]

theorem exec_rtcmFrame_some {b l : List Byte} {good : Bool} (hon : gnsOn s = true) (h : rtcmTake (rtcmStream s eth) = some (b, good, l)) :
    exec (.rtcmFrame eth t) s = .next (hstSettle (
      if !good then report ((rtcmLeft (s.at t) eth l).incSat GNS_RTCM_STS_CRC_CNT 255) 0x050E
      else if b.isEmpty then rtcmLeft (s.at t) eth l
      else rtcmMessage (rtcmLeft (s.at t) eth l) b)) := by
  refine congrArg done ?_
  have htake : rtcmTake (if eth then (s.at t).net.rtcm else (s.at t).gns.fifo) = some (b, good, l) := h
  have hrun : gnsOn (s.at t) = true := hon
  simp only [hrun, htake, Bool.not_true, Bool.false_eq_true, if_false]
  rfl

end Frames

/-- Settles O42: a word by its kind and its channel, the save by its instant, an octet by the room in the FIFO, a frame by its check. -/
theorem navigationDataAndCorrections : Obligations.NavigationDataAndCorrections := by
  unfold Obligations.NavigationDataAndCorrections
  refine ⟨?_, fun s t => ⟨exec_ephemerisSave_due, exec_ephemerisSave_not⟩, ?_, ?_⟩
  · intro s c prn iod sec ci t inv good words x S on now put
    refine ⟨fun hon => ?_, fun h w _ => exec_navWordDecoded_not t w h⟩
    have hnow : moveCh x ((s.at t).tim.cnt : Int) = now := by rw [at_cnt, Nat.cast_max]
    refine ⟨?_, ?_, fun hh => ?_, fun hh => ?_, ?_, ?_, exec_navWordDecoded_iono t words hon, exec_navWordDecoded_range t words hon⟩
    · rw [exec_navWordDecoded_sync t hon, ← hnow]; rfl
    · rw [exec_navWordDecoded_tow t sec ci hon, ← hnow]; rfl
    · exact (exec_navWordDecoded_preamble t inv hon).trans (congrArg done (if_pos hh))
    · exact (exec_navWordDecoded_preamble t inv hon).trans (congrArg done (if_neg (ne_true_of_eq_false hh)))
    · exact exec_navWordDecoded_eph t iod words hon
    · exact exec_navWordDecoded_alm t prn iod words hon
  · intro s p v t hl S fifo
    have command := exec_gnsRtcmData_lets v t hl
    refine ⟨fun hon hr => ?_, fun hon hr ho => ?_, fun hon hr ho => ?_, fun hoff => ?_⟩
    · exact command.trans (congrArg done (rtcmWrite_room (s := S) v hon hr))
    · exact command.trans (congrArg done ((rtcmWrite_full (s := S) v hon hr).trans (if_neg (ne_true_of_eq_false ((taken_flag s p t _).trans ho)))))
    · exact command.trans (congrArg done ((rtcmWrite_full (s := S) v hon hr).trans (if_pos ((taken_flag s p t _).trans ho))))
    · exact command.trans (congrArg done (rtcmWrite_off (s := S) v hoff))
  · intro s t b l eth src s1
    have hleft : rtcmLeft (s.at t) eth l = s1 := rfl
    refine ⟨exec_rtcmFrame_none t, fun hon h => ?_, fun hon h hb => ?_, fun hon h => ?_⟩
    · rw [exec_rtcmFrame_some t hon h, hleft, if_pos (by rfl)]
    · rw [exec_rtcmFrame_some t hon h, hleft, if_neg (by simp), if_neg (by simpa using hb)]
    · rw [exec_rtcmFrame_some t hon h, hleft, if_neg (by simp), if_pos (by rfl)]

end Sys2Proof.Proofs
end

section
/-! PROOFS. O22: the partner's agreement blocks, source words, digests and commit records, and the checkpoints and records of a
resynchronisation. -/

namespace Sys2Proof.Proofs

open Sys2Proof Sys2Proof.Machine Sys2Proof.Laws

/-- A frame is not one of the partner of a paired device. -/
def notPartner (s : State) (h : PstHdr) : Bool := h.src ≠ partnerAddr s || !s.flag RED_STATUS_PAIRED

theorem notPartner_iff {s : State} {h : PstHdr} :
    notPartner s h = true ↔ h.src ≠ partnerAddr s ∨ s.flag RED_STATUS_PAIRED = false := by
  rw [notPartner, Bool.or_eq_true, decide_eq_true_eq, Bool.not_eq_true']

theorem not_notPartner {s : State} {h : PstHdr} (hsrc : h.src = partnerAddr s) (hp : s.flag RED_STATUS_PAIRED = true) :
    ¬ notPartner s h = true := by
  simp [notPartner_iff, hsrc, hp]

/-! ### Frames of the partner alone (R395, R398, R400) -/

/-- A block that comes after T0(n) + AGREE_DL. -/
def blockLate (s : State) (n : Nat) : Bool :=
  ((s.cyc? n).map fun c => decide (dueAt s c (s.rd RED_CFG_AGREE_DL) < s.tim.cnt)).getD false

section PartnerFrames

variable {s : State} {h : PstHdr} (t : Nat)

theorem exec_agree (b : AgreeBlk) (hh : s.hears h 0x10 = true) :
    let u := (s.at t).heard h 0x10
    let n := fullCyc u h.cyc
    exec (.agree h b t) s = .next (hstSettle (
      if notPartner u h = true then u
      else agreeTry (updPart ((if blockLate u n = true then agreeTry u n else u).wr RED_STATUS_PARTNER_OK 1) n fun p =>
        { p with blks := (p.blks.filter fun x => blkKind x ≠ blkKind b) ++ [b] }) n)) :=
  congrArg done (pstTake_hears t _ hh)

theorem exec_digest (dig : Option Nat) (clean : Bool) (fmts : List (Nat × Nat)) (hh : s.hears h 0x12 = true) :
    let u := (s.at t).heard h 0x12
    let n := fullCyc u h.cyc
    let v := fmts.foldl (fun s f => updDrive s (f.1 / 65536) (f.1 % 65536) fun d => { d with pfmt := f.2 }) u
    exec (.digest h dig clean fmts t) s = .next (hstSettle (
      if notPartner u h = true then u else digCompare (updPart v n fun p => { p with dig := some (dig, clean) }) n)) :=
  congrArg done (pstTake_hears t _ hh)

theorem exec_commitblk (r : CommitRec) (hh : s.hears h 0x13 = true) :
    let u := (s.at t).heard h 0x13
    let n := fullCyc u h.cyc
    let v := updPart u n fun p => { p with commit := some r }
    exec (.commitblk h r t) s = .next (hstSettle (
      if notPartner u h = true then u else if v.red.missed.contains n = true then adopt v n r else v)) :=
  congrArg done (pstTake_hears t _ hh)

end PartnerFrames

/-! ### Source words (R217, R396, R432) -/

/-- Source words of the partner of a paired member. -/
def pairWords (s : State) (h : PstHdr) : Bool := isPair s && s.flag RED_STATUS_PAIRED && h.src = partnerAddr s

/-- The partner's source words of a cycle are kept. -/
def putWords (s : State) (n : Nat) (w : SrcWord) : State := updPart s n fun p => { p with src := some w }

/-- The partner's words complete a failure sample that L has not been formed of; outside WIDEN L is then formed. -/
def pairWordsTaken (s : State) (n : Nat) (w : SrcWord) : State :=
  match ((putWords s n w).cyc? n).bind (·.fail) with
  | some f =>
    if f.formed then putWords s n w
    else
      let v := updCyc (putWords s n w) n fun c => { c with fail := some { f with partner := some w } }
      if hasPurpose v 0 then v else formL v n
  | none => putWords s n w

/-- Under WIDEN a device's words join the failure sample of a cycle in flight, until L has been formed of it. -/
def peerWordsTaken (s : State) (n : Nat) (w : SrcWord) : State :=
  match s.cyc? n with
  | some c =>
    let f := c.fail.getD ⟨⟨[], []⟩, none, [], false, noLoss⟩
    if f.formed then s else updCyc s n fun c => { c with fail := some { f with peers := f.peers ++ [w] } }
  | none => s

section SourceWords

variable {s : State} {n : Nat} {w : SrcWord}

theorem pairWordsTaken_none (hf : ((putWords s n w).cyc? n).bind (·.fail) = none) : pairWordsTaken s n w = putWords s n w := by
  simp only [pairWordsTaken, hf]

theorem pairWordsTaken_some {f : CycFail} (hf : ((putWords s n w).cyc? n).bind (·.fail) = some f) :
    let v := updCyc (putWords s n w) n fun c => { c with fail := some { f with partner := some w } }
    pairWordsTaken s n w = if f.formed = true then putWords s n w else if hasPurpose v 0 = true then v else formL v n := by
  simp only [pairWordsTaken, hf]

theorem peerWordsTaken_none (hc : s.cyc? n = none) : peerWordsTaken s n w = s := by
  simp only [peerWordsTaken, hc]

theorem peerWordsTaken_some {c : Cyc} (hc : s.cyc? n = some c) :
    let f := c.fail.getD ⟨⟨[], []⟩, none, [], false, noLoss⟩
    peerWordsTaken s n w =
      if f.formed = true then s else updCyc s n fun c => { c with fail := some { f with peers := f.peers ++ [w] } } := by
  simp only [peerWordsTaken, hc]

theorem exec_srcword {h : PstHdr} (w : SrcWord) (t : Nat) (hh : s.hears h 0x11 = true) :
    let u := (s.at t).heard h 0x11
    let n := fullCyc u h.cyc
    exec (.srcword h w t) s = .next (hstSettle (
      if pairWords u h = true then pairWordsTaken u n w else if hasPurpose u 0 = true then peerWordsTaken u n w else u)) :=
  congrArg done (pstTake_hears t _ hh)

end SourceWords

/-! ### Checkpoints and records (R403, R405) -/

/-- A checkpoint is one that a copying member awaits from its partner. -/
def copiesFrom (s : State) (h : PstHdr) : Bool := s.rd RED_STATUS_SYNC = 1 && h.src = partnerAddr s

/-- The words of the saved-iterate slots go to their places in lane memory. -/
def putIterates (s : State) (its : List (Nat × Nat)) : State :=
  its.foldl (fun s w => lanePut s (w.1 / 24576) (w.1 % 24576) [w.2]) s

section Checkpoints

variable {s : State} {h : PstHdr} (tag snd : Nat) (its : List (Nat × Nat)) (bad : List Nat) (t : Nat) (hh : s.hears h 0x20 = true)
include hh

theorem exec_ckpt_request :
    let u := (s.at t).heard h 0x20
    exec (.ckpt h none tag snd its bad t) s = .next (hstSettle (if cascStopped u = true then u else serveCkpt u h.src bad)) :=
  congrArg done (pstTake_hears t _ hh)

theorem exec_ckpt_taken (k : Ckpt) :
    let u := (s.at t).heard h 0x20
    exec (.ckpt h (some k) tag snd its bad t) s = .next (hstSettle (
      if cascStopped u = true then u
      else if u.red.mirror = true then u.rs fun r => { r with resync := some ⟨some k, [], tag, false⟩, few := decide (snd < 2) }
      else if copiesFrom u h = true then
        (putIterates u its).rs fun r => { r with resync := some ⟨some k, [], tag, decide (its = [])⟩ }
      else u)) :=
  congrArg done (pstTake_hears t _ hh)

end Checkpoints

/-- A journal record is not one of a copy from the partner. -/
def notCopying (s : State) (h : PstHdr) : Bool := s.rd RED_STATUS_SYNC ≠ 1 || h.src ≠ partnerAddr s || cascStopped s

theorem notCopying_iff {s : State} {h : PstHdr} :
    notCopying s h = true ↔ s.rd RED_STATUS_SYNC ≠ 1 ∨ h.src ≠ partnerAddr s ∨ cascStopped s = true := by
  simp only [notCopying, Bool.or_eq_true, decide_eq_true_eq, or_assoc]

theorem not_notCopying {s : State} {h : PstHdr} (hc : s.rd RED_STATUS_SYNC = 1) (hsrc : h.src = partnerAddr s) (hs : cascStopped s = false) :
    ¬ notCopying s h = true := by
  simp [notCopying_iff, hc, hsrc, hs]

/-- The cycle whose record comes next in a copy. -/
def nextRec (x : ResyncSt) (k : Ckpt) : Nat :=
  match x.recs.getLast? with
  | some l => l.n + 1
  | none => k.n

theorem nextRec_eq (x : ResyncSt) (k : Ckpt) : nextRec x k = (x.recs.getLast?.map fun l => l.n + 1).getD k.n := by
  unfold nextRec
  cases x.recs.getLast? <;> rfl

/-- A record is damaged, of another tag or out of order. -/
def recBad (x : ResyncSt) (k : Ckpt) (r : JnlRec) (ok : Bool) : Bool := !ok || r.tag ≠ x.tag || r.n ≠ nextRec x k

theorem recBad_iff {x : ResyncSt} {k : Ckpt} {r : JnlRec} {ok : Bool} :
    recBad x k r ok = true ↔ ok = false ∨ r.tag ≠ x.tag ∨ r.n ≠ (x.recs.getLast?.map fun l => l.n + 1).getD k.n := by
  simp only [recBad, nextRec_eq, Bool.or_eq_true, Bool.not_eq_true', decide_eq_true_eq, or_assoc]

theorem not_recBad {x : ResyncSt} {k : Ckpt} {r : JnlRec} {ok : Bool} (ho : ok = true) (ht : r.tag = x.tag)
    (hn : r.n = (x.recs.getLast?.map fun l => l.n + 1).getD k.n) : ¬ recBad x k r ok = true := by
  simp [recBad_iff, ho, ht, hn]

/-- A record is added to the copy that awaits it, or fails the attempt; where no checkpoint has been taken it is dropped. -/
def recTaken (s : State) (r : JnlRec) (ok : Bool) : State :=
  match s.red.resync with
  | some x => match x.ckpt with
    | some k =>
      if recBad x k r ok then attemptFailed s
      else (s.rs fun y => { y with resync := some { x with recs := x.recs ++ [r] } }).wr RED_RESYNC_LAG (min (x.recs.length + 1) 0xFFFF)
    | none => s
  | none => s

section Records

variable {s : State} {r : JnlRec} {ok : Bool}

theorem recTaken_noCopy (hx : s.red.resync = none) : recTaken s r ok = s := by
  simp only [recTaken, hx]

theorem recTaken_noCkpt {x : ResyncSt} (hx : s.red.resync = some x) (hk : x.ckpt = none) : recTaken s r ok = s := by
  simp only [recTaken, hx, hk]

theorem recTaken_ckpt {x : ResyncSt} {k : Ckpt} (hx : s.red.resync = some x) (hk : x.ckpt = some k) :
    recTaken s r ok =
      if recBad x k r ok = true then attemptFailed s
      else (s.rs fun y => { y with resync := some { x with recs := x.recs ++ [r] } }).wr RED_RESYNC_LAG (min (x.recs.length + 1) 0xFFFF) := by
  simp only [recTaken, hx, hk]

theorem exec_jrec {h : PstHdr} (r : JnlRec) (ok : Bool) (t : Nat) (hh : s.hears h 0x21 = true) :
    let u := (s.at t).heard h 0x21
    exec (.jrec h r ok t) s = .next (hstSettle (if notCopying u h = true then u else recTaken u r ok)) :=
  congrArg done (pstTake_hears t _ hh)

end Records

/-- Settles O22: each frame by who sends it, a source word by its failure sample, a checkpoint by who takes it, a record by its place. -/
theorem pairFramesReachTheirCycle : Obligations.PairFramesReachTheirCycle := by
  unfold Obligations.PairFramesReachTheirCycle
  refine ⟨?_, ?_, ?_, ?_, ?_, ?_⟩
  · intro s h b t hh s0 n late s1
    have command := exec_agree t b hh
    refine ⟨fun hsrc hp => ?_, fun hn => ?_⟩
    · exact command.trans (congrArg done (if_neg (not_notPartner hsrc hp)))
    · exact command.trans (congrArg done (if_pos (notPartner_iff.mpr hn)))
  · intro s h w t f hh s0 n mine s1
    have command := exec_srcword w t hh
    have pair (hm : mine = true) := command.trans (congrArg done (if_pos hm))
    have peer (hm : mine = false) := command.trans (congrArg done (if_neg (ne_true_of_eq_false hm)))
    refine ⟨fun hm hf => ?_, fun hm hf hd => ?_, fun hm hf hd => ?_, fun hm hn => ?_, fun c hc hm hp => ?_⟩
    · exact (pair hm).trans (congrArg done (pairWordsTaken_none hf))
    · exact (pair hm).trans (congrArg done ((pairWordsTaken_some hf).trans (if_pos hd)))
    · exact (pair hm).trans (congrArg done ((pairWordsTaken_some hf).trans (if_neg (ne_true_of_eq_false hd))))
    · refine (peer hm).trans (congrArg done ?_)
      rcases hn with hp | hc
      · exact if_neg (ne_true_of_eq_false hp)
      · rw [peerWordsTaken_none hc, ite_self]
    · exact (peer hm).trans (congrArg done ((if_pos hp).trans (peerWordsTaken_some (Option.mem_def.mp hc))))
  · intro s h dig clean fmts t hh s0 s1
    have command := exec_digest t dig clean fmts hh
    refine ⟨fun hsrc hp => ?_, fun hn => ?_⟩
    · exact command.trans (congrArg done (if_neg (not_notPartner hsrc hp)))
    · exact command.trans (congrArg done (if_pos (notPartner_iff.mpr hn)))
  · intro s h r t hh s0 n s1
    have command := exec_commitblk t r hh
    refine ⟨fun hsrc hp => ?_, fun hn => ?_⟩
    · exact command.trans (congrArg done (if_neg (not_notPartner hsrc hp)))
    · exact command.trans (congrArg done (if_pos (notPartner_iff.mpr hn)))
  · intro s h k tag snd its bad t hh s0 s1
    have request := exec_ckpt_request tag snd its bad t hh
    have taken := exec_ckpt_taken tag snd its bad t hh k
    refine ⟨fun hs => ⟨?_, ?_⟩, fun hs => ?_⟩
    · exact request.trans (congrArg done (if_pos hs))
    · exact taken.trans (congrArg done (if_pos hs))
    · have runs := taken.trans (congrArg done (if_neg (ne_true_of_eq_false hs)))
      refine ⟨?_, fun hm => ?_, fun hm hc hsrc => ?_, fun hm hn => ?_⟩
      · exact request.trans (congrArg done (if_neg (ne_true_of_eq_false hs)))
      · exact runs.trans (congrArg done (if_pos hm))
      · have hcopy : copiesFrom s0 h = true := Bool.and_eq_true_iff.mpr ⟨decide_eq_true hc, decide_eq_true hsrc⟩
        exact runs.trans (congrArg done ((if_neg (ne_true_of_eq_false hm)).trans (if_pos hcopy)))
      · have hcopy : copiesFrom s0 h = false := Bool.and_eq_false_iff.mpr (hn.imp decide_eq_false decide_eq_false)
        exact runs.trans (congrArg done ((if_neg (ne_true_of_eq_false hm)).trans (if_neg (ne_true_of_eq_false hcopy))))
  · intro s h r ok t k x hh s0 next
    have command := exec_jrec r ok t hh
    refine ⟨fun hc hsrc hs hx hk => ?_, fun hn => command.trans (congrArg done ?_)⟩
    · have taken := command.trans (congrArg done ((if_neg (not_notCopying hc hsrc hs)).trans (recTaken_ckpt hx hk)))
      refine ⟨fun ho ht hn => ?_, fun hb => ?_⟩
      · exact taken.trans (congrArg done (if_neg (not_recBad ho ht hn)))
      · exact taken.trans (congrArg done (if_pos (recBad_iff.mpr hb)))
    · rcases hn with hc | hsrc | hs | hx | ⟨hx, hk⟩
      · exact if_pos (notCopying_iff.mpr (.inl hc))
      · exact if_pos (notCopying_iff.mpr (.inr (.inl hsrc)))
      · exact if_pos (notCopying_iff.mpr (.inr (.inr hs)))
      · rw [recTaken_noCopy hx, ite_self]
      · rw [recTaken_noCkpt hx hk, ite_self]

end Sys2Proof.Proofs
end

section
/-! PROOFS. O47: samples of the position channels, their own transfers and those that a drive clocks. -/

namespace Sys2Proof.Proofs

open Sys2Proof Sys2Proof.Machine Sys2Proof.Laws

/-! ### The channels after a change of one -/

/-- The element changed reads as changed, also where the list had not held it. -/
theorem at_upd_same {α : Type} (l : List α) (i : Nat) (d : α) (f : α → α) : at_ (upd_ l i d f) i d = f (at_ l i d) := by
  have hi : i < (l ++ List.replicate (i + 1 - l.length) d).length := by
    rw [List.length_append, List.length_replicate]
    omega
  rw [upd_, put_, at_, List.getD_eq_getElem?_getD, List.getElem?_set_self hi, Option.getD_some]

@[simp] theorem updChan_chan_same (s : State) (e : Nat) (f : ChanSt → ChanSt) : (updChan s e f).chan e = f (s.chan e) :=
  at_upd_same s.fld.ch e chanZero f

/-! ### The blocks that an operation makes whole (R395) -/

theorem sendBlock_unpaired {s : State} (h : s.flag RED_STATUS_PAIRED = false) (n : Nat) (b : AgreeBlk) : sendBlock s n b = s :=
  if_neg (ne_true_of_eq_false h)

/-- A block that an operation makes whole is sent. -/
def sendNew (s : State) (n : Nat) (old new : Option AgreeBlk) : State :=
  match old, new with
  | none, some b => sendBlock s n b
  | _, _ => s

theorem sendNew_unpaired {s : State} (h : s.flag RED_STATUS_PAIRED = false) (n : Nat) (old new : Option AgreeBlk) : sendNew s n old new = s := by
  cases old <;> cases new
  case none.some b => exact sendBlock_unpaired h n b
  all_goals rfl

/-- An unpaired device sends no block: each of the cycles in flight leaves the outcome as it is. -/
theorem writesBlocks_unpaired {u : State} (s : State) (h : u.flag RED_STATUS_PAIRED = false) : writesBlocks (fun _ => u) s = u := by
  refine List.foldl_fixed' (fun c => ?_) u.seq.cycs
  cases s.cyc? c.n with
  | none => rfl
  | some c0 =>
    have hsample := sendNew_unpaired h c.n (sampleBlock s c0) (sampleBlock u c)
    have hfield := sendNew_unpaired h c.n (fieldBlock s c0) (fieldBlock u c)
    exact (congrArg (fun x => sendNew x c.n (fieldBlock s c0) (fieldBlock u c)) hsample).trans hfield

/-! ### Samples (R261, R267, R268, R270) -/

section Samples

variable {s : State} {e n k : Nat} {ts t0 : Int}

/-- The channel exists, and the sample's number is one of its DIV. -/
def sampleNamed (s : State) (e k : Nat) : Bool := decide (e < s.rd FLD_STATUS_CHANNELS) && decide (k < max 1 (s.rd (FLD_POS_TIM_DIV e)))

theorem sample_refused (s : State) (e k : Nat) :
    (decide (s.rd FLD_STATUS_CHANNELS ≤ e) || decide (max 1 (s.rd (FLD_POS_TIM_DIV e)) ≤ k)) = !sampleNamed s e k := by
  simp only [sampleNamed, Bool.not_and, ← decide_not, not_lt]

/-- Channel `e` has begun sample `k` of cycle `n`: the one after it comes next. -/
def sampleBegun (s : State) (e n k : Nat) (t0 : Int) : State := updChan s e fun c => { c with base := some (n, t0, k + 1) }

theorem encSampleOp_eq (n t : Nat) : encSampleOp e n k t (s.at t) =
    if sampleNamed s e k = true then
      match sampleDue (s.at t) e n k with
      | some t0 => encTake (sampleBegun (s.at t) e n k t0) e n k (sampleTime s e t0 k)
      | none => s.at t
    else s.at t := by
  rw [← ite_bnot, ← sample_refused, encSampleOp, at_at]
  rfl

theorem encSampled_due {t : Nat} (hi : s.err.inj = none) (hd : sampleDue (s.at t) e n k = some t0) :
    encSampled e n k t (s.at t) =
      if sampleNamed s e k = true then encTake (sampleBegun (s.at t) e n k t0) e n k (sampleTime s e t0 k) else s.at t := by
  rw [encSampled, hd]
  simp only [injected, takeInjection_none (s := s.at t) 5 e hi, encSampleOp_eq, hd]

theorem encSampled_notDue {t : Nat} (hd : sampleDue s e n k = none) : encSampled e n k t s = s := by
  rw [encSampled, hd]

theorem exec_encSample {t : Nat} {u : State} (h : encSampled e n k t (s.at t) = u) :
    exec (.encSample e n k t) s = .next (hstSettle (writesBlocks (fun _ => u) (s.at t))) :=
  congrArg done (writesBlocks_congr h)

/-- The speed of quadrature channel `e` at t_s = `ts`, with STILL and HELD (R270). -/
def quadRead (s : State) (e : Nat) (ts : Int) : Option Nat × Bool × Bool := quadSpeed s e (s.chan e) (s.rawNow - (s.now - ts))

/-- The speed that the sample records: none out of service. -/
def quadSpd (s : State) (e : Nat) (ts : Int) : Option Nat := if chanRuns s e then (quadRead s e ts).1 else none

/-- What sample 0 of a quadrature channel records (R268, R270). -/
def quadRes (s : State) (e : Nat) (ts : Int) : EncRes :=
  ⟨(s.chan e).count, (quadSpd s e ts).getD 0, ts, chanRuns s e, (quadSpd s e ts).isSome, (s.chan e).qerr, false,
    (quadRead s e ts).2.1 && chanRuns s e, (quadRead s e ts).2.2 && chanRuns s e, if chanRuns s e then 0 else 7⟩

/-- A quadrature channel after a sample: its error is cleared and its speed kept. -/
def quadTaken (s : State) (e : Nat) (spd : Option Nat) : State := updChan s e fun c => { c with qerr := false, spd := spd }

theorem encTake_quad (hq : s.flag (FLD_POS_CFG_MODE e) = true) : encTake s e n k ts =
    if k = 0 then fieldResult (quadTaken s e (quadSpd s e ts)) e n (quadRes s e ts) (i32 (signed 32 (s.chan e).count))
    else quadTaken s e (quadSpd s e ts) :=
  if_pos hq

theorem encTake_stopped (hq : s.flag (FLD_POS_CFG_MODE e) = false) (hr : chanRuns s e = false) :
    encTake s e n k ts = absSample s e ⟨n, k, ts, false⟩ none 7 :=
  (if_neg (ne_true_of_eq_false hq)).trans (if_pos (congrArg (!·) hr))

theorem encTake_running (hq : s.flag (FLD_POS_CFG_MODE e) = false) (hr : chanRuns s e = true) : encTake s e n k ts =
    match (s.chan e).relay with
    | some r => match r.word with
      | some w => absSample s e ⟨n, k, r.tFirst, true⟩ (some w) 0
      | none => updChan s e fun c => { c with xfer := some ⟨n, k, r.tFirst, true⟩ }
    | none => updChan s e fun c => { c with xfer := some ⟨n, k, ts, false⟩, owns := true } :=
  (if_neg (ne_true_of_eq_false hq)).trans (if_neg (by rw [hr]; decide))

theorem encTake_owns (hq : s.flag (FLD_POS_CFG_MODE e) = false) (hr : chanRuns s e = true) (hc : (s.chan e).relay = none) :
    encTake s e n k ts = updChan s e fun c => { c with xfer := some ⟨n, k, ts, false⟩, owns := true } := by
  rw [encTake_running hq hr, hc]

theorem encTake_shares {r : RelaySt} (hq : s.flag (FLD_POS_CFG_MODE e) = false) (hr : chanRuns s e = true) (hc : (s.chan e).relay = some r)
    (hw : r.word = none) : encTake s e n k ts = updChan s e fun c => { c with xfer := some ⟨n, k, r.tFirst, true⟩ } := by
  rw [encTake_running hq hr, hc]
  simp only [hw]

theorem encTake_word {r : RelaySt} {w : EncWord} (hq : s.flag (FLD_POS_CFG_MODE e) = false) (hr : chanRuns s e = true)
    (hc : (s.chan e).relay = some r) (hw : r.word = some w) : encTake s e n k ts = absSample s e ⟨n, k, r.tFirst, true⟩ (some w) 0 := by
  rw [encTake_running hq hr, hc]
  simp only [hw]

theorem sampleBegun_chan (s : State) (e n k : Nat) (t0 : Int) :
    (sampleBegun s e n k t0).chan e = { s.chan e with base := some (n, t0, k + 1) } :=
  updChan_chan_same s e _

theorem sampleBegun_relay (s : State) (e n k : Nat) (t0 : Int) : ((sampleBegun s e n k t0).chan e).relay = (s.chan e).relay := by
  rw [sampleBegun_chan]

/-- That a sample has begun changes nothing that the speed is formed of. -/
theorem quadRead_sampleBegun (s : State) (e n k : Nat) (t0 ts : Int) : quadRead (sampleBegun s e n k t0) e ts = quadRead s e ts := by
  rw [quadRead, sampleBegun_chan]
  rfl

theorem quadSpd_sampleBegun (s : State) (e n k : Nat) (t0 ts : Int) : quadSpd (sampleBegun s e n k t0) e ts = quadSpd s e ts := by
  rw [quadSpd, quadRead_sampleBegun]
  rfl

theorem quadRes_sampleBegun (s : State) (e n k : Nat) (t0 ts : Int) : quadRes (sampleBegun s e n k t0) e ts = quadRes s e ts := by
  rw [quadRes, quadSpd_sampleBegun, quadRead_sampleBegun, sampleBegun_chan]
  rfl

theorem encTake_quad_begun (hq : s.flag (FLD_POS_CFG_MODE e) = true) : encTake (sampleBegun s e n k t0) e n k ts =
    if k = 0 then
      fieldResult (quadTaken (sampleBegun s e n k t0) e (quadSpd s e ts)) e n (quadRes s e ts) (i32 (signed 32 (s.chan e).count))
    else quadTaken (sampleBegun s e n k t0) e (quadSpd s e ts) := by
  rw [encTake_quad (s := sampleBegun s e n k t0) hq, quadSpd_sampleBegun, quadRes_sampleBegun, sampleBegun_chan]

end Samples

/-! ### The end of a transfer and of a monoflop (R261, R263, R264, R267) -/

section TransferEnds

variable {s : State} {e t : Nat}

theorem exec_encTransferEnd {w : EncWord} {u : State} (h : encWord e w (s.at t) = u) :
    exec (.encTransferEnd e w t) s = .next (hstSettle (writesBlocks (fun _ => u) (s.at t))) :=
  congrArg done (writesBlocks_congr h)

theorem encWord_own {x : EncXfer} (w : EncWord) (hx : (s.chan e).xfer = some x) (hs : x.shared = false) :
    encWord e w s = absSample s e x (some w) 0 := by
  rw [encWord, hx]
  exact if_neg (ne_true_of_eq_false hs)

theorem encWord_shared {x : EncXfer} (w : EncWord) (hx : (s.chan e).xfer = some x) (hs : x.shared = true) : encWord e w s = s := by
  rw [encWord, hx]
  exact if_pos hs

theorem encWord_none (w : EncWord) (hx : (s.chan e).xfer = none) : encWord e w s = s := by
  rw [encWord, hx]

theorem exec_monoflopEnd_owns (h : (s.chan e).owns = true) : exec (.monoflopEnd e t) s =
    .next (hstSettle (updChan (s.at t) e fun c => { c with owns := false, monoEnd := (s.at t).rawNow, deferRun := false })) :=
  congrArg done (if_pos h)

theorem exec_monoflopEnd_relays (h : (s.chan e).owns = false) :
    exec (.monoflopEnd e t) s = .next (hstSettle (updChan (s.at t) e fun c => { c with relay := none })) :=
  congrArg done (if_neg (ne_true_of_eq_false h))

end TransferEnds

/-! ### A drive's clocking (R266, R267) -/

section Relays

variable {s : State} {e t : Nat} {w : EncWord}

/-- The channel forwards its drive's transfers: absolute, with RELAY, and FIELD runs. -/
def relayOn (s : State) (e : Nat) : Bool := !s.flag (FLD_POS_CFG_MODE e) && s.flag (FLD_POS_CFG_RELAY e) && groupRuns s 4

theorem relay_refused (s : State) (e : Nat) :
    (s.flag (FLD_POS_CFG_MODE e) || !s.flag (FLD_POS_CFG_RELAY e) || !groupRuns s 4) = !relayOn s e := by
  rw [relayOn, Bool.not_and, Bool.not_and, Bool.not_not]

/-- A clocking during ownership is deferred and counted (R267). -/
def deferred (s : State) (e : Nat) : State :=
  updChan (s.incSat (FLD_POS_CNT_RELAY_CNT e) 255) e fun c => { c with deferRun := true, monoEnd := s.rawNow }

/-- A forwarded transfer has its word (R266). -/
def relayRead (s : State) (e : Nat) (r : RelaySt) (w : EncWord) : State := updChan s e fun c => { c with relay := some { r with word := some w } }

/-- MONO in 2^−16 ns. -/
def monoTime (s : State) (e : Nat) : Int := ((s.rd (FLD_POS_TIM_MONO e) * 65536000 : Nat) : Int)

theorem monoTime_eq (s : State) (e : Nat) : monoTime s e = ((s.rd (FLD_POS_TIM_MONO e) * 1000 * 65536 : Nat) : Int) := by
  rw [monoTime, Nat.mul_assoc]

theorem relayTransfer_off (w : Option EncWord) (h : relayOn s e = false) : relayTransfer e w s = s :=
  if_pos ((relay_refused s e).trans (congrArg (!·) h))

theorem relay_not_refused (h : relayOn s e = true) :
    ¬ (s.flag (FLD_POS_CFG_MODE e) || !s.flag (FLD_POS_CFG_RELAY e) || !groupRuns s 4) = true := by
  rw [relay_refused, h]
  decide

theorem relayTransfer_defers (h : relayOn s e = true) (ho : (s.chan e).owns = true) :
    relayTransfer e none s = if (s.chan e).deferRun = true then deferred s e else report (deferred s e) 0x0907 e :=
  (if_neg (relay_not_refused h)).trans (if_pos ho)

theorem relayTransfer_ownWord (h : relayOn s e = true) (ho : (s.chan e).owns = true) : relayTransfer e (some w) s = s :=
  (if_neg (relay_not_refused h)).trans (if_pos ho)

/-- A clocking while the channel does not own the line: it begins a forwarded transfer unless one goes on or MONO has not passed, and its
word goes to the one that goes on, and to the sample that shares it. -/
def relayForwards (s : State) (e : Nat) (w : Option EncWord) : State :=
  match w, (s.chan e).relay with
  | none, none =>
    if s.rawNow - (s.chan e).monoEnd < monoTime s e then updChan s e fun c => { c with monoEnd := s.rawNow }
    else updChan s e fun c => { c with relay := some ⟨s.now, none⟩ }
  | some w, some r => match (s.chan e).xfer with
    | some x => absSample (relayRead s e r w) e x (some w) 0
    | none => relayRead s e r w
  | _, _ => s

theorem relayTransfer_forwards (w : Option EncWord) (h : relayOn s e = true) (ho : (s.chan e).owns = false) :
    relayTransfer e w s = relayForwards s e w := by
  refine ((if_neg (relay_not_refused h)).trans (if_neg (ne_true_of_eq_false ho))).trans ?_
  simp only [relayForwards, monoTime_eq]
  rfl

theorem relayForwards_begins (hc : (s.chan e).relay = none) : relayForwards s e none =
    if s.rawNow - (s.chan e).monoEnd < monoTime s e then updChan s e fun c => { c with monoEnd := s.rawNow }
    else updChan s e fun c => { c with relay := some ⟨s.now, none⟩ } := by
  simp only [relayForwards, hc]

theorem relayForwards_goesOn {r : RelaySt} (hc : (s.chan e).relay = some r) : relayForwards s e none = s := by
  simp only [relayForwards, hc]

theorem relayForwards_strayWord (hc : (s.chan e).relay = none) : relayForwards s e (some w) = s := by
  simp only [relayForwards, hc]

theorem relayForwards_unshared {r : RelaySt} (hc : (s.chan e).relay = some r) (hx : (s.chan e).xfer = none) :
    relayForwards s e (some w) = relayRead s e r w := by
  simp only [relayForwards, hc, hx]

theorem relayForwards_shared {r : RelaySt} {x : EncXfer} (hc : (s.chan e).relay = some r) (hx : (s.chan e).xfer = some x) :
    relayForwards s e (some w) = absSample (relayRead s e r w) e x (some w) 0 := by
  simp only [relayForwards, hc, hx]

theorem exec_relayTransfer {w : Option EncWord} {u : State} (h : relayTransfer e w (s.at t) = u) :
    exec (.relayTransfer e w t) s = .next (hstSettle (writesBlocks (fun _ => u) (s.at t))) :=
  congrArg done (writesBlocks_congr h)

/-- A forwarded transfer is abandoned (R266). -/
def relayGone (s : State) (e : Nat) : State := updChan s e fun c => { c with relay := none }

theorem exec_relayAbort_noRelay (hc : (s.chan e).relay = none) : exec (.relayAbort e t) s = .next (hstSettle (s.at t)) := by
  have hc' : ((s.at t).chan e).relay = none := hc
  refine congrArg done ?_
  simp only [hc']

theorem exec_relayAbort_read {r : RelaySt} (hc : (s.chan e).relay = some r) (hw : r.word.isSome = true) :
    exec (.relayAbort e t) s = .next (hstSettle (s.at t)) := by
  have hc' : ((s.at t).chan e).relay = some r := hc
  refine congrArg done ?_
  simp only [hc', hw, if_true]

theorem exec_relayAbort_unshared {r : RelaySt} (hc : (s.chan e).relay = some r) (hw : r.word = none) (hx : (s.chan e).xfer = none) :
    exec (.relayAbort e t) s = .next (hstSettle (relayGone (s.at t) e)) := by
  have hc' : ((s.at t).chan e).relay = some r := hc
  have hx' : ((s.at t).chan e).xfer = none := hx
  refine congrArg done ?_
  simp only [hc', hw, hx', Option.isSome_none, Bool.false_eq_true, if_false]
  rfl

theorem exec_relayAbort_shared {r : RelaySt} {x : EncXfer} (hc : (s.chan e).relay = some r) (hw : r.word = none)
    (hx : (s.chan e).xfer = some x) : exec (.relayAbort e t) s = .next (hstSettle (absSample (relayGone (s.at t) e) e x none 6)) := by
  have hc' : ((s.at t).chan e).relay = some r := hc
  have hx' : ((s.at t).chan e).xfer = some x := hx
  refine congrArg done ?_
  simp only [hc', hw, hx', Option.isSome_none, Bool.false_eq_true, if_false]
  rfl

end Relays

/-- Settles O47: a sample by what its channel is and does, a word, a monoflop's end and a clocking by who has the line. -/
theorem encoderChannels : Obligations.EncoderChannels := by
  unfold Obligations.EncoderChannels
  refine ⟨?_, ?_, ?_, ?_, ?_, ?_⟩
  · intro s e n k t t0 hi S c ts B due quad runs gives
    have taken (hd : due = true) : encSampled e n k t S = encTake B e n k ts := by
      obtain ⟨hnamed, hdue⟩ := Bool.and_eq_true_iff.mp hd
      exact (encSampled_due hi (of_decide_eq_true hdue)).trans (if_pos hnamed)
    have hB : (B.chan e).relay = c.relay := sampleBegun_relay S e n k t0
    refine ⟨fun hd hq hr hc => ?_, fun hd hq hr r hc hw => ?_, fun hd hq hr r hc w hw => ?_, fun hd hq hr => ?_, fun hd hq => ?_, fun hn => ?_⟩
    · exact exec_encSample ((taken hd).trans (encTake_owns (s := B) hq hr (hB.trans hc)))
    · exact exec_encSample ((taken hd).trans (encTake_shares (s := B) hq hr (hB.trans hc) hw))
    · exact exec_encSample ((taken hd).trans (encTake_word (s := B) hq hr (hB.trans hc) hw))
    · exact exec_encSample ((taken hd).trans (encTake_stopped (s := B) hq hr))
    · have read := (taken hd).trans (encTake_quad_begun (s := S) hq)
      exact ⟨fun hk => exec_encSample (read.trans (if_pos hk)), fun hk => exec_encSample (read.trans (if_neg hk))⟩
    · refine exec_encSample ?_
      cases hdue : sampleDue S e n k with
      | none => exact encSampled_notDue hdue
      | some t1 =>
        refine (encSampled_due hi hdue).trans (if_neg ?_)
        rw [sampleNamed, Bool.and_eq_true, decide_eq_true_eq, decide_eq_true_eq, not_and_or, not_lt, not_lt]
        rcases hn with he | hk | hnone
        · exact .inl he
        · exact .inr hk
        · rw [hdue] at hnone
          contradiction
  · exact fun s u hp => writesBlocks_unpaired s hp
  · intro s e t w x S gives
    refine ⟨fun hx hs => exec_encTransferEnd (encWord_own (s := S) w hx hs), fun hn => exec_encTransferEnd ?_⟩
    rcases hn with hx | ⟨hx, hs⟩
    · exact encWord_none (s := S) w hx
    · exact encWord_shared (s := S) w hx hs
  · exact fun s e t => ⟨exec_monoflopEnd_owns, exec_monoflopEnd_relays⟩
  · intro s e t w S c on d gives
    refine ⟨fun hon ho hd => ?_, fun hon ho hd => ?_, fun hon ho hc hm => ?_, fun hon ho hc hm => ?_, fun hon ho hx r hc => ?_,
      fun hon ho r hc x hx => ?_, fun hn => ?_, fun hn => ?_⟩
    · exact exec_relayTransfer ((relayTransfer_defers (s := S) hon ho).trans (if_neg (ne_true_of_eq_false hd)))
    · exact exec_relayTransfer ((relayTransfer_defers (s := S) hon ho).trans (if_pos hd))
    · exact exec_relayTransfer ((relayTransfer_forwards (s := S) none hon ho).trans ((relayForwards_begins (s := S) hc).trans (if_pos hm)))
    · exact exec_relayTransfer ((relayTransfer_forwards (s := S) none hon ho).trans ((relayForwards_begins (s := S) hc).trans (if_neg (not_lt_of_ge hm))))
    · exact exec_relayTransfer ((relayTransfer_forwards (s := S) (some w) hon ho).trans (relayForwards_unshared hc hx))
    · exact exec_relayTransfer ((relayTransfer_forwards (s := S) (some w) hon ho).trans (relayForwards_shared hc hx))
    · refine exec_relayTransfer ?_
      cases hon : on with
      | false => exact relayTransfer_off (s := S) none hon
      | true =>
        rw [hon] at hn
        obtain ⟨ho, hsome⟩ := hn.resolve_left (by decide)
        obtain ⟨r, hc⟩ := Option.isSome_iff_exists.mp hsome
        exact (relayTransfer_forwards (s := S) none hon ho).trans (relayForwards_goesOn hc)
    · refine exec_relayTransfer ?_
      cases hon : on with
      | false => exact relayTransfer_off (s := S) (some w) hon
      | true =>
        rw [hon] at hn
        cases ho : c.owns with
        | true => exact relayTransfer_ownWord (s := S) hon ho
        | false =>
          rw [ho] at hn
          have hc := (hn.resolve_left (by decide)).resolve_left (by decide)
          exact (relayTransfer_forwards (s := S) (some w) hon ho).trans (relayForwards_strayWord hc)
  · intro s e t S c gone
    refine ⟨fun r hc hw hx => exec_relayAbort_unshared hc hw hx, fun r hc x hx hw => exec_relayAbort_shared hc hw hx, fun hn => ?_⟩
    cases hc : c.relay with
    | none => exact exec_relayAbort_noRelay hc
    | some r =>
      refine exec_relayAbort_read hc ?_
      by_contra hw
      rw [hc, Option.bind_some, if_neg hw] at hn
      contradiction

end Sys2Proof.Proofs
end

section
/-! PROOFS. O48: edges and indexes of quadrature channels, accepted pin levels and PWM periods. -/

namespace Sys2Proof.Proofs

open Sys2Proof Sys2Proof.Machine Sys2Proof.Laws

/-- An existing channel in quadrature. -/
def quadChannel (s : State) (e : Nat) : Bool := decide (e < s.rd FLD_STATUS_CHANNELS) && s.flag (FLD_POS_CFG_MODE e)

theorem quad_refused (s : State) (e : Nat) :
    (decide (s.rd FLD_STATUS_CHANNELS ≤ e) || !s.flag (FLD_POS_CFG_MODE e)) = !quadChannel s e := by
  simp only [quadChannel, Bool.not_and, ← decide_not, not_lt]

/-! ### The accepted levels of a channel's two pins (R258, R268) -/

/-- The pin of QUAD_A. -/
def pinA (s : State) (e : Nat) : Nat := s.rd (FLD_POS_PINS_PINS e) / 2 ^ 24 % 64

/-- The pin of QUAD_B. -/
def pinB (s : State) (e : Nat) : Nat := s.rd (FLD_POS_PINS_PINS e) / 2 ^ 16 % 64

theorem pinA_lt (s : State) (e : Nat) : pinA s e < 64 := Nat.mod_lt _ (by decide)

theorem pinB_lt (s : State) (e : Nat) : pinB s e < 64 := Nat.mod_lt _ (by decide)

/-- The accepted levels of the pins of QUAD_A and QUAD_B follow the lines. -/
def edgeLevels (s : State) (e : Nat) (a b : Bool) : State :=
  (s.wrBit (FLD_LVL_LEVEL (pinA s e / 32)) (pinA s e % 32) a).wrBit (FLD_LVL_LEVEL (pinB s e / 32)) (pinB s e % 32) b

/-- A level of one of the 64 pins leaves every field outside FLD_LVL as it was. -/
theorem pinLevel_rd (s : State) {p : Nat} (hp : p < 64) (i : Nat) (v : Bool) {f : Fld} (hf : f.key < 0x230028 * 8 ∨ 0x230030 * 8 ≤ f.key) :
    (s.wrBit (FLD_LVL_LEVEL (p / 32)) i v).rd f = s.rd f := by
  refine rd_wr_ne s _ f _ ?_
  simp only [FLD_LVL_LEVEL]
  omega

theorem edgeLevels_rd (s : State) (e : Nat) (a b : Bool) {f : Fld} (hf : f.key < 0x230028 * 8 ∨ 0x230030 * 8 ≤ f.key) :
    (edgeLevels s e a b).rd f = s.rd f := by
  rw [edgeLevels, pinLevel_rd _ (pinB_lt s e) _ _ hf, pinLevel_rd _ (pinA_lt s e) _ _ hf]

theorem edgeLevels_quadChannel (s : State) (e : Nat) (a b : Bool) : quadChannel (edgeLevels s e a b) e = quadChannel s e := by
  have hmode : (FLD_POS_CFG_MODE e).key < 0x230028 * 8 ∨ 0x230030 * 8 ≤ (FLD_POS_CFG_MODE e).key := by
    simp only [FLD_POS_CFG_MODE]
    omega
  rw [quadChannel, State.flag, edgeLevels_rd s e a b (by decide), edgeLevels_rd s e a b hmode]
  rfl

theorem edgeLevels_chanRuns (s : State) (e : Nat) (a b : Bool) : chanRuns (edgeLevels s e a b) e = chanRuns s e := by
  rw [chanRuns, groupRuns, State.idle, edgeLevels_rd s e a b (by decide), edgeLevels_rd s e a b (by decide)]
  rfl

/-! ### Edges (R268 to R270) -/

section Edges

variable {s : State} {e t : Nat} {a b : Bool}

/-- A legal edge counts where A leads B. -/
def edgeUp (c : ChanSt) (a b : Bool) : Bool := if c.a != a then c.b != a else c.a == b

/-- The edge was captured one filter delay before its level is accepted. -/
def edgeTime (s : State) (e : Nat) (c : ChanSt) (a : Bool) : Int :=
  s.rawNow - (s.rd (FLD_PIN_CFG_FILT (if c.a == a then pinB s e else pinA s e)) * 409600 : Nat)

/-- A channel after a legal edge upward or downward at `x`. -/
def edgeCounted (up : Bool) (a b : Bool) (x : Int) (c : ChanSt) : ChanSt := { c with
  a := a, b := b, illRun := false, legal := c.legal + 1, dir := some up, lastEdge := some x
  count := (if up then c.count + 1 else c.count + (2 ^ 32 - 1)) % 2 ^ 32
  edges := if c.dir = some up then x :: c.edges else [x] }

/-- The model counts down by 2^32 − 1 modulo 2^32, and begins the edges anew in a new direction. -/
theorem edgeCounted_eq (up : Bool) (x : Int) (c : ChanSt) : edgeCounted up a b x c = { c with
    a := a, b := b, illRun := false, legal := c.legal + 1, dir := some up, lastEdge := some x
    count := (if up then c.count + 1 else c.count + 2 ^ 32 - 1) % 2 ^ 32
    edges := if c.dir != some up then [x] else x :: c.edges } := by
  have hdown : c.count + 2 ^ 32 - 1 = c.count + (2 ^ 32 - 1) := Nat.add_sub_assoc (by decide) _
  simp only [edgeCounted, hdown, bne_iff_ne, ne_eq, ite_not]

/-- A channel after both lines changed at once (R268). -/
def illegalEdge (s : State) (e : Nat) (a b : Bool) : State :=
  updChan (s.incSat (FLD_POS_CNT_ILLEGAL e) 0xFFFF) e fun c =>
    { c with a := a, b := b, qerr := true, illRun := true, legal := 0, edges := [], dir := none }

/-- The channel counts no edge: it is out of service, or neither line has changed. -/
def edgeless (s : State) (e : Nat) (a b : Bool) : Bool := !chanRuns s e || ((s.chan e).a == a && (s.chan e).b == b)

/-- What the lines of a quadrature channel make of it. -/
def edgeTaken (s S : State) (e : Nat) (a b : Bool) : State :=
  if edgeless s e a b then updChan S e fun c => { c with a := a, b := b }
  else if (s.chan e).a != a && (s.chan e).b != b then
    if (s.chan e).illRun then illegalEdge S e a b else report (illegalEdge S e a b) 0x0908 e
  else updChan S e (edgeCounted (edgeUp (s.chan e) a b) a b (edgeTime s e (s.chan e) a))

theorem exec_quadEdge : exec (.quadEdge e a b t) s = .next (hstSettle (
    if quadChannel s e then edgeTaken (s.at t) (edgeLevels (s.at t) e a b) e a b else edgeLevels (s.at t) e a b)) := by
  have hq : quadChannel s e = quadChannel (edgeLevels (s.at t) e a b) e := (edgeLevels_quadChannel (s.at t) e a b).symm
  have hr : edgeless (s.at t) e a b = edgeless (edgeLevels (s.at t) e a b) e a b := by
    rw [edgeless, edgeless, edgeLevels_chanRuns]
    rfl
  rw [hq, ← ite_bnot, ← quad_refused, edgeTaken, hr, funext (edgeCounted_eq _ _)]
  rfl

theorem exec_quadEdge_off (h : quadChannel s e = false) : exec (.quadEdge e a b t) s = .next (hstSettle (edgeLevels (s.at t) e a b)) :=
  exec_quadEdge.trans (congrArg done (if_neg (ne_true_of_eq_false h)))

theorem exec_quadEdge_quad (h : quadChannel s e = true) :
    exec (.quadEdge e a b t) s = .next (hstSettle (edgeTaken (s.at t) (edgeLevels (s.at t) e a b) e a b)) :=
  exec_quadEdge.trans (congrArg done (if_pos h))

theorem edgeless_iff : edgeless s e a b = true ↔ chanRuns s e = false ∨ ((s.chan e).a = a ∧ (s.chan e).b = b) := by
  simp only [edgeless, Bool.or_eq_true, Bool.not_eq_true', Bool.and_eq_true, beq_iff_eq]

theorem edgeTaken_none {S : State} (h : chanRuns s e = false ∨ ((s.chan e).a = a ∧ (s.chan e).b = b)) :
    edgeTaken s S e a b = updChan S e fun c => { c with a := a, b := b } :=
  if_pos (edgeless_iff.mpr h)

theorem edgeTaken_both {S : State} (hr : chanRuns s e = true) (ha : (s.chan e).a ≠ a) (hb : (s.chan e).b ≠ b) :
    edgeTaken s S e a b = if (s.chan e).illRun then illegalEdge S e a b else report (illegalEdge S e a b) 0x0908 e := by
  have hedge : ¬ edgeless s e a b = true := by simp [edgeless_iff, hr, ha]
  have hboth : ((s.chan e).a != a && (s.chan e).b != b) = true := Bool.and_eq_true_iff.mpr ⟨bne_iff_ne.mpr ha, bne_iff_ne.mpr hb⟩
  exact (if_neg hedge).trans (if_pos hboth)

/-- Where one line has changed and the other has not, they have neither both changed nor both stayed. -/
theorem one_line : ∀ {x y a b : Bool}, (x != a) = (y == b) → ¬ (x = a ∧ y = b) ∧ ¬ (x != a && y != b) = true := by decide

theorem edgeTaken_one {S : State} (hr : chanRuns s e = true) (h : ((s.chan e).a != a) = ((s.chan e).b == b)) :
    edgeTaken s S e a b = updChan S e (edgeCounted (edgeUp (s.chan e) a b) a b (edgeTime s e (s.chan e) a)) := by
  obtain ⟨hstill, hboth⟩ := one_line h
  have hedge : ¬ edgeless s e a b = true := fun hno => (edgeless_iff.mp hno).elim (ne_false_of_eq_true hr) hstill
  exact (if_neg hedge).trans (if_neg hboth)

end Edges

/-! ### The index (R268) -/

section Indexes

variable {s : State} {e t : Nat}

/-- The index records the count. -/
def indexRead (s : State) (e : Nat) : State := s.wr (FLD_POS_ZCOUNT_ZCOUNT e) (s.chan e).count

theorem index_refused (s : State) (e : Nat) :
    (decide (s.rd FLD_STATUS_CHANNELS ≤ e) || !s.flag (FLD_POS_CFG_MODE e) || !chanRuns s e) = !(quadChannel s e && chanRuns s e) := by
  rw [quad_refused, Bool.not_and]

theorem indexRead_zclr (s : State) (e : Nat) : (indexRead s e).flag (FLD_POS_CFG_ZCLR e) = s.flag (FLD_POS_CFG_ZCLR e) := by
  have hkey : (FLD_POS_CFG_ZCLR e).key ≠ (FLD_POS_ZCOUNT_ZCOUNT e).key := by
    simp only [FLD_POS_CFG_ZCLR, FLD_POS_ZCOUNT_ZCOUNT]
    omega
  rw [State.flag, indexRead, rd_wr_ne s _ _ _ hkey]
  rfl

theorem exec_quadZEdge_off (h : (quadChannel s e && chanRuns s e) = false) : exec (.quadZEdge e t) s = .next (hstSettle (s.at t)) :=
  congrArg done (if_pos ((index_refused s e).trans (congrArg (!·) h)))

theorem exec_quadZEdge_runs (h : (quadChannel s e && chanRuns s e) = true) : exec (.quadZEdge e t) s = .next (hstSettle (
    if s.flag (FLD_POS_CFG_ZCLR e) then updChan (indexRead (s.at t) e) e fun c => { c with count := 0 } else indexRead (s.at t) e)) := by
  have hzclr : s.flag (FLD_POS_CFG_ZCLR e) = (indexRead (s.at t) e).flag (FLD_POS_CFG_ZCLR e) := (indexRead_zclr (s.at t) e).symm
  have hgoes : ¬ (decide (s.rd FLD_STATUS_CHANNELS ≤ e) || !s.flag (FLD_POS_CFG_MODE e) || !chanRuns s e) = true := by
    rw [index_refused, h]
    decide
  rw [hzclr]
  exact congrArg done (if_neg hgoes)

end Indexes

/-! ### Pin levels and PWM periods (R257 to R260) -/

section Pins

variable {s : State} {p t : Nat}

theorem exec_pinLevelAccept_assigned (level : Bool) (hp : p < 64) (hf : s.rd (FLD_PIN_CFG_FUNC p) ≠ 0) :
    exec (.pinLevelAccept p level t) s =
      .next (hstSettle ((s.at t).wrBit (FLD_LVL_LEVEL (p / 32)) (p % 32) (level != s.flag (FLD_PIN_CFG_INV p)))) :=
  congrArg done (if_pos (Bool.and_eq_true_iff.mpr ⟨decide_eq_true hp, decide_eq_true hf⟩))

theorem exec_pinLevelAccept_unassigned (level : Bool) (h : 64 ≤ p ∨ s.rd (FLD_PIN_CFG_FUNC p) = 0) :
    exec (.pinLevelAccept p level t) s = .next (hstSettle (s.at t)) := by
  refine congrArg done (if_neg fun hgo => ?_)
  obtain ⟨hp, hf⟩ := Bool.and_eq_true_iff.mp hgo
  exact h.elim (not_le_of_gt (of_decide_eq_true hp)) fun h0 => of_decide_eq_true hf h0

/-- A PWM output runs: the machine is not fail-silent, and the outputs are not parked or the pin holds. -/
def pwmGoes (s : State) (p : Nat) : Bool := !s.flag ERR_STATUS_FAIL_SILENT && (!s.fld.parked || s.flag (FLD_PIN_CFG_HOLD_LAST p))

theorem pwm_refused (s : State) (p : Nat) :
    (s.flag ERR_STATUS_FAIL_SILENT || (s.fld.parked && !s.flag (FLD_PIN_CFG_HOLD_LAST p))) = !pwmGoes s p := by
  simp only [pwmGoes, Bool.not_and, Bool.not_or, Bool.not_not]

theorem exec_pwmPeriodStart_stays (h : pwmGoes s p = false) : exec (.pwmPeriodStart p t) s = .next (hstSettle (s.at t)) :=
  congrArg done (if_pos ((pwm_refused s p).trans (congrArg (!·) h)))

theorem exec_pwmPeriodStart_goes (h : pwmGoes s p = true) : exec (.pwmPeriodStart p t) s = .next (hstSettle
    { s.at t with fld := { s.fld with pwm := s.fld.pwm.map fun w => if w.pin = p then { w with cur := w.next } else w } }) := by
  have hgoes : ¬ (s.flag ERR_STATUS_FAIL_SILENT || (s.fld.parked && !s.flag (FLD_PIN_CFG_HOLD_LAST p))) = true := by
    rw [pwm_refused, h]
    decide
  exact congrArg done (if_neg hgoes)

end Pins

/-- Settles O48: an edge by the lines that changed, an index by ZCLR, a level by the pin's assignment, a PWM period by what stops the outputs. -/
theorem quadratureAndPins : Obligations.QuadratureAndPins := by
  unfold Obligations.QuadratureAndPins
  refine ⟨?_, ?_, ?_, ?_⟩
  · intro s e t a b c quad up pa pb S at' ill
    have edge (hq : quad = true) : exec (.quadEdge e a b t) s = .next (hstSettle (edgeTaken (s.at t) S e a b)) := exec_quadEdge_quad hq
    refine ⟨exec_quadEdge_off, fun hq hn => ?_, fun hq hr ha hb hi => ?_, fun hq hr ha hb hi => ?_, fun hq hr hl => ?_⟩
    · exact (edge hq).trans (congrArg done (edgeTaken_none (s := s.at t) hn))
    · exact (edge hq).trans (congrArg done ((edgeTaken_both (s := s.at t) hr ha hb).trans (if_neg (ne_true_of_eq_false hi))))
    · exact (edge hq).trans (congrArg done ((edgeTaken_both (s := s.at t) hr ha hb).trans (if_pos hi)))
    · exact (edge hq).trans (congrArg done (edgeTaken_one (s := s.at t) hr hl))
  · intro s e t quad S
    refine ⟨fun hq hz => ?_, fun hq hz => ?_, exec_quadZEdge_off⟩
    · exact (exec_quadZEdge_runs hq).trans (congrArg done (if_pos hz))
    · exact (exec_quadZEdge_runs hq).trans (congrArg done (if_neg (ne_true_of_eq_false hz)))
  · exact fun s p t level => ⟨exec_pinLevelAccept_assigned level, exec_pinLevelAccept_unassigned level⟩
  · exact fun s p t => ⟨exec_pwmPeriodStart_goes, exec_pwmPeriodStart_stays⟩

end Sys2Proof.Proofs
end

section
/-! PROOFS. O49: accepted safety inputs, the reset ball's press, test pulses, the functions' timers, readback faults and dark pulses. -/

namespace Sys2Proof.Proofs

open Sys2Proof Sys2Proof.Machine Sys2Proof.Laws

/-! ### Commands that act on a condition -/

/-- What a command gives whose condition holds, and what it gives where it does not. -/
theorem exec_next_pos {i : Instr} {s x y : State} {b : Bool} (he : exec i s = done (if b then x else y)) (h : b = true) :
    exec i s = .next (hstSettle x) :=
  he.trans (congrArg done (if_pos h))

theorem exec_next_neg {i : Instr} {s x y : State} {b : Bool} (he : exec i s = done (if b then x else y)) (h : b = false) :
    exec i s = .next (hstSettle y) :=
  he.trans (congrArg done (if_neg (ne_true_of_eq_false h)))

/-! ### Accepted levels and the reset ball's press (R287, R288, R293, R294) -/

section Balls

variable {s : State} {x c : Nat} {l : Bool}

/-- A named ball of a configured evaluator stands at another level than the accepted one. -/
def ballMoves (s : State) (x : Nat) (l : Bool) : Bool :=
  decide (x < 16) && s.saf.conf.isSome && bit (namedBalls s.sconf) x && bit s.saf.acc x != l

theorem ball_refused (s : State) (x : Nat) (l : Bool) :
    (decide (16 ≤ x) || s.saf.conf.isNone || !bit (namedBalls s.sconf) x || decide (bit s.saf.acc x = l)) = !ballMoves s x l := by
  simp only [ballMoves, Bool.not_and, Option.not_isSome, bne, beq_eq_decide, ← decide_not, not_lt, not_not]

/-- The accepted level of a ball. -/
def ballSet (s : State) (x : Nat) (l : Bool) : State := { s with saf := { s.saf with acc := setBit s.saf.acc x l } }

/-- A ball takes its level: the reset ball's press starts or ends, any other ball moves the pairs' timers. -/
def ballTaken (s : State) (x c : Nat) (l : Bool) : State :=
  if resetBall s.sconf = some x then
    if l then { ballSet s x true with saf := { (ballSet s x true).saf with press := some c, stuck := false } } else safPressEnd (ballSet s x false) c
  else safPairs (ballSet s x l) c

theorem exec_safeInputAccept (s : State) (x c : Nat) (l : Bool) :
    exec (.safeInputAccept x l c) s = done (if ballMoves s x l then ballTaken (safAt s c) x c l else safAt s c) := by
  rw [← ite_bnot, ← ball_refused]
  rfl

theorem safPressEnd_none (h : s.saf.press = none) : safPressEnd s c = s := by
  rw [safPressEnd, h]

/-- A press that ends resets the functions by how long it has lasted. -/
theorem safPressEnd_some {p : Nat} (h : s.saf.press = some p) : safPressEnd s c =
    if decide (2400000 ≤ c - p) && decide (c - p ≤ 144000000) then safReset { s with saf := { s.saf with press := none, stuck := false } }
    else { s with saf := { s.saf with press := none, stuck := false } } := by
  rw [safPressEnd, h]
  rfl

theorem exec_resetPressEnd_ball (h : resetBall s.sconf = some x) :
    exec (.resetPressEnd c) s = done (safPressEnd (ballSet (safAt s c) x false) c) := by
  have h' : resetBall (safAt s c).sconf = some x := h
  refine congrArg done ?_
  simp only [h']
  rfl

theorem exec_resetPressEnd_none (h : resetBall s.sconf = none) : exec (.resetPressEnd c) s = done (safAt s c) := by
  have h' : resetBall (safAt s c).sconf = none := h
  refine congrArg done ?_
  simp only [h']

theorem exec_resetStuck_none (h : s.saf.press = none) : exec (.resetStuck c) s = done (safAt s c) := by
  have h' : (safAt s c).saf.press = none := h
  refine congrArg done ?_
  simp only [h']

theorem exec_resetStuck_some {p : Nat} (h : s.saf.press = some p) : exec (.resetStuck c) s = done (
    if !s.saf.stuck && decide (144000000 ≤ c - p) then safQueue { safAt s c with saf := { (safAt s c).saf with stuck := true } } 0x0A0A 0
    else safAt s c) := by
  have h' : (safAt s c).saf.press = some p := h
  refine congrArg done ?_
  simp only [h']
  rfl

end Balls

/-! ### Test pulses (R289) -/

section Pulses

variable {s : State} {p c : Nat}

/-- The configuration lets STP `p` be pulsed. -/
def stpOn (s : State) (p : Nat) : Bool := decide (p < 2) && s.saf.conf.isSome && bit (u8 s.sconf 1) p

theorem stp_refused (s : State) (p : Nat) : (decide (2 ≤ p) || s.saf.conf.isNone || !bit (u8 s.sconf 1) p) = !stpOn s p := by
  simp only [stpOn, Bool.not_and, Option.not_isSome, ← decide_not, not_lt]

/-- A pulse starts: the balls tested and those of the other source are noted by what they read. -/
def pulseStarted (s : State) (p raw c : Nat) : State :=
  { s with saf := { s.saf with
    stp := setBit s.saf.stp p false, own := put_ s.saf.own p 0 (allTested s.sconf (p + 1) &&& raw),
    cross := put_ s.saf.cross p 0 (allTested s.sconf (2 - p) &&& raw), pulseAt := put_ s.saf.pulseAt p none (some c) } }

theorem exec_testPulseStart (s : State) (p raw c : Nat) : exec (.testPulseStart p raw c) s =
    done (if stpOn s p && pulseDue s p c then pulseStarted (safAt s c) p raw c else safAt s c) := by
  rw [← ite_bnot, Bool.not_and, ← stp_refused]
  rfl

theorem pulseDue_first (s : State) (c : Nat) : pulseDue s 0 c = clkDue (at_ s.saf.pulseAt 0 none) (u16 s.sconf 2 * 48000) c := by
  simp [pulseDue, safMs]

/-- STP1 is also to be half a period after STP0. -/
theorem pulseDue_second (s : State) (c : Nat) : pulseDue s 1 c =
    (clkDue (at_ s.saf.pulseAt 1 none) (u16 s.sconf 2 * 48000) c && clkDue (at_ s.saf.pulseAt 0 none) (u16 s.sconf 2 * 24000) c) := by
  have hhalf : u16 s.sconf 2 * 48000 / 2 = u16 s.sconf 2 * 24000 := by omega
  simp [pulseDue, safMs, hhalf]

/-- The window of a pulse of STP `p` is over. -/
def windowOver (s : State) (p c : Nat) : Bool :=
  stpOn s p && !bit s.saf.stp p && clkDue (at_ s.saf.pulseAt p none) ((u16 s.sconf 4 + 50) * 48) c

theorem window_refused (s : State) (p c : Nat) :
    (decide (2 ≤ p) || s.saf.conf.isNone || !bit (u8 s.sconf 1) p || bit s.saf.stp p
      || !clkDue (at_ s.saf.pulseAt p none) ((u16 s.sconf 4 + 50) * 48) c) = !windowOver s p c := by
  rw [windowOver, Bool.not_and, Bool.not_and, Bool.not_not, ← stp_refused]

/-- The pulses in a row that each ball has missed, after one of STP `p`. -/
def missAfter (s : State) (p low : Nat) : List Nat :=
  (List.range 16).map fun i =>
    if bit (allTested s.sconf (p + 1)) i then
      if bit (at_ s.saf.own p 0) i && !bit low i then min (at_ s.saf.miss i 0 + 1) 2 else 0
    else at_ s.saf.miss i 0

/-- What a pulse of STP `p` finds for one function: a ball missed twice, and a cross-short. -/
def pulseJudged (miss : List Nat) (cross low p : Nat) (s : State) (f : Nat) : State :=
  let bad : Bool := (List.range 16).any fun i => bit (testedBalls s.sconf f (p + 1)) i && at_ miss i 0 == 2
  let u := if bad then safFault s f 2 (some 0x0A05) else s
  if testedBalls s.sconf f (2 - p) &&& cross &&& low ≠ 0 then safFault u f 3 (some 0x0A06) else u

/-- The window of a pulse ends. -/
def windowClosed (s : State) (p : Nat) (miss : List Nat) : State :=
  { s with saf := { s.saf with stp := setBit s.saf.stp p true, own := put_ s.saf.own p 0 0, cross := put_ s.saf.cross p 0 0, miss := miss } }

theorem exec_testPulseEnd (s : State) (p low c : Nat) : exec (.testPulseEnd p low c) s = done (
    if windowOver s p c then
      (List.range (safNfn s.sconf)).foldl (pulseJudged (missAfter s p low) (at_ s.saf.cross p 0) low p)
        (windowClosed (safAt s c) p (missAfter s p low))
    else safAt s c) := by
  have hmiss : missAfter s p low = (List.range 16).map fun i =>
      if !bit (allTested s.sconf (p + 1)) i then at_ s.saf.miss i 0
      else if bit (at_ s.saf.own p 0) i && !bit low i then satAdd (at_ s.saf.miss i 0) 1 2 else 0 :=
    List.map_congr_left fun i _ => (ite_bnot _ _ _).symm
  rw [← ite_bnot, ← window_refused, hmiss]
  rfl

end Pulses

/-! ### The timers of a function (R288, R290, R292) -/

section Timers

variable {s : State} {f c : Nat}

/-- A discrepancy of function `f` has lasted longer than T_DISC. -/
def discLate (s : State) (f c : Nat) : Bool :=
  (s.fn f).disc.any fun d => (d.map fun a => decide (u16 (fnEnt s.sconf f) 6 * 48000 < c - a)).getD false

theorem exec_discrepancyTimeout (s : State) (f c : Nat) : exec (.discrepancyTimeout f c) s =
    done (if decide (f < safNfn s.sconf) && discLate s f c then safFault (safAt s c) f 1 (some 0x0A04) else safAt s c) := by
  refine congrArg (fun q : Option Nat → Bool =>
    done (if decide (f < safNfn s.sconf) && (s.fn f).disc.any q then safFault (safAt s c) f 1 (some 0x0A04) else safAt s c)) (funext fun d => ?_)
  cases d <;> rfl

theorem exec_stop1Expired (s : State) (f c : Nat) : exec (.stop1Expired f c) s =
    done (if decide (f < safNfn s.sconf) && decide ((s.fn f).state = 3) && decide (u16 (fnEnt s.sconf f) 10 * 48000 ≤ c - (s.fn f).tripAt) then
      updFn (safAt s c) f fun x => { x with state := 0 } else safAt s c) := rfl

/-- One hand has been permissive for more than 500 ms and the other is not. -/
def handAlone (c : Nat) (a b : Option Nat) : Bool := (a.map fun x => decide (24000000 < c - x)).getD false && b.isNone

/-- A two-hand function in STOP, from rest, has one hand alone for too long. -/
def handLate (s : State) (f c : Nat) : Bool :=
  decide (f < safNfn s.sconf) && fnType s.sconf f == 3 && (s.fn f).state == 0 && (s.fn f).rested && !(s.fn f).syncWait
    && (handAlone c (at_ (s.fn f).perm 0 none) (at_ (s.fn f).perm 1 none) || handAlone c (at_ (s.fn f).perm 1 none) (at_ (s.fn f).perm 0 none))

theorem exec_twoHandSyncTimeout (s : State) (f c : Nat) : exec (.twoHandSyncTimeout f c) s =
    done (if handLate s f c then safSync (safAt s c) f else safAt s c) := by
  have hexec : exec (.twoHandSyncTimeout f c) s = execTwoHandSyncTimeout f c s := rfl
  have hfn : (safAt s c).fn f = s.fn f := rfl
  have hconf : (safAt s c).sconf = s.sconf := rfl
  rw [hexec, execTwoHandSyncTimeout, handLate]
  simp only [hfn, hconf, beq_eq_decide]
  generalize at_ (s.fn f).perm 0 none = a
  generalize at_ (s.fn f).perm 1 none = b
  cases a <;> cases b <;> simp [handAlone] <;> rfl

end Timers

/-! ### Readback faults and dark pulses (R297, R298) -/

section Outputs

variable {s : State} {o c : Nat} {side low : Bool}

theorem exec_readbackFault (s : State) (o c : Nat) : exec (.readbackFault o c) s =
    done (if (decide (o < 4) && s.saf.conf.isSome) && (decide (2 < at_ s.saf.wrong (2 * o) 0) || decide (2 < at_ s.saf.wrong (2 * o + 1) 0)) then
      safOutFault (safAt s c) o else safAt s c) := rfl

/-- A dark pulse of one switch of output `o`, whose turn it is, is due. -/
def darkDue (s : State) (o c : Nat) (side : Bool) : Bool :=
  (decide (o < 4) && s.saf.conf.isSome) && bit (u8 s.sconf 7) o && bit s.saf.cmd (2 * o) && bit s.saf.darkSide o == side
    && clkDue (at_ s.saf.darkAt o none) 48000000 c

/-- A dark pulse is done: the other switch comes next. -/
def darkDone (s : State) (o c : Nat) (side : Bool) : State :=
  { s with saf := { s.saf with darkSide := setBit s.saf.darkSide o (!side), darkAt := put_ s.saf.darkAt o none (some c) } }

theorem exec_darkPulse (s : State) (o c : Nat) (side low : Bool) : exec (.darkPulse o side low c) s =
    done (if darkDue s o c side then (if low then darkDone (safAt s c) o c side else safOutFault (darkDone (safAt s c) o c side) o) else safAt s c) := rfl

end Outputs

/-- Settles O49: each command acts where its condition holds and else leaves all but the SAFE time. -/
theorem safetyInputsAndPulses : Obligations.SafetyInputsAndPulses := by
  unfold Obligations.SafetyInputsAndPulses
  refine ⟨?_, ?_, ?_, ?_, ?_, ?_⟩
  · intro s x c l S T P gives goes
    have moves (hg : goes = true) : gives (ballTaken S x c l) := exec_next_pos (exec_safeInputAccept s x c l) hg
    refine ⟨fun hg hr => ?_, fun hg hr hl => ?_, fun hg hr hl => ?_, exec_next_neg (exec_safeInputAccept s x c l),
      exec_resetPressEnd_ball, exec_resetPressEnd_none⟩
    · exact (moves hg).trans (congrArg done (if_neg hr))
    · subst hl
      exact (moves hg).trans (congrArg done (if_pos hr))
    · subst hl
      exact (moves hg).trans (congrArg done (if_pos hr))
  · intro s c p
    refine ⟨fun hp hs hc => ?_, fun hp hn => ?_, fun hp => ⟨exec_resetStuck_none hp, safPressEnd_none hp⟩, fun hp => ?_⟩
    · exact exec_next_pos (exec_resetStuck_some hp) (by simp [hs, hc])
    · exact exec_next_neg (exec_resetStuck_some hp) (by simpa [or_iff_not_imp_left] using hn)
    · intro u
      refine ⟨fun hlo hhi => ?_, fun hn => ?_⟩
      · exact (safPressEnd_some hp).trans (if_pos (by simp [hlo, hhi]))
      · exact (safPressEnd_some hp).trans (if_neg (by simp only [Bool.and_eq_true, decide_eq_true_eq]; omega))
  · intro s p raw c S on v
    have starts := exec_testPulseStart s p raw c
    exact ⟨fun ho hd => exec_next_pos starts (Bool.and_eq_true_iff.mpr ⟨ho, hd⟩),
      fun hn => exec_next_neg starts (Bool.and_eq_false_iff.mpr hn), pulseDue_first s c, pulseDue_second s c⟩
  · intro s p low c S v goes own cross miss E
    exact ⟨exec_next_pos (exec_testPulseEnd s p low c), exec_next_neg (exec_testPulseEnd s p low c)⟩
  · intro s f c S e known late one hand run
    have disc := exec_discrepancyTimeout s f c
    exact ⟨fun hk hl => exec_next_pos disc (Bool.and_eq_true_iff.mpr ⟨hk, hl⟩), fun hn => exec_next_neg disc (Bool.and_eq_false_iff.mpr hn),
      exec_next_pos (exec_stop1Expired s f c), exec_next_neg (exec_stop1Expired s f c),
      exec_next_pos (exec_twoHandSyncTimeout s f c), exec_next_neg (exec_twoHandSyncTimeout s f c)⟩
  · intro s o c side low S D on wrong dark
    have reads := exec_readbackFault s o c
    have pulses := exec_darkPulse s o c side low
    refine ⟨fun ho hw => exec_next_pos reads (Bool.and_eq_true_iff.mpr ⟨ho, hw⟩), fun hn => exec_next_neg reads (Bool.and_eq_false_iff.mpr hn),
      fun hd hl => ?_, fun hd hl => ?_, exec_next_neg pulses⟩
    · exact (exec_next_pos pulses hd).trans (congrArg done (if_pos hl))
    · exact (exec_next_pos pulses hd).trans (congrArg done (if_neg (ne_true_of_eq_false hl)))

end Sys2Proof.Proofs
end

section
/-! PROOFS. O50: the safety tick, the outputs that are on, the internal fault and the clock check, and the drain of the safety events. -/

namespace Sys2Proof.Proofs

open Sys2Proof Sys2Proof.Machine Sys2Proof.Laws

/-! ### The functions after a change of one -/

/-- The elements that are not changed read as before, also where the list had not held them. -/
theorem at_upd_ne {α : Type} (l : List α) {i j : Nat} (d : α) (f : α → α) (h : i ≠ j) : at_ (upd_ l j d f) i d = at_ l i d := by
  rw [upd_, put_, at_, at_, List.getD_eq_getElem?_getD, List.getElem?_set_ne h.symm, ← List.getD_eq_getElem?_getD]
  by_cases hi : i < l.length
  · exact List.getD_append l _ d i hi
  · have hle : l.length ≤ i := Nat.le_of_not_lt hi
    rw [List.getD_append_right l _ d i hle, List.getD_eq_getElem?_getD, List.getElem?_getD_replicate_default_eq]
    exact (List.getD_eq_default l d hle).symm

@[simp] theorem updFn_fn_same (s : State) (f : Nat) (g : SafFn → SafFn) : (updFn s f g).fn f = g (s.fn f) :=
  at_upd_same s.saf.fns f fnZero g

theorem updFn_fn_ne (s : State) {f k : Nat} (g : SafFn → SafFn) (h : k ≠ f) : (updFn s f g).fn k = s.fn k :=
  at_upd_ne s.saf.fns fnZero g h

/-- Functions are read from the evaluator's part of the state. -/
theorem fn_congr {s t : State} (h : s.saf.fns = t.saf.fns) (f : Nat) : s.fn f = t.fn f := by rw [State.fn, State.fn, h]

/-! ### What the evaluator's shared operations leave (R290, R301) -/

/-- An event queued changes the queue alone, or only the count of dropped events. -/
theorem safQueue_saf (s : State) (code f : Nat) : (safQueue s code f).saf = { s.saf with queue := (safQueue s code f).saf.queue } := by
  rw [safQueue]
  split <;> rfl

@[simp] theorem safQueue_fn (s : State) (code f k : Nat) : (safQueue s code f).fn k = s.fn k :=
  fn_congr (by rw [safQueue_saf]) k

@[simp] theorem safTrip_fn (s : State) (f k : Nat) : (safTrip s f).fn k = s.fn k := safQueue_fn s 0x0A02 f k

/-- The configuration, the internal fault and the commands of the outputs. -/
def safHeld (s : State) : Option (List Byte) × Bool × Nat := (s.saf.conf, s.saf.internal, s.saf.cmd)

@[simp] theorem safQueue_held (s : State) (code f : Nat) : safHeld (safQueue s code f) = safHeld s := by
  rw [safHeld, safQueue_saf]
  rfl

@[simp] theorem safTrip_held (s : State) (f : Nat) : safHeld (safTrip s f) = safHeld s := safQueue_held s 0x0A02 f

/-! ### A function enters FAULT (R290) -/

/-- The function leaves RUN, where it was in it. -/
def faultTripped (s : State) (f : Nat) : State := if (s.fn f).state = 2 then safTrip s f else s

/-- A function in FAULT; both hands are to rest first where `hand` is set. -/
def fnInFault (why : Nat) (hand : Bool) (x : SafFn) : SafFn :=
  { x with state := 4, why := why, manual := true, syncWait := x.syncWait || hand, rested := false }

/-- Function `f` is put in FAULT and counted. -/
def faultEntered (s : State) (f why : Nat) : State :=
  ((updFn (faultTripped s f) f (fnInFault why ((s.fn f).state = 2 && fnType (faultTripped s f).sconf f = 3))).incSat
    SAF_CNT_FAULT_CNT 255).wrBit SAF_EVT_FAULT f true

/-- The internal fault of one function: one that is in FAULT already takes the reason. -/
theorem safFault_internal (s : State) (f : Nat) : safFault s f 6 none =
    if (s.fn f).state = 4 then updFn s f fun x => { x with why := 6 } else faultEntered s f 6 := rfl

@[simp] theorem faultTripped_fn (s : State) (f k : Nat) : (faultTripped s f).fn k = s.fn k := by
  rw [faultTripped]
  split
  · exact safTrip_fn s f k
  · rfl

@[simp] theorem faultTripped_held (s : State) (f : Nat) : safHeld (faultTripped s f) = safHeld s := by
  rw [faultTripped]
  split
  · exact safTrip_held s f
  · rfl

theorem faultEntered_fn_same (s : State) (f why : Nat) :
    ((faultEntered s f why).fn f).state = 4 ∧ ((faultEntered s f why).fn f).why = why := by
  have hfn : (faultEntered s f why).fn f = fnInFault why _ ((faultTripped s f).fn f) := updFn_fn_same (faultTripped s f) f _
  exact ⟨congrArg SafFn.state hfn, congrArg SafFn.why hfn⟩

theorem faultEntered_fn_ne (s : State) {f k : Nat} (why : Nat) (h : k ≠ f) : (faultEntered s f why).fn k = s.fn k :=
  (updFn_fn_ne (faultTripped s f) _ h).trans (faultTripped_fn s f k)

/-! ### The internal fault (R284) -/

/-- A function is in FAULT with reason INTERNAL. -/
def FaultInternal (s : State) (f : Nat) : Prop := (s.fn f).state = 4 ∧ (s.fn f).why = 6

theorem safFault_internal_same (s : State) (f : Nat) : FaultInternal (safFault s f 6 none) f := by
  rw [safFault_internal]
  split
  case isTrue h =>
    have hfn := updFn_fn_same s f fun x => { x with why := 6 }
    exact ⟨(congrArg SafFn.state hfn).trans h, congrArg SafFn.why hfn⟩
  case isFalse => exact faultEntered_fn_same s f 6

theorem safFault_internal_ne (s : State) {f k : Nat} (h : k ≠ f) : (safFault s f 6 none).fn k = s.fn k := by
  rw [safFault_internal]
  split
  · exact updFn_fn_ne s _ h
  · exact faultEntered_fn_ne s 6 h

@[simp] theorem safFault_internal_held (s : State) (f : Nat) : safHeld (safFault s f 6 none) = safHeld s := by
  rw [safFault_internal]
  split
  · rfl
  · exact faultTripped_held s f

/-- A function once in FAULT by the internal fault stays there while others are put there. -/
theorem FaultInternal.step {s : State} {f : Nat} (h : FaultInternal s f) (k : Nat) : FaultInternal (safFault s k 6 none) f := by
  by_cases hk : f = k
  · subst hk
    exact safFault_internal_same s f
  · rwa [FaultInternal, safFault_internal_ne s hk]

/-- Functions put in FAULT one after another are there at the end. -/
theorem faultInternal_fold {l : List Nat} {f : Nat} (h : f ∈ l) (s : State) :
    FaultInternal (l.foldl (fun s f => safFault s f 6 none) s) f := by
  obtain ⟨a, b, rfl⟩ := List.append_of_mem h
  rw [List.foldl_append, List.foldl_cons]
  exact List.foldlRecOn (motive := (FaultInternal · f)) b (fun s f => safFault s f 6 none)
    (safFault_internal_same (a.foldl (fun s f => safFault s f 6 none) s) f) fun _ hu k _ => hu.step k

/-- The outputs go off and the internal fault is marked. -/
def internalMarked (s : State) : State := { s with saf := { s.saf with internal := true, cmd := 0 } }

/-- Every function is put in FAULT by the internal fault. -/
def internalFaults (s : State) : State := (List.range (safNfn s.sconf)).foldl (fun s f => safFault s f 6 none) (internalMarked s)

theorem safInternal_standing {s : State} (h : s.saf.internal = true) : safInternal s = s := if_pos h

theorem safInternal_fresh {s : State} (h : s.saf.internal = false) :
    safInternal s = (safQueue (internalFaults s) 0x0A0B 0).wr SAF_EVT_INTERNAL 1 := if_neg (ne_true_of_eq_false h)

theorem internalFaults_held (s : State) : safHeld (internalFaults s) = (s.saf.conf, true, 0) :=
  foldl_keeps safHeld _ safFault_internal_held _ (internalMarked s)

theorem safInternal_held {s : State} (h : s.saf.internal = false) : safHeld (safInternal s) = (s.saf.conf, true, 0) := by
  rw [safInternal_fresh h]
  exact (safQueue_held (internalFaults s) 0x0A0B 0).trans (internalFaults_held s)

/-- The configuration outlives an internal fault. -/
@[simp] theorem safInternal_conf (s : State) : (safInternal s).saf.conf = s.saf.conf := by
  cases h : s.saf.internal with
  | true => rw [safInternal_standing h]
  | false => exact congrArg Prod.fst (safInternal_held h)

theorem safInternal_fn {s : State} {f : Nat} (h : s.saf.internal = false) (hf : f < safNfn s.sconf) : FaultInternal (safInternal s) f := by
  have hfold : FaultInternal (internalFaults s) f := faultInternal_fold (List.mem_range.mpr hf) (internalMarked s)
  have hfn : (safInternal s).fn f = (internalFaults s).fn f := by
    rw [safInternal_fresh h]
    exact safQueue_fn (internalFaults s) 0x0A0B 0 f
  rwa [FaultInternal, hfn]

theorem safInternal_event {s : State} (h : s.saf.internal = false) : (safInternal s).rd SAF_EVT_INTERNAL = 1 := by
  rw [safInternal_fresh h, rd_wr_same _ _ _ (by decide)]
  rfl

/-! ### The tick (R282, R296, R299) -/

/-- A tick is due, and the evaluator is not stopped by SLEEP. -/
def tickDue (s : State) (c : Nat) : Bool := !asleep s && clkDue s.saf.tickAt 12000 c

theorem exec_safeTick (s : State) (raw rb c : Nat) (agree ecc : Bool) : exec (.safeTick raw rb agree ecc c) s =
    done (if tickDue s c then safTick { safAt s c with saf := { (safAt s c).saf with tickAt := some c } } raw rb agree ecc else safAt s c) := by
  have hrefused : (asleep s || !clkDue s.saf.tickAt 12000 c) = !tickDue s c := by rw [tickDue, Bool.not_and, Bool.not_not]
  rw [← ite_bnot, ← hrefused]
  rfl

/-- A tick counts and samples: a ball that nothing names takes its level at once. -/
def tickSampled (s : State) (raw : Nat) : State :=
  { s with saf := { s.saf with
    tick := s.saf.tick + 1, raw := raw % 65536
    acc := (List.range 16).foldl (fun a i => if bit (namedBalls s.sconf) i then a else setBit a i (bit raw i)) s.saf.acc } }

/-- The internal fault is taken where the evaluations disagree or the memory fails, and the readback is checked. -/
def tickChecked (s : State) (raw rb : Nat) (agree ecc : Bool) : State :=
  safReadback (if agree && ecc then tickSampled s raw else safInternal (tickSampled s raw)) rb

/-- The outputs are commanded by the functions. -/
def outputsCommanded (s : State) : State :=
  { s with saf := { s.saf with cmd := (List.range 4).foldl (fun m o => setBit (setBit m (2 * o) (outOn s o)) (2 * o + 1) (outOn s o)) 0 } }

theorem safTick_eq (s : State) (raw rb : Nat) (agree ecc : Bool) :
    let R := tickChecked s raw rb agree ecc
    safTick s raw rb agree ecc = if s.saf.conf.isNone then safMirror R
      else safMirror (outputsCommanded (if R.saf.internal then R else (List.range (safNfn s.sconf)).foldl safEval R)) := by
  intro R
  have hchecked : safReadback (if !agree || !ecc then safInternal (tickSampled s raw) else tickSampled s raw) rb = R := by
    rw [← Bool.not_and, ite_bnot]
    rfl
  have hconf : (if !agree || !ecc then safInternal (tickSampled s raw) else tickSampled s raw).saf.conf = s.saf.conf := by
    split
    · exact safInternal_conf (tickSampled s raw)
    · rfl
  rw [← hchecked, ← hconf]
  rfl

/-! ### The outputs that are on (R296, R483) -/

theorem outOn_eq (s : State) (o : Nat) : outOn s o =
    (s.saf.conf.isSome && !s.saf.internal && !s.err.jtag && decide (outMap s.sconf o ≠ 0) && !bit s.saf.rbFault o
      && (List.range (safNfn s.sconf)).all fun f =>
        !bit (outMap s.sconf o) f || decide ((s.fn f).state = 2) || decide ((s.fn f).state = 3)) := rfl

/-- A function that an output is not mapped to allows it in any state. -/
theorem allows_iff {b : Bool} {p q : Prop} [Decidable p] [Decidable q] : (!b || decide p || decide q) = true ↔ (b = true → p ∨ q) := by
  cases b <;> simp

/-- An output is on where nothing keeps it off and each function that it is mapped to is in RUN or STOPPING. -/
theorem outOn_iff (s : State) (o : Nat) : outOn s o = true ↔
    (s.saf.conf.isSome = true ∧ s.saf.internal = false ∧ s.err.jtag = false ∧ outMap s.sconf o ≠ 0 ∧ bit s.saf.rbFault o = false)
      ∧ ∀ f < safNfn s.sconf, bit (outMap s.sconf o) f = true → (s.fn f).state = 2 ∨ (s.fn f).state = 3 := by
  simp only [outOn_eq, Bool.and_eq_true, allows_iff, Bool.not_eq_true', decide_eq_true_eq, List.all_eq_true, List.mem_range, and_assoc]

/-! ### The clock check and the drain (R284, R301, R457) -/

/-- The count of FRC lies within its bounds to that of SRC, or the evaluator is stopped by SLEEP. -/
def clockGood (s : State) (frc src : Nat) : Bool := asleep s || (decide (2560 * src ≤ frc) && decide (frc ≤ 3380 * src))

theorem exec_safeClockCheck (s : State) (frc src c : Nat) : exec (.safeClockCheck frc src c) s =
    done (if clockGood s frc src then safAt s c else safInternal (safAt s c)) := by
  have hbad : (!asleep s && (decide (frc < 2560 * src) || decide (3380 * src < frc))) = !clockGood s frc src := by
    simp only [clockGood, Bool.not_or, Bool.not_and, ← decide_not, not_le]
  rw [← ite_bnot, ← hbad]
  rfl

theorem exec_safeEventDrain_event {s : State} {e : SafEvent} {l : List SafEvent} (t : Nat) (ha : asleep s = false) (h : s.saf.queue = e :: l) :
    exec (.safeEventDrain t) s = done (report { s.at t with saf := { s.saf with queue := l } } e.code e.fn e.tick) := by
  have h' : (if asleep (s.at t) then [] else (s.at t).saf.queue) = e :: l := (if_neg (ne_true_of_eq_false ha)).trans h
  refine congrArg done ?_
  simp only [h']
  rfl

theorem exec_safeEventDrain_none {s : State} (t : Nat) (h : asleep s = true ∨ s.saf.queue = []) : exec (.safeEventDrain t) s = done (s.at t) := by
  have h' : (if asleep (s.at t) then [] else (s.at t).saf.queue) = [] :=
    ite_eq_left_iff.mpr fun ha => h.resolve_left ha
  refine congrArg done ?_
  simp only [h']

/-- Settles O50: the tick by its order of sampling, checks and evaluation, the internal fault by a fold over the functions. -/
theorem safetyTickAndInternalFault : Obligations.SafetyTickAndInternalFault := by
  unfold Obligations.SafetyTickAndInternalFault
  refine ⟨?_, ?_, ?_, ?_⟩
  · intro s raw rb c agree ecc S acc T I R goes
    have tick (hg : goes = true) := exec_next_pos (exec_safeTick s raw rb c agree ecc) hg
    refine ⟨fun hg hc => ?_, fun hg hc => ?_, exec_next_neg (exec_safeTick s raw rb c agree ecc)⟩
    · have hnone : s.saf.conf.isNone = true := by rw [hc]; rfl
      exact (tick hg).trans (congrArg done ((safTick_eq _ raw rb agree ecc).trans (if_pos hnone)))
    · have hsome : ¬ s.saf.conf.isNone = true := by simpa [Option.isSome_iff_ne_none] using hc
      exact (tick hg).trans (congrArg done ((safTick_eq _ raw rb agree ecc).trans (if_neg hsome)))
  · intro s o
    refine ⟨fun h => Bool.eq_false_iff.mpr fun hon => ?_, fun hc hi hj hm hr => ?_⟩
    · obtain ⟨⟨hc, hi, hj, hm, hr⟩, -⟩ := (outOn_iff s o).mp hon
      simp [hi, hj, hm, hr, Option.isSome_iff_ne_none.mp hc] at h
    · exact (outOn_iff s o).trans (and_iff_right ⟨hc, hi, hj, hm, hr⟩)
  · intro s frc src c t f ok
    have check := exec_safeClockCheck s frc src c
    refine ⟨exec_next_neg check, exec_next_pos check, rfl, safInternal_standing, fun h => ?_⟩
    have hheld := safInternal_held h
    exact ⟨congrArg (·.2.1) hheld, congrArg (·.2.2) hheld, safInternal_event h, safInternal_fn h⟩
  · exact fun s t e l => ⟨exec_safeEventDrain_event t, exec_safeEventDrain_none t⟩

end Sys2Proof.Proofs
end

section
/-! PROOFS. O36: valid offsets of the time sources, the loss and reversion of a source, the holdover limit, and the choice of the selected
source. -/

namespace Sys2Proof.Proofs

open Sys2Proof Sys2Proof.Machine Sys2Proof.Laws

/-! ### A change of the time base leaves the registers -/

@[simp] theorem tb_rd (s : State) (f : TimSt → TimSt) (g : Fld) : (s.tb f).rd g = s.rd g := rfl

/-! ### Valid offsets (R309 to R313, R329) -/

section Offsets

variable {s : State} {i : Nat} {raw : Int} (th : Int)

/-- What an offset counts as: less the slot's DLY. -/
def slotOffset (s : State) (i : Nat) (raw : Int) : Int := raw - signed 16 (s.rd (TIM_SRC_ACC_DLY i)) * 65536

/-- A valid offset enters its slot's THETA and counts. -/
def offsetEntered (s : State) (i : Nat) (th : Int) : State :=
  updSrc ((s.wr (TIM_SRC_OFS_THETA i) (unsigned 32 (max (-(2 ^ 31 - 1)) (min (2 ^ 31 - 1) (divRne th 65536))))).incWrap
    (TIM_SRC_CNT_VALID_CNT i)) i fun x => { x with consec := x.consec + 1, lastValid := some s.tim.cnt }

/-- The offset is the last of QUAL_N in a row of a slot that is not yet qualified. -/
abbrev QualifiesNow (s : State) (i : Nat) (th : Int) : Prop :=
  s.flag (TIM_SRC_CFG_QUALIFIED i) = false ∧ s.rd TIM_CFG_QUAL_N ≤ (srcOf (offsetEntered s i th) i).consec

/-- The state after the qualification that the offset may bring. -/
def offsetQualified (s : State) (i : Nat) (th : Int) : State :=
  if QualifiesNow s i th then
    reselect (updSrc ((offsetEntered s i th).wr (TIM_SRC_CFG_QUALIFIED i) 1) i fun x => { x with qualSince := some s.tim.cnt })
  else offsetEntered s i th

/-- What the time base makes of the offset: a step or a servo update where the slot is the selected source. -/
def offsetApplied (s : State) (i : Nat) (th : Int) : State :=
  if s.flag TIM_STATUS_SEL_VALID && s.rd TIM_STATUS_SEL_SLOT = i then
    if s.tim.forceStep || s.rd TIM_QUAL_STATE = 0 || s.rd TIM_STEP_THR_VALUE * 65536 ≤ th.natAbs then armStep s th none
    else servoUpdate s i th
  else s

/-- Entering an offset leaves every field at none of the places of THETA and VALID_CNT. -/
theorem offsetEntered_rd (g : Fld) (ht : g.key ≠ (TIM_SRC_OFS_THETA i).key) (hc : g.key ≠ (TIM_SRC_CNT_VALID_CNT i).key) :
    (offsetEntered s i th).rd g = s.rd g :=
  (rd_wr_ne _ _ g _ hc).trans (rd_wr_ne s _ g _ ht)

theorem offsetEntered_qualified : (offsetEntered s i th).flag (TIM_SRC_CFG_QUALIFIED i) = s.flag (TIM_SRC_CFG_QUALIFIED i) := by
  have hrd : (offsetEntered s i th).rd (TIM_SRC_CFG_QUALIFIED i) = s.rd (TIM_SRC_CFG_QUALIFIED i) :=
    offsetEntered_rd th _ (by simp only [TIM_SRC_CFG_QUALIFIED, TIM_SRC_OFS_THETA]; omega)
      (by simp only [TIM_SRC_CFG_QUALIFIED, TIM_SRC_CNT_VALID_CNT]; omega)
  rw [State.flag, hrd]
  rfl

theorem offsetEntered_qualN : (offsetEntered s i th).rd TIM_CFG_QUAL_N = s.rd TIM_CFG_QUAL_N :=
  offsetEntered_rd th _ (by simp only [TIM_CFG_QUAL_N, TIM_SRC_OFS_THETA]; omega)
    (by simp only [TIM_CFG_QUAL_N, TIM_SRC_CNT_VALID_CNT]; omega)

/-- The model asks for the qualification once the offset has been entered. -/
theorem qualifiesNow_entered : (!(offsetEntered s i th).flag (TIM_SRC_CFG_QUALIFIED i)
    && decide ((offsetEntered s i th).rd TIM_CFG_QUAL_N ≤ (srcOf (offsetEntered s i th) i).consec)) = decide (QualifiesNow s i th) := by
  rw [offsetEntered_qualified, offsetEntered_qualN, Bool.decide_and, Bool.decide_eq_false]

theorem sourceOffset_idle (h : s.rd (TIM_SRC_CFG_KIND i) = 0 ∨ s.flag TIM_QUAL_CLK_FAULT = true) : sourceOffset s i raw = s := by
  by_cases hk : s.rd (TIM_SRC_CFG_KIND i) = 0
  · exact if_pos hk
  · exact (if_neg hk).trans (if_pos (h.resolve_left hk))

theorem sourceOffset_stepArmed (hk : s.rd (TIM_SRC_CFG_KIND i) ≠ 0) (hf : s.flag TIM_QUAL_CLK_FAULT = false)
    (ha : s.flag TIM_STATUS_STEP_ARMED = true) : sourceOffset s i raw = s.incSat (TIM_SRC_CNT_DISCARD i) 0xFFFF :=
  (if_neg hk).trans ((if_neg (ne_true_of_eq_false hf)).trans (if_pos ha))

theorem sourceOffset_taken (hk : s.rd (TIM_SRC_CFG_KIND i) ≠ 0) (hf : s.flag TIM_QUAL_CLK_FAULT = false)
    (ha : s.flag TIM_STATUS_STEP_ARMED = false) :
    sourceOffset s i raw = offsetApplied (offsetQualified s i (slotOffset s i raw)) i (slotOffset s i raw) := by
  refine (if_neg hk).trans ((if_neg (ne_true_of_eq_false hf)).trans ((if_neg (ne_true_of_eq_false ha)).trans ?_))
  refine congrArg (offsetApplied · i (slotOffset s i raw)) ?_
  refine (ite_congr (congrArg (· = true) (qualifiesNow_entered (slotOffset s i raw))) (fun _ => rfl) (fun _ => rfl)).trans ?_
  simp only [decide_eq_true_eq]
  rfl

theorem offsetApplied_steps (hv : s.flag TIM_STATUS_SEL_VALID = true) (hs : s.rd TIM_STATUS_SEL_SLOT = i)
    (h : s.tim.forceStep = true ∨ s.rd TIM_QUAL_STATE = 0 ∨ s.rd TIM_STEP_THR_VALUE * 65536 ≤ th.natAbs) :
    offsetApplied s i th = (s.tb fun y => { y with step := some ⟨th, none⟩, forceStep := false }).wr TIM_STATUS_STEP_ARMED 1 := by
  rw [offsetApplied, if_pos (by simp [hv, hs]), if_pos (by simpa [or_assoc] using h), armStep]
  simp only [Option.isSome_none, Bool.and_false]

theorem offsetApplied_slews (hv : s.flag TIM_STATUS_SEL_VALID = true) (hs : s.rd TIM_STATUS_SEL_SLOT = i)
    (hf : s.tim.forceStep = false) (hq : s.rd TIM_QUAL_STATE ≠ 0) (ht : th.natAbs < s.rd TIM_STEP_THR_VALUE * 65536) :
    offsetApplied s i th = servoUpdate s i th := by
  rw [offsetApplied, if_pos (by simp [hv, hs]), if_neg (by simp [hf, hq, ht])]

theorem offsetApplied_unselected (h : s.flag TIM_STATUS_SEL_VALID = false ∨ s.rd TIM_STATUS_SEL_SLOT ≠ i) : offsetApplied s i th = s := by
  refine if_neg fun hsel => ?_
  obtain ⟨hv, hs⟩ := Bool.and_eq_true_iff.mp hsel
  exact h.elim (fun hno => ne_true_of_eq_false hno hv) fun hne => hne (of_decide_eq_true hs)

end Offsets

/-! ### Loss and reversion of a source, and the holdover limit (R310, R315) -/

section Changes

variable {s : State} {slot t : Nat}

/-- The slot has had no valid offset for LOSS_T. -/
def sourceLate (s : State) (slot t : Nat) : Bool :=
  ((srcOf s slot).lastValid.map fun l => decide (usTicks (1000 * s.rd (TIM_SRC_CFG_LOSS_T slot)) ≤ max s.tim.cnt t - l)).getD true

theorem exec_sourceLossTimeout : exec (.sourceLossTimeout slot t) s =
    .next (hstSettle (if sourceLate s slot t then unqualify (s.at t) slot else s.at t)) := by
  have hlate (o : Option Nat) (f : Nat → Bool) : (match o with | some l => f l | none => true) = (o.map f).getD true := by cases o <;> rfl
  rw [sourceLate, ← hlate]
  rfl

/-- A slot loses its qualification: its run of valid offsets ends, and of a PTP slot the filtered delay. -/
def runEnded (s : State) (slot : Nat) : State :=
  freshDelay (updSrc s slot fun x => { x with consec := 0, qualSince := none }) slot

theorem unqualify_qualified (h : s.flag (TIM_SRC_CFG_QUALIFIED slot) = true) :
    unqualify s slot = reselect (report ((runEnded s slot).wr (TIM_SRC_CFG_QUALIFIED slot) 0) 0x0606 0 slot) := if_pos h

theorem unqualify_unqualified (h : s.flag (TIM_SRC_CFG_QUALIFIED slot) = false) : unqualify s slot = runEnded s slot :=
  if_neg (ne_true_of_eq_false h)

/-- The slot has stayed qualified for REVERT_S. -/
def sourceStays (s : State) (slot t : Nat) : Bool :=
  ((srcOf s slot).qualSince.map fun q => decide (usTicks (1000000 * s.rd (TIM_SRC_CFG_REVERT_S slot)) ≤ max s.tim.cnt t - q)).getD false

/-- The slot stands below the selected source. -/
def belowSelected (s : State) (slot : Nat) : Bool := s.flag TIM_STATUS_SEL_VALID && slot < s.rd TIM_STATUS_SEL_SLOT

theorem exec_sourceRevert : exec (.sourceRevert slot t) s =
    .next (hstSettle (if sourceStays s slot t && belowSelected s slot then selectSrc (s.at t) slot else s.at t)) := by
  have hstays (o : Option Nat) (f : Nat → Bool) : (match o with | some q => f q | none => false) = (o.map f).getD false := by cases o <;> rfl
  rw [sourceStays, belowSelected, ← Bool.and_assoc, ← hstays]
  rfl

/-- A new source beside the old one is a switch. -/
theorem selectSrc_switch (hv : s.flag TIM_STATUS_SEL_VALID = true) (h : s.rd TIM_STATUS_SEL_SLOT ≠ slot) :
    selectSrc s slot = report (s.wrs [(TIM_STATUS_SEL_VALID, 1), (TIM_STATUS_SEL_SLOT, slot)]) 0x0605 0 slot :=
  if_pos (Bool.and_eq_true_iff.mpr ⟨hv, decide_eq_true h⟩)

theorem selectSrc_first (hv : s.flag TIM_STATUS_SEL_VALID = false) :
    selectSrc s slot = s.wrs [(TIM_STATUS_SEL_VALID, 1), (TIM_STATUS_SEL_SLOT, slot)] :=
  if_neg (by simp [hv])

theorem exec_holdoverLimit_over (hq : s.rd TIM_QUAL_STATE = 3) (h0 : holdLimit s ≠ 0) (he : holdLimit s < estErr (s.at t)) :
    exec (.holdoverLimit t) s = .next (hstSettle (report ((s.at t).wr TIM_QUAL_STATE 4) 0x0604)) :=
  congrArg done (if_pos ⟨hq, h0, he⟩)

theorem exec_holdoverLimit_within (h : s.rd TIM_QUAL_STATE ≠ 3 ∨ holdLimit s = 0 ∨ estErr (s.at t) ≤ holdLimit s) :
    exec (.holdoverLimit t) s = .next (hstSettle (s.at t)) := by
  refine congrArg done (if_neg fun hover => ?_)
  obtain ⟨hq, h0, he⟩ := hover
  exact h.elim (· hq) fun h => h.elim h0 (not_le_of_gt he)

end Changes

/-! ### The choice of the selected source (R310), and a new RATE (R306) -/

section Choice

variable {s : State} {i : Nat}

/-- The selected source, still qualified, is kept before a lower slot until that has waited for REVERT_S. -/
def keepsSelected (s : State) (i : Nat) : Bool :=
  s.flag TIM_STATUS_SEL_VALID && s.flag (TIM_SRC_CFG_QUALIFIED (s.rd TIM_STATUS_SEL_SLOT)) && i < s.rd TIM_STATUS_SEL_SLOT
    && s.rd (TIM_SRC_CFG_REVERT_S i) ≠ 0

theorem reselect_none (h : lowestQualified s = none) : reselect s = if s.flag TIM_STATUS_SEL_VALID then noSource s else s := by
  simp only [reselect, h]

theorem reselect_some (h : lowestQualified s = some i) : reselect s =
    if keepsSelected s i then s else if s.flag TIM_STATUS_SEL_VALID && s.rd TIM_STATUS_SEL_SLOT = i then s else selectSrc s i := by
  simp only [reselect, h]
  rfl

theorem reselect_first (h : lowestQualified s = some i) (hv : s.flag TIM_STATUS_SEL_VALID = false) :
    reselect s = s.wrs [(TIM_STATUS_SEL_VALID, 1), (TIM_STATUS_SEL_SLOT, i)] := by
  rw [reselect_some h, if_neg (by simp [keepsSelected, hv]), if_neg (by simp [hv]), selectSrc_first hv]

theorem reselect_keeps (h : lowestQualified s = some i) (hv : s.flag TIM_STATUS_SEL_VALID = true)
    (hk : s.rd TIM_STATUS_SEL_SLOT = i ∨ (i < s.rd TIM_STATUS_SEL_SLOT
      ∧ s.flag (TIM_SRC_CFG_QUALIFIED (s.rd TIM_STATUS_SEL_SLOT)) = true ∧ s.rd (TIM_SRC_CFG_REVERT_S i) ≠ 0)) : reselect s = s := by
  rw [reselect_some h]
  rcases hk with hcur | ⟨hlt, hq, hr⟩
  · rw [if_pos (by simp [hv, hcur] : (s.flag TIM_STATUS_SEL_VALID && decide (s.rd TIM_STATUS_SEL_SLOT = i)) = true), ite_self]
  · exact if_pos (by simp [keepsSelected, hv, hq, hlt, hr])

theorem reselect_switches (h : lowestQualified s = some i) (hv : s.flag TIM_STATUS_SEL_VALID = true) (hcur : s.rd TIM_STATUS_SEL_SLOT ≠ i)
    (hgo : s.rd TIM_STATUS_SEL_SLOT < i ∨ s.flag (TIM_SRC_CFG_QUALIFIED (s.rd TIM_STATUS_SEL_SLOT)) = false
      ∨ s.rd (TIM_SRC_CFG_REVERT_S i) = 0) :
    reselect s = report (s.wrs [(TIM_STATUS_SEL_VALID, 1), (TIM_STATUS_SEL_SLOT, i)]) 0x0605 0 i := by
  have hkeep : ¬ keepsSelected s i = true := by
    simp only [keepsSelected, Bool.and_eq_true, decide_eq_true_eq]
    rintro ⟨⟨⟨-, hq⟩, hlt⟩, hr⟩
    exact hgo.elim hlt.asymm fun hgo => hgo.elim (ne_false_of_eq_true hq) hr
  rw [reselect_some h, if_neg hkeep, if_neg (by simp [hcur]), selectSrc_switch hv hcur]

/-- The anchor moves to the present count, where both rates read the same. -/
theorem setRate_now (s : State) (rate : Int) : (setRate s rate).now = s.now := by
  simp [State.now, setRate, State.tb, corrAt]

end Choice

/-- Settles O36: an offset by its slot's use and by what it is to the selected source, a source by its times, the choice by the lowest
qualified slot. -/
theorem timeSourcesAndServo : Obligations.TimeSourcesAndServo := by
  unfold Obligations.TimeSourcesAndServo
  refine ⟨?_, ?_, ?_, ?_, ?_, ?_⟩
  · intro s slot t theta S th s1 s2
    have gives {u w : State} (hu : sourceOffset S slot theta = u) (hw : u = w) :
        exec (.sourceOffset slot theta t) s = .next (hstSettle w) := congrArg done (hu.trans hw)
    refine ⟨fun h => gives (sourceOffset_idle h) rfl, fun hk hf ha => gives (sourceOffset_stepArmed hk hf ha) rfl, fun hk hf ha => ?_⟩
    have taken : sourceOffset S slot theta = offsetApplied s2 slot th := sourceOffset_taken (s := S) hk hf ha
    exact ⟨fun hv hs => ⟨fun h => gives taken (offsetApplied_steps th hv hs h),
      fun hf hq ht => gives taken (offsetApplied_slews th hv hs hf hq ht)⟩, fun h => gives taken (offsetApplied_unselected th h)⟩
  · intro s slot t _ late s0 s1
    refine ⟨exec_next_neg exec_sourceLossTimeout, fun hl hq => ?_, fun hl hq => ?_⟩
    · exact (exec_next_pos exec_sourceLossTimeout hl).trans (congrArg done (unqualify_unqualified (s := s.at t) hq))
    · exact (exec_next_pos exec_sourceLossTimeout hl).trans (congrArg done (unqualify_qualified (s := s.at t) hq))
  · intro s slot t q
    refine ⟨fun hs hv hlt hd => ?_, fun hs hd => ?_, fun h => ?_⟩
    · have hgo : (sourceStays s slot t && belowSelected s slot) = true := by simp [sourceStays, belowSelected, hs, hv, hlt, hd]
      exact (exec_next_pos exec_sourceRevert hgo).trans (congrArg done (selectSrc_switch (s := s.at t) hv hlt.ne'))
    · have hstay : (sourceStays s slot t && belowSelected s slot) = false := by simp [sourceStays, hs, hd]
      exact exec_next_neg exec_sourceRevert hstay
    · have hstay : (sourceStays s slot t && belowSelected s slot) = false := by
        rcases h with hs | hv | hle
        · simp [sourceStays, hs]
        · simp [belowSelected, hv]
        · simp [belowSelected, hle]
      exact exec_next_neg exec_sourceRevert hstay
  · exact fun s t => ⟨exec_holdoverLimit_over, exec_holdoverLimit_within⟩
  · intro s i cur
    exact ⟨fun h hv => (reselect_none h).trans (if_pos hv), fun h hv => (reselect_none h).trans (if_neg (ne_true_of_eq_false hv)),
      reselect_first, fun h hv => ⟨reselect_keeps h hv, reselect_switches h hv⟩⟩
  · exact fun s rate => ⟨setRate_now s rate, rfl⟩

end Sys2Proof.Proofs
end

section
/-! PROOFS. O37: the host's step, the armed step of corrected time, PPS_OUT, and the latched reads of time. -/

namespace Sys2Proof.Proofs

open Sys2Proof Sys2Proof.Machine Sys2Proof.Laws

/-! ### TIM_SET (R317) -/

section HostStep

variable {s : State}

/-- The host may arm a step. -/
def hostStepOpen (s : State) : Bool :=
  (s.rd TIM_QUAL_STATE = 0 || s.rd TIM_QUAL_STATE = 3 || s.rd TIM_QUAL_STATE = 4) && s.tim.step.isNone && !s.flag TIM_QUAL_CLK_FAULT

/-- The step to the time in TIM_SET. -/
def hostStep (s : State) : StepSt :=
  ⟨wordsTime (s.rd (TIM_SET_VALUE 0)) (s.rd (TIM_SET_VALUE 1)) (s.rd (TIM_SET_VALUE 2)) - s.now, some (s.rd TIM_SET_ERR_VALUE)⟩

theorem hostStepOpen_iff : hostStepOpen s = true ↔
    (s.rd TIM_QUAL_STATE = 0 ∨ s.rd TIM_QUAL_STATE = 3 ∨ s.rd TIM_QUAL_STATE = 4) ∧ s.tim.step = none
      ∧ (!s.flag TIM_QUAL_CLK_FAULT) = true := by
  simp only [hostStepOpen, Bool.and_eq_true, Bool.or_eq_true, decide_eq_true_eq, Option.isNone_iff_eq_none, or_assoc, and_assoc]

theorem timSet_open (h : hostStepOpen s = true) :
    timSet s = (s.tb fun y => { y with step := some (hostStep s) }).wr TIM_STATUS_STEP_ARMED 1 := by
  refine (if_pos (hostStepOpen_iff.mp h)).trans ?_
  simp only [armStep, Option.isSome_some, Bool.and_true]
  rfl

theorem timSet_shut (h : hostStepOpen s = false) : timSet s = refuse s 0x060B :=
  if_neg fun hopen => ne_true_of_eq_false h (hostStepOpen_iff.mpr hopen)

end HostStep

/-! ### The armed step (R313, R314, R329) -/

section ArmedStep

variable {s : State} {st : StepSt}

/-- The pulse of the present second is still to rise. -/
abbrev PulseDue (s : State) : Prop :=
  s.rd TIM_PPS_CFG_PPS_WIDTH ≠ 0 ∧ s.rd TIM_QUAL_STATE ≠ 0 ∧ s.tim.ppsMin ≤ secOf s.now ∧ s.tim.ppsLast ≠ some (secOf s.now)

/-- The anchor moves by the step, the old one is kept, and the seconds up to the present one give no pulse. -/
def anchorMoved (s : State) (st : StepSt) : State :=
  s.tb fun y => { y with
    stepCntA := y.cntA, stepTA := y.tA, stepRate := y.rate, stepAt := y.cnt, tA := y.tA + st.theta, step := none,
    ppsMin := max (secOf s.now + 1) (secOf (s.now + st.theta + s.rd TIM_PPS_CFG_PPS_ADV * 65536 - 1) + 1) }

/-- The step is reported and marked. -/
def stepMarked (s : State) (st : StepSt) : State :=
  report (((anchorMoved s st).wr TIM_STATUS_STEP_ARMED 0).wr TIM_QUAL_STEPPED 1) 0x0601

/-- The pulse of a second is suppressed. -/
def pulseSuppressed (s : State) (sec : Int) : State :=
  report ((s.tb fun y => { y with suppr := sec.toNat }).wrs [(TIM_PPS_STS_SUPPRESSED, 1), (TIM_PPS_STS_SEC, (sec % 2 ^ 31).toNat)]) 0x0608

/-- The time base after the step, before its quality is settled. -/
def stepApplied (s : State) (st : StepSt) : State :=
  if PulseDue s then pulseSuppressed (stepMarked s st) (secOf s.now) else stepMarked s st

theorem pulseDue_model : (ppsActive s && decide (s.tim.ppsMin ≤ secOf s.now) && decide (s.tim.ppsLast ≠ some (secOf s.now)))
    = decide (PulseDue s) := by
  simp only [ppsActive, PulseDue, Bool.decide_and, Bool.and_assoc]

theorem timeStep_armed (h : s.tim.step = some st) : timeStep s = match st.host with
    | some e => enterHoldover (stepApplied s st) e
    | none =>
      if ((stepApplied s st).wr TIM_QUAL_STATE 1).flag TIM_STATUS_SEL_VALID then (stepApplied s st).wr TIM_QUAL_STATE 1
      else enterHoldover ((stepApplied s st).wr TIM_QUAL_STATE 1) (estErr ((stepApplied s st).wr TIM_QUAL_STATE 1)) := by
  have happlied : (if (ppsActive s && decide (s.tim.ppsMin ≤ secOf s.now) && decide (s.tim.ppsLast ≠ some (secOf s.now))) = true then
      pulseSuppressed (stepMarked s st) (secOf s.now) else stepMarked s st) = stepApplied s st := by
    rw [pulseDue_model, stepApplied]
    simp only [decide_eq_true_eq]
  rw [← happlied]
  simp only [timeStep, h] <;> rfl

/-- The step's marks and reports do not touch SEL_VALID. -/
theorem stepApplied_selValid : ((stepApplied s st).wr TIM_QUAL_STATE 1).flag TIM_STATUS_SEL_VALID = s.flag TIM_STATUS_SEL_VALID := by
  have hmarked : (stepMarked s st).rd TIM_STATUS_SEL_VALID = s.rd TIM_STATUS_SEL_VALID := by
    rw [stepMarked, report_rd _ _ _ _ _ (by decide), rd_wr_ne _ _ _ _ (by decide), rd_wr_ne _ _ _ _ (by decide)]
    rfl
  have hsuppr (u : State) (sec : Int) : (pulseSuppressed u sec).rd TIM_STATUS_SEL_VALID = u.rd TIM_STATUS_SEL_VALID := by
    rw [pulseSuppressed, report_rd _ _ _ _ _ (by decide), rd_wrs_two _ _ _ _ (by decide) (by decide), tb_rd]
  have happlied : (stepApplied s st).rd TIM_STATUS_SEL_VALID = s.rd TIM_STATUS_SEL_VALID := by
    rw [stepApplied]
    split
    · rw [hsuppr, hmarked]
    · exact hmarked
  rw [State.flag, rd_wr_ne _ _ _ _ (by decide), happlied]
  rfl

theorem timeStep_host {e : Nat} (h : s.tim.step = some st) (he : st.host = some e) : timeStep s = enterHoldover (stepApplied s st) e := by
  rw [timeStep_armed h, he]

theorem timeStep_sourced (h : s.tim.step = some st) (he : st.host = none) (hv : s.flag TIM_STATUS_SEL_VALID = true) :
    timeStep s = (stepApplied s st).wr TIM_QUAL_STATE 1 := by
  rw [timeStep_armed h, he]
  exact if_pos (stepApplied_selValid.trans hv)

theorem timeStep_unsourced (h : s.tim.step = some st) (he : st.host = none) (hv : s.flag TIM_STATUS_SEL_VALID = false) :
    timeStep s = enterHoldover ((stepApplied s st).wr TIM_QUAL_STATE 1) (estErr ((stepApplied s st).wr TIM_QUAL_STATE 1)) := by
  rw [timeStep_armed h, he]
  exact if_neg (ne_true_of_eq_false (stepApplied_selValid.trans hv))

/-- The T0 chain and the cycles in flight move with corrected time, so that they keep their counts (R314). -/
def chainMoved (s : State) (theta : Int) : State :=
  s.sq fun q => { q with
    nextT0 := q.nextT0 + theta, spT0 := q.spT0 + theta
    cycs := q.cycs.map fun c => { c with run := { c.run with step := c.run.step + theta } } }

/-- The chain has `w` to walk back to its phase (R20). -/
def chainWalks (s : State) (w : Int) : State := (s.sq fun q => { q with walk := w }).wr SEQ_STATUS_PHASE_WALK (b2n (decide (w ≠ 0)))

/-- A running chain walks back to its phase; a walk that begins is reported. -/
def chainAfterStep (s : State) : State :=
  if s.idle then s
  else if phaseGap s s.seq.nextT0 ≠ 0 && !s.flag SEQ_STATUS_PHASE_WALK then report (chainWalks s (phaseGap s s.seq.nextT0)) 0x0208
  else chainWalks s (phaseGap s s.seq.nextT0)

theorem exec_timeStep_none {t : Nat} (h : s.tim.step = none) : exec (.timeStep t) s = .next (hstSettle (s.at t)) := by
  have hat : (s.at t).tim.step = none := h
  refine congrArg done ?_
  simp only [hat]

theorem exec_timeStep_armed {t : Nat} (h : s.tim.step = some st) :
    exec (.timeStep t) s = .next (hstSettle (chainAfterStep (chainMoved (timeStep (s.at t)) st.theta))) := by
  have hat : (s.at t).tim.step = some st := h
  refine congrArg done ?_
  simp only [hat]
  rfl

theorem chainAfterStep_idle (hi : s.idle = true) : chainAfterStep s = s := if_pos hi

theorem chainAfterStep_walkGoesOn (hi : s.idle = false) (h : phaseGap s s.seq.nextT0 = 0 ∨ s.flag SEQ_STATUS_PHASE_WALK = true) :
    chainAfterStep s = chainWalks s (phaseGap s s.seq.nextT0) := by
  refine (if_neg (ne_true_of_eq_false hi)).trans (if_neg fun hgo => ?_)
  simp only [Bool.and_eq_true, decide_eq_true_eq, Bool.not_eq_true'] at hgo
  exact h.elim hgo.1 (ne_true_of_eq_false hgo.2)

theorem chainAfterStep_walkBegins (hi : s.idle = false) (hw : phaseGap s s.seq.nextT0 ≠ 0) (hf : s.flag SEQ_STATUS_PHASE_WALK = false) :
    chainAfterStep s = report (chainWalks s (phaseGap s s.seq.nextT0)) 0x0208 :=
  (if_neg (ne_true_of_eq_false hi)).trans (if_pos (Bool.and_eq_true_iff.mpr ⟨decide_eq_true hw, congrArg (!·) hf⟩))

end ArmedStep

/-! ### PPS_OUT (R325) -/

section PpsOut

variable {s : State} {t : Nat}

/-- A pulse rises for the whole second that is reached, less PPS_ADV. -/
def pulseRises (s : State) : Bool :=
  s.rd TIM_PPS_CFG_PPS_WIDTH ≠ 0 && s.rd TIM_QUAL_STATE ≠ 0 && s.tim.ppsMin ≤ ppsSecond s && s.tim.ppsLast ≠ some (ppsSecond s)

theorem exec_ppsOutPulse : exec (.ppsOutPulse t) s = .next (hstSettle (
    if pulseRises (s.at t) then (s.at t).tb fun b => { b with
      ppsLast := some (ppsSecond (s.at t)), ppsHigh := some (max s.tim.cnt t + usTicks (8 * s.rd TIM_PPS_CFG_PPS_WIDTH)) }
    else s.at t)) := rfl

theorem exec_ppsWidthEnd_due {u : Nat} (h : s.tim.ppsHigh = some u) (hu : u ≤ max s.tim.cnt t) :
    exec (.ppsWidthEnd t) s = .next (hstSettle ((s.at t).tb fun b => { b with ppsHigh := none })) := by
  have hat : (s.at t).tim.ppsHigh = some u := h
  refine congrArg done ?_
  simp only [hat]
  exact if_pos hu

theorem exec_ppsWidthEnd_not {u : Nat} (h : s.tim.ppsHigh = none ∨ (s.tim.ppsHigh = some u ∧ max s.tim.cnt t < u)) :
    exec (.ppsWidthEnd t) s = .next (hstSettle (s.at t)) := by
  refine congrArg done ?_
  rcases h with hn | ⟨hs, hu⟩
  · have hat : (s.at t).tim.ppsHigh = none := hn
    simp only [hat]
  · have hat : (s.at t).tim.ppsHigh = some u := hs
    simp only [hat]
    exact if_neg (not_le_of_gt hu)

end PpsOut

/-! ### The commands where the path lets them through (R307, R317, R320) -/

section Access

variable {s : State} {p : Path} {t : Nat}

theorem exec_timSet_lets (h : s.lets p 0x200004) : exec (.timSet p t) s = .next (hstSettle (timSet (s.taken p t))) :=
  congrArg done (hostDo_lets s p 0x200004 1 t timSet h)

theorem exec_timNowRead_lets (h : s.letsRead p 0x200018) : exec (.timNowRead p t) s = .next (hstSettle (timNowRead (s.taken p t) p)) :=
  congrArg done (hostRd_lets s p 0x200018 t (timNowRead · p) h)

theorem exec_timConvRead_lets (h : s.letsRead p 0x200080) : exec (.timConvRead p t) s = .next (hstSettle (timConvRead (s.taken p t) p)) :=
  congrArg done (hostRd_lets s p 0x200080 t (timConvRead · p) h)

end Access

/-- Settles O37: TIM_SET by what stands against it, the armed step by who asked for it and by what the sequencer does, PPS_OUT by its second,
a read by the words of its time. -/
theorem timeStepsPpsAndReads : Obligations.TimeStepsPpsAndReads := by
  unfold Obligations.TimeStepsPpsAndReads
  refine ⟨?_, ?_, ?_, ?_, ?_, ?_, ?_⟩
  · intro s p t h S x open_
    exact ⟨fun ho => (exec_timSet_lets h).trans (congrArg done (timSet_open (s := s.taken p t) ho)),
      fun ho => (exec_timSet_lets h).trans (congrArg done (timSet_shut (s := s.taken p t) ho))⟩
  · intro s t st m w walks
    have armed (h : s.tim.step = some st) {u : State} (hu : chainAfterStep m = u) : exec (.timeStep t) s = .next (hstSettle u) :=
      (exec_timeStep_armed h).trans (congrArg done hu)
    exact ⟨exec_timeStep_none, fun h hi => armed h (chainAfterStep_idle hi), fun h hi hw => armed h (chainAfterStep_walkGoesOn hi hw),
      fun h hi hw hf => armed h (chainAfterStep_walkBegins hi hw hf)⟩
  · intro s st e h sec next old marked applied
    exact ⟨timeStep_host h, timeStep_sourced h, timeStep_unsourced h⟩
  · intro s t S sec due
    exact ⟨exec_next_pos exec_ppsOutPulse, exec_next_neg exec_ppsOutPulse⟩
  · exact fun s t u => ⟨exec_ppsWidthEnd_due, exec_ppsWidthEnd_not⟩
  · exact fun s p t h => exec_timNowRead_lets h
  · exact fun s p t h => exec_timConvRead_lets h

end Sys2Proof.Proofs
end

section
/-! PROOFS. O38: the messages that the PTP slave takes, and its choice of master. -/

namespace Sys2Proof.Proofs

open Sys2Proof Sys2Proof.Machine Sys2Proof.Laws

/-! ### A message by the time port, the version and the domain (R83, R89, R322) -/

section Taken

variable {s : State} {h : PtpHdr} {f : State → State} {c : Instr} {t : Nat}

theorem ptpTake_off (hn : netOn s (s.rd TIM_CFG_TIME_PORT) = false) : ptpTake s h f = s := if_pos (congrArg (!·) hn)

theorem ptpTake_ignored (hn : netOn s (s.rd TIM_CFG_TIME_PORT) = true) (hm : ptpMine s h = false) :
    ptpTake s h f = s.incSat TIM_PTP_CNT_IGNORED 0xFFFF :=
  (if_neg (by simp [hn])).trans (if_pos (congrArg (!·) hm))

theorem ptpTake_mine (hn : netOn s (s.rd TIM_CFG_TIME_PORT) = true) (hm : ptpMine s h = true) : ptpTake s h f = f s :=
  (if_neg (by simp [hn])).trans (if_neg (by simp [hm]))

theorem ptpMine_iff : ptpMine s h = true ↔ h.version % 16 = 2 ∧ h.domain = s.rd TIM_PTP_CFG_DOMAIN := by
  simp only [ptpMine, Bool.and_eq_true, decide_eq_true_eq]

theorem not_ptpMine (hm : h.version % 16 ≠ 2 ∨ h.domain ≠ s.rd TIM_PTP_CFG_DOMAIN) : ptpMine s h = false := by
  refine Bool.eq_false_iff.mpr fun hmine => ?_
  obtain ⟨hv, hd⟩ := ptpMine_iff.mp hmine
  exact hm.elim (· hv) (· hd)

/-- What becomes of a message that the slave does not take. -/
theorem exec_ptp_untaken (hc : exec c s = done (ptpTake (s.at t) h f)) :
    (netOn s (s.rd TIM_CFG_TIME_PORT) = false → exec c s = .next (hstSettle (s.at t)))
    ∧ (netOn s (s.rd TIM_CFG_TIME_PORT) = true → (h.version % 16 ≠ 2 ∨ h.domain ≠ s.rd TIM_PTP_CFG_DOMAIN) →
      exec c s = .next (hstSettle ((s.at t).incSat TIM_PTP_CNT_IGNORED 0xFFFF))) :=
  ⟨fun hn => hc.trans (congrArg done (ptpTake_off (s := s.at t) hn)),
    fun hn hm => hc.trans (congrArg done (ptpTake_ignored (s := s.at t) hn (not_ptpMine hm)))⟩

/-- A message that the slave takes has its effect at its time. -/
theorem exec_ptp_taken (hc : exec c s = done (ptpTake (s.at t) h f)) (hn : netOn s (s.rd TIM_CFG_TIME_PORT) = true)
    (hm : ptpMine s h = true) {u : State} (hu : f (s.at t) = u) : exec c s = .next (hstSettle u) :=
  hc.trans (congrArg done ((ptpTake_mine (s := s.at t) hn hm).trans hu))

end Taken

/-! ### Announces (R323) -/

/-- The foreign master that an Announce's sender becomes: it keeps the times of its last four. -/
def announcedBy (s : State) (h : PtpHdr) (d : PtpData) (utc : Option (Nat × Bool × Bool)) (t : Nat) : ForeignSt :=
  ⟨h.clock, h.port, d,
    (t :: ((s.tim.ptp.foreign.find? fun f => f.clock = h.clock ∧ f.port = h.port).map (·.times)).getD []).take 4, h.logInt, utc⟩

/-- An Announce replaces what its sender announced before. -/
def announceTaken (s : State) (h : PtpHdr) (f : ForeignSt) : State :=
  ptpUtc (ptpSelect (s.ptp fun x => { x with foreign := f :: x.foreign.filter fun g => ¬(g.clock = h.clock ∧ g.port = h.port) })) f

theorem exec_ptpAnnounce (s : State) (h : PtpHdr) (d : PtpData) (utc : Option (Nat × Bool × Bool)) (t : Nat) :
    exec (.ptpAnnounce h d utc t) s = done (ptpTake (s.at t) h fun u => announceTaken u h (announcedBy u h d utc t)) := by
  have htimes (o : Option ForeignSt) : (match o with | some f => (t :: f.times).take 4 | none => [t])
      = (t :: (o.map (·.times)).getD []).take 4 := by cases o <;> rfl
  refine congrArg done (congrArg (ptpTake (s.at t) h) (funext fun u => ?_))
  rw [announcedBy, ← htimes]
  rfl

/-! ### Syncs and Follow_Ups (R323, R324) -/

section Syncs

variable {s : State} {h : PtpHdr} {o : Option Int} {n : Nat} {t1 : Int}

/-- The message comes from the selected master. -/
theorem fromMaster_iff : fromMaster s h = true ↔ s.tim.ptp.sel = some (h.clock, h.port) := by
  simp only [fromMaster, decide_eq_true_eq]

theorem fromMaster_false_iff : fromMaster s h = false ↔ s.tim.ptp.sel ≠ some (h.clock, h.port) := by
  simp only [fromMaster, decide_eq_false_iff_not, ne_eq]

/-- The interval of Syncs does not enter into a time of arrival. -/
theorem ingressTime_logSync (v p cnt : Nat) : ingressTime (s.wr TIM_PTP_STS_LOG_SYNC v) p cnt = ingressTime s p cnt := by
  have hspeed : (NET_STATUS_SPEED p).key ≠ TIM_PTP_STS_LOG_SYNC.key := by simp only [NET_STATUS_SPEED, TIM_PTP_STS_LOG_SYNC]; omega
  have hgiga : (TIM_PHY_LAT1G_PHY_RX p).key ≠ TIM_PTP_STS_LOG_SYNC.key := by simp only [TIM_PHY_LAT1G_PHY_RX, TIM_PTP_STS_LOG_SYNC]; omega
  have hfast : (TIM_PHY_LAT100_PHY_RX p).key ≠ TIM_PTP_STS_LOG_SYNC.key := by simp only [TIM_PHY_LAT100_PHY_RX, TIM_PTP_STS_LOG_SYNC]; omega
  have hpath : (pathNs (s.wr TIM_PTP_STS_LOG_SYNC v) p).1 = (pathNs s p).1 := by
    simp only [pathNs, rd_wr_ne _ _ _ _ hspeed, rd_wr_ne _ _ _ _ hgiga, rd_wr_ne _ _ _ _ hfast]
    split <;> rfl
  rw [ingressTime, hpath]
  rfl

/-- A Sync of the selected master is kept with the time of its arrival. -/
def syncKept (s : State) (h : PtpHdr) (o : Option Int) (n : Nat) : State :=
  (s.wr TIM_PTP_STS_LOG_SYNC (unsigned 8 h.logInt)).ptp fun x =>
    { x with sync := some (h.seq, o, h.corr, ingressTime s (s.rd TIM_CFG_TIME_PORT) n) }

/-- A Sync in a slave that takes it. -/
def syncTaken (s : State) (h : PtpHdr) (o : Option Int) (n : Nat) : State :=
  if fromMaster s h then if o.isSome then sendDelayReq (syncKept s h o n) else syncKept s h o n else s

theorem exec_ptpSync (s : State) (h : PtpHdr) (o : Option Int) (n t : Nat) :
    exec (.ptpSync h o n t) s = done (ptpTake (s.at t) h fun u => syncTaken u h o n) := by
  refine congrArg done (congrArg (ptpTake (s.at t) h) (funext fun u => ?_))
  have hport : (u.wr TIM_PTP_STS_LOG_SYNC (unsigned 8 h.logInt)).rd TIM_CFG_TIME_PORT = u.rd TIM_CFG_TIME_PORT :=
    rd_wr_ne _ _ _ _ (by decide)
  rw [syncTaken, syncKept, ← hport, ← ingressTime_logSync (unsigned 8 h.logInt)]
  exact ite_bnot (fromMaster u h) _ _

theorem syncTaken_twoStep (hs : s.tim.ptp.sel = some (h.clock, h.port)) (ho : o = none) : syncTaken s h o n = syncKept s h o n :=
  (if_pos (fromMaster_iff.mpr hs)).trans (if_neg (by simp [ho]))

theorem syncTaken_oneStep (hs : s.tim.ptp.sel = some (h.clock, h.port)) (ho : o.isSome = true) :
    syncTaken s h o n = sendDelayReq (syncKept s h o n) :=
  (if_pos (fromMaster_iff.mpr hs)).trans (if_pos ho)

theorem syncTaken_stray (hs : s.tim.ptp.sel ≠ some (h.clock, h.port)) : syncTaken s h o n = s :=
  if_neg (ne_true_of_eq_false (fromMaster_false_iff.mpr hs))

/-- A Follow_Up in a slave that takes it. -/
def followUpTaken (s : State) (h : PtpHdr) (t1 : Int) : State :=
  match fromMaster s h, s.tim.ptp.sync with
  | true, some (seq, none, c, t2) =>
    if seq = h.seq then sendDelayReq (s.ptp fun x => { x with sync := some (seq, some t1, c + h.corr, t2) }) else s
  | _, _ => s

theorem exec_ptpFollowUp (s : State) (h : PtpHdr) (t1 : Int) (t : Nat) :
    exec (.ptpFollowUp h t1 t) s = done (ptpTake (s.at t) h fun u => followUpTaken u h t1) := rfl

theorem followUpTaken_completes {seq : Nat} {c t2 : Int} (hs : s.tim.ptp.sel = some (h.clock, h.port))
    (hy : s.tim.ptp.sync = some (seq, none, c, t2)) (hq : seq = h.seq) :
    followUpTaken s h t1 = sendDelayReq (s.ptp fun x => { x with sync := some (seq, some t1, c + h.corr, t2) }) := by
  simp only [followUpTaken, fromMaster_iff.mpr hs, hy]
  exact if_pos hq

theorem followUpTaken_stray (hn : s.tim.ptp.sel ≠ some (h.clock, h.port) ∨ s.tim.ptp.sync = none
    ∨ (s.tim.ptp.sync.map (·.2.1.isSome)) = some true ∨ (s.tim.ptp.sync.map (·.1)) ≠ some h.seq) : followUpTaken s h t1 = s := by
  unfold followUpTaken
  split
  next seq c t2 hs hy =>
    simp only [hy, fromMaster_iff.mp hs, Option.map_some, Option.isSome_none, Option.some.injEq, ne_eq, not_true_eq_false, reduceCtorEq,
      Bool.false_eq_true, false_or] at hn
    exact if_neg hn
  next => rfl

end Syncs

/-! ### Delay_Resps (R324) -/

/-- The slots in use by their codes, where a change leaves the codes of the four. -/
theorem slotOfKind_congr {s u : State} (hk : ∀ i < 4, u.rd (TIM_SRC_CFG_KIND i) = s.rd (TIM_SRC_CFG_KIND i)) (kind : Nat) :
    slotOfKind u kind = slotOfKind s kind := by
  have hfind (l : List Nat) (hl : ∀ i ∈ l, i < 4) : (l.find? fun i => u.rd (TIM_SRC_CFG_KIND i) = kind)
      = l.find? fun i => s.rd (TIM_SRC_CFG_KIND i) = kind := by
    induction l with
    | nil => rfl
    | cons i l ih => rw [List.find?_cons, List.find?_cons, hk i (hl i List.mem_cons_self), ih fun j hj => hl j (List.mem_cons_of_mem i hj)]
  exact hfind (List.range 4) fun i => List.mem_range.mp

section Delays

variable {s : State} {h : PtpHdr} {f t1 cs t2 t3 t4 mpd : Int} {i : Nat}

/-- The mean path delay of an exchange. -/
def meanDelay (h : PtpHdr) (t1 cs t2 t3 t4 : Int) : Int := ((t2 - t1 - cs) + (t4 - t3 - h.corr)) / 2

/-- The mean path delay lies within its bounds. -/
def delayFine (s : State) (mpd : Int) : Bool := 0 ≤ mpd && mpd ≤ (s.rd TIM_PTP_CFG_MPD_MAX * 10 * 65536 : Int)

/-- The filtered delay with a new one; the first is taken as it is. -/
def delayFiltered (s : State) (mpd : Int) : Int :=
  match s.tim.ptp.mpdF with
  | none => mpd
  | some f => f + (mpd - f) / 16

/-- The filtered delay is kept and shown, and the exchange is over. -/
def delayKept (s : State) (f : Int) : State :=
  (s.ptp fun x => { x with mpdF := some f, sync := none }).wr TIM_PTP_MPD_MPD_F (divRne f 65536).toNat

theorem delayKept_slot (k : Nat) : slotOfKind (delayKept s f) k = slotOfKind s k :=
  slotOfKind_congr (fun i _ => rd_wr_ne _ _ _ _ (by simp only [TIM_SRC_CFG_KIND, TIM_PTP_MPD_MPD_F]; omega)) k

theorem badDelay_slot (k : Nat) : slotOfKind (s.incSat TIM_PTP_CNT_BAD_DELAY 0xFFFF) k = slotOfKind s k :=
  slotOfKind_congr (fun i _ => rd_wr_ne _ _ _ _ (by simp only [TIM_SRC_CFG_KIND, TIM_PTP_CNT_BAD_DELAY]; omega)) k

theorem badDelay_unused (hi : slotOfKind s 2 = none) : badDelay s = s.incSat TIM_PTP_CNT_BAD_DELAY 0xFFFF := by
  simp only [badDelay, badDelay_slot, hi]

theorem badDelay_used (hi : slotOfKind s 2 = some i) : badDelay s = breakRun (s.incSat TIM_PTP_CNT_BAD_DELAY 0xFFFF) i := by
  simp only [badDelay, badDelay_slot, hi]

/-- The offset of an exchange is that of the PTP slot. -/
def delayUsed (s : State) (f t1 cs t2 : Int) : State :=
  match slotOfKind s 2 with
  | some i => sourceOffset s i (t1 + cs + f - t2)
  | none => s

theorem delayUsed_unused (hi : slotOfKind s 2 = none) : delayUsed (delayKept s f) f t1 cs t2 = delayKept s f := by
  simp only [delayUsed, delayKept_slot, hi]

theorem delayUsed_used (hi : slotOfKind s 2 = some i) :
    delayUsed (delayKept s f) f t1 cs t2 = sourceOffset (delayKept s f) i (t1 + cs + f - t2) := by
  simp only [delayUsed, delayKept_slot, hi]

/-- The end of an exchange with mean path delay `mpd`. -/
def exchangeEnded (s : State) (mpd t1 cs t2 : Int) : State :=
  if delayFine s mpd then delayUsed (delayKept s (delayFiltered s mpd)) (delayFiltered s mpd) t1 cs t2 else badDelay s

/-- The model tests the opposite. -/
theorem exchangeEnded_eq : exchangeEnded s mpd t1 cs t2 =
    if mpd < 0 ∨ s.rd TIM_PTP_CFG_MPD_MAX * 10 * 65536 < mpd then badDelay s
    else delayUsed (delayKept s (delayFiltered s mpd)) (delayFiltered s mpd) t1 cs t2 := by
  rw [exchangeEnded, ← ite_not]
  simp only [delayFine, Bool.and_eq_true, decide_eq_true_eq, not_and_or, not_le]

/-- A Delay_Resp in a slave that takes it. -/
def delayRespTaken (s : State) (h : PtpHdr) (t4 : Int) (mine : Bool) : State :=
  match fromMaster s h && mine, s.tim.ptp.sync, s.tim.ptp.dreq with
  | true, some (_, some t1, cs, t2), some ⟨seq, _, some t3⟩ =>
    if seq ≠ h.seq then s
    else exchangeEnded (s.ptp fun x => { x with dreqLog := h.logInt }) (meanDelay h t1 cs t2 t3 t4) t1 cs t2
  | _, _, _ => s

theorem exec_ptpDelayResp (s : State) (h : PtpHdr) (t4 : Int) (mine : Bool) (t : Nat) :
    exec (.ptpDelayResp h t4 mine t) s = done (ptpTake (s.at t) h fun u => delayRespTaken u h t4 mine) := by
  refine congrArg done (congrArg (ptpTake (s.at t) h) (funext fun u => ?_))
  simp only [delayRespTaken, exchangeEnded_eq] <;> rfl

theorem delayRespTaken_answers {seq0 at0 : Nat} (hs : s.tim.ptp.sel = some (h.clock, h.port))
    (hy : s.tim.ptp.sync = some (seq0, some t1, cs, t2)) (hd : s.tim.ptp.dreq = some ⟨h.seq, at0, some t3⟩) :
    delayRespTaken s h t4 true =
      exchangeEnded (s.ptp fun x => { x with dreqLog := h.logInt }) (meanDelay h t1 cs t2 t3 t4) t1 cs t2 := by
  simp only [delayRespTaken, fromMaster_iff.mpr hs, hy, hd, Bool.and_self]
  exact if_neg (not_not.mpr rfl)

theorem delayRespTaken_stray {mine : Bool} (hn : mine = false ∨ s.tim.ptp.sel ≠ some (h.clock, h.port)
    ∨ (s.tim.ptp.sync.bind (·.2.1)) = none ∨ (s.tim.ptp.dreq.bind (·.t3)) = none ∨ (s.tim.ptp.dreq.map (·.seq)) ≠ some h.seq) :
    delayRespTaken s h t4 mine = s := by
  unfold delayRespTaken
  split
  next _ t1 cs t2 seq _ t3 hm hy hd =>
    obtain ⟨hs, hmine⟩ := Bool.and_eq_true_iff.mp hm
    simp only [hmine, fromMaster_iff.mp hs, hy, hd, Option.bind_some, Option.map_some, Option.some.injEq, ne_eq, not_true_eq_false, reduceCtorEq,
      Bool.true_eq_false, false_or] at hn
    exact if_pos hn
  next => rfl

end Delays

/-! ### The selected master (R323) -/

section Masters

variable {s : State}

/-- The better of the best master so far and a next one. -/
def betterOf (a : Option ForeignSt) (f : ForeignSt) : Option ForeignSt :=
  match a with
  | none => some f
  | some g => if betterMaster f g then some f else a

theorem betterOf_mem {l : List ForeignSt} {a : Option ForeignSt} {f : ForeignSt} (h : l.foldl betterOf a = some f) : f ∈ l ∨ a = some f := by
  induction l generalizing a with
  | nil => exact .inr h
  | cons g l ih =>
    rcases ih h with hl | hg
    · exact .inl (List.mem_cons_of_mem g hl)
    · have hnew : some g = some f ∨ a = some f := by
        unfold betterOf at hg
        split at hg
        · exact .inl hg
        · split at hg
          · exact .inl hg
          · exact .inr hg
      exact hnew.imp_left fun he => List.mem_cons.mpr (.inl (Option.some.inj he).symm)

/-- The best master is a foreign one that has qualified. -/
theorem bestMaster_qualified {f : ForeignSt} (h : bestMaster s = some f) : f ∈ s.tim.ptp.foreign ∧ qualifiedForeign s f = true :=
  List.mem_filter.mp ((betterOf_mem (a := none) h).resolve_right nofun)

theorem qualifiedForeign_bounds {f : ForeignSt} (h : qualifiedForeign s f = true) :
    f.data.steps < 255 ∧ f.clock ≠ clockId s ∧ 2 ≤ f.times.length := by
  simp only [qualifiedForeign, Bool.and_eq_true, decide_eq_true_eq] at h
  obtain ⟨⟨htimes, hsteps⟩, hclock⟩ := h
  exact ⟨hsteps, hclock, htimes.trans (List.length_filter_le _ _)⟩

/-- Another master, or none, is selected: what was measured with the last one is forgotten. -/
def masterChanged (s : State) (new : Option (Nat × Nat)) : State :=
  s.ptp fun x => { x with sel := new, sync := none, dreq := none, mpdF := none }

/-- The selected master is shown. -/
def masterShown (s : State) (new : Option (Nat × Nat)) : State :=
  match new with
  | some (c, _) => s.wrs [(TIM_PTP_STS_MASTER_VALID, 1), (TIM_PTP_MASTER_LO_CLOCK_ID, c), (TIM_PTP_MASTER_HI_CLOCK_ID, c / 2 ^ 32)]
  | none => s.wr TIM_PTP_STS_MASTER_VALID 0

/-- The best master as the slave names it. -/
def bestName (s : State) : Option (Nat × Nat) := (bestMaster s).map fun f => (f.clock, f.port)

/-- The change as it is shown and reported. -/
def masterReported (s : State) : State := report (masterShown (masterChanged s (bestName s)) (bestName s)) 0x060E

theorem masterReported_some {c p : Nat} (h : bestName s = some (c, p)) : masterReported s =
    report ((masterChanged s (bestName s)).wrs
      [(TIM_PTP_STS_MASTER_VALID, 1), (TIM_PTP_MASTER_LO_CLOCK_ID, c), (TIM_PTP_MASTER_HI_CLOCK_ID, c / 2 ^ 32)]) 0x060E := by
  rw [masterReported, h]
  rfl

theorem masterReported_none (h : bestName s = none) :
    masterReported s = report ((masterChanged s (bestName s)).wr TIM_PTP_STS_MASTER_VALID 0) 0x060E := by
  rw [masterReported, h]
  rfl

theorem masterReported_slot (k : Nat) : slotOfKind (masterReported s) k = slotOfKind s k := by
  have hreport : ∀ i < 4, (TIM_SRC_CFG_KIND i).key ∉ reportKeys 0x060E 0 := by decide
  have hvalid (i : Nat) : (TIM_SRC_CFG_KIND i).key ≠ TIM_PTP_STS_MASTER_VALID.key := by
    simp only [TIM_SRC_CFG_KIND, TIM_PTP_STS_MASTER_VALID]; omega
  have hlo (i : Nat) : (TIM_SRC_CFG_KIND i).key ≠ TIM_PTP_MASTER_LO_CLOCK_ID.key := by
    simp only [TIM_SRC_CFG_KIND, TIM_PTP_MASTER_LO_CLOCK_ID]; omega
  have hhi (i : Nat) : (TIM_SRC_CFG_KIND i).key ≠ TIM_PTP_MASTER_HI_CLOCK_ID.key := by
    simp only [TIM_SRC_CFG_KIND, TIM_PTP_MASTER_HI_CLOCK_ID]; omega
  refine slotOfKind_congr (fun i hi => ?_) k
  rw [masterReported, report_rd _ _ _ _ _ (hreport i hi)]
  unfold masterShown
  split
  · exact rd_wrs_ne _ _ _ (by simp [hvalid, hlo, hhi])
  · exact rd_wr_ne _ _ _ _ (hvalid i)

theorem ptpSelect_same (h : bestName s = s.tim.ptp.sel) : ptpSelect s = s := if_pos h

theorem ptpSelect_changes (h : bestName s ≠ s.tim.ptp.sel) : ptpSelect s = match slotOfKind s 2 with
    | some i => unqualify (masterReported s) i
    | none => masterReported s := by
  rw [← masterReported_slot 2]
  exact if_neg h

theorem ptpSelect_used {i : Nat} (h : bestName s ≠ s.tim.ptp.sel) (hi : slotOfKind s 2 = some i) :
    ptpSelect s = unqualify (masterReported s) i := by
  rw [ptpSelect_changes h, hi]

theorem ptpSelect_unused (h : bestName s ≠ s.tim.ptp.sel) (hi : slotOfKind s 2 = none) : ptpSelect s = masterReported s := by
  rw [ptpSelect_changes h, hi]

end Masters

/-- Settles O38: a message by whether the slave takes it, by its sender and by the exchange that it belongs to; the master by the best one. -/
theorem ptpSlaveFollowsItsMaster : Obligations.PtpSlaveFollowsItsMaster := by
  unfold Obligations.PtpSlaveFollowsItsMaster
  refine ⟨?_, ?_, ?_, ?_, ?_, ?_, ?_, ?_⟩
  · intro s h d utc t1 t4 o mine n t c hc
    simp only [List.mem_cons, List.not_mem_nil, or_false] at hc
    rcases hc with rfl | rfl | rfl | rfl
    · exact exec_ptp_untaken (exec_ptpSync s h o n t)
    · exact exec_ptp_untaken (exec_ptpFollowUp s h t1 t)
    · exact exec_ptp_untaken (exec_ptpAnnounce s h d utc t)
    · exact exec_ptp_untaken (exec_ptpDelayResp s h t4 mine t)
  · intro s h d utc t hn hv hd
    exact exec_ptp_taken (exec_ptpAnnounce s h d utc t) hn (ptpMine_iff.mpr ⟨hv, hd⟩) rfl
  · exact fun s clock port t => rfl
  · intro s h o n t hn hm
    have taken {u : State} (hu : syncTaken (s.at t) h o n = u) := exec_ptp_taken (exec_ptpSync s h o n t) hn hm hu
    exact ⟨fun hs ho => taken (syncTaken_twoStep (s := s.at t) hs ho), fun hs ho => taken (syncTaken_oneStep (s := s.at t) hs ho),
      fun hs => taken (syncTaken_stray (s := s.at t) hs)⟩
  · intro s h t1 c t2 seq t hn hm
    have taken {u : State} (hu : followUpTaken (s.at t) h t1 = u) := exec_ptp_taken (exec_ptpFollowUp s h t1 t) hn hm hu
    exact ⟨fun hs hy hq => taken (followUpTaken_completes (s := s.at t) hs hy hq), fun hn => taken (followUpTaken_stray (s := s.at t) hn)⟩
  · intro s h t1 cs t2 t3 t4 seq0 at0 t i hn hm hs hy hd s1 mpd f fine bad s2
    have taken {u : State} (hu : exchangeEnded s1 mpd t1 cs t2 = u) :=
      exec_ptp_taken (exec_ptpDelayResp s h t4 true t) hn hm ((delayRespTaken_answers (s := s.at t) hs hy hd).trans hu)
    have ends (hf : fine = true) : exchangeEnded s1 mpd t1 cs t2 = delayUsed s2 f t1 cs t2 := if_pos hf
    have isBad (hf : fine = false) : exchangeEnded s1 mpd t1 cs t2 = badDelay s1 := if_neg (ne_true_of_eq_false hf)
    exact ⟨fun hf hi => taken ((isBad hf).trans (badDelay_unused (s := s1) hi)), fun hf hi => taken ((isBad hf).trans (badDelay_used (s := s1) hi)),
      fun hf hi => taken ((ends hf).trans (delayUsed_used (s := s1) hi)), fun hf hi => taken ((ends hf).trans (delayUsed_unused (s := s1) hi))⟩
  · intro s h t4 mine t hn hm hstray
    exact exec_ptp_taken (exec_ptpDelayResp s h t4 mine t) hn hm (delayRespTaken_stray (s := s.at t) hstray)
  · intro s c p i f best s1 mark
    have used {u : State} (hne : best ≠ s.tim.ptp.sel) (hr : masterReported s = u) (hi : slotOfKind s 2 = some i) :
        ptpSelect s = unqualify u i := (ptpSelect_used hne hi).trans (congrArg (unqualify · i) hr)
    refine ⟨ptpSelect_same, fun hne hb => used hne (masterReported_some hb),
      fun hne hb hi => (ptpSelect_unused hne hi).trans (masterReported_some hb), fun hne hb => used hne (masterReported_none hb), fun hf => ?_⟩
    obtain ⟨hmem, hq⟩ := bestMaster_qualified hf
    exact ⟨hmem, qualifiedForeign_bounds hq⟩

end Sys2Proof.Proofs
end

section
/-! PROOFS. O39: the edges of PPS_IN, and captures, triggers and reads of the TCAP balls. -/

namespace Sys2Proof.Proofs

open Sys2Proof Sys2Proof.Machine Sys2Proof.Laws

/-! ### PPS_IN (R326) -/

section PpsIn

variable {s : State} {t dur i : Nat}

/-- The edge has the right width, and the right distance to the one before. -/
abbrev EdgeGood (s : State) (t dur : Nat) : Prop :=
  s.rd TIM_PPSIN_CFG_WMIN * 100 ≤ dur ∧ dur ≤ s.rd TIM_PPSIN_CFG_WMAX * 250000
    ∧ ((s.tim.ppsInLast.map fun l => decide (999000000 ≤ 4 * (t - l) ∧ 4 * (t - l) ≤ 1001000000)).getD true) = true

/-- A good edge is the one that the next is measured from, and ends a run of bad ones. -/
def edgeKept (s : State) (t : Nat) : State := s.tb fun b => { b with ppsInLast := some t, ppsInRun := false }

/-- The distance of corrected time at the edge from the nearest whole second. -/
def edgeOffset (s : State) (t : Nat) : Int := divRne (corrCap s.tim t) Config.secUnit * Config.secUnit - corrCap s.tim t

/-- An edge that is not used is counted, and breaks the run of valid offsets. -/
def edgeDropped (s : State) (i : Nat) : State := breakRun (s.incSat (TIM_SRC_CNT_DISCARD i) 0xFFFF) i

/-- Dropping an edge leaves the run of bad ones as it was. -/
theorem edgeDropped_run : (edgeDropped s i).tim.ppsInRun = s.tim.ppsInRun := by
  simp only [edgeDropped, breakRun, freshDelay]
  split
  · rfl
  · split <;> rfl

/-- An edge of a PPS_IN slot. -/
def edgeTakenBy (s : State) (t dur i : Nat) : State :=
  if EdgeGood s t dur then
    if s.rd TIM_QUAL_STATE ≠ 0 ∧ (edgeOffset (edgeKept s t) t).natAbs * 10 < 4 * Config.secUnit then
      sourceOffset (edgeKept s t) i (edgeOffset (edgeKept s t) t)
    else edgeDropped (edgeKept s t) i
  else if s.tim.ppsInRun then edgeDropped s i
  else report ((edgeDropped s i).tb fun b => { b with ppsInRun := true }) 0x0609

theorem exec_ppsInEdge_unused (hi : slotOfKind s 4 = none) : exec (.ppsInEdge t dur) s = .next (hstSettle (s.at t)) := by
  have hat : slotOfKind (s.at t) 4 = none := hi
  refine congrArg done ?_
  simp only [hat]

theorem exec_ppsInEdge_used (hi : slotOfKind s 4 = some i) :
    exec (.ppsInEdge t dur) s = .next (hstSettle (edgeTakenBy (s.at t) t dur i)) := by
  have hat : slotOfKind (s.at t) 4 = some i := hi
  have hgap (o : Option Nat) : (match o with | none => true | some l => decide (999000000 ≤ 4 * (t - l)) && decide (4 * (t - l) ≤ 1001000000))
      = (o.map fun l => decide (999000000 ≤ 4 * (t - l) ∧ 4 * (t - l) ≤ 1001000000)).getD true := by
    cases o with
    | none => rfl
    | some l => exact (Bool.decide_and _ _).symm
  refine congrArg done ?_
  simp only [hat]
  rw [edgeTakenBy, ← edgeDropped_run (s := s.at t) (i := i)]
  simp only [← hgap, ← and_assoc] <;> rfl

theorem edgeTakenBy_offset (hg : EdgeGood s t dur) (hq : s.rd TIM_QUAL_STATE ≠ 0)
    (hn : (edgeOffset (edgeKept s t) t).natAbs * 10 < 4 * Config.secUnit) :
    edgeTakenBy s t dur i = sourceOffset (edgeKept s t) i (edgeOffset (edgeKept s t) t) :=
  (if_pos hg).trans (if_pos ⟨hq, hn⟩)

theorem edgeTakenBy_far (hg : EdgeGood s t dur)
    (hf : s.rd TIM_QUAL_STATE = 0 ∨ 4 * Config.secUnit ≤ (edgeOffset (edgeKept s t) t).natAbs * 10) :
    edgeTakenBy s t dur i = edgeDropped (edgeKept s t) i :=
  (if_pos hg).trans (if_neg fun hnear => hf.elim hnear.1 (not_le_of_gt hnear.2))

theorem edgeTakenBy_firstBad (hg : ¬ EdgeGood s t dur) (hr : s.tim.ppsInRun = false) :
    edgeTakenBy s t dur i = report ((edgeDropped s i).tb fun b => { b with ppsInRun := true }) 0x0609 :=
  (if_neg hg).trans (if_neg (ne_true_of_eq_false hr))

theorem edgeTakenBy_nextBad (hg : ¬ EdgeGood s t dur) (hr : s.tim.ppsInRun = true) : edgeTakenBy s t dur i = edgeDropped s i :=
  (if_neg hg).trans (if_pos hr)

end PpsIn

/-! ### Captures (R327, R328) -/

section Captures

variable {s : State} {b t : Nat} {rising : Bool}

/-- The ball captures, and EDGE selects the edge. -/
def edgeSelected (s : State) (b : Nat) (rising : Bool) : Bool :=
  s.rd (TIM_TCAP_CFG_MODE b) = 1 && bit (s.rd (TIM_TCAP_CFG_EDGE b)) (if rising then 0 else 1)

/-- A capture is kept while the FIFO has a place, and else counted; the first of a run is reported. -/
def captured (s : State) (b t : Nat) (rising : Bool) : State :=
  if (tcapOf s b).fifo.length < 4 then
    (updTcap s b fun x => { x with fifo := x.fifo ++ [(t, rising)], lostRun := false }).wr (TIM_TCAP_STS_EMPTY b) 0
  else if (tcapOf s b).lostRun then s.incSat (TIM_TCAP_STS_CAP_LOST b) 255
  else report (updTcap (s.incSat (TIM_TCAP_STS_CAP_LOST b) 255) b fun x => { x with lostRun := true }) 0x060D b

theorem exec_tcapCapture : exec (.tcapCapture b rising t) s =
    .next (hstSettle (if edgeSelected s b rising then captured (s.at t) b t rising else s.at t)) := by
  refine congrArg done ?_
  simp only [edgeSelected, Bool.and_eq_true, decide_eq_true_eq]
  rfl

theorem captured_room (hf : (tcapOf s b).fifo.length < 4) : captured s b t rising =
    (updTcap s b fun x => { x with fifo := x.fifo ++ [(t, rising)], lostRun := false }).wr (TIM_TCAP_STS_EMPTY b) 0 := if_pos hf

theorem captured_firstLost (hf : 4 ≤ (tcapOf s b).fifo.length) (hl : (tcapOf s b).lostRun = false) : captured s b t rising =
    report (updTcap (s.incSat (TIM_TCAP_STS_CAP_LOST b) 255) b fun x => { x with lostRun := true }) 0x060D b :=
  (if_neg (not_lt_of_ge hf)).trans (if_neg (ne_true_of_eq_false hl))

theorem captured_nextLost (hf : 4 ≤ (tcapOf s b).fifo.length) (hl : (tcapOf s b).lostRun = true) :
    captured s b t rising = s.incSat (TIM_TCAP_STS_CAP_LOST b) 255 :=
  (if_neg (not_lt_of_ge hf)).trans (if_pos hl)

end Captures

/-! ### Triggers (R319, R325, R327) -/

section Triggers

variable {s : State} {b t : Nat}

/-- The ball's pulse rises. -/
def ballPulse (s : State) (b : Nat) : State :=
  updTcap s b fun x => { x with highUntil := some (s.tim.cnt + s.rd (TIM_TCAP_CFG_WIDTH b)) }

/-- The count target after one PERIOD. -/
def nextTarget (s : State) (b : Nat) : Nat := (tcapTarget s b + s.rd (TIM_TCAP_PERIOD_PERIOD b)) % 2 ^ 40

/-- The armed target has been reached. -/
def targetDue (s : State) (b : Nat) : Bool := (tcapOf s b).armed && targetDist s (tcapTarget s b) ≤ 0

/-- A trigger in mode 2. -/
def targetTrigger (s : State) (b : Nat) : State :=
  if targetDue s b then
    if s.rd (TIM_TCAP_PERIOD_PERIOD b) = 0 then updTcap (ballPulse s b) b fun x => { x with armed := false }
    else (ballPulse s b).wrs [(TIM_TCAP_TGT_LO_TGT b, nextTarget s b), (TIM_TCAP_TGT_HI_TGT b, nextTarget s b / 2 ^ 32)]
  else s

/-- The whole second that the ball has reached, less PHASE_NS. -/
def ballSecond (s : State) (b : Nat) : Int := secOf (s.now - s.rd (TIM_TCAP_PHASE_PHASE_NS b) * 65536)

/-- The second gives its pulse. -/
def secondDue (s : State) (b : Nat) : Bool :=
  s.rd (TIM_TCAP_CFG_WIDTH b) ≠ 0 && s.rd TIM_QUAL_STATE ≠ 0 && s.tim.ppsMin ≤ ballSecond s b && (tcapOf s b).lastSec ≠ some (ballSecond s b)

/-- A trigger in mode 3. -/
def secondTrigger (s : State) (b : Nat) : State :=
  if secondDue s b then updTcap (ballPulse s b) b fun x => { x with lastSec := some (ballSecond s b) } else s

theorem targetDue_iff : targetDue s b = true ↔ (tcapOf s b).armed = true ∧ targetDist s (tcapTarget s b) ≤ 0 := by
  simp only [targetDue, Bool.and_eq_true, decide_eq_true_eq]

theorem secondDue_iff : secondDue s b = true ↔ s.rd (TIM_TCAP_CFG_WIDTH b) ≠ 0 ∧ s.rd TIM_QUAL_STATE ≠ 0 ∧ s.tim.ppsMin ≤ ballSecond s b
    ∧ (tcapOf s b).lastSec ≠ some (ballSecond s b) := by
  simp only [secondDue, Bool.and_eq_true, decide_eq_true_eq, and_assoc]

theorem exec_tcapTrigger_target (h : s.rd (TIM_TCAP_CFG_MODE b) = 2) :
    exec (.tcapTrigger b t) s = .next (hstSettle (targetTrigger (s.at t) b)) := by
  have hat : (s.at t).rd (TIM_TCAP_CFG_MODE b) = 2 := h
  refine congrArg done ?_
  simp only [hat, targetTrigger, targetDue_iff]
  rfl

theorem exec_tcapTrigger_second (h : s.rd (TIM_TCAP_CFG_MODE b) = 3) :
    exec (.tcapTrigger b t) s = .next (hstSettle (secondTrigger (s.at t) b)) := by
  have hat : (s.at t).rd (TIM_TCAP_CFG_MODE b) = 3 := h
  refine congrArg done ?_
  simp only [hat, secondTrigger, secondDue_iff]
  rfl

theorem exec_tcapTrigger_other (h : s.rd (TIM_TCAP_CFG_MODE b) < 2) : exec (.tcapTrigger b t) s = .next (hstSettle (s.at t)) := by
  refine congrArg done ?_
  split
  next h2 => exact absurd h2 (ne_of_lt h)
  next h3 => exact absurd h3 (ne_of_lt (h.trans (by decide)))
  next => rfl

theorem targetTrigger_once (hd : targetDue s b = true) (hp : s.rd (TIM_TCAP_PERIOD_PERIOD b) = 0) :
    targetTrigger s b = updTcap (ballPulse s b) b fun x => { x with armed := false } := (if_pos hd).trans (if_pos hp)

theorem targetTrigger_periodic (hd : targetDue s b = true) (hp : s.rd (TIM_TCAP_PERIOD_PERIOD b) ≠ 0) : targetTrigger s b =
    (ballPulse s b).wrs [(TIM_TCAP_TGT_LO_TGT b, nextTarget s b), (TIM_TCAP_TGT_HI_TGT b, nextTarget s b / 2 ^ 32)] :=
  (if_pos hd).trans (if_neg hp)

theorem targetTrigger_early (hd : targetDue s b = false) : targetTrigger s b = s := if_neg (ne_true_of_eq_false hd)

theorem secondTrigger_due (hd : secondDue s b = true) :
    secondTrigger s b = updTcap (ballPulse s b) b fun x => { x with lastSec := some (ballSecond s b) } := if_pos hd

theorem secondTrigger_not (hd : secondDue s b = false) : secondTrigger s b = s := if_neg (ne_true_of_eq_false hd)

end Triggers

/-! ### The host's accesses to a ball (R327, R328) -/

section Balls

variable {s : State} {p : Path} {b v t : Nat}

/-- The ball is armed for the target whose high word is written. -/
def ballArmed (s : State) (b v : Nat) : State := updTcap (s.wr (TIM_TCAP_TGT_HI_TGT b) v) b fun x => { x with armed := true }

theorem tcapArm_otherMode (hm : s.rd (TIM_TCAP_CFG_MODE b) ≠ 2) : tcapArm s b v = s.wr (TIM_TCAP_TGT_HI_TGT b) v := if_pos hm

theorem tcapArm_noWidth (hm : s.rd (TIM_TCAP_CFG_MODE b) = 2) (hw : s.rd (TIM_TCAP_CFG_WIDTH b) = 0) : tcapArm s b v = refuse s 0x060B b :=
  (if_neg (not_not.mpr hm)).trans (if_pos hw)

theorem tcapArm_early (hm : s.rd (TIM_TCAP_CFG_MODE b) = 2) (hw : s.rd (TIM_TCAP_CFG_WIDTH b) ≠ 0)
    (hd : 0 < targetDist (ballArmed s b v) (tcapTarget (ballArmed s b v) b)) : tcapArm s b v = ballArmed s b v :=
  (if_neg (not_not.mpr hm)).trans ((if_neg hw).trans (if_neg (not_le_of_gt hd)))

theorem tcapArm_late (hm : s.rd (TIM_TCAP_CFG_MODE b) = 2) (hw : s.rd (TIM_TCAP_CFG_WIDTH b) ≠ 0)
    (hd : targetDist (ballArmed s b v) (tcapTarget (ballArmed s b v) b) ≤ 0) :
    tcapArm s b v = report ((ballArmed s b v).wr (TIM_TCAP_STS_LATE b) 1) 0x060C b :=
  (if_neg (not_not.mpr hm)).trans ((if_neg hw).trans (if_pos hd))

theorem tcapRead_empty (h : (tcapOf s b).fifo = []) : tcapRead s p b = (latchWord s p (0x20021C + b * 0x20) 0).emit (.read p 0) := by
  simp only [tcapRead, h]

theorem tcapRead_oldest {c : Nat} {r : Bool} {l : List (Nat × Bool)} (h : (tcapOf s b).fifo = (c, r) :: l) : tcapRead s p b =
    (latchWord ((updTcap s b fun x => { x with fifo := l }).wr (TIM_TCAP_STS_EMPTY b) (b2n l.isEmpty)) p (0x20021C + b * 0x20)
      (c / 2 ^ 32 % 2 ^ 31 + 2 ^ 31 * b2n r)).emit (.read p (c % 2 ^ 32)) := by
  simp only [tcapRead, h]
  rfl

theorem exec_tcapArm_lets (h : s.lets p (0x200208 + b * 0x20)) : exec (.tcapArm p b v t) s = .next (hstSettle (tcapArm (s.taken p t) b v)) :=
  congrArg done (hostDo_lets s p (0x200208 + b * 0x20) v t (tcapArm · b v) h)

theorem exec_tcapCapRead_lets (h : s.letsRead p (0x200218 + b * 0x20)) :
    exec (.tcapCapRead p b t) s = .next (hstSettle (tcapRead (s.taken p t) p b)) :=
  congrArg done (hostRd_lets s p (0x200218 + b * 0x20) t (tcapRead · p b) h)

end Balls

/-- Settles O39: an edge of PPS_IN by its width, its spacing and its second, a capture by the room in the FIFO, a trigger by its mode and
whether it is due, an arming by the ball's width and the target's distance, a read by the oldest capture. -/
theorem ppsInAndCaptureBalls : Obligations.PpsInAndCaptureBalls := by
  unfold Obligations.PpsInAndCaptureBalls
  refine ⟨?_, ?_, ?_, ?_, ?_⟩
  · intro s t dur i S good s1 tc th drop
    have used (hi : slotOfKind s 4 = some i) {u : State} (hu : edgeTakenBy S t dur i = u) : exec (.ppsInEdge t dur) s = .next (hstSettle u) :=
      (exec_ppsInEdge_used hi).trans (congrArg done hu)
    exact ⟨exec_ppsInEdge_unused, fun hi hg hq hn => used hi (edgeTakenBy_offset (s := S) hg hq hn),
      fun hi hg hf => used hi (edgeTakenBy_far (s := S) hg hf), fun hi hg hr => used hi (edgeTakenBy_firstBad (s := S) hg hr),
      fun hi hg hr => used hi (edgeTakenBy_nextBad (s := S) hg hr)⟩
  · intro s b t rising taken lost
    have takes (ht : taken = true) {u : State} (hu : captured (s.at t) b t rising = u) :
        exec (.tcapCapture b rising t) s = .next (hstSettle u) := (exec_next_pos exec_tcapCapture ht).trans (congrArg done hu)
    exact ⟨fun ht hf => takes ht (captured_room (s := s.at t) hf), fun ht hf hl => takes ht (captured_firstLost (s := s.at t) hf hl),
      fun ht hf hl => takes ht (captured_nextLost (s := s.at t) hf hl), exec_next_neg exec_tcapCapture⟩
  · intro s b t S s1 per n due sec duePps
    have target (hm : s.rd (TIM_TCAP_CFG_MODE b) = 2) {u : State} (hu : targetTrigger S b = u) :
        exec (.tcapTrigger b t) s = .next (hstSettle u) := (exec_tcapTrigger_target hm).trans (congrArg done hu)
    have second (hm : s.rd (TIM_TCAP_CFG_MODE b) = 3) {u : State} (hu : secondTrigger S b = u) :
        exec (.tcapTrigger b t) s = .next (hstSettle u) := (exec_tcapTrigger_second hm).trans (congrArg done hu)
    refine ⟨fun hm hd hp => target hm (targetTrigger_once hd hp), fun hm hd hp => target hm (targetTrigger_periodic hd hp),
      fun hm hd => second hm (secondTrigger_due hd), ?_⟩
    rintro (⟨hm, hd⟩ | ⟨hm, hd⟩ | hm)
    · exact target hm (targetTrigger_early hd)
    · exact second hm (secondTrigger_not hd)
    · exact exec_tcapTrigger_other hm
  · intro s p b v t h _ S s1
    have arms {u : State} (hu : tcapArm S b v = u) : exec (.tcapArm p b v t) s = .next (hstSettle u) :=
      (exec_tcapArm_lets h).trans (congrArg done hu)
    exact ⟨fun hm => arms (tcapArm_otherMode (s := S) hm), fun hm hw => arms (tcapArm_noWidth (s := S) hm hw),
      fun hm hw hd => arms (tcapArm_early (s := S) hm hw hd), fun hm hw hd => arms (tcapArm_late (s := S) hm hw hd)⟩
  · intro s p b c t r l h S
    exact ⟨fun hf => (exec_tcapCapRead_lets h).trans (congrArg done (tcapRead_empty (s := S) hf)),
      fun hf => (exec_tcapCapRead_lets h).trans (congrArg done (tcapRead_oldest (s := S) hf))⟩

end Sys2Proof.Proofs
end

section
/-! PROOFS. O51: Ethernet links, received frames, and what stops the transmitter. -/

namespace Sys2Proof.Proofs

open Sys2Proof Sys2Proof.Machine Sys2Proof.Laws

/-! ### Links (R331, R332) -/

section Links

variable {s : State} {p mbps t : Nat} {full mode : Bool}

/-- The rate of a link that comes up: a fixed speed overrides the one negotiated. -/
def linkRate (s : State) (p mbps : Nat) : Nat :=
  if s.rd (NET_CFG_SPEED_SEL p) = 1 then 100 else if s.rd (NET_CFG_SPEED_SEL p) = 2 then 1000 else mbps

/-- The link runs at full duplex and a rate that the port serves. -/
def linkGood (s : State) (p mbps : Nat) (full : Bool) : Bool := full && (linkRate s p mbps == 100 || linkRate s p mbps == 1000)

/-- The link comes up, and the transmitter selects. -/
def linkUp (s : State) (p rate : Nat) : State :=
  netTry (report (s.wrs [(NET_STATUS_LINK p, 1), (NET_STATUS_SPEED p, if rate = 1000 then 2 else 1)]) 0x0701 p) p

/-- The port exists, and the ETH clock is on its primary source. -/
def linkPort (s : State) (p : Nat) : Bool := p < 4 && onPrimary s 7

theorem linkPort_refused : (decide (4 ≤ p) || !onPrimary s 7) = !linkPort s p := by
  simp only [linkPort, Bool.not_and, ← decide_not, not_lt]

theorem linkGood_refused : (!full || !(decide (linkRate s p mbps = 100) || decide (linkRate s p mbps = 1000))) = !linkGood s p mbps full := by
  simp only [linkGood, Bool.not_and]
  rfl

theorem exec_ethLinkUp : exec (.ethLinkUp p mbps full t) s = .next (hstSettle (
    if linkPort s p then
      if linkGood s p mbps full then if s.flag (NET_STATUS_LINK p) then s.at t else linkUp (s.at t) p (linkRate s p mbps)
      else if s.flag (NET_STATUS_LINK p) then linkDown (s.at t) p 0x0703 else report (s.at t) 0x0703 p
    else s.at t)) := by
  rw [← ite_bnot (linkPort s p), ← ite_bnot (linkGood s p mbps full), ← linkPort_refused, ← linkGood_refused]
  rfl

theorem exec_ethLinkDown : exec (.ethLinkDown p mode t) s = .next (hstSettle (
    if p < 4 then
      if s.flag (NET_STATUS_LINK p) then linkDown (s.at t) p (if mode then 0x0703 else 0x0702)
      else if mode then report (s.at t) 0x0703 p else s.at t
    else s.at t)) := by
  simp only [← not_le, ite_not]
  rfl

end Links

/-! ### Received frames (R332, R336) -/

section Received

variable {s : State} {p ts t : Nat} {b : List Byte} {fcs full : Bool}

/-- The port receives: it runs, is not fenced, and its link is up. -/
def portReceives (s : State) (p : Nat) : Bool := netOn s p && !bit (s.rd ERR_FENCE_PORT_NET) p && s.flag (NET_STATUS_LINK p)

/-- The frame has a good FCS and a length that its tag allows. -/
def frameWhole (b : List Byte) (fcs : Bool) : Bool :=
  fcs && 60 ≤ b.length && b.length + 4 ≤ if beN b 12 2 = 0x8100 then 1522 else 1518

/-- The frame is addressed to the port, or to all or several. -/
def frameMine (s : State) (p : Nat) (b : List Byte) : Bool :=
  slice b 0 6 = slice (s.netSec p) 0 6 || slice b 0 6 = broadcast || bit (u8 b 0) 0

/-- A frame that finds the buffer full is counted; the first of a run is reported. -/
def frameOverrun (s : State) (p : Nat) : State := updPort (netCount s p 4) p fun x => { x with rxRun := true }

/-- A frame that is taken in ends the run of overruns. -/
def runOver (s : State) (p : Nat) : State := updPort s p fun x => { x with rxRun := false }

/-- A frame that is taken in, by its check and its destination. -/
def frameJudged (s : State) (p : Nat) (b : List Byte) (fcs : Bool) (ts : Nat) : State :=
  if frameWhole b fcs then if frameMine s p b then classify s p b (ingressTime s p ts) else netCount s p 2 else netCount s p 1

/-- A frame at a port that receives. -/
def frameReceived (s : State) (p : Nat) (b : List Byte) (fcs full : Bool) (ts : Nat) : State :=
  if full then if (s.port p).rxRun then frameOverrun s p else report (frameOverrun s p) 0x0704 p
  else frameJudged (runOver s p) p b fcs ts

theorem portReceives_refused : (!netOn s p || bit (s.rd ERR_FENCE_PORT_NET) p || !s.flag (NET_STATUS_LINK p)) = !portReceives s p := by
  simp only [portReceives, Bool.not_and, Bool.not_not]

theorem frameWhole_refused : (!fcs || decide (b.length + 4 < 64) || decide ((if beN b 12 2 = 0x8100 then 1522 else 1518) < b.length + 4))
    = !frameWhole b fcs := by
  have hshort : b.length + 4 < 64 ↔ ¬ 60 ≤ b.length := by omega
  simp only [frameWhole, Bool.not_and, ← decide_not, not_le, hshort]

/-- The first octet of a frame is that of its destination. -/
theorem u8_destination : u8 (slice b 0 6) 0 = u8 b 0 := by
  cases b <;> rfl

/-- The model looks for the first octet in the destination. -/
theorem frameMine_eq : frameMine s p b =
    (slice b 0 6 = slice (s.netSec p) 0 6 || slice b 0 6 = broadcast || bit (u8 (slice b 0 6) 0) 0) := by
  rw [u8_destination, frameMine]

theorem exec_ethFrameRx (hi : s.err.inj = none) : exec (.ethFrameRx p b fcs full ts t) s =
    .next (hstSettle (if portReceives s p then frameReceived (s.at t) p b fcs full ts else s.at t)) := by
  have hinj : injected 6 p none (fun s => areaEffect s (.ethRx p)) (ethFrameRxOp p b fcs full ts t) (s.at t)
      = ethFrameRxOp p b fcs full ts t (s.at t) := by
    rw [injected, takeInjection_none (s := s.at t) 6 p hi]
  refine congrArg done (hinj.trans ?_)
  rw [ethFrameRxOp, at_at, frameReceived, frameJudged, ← ite_bnot (portReceives s p), ← ite_bnot (frameWhole b fcs),
    ← ite_bnot (frameMine (runOver (s.at t) p) p b), ← portReceives_refused, ← frameWhole_refused, frameMine_eq]
  rfl

theorem frameJudged_bad (hw : frameWhole b fcs = false) : frameJudged s p b fcs ts = netCount s p 1 := if_neg (ne_true_of_eq_false hw)

theorem frameJudged_other (hw : frameWhole b fcs = true) (hm : frameMine s p b = false) : frameJudged s p b fcs ts = netCount s p 2 :=
  (if_pos hw).trans (if_neg (ne_true_of_eq_false hm))

theorem frameJudged_mine (hw : frameWhole b fcs = true) (hm : frameMine s p b = true) :
    frameJudged s p b fcs ts = classify s p b (ingressTime s p ts) :=
  (if_pos hw).trans (if_pos hm)

end Received

/-! ### The transmitter (R324, R335, R339) -/

section Transmitter

variable {s : State} {p ts t : Nat} {f : TxFrame}

theorem exec_ethLaunch (hi : s.err.inj = none) :
    exec (.ethLaunch p t) s = .next (hstSettle (if p < 4 then netTry (s.at t) p else s.at t)) := by
  have hinj : injected 6 p none (fun s => if (s.port p).wire.isSome then s else areaEffect (netTry s p) (.ethTx p)) (ethLaunchOp p t) (s.at t)
      = ethLaunchOp p t (s.at t) := by
    rw [injected, takeInjection_none (s := s.at t) 6 p hi]
  refine congrArg done (hinj.trans ?_)
  rw [ethLaunchOp, at_at]

/-- The frame has left: it is counted, for its definition too. -/
def frameSent (s : State) (p : Nat) (f : TxFrame) : State :=
  match f.def_ with
  | some d => (netCount (updPort s p fun x => { x with wire := none }) p 5).incWrap (NET_FDEF_STS_FRAMES p d)
  | none => netCount (updPort s p fun x => { x with wire := none }) p 5

theorem frameSent_tim : (frameSent s p f).tim = s.tim := by
  unfold frameSent
  split <;> rfl

/-- The egress time of a Delay_Req is its t3. -/
def requestLeft (s : State) (d : DelayReqSt) (x : Int) : State :=
  { s with tim := { s.tim with ptp := { s.tim.ptp with dreq := some { d with t3 := some x } } } }

/-- The frame that has left may be the Delay_Req that the slave waits for. -/
def requestTimed (s : State) (p ts : Nat) (f : TxFrame) : State :=
  match f.dreq, s.tim.ptp.dreq with
  | some q, some d => if d.seq = q then requestLeft s d (egressTime s p ts) else s
  | _, _ => s

theorem requestTimed_waited {d : DelayReqSt} (hd : s.tim.ptp.dreq = some d) (hf : f.dreq = some d.seq) :
    requestTimed s p ts f = requestLeft s d (egressTime s p ts) := by
  simp only [requestTimed, hd, hf, if_true]

theorem requestTimed_other (h : f.dreq = none ∨ f.dreq ≠ s.tim.ptp.dreq.map DelayReqSt.seq) : requestTimed s p ts f = s := by
  unfold requestTimed
  split
  next q d hf hd => exact if_neg fun hq => (by simp [hf, hd, hq] at h)
  next => rfl

theorem exec_ethTxComplete_idle (hw : (s.port p).wire = none) : exec (.ethTxComplete p ts t) s = .next (hstSettle (s.at t)) := by
  have hat : ((s.at t).port p).wire = none := hw
  refine congrArg done ?_
  simp only [hat]

theorem exec_ethTxComplete_wire (hw : (s.port p).wire = some f) :
    exec (.ethTxComplete p ts t) s = .next (hstSettle (netTry (requestTimed (frameSent (s.at t) p f) p ts f) p)) := by
  have hat : ((s.at t).port p).wire = some f := hw
  refine congrArg done ?_
  simp only [hat]
  rfl

/-- Nothing is selected and nothing taken into a queue: the machine is fail-silent, the port fenced, or no image loaded. -/
def portQuiet (s : State) (p : Nat) : Bool := s.flag ERR_STATUS_FAIL_SILENT || bit (s.rd ERR_FENCE_PORT_NET) p || s.img.secs.isEmpty

theorem netTry_stays (h : ((s.port p).wire.isSome || s.flag ERR_STATUS_FAIL_SILENT || bit (s.rd ERR_FENCE_PORT_NET) p || s.img.secs.isEmpty
    || initRuns s p) = true) : netTry s p = s := if_pos h

theorem netTry_quiet (h : portQuiet s p = true) : netTry s p = s := by
  simp only [portQuiet, Bool.or_eq_true] at h
  refine netTry_stays ?_
  rcases h with (h | h) | h <;> simp only [h, Bool.or_true, Bool.true_or]

theorem netTry_busy (h : initRuns s p = true ∨ (s.port p).wire.isSome = true) : netTry s p = s :=
  netTry_stays (by rcases h with h | h <;> simp [h])

theorem netHand_quiet (k : Nat) (h : portQuiet s p = true) : netHand s p k f = s := if_pos h

end Transmitter

/-- Settles O51: a link by its mode, a received frame by its port, its check and its destination, the end of a frame by what it carries, and the
transmitter by what stops it. -/
theorem ethernetLinksAndFrames : Obligations.EthernetLinksAndFrames := by
  unfold Obligations.EthernetLinksAndFrames
  refine ⟨?_, ?_, ?_, ?_⟩
  · intro s p mbps t full mode S sel rate good runs link d D
    have port (hr : runs = true) := exec_next_pos (exec_ethLinkUp (s := s) (p := p) (mbps := mbps) (full := full) (t := t)) hr
    refine ⟨fun hr hg hl => ?_, fun hr hg hl => ?_, fun hr hg hl => ?_, fun h => ?_, fun hp hl => ?_, fun hp hl hm => ?_, fun h => ?_⟩
    · exact (port hr).trans (congrArg done ((if_pos hg).trans (if_neg (ne_true_of_eq_false hl))))
    · exact (port hr).trans (congrArg done ((if_neg (ne_true_of_eq_false hg)).trans (if_pos hl)))
    · exact (port hr).trans (congrArg done ((if_neg (ne_true_of_eq_false hg)).trans (if_neg (ne_true_of_eq_false hl))))
    · cases hr : runs with
      | false => exact exec_next_neg exec_ethLinkUp hr
      | true =>
        obtain ⟨hg, hl⟩ := h.resolve_left (ne_false_of_eq_true hr)
        exact (port hr).trans (congrArg done ((if_pos hg).trans (if_pos hl)))
    · exact exec_ethLinkDown.trans (congrArg done ((if_pos hp).trans (if_pos hl)))
    · exact exec_ethLinkDown.trans (congrArg done ((if_pos hp).trans ((if_neg (ne_true_of_eq_false hl)).trans (if_pos hm))))
    · by_cases hp : p < 4
      · obtain ⟨hl, hm⟩ := h.resolve_left (not_le_of_gt hp)
        exact exec_ethLinkDown.trans (congrArg done ((if_pos hp).trans
          ((if_neg (ne_true_of_eq_false hl)).trans (if_neg (ne_true_of_eq_false hm)))))
      · exact exec_ethLinkDown.trans (congrArg done (if_neg hp))
  · intro s p ts t b fcs full hi runs S F long whole mine gives
    have received (hr : runs = true) {u : State} (hu : frameReceived (s.at t) p b fcs full ts = u) : gives u :=
      (exec_next_pos (exec_ethFrameRx hi) hr).trans (congrArg done hu)
    have judged (hr : runs = true) (hf : full = false) {u : State} (hu : frameJudged S p b fcs ts = u) : gives u :=
      received hr ((if_neg (ne_true_of_eq_false hf)).trans hu)
    refine ⟨fun hr hf hn => received hr ((if_pos hf).trans (if_neg (ne_true_of_eq_false hn))),
      fun hr hf ho => received hr ((if_pos hf).trans (if_pos ho)), fun hr hf hw => judged hr hf (frameJudged_bad hw),
      fun hr hf hw hm => judged hr hf (frameJudged_other hw hm), fun hr hf hw hm => judged hr hf (frameJudged_mine hw hm),
      exec_next_neg (exec_ethFrameRx hi)⟩
  · intro s p ts t f E C
    have sent (hw : (s.port p).wire = some f) {u : State} (hu : requestTimed C p ts f = u) :
        exec (.ethTxComplete p ts t) s = .next (hstSettle (netTry u p)) :=
      (exec_ethTxComplete_wire hw).trans (congrArg (fun u => done (netTry u p)) hu)
    have htim : C.tim.ptp.dreq = s.tim.ptp.dreq := congrArg (·.ptp.dreq) (frameSent_tim (s := s.at t) (p := p) (f := f))
    refine ⟨fun hi hp => (exec_ethLaunch hi).trans (congrArg done (if_pos hp)),
      fun hi hp => (exec_ethLaunch hi).trans (congrArg done (if_neg (not_lt_of_ge hp))), fun hw hn => sent hw (requestTimed_other ?_),
      fun hw d hd hf => sent hw (requestTimed_waited (htim.trans hd) hf), exec_ethTxComplete_idle⟩
    rw [htim]
    exact hn
  · exact fun s p k f => ⟨fun hq => ⟨netTry_quiet hq, netHand_quiet k hq⟩, netTry_busy⟩

end Sys2Proof.Proofs
end

section
/-! PROOFS. O53: what a CAN controller makes of received frames, of the end of integration, of errors, of the end of bus-off, of protocol
exceptions, and of a probe that stays without a reply. -/

namespace Sys2Proof.Proofs

open Sys2Proof Sys2Proof.Machine Sys2Proof.Laws

/-! ### What the service and a change of a controller leave -/

@[simp] theorem updCan_rd (s : State) (c : Nat) (f : CanSt → CanSt) (g : Fld) : (updCan s c f).rd g = s.rd g := rfl

/-- Bringing the service up to date writes LIMITED alone. -/
theorem canService_rd (s : State) (c : Nat) (g : Fld) (h : g.key ≠ (CAN_STATUS_LIMITED c).key) : (canService s c).rd g = s.rd g := by
  have hlim (b : Bool) : (s.wrb (CAN_STATUS_LIMITED c) b).rd g = s.rd g := rd_wr_ne s _ g _ h
  simp only [canService]
  split
  · exact hlim _
  · exact (updCan_rd _ c _ g).trans (hlim _)

/-! ### Received frames (R344, R351 to R353, R357) -/

section Received

variable {s : State} {c w0 dlc sof t : Nat} {esi rtr : Bool} {d : List Byte}

/-- The controller hears the others' frames: it takes part, and is not in internal loop-back. -/
def canHears (s : State) (c : Nat) : Bool := canTakes s c && s.rd (CAN_CFG_LOOPBACK c) != 1

theorem canHears_refused : (!canTakes s c || decide (s.rd (CAN_CFG_LOOPBACK c) = 1)) = !canHears s c := by
  simp only [canHears, Bool.not_and, bne, beq_eq_decide, Bool.not_not]

/-- A good frame lowers REC, from which the state and the service follow. -/
def frameHeard (s : State) (c : Nat) : State :=
  canService (canConfine (updCan (s.wr (CAN_STATUS_REC c) (recDown (s.rd (CAN_STATUS_REC c)))) c
    fun x => { x with recovering := false, pexRun := false }) c) c

/-- A remote frame is counted; a data frame may be a probe's, and is matched. -/
def frameTaken (s : State) (c w0 dlc : Nat) (esi rtr : Bool) (d : List Byte) (sof : Nat) : State :=
  if rtr then s.incSat (CAN_CNT_REMOTE_CNT c) 255 else canAccept (probeFrames s c w0 d) c w0 dlc esi d sof

theorem exec_canFrameRx (hi : s.err.inj = none) : exec (.canFrameRx c w0 dlc esi rtr d sof t) s =
    .next (hstSettle (if canHears s c then frameTaken (frameHeard (s.at t) c) c w0 dlc esi rtr d sof else s.at t)) := by
  have hinj : injected 7 c none (fun s => areaEffect s (.canRx c)) (canFrameRxOp c w0 dlc esi rtr d sof t) (s.at t)
      = canFrameRxOp c w0 dlc esi rtr d sof t (s.at t) := by
    rw [injected, takeInjection_none (s := s.at t) 7 c hi]
  refine congrArg done (hinj.trans ?_)
  rw [canFrameRxOp, at_at, ← ite_bnot (canHears s c), ← canHears_refused]
  rfl

end Received

/-! ### Integration and the probe for the message set (R447) -/

section Integration

variable {s : State} {c t : Nat}

/-- Integration ends in the state that the counts give. -/
def integrated (s : State) (c : Nat) : State :=
  s.wr (CAN_STATUS_STATE c) (if 128 ≤ s.rd (CAN_STATUS_TEC c) ∨ 128 ≤ s.rd (CAN_STATUS_REC c) then 3 else 2)

/-- The probe is sent, and its reply awaited for 200 ms. -/
def probeSent (s : State) (c : Nat) : State :=
  updCan s c fun x => { x with probe := { x.probe with due := false, sending := true, lim := 0, waitTo := some (s.tim.cnt + 50000000) } }

/-- A probe that is due: it is sent only where both sets are offered. -/
def probeDue (s : State) (c : Nat) : State :=
  match nativeMinor s c, gk5Offered s c with
  | some _, false => settleSet s c false
  | some _, true => probeSent s c
  | none, _ => settleSet s c true

theorem probeDue_gk5 (h : (nativeMinor s c).isSome = false) : probeDue s c = settleSet s c true := by
  have hn : nativeMinor s c = none := Option.not_isSome_iff_eq_none.mp (ne_true_of_eq_false h)
  simp only [probeDue, hn]

theorem probeDue_native (h : (nativeMinor s c).isSome = true) (hg : gk5Offered s c = false) : probeDue s c = settleSet s c false := by
  obtain ⟨m, hm⟩ := Option.isSome_iff_exists.mp h
  simp only [probeDue, hm, hg]

theorem probeDue_both (h : (nativeMinor s c).isSome = true) (hg : gk5Offered s c = true) : probeDue s c = probeSent s c := by
  obtain ⟨m, hm⟩ := Option.isSome_iff_exists.mp h
  simp only [probeDue, hm, hg]

theorem exec_canIntegrated : exec (.canIntegrated c t) s = .next (hstSettle (
    if s.rd (CAN_STATUS_STATE c) == 1 then
      if (s.canOf c).probe.due then probeDue (integrated (s.at t) c) c else integrated (s.at t) c
    else s.at t)) := by
  refine congrArg done ?_
  rw [← ite_bnot (s.rd (CAN_STATUS_STATE c) == 1), integrated]
  simp only [← Bool.decide_or, decide_eq_true_eq, ← bne.eq_1, bne_iff_ne]
  rfl

theorem exec_canProbeTimeout_late {w : Nat} (hw : (s.canOf c).probe.waitTo = some w) (h : w ≤ max s.tim.cnt t) :
    exec (.canProbeTimeout c t) s = .next (hstSettle (settleSet (s.at t) c true)) := by
  have hat : ((s.at t).canOf c).probe.waitTo = some w := hw
  refine congrArg done ?_
  simp only [hat]
  exact if_pos h

theorem exec_canProbeTimeout_early {w : Nat} (hw : (s.canOf c).probe.waitTo = some w) (h : max s.tim.cnt t < w) :
    exec (.canProbeTimeout c t) s = .next (hstSettle (s.at t)) := by
  have hat : ((s.at t).canOf c).probe.waitTo = some w := hw
  refine congrArg done ?_
  simp only [hat]
  exact if_neg (not_le_of_gt h)

theorem exec_canProbeTimeout_none (hw : (s.canOf c).probe.waitTo = none) : exec (.canProbeTimeout c t) s = .next (hstSettle (s.at t)) := by
  have hat : ((s.at t).canOf c).probe.waitTo = none := hw
  refine congrArg done ?_
  simp only [hat]

end Integration

/-! ### Errors of attempts and of received frames (R348 to R350, R355, R358) -/

section Errors

variable {s : State} {c lec t : Nat} {phase dom : Bool} {tx : Option Nat}

/-- CAN_ERR takes the code and the phase of an error; lost arbitration is none. -/
def errNoted (s : State) (c lec : Nat) (phase : Bool) : State :=
  if lec = 0 then s else s.wrs [(CAN_ERR_LEC c, lec), (CAN_ERR_PHASE c, if phase then 1 else 0)]

/-- TEC after the error of an attempt, before it saturates: an unacknowledged frame of a passive controller does not count. -/
def tecRaised (s : State) (c lec : Nat) (tx : Option Nat) (dom : Bool) : Nat :=
  if tx.isSome && (lec != 0 && !(s.rd (CAN_STATUS_STATE c) == 3 && lec == 3 && !dom)) then s.rd (CAN_STATUS_TEC c) + 8
  else s.rd (CAN_STATUS_TEC c)

/-- REC after the error of a received frame, in `u`, which follows `s`. -/
def recRaised (s u : State) (c lec : Nat) (tx : Option Nat) (dom : Bool) : State :=
  if tx.isNone && lec ≠ 0 && s.rd (CAN_STATUS_STATE c) ≠ 5 then
    u.wr (CAN_STATUS_REC c) (min (s.rd (CAN_STATUS_REC c) + if dom then 8 else 1) 255)
  else u

/-- The error is noted and counted, and the service brought up to date. -/
def errCounted (s : State) (c lec : Nat) (phase : Bool) (tx : Option Nat) (dom : Bool) : State :=
  canService ((recRaised s (errNoted s c lec phase) c lec tx dom).wr (CAN_STATUS_TEC c) (min (tecRaised s c lec tx dom) 255)) c

/-- The error takes the controller off the bus, unless it monitors. -/
def goesOff (s : State) (c lec : Nat) (tx : Option Nat) (dom : Bool) : Bool :=
  255 < tecRaised s c lec tx dom && s.rd (CAN_STATUS_STATE c) != 5

/-- The controller is bus-off, or in the state that the counts give. -/
def errConfined (s : State) (c : Nat) (off : Bool) : State := if off then canBusOff s c else canConfine s c

/-- The attempt of the buffer or of the probe has failed; a CYCLE buffer that bus-off ends is only counted. -/
def attemptFailed (s : State) (c lec : Nat) (tx : Option Nat) (off : Bool) : State :=
  match tx with
  | some b =>
    if b < 32 then
      if off && s.rd (CAN_TXB_STS_KIND c b) = 1 then s.incSat (CAN_TXB_STS_ATTEMPTS c b) 255 else failAttempt s c b (lec = 3)
    else if b = 32 then failProbe s c (lec = 3) else s
  | none => s

theorem errNoted_rd (g : Fld) (hl : g.key ≠ (CAN_ERR_LEC c).key) (hp : g.key ≠ (CAN_ERR_PHASE c).key) :
    (errNoted s c lec phase).rd g = s.rd g := by
  unfold errNoted
  split
  · rfl
  · exact rd_wrs_two s g lec _ hl hp

theorem errNoted_state : (errNoted s c lec phase).rd (CAN_STATUS_STATE c) = s.rd (CAN_STATUS_STATE c) := by
  apply errNoted_rd <;> simp only [CAN_STATUS_STATE, CAN_ERR_LEC, CAN_ERR_PHASE] <;> omega

theorem errNoted_rec : (errNoted s c lec phase).rd (CAN_STATUS_REC c) = s.rd (CAN_STATUS_REC c) := by
  apply errNoted_rd <;> simp only [CAN_STATUS_REC, CAN_ERR_LEC, CAN_ERR_PHASE] <;> omega

/-- Of the registers an error changes CAN_ERR, the counts and LIMITED until its attempt ends. -/
theorem errCounted_rd (g : Fld)
    (h : g.key ∉ [CAN_ERR_LEC c, CAN_ERR_PHASE c, CAN_STATUS_REC c, CAN_STATUS_TEC c, CAN_STATUS_LIMITED c].map (·.key)) :
    (errCounted s c lec phase tx dom).rd g = s.rd g := by
  simp only [List.map_cons, List.map_nil, List.mem_cons, List.not_mem_nil, or_false, not_or] at h
  obtain ⟨hlec, hphase, hrec, htec, hlim⟩ := h
  have hraised : (recRaised s (errNoted s c lec phase) c lec tx dom).rd g = (errNoted s c lec phase).rd g := by
    unfold recRaised
    split
    · exact rd_wr_ne _ _ _ _ hrec
    · rfl
  rw [errCounted, canService_rd _ _ _ hlim, rd_wr_ne _ _ _ _ htec, hraised, errNoted_rd g hlec hphase]

theorem errCounted_state : (errCounted s c lec phase tx dom).rd (CAN_STATUS_STATE c) = s.rd (CAN_STATUS_STATE c) := by
  apply errCounted_rd
  simp only [List.map_cons, List.map_nil, List.mem_cons, List.not_mem_nil, or_false, not_or, CAN_STATUS_STATE, CAN_ERR_LEC, CAN_ERR_PHASE,
    CAN_STATUS_REC, CAN_STATUS_TEC, CAN_STATUS_LIMITED]
  omega

theorem errCounted_kind (b : Nat) : (errCounted s c lec phase tx dom).rd (CAN_TXB_STS_KIND c b) = s.rd (CAN_TXB_STS_KIND c b) := by
  apply errCounted_rd
  simp only [List.map_cons, List.map_nil, List.mem_cons, List.not_mem_nil, or_false, not_or, CAN_TXB_STS_KIND, CAN_ERR_LEC, CAN_ERR_PHASE,
    CAN_STATUS_REC, CAN_STATUS_TEC, CAN_STATUS_LIMITED]
  omega

theorem not_stopped_of_takes (h : canTakes s c = true) : s.rd (CAN_STATUS_STATE c) ≠ 0 := by
  intro h0
  simp [canTakes, canState, h0] at h

theorem exec_canError_stopped (h : s.rd (CAN_STATUS_STATE c) = 0) :
    exec (.canError c lec phase tx dom t) s = .next (hstSettle (tx.elim (s.at t) fun b => failAttempt (s.at t) c b false)) :=
  congrArg done (if_pos h)

theorem exec_canError_away (h0 : s.rd (CAN_STATUS_STATE c) ≠ 0) (h : canTakes s c = false) :
    exec (.canError c lec phase tx dom t) s = .next (hstSettle (s.at t)) :=
  congrArg done ((if_neg h0).trans (if_pos (congrArg (!·) h)))

theorem exec_canError_takes (h : canTakes s c = true) : exec (.canError c lec phase tx dom t) s = .next (hstSettle (
    errConfined (attemptFailed (errCounted (s.at t) c lec phase tx dom) c lec tx (goesOff s c lec tx dom)) c (goesOff s c lec tx dom))) := by
  have htec : tecRaised (s.at t) c lec tx dom
      = if tx.isSome && decide (lec ≠ 0) && !(decide (canState (s.at t) c = 3) && decide (lec = 3) && !dom) then
          (s.at t).rd (CAN_STATUS_TEC c) + 8 else (s.at t).rd (CAN_STATUS_TEC c) := by
    simp only [tecRaised, bne, beq_eq_decide, decide_not, Bool.and_assoc]
    rfl
  have hrec : recRaised (s.at t) (errNoted (s.at t) c lec phase) c lec tx dom
      = if tx.isNone && decide (lec ≠ 0) && decide (canState (errNoted (s.at t) c lec phase) c ≠ 5) then
          (errNoted (s.at t) c lec phase).wr (CAN_STATUS_REC c)
            (satAdd ((errNoted (s.at t) c lec phase).rd (CAN_STATUS_REC c)) (if dom then 8 else 1) 255)
        else errNoted (s.at t) c lec phase := by
    rw [canState, errNoted_state, errNoted_rec]
    rfl
  have hoff : goesOff s c lec tx dom
      = (decide (255 < tecRaised (s.at t) c lec tx dom) && decide (canState (errCounted (s.at t) c lec phase tx dom) c ≠ 5)) := by
    rw [canState, errCounted_state]
    simp only [goesOff, bne, beq_eq_decide, decide_not]
    rfl
  refine congrArg done ((if_neg (not_stopped_of_takes h)).trans ((if_neg (by rw [show canTakes (s.at t) c = true from h]; decide)).trans ?_))
  rw [hoff, errCounted, hrec, htec]
  rfl

theorem attemptFailed_none (off : Bool) : attemptFailed s c lec none off = s := rfl

theorem attemptFailed_counted {b : Nat} {off : Bool} (hb : b < 32) (ho : off = true) (hk : s.rd (CAN_TXB_STS_KIND c b) = 1) :
    attemptFailed s c lec (some b) off = s.incSat (CAN_TXB_STS_ATTEMPTS c b) 255 :=
  (if_pos hb).trans (if_pos (by simp [ho, hk]))

theorem attemptFailed_buffer {b : Nat} {off : Bool} (hb : b < 32) (h : off = false ∨ s.rd (CAN_TXB_STS_KIND c b) ≠ 1) :
    attemptFailed s c lec (some b) off = failAttempt s c b (lec == 3) :=
  (if_pos hb).trans (if_neg (by rcases h with h | h <;> simp [h]))

theorem attemptFailed_probe (off : Bool) : attemptFailed s c lec (some 32) off = failProbe s c (lec == 3) := rfl

theorem attemptFailed_beyond {b : Nat} (off : Bool) (hb : 32 < b) : attemptFailed s c lec (some b) off = s :=
  (if_neg (not_lt_of_gt hb)).trans (if_neg (ne_of_gt hb))

end Errors

/-! ### Bus-off recovery and protocol exceptions (R344, R349) -/

section Recovery

variable {s : State} {c t : Nat}

/-- Recovery clears the counts, and the controller integrates. -/
def offRecovered (s : State) (c : Nat) : State :=
  report (canService (updCan (s.wrs [(CAN_STATUS_STATE c, 1), (CAN_STATUS_TEC c, 0), (CAN_STATUS_REC c, 0)]) c
    fun x => { x with recovering := true }) c) 0x0804 c

theorem exec_canBusoffRecovered_off (h : s.rd (CAN_STATUS_STATE c) = 4) :
    exec (.canBusoffRecovered c t) s = .next (hstSettle (offRecovered (s.at t) c)) :=
  congrArg done (if_neg (not_not_intro h))

theorem exec_canBusoffRecovered_not (h : s.rd (CAN_STATUS_STATE c) ≠ 4) : exec (.canBusoffRecovered c t) s = .next (hstSettle (s.at t)) :=
  congrArg done (if_pos h)

/-- The controller takes protocol exceptions. -/
def takesPex (s : State) (c : Nat) : Bool := canTakes s c && s.flag (CAN_CFG_PEX_EN c)

/-- The exception is counted and its run begun. -/
def pexCounted (s : State) (c : Nat) : State := updCan (s.incSat (CAN_CNT_PEX_CNT c) 255) c fun x => { x with pexRun := true }

/-- A controller that does not monitor integrates after the exception. -/
def pexEntered (s : State) (c : Nat) : State :=
  if s.rd (CAN_STATUS_STATE c) = 5 then pexCounted s c else (pexCounted s c).wr (CAN_STATUS_STATE c) 1

theorem pexCounted_state : (pexCounted s c).rd (CAN_STATUS_STATE c) = s.rd (CAN_STATUS_STATE c) := by
  refine rd_wr_ne s _ _ _ ?_
  simp only [CAN_STATUS_STATE, CAN_CNT_PEX_CNT]
  omega

theorem exec_canProtocolException : exec (.canProtocolException c t) s = .next (hstSettle (
    if takesPex s c then if (s.canOf c).pexRun then pexEntered (s.at t) c else report (pexEntered (s.at t) c) 0x080A c else s.at t)) := by
  refine congrArg done ?_
  rw [← ite_bnot (takesPex s c), takesPex, Bool.not_and, pexEntered, ← pexCounted_state]
  rfl

end Recovery

/-- Settles O53: a frame by whether the controller hears it, the end of integration by the probe that is due, an error by what was sent and
what the counts come to, the end of bus-off by the state, an exception by PEX_EN and its run, a reply awaited by its time. -/
theorem canBusEvents : Obligations.CanBusEvents := by
  unfold Obligations.CanBusEvents
  refine ⟨?_, ?_, ?_, ?_⟩
  · intro s c w0 dlc sof t esi rtr d hi S R T takes gives
    have heard (ht : takes = true) {u : State} (hu : frameTaken T c w0 dlc esi rtr d sof = u) : gives u :=
      (exec_next_pos (exec_canFrameRx hi) ht).trans (congrArg done hu)
    exact ⟨fun ht hr => heard ht (if_pos hr), fun ht hr => heard ht (if_neg (ne_true_of_eq_false hr)), exec_next_neg (exec_canFrameRx hi)⟩
  · intro s c t S here due native gives
    have ends (hh : here = true) := exec_next_pos (exec_canIntegrated (t := t)) hh
    have probes (hh : here = true) (hd : due = true) {u : State} (hu : probeDue S c = u) : gives u :=
      (ends hh).trans (congrArg done ((if_pos hd).trans hu))
    exact ⟨exec_next_neg exec_canIntegrated, fun hh hd => (ends hh).trans (congrArg done (if_neg (ne_true_of_eq_false hd))),
      fun hh hd hn => probes hh hd (probeDue_gk5 (s := S) hn), fun hh hd hn hg => probes hh hd (probeDue_native (s := S) hn hg),
      fun hh hd hn hg => probes hh hd (probeDue_both (s := S) hn hg)⟩
  · intro s c lec t phase dom tx S st E up tec R V off ends gives
    have fails (h : canTakes s c = true) {u : State} (hu : attemptFailed V c lec tx off = u) : gives (ends u) :=
      (exec_canError_takes h).trans (congrArg (fun u => done (ends u)) hu)
    have kind (b : Nat) : V.rd (CAN_TXB_STS_KIND c b) = s.rd (CAN_TXB_STS_KIND c b) := errCounted_kind (s := S) b
    refine ⟨fun h0 => ⟨?_, ?_⟩, exec_canError_away, ?_, ?_⟩
    · rintro rfl
      exact exec_canError_stopped h0
    · rintro b rfl
      exact exec_canError_stopped h0
    · rintro h rfl
      exact fails h (attemptFailed_none off)
    · rintro h b rfl
      refine ⟨fun hb ho hk => ?_, fun hb hk => fails h (attemptFailed_buffer hb (by rwa [kind])), ?_,
        fun hb => fails h (attemptFailed_beyond off hb)⟩
      · have hends (u : State) : ends u = canBusOff u c := if_pos ho
        exact hends _ ▸ fails h (attemptFailed_counted hb ho ((kind b).trans hk))
      · rintro rfl
        exact fails h (attemptFailed_probe off)
  · intro s c t S P Q pex
    refine ⟨exec_canBusoffRecovered_off, exec_canBusoffRecovered_not, exec_next_pos exec_canProtocolException,
      exec_next_neg exec_canProtocolException, fun w hw hd => exec_canProbeTimeout_late hw hd,
      fun w hw hd => exec_canProbeTimeout_early hw hd, exec_canProbeTimeout_none⟩

end Sys2Proof.Proofs
end

section
/-! PROOFS. O54: how transmit buffers are launched and sent, how the host requests and cancels them, and how it releases receive records. -/

namespace Sys2Proof.Proofs

open Sys2Proof Sys2Proof.Machine Sys2Proof.Laws

/-! ### The target of a CYCLE buffer (R354) -/

section Launch

variable {s : State} {c b t : Nat}

/-- The target of a buffer has come. -/
def targetCome (s : State) (c b : Nat) : Bool := ((s.txb c b).target.map fun x => due40 x s.tim.cnt).getD false

/-- A CYCLE buffer is requested: its target has come, it is not pending, and the controller may send its content. -/
def bufLaunches (s : State) (c b : Nat) : Bool := b < 32 && targetCome s c b && !(s.txb c b).pend && cycleMaySend s c

/-- A buffer with a target is tested as the model does it; one without has nothing to launch. -/
theorem bufLaunches_eq : bufLaunches s c b =
    match (s.txb c b).target with
    | some x => due40 x s.tim.cnt && !(s.txb c b).pend && b < 32 && cycleMaySend s c
    | none => false := by
  unfold bufLaunches targetCome
  split
  next x hx =>
    rw [hx, Option.map_some, Option.getD_some, Bool.and_assoc (decide (b < 32)), Bool.and_comm (decide (b < 32))]
  next hn => simp only [hn, Option.map_none, Option.getD_none, Bool.and_false, Bool.false_and]

theorem exec_canTxLaunch (hi : s.err.inj = none) : exec (.canTxLaunch c b t) s =
    .next (hstSettle (if bufLaunches (s.at t) c b then reqBuf (s.at t) c b else s.at t)) := by
  have hinj : injected 7 c none (fun s => areaEffect s (.canTx c b)) (canTxLaunchOp c b t) (s.at t) = canTxLaunchOp c b t (s.at t) := by
    rw [injected, takeInjection_none (s := s.at t) 7 c hi]
  refine congrArg done (hinj.trans ?_)
  rw [canTxLaunchOp, at_at, bufLaunches_eq]
  cases ((s.at t).txb c b).target <;> rfl

end Launch

/-! ### An attempt that succeeds (R346, R347, R350, R355 to R357) -/

section Sent

variable {s : State} {c b sof tdcv t : Nat}

/-- A good frame of the controller lowers TEC, from which the state and the service follow. -/
def goodSent (s : State) (c : Nat) : State :=
  canService (canConfine (updCan (s.wr (CAN_STATUS_TEC c) (s.rd (CAN_STATUS_TEC c) - 1)) c fun x => { x with recovering := false }) c) c

/-- The octets of a probe and of its reply: the native set and its highest minor. -/
def probeOctets (s : State) (c : Nat) : List Byte := [1, BitVec.ofNat 8 ((nativeMinor s c).getD 0)]

/-- The probe has left, and its reply is awaited for 200 ms from now. -/
def probeLeft (s : State) (c : Nat) : State :=
  updCan (goodSent (canEmit s c (probeArg s c * 2 ^ 18) (probeOctets s c)) c) c
    fun x => { x with probe := { x.probe with sending := false, waitTo := x.probe.waitTo.map fun _ => s.tim.cnt + 50000000 } }

/-- The reply to a probe has left. -/
def replyLeft (s : State) (c : Nat) : State :=
  updCan (goodSent (canEmit s c ((probeArg s c + 1) * 2 ^ 18) (probeOctets s c)) c) c
    fun x => { x with probe := { x.probe with reply := false } }

/-- The octets of a buffer's frame. -/
def bufOctets (s : State) (c b : Nat) : List Byte := bufData s c b (dlcLen (bit (bufW0 s c b) 30) (s.rd (CAN_TXB_STS_DLC c b)))

/-- The buffer's frame has left: it is SENT, with its attempts and the count of its start of frame. -/
def bufSent (s : State) (c b sof : Nat) (late : Bool) : State :=
  (((endBuf ((goodSent (canEmit s c (bufW0 s c b) (bufOctets s c b)) c).incSat (CAN_TXB_STS_ATTEMPTS c b) 255) c b 2).wrs
    [(CAN_TXB_TIME_LO_SOF_CNT c b, sof), (CAN_TXB_TIME_HI_SOF_CNT c b, sof / 2 ^ 32), (CAN_TXB_STS_CANCEL_LATE c b, if late then 1 else 0)]).wrBit
    (CAN_TX_DONE_BUF c) b true).wrBit (CAN_EVT_EVT c) 0 true

/-- A cancel that came too late is reported. -/
def lateCancelled (s : State) (c : Nat) (late : Bool) : State := if late then report s 0x0807 c else s

/-- TDCV takes the delay that was measured, and the run of delays beyond its range goes on or ends. -/
def delayMeasured (s : State) (c tdcv : Nat) : State :=
  updCan (s.wr (CAN_STATUS_TDCV c) (min tdcv 127)) c fun x => { x with tdcRun := decide (127 ≤ tdcv) }

/-- A frame with a data phase of its own measures its delay; the first of a run beyond the range is reported. -/
def delayCompensated (s : State) (c w0 tdcv : Nat) : State :=
  if s.flag (CAN_DBT_TDC_EN c) && bit w0 31 then
    if 127 ≤ tdcv ∧ (s.canOf c).tdcRun = false then report (delayMeasured s c tdcv) 0x080B c else delayMeasured s c tdcv
  else s

/-- In loop-back the controller receives its own frame. -/
def loopedBack (s : State) (c w0 dlc : Nat) (d : List Byte) (sof : Nat) : State :=
  if s.rd (CAN_CFG_LOOPBACK c) = 0 then s else canAccept s c w0 dlc false d sof

/-- A buffer's frame has left: what is reported of it, its delay and its own reception follow. -/
def bufDone (s : State) (c b sof tdcv : Nat) : State :=
  loopedBack (delayCompensated (lateCancelled (bufSent s c b sof (s.txb c b).cancel) c (s.txb c b).cancel) c (bufW0 s c b) tdcv) c
    (bufW0 s c b) (s.rd (CAN_TXB_STS_DLC c b)) (bufOctets s c b) sof

theorem delayCompensated_eq (w0 : Nat) : delayCompensated s c w0 tdcv =
    if s.flag (CAN_DBT_TDC_EN c) && bit w0 31 then
      if decide (127 ≤ tdcv) && !(s.canOf c).tdcRun then report (delayMeasured s c tdcv) 0x080B c else delayMeasured s c tdcv
    else s := by
  simp only [delayCompensated, Bool.and_eq_true, decide_eq_true_eq, Bool.not_eq_true']

theorem loopedBack_eq (w0 dlc : Nat) (d : List Byte) :
    loopedBack s c w0 dlc d sof = if s.rd (CAN_CFG_LOOPBACK c) ≠ 0 then canAccept s c w0 dlc false d sof else s :=
  (ite_not ..).symm

/-- The buffer's attempt ends with its frame sent. -/
def bufEnds (s : State) (c b sof : Nat) : Bool := (s.txb c b).pend && attemptEnds s c sof

/-- What the model asks of an attempt that is neither the probe's nor its reply's is asked of a buffer alone. -/
theorem bufEnds_refused : (decide (32 ≤ b) || !(s.txb c b).pend || !attemptEnds s c sof) = !(decide (b < 32) && bufEnds s c b sof) := by
  simp only [bufEnds, Bool.not_and, ← decide_not, not_lt, Bool.or_assoc]

theorem exec_canTxDone_probe :
    exec (.canTxDone c 32 sof tdcv t) s = .next (hstSettle (if (s.canOf c).probe.sending then probeLeft (s.at t) c else s.at t)) := rfl

theorem exec_canTxDone_reply :
    exec (.canTxDone c 33 sof tdcv t) s = .next (hstSettle (if (s.canOf c).probe.reply then replyLeft (s.at t) c else s.at t)) := rfl

/-- An attempt that is neither the probe's nor its reply's has effect where a buffer's ends. -/
theorem exec_canTxDone_other (hp : b ≠ 32) (hr : b ≠ 33) : exec (.canTxDone c b sof tdcv t) s = .next (hstSettle (
    if decide (b < 32) && bufEnds s c b sof then afterAttempt (bufDone (s.at t) c b sof tdcv) c b else s.at t)) := by
  refine congrArg done ((if_neg (by simp [hp])).trans ((if_neg (by simp [hr])).trans ?_))
  rw [← ite_bnot (decide (b < 32) && bufEnds s c b sof), ← bufEnds_refused, bufDone, delayCompensated_eq, loopedBack_eq]
  rfl

theorem exec_canTxDone_buffer (hb : b < 32) : exec (.canTxDone c b sof tdcv t) s =
    .next (hstSettle (if bufEnds s c b sof then afterAttempt (bufDone (s.at t) c b sof tdcv) c b else s.at t)) := by
  rw [exec_canTxDone_other (ne_of_lt hb) (ne_of_lt (hb.trans (by decide))), decide_eq_true hb, Bool.true_and]

theorem exec_canTxDone_beyond (hb : 33 < b) : exec (.canTxDone c b sof tdcv t) s = .next (hstSettle (s.at t)) := by
  refine exec_next_neg (exec_canTxDone_other (ne_of_gt (lt_of_le_of_lt (by decide) hb)) (ne_of_gt hb)) ?_
  rw [decide_eq_false (by omega), Bool.false_and]

end Sent

/-! ### The host's requests, cancels and releases (R352 to R355) -/

section HostWrites

variable {s : State} {p : Path} {c v t : Nat} {att : Option Nat} {x : Nat}

theorem canTxReq_stopped (h : groupStopped s (8 + c) = true) : canTxReq s c v = s := if_pos h

theorem canTxReq_runs (h : groupStopped s (8 + c) = false) : canTxReq s c v = (List.range 32).foldl (fun u b =>
    if bit v b && u.rd (CAN_TXB_STS_KIND c b) = 2 && !(u.txb c b).pend then reqBuf u c b else u) s :=
  if_neg (ne_true_of_eq_false h)

theorem canPop_queue (h : x < 2) : canPop s c x =
    (updCan s c fun y => { y with rxq := put_ y.rxq x [] ((at_ (s.canOf c).rxq x []).drop 1) }).wr (CAN_RXQ_STS_FILL c x)
      ((at_ (s.canOf c).rxq x []).drop 1).length :=
  if_neg (not_le_of_gt h)

theorem canPop_beyond (h : 2 ≤ x) : canPop s c x = s := if_pos h

theorem exec_canTxReq_lets (h : s.lets p (0x220020 + c * 0x1000)) :
    exec (.canTxReq p c v t) s = .next (hstSettle (canTxReq (s.taken p t) c v)) :=
  congrArg done (hostDo_lets s p (0x220020 + c * 0x1000) v t (canTxReq · c v) h)

theorem exec_canTxCancel_lets (h : s.lets p (0x220024 + c * 0x1000)) :
    exec (.canTxCancel p c v att t) s = .next (hstSettle (canTxCancel (s.taken p t) c v att)) :=
  congrArg done (hostDo_lets s p (0x220024 + c * 0x1000) v t (canTxCancel · c v att) h)

theorem exec_canRxqPop_lets (h : s.lets p (0x220040 + c * 0x1000 + 4 * x)) :
    exec (.canRxqPop p c x t) s = .next (hstSettle (canPop (s.taken p t) c x)) :=
  congrArg done (hostDo_lets s p (0x220040 + c * 0x1000 + 4 * x) 0x80000000 t (canPop · c x) h)

theorem exec_canHpbPop_lets (h : s.lets p (0x220048 + c * 0x1000)) :
    exec (.canHpbPop p c t) s = .next (hstSettle (hpbPop (s.taken p t) c)) :=
  congrArg done (hostDo_lets s p (0x220048 + c * 0x1000) 0x80000000 t (hpbPop · c) h)

end HostWrites

/-- Settles O54: a launch by its target, an attempt by what was sent and whether it may end, the host's writes where the path lets them
through. -/
theorem canTransmitBuffersAndQueues : Obligations.CanTransmitBuffersAndQueues := by
  unfold Obligations.CanTransmitBuffersAndQueues
  refine ⟨?_, ?_, ?_, ?_, ?_⟩
  · exact fun s c b t hi => ⟨exec_next_pos (exec_canTxLaunch hi), exec_next_neg (exec_canTxLaunch hi)⟩
  · intro s c b sof tdcv t S good sends arg ver w0 dlc d late g z y tdc v n m gives ends
    refine ⟨fun hb => exec_next_pos (exec_canTxDone_buffer hb), ?_, ?_, ?_⟩
    · rintro rfl
      exact exec_next_pos exec_canTxDone_probe
    · rintro rfl
      exact exec_next_pos exec_canTxDone_reply
    · rintro (hb | ⟨hb, he⟩ | ⟨rfl, hs⟩ | ⟨rfl, hr⟩)
      · exact exec_canTxDone_beyond hb
      · exact exec_next_neg (exec_canTxDone_buffer hb) he
      · exact exec_next_neg exec_canTxDone_probe hs
      · exact exec_next_neg exec_canTxDone_reply hr
  · exact fun s p c v t h => ⟨fun hg => (exec_canTxReq_lets h).trans (congrArg done (canTxReq_runs (s := s.taken p t) hg)),
      fun hg => (exec_canTxReq_lets h).trans (congrArg done (canTxReq_stopped (s := s.taken p t) hg))⟩
  · exact fun s p c v t att h => exec_canTxCancel_lets h
  · exact fun s p c x t => ⟨fun h => ⟨fun hx => (exec_canRxqPop_lets h).trans (congrArg done (canPop_queue hx)),
      fun hx => (exec_canRxqPop_lets h).trans (congrArg done (canPop_beyond hx))⟩, exec_canHpbPop_lets⟩

end Sys2Proof.Proofs
end

section
/-! PROOFS. O52: the MDIO commands of the host, and the end of the frame on the wire. -/

namespace Sys2Proof.Proofs

open Sys2Proof Sys2Proof.Machine Sys2Proof.Laws

/-! ### The gate after a register write (R453, R483, R526, R531) -/

/-- The register fields that decide whether an access reaches its register. -/
def gateFields (off : Nat) : List Fld :=
  [IMG_STATUS_STATE, SEC_POLICY_FLAGS, SEC_STATUS_DEBUG_UNLOCKED, HST_MAP_SET_SETTLED, HST_MAP_SET_MAJOR, HST_MAP_SET_MINOR,
    HST_MAP_IMPL_OFF_MAJOR, HST_MAP_IMPL_OFF_MAX, HST_MAP_IMPL_IMPL_MAJOR, HST_MAP_IMPL_IMPL_MAX, CLK_DOM_STS_STATE (domOf off)]

/-- A write at none of their places leaves the gate as it was. -/
theorem gate_wr (s : State) (f : Fld) (v : Nat) (p : Path) (off : Nat) (wr : Bool) (h : ∀ g ∈ gateFields off, g.key ≠ f.key) :
    gate (s.wr f v) p off wr = gate s p off wr := by
  have hrd : ∀ g ∈ gateFields off, (s.wr f v).rd g = s.rd g := fun g hg => rd_wr_ne s f g v (h g hg)
  simp only [gateFields, List.forall_mem_cons, List.not_mem_nil, false_implies, implies_true, and_true] at hrd
  obtain ⟨himg, hpol, hdbg, hset, hmaj, hmin, hoff, hoffMax, himpl, himplMax, hclk⟩ := hrd
  have hflag {g : Fld} (hg : (s.wr f v).rd g = s.rd g) : (s.wr f v).flag g = s.flag g := congrArg (fun n => decide (n ≠ 0)) hg
  have hloaded : (s.wr f v).loaded = s.loaded := congrArg (fun n => decide (n = 2)) himg
  have hmap : mapOf (s.wr f v) p = mapOf s p := by
    cases p <;> simp only [mapOf, hflag hset, hmaj, hmin, hoff, hoffMax, himpl, himplMax, wr_hst]
  have hanswers : qspiAnswers (s.wr f v) off wr = qspiAnswers s off wr := by rw [qspiAnswers, hloaded, hpol]; rfl
  have hopen : debugOpen (s.wr f v) = debugOpen s := by rw [debugOpen, hflag hdbg]; rfl
  rw [gate, hanswers, hopen, hmap, hclk]
  rfl

/-! ### The port that a command's PHY address names -/

/-- The port follows from the PHY addresses alone. -/
theorem phyPort_congr {s u : State} (h : ∀ p, u.rd (NET_CFG_PHY_ADDR p) = s.rd (NET_CFG_PHY_ADDR p)) (phy : Nat) :
    phyPort u phy = phyPort s phy := by
  simp only [phyPort, h]

/-! ### NET_MDIO_DATA and NET_MDIO_CMD (R333) -/

section Commands

variable {s : State} {p : Path} {c45 : Bool} {op phy x v t : Nat}

/-- The write of NET_MDIO_DATA that goes ahead of an idle master's frame. -/
theorem mdioData_idle (h : s.lets p 0x214004) (hb : s.flag NET_MDIO_CMD_GO_BUSY = false) :
    mdioData (s.at t) p v = (s.taken p t).wr NET_MDIO_DATA_DATA v :=
  (hostDo_lets s p _ v t _ h).trans (if_neg (ne_true_of_eq_false hb))

theorem mdioData_busy (h : s.lets p 0x214004) (hb : s.flag NET_MDIO_CMD_GO_BUSY = true) : mdioData (s.at t) p v = s.taken p t :=
  (hostDo_lets s p _ v t _ h).trans (if_pos hb)

/-- The data of a frame do not shut its command out. -/
theorem lets_dataWritten (h : s.lets p 0x214000) : ((s.taken p t).wr NET_MDIO_DATA_DATA v).lets p 0x214000 :=
  (gate_wr (s.taken p t) NET_MDIO_DATA_DATA v p 0x214000 true (by decide)).trans h

/-- NET_MDIO_CMD takes a frame, and the master is busy. -/
def cmdTaken (s : State) (c45 : Bool) (op phy x : Nat) : State :=
  s.wrs [(NET_MDIO_CMD_C45, b2n c45), (NET_MDIO_CMD_OP, op), (NET_MDIO_CMD_PHYAD, phy), (NET_MDIO_CMD_REGAD, x), (NET_MDIO_CMD_NORESP, 0),
    (NET_MDIO_CMD_GO_BUSY, 1)]

/-- A command changes the word of NET_MDIO_CMD alone. -/
theorem cmdTaken_rd (g : Fld) (h : g.key < 0x214000 * 8 ∨ 0x214000 * 8 + 32 ≤ g.key) : (cmdTaken s c45 op phy x).rd g = s.rd g := by
  refine rd_wrs_ne s _ g ?_
  simp only [List.forall_mem_cons, List.not_mem_nil, false_implies, implies_true, and_true, NET_MDIO_CMD_C45, NET_MDIO_CMD_OP,
    NET_MDIO_CMD_PHYAD, NET_MDIO_CMD_REGAD, NET_MDIO_CMD_NORESP, NET_MDIO_CMD_GO_BUSY]
  omega

theorem cmdTaken_phyPort : phyPort (cmdTaken s c45 op phy x) (phy % 32) = phyPort s (phy % 32) := by
  refine phyPort_congr (fun i => cmdTaken_rd _ ?_) _
  simp only [NET_CFG_PHY_ADDR]
  omega

theorem dataWritten_phyPort : phyPort (s.wr NET_MDIO_DATA_DATA v) (phy % 32) = phyPort s (phy % 32) := by
  refine phyPort_congr (fun i => rd_wr_ne s _ _ v ?_) _
  simp only [NET_CFG_PHY_ADDR, NET_MDIO_DATA_DATA]
  omega

/-- The frame of a command, whose report names `port`. -/
def cmdQueued (s : State) (port : Nat) (c45 : Bool) (op phy x : Nat) : State :=
  mdioQueue (cmdTaken s c45 op phy x) [⟨true, port, c45, op, phy % 32, x % 32, s.rd NET_MDIO_DATA_DATA, none⟩]

theorem mdioCmd_busy (hb : s.flag NET_MDIO_CMD_GO_BUSY = true) : mdioCmd s c45 op phy x = s := if_pos hb

theorem mdioCmd_idle (hb : s.flag NET_MDIO_CMD_GO_BUSY = false) (ho : op < 3) :
    mdioCmd s c45 op phy x = cmdQueued s (phyPort s (phy % 32)) c45 op phy x := by
  have hport : phyPort (cmdTaken s c45 op phy x) (phy % 32) = _ := cmdTaken_phyPort
  have hdata : (cmdTaken s c45 op phy x).rd NET_MDIO_DATA_DATA = _ := cmdTaken_rd _ (by decide)
  rw [cmdQueued, ← hport, ← hdata]
  exact (if_neg (ne_true_of_eq_false hb)).trans (if_neg (not_le_of_gt ho))

/-- The two writes of a frame that carries data: while the master is busy neither changes anything, else the frame waits with its data. -/
theorem mdioCmd_afterData (hc : s.lets p 0x214000) (hd : s.lets p 0x214004) (ho : op < 3) (w : Nat) :
    hostDo (mdioData (s.at t) p v) p 0x214000 w (mdioCmd · c45 op phy x) =
      if s.flag NET_MDIO_CMD_GO_BUSY then endRun (s.taken p t) p
      else cmdQueued (endRun ((s.taken p t).wr NET_MDIO_DATA_DATA v) p) (phyPort s (phy % 32)) c45 op phy x := by
  cases hb : s.flag NET_MDIO_CMD_GO_BUSY with
  | true =>
    rw [mdioData_busy hd hb, hostDo_pass w _ (show (s.taken p t).lets p 0x214000 from hc)]
    exact mdioCmd_busy (s := endRun (s.taken p t) p) hb
  | false =>
    have hidle : (endRun ((s.taken p t).wr NET_MDIO_DATA_DATA v) p).flag NET_MDIO_CMD_GO_BUSY = false :=
      (congrArg (fun n => decide (n ≠ 0)) (rd_wr_ne (s.taken p t) _ _ v (by decide))).trans hb
    rw [mdioData_idle hd hb, hostDo_pass w _ (lets_dataWritten hc)]
    exact (mdioCmd_idle hidle ho).trans (congrArg (cmdQueued _ · c45 op phy x) (dataWritten_phyPort (s := s.taken p t)))

theorem exec_mdioAddress_lets (hc : s.lets p 0x214000) (hd : s.lets p 0x214004) : exec (.mdioAddress p phy x v t) s = .next (hstSettle (
    if s.flag NET_MDIO_CMD_GO_BUSY then endRun (s.taken p t) p
    else cmdQueued (endRun ((s.taken p t).wr NET_MDIO_DATA_DATA v) p) (phyPort s (phy % 32)) true 0 phy x)) :=
  congrArg done (mdioCmd_afterData hc hd (by decide) _)

theorem exec_mdioWrite_lets (hc : s.lets p 0x214000) (hd : s.lets p 0x214004) : exec (.mdioWrite p c45 phy x v t) s = .next (hstSettle (
    if s.flag NET_MDIO_CMD_GO_BUSY then endRun (s.taken p t) p
    else cmdQueued (endRun ((s.taken p t).wr NET_MDIO_DATA_DATA v) p) (phyPort s (phy % 32)) c45 1 phy x)) :=
  congrArg done (mdioCmd_afterData hc hd (by decide) _)

theorem exec_mdioRead_lets (hc : s.lets p 0x214000) :
    exec (.mdioRead p c45 phy x t) s = .next (hstSettle (mdioCmd (s.taken p t) c45 2 phy x)) :=
  congrArg done (hostDo_lets s p 0x214000 _ t (mdioCmd · c45 2 phy x) hc)

end Commands

/-! ### The end of the frame on the wire (R333, R334) -/

section Done

variable {s : State} {o : MdioOp} {l : List MdioOp} {data v t : Nat} {noresp : Bool}

/-- The wire is free of its frame. -/
def mdioLeft (s : State) (l : List MdioOp) : State := { s with net := { s.net with mdio := l } }

/-- The frame is a read that nobody answered. -/
def readMissed (o : MdioOp) (noresp : Bool) : Bool := o.op == 2 && noresp

/-- A read that nobody answered is reported. -/
def missReported (s : State) (o : MdioOp) (noresp : Bool) : State := if readMissed o noresp then report s 0x0708 o.port else s

/-- The host's command is over. -/
def cmdOver (s : State) (miss : Bool) : State := s.wrs [(NET_MDIO_CMD_GO_BUSY, 0), (NET_MDIO_CMD_NORESP, if miss then 1 else 0)]

/-- The host's command ends with what was read. -/
def hostAnswered (s : State) (o : MdioOp) (data : Nat) (noresp : Bool) : State :=
  if o.op = 2 && !readMissed o noresp then (cmdOver s (readMissed o noresp)).wr NET_MDIO_DATA_DATA data
  else cmdOver s (readMissed o noresp)

/-- What was read back of an initialisation write is compared with what was written. -/
def initVerified (s : State) (o : MdioOp) (data : Nat) (noresp : Bool) : State :=
  match o.verify with
  | some v => if !readMissed o noresp && data % 65536 ≠ v then report s 0x0709 o.port else s
  | none => s

theorem exec_mdioDone_none (h : s.net.mdio = []) : exec (.mdioDone data noresp t) s = .next (hstSettle (s.at t)) := by
  have hat : (s.at t).net.mdio = [] := h
  refine congrArg done ?_
  simp only [hat]

theorem exec_mdioDone_host (h : s.net.mdio = o :: l) (ho : o.host = true) : exec (.mdioDone data noresp t) s =
    .next (hstSettle (mdioStart (hostAnswered (missReported (mdioLeft (s.at t) l) o noresp) o data noresp))) := by
  have hat : (s.at t).net.mdio = o :: l := h
  refine congrArg done ?_
  simp only [hat, ho, if_true]
  rfl

theorem exec_mdioDone_init (h : s.net.mdio = o :: l) (ho : o.host = false) : exec (.mdioDone data noresp t) s =
    .next (hstSettle (netTry (mdioStart (initVerified (missReported (mdioLeft (s.at t) l) o noresp) o data noresp)) o.port)) := by
  have hat : (s.at t).net.mdio = o :: l := h
  refine congrArg done ?_
  simp only [hat, ho, Bool.false_eq_true, if_false]
  rfl

theorem hostAnswered_read (ho : o.op = 2) (hn : noresp = false) :
    hostAnswered s o data noresp = (cmdOver s (readMissed o noresp)).wr NET_MDIO_DATA_DATA data :=
  if_pos (by simp [readMissed, ho, hn])

theorem hostAnswered_other (h : o.op ≠ 2 ∨ noresp = true) : hostAnswered s o data noresp = cmdOver s (readMissed o noresp) := by
  refine if_neg ?_
  rcases h with h | h <;> simp [readMissed, h]

theorem initVerified_differs (hv : o.verify = some v) (hm : readMissed o noresp = false) (hd : data % 65536 ≠ v) :
    initVerified s o data noresp = report s 0x0709 o.port := by
  simp only [initVerified, hv]
  exact if_pos (by simp [hm, hd])

theorem initVerified_agrees (hv : o.verify = some v) (h : readMissed o noresp = true ∨ data % 65536 = v) :
    initVerified s o data noresp = s := by
  simp only [initVerified, hv]
  refine if_neg ?_
  rcases h with h | h <;> simp [h]

theorem initVerified_none (hv : o.verify = none) : initVerified s o data noresp = s := by
  simp only [initVerified, hv]

end Done

/-- Settles O52: the host's commands by whether the master is busy, the end of a frame by whose it is and what it brought. -/
theorem mdioFramesAreRun : Obligations.MdioFramesAreRun := by
  unfold Obligations.MdioFramesAreRun
  refine ⟨?_, ?_⟩
  · intro s p c45 phy x v t hc hd S W D
    refine ⟨fun hb => ?_, fun hb => ?_⟩
    · exact ⟨exec_next_neg (exec_mdioAddress_lets hc hd) hb, exec_next_neg (exec_mdioWrite_lets hc hd) hb,
        (exec_mdioRead_lets hc).trans (congrArg done (mdioCmd_idle (s := S) hb (by decide)))⟩
    · exact ⟨(exec_mdioRead_lets hc).trans (congrArg done (mdioCmd_busy (s := S) hb)),
        exec_next_pos (exec_mdioAddress_lets hc hd) hb, exec_next_pos (exec_mdioWrite_lets hc hd) hb⟩
  · intro s data t v noresp o l S miss M H gives
    have answers (h : s.net.mdio = o :: l) (ho : o.host = true) {u : State} (hu : hostAnswered M o data noresp = u) : gives (mdioStart u) :=
      (exec_mdioDone_host h ho).trans (congrArg (fun u => done (mdioStart u)) hu)
    have verifies (h : s.net.mdio = o :: l) (ho : o.host = false) {u : State} (hu : initVerified M o data noresp = u) :
        gives (netTry (mdioStart u) o.port) :=
      (exec_mdioDone_init h ho).trans (congrArg (fun u => done (netTry (mdioStart u) o.port)) hu)
    exact ⟨exec_mdioDone_none,
      fun h ho => ⟨fun h2 hn => answers h ho (hostAnswered_read h2 hn), fun hn => answers h ho (hostAnswered_other hn)⟩,
      fun h ho => ⟨fun hv hm hd => verifies h ho (initVerified_differs hv hm hd), fun hv hn => verifies h ho (initVerified_agrees hv hn),
        fun hv => verifies h ho (initVerified_none hv)⟩⟩

end Sys2Proof.Proofs
end

section
/-! PROOFS. O55: the agreement deadline, the requests of RED_CTRL, the end of a resynchronisation's copy, and the power feeds. -/

namespace Sys2Proof.Proofs

open Sys2Proof Sys2Proof.Machine Sys2Proof.Laws

/-! ### The agreement deadline (R395) -/

/-- The member's own set of a cycle is whole. -/
def ownWhole (s : State) (c : Cyc) : Bool := (sampleBlock s c).isSome && (fieldBlock s c).isSome

/-- T0(n) + AGREE_DL has come. -/
def agreeDue (s : State) (c : Cyc) : Bool := dueAt s c (s.rd RED_CFG_AGREE_DL) ≤ s.tim.cnt

section Agreement

variable {s : State} {n : Nat} {c : Cyc}

theorem agreeTry_absent (hc : s.cyc? n = none) : agreeTry s n = s := by
  simp only [agreeTry, hc]

theorem agreeTry_agreed (hc : s.cyc? n = some c) (ha : c.run.agreed = true) : agreeTry s n = s := by
  simp only [agreeTry, hc, ha, if_true]

theorem agreeTry_open (hc : s.cyc? n = some c) (ha : c.run.agreed = false) : agreeTry s n =
    if partnerIn s n then
      if partWhole s n then (if ownWhole s c then settleAgree s n true false else s)
      else if dueAt s c (s.rd RED_CFG_AGREE_DL) ≤ s.tim.cnt then settleAgree s n false true else s
    else settleAgree s n false false := by
  simp only [agreeTry, hc, ha, Bool.false_eq_true, if_false, ite_bnot]
  rfl

variable (hc : s.cyc? n = some c) (ha : c.run.agreed = false)
include hc ha

theorem agreeTry_alone (hp : partnerIn s n = false) : agreeTry s n = settleAgree s n false false :=
  (agreeTry_open hc ha).trans (if_neg (ne_true_of_eq_false hp))

theorem agreeTry_full (hp : partnerIn s n = true) (hw : partWhole s n = true) (ho : ownWhole s c = true) :
    agreeTry s n = settleAgree s n true false :=
  (agreeTry_open hc ha).trans ((if_pos hp).trans ((if_pos hw).trans (if_pos ho)))

theorem agreeTry_solo (hp : partnerIn s n = true) (hw : partWhole s n = false) (hd : agreeDue s c = true) :
    agreeTry s n = settleAgree s n false true :=
  (agreeTry_open hc ha).trans ((if_pos hp).trans ((if_neg (ne_true_of_eq_false hw)).trans (if_pos (of_decide_eq_true hd))))

theorem agreeTry_waits (hp : partnerIn s n = true)
    (h : (partWhole s n = true ∧ ownWhole s c = false) ∨ (partWhole s n = false ∧ agreeDue s c = false)) : agreeTry s n = s := by
  refine (agreeTry_open hc ha).trans ((if_pos hp).trans ?_)
  rcases h with ⟨hw, ho⟩ | ⟨hw, hd⟩
  · exact (if_pos hw).trans (if_neg (ne_true_of_eq_false ho))
  · exact (if_neg (ne_true_of_eq_false hw)).trans (if_neg (of_decide_eq_false hd))

end Agreement

theorem exec_agreeDeadline {s u : State} {n t : Nat} (h : agreeTry (s.at t) n = u) : exec (.agreeDeadline n t) s = .next (hstSettle u) :=
  congrArg done h

/-! ### The requests of RED_CTRL (R403, R404, R411) -/

section Requests

variable {s : State} {p : Path} {t : Nat}

/-- A STANDBY member that is SYNCED, or that has no partner, may be promoted. -/
def mayPromote (s : State) : Bool := s.rd RED_STATUS_ROLE == 3 && (s.rd RED_STATUS_SYNC == 3 || s.flag RED_STATUS_NO_PARTNER)

/-- A LEAD or SECOND whose partner sends may stand down. -/
def mayStandDown (s : State) : Bool :=
  (s.rd RED_STATUS_ROLE == 1 || s.rd RED_STATUS_ROLE == 2) && s.flag RED_STATUS_PAIRED && s.flag RED_STATUS_PARTNER_OK && s.red.pSends

/-- A STANDBY member out of synchronisation, with the sequencer not IDLE, may begin an attempt. -/
def mayResync (s : State) : Bool := s.rd RED_STATUS_ROLE == 3 && s.rd RED_STATUS_SYNC == 0 && s.rd SEQ_STATUS_STATE != 0

/-- The attempts made so far are forgotten. -/
def attemptsCleared (s : State) : State := (s.rs fun r => { r with gaveUp := false }).wr RED_RESYNC_ATTEMPTS 0

theorem attemptsCleared_rd (g : Fld) (h : g.key ≠ RED_RESYNC_ATTEMPTS.key) : (attemptsCleared s).rd g = s.rd g :=
  rd_wr_ne (s.rs fun r => { r with gaveUp := false }) _ g 0 h

theorem redPromote_eq : redPromote s = if mayPromote s then s.rs fun r => { r with promote := true } else refuse s 0x0D0E := rfl

theorem redStandDown_eq : redStandDown s = if mayStandDown s then s.rs fun r => { r with standDown := true } else refuse s 0x0D0E := by
  rw [mayStandDown, Bool.and_assoc _ (s.flag RED_STATUS_PAIRED)]
  rfl

theorem redResync_eq : redResync s = if mayResync s then beginResync (attemptsCleared s) else attemptsCleared s := by
  rw [mayResync, ← attemptsCleared_rd (s := s) RED_STATUS_ROLE (by decide), ← attemptsCleared_rd (s := s) RED_STATUS_SYNC (by decide),
    ← attemptsCleared_rd (s := s) SEQ_STATUS_STATE (by decide)]
  simp only [redResync, attemptsCleared, Bool.and_eq_true, decide_eq_true_eq, beq_iff_eq, bne_iff_ne]

variable (h : s.lets p 0x270004)
include h

theorem exec_redPromote_lets : exec (.redPromote p t) s = .next (hstSettle (
    if mayPromote s then (s.taken p t).rs fun r => { r with promote := true } else refuse (s.taken p t) 0x0D0E)) :=
  congrArg done ((hostDo_lets s p 0x270004 1 t redPromote h).trans redPromote_eq)

theorem exec_redStandDown_lets : exec (.redStandDown p t) s = .next (hstSettle (
    if mayStandDown s then (s.taken p t).rs fun r => { r with standDown := true } else refuse (s.taken p t) 0x0D0E)) :=
  congrArg done ((hostDo_lets s p 0x270004 2 t redStandDown h).trans redStandDown_eq)

theorem exec_redResync_lets : exec (.redResync p t) s = .next (hstSettle (
    if mayResync s then beginResync (attemptsCleared (s.taken p t)) else attemptsCleared (s.taken p t))) :=
  congrArg done ((hostDo_lets s p 0x270004 8 t redResync h).trans redResync_eq)

theorem exec_clrFeed_lets : exec (.clrFeed p t) s = .next (hstSettle (clrFeed (s.taken p t))) :=
  congrArg done (hostDo_lets s p 0x270004 32 t clrFeed h)

end Requests

/-! ### The copy of a resynchronisation ends (R403) -/

section Resync

variable {s : State} {z : ResyncSt} {k : Ckpt} {t : Nat}

/-- A member copies its partner's state while its sequencer is not IDLE. -/
def resyncCopies (s : State) : Bool := s.rd RED_STATUS_SYNC == 1 && s.rd SEQ_STATUS_STATE != 0

/-- The checkpoint and the records copied are rebuilt; whole iterates allow warm starts. -/
def copyRebuilt (s : State) (z : ResyncSt) (k : Ckpt) : State :=
  let s := rebuild s k z.recs
  { s with alloc := { s.alloc with warm := !z.broken } }

/-- The cycle and the inputs of the last record copied. -/
def lastInput (z : ResyncSt) : Option (Nat × CycIn) := z.recs.getLast?.bind fun r => r.inp.map fun i => (r.n, i)

/-- The chain goes on from a cycle's inputs and their settings generations, unless a JOIN has fixed where. -/
def chainedFrom (s : State) (n : Nat) (i : CycIn) : State :=
  let s := { s with seq := { s.seq with gens := i.gens } }
  if s.pst.joinAt.isSome then s else chainFrom_ s n i.t0c

/-- The chain goes on from the last record copied. -/
def copyChained (s : State) (z : ResyncSt) : State :=
  match lastInput z with
  | some (n, i) => chainedFrom s n i
  | none => s

/-- The member joins agreement from the next T0. -/
def copyJoined (s : State) : State :=
  (fltResume s s.seq.nextN).wrs
    [(RED_STATUS_SYNC, 2), (RED_RESYNC_LAG, 0), (RED_RESYNC_CONFIRM, 0), (SEQ_STATUS_RESUMED, 1), (SEQ_STATUS_RESYNCED, 1)]

/-- The model looks for the last record and then for its inputs. -/
theorem copyChained_eq : copyChained s z =
    match z.recs.getLast? with
    | some r => match r.inp with
      | some i => chainedFrom s r.n i
      | none => s
    | none => s := by
  unfold copyChained lastInput
  cases z.recs.getLast? with
  | none => rfl
  | some r => cases hi : r.inp <;> simp only [Option.bind_some, hi, Option.map_some, Option.map_none]

theorem resyncCopies_refused : (decide (s.rd RED_STATUS_SYNC ≠ 1) || decide (s.rd SEQ_STATUS_STATE = 0)) = !resyncCopies s := by
  simp [resyncCopies, bne, beq_eq_decide]

/-- A member that has a checkpoint rebuilds it where it copies. -/
theorem exec_resyncCopyDone_ckpt (hz : s.red.resync = some z) (hk : z.ckpt = some k) : exec (.resyncCopyDone t) s = .next (hstSettle (
    if resyncCopies s then copyJoined (copyChained (copyRebuilt (s.at t) z k) z) else s.at t)) := by
  have hat : (s.at t).red.resync = some z := hz
  refine congrArg done ?_
  simp only [hat, hk]
  rw [copyChained_eq, ← ite_bnot (resyncCopies s), ← resyncCopies_refused]
  rfl

/-- Without a checkpoint there is nothing to rebuild. -/
theorem exec_resyncCopyDone_none (h : s.red.resync.bind ResyncSt.ckpt = none) : exec (.resyncCopyDone t) s = .next (hstSettle (s.at t)) := by
  refine congrArg done ?_
  cases hz : s.red.resync with
  | none => simp only [at_red, hz]
  | some z =>
    rw [hz, Option.bind_some] at h
    simp only [at_red, hz, h]

end Resync

/-! ### The fields of a feed (R409 to R412) -/

/-- A VAON input is good. -/
def vaonOk (x : Nat) : Fld := if x = 0 then RED_FEED_VAON_A_OK else RED_FEED_VAON_B_OK

/-- A main feed is lost. -/
def feedLost (x : Nat) : Fld := if x = 0 then RED_FEED_A_LOST else RED_FEED_B_LOST

/-- The other main feed is lost. -/
def feedOtherLost (x : Nat) : Fld := if x = 0 then RED_FEED_B_LOST else RED_FEED_A_LOST

/-- A main feed is selected. -/
def feedSel (x : Nat) : Fld := if x = 0 then RED_FEED_FEEDSEL_A else RED_FEED_FEEDSEL_B

/-- The losses of a main feed. -/
def feedLossCnt (x : Nat) : Fld := if x = 0 then RED_FEED_CNT_A_LOSS else RED_FEED_CNT_B_LOSS

/-- A main feed is in warning. -/
def feedWarn (x : Nat) : Fld := if x = 0 then RED_FEED_A_WARN else RED_FEED_B_WARN

/-- The loss of one feed says nothing of the other's. -/
theorem feedOtherLost_key (x : Nat) : (feedOtherLost x).key ≠ (feedLost x).key := by
  unfold feedOtherLost feedLost
  split <;> decide

theorem inWarning_eq (s : State) (x : Nat) : inWarning s x = (s.flag (feedWarn x) || s.flag (feedLost x)) := by
  unfold inWarning feedWarn feedLost
  split <;> rfl

/-! ### Both feeds in warning (R412) -/

section Gasp

variable {s : State}

/-- Both feeds are in warning. -/
def bothWarn (s : State) : Bool := inWarning s 0 && inWarning s 1

/-- The last gasp is counted. -/
def gaspCounted (s : State) : State := (s.incSat RED_FEED_CNT_LAST_GASP 255).rs fun r => { r with gasp := true }

/-- The marker of a last gasp. -/
def gaspMark (s : State) : JnlRec := ⟨s.rd SEQ_LAST_COMMIT_LAST_COMMIT, 5, 0, s.tim.cnt, imageTag s, none, none, none, 0, true, false⟩

/-- The marker goes into the NAND journal, and is reported. -/
def gaspMarked (s : State) (mark : JnlRec) : State :=
  report ({ s with jnl := { s.jnl with nand := mark :: s.jnl.nand } }.incWrap JNL_NAND_PTR_PTR) 0x0D18

theorem gaspCounted_rd (g : Fld) (h : g.key ≠ RED_FEED_CNT_LAST_GASP.key) : (gaspCounted s).rd g = s.rd g := rd_wr_ne s _ g _ h

theorem gaspCounted_asleep : asleep (gaspCounted s) = asleep s := by
  have hclk : (gaspCounted s).clk = s.clk := rfl
  rw [asleep, hclk, gaspCounted_rd _ (by decide), asleep]

theorem gaspCounted_nandOk : (gaspCounted s).flag JNL_STATUS_NAND_OK = s.flag JNL_STATUS_NAND_OK := by
  rw [State.flag, gaspCounted_rd _ (by decide), State.flag]

/-- Counting leaves what the marker says. -/
theorem gaspMark_counted : gaspMark (gaspCounted s) = gaspMark s := by
  have htim : (gaspCounted s).tim = s.tim := rfl
  simp only [gaspMark, imageTag, htim]
  rw [gaspCounted_rd _ (by decide), gaspCounted_rd _ (by decide), gaspCounted_rd _ (by decide)]

theorem lastGasp_stays (h : bothWarn s = false ∨ s.red.gasp = true) : lastGasp s = s := by
  refine if_pos ?_
  show (!bothWarn s || s.red.gasp) = true
  rcases h with h | h <;> simp [h]

/-- Both feeds in warning are counted once, and marked where a marker can be written. -/
theorem lastGasp_first (hb : bothWarn s = true) (hg : s.red.gasp = false) : lastGasp s =
    if asleep s || !s.flag JNL_STATUS_NAND_OK then gaspCounted s else gaspMarked (gaspCounted s) (gaspMark s) := by
  have hfirst : (!bothWarn s || s.red.gasp) = false := by rw [hb, hg]; rfl
  rw [← gaspCounted_asleep, ← gaspCounted_nandOk, ← gaspMark_counted]
  exact if_neg (ne_true_of_eq_false hfirst)

theorem lastGasp_unmarked (hb : bothWarn s = true) (hg : s.red.gasp = false) (h : asleep s = true ∨ s.flag JNL_STATUS_NAND_OK = false) :
    lastGasp s = gaspCounted s :=
  (lastGasp_first hb hg).trans (if_pos (by rcases h with h | h <;> simp [h]))

theorem lastGasp_marked (hb : bothWarn s = true) (hg : s.red.gasp = false) (ha : asleep s = false) (hn : s.flag JNL_STATUS_NAND_OK = true) :
    lastGasp s = gaspMarked (gaspCounted s) (gaspMark s) :=
  (lastGasp_first hb hg).trans (if_neg (by simp [ha, hn]))

end Gasp

/-! ### The feeds (R409 to R412) -/

section Feeds

variable {s : State} {x t : Nat} {on : Bool}

/-- A VAON input is lost. -/
def vaonDown (s : State) (x : Nat) : State := report ((s.wr (vaonOk x) 0).incSat RED_FEED_CNT_VAON_LOSS 255) 0x0D15 x

/-- A main feed is lost: the other is selected unless it is lost too. -/
def feedDown (s : State) (x : Nat) : State :=
  ((if s.flag (feedOtherLost x) then s.wr (feedLost x) 1 else (s.wr (feedLost x) 1).wr (feedSel x) 0).incSat (feedLossCnt x) 255).rs
    fun r => { r with down := setBit r.down x true }

/-- A main feed has returned: the next last gasp counts, and a device awake selects it. -/
def feedBack (s : State) (x : Nat) : State :=
  let u := s.rs fun r => { r with gasp := false, down := setBit r.down x false }
  if asleep s then u else u.wr (feedSel x) 1

theorem exec_vaonLoss (hx : x < 2) : exec (.vaonLoss x on t) s =
    .next (hstSettle (if on then vaonDown (s.at t) x else (s.at t).wr (vaonOk x) 1)) := by
  refine congrArg done ((if_neg (by omega)).trans ?_)
  cases on with
  | false => exact (if_neg Bool.false_ne_true).trans (if_neg Bool.false_ne_true).symm
  | true => exact (if_pos rfl).trans (if_pos rfl).symm

theorem exec_feedWarning (hx : x < 2) : exec (.feedWarning x on t) s =
    .next (hstSettle (lastGasp ((s.at t).wr (feedWarn x) (if on then 1 else 0)))) :=
  congrArg done (if_neg (by omega))

theorem exec_feedLoss (hx : x < 2) : exec (.feedLoss x on t) s =
    .next (hstSettle (if on then lastGasp (report (feedDown (s.at t) x) 0x0D16 x) else (s.at t).wr (feedLost x) 0)) := by
  refine congrArg done ((if_neg (by omega)).trans ?_)
  cases on with
  | false => rfl
  | true =>
    have hother : ((s.at t).wr (feedLost x) 1).flag (feedOtherLost x) = (s.at t).flag (feedOtherLost x) :=
      congrArg (fun n => decide (n ≠ 0)) (rd_wr_ne (s.at t) _ _ 1 (feedOtherLost_key x))
    rw [if_pos rfl, feedDown, ← hother]
    rfl

theorem exec_feedRestored (hx : x < 2) : exec (.feedRestored x t) s = .next (hstSettle (
    if s.flag (feedWarn x) || s.flag (feedLost x) then s.at t
    else if bit s.red.down x then report (feedBack (s.at t) x) 0x0D17 x else feedBack (s.at t) x)) := by
  have hknown : decide (1 < x) = false := decide_eq_false (by omega)
  have hwarn : inWarning (s.at t) x = (s.flag (feedWarn x) || s.flag (feedLost x)) := inWarning_eq (s.at t) x
  rw [← hwarn]
  refine congrArg done ?_
  simp only [hknown, Bool.false_or]
  rfl

theorem exec_feeds_unknown (hx : 1 < x) :
    exec (.vaonLoss x on t) s = .next (hstSettle (s.at t)) ∧ exec (.feedWarning x on t) s = .next (hstSettle (s.at t))
    ∧ exec (.feedLoss x on t) s = .next (hstSettle (s.at t)) ∧ exec (.feedRestored x t) s = .next (hstSettle (s.at t)) :=
  ⟨congrArg done (if_pos hx), congrArg done (if_pos hx), congrArg done (if_pos hx),
    congrArg done (if_pos (Bool.or_eq_true_iff.mpr (.inl (decide_eq_true hx))))⟩

end Feeds

/-- Settles O55: the deadline by what both members hold of the cycle, a request by whether it may be taken, the feeds by their fields. -/
theorem pairRequestsAndAgreement : Obligations.PairRequestsAndAgreement := by
  unfold Obligations.PairRequestsAndAgreement
  refine ⟨?_, ?_, ?_, ?_, ?_⟩
  · intro s n t c S gives due own
    refine ⟨fun h => ?_, fun hc ha => ?_⟩
    · rcases h with hc | ⟨hc, ha⟩
      · exact exec_agreeDeadline (agreeTry_absent hc)
      · exact exec_agreeDeadline (agreeTry_agreed hc ha)
    · exact ⟨fun hp => exec_agreeDeadline (agreeTry_alone hc ha hp), fun hp hw ho => exec_agreeDeadline (agreeTry_full hc ha hp hw ho),
        fun hp hw hd => exec_agreeDeadline (agreeTry_solo hc ha hp hw hd), fun hp hn => exec_agreeDeadline (agreeTry_waits hc ha hp hn)⟩
  · intro s p t h S up down again B
    exact ⟨exec_next_pos (exec_redPromote_lets h), exec_next_neg (exec_redPromote_lets h), exec_next_pos (exec_redStandDown_lets h),
      exec_next_neg (exec_redStandDown_lets h), exec_next_pos (exec_redResync_lets h), exec_next_neg (exec_redResync_lets h),
      exec_clrFeed_lets h⟩
  · intro s t z k R W C copying
    refine ⟨fun hz hk => exec_next_pos (exec_resyncCopyDone_ckpt hz hk), fun h => ?_⟩
    cases hb : s.red.resync.bind ResyncSt.ckpt with
    | none => exact exec_resyncCopyDone_none hb
    | some k =>
      obtain ⟨z, hz, hk⟩ := Option.bind_eq_some_iff.mp hb
      exact exec_next_neg (exec_resyncCopyDone_ckpt hz hk) (h.resolve_right (by simp [hb]))
  · intro s x t on S known vaon lost other sel cnt warn L D G F back
    refine ⟨fun hk => ?_, fun hk => exec_feeds_unknown (not_lt.mp (of_decide_eq_false hk))⟩
    have hx : x < 2 := of_decide_eq_true hk
    refine ⟨exec_next_pos (exec_vaonLoss hx), exec_next_neg (exec_vaonLoss hx), exec_feedWarning hx, exec_next_pos (exec_feedLoss hx),
      exec_next_neg (exec_feedLoss hx), fun h => exec_next_pos (exec_feedRestored hx) (Bool.or_eq_true_iff.mpr h), fun hw hl => ?_⟩
    exact exec_next_neg (exec_feedRestored hx) (Bool.or_eq_false_iff.mpr ⟨hw, hl⟩)
  · exact fun s => ⟨lastGasp_stays, lastGasp_unmarked, lastGasp_marked⟩

end Sys2Proof.Proofs
end

section
/-! PROOFS. O56: the Reserve's wake timer and WAKE_N, its mirror sessions, its rebuild without a partner, and SLEEP of RED_CTRL. -/

namespace Sys2Proof.Proofs

open Sys2Proof Sys2Proof.Machine Sys2Proof.Laws

/-! ### The wake timer, WAKE_N and activation (R405, R407) -/

section Wakes

variable {s : State} {t : Nat}

/-- A session that a wake timer finds still running is skipped, and counted. -/
def sessionSkipped (s : State) : State := (s.incSat RED_MIRROR_CNT_SKIPPED 0xFFFF).rs fun r => { r with skips := r.skips + 1 }

theorem exec_wakeN_asleep (h : asleep s = true) :
    exec (.wakeN t) s = .next (hstSettle ((s.at t).ck fun x => { x with wake := x.wake ||| 1 })) :=
  congrArg done (if_pos h)

theorem exec_wakeN_awake (h : asleep s = false) : exec (.wakeN t) s = .next (hstSettle (
    if s.red.mirror || !s.loaded then (s.at t).rs fun r => { r with wakeN := true } else activate (s.at t))) :=
  congrArg done (if_neg (ne_true_of_eq_false h))

theorem exec_reserveWakeTimer_asleep (h : asleep s = true) : exec (.reserveWakeTimer t) s = .next (hstSettle (
    if s.red.wakeI = 0 then s.at t else (s.at t).ck fun x => { x with wake := x.wake ||| 2 })) :=
  congrArg done (if_pos h)

theorem exec_reserveWakeTimer_awake (h : asleep s = false) : exec (.reserveWakeTimer t) s = .next (hstSettle (
    if s.red.mirror && decide (s.rd RED_MIRROR_CFG_MIRROR_I ≠ 0) then sessionSkipped (s.at t) else s.at t)) :=
  congrArg done (if_neg (ne_true_of_eq_false h))

theorem activate_stays (h : cascRole s ≠ 5 ∨ s.red.activated = true) : activate s = s :=
  if_pos (by rcases h with h | h <;> simp [h])

theorem activate_acts (hr : cascRole s = 5) (ha : s.red.activated = false) : activate s = reserveSeek (askMembers (report ((s.rs fun r =>
    { r with activated := true, mirror := false, wakeN := false, gaveUp := false }).wr RED_STATUS_ROLE 3) 0x0D11)) :=
  if_neg (by simp [hr, ha])

end Wakes

/-! ### A mirror session ends (R405, R407, R413) -/

section Mirror

variable {s u : State} {ok : Bool} {k : Ckpt} {t : Nat}

/-- The checkpoint received is programmed into the older slot, unless that failed or both feeds warn. -/
def mirrorKept (s : State) (ok : Bool) (k : Ckpt) : State :=
  if ok && !s.red.gasp then report ((nandCkPut s k).incWrap RED_MIRROR_CNT_SESSIONS) 0x0D0F else s

/-- The session is over: the Reserve is activated, or sleeps again. -/
def mirrorOver (u : State) (go : Bool) : State :=
  if go then activate (u.rs fun r => { r with mirror := false, resync := none })
  else reserveSleep (u.rs fun r => { r with mirror := false, resync := none })

/-- Programming the checkpoint leaves what decides on activation. -/
theorem mirrorKept_red : (mirrorKept s ok k).red.few = s.red.few ∧ (mirrorKept s ok k).red.wakeN = s.red.wakeN := by
  unfold mirrorKept
  split
  · rw [report_red]
    exact ⟨rfl, rfl⟩
  · exact ⟨rfl, rfl⟩

theorem exec_mirrorDone_none (hm : s.red.mirror = true) (hk : s.red.resync.bind ResyncSt.ckpt = none) :
    exec (.mirrorDone ok t) s = .next (hstSettle (mirrorOver (s.at t) (s.red.few || s.red.wakeN))) := by
  have hrun : ¬ (!(s.at t).red.mirror) = true := by simp [hm]
  have hat : ((s.at t).red.resync.bind fun x => x.ckpt) = none := hk
  refine congrArg done ((if_neg hrun).trans ?_)
  simp only [hat]
  rfl

theorem exec_mirrorDone_ckpt (hm : s.red.mirror = true) (hk : s.red.resync.bind ResyncSt.ckpt = some k) :
    exec (.mirrorDone ok t) s = .next (hstSettle (mirrorOver (mirrorKept (s.at t) ok k) (s.red.few || s.red.wakeN))) := by
  have hrun : ¬ (!(s.at t).red.mirror) = true := by simp [hm]
  have hat : ((s.at t).red.resync.bind fun x => x.ckpt) = some k := hk
  obtain ⟨hfew, hwake⟩ := mirrorKept_red (s := s.at t) (ok := ok) (k := k)
  rw [at_red] at hfew hwake
  rw [← hfew, ← hwake]
  refine congrArg done ((if_neg hrun).trans ?_)
  simp only [hat]
  rfl

theorem exec_mirrorDone_idle (hm : s.red.mirror = false) : exec (.mirrorDone ok t) s = .next (hstSettle (s.at t)) :=
  congrArg done (if_pos (by simp [hm]))

end Mirror

/-! ### The rebuild without a partner (R408) -/

section Alone

variable {s : State} {recs : List JnlRec} {t : Nat}

/-- 5 s have gone by since the first training. -/
def trainedLongAgo (s : State) : Bool := (s.red.since.map fun x => decide (x + 1250000000 ≤ s.tim.cnt)).getD false

/-- An activated Reserve has found no partner within 5 s, and has not given up looking or rebuilt already. -/
def goesAlone (s : State) : Bool :=
  trainedLongAgo s && s.red.activated && !s.flag RED_STATUS_PAIRED && !s.red.gaveUp && !s.flag RED_STATUS_NO_PARTNER

/-- The Reserve has rebuilt from its own checkpoint, and has no partner. -/
def aloneRebuilt (s : State) (recs : List JnlRec) : State :=
  report ((rebuildAlone (enterArming s) recs).wrs
    [(RED_STATUS_NO_PARTNER, 1), (RED_STATUS_ROLE, 3), (RED_STATUS_SYNC, 0), (SEQ_STATUS_RESUMED, 1)]) 0x0D13

/-- What keeps a Reserve whose ports have trained from rebuilding. -/
theorem goesAlone_refused {x : Nat} (hx : s.red.since = some x) :
    (!s.red.activated || s.flag RED_STATUS_PAIRED || s.red.gaveUp || s.flag RED_STATUS_NO_PARTNER || decide (s.tim.cnt < x + usTicks 5000000))
      = !goesAlone s := by
  have htime : decide (s.tim.cnt < x + usTicks 5000000) = !trainedLongAgo s := by
    rw [trainedLongAgo, hx, Option.map_some, Option.getD_some, ← decide_not]
    exact decide_eq_decide.mpr not_le.symm
  rw [htime, goesAlone]
  cases trainedLongAgo s <;> simp

theorem exec_noPartnerTimeout : exec (.noPartnerTimeout recs t) s =
    .next (hstSettle (if goesAlone (s.at t) then aloneRebuilt (s.at t) recs else s.at t)) := by
  refine congrArg done ?_
  cases hx : (s.at t).red.since with
  | none =>
    have hstays : goesAlone (s.at t) = false := by simp only [goesAlone, trainedLongAgo, hx]; rfl
    rw [hstays]
    rfl
  | some x =>
    rw [← ite_bnot (goesAlone (s.at t)), ← goesAlone_refused hx]
    rfl

end Alone

/-! ### SLEEP of RED_CTRL (R407, R469) -/

section Sleep

variable {s : State} {p : Path} {t : Nat}

/-- An activated Reserve that is not paired may sleep. -/
def mayRedSleep (s : State) : Bool := cascRole s = 5 && s.red.activated && !s.flag RED_STATUS_PAIRED

theorem redSleep_refused (h : mayRedSleep s = false) : redSleep s = refuse s 0x0D0E := if_pos (congrArg not h)

theorem redSleep_may (h : mayRedSleep s = true) : redSleep s =
    if s.rd RST_PWR_STS_STATE = 1 || s.rd RST_PWR_STS_STATE = 3 then reserveSleep s else pwrRefuse s :=
  if_neg (ne_true_of_eq_false (congrArg not h))

theorem reserveSleep_sleeps (h : (s.rd RST_PWR_STS_STATE = 1 || s.rd RST_PWR_STS_STATE = 3) = true) :
    reserveSleep s = sleepEnter (s.rs fun r => { r with activated := false }) :=
  if_pos h

theorem redSleep_sleeps (hm : mayRedSleep s = true) (h : s.rd RST_PWR_STS_STATE = 1 ∨ s.rd RST_PWR_STS_STATE = 3) :
    redSleep s = sleepEnter (s.rs fun r => { r with activated := false }) := by
  have hstate : (s.rd RST_PWR_STS_STATE = 1 || s.rd RST_PWR_STS_STATE = 3) = true :=
    Bool.or_eq_true_iff.mpr (h.imp decide_eq_true decide_eq_true)
  exact (redSleep_may hm).trans ((if_pos hstate).trans (reserveSleep_sleeps hstate))

theorem redSleep_awake (hm : mayRedSleep s = true) (h1 : s.rd RST_PWR_STS_STATE ≠ 1) (h3 : s.rd RST_PWR_STS_STATE ≠ 3) :
    redSleep s = pwrRefuse s :=
  (redSleep_may hm).trans (if_neg (by simp [h1, h3]))

theorem exec_redSleep_lets {u : State} (h : s.lets p 0x270004) (hu : redSleep (s.taken p t) = u) :
    exec (.redSleep p t) s = .next (hstSettle u) :=
  congrArg done ((hostDo_lets s p 0x270004 16 t redSleep h).trans hu)

end Sleep

/-- Settles O56: a wake by whether the device sleeps, the end of a session by the checkpoint it received, the rebuild by its 5 s. -/
theorem reserveSessionsAndActivation : Obligations.ReserveSessionsAndActivation := by
  unfold Obligations.ReserveSessionsAndActivation
  refine ⟨?_, ?_, ?_, ?_⟩
  · intro s t S
    refine ⟨exec_wakeN_asleep, fun ha hw => ?_, fun ha hm hi => ?_, fun h => ?_, fun ha h => ?_, fun ha hm hl => ?_, activate_stays,
      activate_acts⟩
    · exact (exec_reserveWakeTimer_asleep ha).trans (congrArg done (if_neg hw))
    · exact exec_next_pos (exec_reserveWakeTimer_awake ha) (Bool.and_eq_true_iff.mpr ⟨hm, decide_eq_true hi⟩)
    · rcases h with ⟨ha, hw⟩ | ⟨ha, h⟩
      · exact (exec_reserveWakeTimer_asleep ha).trans (congrArg done (if_pos hw))
      · exact exec_next_neg (exec_reserveWakeTimer_awake ha) (by rcases h with h | h <;> simp [h])
    · exact exec_next_pos (exec_wakeN_awake ha) (by rcases h with h | h <;> simp [h])
    · exact exec_next_neg (exec_wakeN_awake ha) (by simp [hm, hl])
  · exact fun s t ok k => ⟨exec_mirrorDone_ckpt, exec_mirrorDone_none, exec_mirrorDone_idle⟩
  · exact fun s recs t => ⟨exec_next_pos exec_noPartnerTimeout, exec_next_neg exec_noPartnerTimeout⟩
  · intro s p t h may pw
    exact ⟨fun hm => exec_redSleep_lets h (redSleep_refused hm), fun hm hp => exec_redSleep_lets h (redSleep_sleeps hm hp),
      fun hm h1 h3 => exec_redSleep_lets h (redSleep_awake hm h1 h3)⟩

end Sys2Proof.Proofs
end

section
/-! PROOFS. O18: HELLO on a powered port, and the notices of other devices. -/

namespace Sys2Proof.Proofs

open Sys2Proof Sys2Proof.Machine Sys2Proof.Laws

/-- A frame's sender is the partner of a member of a pair. -/
def fromPartner (s : State) (h : PstHdr) : Bool := isPair s && h.src = partnerAddr s

theorem fromPartner_true {s : State} {h : PstHdr} (hp : isPair s = true) (hsrc : h.src = partnerAddr s) : fromPartner s h = true :=
  Bool.and_eq_true_iff.mpr ⟨hp, decide_eq_true hsrc⟩

theorem fromPartner_false {s : State} {h : PstHdr} (hn : isPair s = false ∨ h.src ≠ partnerAddr s) : fromPartner s h = false :=
  Bool.and_eq_false_iff.mpr (hn.imp_right decide_eq_false)

/-! ### HELLO (R391, R417, R418) -/

section Hello

variable {s : State} {h : PstHdr} {d : HelloData} {t : Nat}

/-- The peer, its address and its versions are recorded at the port. -/
def peerRecorded (s : State) (h : PstHdr) (d : HelloData) : State :=
  updPst (s.wrs [(PST_PORT_STS_PEER_ADDR h.port, h.src), (PST_PORT_VER_PEER_MAJOR h.port, ((settleVer d.offers d.offers).map (·.1)).getD 0),
    (PST_PORT_VER_PEER_MINOR h.port, ((settleVer d.offers d.offers).map (·.2)).getD 0)]) h.port
    fun x => { x with peer := some d, helloAt := s.tim.cnt }

/-- The master strikes a device that names the change as applied from PST_OOS. -/
def oosStruck (s : State) (h : PstHdr) (d : HelloData) : State :=
  if isMaster s && d.applied = some (s.rd PST_MC_STS_ID) && bit (s.rd (PST_OOS_OOS (h.src / 32))) (h.src % 32) then
    oosCount (s.wrBit (PST_OOS_OOS (h.src / 32)) (h.src % 32) false)
  else s

/-- What every HELLO does: the peer is recorded and checked, and a Reserve seeks its partner. -/
def helloNoted (s : State) (h : PstHdr) (d : HelloData) : State :=
  reserveSeek (oosStruck (helloChecks (peerRecorded s h d) h.port h.src d) h d)

/-- A LEAD that no longer sends leaves LEAD to a sending SECOND. -/
def leadLeft (s : State) (d : HelloData) : State :=
  if s.rd RED_STATUS_ROLE = 2 && s.red.pSends && !d.sends then s.rs fun r => { r with leadNext := true } else s

/-- The port carries every frame. -/
def helloUp (s : State) (h : PstHdr) : Bool := 3 ≤ s.rd (PST_PORT_STS_STATE h.port)

/-- The partner's HELLO compares tags over a trained port, and is noted over another; `first` says that its tag is new. -/
def partnerHello (s : State) (h : PstHdr) (d : HelloData) (first : Bool) : State :=
  if helloUp s h then pairCheck (leadLeft s d) d first
  else (leadLeft s d).rs fun r => { r with pState := d.state, pSends := d.sends }

/-- HELLO is taken on a port that is powered, by a device of the cascade or one that waits for its image over Piste. -/
def takesHello (s : State) (h : PstHdr) : Bool :=
  (cascRole s ≠ 0 || bootTarget s) && h.port ≤ 1 && s.rd (PST_PORT_STS_STATE h.port) ≠ 0

/-- The port's peer had another tag, or there was none. -/
def newTag (s : State) (h : PstHdr) (d : HelloData) : Bool := ((s.pport h.port).peer.map (·.tag)) ≠ some d.tag

theorem takesHello_refused :
    (decide (cascRole s = 0) && !bootTarget s || decide (1 < h.port) || decide (s.rd (PST_PORT_STS_STATE h.port) = 0)) = !takesHello s h := by
  simp only [takesHello, Bool.not_and, Bool.not_or, ne_eq, ← not_lt, decide_not, Bool.not_not]

theorem exec_hello : exec (.hello h d t) s = .next (hstSettle (
    if takesHello s h then
      if fromPartner (helloNoted (s.at t) h d) h then partnerHello (helloNoted (s.at t) h d) h d (newTag s h d) else helloNoted (s.at t) h d
    else s.at t)) := by
  rw [← ite_bnot (takesHello s h), ← takesHello_refused]
  rfl

theorem exec_hello_taken (ht : takesHello s h = true) : exec (.hello h d t) s = .next (hstSettle (
    if fromPartner (helloNoted (s.at t) h d) h then partnerHello (helloNoted (s.at t) h d) h d (newTag s h d) else helloNoted (s.at t) h d)) :=
  exec_next_pos exec_hello ht

theorem exec_hello_ignored (h0 : (cascRole s = 0 ∧ bootTarget s = false) ∨ 1 < h.port ∨ s.rd (PST_PORT_STS_STATE h.port) = 0) :
    exec (.hello h d t) s = .next (hstSettle (s.at t)) := by
  refine exec_next_neg exec_hello ?_
  rw [← Bool.not_eq_true', ← takesHello_refused]
  simpa [or_assoc] using h0

theorem takesHello_true (hr : cascRole s ≠ 0 ∨ bootTarget s = true) (hp : h.port ≤ 1) (hs : s.rd (PST_PORT_STS_STATE h.port) ≠ 0) :
    takesHello s h = true := by
  simpa [takesHello, hp, hs] using hr

end Hello

/-! ### Notices (R428, R441) -/

section Notices

variable {s : State} {h : PstHdr} {t : Nat}

/-- The partner no longer sends: a sending SECOND becomes LEAD at the next commit. -/
def partnerQuiet (s : State) : State :=
  (if s.rd RED_STATUS_ROLE = 2 && s.red.pSends then s.rs fun r => { r with leadNext := true } else s).rs fun r => { r with pSends := false }

/-- The master is lost, and has no backup. -/
def masterGone (s : State) : State := devUnvoted (report ((s.ps fun x => { x with masterLost := true }).wr PST_STATUS_MASTER_OK 0) 0x0E0B)

variable (hh : s.hears h 2 = true)
include hh

theorem exec_noticeFailSilent : exec (.noticeFailSilent h t) s = .next (hstSettle (
    if fromPartner ((s.at t).heard h 2) h then partnerLost ((s.at t).heard h 2) else (s.at t).heard h 2)) :=
  congrArg done (pstTake_hears t _ hh)

theorem exec_noticeOutOfStep : exec (.noticeOutOfStep h t) s = .next (hstSettle (
    if fromPartner ((s.at t).heard h 2) h then partnerQuiet ((s.at t).heard h 2) else (s.at t).heard h 2)) :=
  congrArg done (pstTake_hears t _ hh)

theorem exec_noticeActingMaster : exec (.noticeActingMaster h t) s = .next (hstSettle (
    devUnvoted (((s.at t).heard h 2).ps fun x => { x with backup := some h.src, masterLost := false }))) :=
  congrArg done (pstTake_hears t _ hh)

theorem exec_noticeMasterLost : exec (.noticeMasterLost h t) s = .next (hstSettle (
    if ((s.at t).heard h 2).pst.masterLost || isMaster ((s.at t).heard h 2) then (s.at t).heard h 2
    else masterGone ((s.at t).heard h 2))) :=
  congrArg done (pstTake_hears t _ hh)

end Notices

/-- Settles O18: HELLO by the port it comes on and by whose it is, a notice by its sender. -/
theorem helloAndNoticesAct : Obligations.HelloAndNoticesAct := by
  unfold Obligations.HelloAndNoticesAct
  refine ⟨?_, ?_, ?_, ?_⟩
  · intro s h d t top s1 s2 s3 s4 s5
    refine ⟨fun hr hp hs => ?_, exec_hello_ignored⟩
    have taken := exec_hello_taken (d := d) (t := t) (takesHello_true hr hp hs)
    refine ⟨fun hn => exec_next_neg taken (fromPartner_false hn), fun hpair hsrc => ?_⟩
    have partner := exec_next_pos taken (fromPartner_true hpair hsrc)
    refine ⟨fun hlow => partner.trans (congrArg done ?_), fun hup => partner.trans (congrArg done (if_pos (decide_eq_true hup)))⟩
    exact if_neg (ne_true_of_eq_false (decide_eq_false (not_le_of_gt hlow)))
  · intro s h t hh s0 s1
    refine ⟨fun hp hsrc => ?_, fun hn => ?_⟩
    · exact ⟨exec_next_pos (exec_noticeFailSilent hh) (fromPartner_true hp hsrc),
        exec_next_pos (exec_noticeOutOfStep hh) (fromPartner_true hp hsrc)⟩
    · exact ⟨exec_next_neg (exec_noticeFailSilent hh) (fromPartner_false hn),
        exec_next_neg (exec_noticeOutOfStep hh) (fromPartner_false hn)⟩
  · exact fun s h t hh => exec_noticeActingMaster hh
  · intro s h t hh s0
    exact ⟨fun hl hm => exec_next_neg (exec_noticeMasterLost hh) (Bool.or_eq_false_iff.mpr ⟨hl, hm⟩),
      fun hn => exec_next_pos (exec_noticeMasterLost hh) (Bool.or_eq_true_iff.mpr hn)⟩

end Sys2Proof.Proofs
end

section
/-! PROOFS. O3: every command ends by bringing the interrupts up to date, and after that they agree with their sources (R537 to R540). -/

namespace Sys2Proof.Proofs

open Sys2Proof Sys2Proof.Machine Sys2Proof.Laws

/-! ### Bits of a number -/

theorem bit_eq_testBit (n i : Nat) : bit n i = n.testBit i := Nat.testBit_eq_decide_div_mod_eq.symm

/-- Adding a power of two to a number whose bit there is 0 sets that bit alone. -/
theorem bit_add_two_pow {n i : Nat} (j : Nat) (h : bit n i = false) : bit (n + 2 ^ i) j = if j = i then true else bit n j := by
  have hclear : n.testBit i = false := by rw [← bit_eq_testBit, h]
  rw [bit_eq_testBit, bit_eq_testBit, Nat.add_comm]
  rcases lt_trichotomy j i with hlt | rfl | hgt
  · rw [if_neg hlt.ne, Nat.testBit_two_pow_add_gt hlt]
  · rw [if_pos rfl, Nat.testBit_two_pow_add_eq, hclear, Bool.not_false]
  · have heven : n / 2 ^ i % 2 = 0 := by
      rw [Nat.testBit_eq_decide_div_mod_eq] at hclear
      have := of_decide_eq_false hclear
      omega
    have hhalf : (2 ^ i + n) / 2 ^ (i + 1) = n / 2 ^ (i + 1) := by
      rw [pow_succ, ← Nat.div_div_eq_div_mul, ← Nat.div_div_eq_div_mul, Nat.add_div_left n (Nat.two_pow_pos i)]
      omega
    have hsplit : 2 ^ j = 2 ^ (i + 1) * 2 ^ (j - (i + 1)) := by rw [← pow_add]; congr 1; omega
    rw [if_neg hgt.ne', Nat.testBit_eq_decide_div_mod_eq, Nat.testBit_eq_decide_div_mod_eq, hsplit, ← Nat.div_div_eq_div_mul,
      ← Nat.div_div_eq_div_mul, hhalf]

theorem bit_setBit (n i j : Nat) (b : Bool) : bit (setBit n i b) j = if j = i then b else bit n j := by
  unfold setBit
  split
  next hb =>
    split
    next hj => rw [hj, hb]
    next => rfl
  next hb =>
    cases b with
    | true => exact bit_add_two_pow j (eq_false_of_ne_true hb)
    | false =>
      have hset : bit n i = true := by simpa using hb
      have hle : 2 ^ i ≤ n := Nat.ge_two_pow_of_testBit ((bit_eq_testBit n i).symm.trans hset)
      have hback : n - 2 ^ i + 2 ^ i = n := Nat.sub_add_cancel hle
      have hclear : bit (n - 2 ^ i) i = false := by
        have hflip := Nat.testBit_two_pow_add_eq (n - 2 ^ i) i
        rw [Nat.add_comm, hback, ← bit_eq_testBit, ← bit_eq_testBit, hset] at hflip
        simpa using hflip
      rw [if_neg Bool.false_ne_true]
      have hadd := bit_add_two_pow j hclear
      rw [hback] at hadd
      split
      next hj => rw [hj, hclear]
      next hj => rw [hadd, if_neg hj]

theorem setBit_same {n i : Nat} {b : Bool} (h : bit n i = b) : setBit n i b = n := if_pos h

theorem bit_mod_two_pow (n w i : Nat) : bit (n % 2 ^ w) i = (decide (i < w) && bit n i) := by
  rw [bit_eq_testBit, bit_eq_testBit, Nat.testBit_mod_two_pow]

/-- Every bit of the first number is a bit of the second. -/
def bitsWithin (m n : Nat) : Prop := ∀ v, bit m v = true → bit n v = true

theorem bitsWithin_and (m n : Nat) : bitsWithin (m &&& n) n := by
  intro v h
  rw [bit_eq_testBit, Nat.testBit_and, Bool.and_eq_true] at h
  rw [bit_eq_testBit, h.2]

theorem bitsWithin_mod {m n : Nat} (w : Nat) (h : bitsWithin m n) : bitsWithin (m % 2 ^ w) n := by
  intro v hv
  rw [bit_mod_two_pow, Bool.and_eq_true] at hv
  exact h v hv.2

theorem bitsWithin_setBit {m n i : Nat} (b : Bool) (h : bitsWithin m n) (hi : bit n i = true) : bitsWithin (setBit m i b) n := by
  intro v hv
  rw [bit_setBit] at hv
  split at hv
  next hvi => rw [hvi, hi]
  next => exact h v hv

/-! ### The pending set (R537) -/

/-- The pending set as the registers latch it. -/
def latched (s : State) : Nat := s.rd HST_SRC_PEND_LO_PEND + 2 ^ 32 * s.rd HST_SRC_PEND_HI_PEND

/-- One source brought up to date in a pending set. -/
def pendOne (s : State) (p n : Nat) : Nat :=
  match levelSrc s n with
  | some b => setBit p n b
  | none => p

theorem pendSet_eq (s : State) : pendSet s = (List.range 39).foldl (pendOne s) (latched s) := rfl

theorem pendOne_level {s : State} {n : Nat} {b : Bool} (p : Nat) (h : levelSrc s n = some b) : pendOne s p n = setBit p n b := by
  simp only [pendOne, h]

theorem pendOne_edge {s : State} {n : Nat} (p : Nat) (h : levelSrc s n = none) : pendOne s p n = p := by
  simp only [pendOne, h]

theorem bit_pendOne_ne (s : State) {n m : Nat} (p : Nat) (hm : m ≠ n) : bit (pendOne s p n) m = bit p m := by
  cases h : levelSrc s n with
  | none => rw [pendOne_edge p h]
  | some b => rw [pendOne_level p h, bit_setBit, if_neg hm]

theorem bit_foldl_pendOne_notMem (s : State) {l : List Nat} {m : Nat} (p : Nat) (hm : m ∉ l) : bit (l.foldl (pendOne s) p) m = bit p m := by
  induction l generalizing p with
  | nil => rfl
  | cons n r ih =>
    obtain ⟨hn, hr⟩ := not_or.mp (mt List.mem_cons.mpr hm)
    rw [List.foldl_cons, ih _ hr, bit_pendOne_ne s p hn]

/-- A level source reads as its block has it. -/
theorem bit_foldl_pendOne_level {s : State} {l : List Nat} {m : Nat} {b : Bool} (p : Nat) (hm : m ∈ l) (hl : levelSrc s m = some b) :
    bit (l.foldl (pendOne s) p) m = b := by
  induction l generalizing p with
  | nil => exact absurd hm List.not_mem_nil
  | cons n r ih =>
    rw [List.foldl_cons]
    by_cases hr : m ∈ r
    · exact ih _ hr
    · obtain rfl : m = n := (List.mem_cons.mp hm).resolve_right hr
      rw [bit_foldl_pendOne_notMem s _ hr, pendOne_level p hl, bit_setBit, if_pos rfl]

/-- A pending set that shows every level source as its block has it stays as it is. -/
theorem foldl_pendOne_fixed {s : State} {l : List Nat} {p : Nat} (h : ∀ n ∈ l, ∀ b, levelSrc s n = some b → bit p n = b) :
    l.foldl (pendOne s) p = p := by
  induction l with
  | nil => rfl
  | cons n r ih =>
    have hstep : pendOne s p n = p := by
      cases hl : levelSrc s n with
      | none => exact pendOne_edge p hl
      | some b => rw [pendOne_level p hl, setBit_same (h n List.mem_cons_self b hl)]
    rw [List.foldl_cons, hstep, ih fun m hm => h m (List.mem_cons_of_mem n hm)]

theorem bit_pendSet_level {s : State} {n : Nat} {b : Bool} (hn : n < 39) (hl : levelSrc s n = some b) : bit (pendSet s) n = b :=
  bit_foldl_pendOne_level _ (List.mem_range.mpr hn) hl

/-! ### The vectors and balls depend on the routes and the pending set alone (R538, R540) -/

theorem any_congr_mem {α : Type} {l : List α} {f g : α → Bool} (h : ∀ a ∈ l, f a = g a) : l.any f = l.any g := by
  rw [Bool.eq_iff_iff, List.any_eq_true, List.any_eq_true]
  exact exists_congr fun a => and_congr_right fun ha => by rw [h a ha]

section Routed

variable {s t : State} {p q : Nat} (hen : ∀ n < 39, t.rd (HST_SRC_ROUTE_EN n) = s.rd (HST_SRC_ROUTE_EN n)) (hpq : ∀ n < 39, bit q n = bit p n)
include hen hpq

/-- A source is pending and enabled in the one state as in the other. -/
theorem routed_congr {n : Nat} (hn : n < 39) : (bit q n && t.flag (HST_SRC_ROUTE_EN n)) = (bit p n && s.flag (HST_SRC_ROUTE_EN n)) := by
  simp only [State.flag, hen n hn, hpq n hn]

theorem vecSet_congr (hv : ∀ n < 39, t.rd (HST_SRC_ROUTE_VECTOR n) = s.rd (HST_SRC_ROUTE_VECTOR n)) : vecSet t q = vecSet s p := by
  refine List.foldl_ext _ _ _ fun a n hn => ?_
  have hlt := List.mem_range.mp hn
  rw [routed_congr hen hpq hlt, hv n hlt]

theorem irqLow_congr (k : Nat) (hi : ∀ n < 39, t.rd (HST_SRC_ROUTE_IRQ n) = s.rd (HST_SRC_ROUTE_IRQ n)) : irqLow t q k = irqLow s p k := by
  refine any_congr_mem fun n hn => ?_
  have hlt := List.mem_range.mp hn
  rw [routed_congr hen hpq hlt, hi n hlt]

end Routed

/-! ### What bringing the interrupts up to date leaves and writes -/

section Settled

variable (s : State) {n : Nat}

/-- The blocks' registers lie below the pending sources. -/
theorem settle_rd_block (g : Fld) (h : g.key < HST_SRC_PEND_LO_PEND.key) : (hstSettle s).rd g = s.rd g := by
  refine settle_rd s g ?_
  simp only [settleKeys, HST_SRC_PEND_LO_PEND, HST_SRC_PEND_HI_PEND, HST_VEC_STS_ASSERTED, HST_MSIX_PBA_PBA, List.mem_cons, List.not_mem_nil,
    or_false, not_or] at h ⊢
  omega

/-- The routes lie between the asserted vectors and the PBA. -/
theorem settle_rd_route (g : Fld) (h : HST_VEC_STS_ASSERTED.key < g.key) (h' : g.key < (HST_MSIX_PBA_PBA 0).key) :
    (hstSettle s).rd g = s.rd g := by
  refine settle_rd s g ?_
  simp only [settleKeys, HST_SRC_PEND_LO_PEND, HST_SRC_PEND_HI_PEND, HST_VEC_STS_ASSERTED, HST_MSIX_PBA_PBA, List.mem_cons, List.not_mem_nil,
    or_false, not_or] at h h' ⊢
  omega

theorem settle_routeEn (hn : n < 39) : (hstSettle s).rd (HST_SRC_ROUTE_EN n) = s.rd (HST_SRC_ROUTE_EN n) :=
  settle_rd_route s _ (by simp only [HST_SRC_ROUTE_EN, HST_VEC_STS_ASSERTED]; omega) (by simp only [HST_SRC_ROUTE_EN, HST_MSIX_PBA_PBA]; omega)

theorem settle_routeVector (hn : n < 39) : (hstSettle s).rd (HST_SRC_ROUTE_VECTOR n) = s.rd (HST_SRC_ROUTE_VECTOR n) :=
  settle_rd_route s _ (by simp only [HST_SRC_ROUTE_VECTOR, HST_VEC_STS_ASSERTED]; omega)
    (by simp only [HST_SRC_ROUTE_VECTOR, HST_MSIX_PBA_PBA]; omega)

theorem settle_routeIrq (hn : n < 39) : (hstSettle s).rd (HST_SRC_ROUTE_IRQ n) = s.rd (HST_SRC_ROUTE_IRQ n) :=
  settle_rd_route s _ (by simp only [HST_SRC_ROUTE_IRQ, HST_VEC_STS_ASSERTED]; omega) (by simp only [HST_SRC_ROUTE_IRQ, HST_MSIX_PBA_PBA]; omega)

/-- The level sources are what their blocks' registers say. -/
theorem settle_levelSrc : levelSrc (hstSettle s) n = levelSrc s n := by
  unfold levelSrc
  refine ite_congr rfl (fun _ => congrArg some (any_congr_mem fun i hi => ?_)) fun _ => ite_congr rfl (fun hc => congrArg some ?_) fun _ =>
    ite_congr rfl (fun hc => congrArg some ?_) fun _ => ite_congr rfl (fun _ => congrArg some (any_congr_mem fun i hi => ?_)) fun _ =>
    ite_congr rfl (fun _ => congrArg some ?_) fun _ => ite_congr rfl (fun _ => congrArg some ?_) fun _ => rfl
  case refine_1 =>
    have hlt := List.mem_range.mp hi
    rw [settle_rd_block s (FLT_EVT_EVT i) (by simp only [FLT_EVT_EVT, HST_SRC_PEND_LO_PEND]; omega),
      settle_rd_block s (FLT_EVT_EN_EN i) (by simp only [FLT_EVT_EN_EN, HST_SRC_PEND_LO_PEND]; omega)]
  case refine_2 =>
    rw [settle_rd_block s (CAN_EVT_EVT _) (by simp only [CAN_EVT_EVT, HST_SRC_PEND_LO_PEND]; omega),
      settle_rd_block s (CAN_EVT_EN_EN _) (by simp only [CAN_EVT_EN_EN, HST_SRC_PEND_LO_PEND]; omega)]
  case refine_3 => rw [settle_rd_block s (CAN_RXQ_STS_FILL _ _) (by simp only [CAN_RXQ_STS_FILL, HST_SRC_PEND_LO_PEND]; omega)]
  case refine_4 =>
    have hlt := List.mem_range.mp hi
    rw [settle_rd_block s (FLD_EVT_EVT i) (by simp only [FLD_EVT_EVT, HST_SRC_PEND_LO_PEND]; omega),
      settle_rd_block s (FLD_EVT_EN_EN i) (by simp only [FLD_EVT_EN_EN, HST_SRC_PEND_LO_PEND]; omega)]
  case refine_5 =>
    simp only [State.flag, settle_rd_block s SAF_EVT_INTERNAL (by decide), settle_rd_block s SAF_EVT_EN_INTERNAL (by decide),
      settle_rd_block s SAF_EVT_RESET_DONE (by decide), settle_rd_block s SAF_EVT_EN_RESET_DONE (by decide),
      settle_rd_block s SAF_EVT_FAULT (by decide), settle_rd_block s SAF_EVT_EN_FAULT (by decide),
      settle_rd_block s SAF_EVT_TRIP (by decide), settle_rd_block s SAF_EVT_EN_TRIP (by decide)]
  case refine_6 =>
    simp only [State.flag, settle_rd_block s REC_EVT_LOG_HALF (by decide), settle_rd_block s REC_EVT_EN_LOG_HALF (by decide),
      settle_rd_block s REC_EVT_LOG_FULL (by decide), settle_rd_block s REC_EVT_EN_LOG_FULL (by decide),
      settle_rd_block s REC_EVT_FREEZE_DONE (by decide), settle_rd_block s REC_EVT_EN_FREEZE_DONE (by decide)]

/-- The state with the sources and the asserted vectors written. -/
def shown (s : State) : State :=
  s.wrs [(HST_SRC_PEND_LO_PEND, pendSet s), (HST_SRC_PEND_HI_PEND, pendSet s / 2 ^ 32), (HST_VEC_STS_ASSERTED, vecSet s (pendSet s))]

/-- Of all registers the settling writes only the PBA besides those. -/
theorem settle_rd_shown (g : Fld) (h : g.key ≠ (HST_MSIX_PBA_PBA 0).key) : (hstSettle s).rd g = (shown s).rd g :=
  (settleSend_rd _ _ _ _ h).trans (rd_wr_ne _ _ _ _ h)

theorem settle_pendLo : (hstSettle s).rd HST_SRC_PEND_LO_PEND = pendSet s % 2 ^ 32 :=
  (settle_rd_shown s _ (by decide)).trans ((rd_wr_ne _ HST_VEC_STS_ASSERTED HST_SRC_PEND_LO_PEND _ (by decide)).trans
    ((rd_wr_ne _ HST_SRC_PEND_HI_PEND HST_SRC_PEND_LO_PEND _ (by decide)).trans (rd_wr_same _ HST_SRC_PEND_LO_PEND _ (by decide))))

theorem settle_pendHi : (hstSettle s).rd HST_SRC_PEND_HI_PEND = pendSet s / 2 ^ 32 % 2 ^ 7 :=
  (settle_rd_shown s _ (by decide)).trans ((rd_wr_ne _ HST_VEC_STS_ASSERTED HST_SRC_PEND_HI_PEND _ (by decide)).trans
    (rd_wr_same _ HST_SRC_PEND_HI_PEND _ (by decide)))

theorem settle_asserted : (hstSettle s).rd HST_VEC_STS_ASSERTED = vecSet s (pendSet s) % 2 ^ 32 :=
  (settle_rd_shown s _ (by decide)).trans (rd_wr_same _ HST_VEC_STS_ASSERTED _ (by decide))

theorem settle_latched : latched (hstSettle s) = pendSet s % 2 ^ 39 := by
  rw [latched, settle_pendLo, settle_pendHi]
  omega

/-- After the settling the pending set is what the registers latch. -/
theorem settle_pendSet : pendSet (hstSettle s) = pendSet s % 2 ^ 39 := by
  rw [pendSet_eq (hstSettle s), settle_latched]
  refine foldl_pendOne_fixed fun n hn b hl => ?_
  have hlt := List.mem_range.mp hn
  rw [bit_mod_two_pow, decide_eq_true hlt, Bool.true_and]
  exact bit_pendSet_level hlt ((settle_levelSrc s).symm.trans hl)

theorem bit_settle_pendSet (hn : n < 39) : bit (pendSet (hstSettle s)) n = bit (pendSet s) n := by
  rw [settle_pendSet, bit_mod_two_pow, decide_eq_true hn, Bool.true_and]

theorem settle_vecSet : vecSet (hstSettle s) (pendSet (hstSettle s)) = vecSet s (pendSet s) :=
  vecSet_congr (fun _ => settle_routeEn s) (fun _ => bit_settle_pendSet s) fun _ => settle_routeVector s

theorem settle_irqLow (k : Nat) : irqLow (hstSettle s) (pendSet (hstSettle s)) k = irqLow s (pendSet s) k :=
  irqLow_congr (fun _ => settle_routeEn s) (fun _ => bit_settle_pendSet s) k fun _ => settle_routeIrq s

end Settled

/-! ### The message of a vector (R539) -/

/-- A vector's message waits for the end of its holdoff. -/
def vecDeferred (s : State) (v : Nat) : State :=
  { s with hst := { s.hst with deferMask := setBit s.hst.deferMask v true, sentMask := setBit s.hst.sentMask v true } }

/-- A vector's message goes out, with `u` the holdoffs that then run. -/
def vecSent (s : State) (v : Nat) (u : List (Nat × Nat)) : State :=
  (({ s with hst := { s.hst with sentMask := setBit s.hst.sentMask v true, deferMask := setBit s.hst.deferMask v false, holdUntil := u } } : State).wrBit
    (HST_MSIX_PBA_PBA 0) v false).emit (.msix v)

/-- All that the message of a vector can do: it is deferred, goes out, is left in the PBA, or finds MSI-X off. -/
theorem vecMessage_cases (s : State) (v : Nat) : vecMessage s v = vecDeferred s v ∨ (∃ u, vecMessage s v = vecSent s v u)
    ∨ vecMessage s v = s.wrBit (HST_MSIX_PBA_PBA 0) v true ∨ vecMessage s v = s := by
  unfold vecMessage
  refine (ite_eq_or_eq _ _ _).imp id fun h => ?_
  rw [h]
  refine (ite_eq_or_eq _ _ _).imp (fun h => ⟨_, h⟩) fun h => ?_
  rw [h]
  exact ite_eq_or_eq _ _ _

/-- The levels of the two interrupt balls. -/
def balls (s : State) : Bool × Bool := (s.hst.irq0, s.hst.irq1)

theorem vecMessage_balls (s : State) (v : Nat) : balls (vecMessage s v) = balls s := by
  obtain h | ⟨u, h⟩ | h | h := vecMessage_cases s v <;> rw [h] <;> rfl

/-- The balls are low as their enabled pending sources say (R540). -/
theorem settle_balls (s : State) : balls (hstSettle s) = (irqLow s (pendSet s) 0, irqLow s (pendSet s) 1) := by
  have hsend : balls (hstSettle s) = balls (settleMarks s (pendSet s) (vecSet s (pendSet s))) := by
    refine foldl_keeps balls _ (fun x v => ?_) _ _
    split
    · exact vecMessage_balls x v
    · rfl
  have hroute : ∀ k, irqLow (shown s) (pendSet s) k = irqLow s (pendSet s) k := fun k =>
    irqLow_congr (fun n hn => (settle_rd_shown s _ (by simp only [HST_SRC_ROUTE_EN, HST_MSIX_PBA_PBA]; omega)).symm.trans (settle_routeEn s hn))
      (fun _ _ => rfl) k
      fun n hn => (settle_rd_shown s _ (by simp only [HST_SRC_ROUTE_IRQ, HST_MSIX_PBA_PBA]; omega)).symm.trans (settle_routeIrq s hn)
  rw [hsend, ← hroute 0, ← hroute 1]
  rfl

/-! ### The marks of the vectors (R539) -/

/-- Only vectors of a set are marked as sent, deferred or pending in the PBA. -/
structure MarkedWithin (vec : Nat) (s : State) : Prop where
  sent : bitsWithin s.hst.sentMask vec
  deferred : bitsWithin s.hst.deferMask vec
  pba : bitsWithin (s.rd (HST_MSIX_PBA_PBA 0)) vec

theorem settleMarks_marked (s : State) (pend vec : Nat) : MarkedWithin vec (settleMarks s pend vec) where
  sent := by
    have h : (settleMarks s pend vec).hst.sentMask = s.hst.sentMask &&& vec := by simp [settleMarks]
    exact h ▸ bitsWithin_and _ _
  deferred := by
    have h : (settleMarks s pend vec).hst.deferMask = s.hst.deferMask &&& vec := by simp [settleMarks]
    exact h ▸ bitsWithin_and _ _
  pba := by
    rw [settleMarks, rd_wr_same _ _ _ (by decide)]
    exact bitsWithin_mod 32 (bitsWithin_and _ _)

section Marked

variable {vec v : Nat} {s : State} (hv : bit vec v = true)
include hv

theorem bitsWithin_wrBit_pba (b : Bool) (h : bitsWithin (s.rd (HST_MSIX_PBA_PBA 0)) vec) :
    bitsWithin ((s.wrBit (HST_MSIX_PBA_PBA 0) v b).rd (HST_MSIX_PBA_PBA 0)) vec := by
  rw [State.wrBit, rd_wr_same _ _ _ (by decide)]
  exact bitsWithin_mod 32 (bitsWithin_setBit b h hv)

/-- The message of a vector of the set marks that vector alone. -/
theorem vecMessage_marked (h : MarkedWithin vec s) : MarkedWithin vec (vecMessage s v) := by
  have hsent := bitsWithin_setBit true h.sent hv
  obtain he | ⟨u, he⟩ | he | he := vecMessage_cases s v <;> rw [he]
  · exact ⟨hsent, bitsWithin_setBit true h.deferred hv, h.pba⟩
  · exact ⟨hsent, bitsWithin_setBit false h.deferred hv, bitsWithin_wrBit_pba (s := { s with hst := _ }) hv false h.pba⟩
  · exact ⟨h.sent, h.deferred, bitsWithin_wrBit_pba hv true h.pba⟩
  · exact h

end Marked

theorem settle_marked (s : State) : MarkedWithin (vecSet s (pendSet s)) (hstSettle s) := by
  unfold hstSettle settleSend
  refine List.foldlRecOn (motive := MarkedWithin _) _ _ (settleMarks_marked s _ _) fun x hx v _ => ?_
  split
  next hnew => exact vecMessage_marked (Bool.and_eq_true_iff.mp hnew).1 hx
  next => exact hx

/-- After the settling the interrupt outputs agree with their sources. -/
theorem settle_irqAgrees (s : State) : (hstSettle s).irqAgrees := by
  obtain ⟨hsent, hdef, hpba⟩ := settle_marked s
  have hlatched := (settle_latched s).trans (settle_pendSet s).symm
  obtain ⟨h0, h1⟩ := Prod.mk.inj (settle_balls s)
  have hshown : ∀ m, bitsWithin m (vecSet s (pendSet s)) → ∀ v < 32, bit m v = true → bit ((hstSettle s).rd HST_VEC_STS_ASSERTED) v = true := by
    intro m hm v hv hb
    rw [settle_asserted, bit_mod_two_pow, decide_eq_true hv, hm v hb, Bool.true_and]
  refine ⟨hlatched, ?_, ?_, ?_, hshown _ hsent, hshown _ hdef, hshown _ hpba⟩
  · rw [settle_asserted, settle_vecSet]
  · rw [settle_irqLow, h0]
  · rw [settle_irqLow, h1]

/-- Settles O3: a step that runs a command ends with the settling, and one that finds none waiting changes nothing. -/
theorem interruptsAgreeAfterEveryStep : Obligations.InterruptsAgreeAfterEveryStep := by
  unfold Obligations.InterruptsAgreeAfterEveryStep
  intro s t hs hstep
  cases hq : s.pending with
  | nil =>
    simp only [step, hq] at hstep
    obtain rfl := Host.Outcome.next.inj hstep
    exact hs
  | cons c rest =>
    obtain ⟨x, hx⟩ := exec_settles c { s with pending := rest }
    simp only [step, hq, hx] at hstep
    obtain rfl := Host.Outcome.next.inj hstep
    exact settle_irqAgrees x

end Sys2Proof.Proofs
end

section
/-! PROOFS. O4, refuted, and O1. A route field holds a whole word in the register file, of which a write sets only the field's bits, so that a
state whose VECTOR of source 0 holds 32 is one of those that the statement speaks of. -/

namespace Sys2Proof.Proofs

open Sys2Proof Sys2Proof.Machine Sys2Proof.Laws

/-- The device after reset, but for VECTOR of source 0, which holds 32: a value that no write gives it. -/
def wideRoute : State := { State.reset with regs := [((HST_SRC_ROUTE_VECTOR 0).key, 32)] }

theorem wideRoute_vector : wideRoute.rd (HST_SRC_ROUTE_VECTOR 0) = 32 := rfl

/-- Refutes O4: its second clause bounds the fields of a route in every state, and the register file of a state may hold any word for VECTOR of
source 0, here 32. -/
theorem not_vectorsAreAssertedByTheirSources : ¬ Obligations.VectorsAreAssertedByTheirSources := by
  unfold Obligations.VectorsAreAssertedByTheirSources
  rintro ⟨-, hwidth⟩
  obtain ⟨hvector, -, -⟩ := hwidth wideRoute 0
  exact absurd hvector (by rw [wideRoute_vector]; decide)

/-- No word of the table spells a command. -/
theorem withFetchWord_none (s : State) (nbits w : Nat) : s.withFetchWord nbits w = s := rfl

/-- Settles O1: by whether a command waits. -/
theorem stepRunsTheFrontCommand : Obligations.StepRunsTheFrontCommand := by
  unfold Obligations.StepRunsTheFrontCommand
  refine ⟨fun s c rest hq => ?_, fun s hq => ?_, withFetchWord_none⟩
  · simp only [step, hq]
  · simp only [step, hq]

end Sys2Proof.Proofs
end

section
/-! PROOFS. O14: the PCIe endpoint's link, reset and D3hot, the choice of the register-map version, and MSI-X. -/

namespace Sys2Proof.Proofs

open Sys2Proof Sys2Proof.Machine Sys2Proof.Laws

/-! ### The link (R521, R525) -/

section Link

variable {s : State} {gen width t : Nat}

/-- A link of the endpoint may come up: its clock is on the primary source, and the generation and width are ones that it has. -/
def linkFits (s : State) (gen width : Nat) : Bool := onPrimary s 9 && 1 ≤ gen && gen ≤ 3 && 1 ≤ width && width ≤ 2

theorem link_refused : (s.flag HST_STATUS_LINK_UP || !onPrimary s 9 || decide (gen = 0) || decide (3 < gen) || decide (width = 0) || decide (2 < width))
    = !(!s.flag HST_STATUS_LINK_UP && linkFits s gen width) := by
  simp only [linkFits, Bool.not_and, Bool.not_not, ← decide_not, not_le, Nat.lt_one_iff, Bool.or_assoc]

theorem exec_pcieLinkUp : exec (.pcieLinkUp gen width t) s = .next (hstSettle (if !s.flag HST_STATUS_LINK_UP && linkFits s gen width then
    report ((s.at t).wrs [(HST_STATUS_LINK_UP, 1), (HST_STATUS_GEN, gen), (HST_STATUS_WIDTH, width)]) 0x120F else s.at t)) := by
  rw [← ite_bnot (!s.flag HST_STATUS_LINK_UP && linkFits s gen width), ← link_refused]
  rfl

theorem exec_pcieLinkDown : exec (.pcieLinkDown t) s = .next (hstSettle (if s.flag HST_STATUS_LINK_UP then
    report ((s.at t).wrs [(HST_STATUS_LINK_UP, 0), (HST_STATUS_GEN, 0), (HST_STATUS_WIDTH, 0)]) 0x1210 else s.at t)) := rfl

end Link

/-! ### The reset of the endpoint (R525, R545) -/

/-- A register that is among those which the reset returns reads its reset value. -/
theorem perst_rd_gone (s : State) (f : Fld) (h : ((0x2B1000 * 8 ≤ f.key && f.key < 0x2B1200 * 8) || (0x2B2000 * 8 ≤ f.key && f.key < 0x2B2008 * 8)
    || (0x2B000C * 8 ≤ f.key && f.key < 0x2B0014 * 8)) = true) : (perst s).rd f = (resetValue f.key).toNat := by
  simp only [State.rd, RegFile.get, perst]
  rw [sget_skeep, if_neg (by rw [h]; exact Bool.false_ne_true)]

/-- Of an MSI-X table entry the Mask bit alone resets to 1. -/
theorem resetValue_msixTable : ∀ v < 32, ∀ w < 4, (resetValue (HST_MSIX_TABLE_WORD v w).key).toNat = if w = 3 then 1 else 0 := by
  decide +kernel

theorem perst_msixTable (s : State) {v w : Nat} (hv : v < 32) (hw : w < 4) :
    (perst s).rd (HST_MSIX_TABLE_WORD v w) = if w = 3 then 1 else 0 := by
  have hfrom : 0x2B1000 * 8 ≤ (HST_MSIX_TABLE_WORD v w).key := by simp only [HST_MSIX_TABLE_WORD]; omega
  have hto : (HST_MSIX_TABLE_WORD v w).key < 0x2B1200 * 8 := by simp only [HST_MSIX_TABLE_WORD]; omega
  rw [perst_rd_gone, resetValue_msixTable v hv w hw]
  simp only [hfrom, hto, decide_true, Bool.true_and, Bool.true_or]

/-! ### The register-map version (R533) -/

section Map

variable {s : State} {p : Path} {major lo hi t : Nat}

theorem mapSelWord_go : bit (mapSelWord major lo hi) 31 = true := by
  have hodd : mapSelWord major lo hi / 2 ^ 31 % 2 = 1 := by simp only [mapSelWord]; omega
  exact decide_eq_true hodd

theorem mapSelWord_major : bitsOf (mapSelWord major lo hi) 15 12 = major % 16 := by
  simp only [bitsOf, mapSelWord]
  omega

theorem mapSelWord_lo : bitsOf (mapSelWord major lo hi) 11 8 = lo % 16 := by
  simp only [bitsOf, mapSelWord]
  omega

theorem mapSelWord_hi : bitsOf (mapSelWord major lo hi) 7 4 = hi % 16 := by
  simp only [bitsOf, mapSelWord]
  omega

/-- The word as the QSPI target keeps it, without GO. -/
theorem mapSelWord_kept : mapSelWord major lo hi / 16 % 4096 * 16 = major % 16 * 4096 + lo % 16 * 256 + hi % 16 * 16 := by
  simp only [mapSelWord]
  omega

/-- The version that the host and the map have in common, the first that is offered. -/
def mapCommon (s : State) (major lo hi : Nat) : Option (Nat × Nat) :=
  ((ifaceOffers s 2 0).filterMap fun x =>
    if x.1 = major ∧ max lo x.2.1 ≤ min hi x.2.2 then some (major, min hi x.2.2) else none).head?

/-- The fields of HST_MAP_SEL as they are written on the PCIe path. -/
def mapSelected (s : State) (major lo hi : Nat) : State :=
  s.wrs [(HST_MAP_SEL_MAJOR, major), (HST_MAP_SEL_MIN_MINOR, lo), (HST_MAP_SEL_MAX_MINOR, hi)]

/-- The PCIe path settles the common version, or is left unsettled with MAP_NO_COMMON. -/
def pcieSettled (s : State) : Option (Nat × Nat) → State
  | some x => s.wrs [(HST_MAP_SET_SETTLED, 1), (HST_MAP_SET_MAJOR, x.1), (HST_MAP_SET_MINOR, x.2)]
  | none => report (s.wrs [(HST_MAP_SET_SETTLED, 0), (HST_MAP_SET_MAJOR, 0), (HST_MAP_SET_MINOR, 0)]) 0x1209

/-- The QSPI path does the same with the copy of its own. -/
def qspiSettled (s : State) (word : Nat) (common : Option (Nat × Nat)) : State :=
  if common.isNone then report (updQspi s fun q => { q with mapSel := word, settled := common }) 0x1209
  else updQspi s fun q => { q with mapSel := word, settled := common }

theorem mapSelWrite_pcie : mapSelWrite s .pcie (mapSelWord major lo hi) =
    pcieSettled (mapSelected s (major % 16) (lo % 16) (hi % 16)) (mapCommon s (major % 16) (lo % 16) (hi % 16)) := by
  simp only [mapSelWrite, mapSelWord_go, mapSelWord_major, mapSelWord_lo, mapSelWord_hi, Bool.and_eq_true, decide_eq_true_eq, Bool.not_true,
    Bool.false_eq_true, if_false, Bool.true_and]
  cases hc : mapCommon s (major % 16) (lo % 16) (hi % 16) with
  | some x =>
    rw [mapCommon] at hc
    simp only [hc]
    rfl
  | none =>
    rw [mapCommon] at hc
    simp only [hc]
    rfl

theorem mapSelWrite_qspi : mapSelWrite s .qspi (mapSelWord major lo hi) =
    qspiSettled s (major % 16 * 4096 + lo % 16 * 256 + hi % 16 * 16) (mapCommon s (major % 16) (lo % 16) (hi % 16)) := by
  simp only [mapSelWrite, mapSelWord_go, mapSelWord_major, mapSelWord_lo, mapSelWord_hi, mapSelWord_kept, Bool.and_eq_true, decide_eq_true_eq,
    Bool.true_and, if_true]
  rfl

theorem mapSelWrite_other {v : Nat} (hp : p ≠ .pcie) (hq : p ≠ .qspi) : mapSelWrite s p v = s := by
  cases p with
  | pcie => exact absurd rfl hp
  | qspi => exact absurd rfl hq
  | sess _ | tun _ | debug => rfl

theorem exec_hstMapSel_lets {u : State} (h : s.lets p 0x2B000C) (hu : mapSelWrite (s.taken p t) p (mapSelWord major lo hi) = u) :
    exec (.hstMapSel p major lo hi t) s = .next (hstSettle u) :=
  congrArg done ((hostDo_lets s p _ _ t _ h).trans hu)

/-- An image without a section 17 offers what the device implements: 4.0 and 4.1. -/
theorem ifaceOffers_map (h : s.hasSec 17 = false) : ifaceOffers s 2 0 = [(4, 0, 1)] := if_neg (ne_true_of_eq_false h)

end Map

/-! ### MSI-X (R539) -/

section Msix

variable {s : State} {v t : Nat} {en mask bm : Bool}

/-- The command writes the vector's control word without its Mask bit. -/
theorem exec_msixUnmask_vector (hv : v < 32) : exec (.msixUnmask (some v) en mask bm t) s = .next (hstSettle (
    hostDo (s.at t) .pcie (0x2B100C + 16 * v) (s.rd (HST_MSIX_TABLE_WORD v 3) / 2 * 2)
      fun x => msixWrite x (0x2B100C + 16 * v) (s.rd (HST_MSIX_TABLE_WORD v 3) / 2 * 2))) :=
  congrArg done (if_neg (not_le_of_gt hv))

theorem msixWrite_control (w : Nat) : msixWrite s (0x2B100C + 16 * v) w = unmaskVec (s.wr (HST_MSIX_TABLE_WORD v 3) w) v := by
  have hplace : (0x2B100C + 16 * v - 0x2B1000) / 16 = v := by omega
  have hword : (0x2B100C + 16 * v) % 16 / 4 = 3 := by omega
  simp only [msixWrite, hplace, hword]

theorem exec_holdoffEnd_none (h : (s.hst.holdUntil.find? fun p => p.1 = v) = none) : exec (.holdoffEnd v t) s = .next (hstSettle (s.at t)) := by
  have hat : ((s.at t).hst.holdUntil.find? fun p => p.1 = v) = none := h
  refine congrArg done ?_
  simp only [hat]

/-- The holdoff of a vector is over. -/
def holdoffOver (s : State) (v : Nat) : State :=
  { s with hst := { s.hst with holdUntil := s.hst.holdUntil.filter (fun p => p.1 ≠ v), deferMask := setBit s.hst.deferMask v false } }

theorem exec_holdoffEnd_some {x : Nat × Nat} (h : (s.hst.holdUntil.find? fun p => p.1 = v) = some x) :
    exec (.holdoffEnd v t) s = .next (hstSettle (if max s.tim.cnt t < x.2 then s.at t
      else if bit s.hst.deferMask v && bit (s.rd HST_VEC_STS_ASSERTED) v then vecMessage (holdoffOver (s.at t) v) v else holdoffOver (s.at t) v)) := by
  have hat : ((s.at t).hst.holdUntil.find? fun p => p.1 = v) = some x := h
  refine congrArg done ?_
  simp only [hat]
  rfl

end Msix

/-- Settles O14: the link by whether it may change, HST_MAP_SEL by its path and the common version, a vector by its gate, a holdoff by its end. -/
theorem pcieEndpointAndVectors : Obligations.PcieEndpointAndVectors := by
  unfold Obligations.PcieEndpointAndVectors
  refine ⟨?_, fun _ _ _ => rfl, ?_, ?_, ?_, ?_⟩
  · intro s gen width t S link fits
    refine ⟨fun hl hf => exec_next_pos exec_pcieLinkUp ?_, fun h => exec_next_neg exec_pcieLinkUp ?_, exec_next_pos exec_pcieLinkDown,
      exec_next_neg exec_pcieLinkDown⟩
    · exact Bool.and_eq_true_iff.mpr ⟨congrArg not hl, hf⟩
    · exact Bool.and_eq_false_iff.mpr (h.imp_left (congrArg not))
  · intro s t S gone u
    exact ⟨rfl, perst_rd_gone S HST_MAP_SET_SETTLED (by decide), fun v hv w hw => perst_msixTable S hv hw⟩
  · intro s p major lo hi t h S common sel word gives
    refine ⟨?_, ?_, ?_, ?_, fun hp hq => exec_hstMapSel_lets h (mapSelWrite_other hp hq), ifaceOffers_map⟩
    · rintro rfl x hx
      exact exec_hstMapSel_lets h (mapSelWrite_pcie.trans (congrArg (pcieSettled _) hx))
    · rintro rfl hc
      exact exec_hstMapSel_lets h (mapSelWrite_pcie.trans (congrArg (pcieSettled _) hc))
    · rintro rfl x hx
      exact exec_hstMapSel_lets h (mapSelWrite_qspi.trans (congrArg (qspiSettled _ _) hx))
    · rintro rfl hc
      exact exec_hstMapSel_lets h (mapSelWrite_qspi.trans (congrArg (qspiSettled _ _) hc))
  · intro s v t en mask bm S
    refine ⟨fun hv h => ?_, fun hv h => ?_, fun hv h => ?_, fun hv => congrArg done (if_pos hv), rfl⟩
    · exact (exec_msixUnmask_vector hv).trans (congrArg done ((hostDo_lets s _ _ _ t _ h).trans (msixWrite_control _)))
    · exact (exec_msixUnmask_vector hv).trans (congrArg done (hostDo_locked _ _ h))
    · exact (exec_msixUnmask_vector hv).trans (congrArg done (hostDo_held _ _ h))
  · intro s v t x S E here sends
    refine ⟨fun hh hx hs => ?_, fun hh hx hs => ?_, ?_⟩
    · exact (exec_holdoffEnd_some (eq_of_beq hh)).trans (congrArg done ((if_neg (not_lt_of_ge hx)).trans (if_pos hs)))
    · exact (exec_holdoffEnd_some (eq_of_beq hh)).trans (congrArg done ((if_neg (not_lt_of_ge hx)).trans (if_neg (ne_true_of_eq_false hs))))
    · rintro (⟨hh, hx⟩ | hn)
      · exact (exec_holdoffEnd_some (eq_of_beq hh)).trans (congrArg done (if_pos hx))
      · exact exec_holdoffEnd_none hn

end Sys2Proof.Proofs
end

section
/-! PROOFS. O15: what a BAR2 write stores (R522 to R524). -/

namespace Sys2Proof.Proofs

open Sys2Proof Sys2Proof.Machine Sys2Proof.Laws

/-! ### The octets of a write, one by one -/

section Octets

variable {s : State} {off : Nat} {x : Byte} {b : List (Option Byte)}

/-- BAR2 memory at an offset. -/
def memAt (s : State) (a : Nat) : Byte := sget (fun _ => (0 : Byte)) s.hst.mem a

/-- One octet stored. -/
def memPut (s : State) (off : Nat) (x : Byte) : State := { s with hst := { s.hst with mem := sput (fun _ => (0 : Byte)) s.hst.mem off x } }

/-- One octet that is enabled: stored where its window takes it, else discarded with its code. -/
def octetPut (s : State) (off : Nat) (x : Byte) : State := if bar2Code s off = 0 then memPut s off x else discard s .pcie off (bar2Code s off)

theorem bar2Put_some : bar2Put s off (some x :: b) = bar2Put (octetPut s off x) (off + 1) b := rfl

theorem bar2Put_stores (h : bar2Code s off = 0) : bar2Put s off (some x :: b) = bar2Put (memPut s off x) (off + 1) b := by
  rw [bar2Put_some, octetPut, if_pos h]

theorem bar2Put_discards (h : bar2Code s off ≠ 0) :
    bar2Put s off (some x :: b) = bar2Put (discard s .pcie off (bar2Code s off)) (off + 1) b := by
  rw [bar2Put_some, octetPut, if_neg h]

/-- Whether a window takes an octet depends on the registers and the image jobs, not on what is stored. -/
theorem bar2Code_memPut (a : Nat) : bar2Code (memPut s off x) a = bar2Code s a := rfl

/-- A discarded access leaves BAR2 memory. -/
theorem discard_mem (p : Path) (c : Nat) : (discard s p off c).hst.mem = s.hst.mem := by
  unfold Machine.discard
  dsimp only
  split
  · rfl
  · rw [wrs_hst]
    cases p <;> simp only [pathCode, draw_hst, report_hst]

theorem memAt_memPut (a : Nat) : memAt (memPut s off x) a = if a = off then x else memAt s a := sget_sput _ _ _ _ _

theorem memAt_octetPut_ne {a : Nat} (h : a ≠ off) : memAt (octetPut s off x) a = memAt s a := by
  unfold octetPut
  split
  · rw [memAt_memPut, if_neg h]
  · rw [memAt, discard_mem, memAt]

theorem swf_octetPut (h : swf (fun _ => (0 : Byte)) s.hst.mem = true) : swf (fun _ => (0 : Byte)) (octetPut s off x).hst.mem = true := by
  unfold octetPut
  split
  · exact swf_sput _ _ _ _ h
  · rw [discard_mem]
    exact h

end Octets

/-! ### A whole write -/

/-- Octets outside the write stay as they were. -/
theorem memAt_bar2Put_outside {s : State} {off a : Nat} {b : List (Option Byte)} (h : a < off ∨ off + b.length ≤ a) :
    memAt (bar2Put s off b) a = memAt s a := by
  induction b generalizing s off with
  | nil => rfl
  | cons y r ih =>
    rw [List.length_cons] at h
    have hr : a < off + 1 ∨ off + 1 + r.length ≤ a := by omega
    cases y with
    | none => exact ih hr
    | some x =>
      have hne : a ≠ off := by omega
      exact (ih hr).trans (memAt_octetPut_ne hne)

/-- The octets of a write that every window takes are stored where they are enabled. -/
theorem memAt_bar2Put_inside {s : State} {off i : Nat} {b : List (Option Byte)} (hc : ∀ j < b.length, bar2Code s (off + j) = 0)
    (hi : i < b.length) : memAt (bar2Put s off b) (off + i) = (b.getD i none).getD (memAt s (off + i)) := by
  induction b generalizing s off i with
  | nil => exact absurd hi (Nat.not_lt_zero i)
  | cons y r ih =>
    have hr : ∀ j < r.length, bar2Code s (off + 1 + j) = 0 := fun j hj => by
      rw [Nat.add_assoc, Nat.add_comm 1 j]
      exact hc (j + 1) (Nat.succ_lt_succ hj)
    cases y with
    | none =>
      cases i with
      | zero => exact memAt_bar2Put_outside (off := off + 1) (b := r) (.inl (Nat.lt_succ_self off))
      | succ i =>
        have hstep := ih hr (Nat.lt_of_succ_lt_succ hi)
        rwa [Nat.add_assoc, Nat.add_comm 1 i] at hstep
    | some x =>
      have hput : bar2Put s off (some x :: r) = bar2Put (memPut s off x) (off + 1) r := bar2Put_stores (hc 0 hi.pos)
      rw [hput]
      cases i with
      | zero => exact (memAt_bar2Put_outside (.inl (Nat.lt_succ_self off))).trans ((memAt_memPut _).trans (if_pos rfl))
      | succ i =>
        have hstep := ih (s := memPut s off x) hr (Nat.lt_of_succ_lt_succ hi)
        rw [memAt_memPut, if_neg (by omega), Nat.add_assoc, Nat.add_comm 1 i] at hstep
        exact hstep

theorem swf_bar2Put {s : State} {off : Nat} {b : List (Option Byte)} (h : swf (fun _ => (0 : Byte)) s.hst.mem = true) :
    swf (fun _ => (0 : Byte)) (bar2Put s off b).hst.mem = true := by
  induction b generalizing s off with
  | nil => exact h
  | cons y r ih =>
    cases y with
    | none => exact ih h
    | some x => exact ih (swf_octetPut h)

/-! ### The command -/

section Command

variable {s : State} {off t : Nat} {b : List (Option Byte)} {ep : Bool}

theorem exec_bar2Write_d3hot (h : s.hst.d3hot = true) : exec (.bar2Write off b ep t) s = .next (hstSettle (s.at t)) :=
  congrArg done (if_pos h)

theorem exec_bar2Write_poisoned (h : s.hst.d3hot = false) :
    exec (.bar2Write off b true t) s = .next (hstSettle (discard (s.at t) .pcie off 0x120C)) :=
  congrArg done ((if_neg (ne_true_of_eq_false h)).trans (if_pos rfl))

theorem exec_bar2Write_plain (h : s.hst.d3hot = false) : exec (.bar2Write off b false t) s = .next (hstSettle (bar2Put
    (if (List.range b.length).all fun i => (b.getD i none).isNone || bar2Code s (off + i) = 0 then endRun (s.at t) .pcie else s.at t) off b)) :=
  congrArg done ((if_neg (ne_true_of_eq_false h)).trans (if_neg Bool.false_ne_true))

end Command

/-- Settles O15: the write octet by octet. -/
theorem bar2StoresEnabledOctets : Obligations.Bar2StoresEnabledOctets := by
  unfold Obligations.Bar2StoresEnabledOctets
  refine ⟨?_, ?_⟩
  · intro s off b t S ok u mem
    refine ⟨fun hd hok => ?_, fun hd hok => ?_, exec_bar2Write_poisoned, fun hd => ⟨exec_bar2Write_d3hot hd, exec_bar2Write_d3hot hd⟩,
      fun hc i hi => memAt_bar2Put_inside (s := endRun S .pcie) hc hi⟩
    · exact (exec_bar2Write_plain hd).trans (congrArg (fun x => done (bar2Put x off b)) (if_pos hok))
    · exact (exec_bar2Write_plain hd).trans (congrArg (fun x => done (bar2Put x off b)) (if_neg (ne_true_of_eq_false hok)))
  · exact fun s off a b x => ⟨rfl, rfl, bar2Put_stores, bar2Put_discards, memAt_bar2Put_outside, swf_bar2Put⟩

end Sys2Proof.Proofs
end

section
/-! PROOFS. O6: accesses that do not get through, and Piste frames that reach no user here. -/

namespace Sys2Proof.Proofs

open Sys2Proof Sys2Proof.Machine Sys2Proof.Laws

/-! ### Host accesses by their gate (R456, R525, R526, R534, R543) -/

/-- A host access on a path: a write of a word, or a read, with its effect where it gets through. -/
def accessed (s : State) (p : Path) (off : Nat) (d : Option Nat) (f : State → State) : State :=
  match d with
  | some v => hostDo s p off v f
  | none => hostRd s p off f

/-- What an access that does not get through answers: a read reads 0. -/
def turnedAway (s : State) (p : Path) (d : Option Nat) : State :=
  match d with
  | some _ => s
  | none => s.emit (.read p 0)

section Access

variable {s : State} {p : Path} {off : Nat} {d : Option Nat} (f : State → State)

theorem accessed_locked (h : gate s p off d.isSome = .locked) : accessed s p off d f = turnedAway s p d := by
  cases d with
  | some v => exact hostDo_locked v f h
  | none => exact hostRd_locked f h

theorem accessed_denied (h : gate s p off d.isSome = .denied) :
    accessed s p off d f = turnedAway { s with hst := { s.hst with q := { s.hst.q with denied := true } } } p d := by
  cases d with
  | some v => exact hostDo_denied v f h
  | none => exact hostRd_denied f h

theorem accessed_held (h : gate s p off d.isSome = .held) : accessed s p off d f = holdAcc s p off d := by
  cases d with
  | some v => exact hostDo_held v f h
  | none => exact hostRd_held f h

theorem accessed_code {c : Nat} (h : gate s p off d.isSome = .code c) : accessed s p off d f = turnedAway (Machine.discard s p off c) p d := by
  cases d with
  | some v => exact hostDo_code v f h
  | none => exact hostRd_code f h

end Access

/-- A command that is one host access makes it at its stated offset, with its stated word. -/
theorem exec_hostAccess (s : State) {i : Instr} {a : Path × Nat × Option Nat × Nat} (h : hostAccess i = some a) :
    ∃ f, exec i s = done (accessed (s.at a.2.2.2) a.1 a.2.1 a.2.2.1 f) := by
  revert a
  cases i with
  | recClr p trk w v t =>
    intro a h
    obtain ⟨hw, ha⟩ := Option.ite_none_right_eq_some.mp h
    obtain rfl := Option.some.inj ha
    exact ⟨fun x => recClr x trk w v, congrArg done (if_neg (not_le_of_gt hw))⟩
  | mbxSend p m len dst t =>
    intro a h
    obtain ⟨hm, ha⟩ := Option.ite_none_right_eq_some.mp h
    obtain rfl := Option.some.inj ha
    exact ⟨fun x => mbxWrite x p m (mbxWord len dst), congrArg done (if_pos hm)⟩
  | _ => rintro _ ⟨⟩ <;> exact ⟨_, rfl⟩

theorem exec_hostAccessThen (s : State) {i : Instr} {a : Path × Nat × Option Nat × Nat} (h : hostAccessThen i = some a) :
    ∃ f, exec i s = done (runHeld (accessed (s.at a.2.2.2) a.1 a.2.1 a.2.2.1 f)) ∧ a.2.2.1.isSome = true := by
  revert a
  cases i with
  | _ => rintro _ ⟨⟩ <;> exact ⟨_, rfl, rfl⟩

/-! ### Security commands (R478 to R480) -/

theorem exec_secAccess (s : State) {i : Instr} {e : Path × Nat × Nat} (h : secAccess i = some e) :
    ∃ bad, exec i s = done (secGo e.1 e.2.1 bad (s.at e.2.2)) := by
  revert e
  cases i with
  | _ => rintro _ ⟨⟩ <;> exact ⟨_, rfl⟩

section Security

variable {s : State} {p : Path} {c : Nat} {bad : Option Nat}

/-- A request that holds another command, or comes over a session, does nothing. -/
theorem secGo_ignored (h : u8 (secRequest s) 4 ≠ c ∨ isSession p = true) : secGo p c bad s = s := by
  unfold secGo
  split
  · rfl
  next hc =>
    cases p with
    | sess i => rfl
    | _ => exact absurd (h.resolve_left hc) Bool.false_ne_true

/-- Elsewhere it is a write of SEC_CMD. -/
theorem secGo_writes (hc : u8 (secRequest s) 4 = c) (hp : isSession p = false) :
    secGo p c bad s = accessed s p 0x30010 (some 0x80000000) fun x => secWrite x 0x80000000 bad := by
  unfold secGo
  rw [if_neg (not_not.mpr hc)]
  cases p with
  | sess i => exact Bool.noConfusion hp
  | _ => rfl

end Security

/-! ### Piste frames that reach no user here (R418 to R420, R423) -/

section OwnAddr

variable {s : State} {p q : Nat}

theorem ownAddr_wr {f : Fld} (v : Nat) (h : PST_STATUS_ADDR.key ≠ f.key) : ownAddr (s.wr f v) = ownAddr s := rd_wr_ne s f _ v h

theorem ownAddr_report {c u : Nat} (d : Nat) (h : PST_STATUS_ADDR.key ∉ reportKeys c u) : ownAddr (report s c u d) = ownAddr s :=
  report_rd s c u d _ h

/-- What an Ethernet port reports lies in its own registers. -/
theorem ownAddr_portReport {c : Nat} (d : Nat) (hc : c ∈ [0x0705, 0x0706, 0x0707]) : ownAddr (report s c p d) = ownAddr s := by
  refine ownAddr_report d ?_
  simp only [List.mem_cons, List.not_mem_nil, or_false] at hc
  rcases hc with rfl | rfl | rfl <;>
  · simp [reportKeys, condFields, PST_STATUS_ADDR, NET_COND_LAST_CODE, HST_SRC_PEND_LO_PEND, HST_SRC_PEND_HI_PEND, REC_LOG_HEAD_ISEQ,
      REC_LOG_STS_FILL, REC_LOG_STS_UNMIRRORED, REC_EVT_LOG_HALF, REC_LOG_LOST_LOST, REC_STATUS_LOG_FULL, REC_COND_LAST_CODE, REC_EVT_LOG_FULL]
    omega

theorem ownAddr_setQueue (l : List TxFrame) : ownAddr (setQueue s p q l) = ownAddr s :=
  ownAddr_wr (s := updPort s p _) _ (by simp only [PST_STATUS_ADDR, NET_TXQ_STS_FILL]; omega)

theorem ownAddr_startFrame (f : TxFrame) (rest : List TxFrame) : ownAddr (startFrame s p q f rest) = ownAddr s := by
  have hlate : ∀ (x : State) d v, ownAddr (x.wr (NET_FDEF_STS_LATE p d) v) = ownAddr x := fun x d v =>
    ownAddr_wr v (by simp only [PST_STATUS_ADDR, NET_FDEF_STS_LATE]; omega)
  have hcnt : ∀ (x : State) m, ownAddr (x.incSat (NET_TXQ_STS_LATE_CNT p q) m) = ownAddr x := fun x m =>
    ownAddr_wr _ (by simp only [PST_STATUS_ADDR, NET_TXQ_STS_LATE_CNT]; omega)
  unfold startFrame
  cases f.def_ <;> cases f.late
  · exact ownAddr_setQueue rest
  · exact (hcnt _ _).trans (ownAddr_setQueue rest)
  · exact (hlate _ _ _).trans (ownAddr_setQueue rest)
  · exact (hlate _ _ _).trans ((hcnt _ _).trans (ownAddr_setQueue rest))

theorem ownAddr_netSelect (fuel : Nat) : ownAddr (netSelect s p fuel) = ownAddr s := by
  have hdrop : ∀ (x : State) q m, ownAddr (x.incSat (NET_TXQ_STS_DROP_CNT p q) m) = ownAddr x := fun x q m =>
    ownAddr_wr _ (by simp only [PST_STATUS_ADDR, NET_TXQ_STS_DROP_CNT]; omega)
  have hcnt : ∀ x : State, ownAddr (netCount x p 6) = ownAddr x := fun x =>
    ownAddr_wr _ (by simp only [PST_STATUS_ADDR, NET_CNT_COUNT]; omega)
  induction fuel generalizing s with
  | zero => rfl
  | succ n ih =>
    unfold netSelect
    dsimp only
    split
    · rfl
    split
    · rfl
    split
    · split
      · rw [ih, hcnt, ownAddr_setQueue]
      · rfl
    split
    · rfl
    next c q h rest _ =>
      have hover : ∀ (b : Bool) g, ownAddr (netSelect (
          let x := updPort ((setQueue s p q rest).incSat (NET_TXQ_STS_DROP_CNT p q) 255) p g
          if b then x else report x 0x0706 p) p n) = ownAddr s := by
        have hd : ∀ g, ownAddr (updPort ((setQueue s p q rest).incSat (NET_TXQ_STS_DROP_CNT p q) 255) p g) = ownAddr s :=
          fun _ => (hdrop _ q 255).trans (ownAddr_setQueue rest)
        intro b g
        rw [ih]
        cases b with
        | true => exact hd g
        | false => exact (ownAddr_portReport 0 (by decide)).trans (hd g)
      rw [apply_ite ownAddr, hover, ownAddr_startFrame, ite_self]

/-- A frame handed to an Ethernet queue leaves the device's address. -/
theorem ownAddr_netHand (f : TxFrame) : ownAddr (netHand s p q f) = ownAddr s := by
  have hcnt : ∀ x : State, ownAddr (netCount x p 7) = ownAddr x := fun x =>
    ownAddr_wr _ (by simp only [PST_STATUS_ADDR, NET_CNT_COUNT]; omega)
  unfold netHand
  dsimp only
  split
  · rfl
  split
  · split
    · exact hcnt s
    · exact (ownAddr_portReport 0 (by decide)).trans (hcnt s)
  · refine (ownAddr_netSelect 256).trans ?_
    rw [apply_ite ownAddr, ownAddr_portReport 0 (by decide), ite_self]
    exact ownAddr_setQueue _

theorem ownAddr_headSend (typ src dst cyc hops : Nat) : ownAddr (headSend s typ src dst cyc hops) = ownAddr s :=
  ownAddr_netHand _

theorem ownAddr_pstDiscard (h : PstHdr) : ownAddr (pstDiscard s h) = ownAddr s := by
  unfold pstDiscard
  split
  next hp => exact ownAddr_wr _ (by simp only [PST_STATUS_ADDR, PST_PORT_CNT_DISCARD]; omega)
  · rfl

/-- A frame passed on leaves the device's address. -/
theorem ownAddr_pstForward (h : PstHdr) (typ : Nat) (ws : List Nat) : ownAddr (pstForward s h typ ws) = ownAddr s := by
  unfold pstForward
  dsimp only
  split
  · rw [apply_ite ownAddr, ownAddr_headSend, ite_self, apply_ite ownAddr]
    exact ite_self _
  split
  · rw [apply_ite ownAddr, ownAddr_headSend]
    exact ite_self _
  · have hd : ownAddr (if isData typ = true then pstDiscard s h else s) = ownAddr s := by
      rw [apply_ite ownAddr, ownAddr_pstDiscard, ite_self]
    rw [apply_ite ownAddr, ownAddr_report h.dst (by decide)]
    exact (ite_self _).trans hd

theorem forOthers_pstForward (h g : PstHdr) (typ : Nat) (ws : List Nat) : forOthers (pstForward s h typ ws) g = forOthers s g := by
  unfold forOthers
  rw [ownAddr_pstForward]

end OwnAddr

section PassedBy

variable {s : State} {h : PstHdr} {typ : Nat}

/-- A frame that a device which waits for an image does not hear does nothing (R435). -/
theorem pstTakeWith_boot (ws : List Nat) (f : State → State) (hb : bootTarget s = true) (hh : s.hears h typ = false) :
    pstTakeWith s h typ ws f = s := by
  unfold State.hears at hh
  rw [if_pos hb] at hh
  unfold pstTakeWith
  rw [if_pos hb, hh]
  rfl

/-- The frame's port is open to it: the device has a cascade role, the link is up, and the frame is not the device's own broadcast. -/
def portOpen (s : State) (h : PstHdr) (typ : Nat) : Bool :=
  cascRole s ≠ 0 && (if h.port < 2 then 2 ≤ s.rd (PST_PORT_STS_STATE h.port) else h.port = 2 && portCarries s 2 typ)
    && !((h.bstr || h.ball) && h.src = ownAddr s)

theorem portOpen_iff : portOpen s h typ = true ↔
    ¬ ((cascRole s = 0 || 2 < h.port || (h.port = 2 && !portCarries s 2 typ)) = true)
      ∧ ¬ ((h.port < 2 && s.rd (PST_PORT_STS_STATE h.port) < 2) = true) ∧ ¬ (((h.bstr || h.ball) && h.src = ownAddr s) = true) := by
  unfold portOpen
  rcases lt_trichotomy h.port 2 with hp | hp | hp
  · have hne : h.port ≠ 2 := hp.ne
    cases h.bstr <;> cases h.ball <;> simp [hp, hp.le, hne, and_assoc] <;> omega
  · cases h.bstr <;> cases h.ball <;> simp [hp, and_assoc]
  · have hge : ¬ h.port < 2 := hp.not_gt
    simp [hp, hp.ne', hge]

/-- At a port that is not open to it a frame stops. -/
theorem pstTakeWith_shut (ws : List Nat) (f : State → State) (hb : bootTarget s = false) (ho : portOpen s h typ = false) :
    pstTakeWith s h typ ws f = s := by
  have hsome := mt portOpen_iff.mpr (Bool.eq_false_iff.mp ho)
  unfold pstTakeWith
  dsimp only
  rw [if_neg (Bool.eq_false_iff.mp hb)]
  split
  · rfl
  split
  · rfl
  split
  · rfl
  · exact absurd ⟨‹_›, ‹_›, ‹_›⟩ hsome

/-- What becomes of a frame at a port that is open to it. -/
theorem pstTakeWith_open (ws : List Nat) (f : State → State) (hb : bootTarget s = false) (ho : portOpen s h typ = true) :
    pstTakeWith s h typ ws f =
      if isData typ then
        if (s.pport h.port).addrBad || (s.pport h.port).masterBad || timingBad s then s
        else if !portCarries s h.port typ || cascStopped s then pstDiscard s h
        else
          let x := if h.bstr || h.ball || forOthers s h then pstForward s h typ ws else s
          if forOthers x h then x else f x
      else if !portCarries s h.port typ || ((s.pport h.port).masterBad && typ ≠ 1 && typ ≠ 2) then s
      else
        let x := if (h.bstr || h.ball || forOthers s h) && !(s.pport h.port).addrBad && typ ≠ 1 && typ ≠ 3 then pstForward s h typ ws else s
        if forOthers x h then x else f x := by
  obtain ⟨hrole, hlink, hown⟩ := portOpen_iff.mp ho
  unfold pstTakeWith
  dsimp only
  rw [if_neg (Bool.eq_false_iff.mp hb), if_neg hrole, if_neg hlink, if_neg hown]

/-- A frame that an open port carries, and that no conflict turns away, is for another device where it is not heard. -/
theorem forOthers_of_open (hb : bootTarget s = false) (ho : portOpen s h typ = true) (hc : portCarries s h.port typ = true)
    (hx : if isData typ then (s.pport h.port).addrBad = false ∧ (s.pport h.port).masterBad = false ∧ timingBad s = false ∧ cascStopped s = false
      else (s.pport h.port).masterBad = false ∨ typ = 1 ∨ typ = 2) (hh : s.hears h typ = false) : forOthers s h = true := by
  obtain ⟨hrole, hlink, hown⟩ := portOpen_iff.mp ho
  have hport : cascRole s ≠ 0 ∧ (h.port = 2 ∨ (h.port < 2 ∧ 2 ≤ s.rd (PST_PORT_STS_STATE h.port))) := by
    simp only [Bool.or_eq_true, Bool.and_eq_true, decide_eq_true_eq, not_or, not_and] at hrole hlink
    omega
  have haddr : ¬ (if (h.bstr || h.ball) = true then h.src ≠ ownAddr s else h.dst = ownAddr s) := fun ha =>
    Bool.false_ne_true (hh.symm.trans ((hears_iff hb).mpr ⟨hport, hc, ha, hx⟩))
  unfold forOthers
  cases hbr : h.bstr || h.ball with
  | true => simp_all
  | false => simp_all

theorem passedBy_open (ws : List Nat) (hb : bootTarget s = false) (ho : portOpen s h typ = true) :
    s.passedBy h typ ws =
      let others := h.bstr || h.ball || h.dst ≠ ownAddr s
      if isData typ then
        if (s.pport h.port).addrBad || (s.pport h.port).masterBad || timingBad s then s
        else if !portCarries s h.port typ || cascStopped s then pstDiscard s h
        else if others then pstForward s h typ ws else s
      else if !portCarries s h.port typ || ((s.pport h.port).masterBad && typ ≠ 1 && typ ≠ 2) then s
      else if others && !(s.pport h.port).addrBad && typ ≠ 1 && typ ≠ 3 then pstForward s h typ ws else s :=
  if_neg (c := (bootTarget s || !portOpen s h typ) = true) (by rw [hb, ho]; decide)

theorem passedBy_stopped (ws : List Nat) (hs : bootTarget s = true ∨ portOpen s h typ = false) : s.passedBy h typ ws = s :=
  if_pos (c := (bootTarget s || !portOpen s h typ) = true) (by rcases hs with hs | hs <;> simp [hs])

/-- A frame that reaches no user here is passed by (R418 to R420, R423). -/
theorem pstTakeWith_passedBy (ws : List Nat) (f : State → State) (hh : s.hears h typ = false) :
    pstTakeWith s h typ ws f = s.passedBy h typ ws := by
  cases hb : bootTarget s with
  | true => rw [passedBy_stopped ws (.inl hb), pstTakeWith_boot ws f hb hh]
  | false =>
    cases ho : portOpen s h typ with
    | false => rw [passedBy_stopped ws (.inr ho), pstTakeWith_shut ws f hb ho]
    | true =>
      rw [pstTakeWith_open ws f hb ho, passedBy_open ws hb ho]
      have hothers (hf : forOthers s h = true) : (h.bstr || h.ball || h.dst ≠ ownAddr s) = true := by
        rw [(Bool.and_eq_true_iff.mp hf).2, Bool.or_true]
      dsimp only
      by_cases hd : isData typ = true
      · rw [if_pos hd, if_pos hd]
        by_cases hfree : ((s.pport h.port).addrBad || (s.pport h.port).masterBad || timingBad s) = true
        · rw [if_pos hfree, if_pos hfree]
        by_cases hcarry : (!portCarries s h.port typ || cascStopped s) = true
        · rw [if_neg hfree, if_neg hfree, if_pos hcarry, if_pos hcarry]
        have hf : forOthers s h = true := by
          simp only [Bool.not_eq_true, Bool.or_eq_false_iff, Bool.not_eq_false'] at hfree hcarry
          refine forOthers_of_open hb ho hcarry.1 ?_ hh
          rw [if_pos hd]
          exact ⟨hfree.1.1, hfree.1.2, hfree.2, hcarry.2⟩
        rw [if_neg hfree, if_neg hfree, if_neg hcarry, if_neg hcarry, if_pos (hothers hf), hf, Bool.or_true, if_pos rfl, forOthers_pstForward, hf, if_pos rfl]
      · rw [if_neg hd, if_neg hd]
        by_cases hcarry : (!portCarries s h.port typ || ((s.pport h.port).masterBad && typ ≠ 1 && typ ≠ 2)) = true
        · rw [if_pos hcarry, if_pos hcarry]
        have hf : forOthers s h = true := by
          simp only [Bool.not_eq_true, Bool.or_eq_false_iff, Bool.not_eq_false', Bool.and_eq_false_iff, decide_eq_false_iff_not, not_not] at hcarry
          refine forOthers_of_open hb ho hcarry.1 ?_ hh
          rw [if_neg hd]
          exact or_assoc.mp hcarry.2
        rw [if_neg hcarry, if_neg hcarry, hothers hf, hf, Bool.or_true]
        split
        · rw [forOthers_pstForward, hf, if_pos rfl]
        · rfl

theorem pstTake_passedBy (t : Nat) (f : State → State) (hh : s.hears h typ = false) : pstTake (s.at t) h typ f = (s.at t).passedBy h typ [] :=
  pstTakeWith_passedBy [] f (show (s.at t).hears h typ = false from hh)

end PassedBy

/-- The Piste frames with a user take their way to him. -/
theorem exec_pisteFrame (s : State) {i : Instr} {a : PstHdr × Nat × Nat} (h : pisteFrame i = some a) :
    ∃ f, exec i s = done (pstTake (s.at a.2.2) a.1 a.2.1 f) := by
  revert a
  cases i with
  | _ => rintro _ ⟨⟩ <;> exact ⟨_, rfl⟩

/-- Settles O6: a host access is decided by its gate (Laws.Host), a security command by its request, and a Piste frame that is not heard falls
under each test of `pstTakeWith` as under that of `passedBy`, forwarding leaving the device's address. -/
theorem accessesTurnedAway : Obligations.AccessesTurnedAway := by
  unfold Obligations.AccessesTurnedAway
  refine ⟨?_, ?_, ?_, ?_⟩
  · intro s i a ha
    obtain ⟨f, he⟩ := exec_hostAccess s ha
    simp only [he]
    exact ⟨fun h => congrArg done (accessed_locked f h), fun h => congrArg done (accessed_denied f h), fun h => congrArg done (accessed_held f h),
      fun h => congrArg done (accessed_code f h), fun h => congrArg done (accessed_code f h)⟩
  · intro s j b hb
    obtain ⟨f, he, hd⟩ := exec_hostAccessThen s hb
    obtain ⟨p, off, _ | v, t⟩ := b
    · exact Bool.noConfusion hd
    · simp only [he]
      exact ⟨fun h => congrArg (done ∘ runHeld) (accessed_locked (d := some v) f h), fun h => congrArg (done ∘ runHeld) (accessed_denied (d := some v) f h),
        fun h => congrArg (done ∘ runHeld) (accessed_held (d := some v) f h), fun h => congrArg (done ∘ runHeld) (accessed_code (d := some v) f h)⟩
  · intro s k e hk
    obtain ⟨bad, he⟩ := exec_secAccess s hk
    simp only [he]
    refine ⟨fun h => congrArg done (secGo_ignored h), fun hc hp => ?_⟩
    rw [secGo_writes (s := s.at e.2.2) hc hp]
    exact ⟨fun h => congrArg done (accessed_locked _ h), fun h => congrArg done (accessed_denied _ h), fun h => congrArg done (accessed_held _ h),
      fun h => congrArg done (accessed_code _ h)⟩
  · intro s i a ha hh
    obtain ⟨f, he⟩ := exec_pisteFrame s ha
    exact he.trans (congrArg done (pstTake_passedBy a.2.2 f hh))

end Sys2Proof.Proofs
end

section
/-! PROOFS. What a main-die reset keeps and returns (R464, R472). -/

namespace Sys2Proof.Proofs

open Sys2Proof Sys2Proof.Machine Sys2Proof.Laws

/-! ### PLLs and CLK_STATUS stand in registers alone (R449, R452) -/

theorem clkMarks_only (s : State) : clkMarks s = { s with regs := (clkMarks s).regs } := wrs_only_regs s _

theorem pllStart_cases (s : State) (x : Nat) : pllStart s x = s ∨
    ∃ d n v, pllStart s x = s.wrs [(CLK_PLL_CFG_EN x, 1), (CLK_PLL_CFG_POSTDIV x, d), (CLK_PLL_CFG_N x, n), (CLK_PLL_FRAC_FRAC x, v)] :=
  (ite_eq_or_eq _ _ _).imp_right fun h => ⟨_, _, _, h⟩

theorem pllStart_only (s : State) (x : Nat) : pllStart s x = { s with regs := (pllStart s x).regs } := by
  obtain h | ⟨d, n, v, h⟩ := pllStart_cases s x
  · rw [h]
  · rw [h]; exact wrs_only_regs s _

/-- The PLLs that take a proven source start. -/
def provenPlls (s : State) : State := (List.range 5).foldl (fun s x => if bit s.clk.proven (pllRef s x) then pllStart s x else s) s

theorem provenPlls_only (s : State) : provenPlls s = { s with regs := (provenPlls s).regs } := by
  unfold provenPlls
  generalize List.range 5 = l
  induction l generalizing s with
  | nil => rfl
  | cons x r ih =>
    rw [List.foldl_cons, ih]
    split
    · rw [pllStart_only]
    · rfl

/-- The registers that the PLLs and CLK_STATUS occupy. -/
def clkKeys : List Nat :=
  (List.range 5).flatMap (fun x => [(CLK_PLL_CFG_EN x).key, (CLK_PLL_CFG_POSTDIV x).key, (CLK_PLL_CFG_N x).key, (CLK_PLL_FRAC_FRAC x).key])
    ++ [CLK_STATUS_FRC_PROVEN.key, CLK_STATUS_SRC_OK.key, CLK_STATUS_XA_OK.key, CLK_STATUS_XB_OK.key, CLK_STATUS_PLL_LOCK.key]

section Keys

variable {f : Fld} (hf : f.key ∉ clkKeys)

include hf

theorem clkMarks_rd (s : State) : (clkMarks s).rd f = s.rd f := by
  refine rd_wrs_ne s _ f fun p hp he => hf (List.mem_append_right _ ?_)
  simp only [List.mem_cons, List.not_mem_nil, or_false] at hp
  rcases hp with rfl | rfl | rfl | rfl | rfl <;> simp [he]

theorem pllStart_rd (s : State) {x : Nat} (hx : x < 5) : (pllStart s x).rd f = s.rd f := by
  obtain h | ⟨d, n, v, h⟩ := pllStart_cases s x
  · rw [h]
  · rw [h]
    refine rd_wrs_ne s _ f fun p hp he => hf (List.mem_append_left _ (List.mem_flatMap.mpr ⟨x, List.mem_range.mpr hx, ?_⟩))
    simp only [List.mem_cons, List.not_mem_nil, or_false] at hp
    rcases hp with rfl | rfl | rfl | rfl <;> simp [he]

theorem provenPlls_rd (s : State) : (provenPlls s).rd f = s.rd f := by
  unfold provenPlls
  have hl : ∀ x ∈ List.range 5, x < 5 := fun x => List.mem_range.mp
  generalize List.range 5 = l at hl
  induction l generalizing s with
  | nil => rfl
  | cons x r ih =>
    rw [List.foldl_cons, ih _ fun y hy => hl y (List.mem_cons_of_mem x hy)]
    split
    · exact pllStart_rd hf s (hl x List.mem_cons_self)
    · rfl

end Keys

/-! ### The parts of the state after a reset -/

/-- A reset clears the state but for the parts named, and then starts the PLLs whose source stays proven. -/
theorem mainReset_shape (s : State) (l : Nat) : ∃ x : State,
    (mainReset s l = let u := clkMarks (provenPlls x); if u.err.jtag then u.wr ERR_STATUS_FAIL_SILENT 1 else u)
      ∧ x.regs = resetRegs l s.regs ∧ x.err.jtag = (s.err.jtag && l = 5)
      ∧ x.img = { ImgSt.reset with slotA := s.img.slotA, slotB := s.img.slotB } ∧ x.seq = State.reset.seq
      ∧ x.saf = (if l = 0 then SafSt.reset else (safDiscard s).saf) ∧ x.jnl = { JnlSt.reset with nand := s.jnl.nand } ∧ x.log.ring = s.log.ring
      ∧ x.tim.coarse = (if l = 0 then none else s.tim.coarse) ∧ x.clk = clkReset s.clk l :=
  ⟨_, rfl, rfl, rfl, rfl, rfl, rfl, rfl, rfl, rfl, rfl⟩

theorem mainReset_parts (s : State) (l : Nat) :
    let u := mainReset s l
    u.img = { ImgSt.reset with slotA := s.img.slotA, slotB := s.img.slotB } ∧ u.seq = State.reset.seq
      ∧ u.saf = (if l = 0 then SafSt.reset else (safDiscard s).saf) ∧ u.jnl = { JnlSt.reset with nand := s.jnl.nand } ∧ u.log.ring = s.log.ring
      ∧ u.tim.coarse = (if l = 0 then none else s.tim.coarse) ∧ u.clk = clkReset s.clk l := by
  obtain ⟨x, hu, -, -, hparts⟩ := mainReset_shape s l
  have hx : mainReset s l = { x with regs := (mainReset s l).regs } := by
    rw [hu]
    dsimp only
    split
    · rw [clkMarks_only, provenPlls_only]
      rfl
    · rw [clkMarks_only, provenPlls_only]
  rw [hx]
  exact hparts

/-- After POR, PIN and SYS a register beside those of the PLLs reads its reset value, or as before where its Reset column keeps it: boundary
scan is off, so that nothing stays fail-silent. -/
theorem mainReset_rd (s : State) {l : Nat} (hl : l ≠ 5) {f : Fld} (hf : f.key ∉ clkKeys) :
    (mainReset s l).rd f = if bit (resetLetters f.key) l then (resetValue f.key).toNat else s.rd f := by
  obtain ⟨x, hu, hregs, hjtag, -⟩ := mainReset_shape s l
  have hoff : (clkMarks (provenPlls x)).err.jtag = false := by
    rw [clkMarks_only, provenPlls_only]
    simp [hjtag, hl]
  have hread : x.rd f = (sget resetValue (resetRegs l s.regs) f.key).toNat := by rw [← hregs]; rfl
  rw [hu]
  dsimp only
  rw [hoff, if_neg Bool.false_ne_true, clkMarks_rd hf, provenPlls_rd hf, hread, resetRegs, sget_skeep]
  cases bit (resetLetters f.key) l <;> rfl

end Sys2Proof.Proofs
end

section
/-! PROOFS. O58: DOZE, WAKE, SLEEP, the end of the SLEEP entry and the return from SLEEP. -/

namespace Sys2Proof.Proofs

open Sys2Proof Sys2Proof.Machine Sys2Proof.Laws

section Requests

variable {s : State} {p : Path} {t : Nat} (h : s.lets p 0x20008)

include h

theorem exec_pwrDoze : exec (.pwrDoze p t) s = done (pwrDoze (s.taken p t)) := congrArg done (hostDo_lets s p _ _ t _ h)

theorem exec_pwrSleep : exec (.pwrSleep p t) s = done (pwrSleep (s.taken p t)) := congrArg done (hostDo_lets s p _ _ t _ h)

theorem exec_pwrWake : exec (.pwrWake p t) s = done (runHeld (pwrWake (s.taken p t))) :=
  congrArg (fun x => done (runHeld x)) (hostDo_lets s p _ _ t _ h)

end Requests

theorem rd_wrs_fst (s : State) (f g : Fld) (v w : Nat) (h : f.key ≠ g.key) (hw : f.w ≤ 32) : (s.wrs [(f, v), (g, w)]).rd f = v % 2 ^ f.w :=
  (rd_wr_ne _ g f w h).trans (rd_wr_same s f v hw)

theorem rd_wrs_snd (s : State) (f g : Fld) (v w : Nat) (hw : g.w ≤ 32) : (s.wrs [(f, v), (g, w)]).rd g = w % 2 ^ g.w :=
  rd_wr_same _ g w hw

theorem asleep_taken (s : State) (p : Path) (t : Nat) : asleep (s.taken p t) = asleep s := rfl

/-! ### SLEEP entry (R469) -/

/-- The entry leaves of the state what no step of it names; CLK_STATUS stands beside the rest. -/
theorem sleepEnter_shape (s : State) : ∃ x : State, sleepEnter s = clkMarks x ∧ x.rd RST_PWR_STS_STATE = 5 ∧ x.saf.conf = none
    ∧ bit x.clk.run 0 = false ∧ (x.tim.coarse = none ↔ s.rd TIM_QUAL_STATE = 0) := by
  refine ⟨_, rfl, ?_, rfl, ?_, ?_⟩
  · change (fmeasAbort (State.wr _ RST_PWR_STS_STATE 5)).rd RST_PWR_STS_STATE = 5
    exact (rd_wr_ne _ CLK_FMEAS_CTRL_GO_BUSY RST_PWR_STS_STATE _ (by decide)).trans (rd_wr_same _ RST_PWR_STS_STATE 5 (by decide))
  · exact (bit_setBit _ _ _ _).trans (if_pos rfl)
  · show (if s.rd TIM_QUAL_STATE = 0 then none else some _) = none ↔ _
    split <;> simp_all

theorem sleepEnter_parts (s : State) :
    (sleepEnter s).rd RST_PWR_STS_STATE = 5 ∧ (sleepEnter s).saf.conf = none ∧ bit (sleepEnter s).clk.run 0 = false
      ∧ ((sleepEnter s).tim.coarse = none ↔ s.rd TIM_QUAL_STATE = 0) := by
  obtain ⟨x, hx, hpwr, hparts⟩ := sleepEnter_shape s
  rw [hx]
  refine ⟨(clkMarks_rd (by decide) x).trans hpwr, ?_⟩
  rw [clkMarks_only]
  exact hparts

/-! ### The end of the entry (R469, R518) -/

theorem incidentCopy_tim (s : State) : (incidentCopy s).tim = s.tim := by
  unfold incidentCopy logFree
  dsimp only
  split
  · rfl
  split
  · simp only [wrs_tim, wr_tim]
  · rfl

theorem incidentCopy_img (s : State) : (incidentCopy s).img = s.img := by
  unfold incidentCopy logFree
  dsimp only
  split
  · rfl
  split
  · simp only [wrs_img, wr_img]
  · rfl

theorem pcieDown_parts (s : State) : (pcieDown s).tim = s.tim ∧ (pcieDown s).img = s.img := by
  unfold pcieDown
  split
  · simp
  · exact ⟨rfl, rfl⟩

/-- What is left of the journal and the incident log when the reset comes, with the PCIe link down. -/
def sleepLeft (s : State) (copied : Bool) : State :=
  let left : Bool := s.jnl.ring.any fun e => e.2.final && !e.2.copied
  let s := pcieDown (if left then report (s.incSat JNL_CNT_MIRROR_GAP 255) 0x0C05 else s)
  if copied then (List.range s.log.unmirrored).foldl (fun s _ => incidentCopy s) s else s

theorem sleepDone_eq (s : State) (src : Nat) (copied : Bool) :
    sleepDone s src copied
      = ((mainReset (sleepLeft s copied) 5).wrs [(RED_FEED_FEEDSEL_A, 0), (RED_FEED_FEEDSEL_B, 0)]).ck fun c => { c with off := some src } := rfl

/-- It leaves coarse time and the image slots. -/
theorem sleepLeft_parts (s : State) (copied : Bool) : (sleepLeft s copied).tim = s.tim ∧ (sleepLeft s copied).img = s.img := by
  have hgap : ∀ left : Bool, let x := pcieDown (if left then report (s.incSat JNL_CNT_MIRROR_GAP 255) 0x0C05 else s)
      x.tim = s.tim ∧ x.img = s.img := fun left => by
    obtain ⟨ht, hi⟩ := pcieDown_parts (if left then report (s.incSat JNL_CNT_MIRROR_GAP 255) 0x0C05 else s)
    dsimp only
    rw [ht, hi]
    cases left <;> simp
  obtain ⟨ht, hi⟩ := hgap (s.jnl.ring.any fun e => e.2.final && !e.2.copied)
  unfold sleepLeft
  cases copied with
  | false => exact ⟨ht, hi⟩
  | true =>
    exact ⟨(foldl_keeps State.tim _ (fun s _ => incidentCopy_tim s) _ _).trans ht,
      (foldl_keeps State.img _ (fun s _ => incidentCopy_img s) _ _).trans hi⟩

theorem sleepDone_parts (s : State) (src : Nat) (copied : Bool) :
    let u := sleepDone s src copied
    u.clk.off = some src ∧ u.saf.conf = none ∧ u.img.secs = [] ∧ u.rd RED_FEED_FEEDSEL_A = 0 ∧ u.rd RED_FEED_FEEDSEL_B = 0
      ∧ u.tim.coarse = s.tim.coarse ∧ u.img.slotA = s.img.slotA := by
  obtain ⟨ht, hi⟩ := sleepLeft_parts s copied
  obtain ⟨himg, -, hsaf, -, -, htim, -⟩ := mainReset_parts (sleepLeft s copied) 5
  rw [sleepDone_eq]
  refine ⟨rfl, ?_, ?_, ?_, ?_, ?_, ?_⟩
  · exact (congrArg SafSt.conf hsaf).trans rfl
  · exact (congrArg ImgSt.secs himg).trans rfl
  · exact (rd_wrs_fst _ RED_FEED_FEEDSEL_A RED_FEED_FEEDSEL_B 0 0 (by decide) (by decide) :)
  · exact (rd_wrs_snd _ RED_FEED_FEEDSEL_A RED_FEED_FEEDSEL_B 0 0 (by decide) :)
  · exact htim.trans (congrArg TimSt.coarse ht)
  · exact (congrArg ImgSt.slotA himg).trans (show (sleepLeft s copied).img.slotA = _ from congrArg ImgSt.slotA hi)

/-! ### The requests by the power state (R467 to R470) -/

section Power

variable {s : State}

theorem pwrDoze_asleep (ha : asleep s = true) : pwrDoze s = s := if_pos ha

theorem pwrDoze_hold (ha : asleep s = false) (hst : s.rd RST_PWR_STS_STATE = 1) :
    pwrDoze s = dozeEnter (gateReq (gateReq (s.wr RST_PWR_STS_STATE 2) 3 2) 5 2) :=
  (if_neg (ne_true_of_eq_false ha)).trans (if_neg (not_not.mpr hst))

theorem pwrDoze_refused (ha : asleep s = false) (hst : s.rd RST_PWR_STS_STATE ≠ 1) : pwrDoze s = pwrRefuse s :=
  (if_neg (ne_true_of_eq_false ha)).trans (if_pos hst)

theorem pwrWake_awake (hst : s.rd RST_PWR_STS_STATE ≠ 3) : pwrWake s = s := if_pos hst

theorem pwrSleep_asleep (ha : asleep s = true) : pwrSleep s = s := if_pos ha

/-- SLEEP may be entered: from HOLD or DOZE, while AON does not run on its fallback (R469). -/
def maySleep (s : State) : Bool := (s.rd RST_PWR_STS_STATE == 1 || s.rd RST_PWR_STS_STATE == 3) && domState s 0 != 2

theorem pwrSleep_awake (ha : asleep s = false) : pwrSleep s = if maySleep s then sleepEnter s else pwrRefuse s := by
  unfold pwrSleep
  rw [if_neg (ne_true_of_eq_false ha), ← ite_bnot (maySleep s)]
  congr 1
  simp [maySleep, beq_eq_decide, bne]

theorem pwrSleep_may (ha : asleep s = false) (hmay : maySleep s = true) : pwrSleep s = sleepEnter s := (pwrSleep_awake ha).trans (if_pos hmay)

theorem pwrSleep_refused (ha : asleep s = false) (hmay : maySleep s = false) : pwrSleep s = pwrRefuse s :=
  (pwrSleep_awake ha).trans (if_neg (ne_true_of_eq_false hmay))

/-- SLEEP is left (R470), before coarse time is taken up again. -/
def sleepLeave (s : State) : State :=
  (((s.ck fun x => { x with off := none, run := setBit x.run 0 true, wake := 0 }).rs fun r => { r with wakeN := bit s.clk.wake 0 }).incSat
    RST_CNT2_SLEEP_CNT 0xFFFF).wrs [(RST_CAUSE_CAUSE, 32), (RED_FEED_FEEDSEL_A, 1 - s.rd RED_FEED_A_LOST), (RED_FEED_FEEDSEL_B, 1 - s.rd RED_FEED_B_LOST)]

theorem sleepLeave_tim : (sleepLeave s).tim = s.tim := (wrs_tim _ _).trans rfl

/-- A wake cause stands, and SLEEP has lasted long enough. -/
def sleepWakes (s : State) (src o : Nat) : Bool := s.clk.wake != 0 && decide (o + 328 ≤ src)

/-- The time base resumes from coarse time in holdover (R318). -/
def coarseResume (s : State) (src : Nat) (c : CoarseSt) : State :=
  enterHoldover (s.tb fun t =>
    { t with coarse := none, cnt := 0, cntA := 0, tA := c.time + ((src * c.ratio : Nat) : Int), rate := 0 }) (61000 + src * c.ratio / 65536 / 10000)

theorem exec_sleepExit (src : Nat) :
    exec (.sleepExit src) s = done (match s.clk.off with
      | none => s
      | some o => if sleepWakes s src o then (match s.tim.coarse with
        | none => sleepLeave s
        | some c => coarseResume (sleepLeave s) src c) else s) := by
  have hlost : ∀ f : Fld, f.key ≠ RST_CNT2_SLEEP_CNT.key → ∀ (x : State) m, (x.incSat RST_CNT2_SLEEP_CNT m).rd f = x.rd f := fun f hf x m =>
    rd_wr_ne x _ f _ hf
  change execSleepExit src s = _
  unfold execSleepExit
  refine congrArg done ?_
  cases hoff : s.clk.off with
  | none => rfl
  | some o =>
    dsimp only
    rw [hlost _ (by decide), hlost _ (by decide)]
    have hwakes : (decide (s.clk.wake = 0) || decide (src < o + 328)) = !sleepWakes s src o := by
      simp only [sleepWakes, Bool.not_and, bne, beq_eq_decide, ← decide_not, Nat.not_le, not_not]
    rw [hwakes, ite_bnot]
    refine congrArg (fun x => if sleepWakes s src o = true then x else s) ?_
    rw [show s.tim.coarse = (sleepLeave s).tim.coarse by rw [sleepLeave_tim]]
    rfl

end Power


/-- Settles O58: each request is decided by the power state; the entry writes STATE and coarse time, and its end is a Z reset. -/
theorem powerStatesAreEntered : Obligations.PowerStatesAreEntered := by
  unfold Obligations.PowerStatesAreEntered
  refine ⟨?_, ?_, ?_⟩
  · intro s p t h
    dsimp only
    rw [exec_pwrDoze h, exec_pwrSleep h, exec_pwrWake h]
    refine ⟨fun ha => ⟨congrArg done (pwrDoze_asleep ha), congrArg done (pwrSleep_asleep ha)⟩, fun ha hst => congrArg done (pwrDoze_hold ha hst),
      fun ha hst => congrArg done (pwrDoze_refused ha hst), fun hst => congrArg (fun x => done (runHeld x)) (pwrWake_awake hst), fun _ => ?_,
      fun ha hmay => congrArg done (pwrSleep_may ha hmay), fun ha hmay => congrArg done (pwrSleep_refused ha hmay), sleepEnter_parts (s.taken p t)⟩
    rfl
  · intro s src t copied
    exact ⟨fun h => congrArg done (if_pos h), fun h => congrArg done (if_neg h), sleepDone_parts (s.at t) src copied⟩
  · intro s src o
    dsimp only
    rw [exec_sleepExit]
    refine ⟨fun hoff hwakes => ?_, ?_⟩
    · rw [hoff]
      have hgo : sleepWakes s src o = true := hwakes
      refine ⟨fun hc => ?_, fun c hc => ?_⟩
      · simp only [hgo, hc, if_true]
        rfl
      · rw [Option.mem_def] at hc
        simp only [hgo, hc, if_true]
        rfl
    · rintro (hoff | ⟨hoff, hwakes⟩)
      · rw [hoff]
        rfl
      · rw [hoff]
        exact congrArg done (if_neg (ne_true_of_eq_false hwakes))

end Sys2Proof.Proofs
end

section
/-! PROOFS. O8: the frequency counter (R462). -/

namespace Sys2Proof.Proofs

open Sys2Proof Sys2Proof.Machine Sys2Proof.Laws

/-- The word that a GO writes has GO set. -/
theorem bit_goWord (v : Nat) : bit (v % 2 ^ 31 + 2 ^ 31) 31 = true := by
  have hlow : bit (v % 2 ^ 31) 31 = false := by
    rw [bit_mod_two_pow]
    rfl
  exact (bit_add_two_pow 31 hlow).trans (if_pos rfl)

section Write

variable {s : State} {v : Nat}

/-- The state after an ABORT of the same write, if it holds one. -/
def aborted (s : State) (v : Nat) : State := if bit v 30 then s.wr CLK_FMEAS_CTRL_GO_BUSY 0 else s

theorem aborted_busy : (aborted s v).flag CLK_FMEAS_CTRL_GO_BUSY = (!bit v 30 && s.flag CLK_FMEAS_CTRL_GO_BUSY) := by
  unfold aborted State.flag
  cases bit v 30 with
  | true => rw [if_pos rfl, rd_wr_same s _ _ (by decide)]; rfl
  | false => rfl

/-- A write with GO, by its fields (R462). -/
theorem fmeasWrite_go (h31 : bit v 31 = true) : fmeasWrite s v =
    if v % 1024 = 0 then refuse (aborted s v) 0x0F0A
    else if (1000 < v % 1024 || 13 ≤ bitsOf v 27 24 || 13 ≤ bitsOf v 23 20) then refuse (aborted s v) 0x0F0B
    else if (!bit v 30 && s.flag CLK_FMEAS_CTRL_GO_BUSY) then refuse (aborted s v) 0x0F0C
    else
      let s1 := (aborted s v).wrs [(CLK_FMEAS_CTRL_REF, bitsOf v 27 24), (CLK_FMEAS_CTRL_MEAS, bitsOf v 23 20), (CLK_FMEAS_CTRL_GATE_MS, v % 1024)]
      let go (x : State) (cnt : Nat) : State := x.wrs [(CLK_FMEAS_CTRL_GO_BUSY, 1), (CLK_FMEAS_CTRL_DONE, 0), (CLK_FMEAS_REFCNT_REFCNT, cnt)]
      if fmeasHz s1 (bitsOf v 27 24) = 0 then go s1.draw.2 s1.draw.1
      else go s1 (divRne ((v % 1024 * fmeasHz s1 (bitsOf v 27 24) : Nat) : Int) 1000).toNat := by
  rw [← aborted_busy]
  unfold fmeasWrite
  simp only [h31, Bool.not_true, Bool.and_false, Bool.false_eq_true, if_false, Bool.true_and]
  by_cases hms : v % 1024 = 0
  · rw [if_pos hms, if_pos hms]
    rfl
  by_cases hbad : (1000 < v % 1024 || 13 ≤ bitsOf v 27 24 || 13 ≤ bitsOf v 23 20) = true
  · rw [if_neg hms, if_neg hms, if_pos hbad, if_pos hbad]
    rfl
  rw [if_neg hms, if_neg hms, if_neg hbad, if_neg hbad]
  rw [show (if bit v 30 = true then fmeasAbort s else s) = aborted s v from rfl]
  refine congrArg (ite _ _) ?_
  split <;> rfl

end Write

/-- Settles O8: GO is decided by its fields and by the measurement that runs. -/
theorem frequencyCounterRuns : Obligations.FrequencyCounterRuns := by
  unfold Obligations.FrequencyCounterRuns
  refine ⟨?_, fun s p t h => congrArg done (hostDo_lets s p _ _ t _ h), ?_⟩
  · intro s p v t
    dsimp only
    generalize hw : v % 2 ^ 31 + 2 ^ 31 = w
    intro h
    have he : exec (.fmeasGo p v t) s = done (fmeasWrite (s.taken p t) w) := by
      rw [← hw]
      exact congrArg done (hostDo_lets s p _ _ t _ h)
    rw [he, fmeasWrite_go (hw ▸ bit_goWord v)]
    have hbad {ms rf me : Nat} (hb : 1000 < ms ∨ 13 ≤ rf ∨ 13 ≤ me) : (1000 < ms || 13 ≤ rf || 13 ≤ me) = true := by
      simpa [or_assoc] using hb
    have hgood {ms rf me : Nat} (h1 : ms ≤ 1000) (h2 : rf < 13) (h3 : me < 13) : ¬ (1000 < ms || 13 ≤ rf || 13 ≤ me) = true := by
      simp only [Bool.or_eq_true, decide_eq_true_eq]
      omega
    refine ⟨fun h1 h2 h3 h4 h5 => ?_, fun h1 => ?_, fun h1 => ?_, fun h1 h2 => ?_, fun h1 h2 h3 h4 h5 h6 => ?_⟩
    · have hfree : ¬ (!bit w 30 && (s.taken p t).flag CLK_FMEAS_CTRL_GO_BUSY) = true := by
        rcases h5 with h5 | h5 <;> simp [h5]
      rw [if_neg (by omega), if_neg (hgood h2 h3 h4), if_neg hfree]
      rfl
    · rw [if_pos h1]
      rfl
    · rw [if_neg (by omega), if_pos (hbad (.inl h1))]
      rfl
    · rw [if_neg (by omega), if_pos (hbad (.inr h2))]
      rfl
    · have hbusy : (!bit w 30 && (s.taken p t).flag CLK_FMEAS_CTRL_GO_BUSY) = true := by
        rw [h5, taken_flag, h6]
        rfl
      rw [if_neg (by omega), if_neg (hgood h2 h3 h4), if_pos hbusy]
      rfl
  · intro s count t
    refine ⟨fun hb hr => congrArg done (if_neg ?_), fun h => congrArg done (if_pos ?_)⟩
    · rw [show (s.at t).flag CLK_FMEAS_CTRL_GO_BUSY = true from hb, show fmeasRuns (s.at t) ((s.at t).rd CLK_FMEAS_CTRL_REF) = true from hr]
      decide
    · rcases h with hb | hr
      · rw [show (s.at t).flag CLK_FMEAS_CTRL_GO_BUSY = false from hb]
        rfl
      · rw [show fmeasRuns (s.at t) ((s.at t).rd CLK_FMEAS_CTRL_REF) = false from hr, Bool.not_false, Bool.or_true]

end Sys2Proof.Proofs
end

section
/-! PROOFS. O9: sources that are proven and PLLs that lock (R449, R452). -/

namespace Sys2Proof.Proofs

open Sys2Proof Sys2Proof.Machine Sys2Proof.Laws

/-! ### A source is proven (R449) -/

section Source

variable {s : State} {k : Nat}

/-- The source is marked, and the PLLs that take it start. -/
def provenStarts (s : State) (k : Nat) : State :=
  (List.range 5).foldl (fun s x => if pllRef s x = k then pllStart s x else s)
    (clkMarks (s.ck fun x => { x with proven := setBit x.proven k true, since := x.since.set k s.tim.cnt }))

/-- The source may become proven: it is one, it runs, and it is not proven yet; FRC not once it is bad. -/
def mayProve (s : State) (k : Nat) : Bool :=
  k < 6 && !bit s.clk.proven k && (bit s.clk.run k || 4 ≤ k) && !(k = 0 && s.flag CLK_STATUS_FRC_BAD)

theorem mayProve_not :
    (6 ≤ k || bit s.clk.proven k || !(bit s.clk.run k || 4 ≤ k) || (k = 0 && s.flag CLK_STATUS_FRC_BAD)) = !mayProve s k := by
  simp only [mayProve, Bool.not_and, Bool.not_or, Bool.not_not, ← decide_not, Nat.not_lt, not_not]

theorem sourceProven_not (h : mayProve s k = false) : sourceProven s k = s :=
  if_pos (mayProve_not.trans (congrArg not h))

/-- Domains that waited for FRC move to it. -/
def frcServes (s : State) : State :=
  (List.range 12).foldl (fun s d => if domState s d = 3 then onFallback (report (moveDom s d false false) 0x0F01 d) d else s)
    (if s.clk.released && domState s 1 = 4 then setDom s 1 0 true else s)

/-- Step 2 of a start: FEEDSEL rises for each feed that is not lost. -/
def feedsRise (s : State) : State :=
  if s.clk.rails || s.clk.released then s
  else s.wrs [(RED_FEED_FEEDSEL_A, 1 - s.rd RED_FEED_A_LOST), (RED_FEED_FEEDSEL_B, 1 - s.rd RED_FEED_B_LOST)]

theorem sourceProven_may (h : mayProve s k = true) :
    sourceProven s k = if k = 0 then frcServes (provenStarts s 0) else if k = 1 then feedsRise (provenStarts s 1) else provenStarts s k := by
  have hgo := mayProve_not (s := s) (k := k)
  rw [h, Bool.not_true] at hgo
  unfold sourceProven
  rw [if_neg (ne_true_of_eq_false hgo)]
  dsimp only
  split
  · rw [if_pos rfl, frcServes, provenStarts]
  · rw [if_neg Nat.one_ne_zero, if_pos rfl, feedsRise, provenStarts]
  next h0 h1 => rw [if_neg h0, if_neg h1, provenStarts]

end Source

/-! ### A PLL locks (R452) -/

section Pll

variable {s : State} {x : Nat}

/-- A PLL may lock: it is one that runs, its reference is proven, and it has not locked yet. -/
def mayLock (s : State) (x : Nat) : Bool :=
  x < 5 && s.flag (CLK_PLL_CFG_EN x) && sourceOk s (pllRef s x) && !s.flag (CLK_PLL_CFG_LOCKED x)

/-- The PLL is marked locked. -/
def lockMarked (s : State) (x : Nat) : State :=
  (clkMarks (s.wr (CLK_PLL_CFG_LOCKED x) 1)).ck fun c => { c with since := c.since.set (6 + x) s.tim.cnt }

/-- The domain behind PLL-A or PLL-V starts, which may end a DOZE exit. -/
def lockEnds (s : State) (d : Nat) : State := dozeExit (lockStart (updDom s d fun y => { y with doze := false }) d)

theorem clkMarks_tim (s : State) : (clkMarks s).tim = s.tim := by rw [clkMarks_only]

theorem mayLock_not :
    (5 ≤ x || !s.flag (CLK_PLL_CFG_EN x) || !sourceOk s (pllRef s x) || s.flag (CLK_PLL_CFG_LOCKED x)) = !mayLock s x := by
  simp only [mayLock, Bool.not_and, Bool.not_not, ← decide_not, Nat.not_lt]

theorem pllLocked_not (h : mayLock s x = false) : pllLocked s x = s := if_pos (mayLock_not.trans (congrArg not h))

theorem pllLocked_may (h : mayLock s x = true) : pllLocked s x =
    if x = 0 then lockEnds (lockMarked s 0) 5
    else if x = 1 then timRefBack (lockMarked s 1)
    else if x = 3 then lockEnds (lockMarked s 3) 3
    else lockMarked s x := by
  have hgo := mayLock_not (s := s) (x := x)
  rw [h, Bool.not_true] at hgo
  unfold pllLocked
  rw [if_neg (ne_true_of_eq_false hgo)]
  unfold lockEnds lockMarked
  obtain rfl | h0 := eq_or_ne x 0
  · simp only [if_true, Nat.zero_ne_one, if_false, clkMarks_tim, wr_tim]
  obtain rfl | h1 := eq_or_ne x 1
  · simp only [if_true, Nat.one_ne_zero, if_false, OfNat.one_ne_ofNat, clkMarks_tim, wr_tim]
  obtain rfl | h3 := eq_or_ne x 3
  · simp only [if_true, if_false, OfNat.ofNat_ne_zero, OfNat.ofNat_ne_one, clkMarks_tim, wr_tim]
  · simp only [h0, h1, h3, if_false, clkMarks_tim, wr_tim]

end Pll

/-- Settles O9: by whether the source may become proven and the PLL may lock. -/
theorem sourcesAndPllsBecomeUsable : Obligations.SourcesAndPllsBecomeUsable := by
  unfold Obligations.SourcesAndPllsBecomeUsable
  refine ⟨?_, ?_⟩
  · intro s k t s0 s1
    have hs1 : s1 = provenStarts (s.at t) k := rfl
    clear_value s1
    subst hs1
    refine ⟨fun h => ?_, fun hk hp hr hb => ?_⟩
    · have hnot : mayProve (s.at t) k = false := by
        rw [← Bool.not_eq_true', ← mayProve_not]
        simp only [Bool.or_eq_true, Bool.and_eq_true, decide_eq_true_eq, Bool.not_eq_true', Bool.or_eq_false_iff, decide_eq_false_iff_not, not_le]
        tauto
      exact congrArg (fun x => done (runHeld x)) (sourceProven_not hnot)
    · have hmay : mayProve (s.at t) k = true := by
        rw [← Bool.not_eq_false', ← mayProve_not]
        simp only [Bool.or_eq_false_iff, Bool.and_eq_false_iff, decide_eq_false_iff_not, Bool.not_eq_false', Bool.or_eq_true, decide_eq_true_eq, not_le]
        tauto
      have he : exec (.sourceProven k t) s = done (runHeld (sourceProven (s.at t) k)) := rfl
      rw [he, sourceProven_may hmay]
      refine ⟨fun h2 => ?_, ?_, ?_⟩
      · rw [if_neg (by omega), if_neg (by omega)]
        rfl
      · rintro rfl
        rw [if_neg Nat.one_ne_zero, if_pos rfl]
        rfl
      · rintro rfl
        rw [if_pos rfl]
        rfl
  · intro s x t s1 starts
    have hs1 : s1 = lockMarked (s.at t) x := rfl
    clear_value s1
    subst hs1
    refine ⟨fun hx he hs hl => ?_, fun h => ?_⟩
    · have hmay : mayLock (s.at t) x = true := by
        simp only [mayLock, Bool.and_eq_true, decide_eq_true_eq, Bool.not_eq_true']
        exact ⟨⟨⟨hx, he⟩, hs⟩, hl⟩
      have he : exec (.pllLocked x t) s = done (runHeld (pllLocked (s.at t) x)) := rfl
      rw [he, pllLocked_may hmay]
      refine ⟨fun h2 => ?_, ?_, ?_, ?_⟩
      · rw [if_neg (by omega), if_neg (by omega), if_neg (by omega)]
        rfl
      · rintro rfl
        rw [if_neg Nat.one_ne_zero, if_pos rfl]
        rfl
      · rintro rfl
        rw [if_pos rfl]
        rfl
      · rintro rfl
        rw [if_neg (by decide), if_neg (by decide), if_pos rfl]
        rfl
    · have hnot : mayLock (s.at t) x = false := by
        rw [← Bool.not_eq_true', ← mayLock_not]
        simp only [Bool.or_eq_true, decide_eq_true_eq, Bool.not_eq_true']
        tauto
      exact congrArg (fun x => done (runHeld x)) (pllLocked_not hnot)

end Sys2Proof.Proofs
end

section
/-! PROOFS. O11: clock gates and held accesses (R456, R460, R461). -/

namespace Sys2Proof.Proofs

open Sys2Proof Sys2Proof.Machine Sys2Proof.Laws

section Gates

variable {s : State} {d : Nat}

/-- The gates that the host asks for and may not have (R461). -/
def gateBad (s : State) (v : Nat) : Bool :=
  [3, 4, 5, 8].any fun d => bit v d && !((s.dom d).host || bit (s.dom d).pend 0) && !mayGate s d

theorem clkGateReq_bad {v : Nat} (h : gateBad s v = true) : clkGateReq s v = refuse s 0x0F09 := if_pos h

theorem clkGateReq_good {v : Nat} (h : gateBad s v = false) : clkGateReq s v =
    let asked (d : Nat) : Bool := (s.dom d).host || bit (s.dom d).pend 0
    [3, 4, 5, 8].foldl (fun x d =>
      if bit v d then (if asked d then x else gateReq x d 1)
      else if asked d then ungate (updDom x d fun y => { y with host := false, pend := y.pend &&& 2 }) d
      else x) (s.wrs [(CLK_GATE_REQ_LINK, b2n (bit v 8)), (CLK_GATE_REQ_GNSS_C, b2n (bit v 5)), (CLK_GATE_REQ_GNSS_S, b2n (bit v 4)),
        (CLK_GATE_REQ_SOLV, b2n (bit v 3))]) :=
  if_neg (ne_true_of_eq_false h)

/-- A pending gate is given up (R460). -/
def gateGivenUp (s : State) (d : Nat) : State :=
  report ((updDom s d fun y => { y with pend := 0 }).wrs [(CLK_DOM_STS_GATE_PEND d, 0), (CLK_DOM_STS_BUSY_FAIL d, 1)]) 0x0F08 d

theorem gateBusy_none (h : 12 ≤ d ∨ (s.dom d).pend = 0) : gateBusy s d = s := if_pos (by simpa using h)

theorem gateBusy_pending (hd : d < 12) (hp : (s.dom d).pend ≠ 0) : gateBusy s d =
    if !bit (s.dom d).pend 1 then gateGivenUp s d
    else ([3, 5].foldl (fun s e => ungate (updDom s e fun y => { y with doze := false, pend := y.pend &&& 1 }) e) (gateGivenUp s d)).wrs
      [(RST_PWR_STS_STATE, 1), (RST_PWR_STS_REFUSED, 1)] :=
  if_neg (by simp [hd, hp])

end Gates

section Held

variable {s : State} {a : HeldAcc} (ha : s.hst.held = [a])

include ha

theorem accessTimeout_late (h : a.since + usTicks 2000 ≤ s.tim.cnt) : accessTimeout s =
    let u := report { s with hst := { s.hst with held := [] } } 0x0F11
    heldAnswer (if a.data.isNone then u.emit (.read a.path 0) else u) a 0 0 := by
  unfold accessTimeout
  simp [ha, h]

theorem accessTimeout_early (h : s.tim.cnt < a.since + usTicks 2000) : accessTimeout s = s := by
  unfold accessTimeout
  simp only [ha, List.filter_cons, List.filter_nil, decide_eq_false (not_le_of_gt h), Bool.not_false, Bool.false_eq_true, if_true, if_false,
    List.foldl_nil]
  rw [← ha]

end Held

/-- Settles O11: a request by the gates that it may not have, the end of a gate by what is pending, a held access by its time. -/
theorem gatesAndHeldAccesses : Obligations.GatesAndHeldAccesses := by
  unfold Obligations.GatesAndHeldAccesses
  refine ⟨?_, ?_, ?_, ?_⟩
  · intro s p v t h asked bad
    have he : exec (.clkGateReq p v t) s = done (runHeld (clkGateReq (s.taken p t) v)) :=
      congrArg (fun x => done (runHeld x)) (hostDo_lets s p _ _ t _ h)
    rw [he]
    exact ⟨fun hb => congrArg (fun x => done (runHeld x)) (clkGateReq_bad hb), fun hb => congrArg (fun x => done (runHeld x)) (clkGateReq_good hb)⟩
  · intro s d t s1
    refine ⟨fun hd hp hs => congrArg done (if_neg ?_), fun h => congrArg done (if_pos ?_)⟩
    · show ¬ (12 ≤ d || (s.dom d).pend = 0 || domState s d = 1) = true
      simp [hd, hp, hs]
    · show (12 ≤ d || (s.dom d).pend = 0 || domState s d = 1) = true
      simpa [or_assoc] using h
  · intro s d t s1
    have he : exec (.gateBusy d t) s = done (runHeld (gateBusy (s.at t) d)) := rfl
    have hs1 : s1 = gateGivenUp (s.at t) d := rfl
    clear_value s1
    subst hs1
    rw [he]
    refine ⟨fun hd hp hb => ?_, fun hd hb => ?_, fun h => ?_⟩
    · rw [gateBusy_pending (s := s.at t) hd hp, if_pos (by rw [show ((s.at t).dom d).pend = (s.dom d).pend from rfl, hb]; rfl)]
      rfl
    · have hp : (s.dom d).pend ≠ 0 := fun hp => by rw [hp] at hb; exact absurd hb (by decide)
      rw [gateBusy_pending (s := s.at t) hd hp, if_neg (by rw [show ((s.at t).dom d).pend = (s.dom d).pend from rfl, hb]; decide)]
      rfl
    · rw [gateBusy_none (s := s.at t) h]
      rfl
  · intro s a t ha
    exact ⟨fun h => congrArg done (accessTimeout_late (s := s.at t) ha h), fun h => congrArg done (accessTimeout_early (s := s.at t) ha h)⟩

end Sys2Proof.Proofs
end

section
/-! PROOFS. O59, refuted. A class-S fault closes the host-channel sessions, and the place of a session is a number without a bound: a state whose
session stands so far behind the eighth place that SEC_SESS's register of it would be ERR_STATUS loses FAIL_SILENT again. -/

namespace Sys2Proof.Proofs

open Sys2Proof Sys2Proof.Machine Sys2Proof.Laws

/-- The device after reset with one open session, at place 0x87FE0. -/
def farSession : State :=
  { State.reset with sec_ := { SecSt.reset with sess := [⟨0, 0x87FE0, 0, 0, [], [], 0, [], 0, 0, 0, 0, 0⟩] } }

/-- SEC_SESS0 + 4 × 0x87FE0 is the address of ERR_STATUS, and OPEN stands where FAIL_SILENT does. -/
theorem farSession_open : (SEC_SESS_OPEN 0x87FE0).key = ERR_STATUS_FAIL_SILENT.key := by decide

/-- A class-S fault, whatever its mechanism, leaves it able to speak. -/
theorem classS_farSession : ∀ m < 16, (classS farSession.draw.2 ⟨m, 0, 0, none, 0, false, false, false⟩ 7).flag ERR_STATUS_FAIL_SILENT = false := by
  decide +kernel

/-- Refutes O59: its clause on temperatures says of every state that a class-S fault sets FAIL_SILENT. -/
theorem not_backgroundActivities : ¬ Obligations.BackgroundActivities := by
  unfold Obligations.BackgroundActivities
  rintro ⟨-, -, htemp, -⟩
  obtain ⟨-, -, -, hsilent⟩ := htemp farSession 0 0
  have hspeaks : (classOther farSession).flag ERR_STATUS_FAIL_SILENT = false :=
    classS_farSession _ (Nat.mod_lt farSession.draw.1 (by decide))
  exact Bool.false_ne_true (hspeaks.symm.trans hsilent)

end Sys2Proof.Proofs
end

section
/-! PROOFS. O60: requests to the recorder and the incident log (R512, R516 to R518). -/

namespace Sys2Proof.Proofs

open Sys2Proof Sys2Proof.Machine Sys2Proof.Laws

/-! ### Requests (R512, R516) -/

section Clears

variable {s : State} {p : Path} {v w t : Nat}

theorem exec_recClr_hist (hw : w < 2) (h : s.lets p (0x290018 + 4 * w)) :
    exec (.recClr p false w v t) s = done ((s.taken p t).rc fun r => { r with clrHist := r.clrHist ||| v % 2 ^ 32 * 2 ^ (32 * w) }) :=
  congrArg done ((if_neg (not_le_of_gt hw)).trans (hostDo_lets s p _ _ t _ h))

theorem exec_recClr_trk (hw : w < 4) (h : s.lets p (0x290020 + 4 * w)) :
    exec (.recClr p true w v t) s = done ((s.taken p t).rc fun r => { r with clrTrk := r.clrTrk ||| v % 2 ^ 32 * 2 ^ (32 * w) }) :=
  congrArg done ((if_neg (not_le_of_gt hw)).trans (hostDo_lets s p _ _ t _ h))

end Clears

/-! ### The incident log (R513, R516, R517) -/

section Log

variable {s : State}

/-- How far back from the newest entry a sequence number names one. -/
def ackBack (s : State) (v : Nat) : Nat := (s.rd REC_LOG_HEAD_ISEQ + 2 ^ 32 - v % 2 ^ 32) % 2 ^ 32

theorem logAck_outside {v : Nat} (h : s.log.fill ≤ ackBack s v) : logAck s v = refuse s 0x1105 := if_pos h

theorem logAck_inside {v : Nat} (h : ackBack s v < s.log.fill) : logAck s v =
    logFree (({ s with log := { s.log with unacked := min s.log.unacked (ackBack s v) } }).wr REC_LOG_ACK_ISEQ v) :=
  if_neg (not_le_of_gt h)

theorem logRead_last {p : Path} (h : s.log.rdWord = 7) : logRead s p =
    let r := logWord s (s.rd REC_LOG_RD_ADDR_ENTRY) s.log.rdWord
    (({ r.2 with log := { r.2.log with rdWord := 0 } }).wr REC_LOG_RD_ADDR_ENTRY (s.rd REC_LOG_RD_ADDR_ENTRY + 1)).emit (.read p r.1) := by
  unfold logRead
  dsimp only
  rw [if_pos h]

theorem logRead_next {p : Path} (h : s.log.rdWord ≠ 7) : logRead s p =
    let r := logWord s (s.rd REC_LOG_RD_ADDR_ENTRY) s.log.rdWord
    ({ r.2 with log := { r.2.log with rdWord := s.log.rdWord + 1 } }).emit (.read p r.1) := by
  unfold logRead
  dsimp only
  rw [if_neg h]

/-- An entry waits to be copied, and there is NAND to copy it to. -/
def mayCopy (s : State) : Bool := s.flag JNL_STATUS_NAND_OK && 0 < s.log.unmirrored

theorem mayCopy_not : (s.log.unmirrored = 0 || !s.flag JNL_STATUS_NAND_OK) = !mayCopy s := by
  rw [mayCopy, Bool.not_and, Bool.or_comm, ← decide_not]
  simp only [Nat.not_lt, Nat.le_zero]

theorem incidentCopy_none (h : mayCopy s = false ∨ s.log.held[s.log.unmirrored - 1]? = none) : incidentCopy s = s := by
  unfold incidentCopy
  dsimp only
  rw [mayCopy_not]
  split
  · rfl
  next hgo => rw [h.resolve_left fun hn => hgo (congrArg not hn)]

theorem incidentCopy_some {e : Nat × Incident} (h : mayCopy s = true) (he : s.log.held[s.log.unmirrored - 1]? = some e) : incidentCopy s =
    logFree (({ s with log := { s.log with unmirrored := s.log.unmirrored - 1, ring := (e :: s.log.ring).take 1048576 } }).wr REC_LOG_MIRROR_ISEQ e.1) := by
  unfold incidentCopy
  dsimp only
  rw [mayCopy_not, h, if_neg (by decide), he]

/-- The words of an entry that is held. -/
theorem logWord_held {place w : Nat} {e : Nat × Incident} (h : s.log.held.find? (fun x => x.1 % logPlaces = place) = some e) :
    logWord s place w = (at_ (entryWords e.1 e.2) w 0, s) := by
  unfold logWord
  rw [h]

end Log

/-- Settles O60: by the entry that is named, by the word that is due, and by what waits to be copied. -/
theorem recorderRequestsAndIncidentLog : Obligations.RecorderRequestsAndIncidentLog := by
  unfold Obligations.RecorderRequestsAndIncidentLog
  refine ⟨?_, ?_, ?_, ?_⟩
  · intro s p v w t trk S n
    refine ⟨fun h => ⟨congrArg done (hostDo_lets s p _ _ t _ h), congrArg done (hostDo_lets s p _ _ t _ h)⟩, ?_, ?_, fun hw => congrArg done (if_pos hw)⟩
    · rintro hw rfl h
      exact exec_recClr_hist hw h
    · rintro hw rfl h
      exact exec_recClr_trk hw h
  · intro s p v t h
    have he : exec (.recLogAck p v t) s = done (logAck (s.taken p t) v) := congrArg done (hostDo_lets s p _ _ t _ h)
    rw [he]
    exact ⟨fun hb => congrArg done (logAck_outside (s := s.taken p t) hb), fun hb => congrArg done (logAck_inside (s := s.taken p t) hb)⟩
  · intro s p t h
    have he : exec (.recLogRdDataRead p t) s = done (logRead (s.taken p t) p) := congrArg done (hostRd_lets s p _ t _ h)
    rw [he]
    exact ⟨fun hw => congrArg done (logRead_last (s := s.taken p t) hw), fun hw => congrArg done (logRead_next (s := s.taken p t) hw)⟩
  · intro s t k e goes
    exact ⟨fun h => congrArg done (incidentCopy_none (s := s.at t) h), fun hg he => congrArg done (incidentCopy_some (s := s.at t) hg he),
      fun he => ⟨logWord_held he, logWord_held he, logWord_held he, logWord_held he⟩⟩

end Sys2Proof.Proofs
end

section
/-! PROOFS. O16: tunnelled accesses and mailboxes (R434, R542). -/

namespace Sys2Proof.Proofs

open Sys2Proof Sys2Proof.Machine Sys2Proof.Laws

/-- What began at a count has waited for `k` ticks. -/
def waited {β : Type} (k : Nat) (began : β → Nat) (x : Option β) (now : Nat) : Bool := (x.map fun y => decide (began y + k ≤ now)).getD false

/-! ### Tunnelled accesses (R434) -/

theorem tunWord_parts (wr : Bool) (dst : Nat) :
    tunWord wr dst % 2 ^ 14 = dst % 2 ^ 14 ∧ tunWord wr dst / 2 ^ 30 % 2 = b2n wr ∧ bit (tunWord wr dst) 31 = true := by
  have hw : b2n wr ≤ 1 := by cases wr <;> decide
  unfold tunWord bit
  refine ⟨?_, ?_, decide_eq_true ?_⟩ <;> omega

section Tunnel

variable {s : State}

/-- The state in which an access has been entered. -/
def tunEntered (s : State) (wr : Bool) (dst : Nat) : State := s.wrs [(PST_TUN_CTRL_WRITE, b2n wr), (PST_TUN_CTRL_DST, dst % 2 ^ 14)]

/-- Neither its fields nor its start touch what a tunnelled access sends. -/
theorem tunEntered_rd {f : Fld} (hf : f.key ∉ [PST_TUN_CTRL_WRITE.key, PST_TUN_CTRL_DST.key, PST_TUN_CTRL_GO_BUSY.key, PST_TUN_STS_RESULT.key])
    (wr : Bool) (dst : Nat) : ((tunEntered s wr dst).wrs [(PST_TUN_CTRL_GO_BUSY, 1), (PST_TUN_STS_RESULT, 0)]).rd f = s.rd f := by
  simp only [List.mem_cons, List.not_mem_nil, or_false, not_or] at hf
  obtain ⟨hw, hd, hg, hr⟩ := hf
  exact (rd_wrs_two _ _ _ _ hg hr).trans (rd_wrs_two _ _ _ _ hw hd)

theorem tunWrite_busy {v : Nat} (hb : s.flag PST_TUN_CTRL_GO_BUSY = true) : tunWrite s v = { s with hst := { s.hst with mark := true } } := if_pos hb

theorem tunWrite_word (wr : Bool) (dst : Nat) (hb : s.flag PST_TUN_CTRL_GO_BUSY = false) : tunWrite s (tunWord wr dst) =
    if canSend (tunEntered s wr dst) (dst % 2 ^ 14) 0x30 then
      pstSend (((tunEntered s wr dst).wrs [(PST_TUN_CTRL_GO_BUSY, 1), (PST_TUN_STS_RESULT, 0)]).ps fun x => { x with tunAt := some s.tim.cnt })
        0x30 0 (dst % 2 ^ 14) (s.rd SEQ_CYC_LO_CYC_LO) [b2n wr, s.rd PST_TUN_ADDR_OFS, s.rd PST_TUN_DATA_DATA]
    else tunEnd (tunEntered s wr dst) 2 := by
  obtain ⟨hdst, hwr, hgo⟩ := tunWord_parts wr dst
  unfold tunWrite
  dsimp only
  rw [if_neg (ne_true_of_eq_false hb), hdst, hwr, hgo, if_neg (by decide), ite_bnot]
  have hrd : ∀ {f : Fld} g, f.key ∉ [PST_TUN_CTRL_WRITE.key, PST_TUN_CTRL_DST.key, PST_TUN_CTRL_GO_BUSY.key, PST_TUN_STS_RESULT.key] →
      (((s.wrs [(PST_TUN_CTRL_WRITE, b2n wr), (PST_TUN_CTRL_DST, dst % 2 ^ 14)]).wrs
        [(PST_TUN_CTRL_GO_BUSY, 1), (PST_TUN_STS_RESULT, 0)]).ps g).rd f = s.rd f := fun _ hf => tunEntered_rd hf wr dst
  rw [hrd _ (by decide), hrd _ (by decide), hrd _ (by decide), wrs_tim, tunEntered]

theorem match_waited (b : Bool) (k now : Nat) (since : Option Nat) (u v : State) :
    (match since with
      | some x => if b && x + k ≤ now then u else v
      | none => v) = if b && waited k id since now then u else v := by
  cases since with
  | none => rw [waited, Option.map_none, Option.getD_none, Bool.and_false, if_neg Bool.false_ne_true]
  | some x => rfl

theorem exec_tunnelTimeout (t : Nat) : exec (.tunnelTimeout t) s =
    done (if s.flag PST_TUN_CTRL_GO_BUSY && waited (usTicks 10000) id s.pst.tunAt (max s.tim.cnt t) then tunEnd (s.at t) 3 else s.at t) :=
  congrArg done (match_waited (s.flag PST_TUN_CTRL_GO_BUSY) (usTicks 10000) (max s.tim.cnt t) s.pst.tunAt (tunEnd (s.at t) 3) (s.at t))

end Tunnel

/-! ### Mailboxes (R542) -/

theorem mbxWord_parts (len dst : Nat) :
    mbxWord len dst % 2 ^ 14 = dst % 2 ^ 14 ∧ mbxWord len dst / 2 ^ 14 % 1024 = len % 1024 ∧ bit (mbxWord len dst) 31 = true := by
  unfold mbxWord bit
  refine ⟨?_, ?_, decide_eq_true ?_⟩ <;> omega

section Mailbox

variable {s : State} {p : Path} {m : Nat}

/-- The state in which a message has been entered. -/
def mbxEntered (s : State) (m len dst : Nat) : State := s.wrs [(HST_MBX_OUT_LEN m, len), (HST_MBX_OUT_DST m, dst)]

theorem mbxEntered_cyc (len dst : Nat) :
    ((mbxEntered s m len dst).wrs [(HST_MBX_OUT_GO_BUSY m, 1), (HST_MBX_OUT_RESULT m, 0)]).rd SEQ_CYC_LO_CYC_LO = s.rd SEQ_CYC_LO_CYC_LO := by
  have hne : ∀ {k}, 0x2B0040 * 8 ≤ k → SEQ_CYC_LO_CYC_LO.key ≠ k := fun hk he => by
    rw [← he] at hk
    exact absurd hk (by decide)
  have hbase : 0x2B0040 * 8 ≤ (0x2B0040 + m * 0x4) * 8 := by omega
  exact (rd_wrs_two _ _ _ _ (hne (hbase.trans (Nat.le_add_right _ _))) (hne (hbase.trans (Nat.le_add_right _ _)))).trans
    (rd_wrs_two _ _ _ _ (hne (hbase.trans (Nat.le_add_right _ _))) (hne (hbase.trans (Nat.le_add_right _ _))))

/-- A message goes out, as the write of its mailbox says. -/
theorem mbxWrite_word (len dst : Nat) : mbxWrite s p m (mbxWord len dst) =
    let x := mbxEntered s m (len % 1024) (dst % 2 ^ 14)
    let y := x.wrs [(HST_MBX_OUT_GO_BUSY m, 1), (HST_MBX_OUT_RESULT m, 0)]
    if s.flag (HST_MBX_OUT_GO_BUSY m) then Machine.discard s p (0x2B0040 + 4 * m) 0x1212
    else if len % 1024 = 0 then Machine.discard s p (0x2B0040 + 4 * m) 0x1211
    else if 1008 < len % 1024 then { s with hst := { s.hst with mark := true } }
    else if canSend x (dst % 2 ^ 14) 0x30 then
      pstSend { y with hst := { y.hst with mbxWait := (m, s.tim.cnt) :: s.hst.mbxWait } } 0x30 2 (dst % 2 ^ 14) (s.rd SEQ_CYC_LO_CYC_LO)
        (m :: (bar2Bytes s (0x400 * m) (len % 1024)).map (·.toNat))
    else mbxEnd x m 2 := by
  obtain ⟨hdst, hlen, hgo⟩ := mbxWord_parts len dst
  unfold mbxWrite
  dsimp only
  have hcyc : ∀ h : HstSt, ({ (mbxEntered s m (len % 1024) (dst % 2 ^ 14)).wrs [(HST_MBX_OUT_GO_BUSY m, 1), (HST_MBX_OUT_RESULT m, 0)] with
      hst := h } : State).rd SEQ_CYC_LO_CYC_LO = s.rd SEQ_CYC_LO_CYC_LO := fun _ => (mbxEntered_cyc (s := s) (m := m) (len % 1024) (dst % 2 ^ 14) :)
  have hmem : ∀ w, bar2Bytes (let y := (mbxEntered s m (len % 1024) (dst % 2 ^ 14)).wrs [(HST_MBX_OUT_GO_BUSY m, 1), (HST_MBX_OUT_RESULT m, 0)]
      { y with hst := { y.hst with mbxWait := w } }) (0x400 * m) (len % 1024) = bar2Bytes s (0x400 * m) (len % 1024) := fun w => by
    unfold bar2Bytes mbxEntered
    simp only [wrs_hst]
  unfold mbxEntered at hcyc hmem ⊢
  rw [hdst, hlen, hgo, if_neg (c := (!true) = true) (by decide), ite_bnot, hcyc, hmem]
  simp only [wrs_hst, wrs_tim]

theorem exec_mbxTimeout (t : Nat) : exec (.mbxTimeout m t) s =
    done (if waited (usTicks 10000) (·.2) (s.hst.mbxWait.find? fun x => x.1 = m) (max s.tim.cnt t) then mbxEnd (s.at t) m 4 else s.at t) := by
  refine congrArg done ?_
  generalize usTicks 10000 = k
  show (match s.hst.mbxWait.find? fun x => x.1 = m with
    | some x => _
    | none => _) = _
  cases s.hst.mbxWait.find? fun x => x.1 = m with
  | none => rfl
  | some x => rw [waited, Option.map_some, Option.getD_some]; simp only [decide_eq_true_eq]; rfl

end Mailbox

/-- Settles O16: by what is outstanding, by the route, and by the time that has passed. -/
theorem mailboxesAndTunnelledAccesses : Obligations.MailboxesAndTunnelledAccesses := by
  unfold Obligations.MailboxesAndTunnelledAccesses
  refine ⟨?_, ?_, ?_, ?_, fun s p v t h => congrArg done (hostDo_lets s p _ _ t _ h)⟩
  · intro s p dst t h
    have he (wr : Bool) : hostDo (s.at t) p 0x280050 (tunWord wr dst) (fun s => tunWrite s (tunWord wr dst)) = tunWrite (s.taken p t) (tunWord wr dst) :=
      hostDo_lets s p _ _ t _ h
    refine ⟨fun hb => ⟨?_, ?_⟩, fun hb => ⟨?_, ?_⟩⟩
    · exact congrArg done ((he false).trans (tunWrite_word (s := s.taken p t) false dst hb))
    · exact congrArg done ((he true).trans (tunWrite_word (s := s.taken p t) true dst hb))
    · exact congrArg done ((he false).trans (tunWrite_busy (s := s.taken p t) hb))
    · exact congrArg done ((he true).trans (tunWrite_busy (s := s.taken p t) hb))
  · intro s t
    refine ⟨fun h => ?_, fun h => ?_⟩
    · exact (exec_tunnelTimeout t).trans (congrArg done (if_pos h))
    · exact (exec_tunnelTimeout t).trans (congrArg done (if_neg (ne_true_of_eq_false h)))
  · intro s p m len dst t S n d s1 s2 busy gives
    refine ⟨fun hm h => ?_, fun hm => congrArg done (if_neg (not_lt_of_ge hm))⟩
    have he : exec (.mbxSend p m len dst t) s = done (mbxWrite (s.taken p t) p m (mbxWord len dst)) :=
      congrArg done ((if_pos hm).trans (hostDo_lets s p _ _ t _ h))
    have hflag : (s.taken p t).flag (HST_MBX_OUT_GO_BUSY m) = busy := rfl
    simp only [gives]
    rw [he, mbxWrite_word]
    dsimp only
    rw [hflag]
    clear_value busy
    refine ⟨fun hb => ?_, fun hb h0 => ?_, fun hb h0 => ?_, fun hb h1 h2 hr => ?_, fun hb h1 h2 hr => ?_⟩
    · rw [if_pos hb]
      rfl
    all_goals rw [if_neg (ne_true_of_eq_false hb)]
    · rw [if_pos h0]
      rfl
    · rw [if_neg (by omega), if_pos h0]
      rfl
    · rw [if_neg (by omega), if_neg (by omega)]
      exact congrArg done (if_pos hr)
    · rw [if_neg (by omega), if_neg (by omega)]
      exact congrArg done (if_neg (ne_true_of_eq_false hr))
  · intro s m t
    refine ⟨fun h => ?_, fun h => ?_⟩
    · exact (exec_mbxTimeout t).trans (congrArg done (if_pos h))
    · exact (exec_mbxTimeout t).trans (congrArg done (if_neg (ne_true_of_eq_false h)))

end Sys2Proof.Proofs
end

section
/-! PROOFS. O17, refuted. A delay exchange keeps its value in the port's entry of the list of ports and then writes the mean that it reads there: a
state whose list of ports is empty keeps nothing, and shows 0 where the statement says the mean of the values with the new one. -/

namespace Sys2Proof.Proofs

open Sys2Proof Sys2Proof.Machine Sys2Proof.Laws

/-- The device after reset with port A training, and a list of ports that holds none. -/
def portless : State := { State.reset with regs := [((PST_PORT_STS_STATE 0).key, 1)], pst := { PstSt.reset with ports := [] } }

/-- DELAY_NS of port A in the state that a command gives. -/
def delayShown : Host.Outcome State Fault Refusal → Option Nat
  | .next u => some (u.rd (PST_PORT_DELAY_DELAY_NS 0))
  | _ => none

/-- An exchange of 2 half-ticks on port A shows 0. -/
theorem delayShown_portless : delayShown (exec (.delay 0 0 0 0 1 0) portless) = some 0 := by decide +kernel

/-- Refutes O17: its last clause says that the exchange shows the mean of the values kept with the new one, here 2. -/
theorem not_pistePortsTrainAndFail : ¬ Obligations.PistePortsTrainAndFail := by
  unfold Obligations.PistePortsTrainAndFail
  rintro ⟨-, -, -, -, -, hdelay⟩
  obtain ⟨hexec, -, -⟩ := hdelay portless 0 0 0 0 1 0
  have hshown := congrArg delayShown (hexec (by decide) (by decide))
  rw [delayShown_portless] at hshown
  exact absurd hshown (by decide +kernel)

end Sys2Proof.Proofs
end

section
/-! PROOFS. O19: ALIGN, JOIN, START and HANDBACK over Piste (R426 to R428, R431). -/

namespace Sys2Proof.Proofs

open Sys2Proof Sys2Proof.Machine Sys2Proof.Laws

section Align

variable {s : State} {h : PstHdr} {launch corr : Int} {valid : Bool}

/-- What a device writes into an ALIGN that it passes on (R426). -/
def alignWords (s : State) (h : PstHdr) (launch corr : Int) : List Nat :=
  [unsigned 96 launch, unsigned 64 (corr + linkDelay s h.port * 65536 + ((Config.fit 29 [h.cyc, h.hops, h.port] 0).toNat : Int))]

/-- A named master that hears its backup send ALIGN knows that the backup acts (R428). -/
def backupSeen (s : State) (h : PstHdr) : State :=
  if cascRole s = 1 && h.src ≠ ownAddr s then s.ps fun x => { x with backup := some h.src } else s

/-- The master is present. -/
def alignMarked (s : State) (h : PstHdr) : State :=
  (s.wrs [(PST_STATUS_MASTER_OK, 1), (PST_ALIGN_MISS, 0), (PST_ALIGN_HOPS, h.hops), (PST_ALIGN_ERR_BOUND, 8 * h.hops)]).ps fun x =>
    { x with got := true, lostRun := false, masterLost := false }

/-- The Piste source takes the offset, where the frame carries valid time. -/
def alignOffset (s : State) (h : PstHdr) (launch corr : Int) (valid : Bool) : State :=
  match slotOfKind s 3 with
  | some i => if valid then sourceOffset s i (launch + corr + linkDelay s h.port * 65536 - s.now) else breakRun s i
  | none => s

/-- A computing device that counts another cycle is out of step. -/
def cycleChecked (s : State) (h : PstHdr) (launch : Int) : State :=
  if s.rd SEQ_STATUS_STATE = 2 && computes s && cycAt s launch % 2 ^ 32 ≠ h.cyc then outOfStep s else s

/-- ALIGN at its user. -/
def alignTaken (s : State) (h : PstHdr) (launch corr : Int) (valid : Bool) : State :=
  let s := backupSeen s h
  if !isMasterAddr s h.src || s.flag PST_STATUS_ACTING_MASTER then s
  else cycleChecked (alignOffset (alignMarked s h) h launch corr valid) h launch

theorem linkDelay_at (t p : Nat) : linkDelay (s.at t) p = linkDelay s p := rfl

theorem exec_align (t : Nat) : exec (.align h launch corr valid t) s =
    done (pstTakeWith (s.at t) h 5 (alignWords s h launch corr) fun x => alignTaken x h launch corr valid) := by
  refine congrArg done (congrArg₂ (pstTakeWith (s.at t) h 5) ?_ (funext fun x => ?_))
  · unfold alignWords
    rw [← linkDelay_at t]
  · unfold alignTaken cycleChecked alignOffset alignMarked backupSeen
    rfl

end Align

section Mode

variable {s : State} {h : PstHdr}

theorem exec_join (k : Option (Nat × Int)) (t : Nat) (hh : s.hears h 4 = true) : exec (.join h k t) s =
    done (let x := (s.at t).heard h 4
      match k with
      | none => if isMaster x && x.rd SEQ_STATUS_STATE = 2 && !x.pst.joins.contains h.src then x.ps fun y => { y with joins := y.joins ++ [h.src] } else x
      | some (k, t0) =>
        if x.pst.joining && x.rd SEQ_STATUS_STATE = 1 && isMasterAddr x h.src then
          { (x.ps fun y => { y with joining := false, joinAt := some (k, t0) }) with seq := { x.seq with nextN := k, nextT0 := t0 } }
        else x) :=
  congrArg done (pstTake_hears t _ hh)

/-- START comes from the master with a T0(0), or from the partner. -/
def startMine (s : State) (h : PstHdr) (t0 : Option Int) : Bool := (t0.isSome && isMasterAddr s h.src) || (isPair s && h.src = partnerAddr s)

/-- START finds the device idle, with an image, and not a Reserve at rest. -/
def startTaken (s : State) (h : PstHdr) (t0 : Option Int) : Bool :=
  startMine s h t0 && s.idle && s.loaded && !(cascRole s = 5 && !s.red.activated)

/-- A partner's START shows that it arms too. -/
def partnerArms (s : State) (h : PstHdr) : State := s.rs fun y => { y with pState := if isPair s && h.src = partnerAddr s then 0 else y.pState }

theorem exec_modeStart (t0 : Option Int) (t : Nat) (hh : s.hears h 4 = true) : exec (.modeStart h t0 t) s =
    done (let x := (s.at t).heard h 4
      if startTaken x h t0 then
        match startBad x with
        | some (g, ofs) => report (startFailed x g ofs) 0x020B
        | none => startChain (startRole (coldEntry (partnerArms x h))) t0
      else x) := by
  refine congrArg done ((pstTake_hears t _ hh).trans ?_)
  generalize (s.at t).heard h 4 = x
  have hnot : (!startMine x h t0 || !x.idle || !x.loaded || (cascRole x = 5 && !x.red.activated)) = !startTaken x h t0 := by
    simp only [startTaken, Bool.not_and, Bool.not_or, Bool.not_not]
  show (if (!startMine x h t0 || !x.idle || !x.loaded || (cascRole x = 5 && !x.red.activated)) = true then x else _) = _
  rw [hnot, ite_bnot]
  rfl

end Mode

/-- Settles O19: by who sends the frame and by the state it meets. -/
theorem alignJoinAndStartOverPiste : Obligations.AlignJoinAndStartOverPiste := by
  unfold Obligations.AlignJoinAndStartOverPiste
  refine ⟨?_, ?_, ?_, ?_, ?_, ?_⟩
  · intro s h launch corr valid t hh s0 s1 s2 s3
    have he : exec (.align h launch corr valid t) s = done (alignTaken s0 h launch corr valid) :=
      (exec_align t).trans (congrArg done (pstTakeWith_hears (s := s.at t) _ _ hh))
    rw [he]
    refine ⟨fun hm => congrArg done (if_pos ?_), fun hm ha => congrArg done (if_neg ?_)⟩
    · show (!isMasterAddr s1 h.src || s1.flag PST_STATUS_ACTING_MASTER) = true
      rcases hm with hm | hm <;> simp [hm]
    · show ¬ (!isMasterAddr s1 h.src || s1.flag PST_STATUS_ACTING_MASTER) = true
      simp [hm, ha]
  · intro s h launch corr valid t hh
    exact (exec_align t).trans (congrArg done (pstTakeWith_passedBy (s := s.at t) _ _ hh))
  · intro s h t hh s0
    rw [exec_join none t hh]
    refine ⟨fun hm hs hj => congrArg done (if_pos ?_), fun hn => congrArg done (if_neg ?_)⟩
    · simp only [s0] at hm hs hj
      simp only [hm, hs, hj]
      decide
    · rcases hn with hn | hn | hn <;> simp [s0] at hn <;> simp [hn]
  · intro s h k t0 t hh s0
    rw [exec_join (some (k, t0)) t hh]
    refine ⟨fun hm hs hj => congrArg done (if_pos ?_), fun hn => congrArg done (if_neg ?_)⟩
    · simp only [s0] at hm hs hj
      simp only [hm, hs, hj]
      decide
    · rcases hn with hn | hn | hn <;> simp [s0] at hn <;> simp [hn]
  · intro s h x t g ofs hh s0 mine s1
    rw [exec_modeStart x t hh]
    refine ⟨fun hm hi hl hr => ?_, fun hn => congrArg done (if_neg ?_)⟩
    · have hgo : startTaken s0 h x = true := by
        rw [startTaken, show startMine s0 h x = true from hm, hi, hl]
        rcases hr with hr | hr <;> simp [hr]
      refine ⟨fun hb => congrArg done ((if_pos hgo).trans ?_), fun hb => congrArg done ((if_pos hgo).trans ?_)⟩
      · simp only [s0] at hb
        rw [hb]
        rfl
      · simp only [s0] at hb
        rw [hb]
        rfl
    · rw [startTaken, show startMine ((s.at t).heard h 4) h x = mine from rfl]
      rcases hn with hn | hn | hn | ⟨hn, ha⟩
      · rw [hn]
        simp
      · simp [show ((s.at t).heard h 4).idle = false from hn]
      · simp [show ((s.at t).heard h 4).loaded = false from hn]
      · simp [show cascRole ((s.at t).heard h 4) = 5 from hn, show ((s.at t).heard h 4).red.activated = false from ha]
  · intro s p t hp
    have he : exec (.handback p t) s = done (handback (s.taken p t)) := congrArg done (hostDo_lets s p _ _ t _ hp)
    rw [he]
    have hgo : ((s.taken p t).flag PST_STATUS_ACTING_MASTER && pairOk (s.taken p t) && (s.taken p t).red.pSends)
        = (s.flag PST_STATUS_ACTING_MASTER && pairOk s && s.red.pSends) := rfl
    refine ⟨fun ha ho hs => congrArg done (if_pos ?_), fun hn => congrArg done (if_neg ?_)⟩
    · rw [hgo, ha, ho, hs]
      rfl
    · rw [hgo]
      rcases hn with hn | hn | hn <;> simp [hn]

end Sys2Proof.Proofs
end

section
/-! PROOFS. O20: a mode change at a device (R437 to R440). -/

namespace Sys2Proof.Proofs

open Sys2Proof Sys2Proof.Machine Sys2Proof.Laws

section Device

variable {s : State} {h : PstHdr} {id k groups t : Nat}

/-! ### What each frame does to the state in which it is heard -/

theorem exec_prepare (hh : s.hears h 4 = true) : exec (.prepare h id groups t) s =
    done (let x := (s.at t).heard h 4
      if isMasterAddr x h.src then
        let r := devPrepare x h.src id groups
        if r.2 then mcAck r.1 else modeSend r.1 5 h.src [id]
      else x) :=
  congrArg done ((pstTake_hears t _ hh).trans (ite_bnot _ _ _))

theorem exec_seal (hh : s.hears h 4 = true) : exec (.seal h id k t) s =
    done (let x := (s.at t).heard h 4
      if isMasterAddr x h.src then
        let r := devSeal x id k
        modeSend r.1 7 h.src [id, b2n r.2]
      else x) :=
  congrArg done ((pstTake_hears t _ hh).trans (ite_bnot _ _ _))

theorem exec_mcCommit (hh : s.hears h 4 = true) : exec (.mcCommit h id k t) s =
    done (let x := (s.at t).heard h 4
      if isMasterAddr x h.src then devCommit x id k else x) :=
  congrArg done (pstTake_hears t _ hh)

/-- ABORT of a change lets go of it where it is the one held. -/
def abortHeard (s : State) (src id : Nat) : State :=
  match s.pst.held with
  | some y => if isMasterAddr s src && y.id = id then devAbort s else s
  | none => s

theorem exec_mcAbort (hh : s.hears h 4 = true) : exec (.mcAbort h id t) s = done (abortHeard ((s.at t).heard h 4) h.src id) :=
  congrArg done (pstTake_hears t _ hh)

theorem abortHeard_held {src : Nat} {x : McHeld} (hm : isMasterAddr s src = true) (hx : s.pst.held = some x) :
    abortHeard s src id = if x.id = id then devAbort s else s := by
  unfold abortHeard
  rw [hx]
  simp only [hm, Bool.true_and, decide_eq_true_eq]

theorem abortHeard_none {src : Nat} (hx : s.pst.held = none) : abortHeard s src id = s := by
  unfold abortHeard
  rw [hx]

theorem abortHeard_not {src : Nat} (hm : isMasterAddr s src = false) : abortHeard s src id = s := by
  unfold abortHeard
  simp only [hm, Bool.false_and, Bool.false_eq_true, if_false]
  split <;> rfl

/-! ### PREPARE (R437) -/

/-- Which groups are implemented is the variant's. -/
theorem groupsIn_of_variant {u : State} (hl : u.rd GLB_VARIANT_LANES = s.rd GLB_VARIANT_LANES)
    (ha : u.rd GLB_VARIANT_ANTENNAS = s.rd GLB_VARIANT_ANTENNAS) : groupsIn u groups = groupsIn s groups := by
  have hnode : u.isNode = s.isNode := congrArg (fun n => decide (n = 0)) hl
  have hgnss : u.hasGnss = s.hasGnss := congrArg (fun n => decide (n ≠ 0)) ha
  simp only [groupsIn, implGroups, hnode, hgnss]

/-- The device holds the change, and asks its groups to stop. -/
def changeHeld (s : State) (src id groups : Nat) : State :=
  stopReq { s.wrs [(PST_MC_STS_HELD, 1), (PST_MC_STS_ID, id)] with
    img := { s.img with heldGroups := s.img.heldGroups ||| groups }
    pst := { s.pst with held := some ⟨id, groups, src, false, false, none, false⟩ } } (groupsIn s groups)

theorem devPrepare_takes {src : Nat} (hs : s.rd SEQ_STATUS_STATE = 2) (hn : s.pst.held = none) (hg : groups ||| implGroups s = implGroups s) :
    devPrepare s src id groups = (changeHeld s src id groups, true) := by
  have hgo : ¬ (s.rd SEQ_STATUS_STATE ≠ 2 || s.pst.held.isSome || groups ||| implGroups s ≠ implGroups s) = true := by
    simp [hs, hn, hg]
  have hgroups : ∀ u : State, u.regs = (s.wrs [(PST_MC_STS_HELD, 1), (PST_MC_STS_ID, id)]).regs → groupsIn u groups = groupsIn s groups :=
    fun u hu => groupsIn_of_variant
      ((congrArg (fun r : RegFile => r.get GLB_VARIANT_LANES) hu).trans (rd_wrs_two _ _ _ _ (by decide) (by decide)))
      ((congrArg (fun r : RegFile => r.get GLB_VARIANT_ANTENNAS) hu).trans (rd_wrs_two _ _ _ _ (by decide) (by decide)))
  unfold devPrepare changeHeld
  dsimp only
  rw [if_neg hgo, hgroups]
  · simp only [wrs_img, wrs_pst]
  · rfl

theorem devPrepare_not {src : Nat} (hn : s.rd SEQ_STATUS_STATE ≠ 2 ∨ s.pst.held.isSome ∨ groups ||| implGroups s ≠ implGroups s) :
    devPrepare s src id groups = (s, false) :=
  if_pos (by simpa [or_assoc] using hn)

/-! ### SEAL (R438) -/

/-- The first staged value of the held groups that the loader would not take. -/
def stagedFault (s : State) (groups : Nat) : Option (Nat × Nat) :=
  (groupsIn s groups).findSome? fun g => (stagedBad s (groupsIn s groups) g).map fun off => (g, off)

/-- The device has voted, for a change at `k` or none. -/
def changeVoted (s : State) (x : McHeld) (k : Option Nat) : State :=
  { s with img := { s.img with votedGroups := x.groups }, pst := { s.pst with held := some { x with voted := true, k := k } } }

/-- The device's vote, where its check of the staged values found `bad`. -/
def sealVote (s : State) (x : McHeld) (k : Nat) (bad : Option (Nat × Nat)) : State × Bool :=
  match changeVoted s x (if bad.isNone then some k else none), bad with
  | v, some (g, ofs) => (v.wrs [(IMG_FUNC_ERR_GROUP, g), (IMG_FUNC_ERR_REG_OFS, ofs)], false)
  | v, none => (v, true)

theorem devSeal_held {x : McHeld} (hx : s.pst.held = some x) (hid : x.id = id) (ha : x.acked = true) :
    devSeal s id k = sealVote s x k (stagedFault s x.groups) := by
  have hgo : ¬ (x.id ≠ id || !x.acked) = true := by simp [hid, ha]
  unfold devSeal
  rw [hx]
  refine Eq.trans (if_neg hgo) ?_
  unfold sealVote changeVoted stagedFault
  dsimp only
  generalize List.findSome? _ _ = bad
  cases bad <;> rfl

theorem devSeal_other (hx : s.pst.held = none ∨ ∃ x, s.pst.held = some x ∧ (x.id ≠ id ∨ x.acked = false)) : devSeal s id k = (s, false) := by
  unfold devSeal
  rcases hx with hx | ⟨x, hx, hn⟩
  · rw [hx]
  · rw [hx]
    exact if_pos (by simpa using hn)

/-! ### COMMIT (R439, R440) -/

theorem devCommit_held {x : McHeld} (hx : s.pst.held = some x) : devCommit s id k =
    if x.id = id && x.k = some k && s.now < t0At s k then s.ps fun y => { y with held := some { x with commit := true } } else outOfStep s := by
  unfold devCommit
  rw [hx]
  by_cases hid : x.id = id <;> by_cases hk : x.k = some k <;> simp [hid, hk]

theorem devCommit_none (hx : s.pst.held = none) : devCommit s id k = if s.pst.lastApplied = some id then s else outOfStep s := by
  unfold devCommit
  rw [hx]

end Device

/-- Settles O20: by whether the master sends the frame and by the change that the device holds. -/
theorem modeChangeAtDevice : Obligations.ModeChangeAtDevice := by
  unfold Obligations.ModeChangeAtDevice
  refine ⟨?_, ?_, ?_⟩
  · intro s h id groups t hh s0
    rw [exec_prepare hh]
    refine ⟨fun hm hs hn hg => ?_, fun hm hn => ?_, fun hm => congrArg done (if_neg (ne_true_of_eq_false hm))⟩
    · refine congrArg done ((if_pos hm).trans ?_)
      rw [devPrepare_takes hs hn hg]
      rfl
    · refine congrArg done ((if_pos hm).trans ?_)
      rw [devPrepare_not hn]
      rfl
  · intro s h id k t g ofs x hh s0 bad voted
    rw [exec_seal hh]
    refine ⟨fun hm hx hid ha => ?_, fun hm hn => ?_, fun hm => congrArg done (if_neg (ne_true_of_eq_false hm))⟩
    · have hseal := devSeal_held (k := k) hx hid ha
      refine ⟨fun hb => congrArg done ((if_pos hm).trans ?_), fun hb => congrArg done ((if_pos hm).trans ?_)⟩
      · rw [show stagedFault s0 x.groups = none from hb] at hseal
        rw [hseal]
        rfl
      · rw [show stagedFault s0 x.groups = some (g, ofs) from hb] at hseal
        rw [hseal]
        rfl
    · refine congrArg done ((if_pos hm).trans ?_)
      rw [devSeal_other (hn.imp_right fun hx => ⟨x, hx⟩)]
      rfl
  · intro s h id k t x hh s0
    rw [exec_mcCommit hh, exec_mcAbort hh]
    refine ⟨fun hm hx => ⟨fun hid hk ht => ?_, fun hn => ?_, fun hid => ?_, fun hid => ?_⟩, fun hm hx => ⟨?_, ?_⟩, fun hm => ⟨?_, ?_⟩⟩
    · refine congrArg done ((if_pos hm).trans ((devCommit_held hx).trans (if_pos ?_)))
      simp [hid, hk, ht]
    · refine congrArg done ((if_pos hm).trans ((devCommit_held hx).trans (if_neg ?_)))
      rcases hn with hn | hn | hn <;> simp [hn]
    · exact congrArg done ((abortHeard_held hm hx).trans (if_pos hid))
    · exact congrArg done ((abortHeard_held hm hx).trans (if_neg hid))
    · exact congrArg done ((if_pos hm).trans (devCommit_none hx))
    · exact congrArg done (abortHeard_none hx)
    · exact congrArg done (if_neg (ne_true_of_eq_false hm))
    · exact congrArg done (abortHeard_not hm)

end Sys2Proof.Proofs
end

section
/-! PROOFS. O21: a mode change at the master (R436 to R441). -/

namespace Sys2Proof.Proofs

open Sys2Proof Sys2Proof.Machine Sys2Proof.Laws

section Master

variable {s : State} {p : Path} {h : PstHdr} {id t : Nat} {m : McMaster}

/-! ### What the host asks of it (R436, R438) -/

theorem exec_mcPrepare {groups : Nat} (hl : s.lets p 0x280040) (hg : groups < 2 ^ 20) :
    exec (.mcPrepare p groups t) s = done (mcPrepare (s.taken p t) groups) := by
  have hmod : groups % 2 ^ 20 = groups := Nat.mod_eq_of_lt hg
  show done (hostDo (s.at t) p 0x280040 (0x10000000 + groups % 2 ^ 20) fun s => mcPrepare s (groups % 2 ^ 20)) = _
  rw [hostDo_lets s p _ _ t _ hl, hmod]

/-- PREPARE is out of order, or names what no change may hold. -/
def prepareBad (s : State) (groups : Nat) : Bool :=
  !isMaster s || mcOpen s || groups = 0 || bothOfPair s (addrsOf s PST_DEVSET_SET)
    || ((addrsOf s PST_DEVSET_SET).contains (ownAddr s) && bit groups 5) || s.rd SEQ_STATUS_STATE ≠ 2

/-- The master has opened the change and asked every device named. -/
def prepareSent (s : State) (groups : Nat) : State :=
  let devs := addrsOf s PST_DEVSET_SET
  let id := s.pst.nextId
  devs.foldl (fun s d => if d ≠ ownAddr s then modeSend s 3 d [id, groups]
      else let (s, ok) := devPrepare s d id groups; if ok then mcAck s else masterAbort s)
    ((s.ps fun x => { x with nextId := (id + 1) % 256, master := some ⟨id, groups, devs, devs, s.tim.cnt, false, none, []⟩ }).wrs
      [(PST_MC_STS_STATE, 1), (PST_MC_STS_ID, id), (PST_MC_STS_PENDING, devs.length), (PST_MC_TARGET_K, 0xFFFFFFFF)])

theorem mcPrepare_eq (s : State) (groups : Nat) : mcPrepare s groups =
    if prepareBad s groups then refuse s 0x0E0F
    else if addrsOf s PST_DEVSET_SET = [] then report ((prepareSent s groups).wr PST_MC_STS_STATE 2) 0x0E10 0 s.pst.nextId
    else prepareSent s groups := rfl

theorem exec_mcSeal (hl : s.lets p 0x280040) : exec (.mcSeal p t) s = done (mcSeal (s.taken p t)) :=
  congrArg done (hostDo_lets s p _ _ t _ hl)

theorem mcSeal_open (hm : s.pst.master = some m) : mcSeal s =
    if isMaster s && s.rd PST_MC_STS_STATE = 2 then s.ps fun x => { x with master := some { m with sealing := true } } else refuse s 0x0E0F := by
  unfold mcSeal
  rw [hm]

theorem mcSeal_not (hm : s.pst.master = none ∨ isMaster s = false) : mcSeal s = refuse s 0x0E0F := by
  unfold mcSeal
  rcases hm with hm | hm
  · rw [hm]
  · simp only [hm, Bool.false_and, Bool.false_eq_true, if_false]
    split <;> rfl

theorem exec_mcHostAbort (hl : s.lets p 0x280040) : exec (.mcHostAbort p t) s = done (mcHostAbort (s.taken p t)) :=
  congrArg done (hostDo_lets s p _ _ t _ hl)

theorem mcHostAbort_open (hm : s.pst.master = some m) (hi : isMaster s = true) : mcHostAbort s =
    if s.rd PST_MC_STS_STATE < 4 then masterAbort s else refuse s 0x0E0F := by
  unfold mcHostAbort mcOpen
  simp only [hm, hi, Option.isSome_some, Bool.true_and, decide_eq_true_eq]

theorem mcHostAbort_not (hm : s.pst.master = none ∨ isMaster s = false) : mcHostAbort s = refuse s 0x0E0F := by
  unfold mcHostAbort mcOpen
  rcases hm with hm | hm <;> simp [hm]

/-! ### What a device answers (R437, R438, R439) -/

theorem exec_ack (hh : s.hears h 4 = true) : exec (.ack h id t) s = done (masterAck ((s.at t).heard h 4) h.src id) :=
  congrArg done (pstTake_hears t _ hh)

theorem masterAck_open {src : Nat} (hm : s.pst.master = some m) : masterAck s src id =
    if m.id ≠ id || s.rd PST_MC_STS_STATE ≠ 1 then s
    else
      let wait := m.wait.filter fun d => d ≠ src
      let s := (s.ps fun x => { x with master := some { m with wait := wait } }).wr PST_MC_STS_PENDING wait.length
      if wait = [] then report (s.wr PST_MC_STS_STATE 2) 0x0E10 0 id else s := by
  unfold masterAck
  rw [hm]

theorem masterAck_none {src : Nat} (hm : s.pst.master = none) : masterAck s src id = s := by
  unfold masterAck
  rw [hm]

/-- A device's NACK reaches the master. -/
def masterNack (s : State) (src id : Nat) : State :=
  match s.pst.master with
  | some m => if m.id = id && m.devs.contains src && s.rd PST_MC_STS_STATE = 1 then masterAbort s else s
  | none => s

theorem exec_nack (hh : s.hears h 4 = true) : exec (.nack h id t) s = done (masterNack ((s.at t).heard h 4) h.src id) :=
  congrArg done (pstTake_hears t _ hh)

theorem masterNack_open {src : Nat} (hm : s.pst.master = some m) : masterNack s src id =
    if m.id = id && m.devs.contains src && s.rd PST_MC_STS_STATE = 1 then masterAbort s else s := by
  unfold masterNack
  rw [hm]

theorem masterNack_none {src : Nat} (hm : s.pst.master = none) : masterNack s src id = s := by
  unfold masterNack
  rw [hm]

theorem exec_vote {ready : Bool} (hh : s.hears h 4 = true) :
    exec (.vote h id ready t) s = done (masterVote ((s.at t).heard h 4) h.src id ready) :=
  congrArg done (pstTake_hears t _ hh)

/-- A READY vote is counted; the last one commits, or comes too late. -/
def readyCounted (s : State) (m : McMaster) (src id k : Nat) : State :=
  let wait := m.wait.filter fun d => d ≠ src
  let s := (s.ps fun x => { x with master := some { m with wait := wait } }).wr PST_MC_STS_PENDING wait.length
  if wait ≠ [] then s
  else if s.now < t0At s (k - 1) then
    let s := s.wrs [(PST_MC_STS_STATE, 4), (PST_MC_STS_PENDING, m.devs.length)]
    m.devs.foldl (fun s d => if d = ownAddr s then devCommit s id k else modeSend s 8 d [id, k]) s
  else masterAbort s

theorem masterVote_at {src k : Nat} {ready : Bool} (hm : s.pst.master = some m) (hk : m.k = some k) : masterVote s src id ready =
    if m.id ≠ id || s.rd PST_MC_STS_STATE ≠ 3 || !m.wait.contains src then s
    else if !ready then masterAbort s else readyCounted s m src id k := by
  unfold masterVote readyCounted
  rw [hm]
  dsimp only
  rw [hk]

theorem masterVote_not {src : Nat} {ready : Bool}
    (hm : s.pst.master = none ∨ (s.pst.master = some m ∧ (m.id ≠ id ∨ m.k = none ∨ s.rd PST_MC_STS_STATE ≠ 3 ∨ m.wait.contains src = false))) :
    masterVote s src id ready = s := by
  rcases hm with hm | ⟨hm, hn⟩
  · unfold masterVote
    rw [hm]
  · cases hk : m.k with
    | none =>
      unfold masterVote
      rw [hm]
      dsimp only
      rw [hk]
    | some k =>
      rw [masterVote_at hm hk]
      refine if_pos ?_
      rcases hn with hn | hn | hn | hn
      · simp [hn]
      · rw [hk] at hn
        exact absurd hn (Option.some_ne_none k)
      · simp [hn]
      · simp only [hn, Bool.not_false, Bool.or_true]

theorem exec_applied (hh : s.hears h 4 = true) : exec (.applied h id t) s = done (masterApplied ((s.at t).heard h 4) h.src id) :=
  congrArg done (pstTake_hears t _ hh)

theorem masterApplied_open {src : Nat} (hm : s.pst.master = some m) : masterApplied s src id =
    if m.id ≠ id || s.rd PST_MC_STS_STATE ≠ 4 || !m.devs.contains src || m.applied.contains src then s
    else (s.ps fun x => { x with master := some { m with applied := src :: m.applied } }).wr PST_MC_STS_PENDING
      (m.devs.length - (m.applied.length + 1)) := by
  unfold masterApplied
  rw [hm]
  rfl

theorem masterApplied_none {src : Nat} (hm : s.pst.master = none) : masterApplied s src id = s := by
  unfold masterApplied
  rw [hm]

/-! ### Its deadlines (R437, R439) -/

/-- PREP_DL is over without every ACK. -/
def prepMissed (s : State) (due : Nat → Nat) : State :=
  match s.pst.master with
  | some m => if s.rd PST_MC_STS_STATE = 1 && m.wait ≠ [] && due m.since ≤ s.tim.cnt then masterAbort s else s
  | none => s

theorem exec_prepDlTimeout : exec (.prepDlTimeout t) s = done (prepMissed (s.at t) (· + prepTicks s)) := rfl

theorem prepMissed_open {due : Nat → Nat} (hm : s.pst.master = some m) : prepMissed s due =
    if s.rd PST_MC_STS_STATE = 1 && m.wait ≠ [] && due m.since ≤ s.tim.cnt then masterAbort s else s := by
  unfold prepMissed
  rw [hm]

theorem prepMissed_none {due : Nat → Nat} (hm : s.pst.master = none) : prepMissed s due = s := by
  unfold prepMissed
  rw [hm]

/-- The devices without APPLIED are marked, and the change ends. -/
def changeEnded (s : State) (m : McMaster) : State :=
  let late := m.devs.filter fun d => !m.applied.contains d
  let s := oosCount (late.foldl (fun s d => s.wrBit (PST_OOS_OOS (d / 32)) (d % 32) true) s)
  let s := (s.ps fun x => { x with master := none }).wrs [(PST_MC_STS_STATE, 5), (PST_MC_STS_PENDING, 0)]
  if late = [] then s else report s 0x0E13 0 (s.rd PST_MC_OOS_CNT_COUNT)

/-- T0(k) + PREP_DL, where `wait` is PREP_DL. -/
def appliedDue (s : State) (wait : Int) : State :=
  match s.pst.master with
  | some m => match m.k with
    | some k => if s.rd PST_MC_STS_STATE ≠ 4 || s.now < t0At s k + wait then s else changeEnded s m
    | none => s
  | none => s

theorem exec_appliedCheck :
    exec (.appliedCheck t) s = done (appliedDue (s.at t) ((s.rd PST_MASTER_PREP_DL * 1000000 * 65536 : Nat) : Int)) := rfl

theorem appliedDue_at {k : Nat} {wait : Int} (hm : s.pst.master = some m) (hk : m.k = some k) : appliedDue s wait =
    if s.rd PST_MC_STS_STATE ≠ 4 || s.now < t0At s k + wait then s else changeEnded s m := by
  unfold appliedDue
  rw [hm]
  dsimp only
  rw [hk]

theorem appliedDue_none {wait : Int} (hm : s.pst.master = none) : appliedDue s wait = s := by
  unfold appliedDue
  rw [hm]

theorem appliedDue_not {k : Nat} {wait : Int} (hm : s.pst.master = some m)
    (hn : m.k = none ∨ s.rd PST_MC_STS_STATE ≠ 4 ∨ (m.k = some k ∧ s.now < t0At s k + wait)) : appliedDue s wait = s := by
  cases hk : m.k with
  | none =>
    unfold appliedDue
    rw [hm]
    dsimp only
    rw [hk]
  | some j =>
    rw [appliedDue_at hm hk]
    refine if_pos ?_
    rcases hn with hn | hn | ⟨hn, ht⟩
    · rw [hk] at hn
      exact absurd hn (Option.some_ne_none j)
    · simp [hn]
    · rw [hk] at hn
      cases hn
      simp [ht]

/-! ### RELOAD (R441) -/

theorem exec_pstReload (hl : s.lets p 0x280004) : exec (.pstReload p t) s = done (pstReload (s.taken p t)) :=
  congrArg done (hostDo_lets s p _ _ t _ hl)

theorem exec_reload (hh : s.hears h 4 = true) : exec (.reload h t) s =
    done (let x := (s.at t).heard h 4
      if isMasterAddr x h.src && !asleep x then restartDue (pipeReset x 4) else x) :=
  congrArg done (pstTake_hears t _ hh)

end Master

/-- Settles O21: by the change that is open on the master and the step it has reached. -/
theorem modeChangeAtMaster : Obligations.ModeChangeAtMaster := by
  unfold Obligations.ModeChangeAtMaster
  refine ⟨?_, ?_, ?_, ?_, ?_, ?_, ?_, ?_⟩
  · intro s p groups t hl hg s0 devs id bad s1
    rw [exec_mcPrepare hl hg, mcPrepare_eq]
    refine ⟨fun hb => congrArg done (if_pos hb), fun hb hd => ?_, fun hb hd => ?_⟩
    · exact congrArg done ((if_neg (ne_true_of_eq_false hb)).trans (if_neg hd))
    · exact congrArg done ((if_neg (ne_true_of_eq_false hb)).trans (if_pos hd))
  · intro s p t m hl
    rw [exec_mcSeal hl, exec_mcHostAbort hl]
    refine ⟨fun hm hi => ⟨fun hs => ?_, fun hs => ?_, fun hs => ?_, fun hs => ?_⟩, fun hn => ⟨?_, ?_⟩⟩
    · refine congrArg done ((mcSeal_open (s := s.taken p t) hm).trans (if_pos ?_))
      rw [show isMaster (s.taken p t) = true from hi, taken_rd, hs]
      rfl
    · refine congrArg done ((mcSeal_open (s := s.taken p t) hm).trans (if_neg ?_))
      rw [taken_rd]
      simp [hs]
    · exact congrArg done ((mcHostAbort_open (s := s.taken p t) hm hi).trans (if_pos hs))
    · exact congrArg done ((mcHostAbort_open (s := s.taken p t) hm hi).trans (if_neg (Nat.not_lt.mpr hs)))
    · exact congrArg done (mcSeal_not (s := s.taken p t) hn)
    · exact congrArg done (mcHostAbort_not (s := s.taken p t) hn)
  · intro s h id t m hh s0
    rw [exec_ack hh, exec_nack hh]
    refine ⟨fun hm hid hs => ⟨?_, fun hd => ?_, fun hd => ?_⟩, fun hn => ?_⟩
    · refine congrArg done ((masterAck_open hm).trans (if_neg ?_))
      simp [hid, hs, s0]
    · refine congrArg done ((masterNack_open hm).trans (if_pos ?_))
      rw [hd]
      simp [hid, hs]
    · refine congrArg done ((masterNack_open hm).trans (if_neg ?_))
      simp only [hd, Bool.and_false, Bool.false_and, Bool.false_eq_true, not_false_eq_true]
    · rcases hn with hn | ⟨hm, hn⟩
      · exact ⟨congrArg done (masterAck_none hn), congrArg done (masterNack_none hn)⟩
      · refine ⟨congrArg done ((masterAck_open hm).trans (if_pos ?_)), congrArg done ((masterNack_open hm).trans (if_neg ?_))⟩
        · rcases hn with hn | hn <;> simp [hn]
        · rcases hn with hn | hn <;> simp [hn]
  · intro s h id k ready t m hh s0 wait s1
    rw [exec_vote hh]
    refine ⟨fun hm hid hk hs hw => ?_, fun hn => congrArg done (masterVote_not hn)⟩
    rw [masterVote_at hm hk, if_neg (by rw [hw]; simp [hid, hs])]
    refine ⟨fun hr => ?_, fun hr hne => ?_, fun hr he ht => ?_, fun hr he ht => ?_⟩
    · exact congrArg done (if_pos (by simp [hr]))
    · exact congrArg done ((if_neg (by simp [hr])).trans (if_pos hne))
    · exact congrArg done ((if_neg (by simp [hr])).trans ((if_neg (not_not_intro he)).trans (if_pos ht)))
    · exact congrArg done ((if_neg (by simp [hr])).trans ((if_neg (not_not_intro he)).trans (if_neg (not_lt.mpr ht))))
  · intro s h id t m hh s0
    rw [exec_applied hh]
    refine ⟨fun hm hid hs hd ha => ?_, fun hn => ?_⟩
    · refine congrArg done ((masterApplied_open hm).trans (if_neg ?_))
      rw [hd, ha]
      simp [hid, hs]
    · rcases hn with hn | ⟨hm, hn⟩
      · exact congrArg done (masterApplied_none hn)
      · refine congrArg done ((masterApplied_open hm).trans (if_pos ?_))
        rcases hn with hn | hn | hn | hn
        · simp [hn]
        · simp [hn]
        · simp only [hn, Bool.not_false, Bool.or_true, Bool.true_or]
        · simp only [hn, Bool.or_true]
  · intro s t k m late s1 s2
    rw [exec_prepDlTimeout, exec_appliedCheck]
    refine ⟨fun hm => ⟨fun hs hw ht => ?_, fun hn => ?_, fun hk hs ht => ?_, fun hn => ?_⟩, fun hn => ⟨?_, ?_⟩⟩
    · refine congrArg done ((prepMissed_open (s := s.at t) hm).trans (if_pos ?_))
      rw [Bool.and_eq_true, Bool.and_eq_true]
      exact ⟨⟨decide_eq_true hs, decide_eq_true hw⟩, decide_eq_true ht⟩
    · refine congrArg done ((prepMissed_open (s := s.at t) hm).trans (if_neg ?_))
      rw [Bool.and_eq_true, Bool.and_eq_true]
      rintro ⟨⟨hs, hw⟩, ht⟩
      rcases hn with hn | hn | hn
      · exact hn (of_decide_eq_true hs)
      · exact of_decide_eq_true hw hn
      · exact absurd (of_decide_eq_true ht) (Nat.not_le.mpr hn)
    · refine congrArg done ((appliedDue_at (s := s.at t) hm hk).trans (if_neg ?_))
      rw [Bool.or_eq_true]
      rintro (hs' | ht')
      · exact of_decide_eq_true hs' hs
      · exact absurd (of_decide_eq_true ht') (not_lt.mpr ht)
    · exact congrArg done (appliedDue_not (s := s.at t) hm hn)
    · exact congrArg done (prepMissed_none (s := s.at t) hn)
    · exact congrArg done (appliedDue_none (s := s.at t) hn)
  · intro s p t hl
    rw [exec_pstReload hl]
    exact ⟨fun hm => congrArg done (if_pos hm), fun hm => congrArg done (if_neg (ne_true_of_eq_false hm))⟩
  · intro s h t hh s0
    rw [exec_reload hh]
    refine ⟨fun hm ha => congrArg done (if_pos (by rw [hm, ha]; rfl)), fun hn => congrArg done (if_neg ?_)⟩
    rcases hn with hn | hn <;> simp [s0, hn]

end Sys2Proof.Proofs
end

section
/-! PROOFS. O25, O26: the security commands (R474 to R491). -/

namespace Sys2Proof.Proofs

open Sys2Proof Sys2Proof.Machine Sys2Proof.Laws

section Commands

variable {s : State} {p : Path} {c t : Nat} {bad : Option Nat}

/-! ### GO of a request (R478) -/

/-- A command that is not under way ends with what its run gives. -/
theorem secCommand_free (hb : s.flag SEC_CMD_GO_BUSY = false) (bad : Option Nat) :
    secCommand s bad = secDone s (u8 (secRequest s) 4) (secRun s (secRequest s) bad) := by
  unfold secCommand
  rw [if_neg (ne_true_of_eq_false hb)]
  unfold secDone unlockFailed
  simp only [Bool.and_eq_true, decide_eq_true_eq]

theorem secCommand_busy (hb : s.flag SEC_CMD_GO_BUSY = true) (bad : Option Nat) : secCommand s bad = refuse s 0x1004 := if_pos hb

/-- GO alone is what a security command writes. -/
theorem secWrite_go (s : State) (bad : Option Nat) : secWrite s 0x80000000 bad = secCommand s bad := rfl

theorem secGo_here (hs : isSession p = false) (hc : u8 (secRequest s) 4 = c) (hl : s.lets p 0x30010) (bad : Option Nat) :
    secGo p c bad (s.at t) = secCommand (s.taken p t) bad := by
  have hgo : secGo p c bad (s.at t) = hostDo (s.at t) p 0x30010 0x80000000 fun u => secWrite u 0x80000000 bad := by
    refine (if_neg (not_not_intro hc)).trans ?_
    cases p with
    | sess n => exact absurd hs.symm Bool.false_ne_true
    | _ => rfl
  rw [hgo, hostDo_lets s p _ _ t _ hl, secWrite_go]

theorem secGo_elsewhere (hn : (!isSession p && u8 (secRequest s) 4 == c) = false) (bad : Option Nat) : secGo p c bad (s.at t) = s.at t := by
  by_cases hc : u8 (secRequest s) 4 = c
  · rw [hc, beq_self_eq_true, Bool.and_true, Bool.not_eq_false'] at hn
    cases p with
    | sess n => exact if_neg (not_not_intro hc)
    | _ => exact absurd hn Bool.false_ne_true
  · exact if_pos hc

/-- The eleven commands are GO, each for its own request. -/
theorem securityCommand_go (s : State) (p : Path) (bad : Option Nat) (t : Nat) :
    ∀ x ∈ ([(.getId p t, 1), (.provision p bad t, 2), (.addKey p bad t, 3), (.revoke p bad t, 4), (.raiseSecver p bad t, 5),
      (.setClockOtp p bad t, 6), (.deploy p bad t, 7), (.retire p bad t, 8), (.debugUnlock p t, 9), (.debugLock p t, 10),
      (.auditSeal p t, 11)] : List (Instr × Nat)), ∃ b, exec x.1 s = done (secGo p x.2 b (s.at t)) := by
  simp only [List.forall_mem_cons]
  exact ⟨⟨none, rfl⟩, ⟨bad, rfl⟩, ⟨bad, rfl⟩, ⟨bad, rfl⟩, ⟨bad, rfl⟩, ⟨bad, rfl⟩, ⟨bad, rfl⟩, ⟨bad, rfl⟩, ⟨none, rfl⟩, ⟨none, rfl⟩, ⟨none, rfl⟩,
    fun _ h => absurd h List.not_mem_nil⟩

/-! ### The checks that a request passes first (R480, R489) -/

/-- What a request that has passed the header, entropy and challenge checks does. -/
def runChecked (s : State) (req : List Byte) (bad : Option Nat) : CmdRes :=
  let c := u8 req 4
  if c = 9 && unlockDenied s then (s, 0x100C)
  else if ([3, 4, 5, 6, 7, 8].contains c && !signedBy s req 1) || (c = 9 && !signedBy s req 4) then (s, 0x1003)
  else match c with
    | 1 => cmdGetId s
    | 2 => cmdProvision s req bad
    | 3 => cmdAddKey s req bad
    | 4 => cmdRevoke s req bad
    | 5 => cmdRaise s req bad
    | 6 => cmdClock s req bad
    | 7 => cmdDeploy s bad
    | 8 => cmdRetire s bad
    | 9 => cmdUnlock s
    | 10 => cmdLock s
    | _ => cmdSeal s

theorem secRun_checks (s : State) (req : List Byte) (bad : Option Nat) : secRun s req bad =
    if headerBad s req || !s.flag SEC_STATUS_ENTROPY_OK then (s, 0x1001)
    else if slice req 0x20 16 ≠ challenge s then (s, 0x1002) else runChecked s req bad := rfl

/-- A request in order runs its command. -/
theorem secGo_asks (ha : s.asks p c) (bad : Option Nat) :
    secGo p c bad (s.at t) = secDone (s.taken p t) c (runChecked (s.taken p t) (secRequest s) bad) := by
  obtain ⟨hl, hs, hb, hc, hh, he, hch⟩ := ha
  rw [secGo_here hs hc hl, secCommand_free (s := s.taken p t) hb, secRun_checks]
  have hch' : ¬ slice (secRequest (s.taken p t)) 0x20 16 ≠ challenge (s.taken p t) := not_not_intro hch
  have hfine : ¬ (headerBad (s.taken p t) (secRequest (s.taken p t)) || !(s.taken p t).flag SEC_STATUS_ENTROPY_OK) = true := by
    rw [taken_flag, he, show headerBad (s.taken p t) (secRequest (s.taken p t)) = false from hh]
    decide
  rw [if_neg hfine, if_neg hch']
  subst hc
  rfl

/-- The commands that need no signature of a slot in force. -/
theorem runChecked_unsigned {req : List Byte} (hc : u8 req 4 = c) (hm : c ∈ [1, 2, 10, 11]) : runChecked s req bad =
    match c with
    | 1 => cmdGetId s
    | 2 => cmdProvision s req bad
    | 10 => cmdLock s
    | _ => cmdSeal s := by
  unfold runChecked
  rw [hc]
  simp only [List.mem_cons, List.not_mem_nil, or_false] at hm
  rcases hm with rfl | rfl | rfl | rfl <;> rfl

theorem cmdSeal_newest (s : State) : cmdSeal s = (respond s (Config.deviceSign
    ((((s.sec_.ring ++ s.sec_.nand).head?.map fun e => leBytes 4 e.aseq ++ e.chain).getD (List.replicate 12 0)) ++ challenge s)), 0) := by
  unfold cmdSeal
  cases (s.sec_.ring ++ s.sec_.nand).head? <;> rfl

end Commands

/-- Settles O25: the commands by their request; what is out of order by the first check that it fails. -/
theorem unsignedSecurityCommands : Obligations.UnsignedSecurityCommands := by
  unfold Obligations.UnsignedSecurityCommands
  refine And.intro ?_ ?_
  · intro s p t S newest
    refine ⟨fun ha => congrArg done ?_, fun ha => congrArg done ?_, fun ha => congrArg done ?_⟩
    · rw [secGo_asks ha, runChecked_unsigned ha.2.2.2.1 (by decide)]
      rfl
    · rw [secGo_asks ha, runChecked_unsigned ha.2.2.2.1 (by decide)]
      rfl
    · rw [secGo_asks ha, runChecked_unsigned ha.2.2.2.1 (by decide)]
      exact congrArg (secDone _ 11) (cmdSeal_newest (s.taken p t))
  · intro s p t bad S req x hx here fine
    obtain ⟨b, hb⟩ := securityCommand_go s p bad t x hx
    refine ⟨fun hn => ?_, fun hhere hl => ?_⟩
    · rw [hb, secGo_elsewhere hn]
      rfl
    · obtain ⟨hs, hc⟩ : isSession p = false ∧ u8 (secRequest s) 4 = x.2 := by
        simpa only [here, Bool.and_eq_true, Bool.not_eq_true', beq_iff_eq] using hhere
      rw [hb, secGo_here hs hc hl]
      have hc' : u8 (secRequest (s.taken p t)) 4 = x.2 := hc
      refine ⟨fun hbusy => congrArg done (secCommand_busy (s := s.taken p t) hbusy b), fun hbusy hf => ?_, fun hbusy hf hch => ?_⟩
      · have hfine : (headerBad (s.taken p t) (secRequest (s.taken p t)) || !(s.taken p t).flag SEC_STATUS_ENTROPY_OK) = true := by
          have h : (!headerBad s (secRequest s) && s.flag SEC_STATUS_ENTROPY_OK) = false := hf
          rw [← Bool.not_eq_false', Bool.not_or, Bool.not_not]
          exact h
        rw [secCommand_free (s := s.taken p t) hbusy, secRun_checks, if_pos hfine, hc']
        rfl
      · have hfine : ¬ (headerBad (s.taken p t) (secRequest (s.taken p t)) || !(s.taken p t).flag SEC_STATUS_ENTROPY_OK) = true := by
          have h : (!headerBad s (secRequest s) && s.flag SEC_STATUS_ENTROPY_OK) = true := hf
          rw [Bool.not_eq_true, ← Bool.not_eq_true', Bool.not_or, Bool.not_not]
          exact h
        rw [secCommand_free (s := s.taken p t) hbusy, secRun_checks, if_neg hfine, if_pos (show slice (secRequest (s.taken p t)) 0x20 16 ≠ challenge (s.taken p t) from hch), hc']
        rfl

end Sys2Proof.Proofs
end

section
/-! PROOFS. O26: the signed security commands (R474 to R490). -/

namespace Sys2Proof.Proofs

open Sys2Proof Sys2Proof.Machine Sys2Proof.Laws

section Signed

variable {s : State} {c : Nat} {req : List Byte} {bad : Option Nat}

/-! ### OTP writes (R474) -/

theorem otpWrites_good (s : State) (ws : List (State → State)) : otpWrites s ws none = (ws.foldl (fun u w => w u) s, 0) := rfl

theorem otpWrites_stops {ws : List (State → State)} {k : Nat} (h : k < ws.length) :
    otpWrites s ws (some k) = ((ws.take k).foldl (fun u w => w u) s, 0x1005) := if_pos h

theorem otpWrites_past {ws : List (State → State)} {k : Nat} (h : ws.length ≤ k) :
    otpWrites s ws (some k) = (ws.foldl (fun u w => w u) s, 0) := if_neg (Nat.not_lt.mpr h)

/-! ### Commands that an OWNER slot signs (R479) -/

/-- The command for which an OWNER slot has signed. -/
def ownerCommand (s : State) (req : List Byte) (bad : Option Nat) (c : Nat) : CmdRes :=
  match c with
  | 3 => cmdAddKey s req bad
  | 4 => cmdRevoke s req bad
  | 5 => cmdRaise s req bad
  | 6 => cmdClock s req bad
  | 7 => cmdDeploy s bad
  | _ => cmdRetire s bad

theorem runChecked_owner (hc : u8 req 4 = c) (hm : c ∈ [3, 4, 5, 6, 7, 8]) (bad : Option Nat) :
    runChecked s req bad = if signedBy s req 1 then ownerCommand s req bad c else (s, 0x1003) := by
  unfold runChecked
  rw [hc]
  simp only [List.mem_cons, List.not_mem_nil, or_false] at hm
  cases signedBy s req 1 <;> rcases hm with rfl | rfl | rfl | rfl | rfl | rfl <;> rfl

/-- DEBUG_UNLOCK takes a DEBUG slot's signature where it is not denied (R484). -/
theorem runChecked_unlock (hc : u8 req 4 = 9) (bad : Option Nat) : runChecked s req bad =
    if unlockDenied s then (s, 0x100C) else if signedBy s req 4 then cmdUnlock s else (s, 0x1003) := by
  unfold runChecked
  rw [hc]
  cases unlockDenied s <;> cases signedBy s req 4 <;> rfl

/-- What a change that OTP has taken does next; one that did not read back is all. -/
def otpThen (w : State × Nat) (next : State → State) : CmdRes := if w.2 = 0 then (next w.1, 0) else w

theorem cmdAddKey_eq : cmdAddKey s req bad =
    let b := secBody req
    if b.length = 50 && 1 ≤ u8 b 0 && u8 b 0 ≤ 5 then
      (emptySlot s).elim (s, 0x1001) fun k => otpThen (otpWrites s [putSlotKey k (u8 b 0, slice b 1 49)] bad) fun u => told u 0x1007 k
    else (s, 0x1001) := by
  unfold cmdAddKey
  dsimp only
  rw [ite_bnot]
  cases emptySlot s with
  | none => rfl
  | some k => simp only [otpThen, ite_not, Option.elim]

theorem cmdRevoke_eq : cmdRevoke s req bad =
    let b := secBody req
    let k := u8 b 0
    let x := s.sec_.slots.getD k ⟨0, [], false⟩
    let after := s.sec_.slots.set k { x with revoked := true }
    if b.length == 1 && k < 8 && x.purpose != 0 && after.any fun y => y.purpose = 1 && !y.revoked then
      otpThen (otpWrites s [fun u => u.sc fun z => { z with slots := after }] bad) fun u => told u 0x1008 k
    else (s, 0x1001) := by
  unfold cmdRevoke
  simp only [otpThen, ite_not, ite_bnot, bne, beq_eq_decide, decide_not]

theorem cmdRaise_eq : cmdRaise s req bad =
    let b := secBody req
    let v := u32 b 0
    if b.length = 4 && minSecVer s < v && s.sec_.minVer.length < 8 then
      otpThen (otpWrites s [fun u => u.sc fun x => { x with minVer := x.minVer ++ [v] }] bad) fun u => told u 0x1009 v
    else (s, 0x1001) := by
  unfold cmdRaise
  dsimp only
  rw [ite_bnot]
  simp only [otpThen, ite_not]

theorem cmdClock_eq : cmdClock s req bad =
    let b := secBody req
    if b.length ≠ 4 then (s, 0x1001)
    else otpThen (otpWrites s [putClock b] bad) fun u => audit u (Config.eventCode 3 % 65536) (u32 b 0) := by
  unfold cmdClock
  simp only [otpThen, ite_not]

/-- Lifecycle bits are burnt, and the transition follows. -/
def burnt (s : State) (bits : List Nat) (bad : Option Nat) : CmdRes := otpThen (otpWrites s (bits.map burnLife) bad) lifeMoved

theorem cmdDeploy_eq : cmdDeploy s bad = if s.idle then burnt s [2, 3] bad else (s, 0x1001) := by
  unfold cmdDeploy burnt
  simp only [otpThen, ite_not, ite_bnot]
  rfl

theorem cmdRetire_eq : cmdRetire s bad = if s.idle then burnt s [2, 3, 4, 5] bad else (s, 0x1001) := by
  unfold cmdRetire burnt
  simp only [otpThen, ite_not, ite_bnot]
  rfl

/-! ### PROVISION (R479) -/

/-- The image key that the body brings, opened under the identity key. -/
def provKey (b : List Byte) : Option (List Byte) :=
  let o := 50 * (provSlots b).length
  (Config.ecdh 0 (slice b o 97)).bind fun z =>
    Config.gcmOpen (Config.derive 0 z devFp 32) (List.replicate 12 0) [] (slice b (o + 97) 32) (slice b (o + 129) 16)

/-- The request is signed by the OWNER slot that its body brings. -/
def provSigned (s : State) (req : List Byte) : Bool :=
  let es := provSlots (secBody req)
  es.findIdx? (fun e => e.1 = 1) == some (u32 req (64 + u32 req 8 + 4))
    && signedBy (s.sc fun x => { x with slots := es.map fun e => ⟨e.1, e.2, false⟩ }) req 1

/-- The body is whole, with a slot of each purpose that PROVISION must bring. -/
def provWhole (b : List Byte) : Bool :=
  let es := provSlots b
  b.length == 50 * es.length + 153 && 1 ≤ es.length && es.length ≤ 8 && es.all (fun e => 1 ≤ e.1 && e.1 ≤ 5)
    && [1, 2, 3].all fun n => es.any fun e => e.1 == n

/-- What PROVISION programs. -/
def provWrites (b k : List Byte) : List (State → State) :=
  let es := provSlots b
  let o := 50 * es.length
  let v := u32 b (o + 145)
  ((List.range es.length).zip es).map (fun e => putSlotKey e.1 e.2)
    ++ [fun s => s.sc fun x => { x with imgKey := Config.wrap Config.keyWrap k }, fun s => s.sc fun x => { x with minVer := if v = 0 then [] else [v] },
      putClock (slice b (o + 149) 4), burnLife 0, burnLife 1]

/-- What PROVISION reports, and the lifecycle transition. -/
def provTold (b : List Byte) (s : State) : State :=
  let es := provSlots b
  let o := 50 * es.length
  let v := u32 b (o + 145)
  let clk := slice b (o + 149) 4
  let s := (List.range es.length).foldl (fun s i => told s 0x1007 i) s
  let s := if v = 0 then s else told s 0x1009 v
  lifeMoved (if u32 clk 0 = 0 then s else audit s (Config.eventCode 3 % 65536) (u32 clk 0))

theorem option_beq (x y : Option Nat) : (x == y) = decide (x = y) := by
  rw [Bool.eq_iff_iff, beq_iff_eq, decide_eq_true_iff]

theorem cmdProvision_eq : cmdProvision s req bad =
    if provSigned s req then (provKey (secBody req)).elim (s, 0x1001) fun k =>
      if provWhole (secBody req) then otpThen (otpWrites s (provWrites (secBody req) k) bad) (provTold (secBody req)) else (s, 0x1001)
    else (s, 0x1003) := by
  have hsigned : provSigned s req = (decide ((provSlots (secBody req)).findIdx? (fun e => e.1 = 1) = some (u32 req (64 + u32 req 8 + 4)))
      && signedBy (s.sc fun x => { x with slots := (provSlots (secBody req)).map fun e => ⟨e.1, e.2, false⟩ }) req 1) := by
    unfold provSigned
    dsimp only
    rw [option_beq]
  unfold cmdProvision
  dsimp only
  rw [ite_bnot, ← hsigned]
  refine congrArg (fun r => if provSigned s req then r else (s, 0x1003)) ?_
  show (match provKey (secBody req) with
    | none => (s, 0x1001)
    | some k => _) = _
  cases provKey (secBody req) with
  | none => rfl
  | some k =>
    have hwhole : provWhole (secBody req) = (decide ((secBody req).length = 50 * (provSlots (secBody req)).length + 153)
        && decide (1 ≤ (provSlots (secBody req)).length) && decide ((provSlots (secBody req)).length ≤ 8)
        && (provSlots (secBody req)).all (fun e => 1 ≤ e.1 && e.1 ≤ 5) && (provSlots (secBody req)).any (fun e => e.1 = 1)
        && (provSlots (secBody req)).any (fun e => e.1 = 2) && (provSlots (secBody req)).any (fun e => e.1 = 3)) := by
      unfold provWhole
      simp only [List.all_cons, List.all_nil, Bool.and_true, Bool.and_assoc, beq_eq_decide]
    simp only [Option.elim, hwhole, otpThen, ite_not, ite_bnot]
    rfl

/-! ### A request in order (R480) -/

variable {p : Path} {t : Nat}

theorem secGo_owner (ha : s.asks p c) (hm : c ∈ [3, 4, 5, 6, 7, 8]) (bad : Option Nat) : secGo p c bad (s.at t) = secDone (s.taken p t) c
    (if signedBy s (secRequest s) 1 then ownerCommand (s.taken p t) (secRequest s) bad c else (s.taken p t, 0x1003)) :=
  (secGo_asks ha bad).trans (congrArg _ (runChecked_owner ha.2.2.2.1 hm bad))

theorem secGo_unlock (ha : s.asks p 9) (bad : Option Nat) : secGo p 9 bad (s.at t) = secDone (s.taken p t) 9
    (if unlockDenied s then (s.taken p t, 0x100C) else if signedBy s (secRequest s) 4 then cmdUnlock (s.taken p t) else (s.taken p t, 0x1003)) :=
  (secGo_asks ha bad).trans (congrArg _ (runChecked_unlock ha.2.2.2.1 bad))

theorem secGo_provision (ha : s.asks p 2) (bad : Option Nat) :
    secGo p 2 bad (s.at t) = secDone (s.taken p t) 2 (cmdProvision (s.taken p t) (secRequest s) bad) :=
  (secGo_asks ha bad).trans (congrArg _ (runChecked_unsigned ha.2.2.2.1 (by decide)))

end Signed

/-- Settles O26: each command by its signature, by whether its body fits, and by what OTP takes. -/
theorem signedSecurityCommands : Obligations.SignedSecurityCommands := by
  unfold Obligations.SignedSecurityCommands
  refine ⟨?_, ?_, ?_, ?_, ?_, ?_, ?_, ?_⟩
  · intro s ws k all
    exact ⟨otpWrites_good s ws, fun h => otpWrites_stops h, fun h => otpWrites_past h⟩
  · intro s p t bad ha S b fits signed gives
    have hgo : ∀ r, (if signed then cmdAddKey S (secRequest s) bad else (S, 0x1003)) = r → gives r := fun r hr =>
      congrArg done ((secGo_owner ha (by decide) bad).trans (congrArg (secDone S 3) hr))
    rw [cmdAddKey_eq] at hgo
    refine ⟨fun hs => hgo _ (if_neg (ne_true_of_eq_false hs)), fun hs hn => hgo _ ((if_pos hs).trans ?_), fun hs hf k hk => hgo _ ((if_pos hs).trans ?_)⟩
    · rcases hn with hn | hn
      · exact if_neg (ne_true_of_eq_false hn)
      · show (if fits then (emptySlot s).elim (S, 0x1001) _ else (S, 0x1001)) = _
        rw [hn]
        exact ite_self _
    · refine (if_pos hf).trans ?_
      show (emptySlot s).elim (S, 0x1001) _ = _
      rw [hk]
      rfl
  · intro s p t bad ha S b k slots fits signed gives w
    have hgo : ∀ r, (if signed then cmdRevoke S (secRequest s) bad else (S, 0x1003)) = r → gives r := fun r hr =>
      congrArg done ((secGo_owner ha (by decide) bad).trans (congrArg (secDone S 4) hr))
    rw [cmdRevoke_eq] at hgo
    exact ⟨fun hs => hgo _ (if_neg (ne_true_of_eq_false hs)), fun hs hf => hgo _ ((if_pos hs).trans (if_neg (ne_true_of_eq_false hf))),
      fun hs hf => hgo _ ((if_pos hs).trans (if_pos hf))⟩
  · intro s p t bad ha S b v fits signed gives w
    have hgo : ∀ r, (if signed then cmdRaise S (secRequest s) bad else (S, 0x1003)) = r → gives r := fun r hr =>
      congrArg done ((secGo_owner ha (by decide) bad).trans (congrArg (secDone S 5) hr))
    rw [cmdRaise_eq] at hgo
    exact ⟨fun hs => hgo _ (if_neg (ne_true_of_eq_false hs)), fun hs hf => hgo _ ((if_pos hs).trans (if_neg (ne_true_of_eq_false hf))),
      fun hs hf => hgo _ ((if_pos hs).trans (if_pos hf))⟩
  · intro s p t bad ha S b signed gives w
    have hgo : ∀ r, (if signed then cmdClock S (secRequest s) bad else (S, 0x1003)) = r → gives r := fun r hr =>
      congrArg done ((secGo_owner ha (by decide) bad).trans (congrArg (secDone S 6) hr))
    rw [cmdClock_eq] at hgo
    exact ⟨fun hs => hgo _ (if_neg (ne_true_of_eq_false hs)), fun hs hf => hgo _ ((if_pos hs).trans (if_pos hf)),
      fun hs hf => hgo _ ((if_pos hs).trans (if_neg (not_not_intro hf)))⟩
  · intro s p t bad S signed burns
    refine ⟨fun ha => ?_, fun ha => ?_⟩
    · intro gives
      have hgo : ∀ r, (if signed then cmdDeploy S bad else (S, 0x1003)) = r → gives r := fun r hr =>
        congrArg done ((secGo_owner ha (by decide) bad).trans (congrArg (secDone S 7) hr))
      rw [cmdDeploy_eq] at hgo
      exact ⟨fun hs => hgo _ (if_neg (ne_true_of_eq_false hs)), fun hs hi => hgo _ ((if_pos hs).trans (if_neg (ne_true_of_eq_false hi))),
        fun hs hi => hgo _ ((if_pos hs).trans (if_pos hi))⟩
    · intro gives
      have hgo : ∀ r, (if signed then cmdRetire S bad else (S, 0x1003)) = r → gives r := fun r hr =>
        congrArg done ((secGo_owner ha (by decide) bad).trans (congrArg (secDone S 8) hr))
      rw [cmdRetire_eq] at hgo
      exact ⟨fun hs => hgo _ (if_neg (ne_true_of_eq_false hs)), fun hs hi => hgo _ ((if_pos hs).trans (if_neg (ne_true_of_eq_false hi))),
        fun hs hi => hgo _ ((if_pos hs).trans (if_pos hi))⟩
  · intro s p t ha S denied signed gives
    have hgo : ∀ r, (if denied then (S, 0x100C) else if signed then cmdUnlock S else (S, 0x1003)) = r → gives r := fun r hr =>
      congrArg done ((secGo_unlock ha none).trans (congrArg (secDone S 9) hr))
    exact ⟨fun hd => hgo _ (if_pos hd), fun hd hs => hgo _ ((if_neg (ne_true_of_eq_false hd)).trans (if_neg (ne_true_of_eq_false hs))),
      fun hd hs => hgo _ ((if_neg (ne_true_of_eq_false hd)).trans (if_pos hs))⟩
  · intro s p t bad ha S req b es o own signed key whole ver clk w tells gives
    have hgo : ∀ r, cmdProvision S req bad = r → gives r := fun r hr => congrArg done ((secGo_provision ha bad).trans (congrArg (secDone S 2) hr))
    rw [cmdProvision_eq] at hgo
    refine ⟨fun hs => hgo _ (if_neg (ne_true_of_eq_false hs)), fun hs hn => hgo _ ((if_pos hs).trans ?_), fun hs hw k hk => hgo _ ((if_pos hs).trans ?_)⟩
    · show key.elim (S, 0x1001) (fun k => if whole then _ else (S, 0x1001)) = _
      rcases hn with hn | hn
      · rw [hn]
        rfl
      · rw [hn]
        cases key <;> rfl
    · show key.elim (S, 0x1001) _ = _
      rw [hk]
      exact if_pos hw

end Sys2Proof.Proofs
end

section
/-! PROOFS. O27: handshakes of the host channel (R485 to R487). -/

namespace Sys2Proof.Proofs

open Sys2Proof Sys2Proof.Machine Sys2Proof.Laws

section Handshake

variable {s : State} {port t : Nat}

/-! ### A handshake that fails (R487) -/

theorem audit_tim (s : State) (c d : Nat) : (audit s c d).tim = s.tim := rfl
theorem audit_fails (s : State) (c d : Nat) : (audit s c d).sec_.fails = s.sec_.fails := rfl

/-- Reported and audited. -/
def failTold (s : State) (port slot : Nat) : State := audit (report s 0x100F port slot) 0x100F (port * 256 + slot)

/-- The `n`th failed handshake in a row counts, or, with `most` allowed, locks the port out from `now` on. -/
def failCounted (s : State) (port n most now : Nat) : State :=
  if most ≤ n then
    audit (report ((s.sc fun x => { x with fails := put_ x.fails port 0 0, lockAt := put_ x.lockAt port none (some now) }).wrBit
      SEC_STATUS_LOCKOUT port true) 0x1010 port) 0x1010 port
  else s.sc fun x => { x with fails := put_ x.fails port 0 n }

theorem authFail_eq (s : State) (port slot : Nat) :
    authFail s port slot = failCounted (failTold s port slot) port (s.sec_.fails.getD port 0 + 1) (u8 (s.sec 18) 6) s.tim.cnt := by
  have hfails : (failTold s port slot).sec_.fails = s.sec_.fails :=
    (audit_fails _ _ _).trans (congrArg SecSt.fails (report_sec_ s 0x100F port slot))
  have htim : (failTold s port slot).tim = s.tim := (audit_tim _ _ _).trans (report_tim s 0x100F port slot)
  have himg : (failTold s port slot).img = s.img := (audit_img _ _ _).trans (report_img s 0x100F port slot)
  have hmax : authMax (failTold s port slot) = u8 (s.sec 18) 6 := by
    unfold authMax State.sec
    rw [himg]
  have hcount : authFail s port slot = failCounted (failTold s port slot) port ((failTold s port slot).sec_.fails.getD port 0 + 1)
    (authMax (failTold s port slot)) (failTold s port slot).tim.cnt := rfl
  rw [hcount, hmax, hfails, htim]

/-! ### INIT (R486) -/

theorem settleMinor_common {lo hi v : Nat} (h : sessMinor s lo hi = some v) : settleMinor s lo hi = (v, s) := by
  unfold settleMinor
  rw [h]

/-- A drawn minor leaves all but the draws alone. -/
theorem settleMinor_keeps (s : State) (lo hi : Nat) :
    (settleMinor s lo hi).2.sec_ = s.sec_ ∧ (settleMinor s lo hi).2.tim = s.tim := by
  unfold settleMinor
  cases sessMinor s lo hi with
  | none => exact ⟨rfl, rfl⟩
  | some v => exact ⟨rfl, rfl⟩

/-- The port takes INIT. -/
def initServed (s : State) (port : Nat) : Bool :=
  hcOn s port && !bit (s.rd SEC_STATUS_LOCKOUT) port && s.sec_.sess.length < s.rd SEC_POLICY_SESS_MAX && s.flag SEC_STATUS_ENTROPY_OK

/-- INIT is in order and names a HOST slot. -/
def initFits (s : State) (good : Bool) (pay : List Byte) : Bool :=
  good && pay.length == 132 && lifecycle s != 3 && (slotKey s (u8 pay 129) 5).isSome

/-- INIT is answered with RESP, and waits for FIN. -/
def initAnswered (s : State) (port : Nat) (pay z : List Byte) : State :=
  let m := settleMinor s (u8 pay 130) (u8 pay 131)
  let th := Config.sha384 (pay ++ respPayload m.2 m.1 (List.replicate 96 0))
  (m.2.sc fun x => { x with
      draws := x.draws + 2, nextId := nextSess x.nextId, hand := x.hand ++ [⟨s.sec_.nextId, port, u8 pay 129, th, z, m.1, s.tim.cnt⟩] }).emit
    (.record port 2 s.sec_.nextId 0 (respPayload m.2 m.1 (Config.deviceSign th)) [])

theorem initRecord_eq (s : State) (port : Nat) (good : Bool) (pay : List Byte) : initRecord s port good pay =
    if initServed s port then
      if initFits s good pay then
        (Config.ecdh s.sec_.draws (pay.take 97)).elim (authFail s port (u8 pay 129)) (initAnswered s port pay)
      else authFail s port (u8 pay 129)
    else s := by
  have hserves : (!hcOn s port || bit (s.rd SEC_STATUS_LOCKOUT) port || decide (s.rd SEC_POLICY_SESS_MAX ≤ s.sec_.sess.length)
      || !s.flag SEC_STATUS_ENTROPY_OK) = !initServed s port := by
    simp only [initServed, Bool.not_and, Bool.not_not, ← decide_not, Nat.not_lt]
  have hfits : (!good || decide (pay.length ≠ 132) || decide (lifecycle s = 3) || (slotKey s (u8 pay 129) 5).isNone)
      = !initFits s good pay := by
    simp only [initFits, Bool.not_and, Bool.not_not, bne, beq_eq_decide, decide_not, Option.not_isSome]
  unfold initRecord
  dsimp only
  rw [hserves, hfits, ite_bnot, ite_bnot]
  refine congrArg (fun r => if initServed s port then if initFits s good pay then r else _ else s) ?_
  cases Config.ecdh s.sec_.draws (pay.take 97) with
  | none => rfl
  | some z =>
    obtain ⟨hsec, htim⟩ := settleMinor_keeps s (u8 pay 130) (u8 pay 131)
    show State.emit _ _ = initAnswered s port pay z
    unfold initAnswered
    dsimp only
    rw [hsec, htim]

theorem exec_init (port : Nat) (good : Bool) (pay : List Byte) (t : Nat) (s : State) :
    exec (.init port good pay t) s = done (initRecord (s.at t) port good pay) := rfl

/-! ### FIN (R486, R487) -/

variable {id : Nat} {sig : List Byte} {h : HandSt}

theorem two_seconds : usTicks 2000000 = 500000000 := rfl

/-- The handshake no longer waits. -/
def handTaken (s : State) (id : Nat) : State := s.sc fun x => { x with hand := x.hand.filter fun y => y.id ≠ id }

/-- FIN comes in time, whole, and its signature verifies. -/
def finOk (s : State) (h : HandSt) (sig : List Byte) : Bool :=
  ((slotKey s h.slot 5).map fun k => Config.ecdsaVerify k (h.th ++ finText) sig).getD false && sig.length == 96
    && s.tim.cnt ≤ h.since + 500000000

theorem finRecord_none (hf : (s.sec_.hand.find? fun h => h.id = id) = none) : finRecord s id sig = s := by
  unfold finRecord
  rw [hf]

/-- A session is left. -/
def sessRoom (s : State) : Bool := s.sec_.sess.length < s.rd SEC_POLICY_SESS_MAX

theorem finRecord_waits (hf : (s.sec_.hand.find? fun h => h.id = id) = some h) : finRecord s id sig =
    if hcOn s h.port then
      if finOk s h sig then
        if sessRoom s then openSess (handTaken s id) h else handTaken s id
      else authFail (handTaken s id) h.port h.slot
    else handTaken s id := by
  have hok : (!(match slotKey s h.slot 5 with
        | some k => Config.ecdsaVerify k (h.th ++ finText) sig
        | none => false) || decide (h.since + usTicks 2000000 < s.tim.cnt) || decide (sig.length ≠ 96)) = !finOk s h sig := by
    have htime : decide (h.since + usTicks 2000000 < s.tim.cnt) = !decide (s.tim.cnt ≤ h.since + 500000000) := by
      rw [two_seconds, ← decide_not, decide_eq_decide, Nat.not_le]
    rw [finOk, htime, Bool.not_and, Bool.not_and, beq_eq_decide, decide_not, Bool.or_right_comm]
    cases slotKey s h.slot 5 <;> rfl
  unfold finRecord
  rw [hf]
  dsimp only
  show (if !hcOn s h.port then _ else if (!(match slotKey s h.slot 5 with
        | some k => Config.ecdsaVerify k (h.th ++ finText) sig
        | none => false) || decide (h.since + usTicks 2000000 < s.tim.cnt) || decide (sig.length ≠ 96)) then _ else _) = _
  have hroom : ∀ u v : State, (if s.rd SEC_POLICY_SESS_MAX ≤ s.sec_.sess.length then u else v)
      = if sessRoom s then v else u := fun u v => by simp only [sessRoom, decide_eq_true_eq, ← Nat.not_lt, ite_not]
  rw [hok, ite_bnot, ite_bnot]
  exact congrArg (fun r => if hcOn s h.port then if finOk s h sig then r else authFail (handTaken s id) h.port h.slot else handTaken s id)
    (hroom (handTaken s id) (openSess (handTaken s id) h))

theorem exec_fin (id : Nat) (sig : List Byte) (t : Nat) (s : State) : exec (.fin id sig t) s = done (finRecord (s.at t) id sig) := rfl

/-- FIN has not come by `due`. -/
def finMissed (s : State) (id : Nat) (due : Nat → Nat) : State :=
  match s.sec_.hand.find? fun h => h.id = id with
  | some h => if due h.since ≤ s.tim.cnt then authFail (handTaken s id) h.port h.slot else s
  | none => s

theorem exec_finTimeout (id t : Nat) (s : State) : exec (.finTimeout id t) s = done (finMissed (s.at t) id (· + 500000000)) := rfl

theorem finMissed_none {due : Nat → Nat} (hf : (s.sec_.hand.find? fun h => h.id = id) = none) : finMissed s id due = s := by
  unfold finMissed
  rw [hf]

theorem finMissed_waits {due : Nat → Nat} (hf : (s.sec_.hand.find? fun h => h.id = id) = some h) :
    finMissed s id due = if due h.since ≤ s.tim.cnt then authFail (handTaken s id) h.port h.slot else s := by
  unfold finMissed
  rw [hf]

/-- The session that FIN opens. -/
def sessOpened (s : State) (h : HandSt) : SessSt :=
  ⟨h.id, freePlace s, h.port, h.slot, Config.derive 1 h.secret h.th 36, Config.derive 2 h.secret h.th 36, 0, [], 0, 0, h.minor, s.tim.cnt, s.tim.cnt⟩

theorem openSess_eq (s : State) (h : HandSt) : openSess s h =
    told ((s.sc fun y => { y with sess := y.sess ++ [sessOpened s h], fails := put_ y.fails h.port 0 0 }).wrs
      [(SEC_STATUS_SESSIONS, s.sec_.sess.length + 1), (SEC_SESS_OPEN (freePlace s), 1), (SEC_SESS_SLOT (freePlace s), h.slot),
        (SEC_SESS_PORT (freePlace s), h.port), (SEC_SESS_SESSION_ID (freePlace s), h.id)]) 0x100D h.id := by
  have hlen : (s.sec_.sess ++ [sessOpened s h]).length = s.sec_.sess.length + 1 := List.length_append
  rw [← hlen]
  rfl

/-! ### A lockout ends (R487) -/

theorem match_lockout (k now : Nat) (since : Option Nat) (u v : State) :
    (match since with
      | some x => if x + k ≤ now then u else v
      | none => v) = if (since.map fun x => decide (x + k ≤ now)).getD false then u else v := by
  cases since with
  | none => rfl
  | some x => simp only [Option.map_some, Option.getD_some, decide_eq_true_eq]

theorem lockout_ticks (n : Nat) : usTicks (1000000 * n) = 250000000 * n := by
  show 1000000 * n * 250 = _
  omega

theorem exec_lockoutEnd (port t : Nat) (s : State) : exec (.lockoutEnd port t) s =
    done (if ((s.sec_.lockAt.getD port none).map fun x => decide (x + 250000000 * u16 (s.sec 18) 8 ≤ max s.tim.cnt t)).getD false
      then ((s.at t).sc fun y => { y with lockAt := put_ y.lockAt port none none }).wrBit SEC_STATUS_LOCKOUT port false else s.at t) := by
  rw [← lockout_ticks]
  exact congrArg done (match_lockout (usTicks (1000000 * u16 (s.sec 18) 8)) (max s.tim.cnt t) (s.sec_.lockAt.getD port none) _ _)

end Handshake

/-- Settles O27: INIT by whether the port takes it and whether it is in order; FIN by its handshake. -/
theorem hostChannelHandshakes : Obligations.HostChannelHandshakes := by
  unfold Obligations.HostChannelHandshakes
  refine ⟨?_, ?_, ?_, ?_⟩
  · intro s port t good pay z S slot serves fits m th gives
    have hgo : ∀ r, (if serves then if fits then (Config.ecdh s.sec_.draws (pay.take 97)).elim (authFail S port slot) (initAnswered S port pay)
        else authFail S port slot else S) = r → gives r := fun r hr =>
      congrArg done ((initRecord_eq S port good pay).trans hr)
    refine ⟨fun hs => hgo _ (if_neg (ne_true_of_eq_false hs)), fun hs hf => hgo _ ((if_pos hs).trans (if_neg (ne_true_of_eq_false hf))),
      fun hs hf hz => hgo _ ((if_pos hs).trans ((if_pos hf).trans ?_)), fun hs hf hz => hgo _ ((if_pos hs).trans ((if_pos hf).trans ?_)),
      fun v hv => settleMinor_common (s := S) hv⟩
    · rw [hz]
      rfl
    · rw [hz]
      rfl
  · intro s id t sig h S here n x ok room gives late
    have hheld : here = true → ((s.at t).sec_.hand.find? fun h => h.id = id) = some h := fun hh => eq_of_beq hh
    have hfin : ∀ r, here = true → (if hcOn s h.port then if ok then if room then openSess S h else S else authFail S h.port h.slot else S) = r →
        gives r := fun r hh hr => congrArg done ((finRecord_waits (hheld hh)).trans hr)
    rw [exec_finTimeout]
    refine ⟨fun hn => ⟨?_, ?_⟩, fun hh hc => hfin _ hh (if_neg (ne_true_of_eq_false hc)),
      fun hh hc ho => hfin _ hh ((if_pos hc).trans (if_neg (ne_true_of_eq_false ho))),
      fun hh hc ho hr => hfin _ hh ((if_pos hc).trans ((if_pos ho).trans (if_neg (ne_true_of_eq_false hr)))),
      fun hh hc ho hr => hfin _ hh ((if_pos hc).trans ((if_pos ho).trans ((if_pos hr).trans (openSess_eq S h)))),
      fun hh hl => ?_, fun hh hl => ?_⟩
    · exact congrArg done (finRecord_none (s := s.at t) hn)
    · exact congrArg done (finMissed_none (due := (· + 500000000)) (s := s.at t) hn)
    · exact congrArg done ((finMissed_waits (due := (· + 500000000)) (hheld hh)).trans (if_pos (of_decide_eq_true hl)))
    · exact congrArg done ((finMissed_waits (due := (· + 500000000)) (hheld hh)).trans (if_neg (of_decide_eq_false hl)))
  · intro s port slot s1 n
    rw [authFail_eq]
    exact ⟨fun hn => if_neg (Nat.not_le.mpr hn), fun hn => if_pos hn⟩
  · intro s port t due
    rw [exec_lockoutEnd]
    exact ⟨fun hd => congrArg done (if_pos hd), fun hd => congrArg done (if_neg (ne_true_of_eq_false hd))⟩

end Sys2Proof.Proofs
end

section
/-! PROOFS. O28: records of an open session (R485 to R488). -/

namespace Sys2Proof.Proofs

open Sys2Proof Sys2Proof.Machine Sys2Proof.Laws

section Records

variable {s : State} {id typ seq : Nat} {ct tag b : List Byte} {x : SessSt} {f : State → List Byte → State}

/-! ### A record is taken or discarded (R487) -/

/-- The window of accepted SEQ moves, and the record counts. -/
def seqTaken (s : State) (id seq : Nat) : State :=
  updSess s id fun y => let hi := max y.high seq
    { y with high := hi, seen := (seq :: y.seen).filter (fun q => hi ≤ q + 64), nIn := y.nIn + 1, lastAt := s.tim.cnt }

/-- SEQ was accepted within the last 64. -/
def seqAgain (x : SessSt) (seq : Nat) : Bool := 1 ≤ seq && x.high ≤ seq + 64 && !seqFresh x seq

/-- What a record of a session on a serving port does. -/
def recordHeard (s : State) (x : SessSt) (id typ seq : Nat) (ct tag : List Byte) (f : State → List Byte → State) : State :=
  (openRecord x typ seq ct tag).elim (report s 0x1011 0 id) fun b =>
    if seqFresh x seq then (let u := f (seqTaken s id seq) b; if 2 ^ 32 ≤ x.nIn + 1 then closeSess u fun y => y.id = id else u)
    else if seqAgain x seq then report s 0x1012 0 id else s

theorem takeRecord_none (hf : (s.sec_.sess.find? fun x => x.id = id) = none) : takeRecord s id typ seq ct tag f = s := by
  unfold takeRecord
  rw [hf]

theorem takeRecord_open (hf : (s.sec_.sess.find? fun x => x.id = id) = some x) :
    takeRecord s id typ seq ct tag f = if hcOn s x.port then recordHeard s x id typ seq ct tag f else s := by
  unfold takeRecord
  rw [hf]
  dsimp only
  rw [ite_bnot]
  refine congrArg (fun r => if hcOn s x.port then r else s) ?_
  unfold recordHeard
  cases openRecord x typ seq ct tag with
  | none => rfl
  | some b =>
    have hagain : ¬ seqFresh x seq = true → (decide (x.high < seq + 65) && decide (1 ≤ seq)) = seqAgain x seq := fun hn => by
      rw [seqAgain, Bool.eq_false_iff.mpr hn, Bool.not_false, Bool.and_true, Bool.and_comm]
      exact congrArg _ (decide_eq_decide.mpr Nat.lt_succ_iff)
    dsimp only [Option.elim]
    rw [ite_bnot]
    by_cases hfr : seqFresh x seq = true
    · rw [if_pos hfr, if_pos hfr]
      rfl
    · rw [if_neg hfr, if_neg hfr, hagain hfr]

theorem recordHeard_bad (ho : openRecord x typ seq ct tag = none) : recordHeard s x id typ seq ct tag f = report s 0x1011 0 id := by
  unfold recordHeard
  rw [ho]
  rfl

theorem recordHeard_fresh (ho : openRecord x typ seq ct tag = some b) (hf : seqFresh x seq = true) :
    recordHeard s x id typ seq ct tag f =
      let u := f (seqTaken s id seq) b
      if 2 ^ 32 ≤ x.nIn + 1 then closeSess u fun y => y.id = id else u := by
  unfold recordHeard
  rw [ho]
  exact if_pos hf

theorem recordHeard_stale (ho : openRecord x typ seq ct tag = some b) (hf : seqFresh x seq = false) :
    recordHeard s x id typ seq ct tag f = if seqAgain x seq then report s 0x1012 0 id else s := by
  unfold recordHeard
  rw [ho]
  exact if_neg (ne_true_of_eq_false hf)

/-! ### The operations of REG (R488) -/

/-- A record's operations. -/
def recordOps (b : List Byte) : List (List Byte) := (List.range (b.length / 8)).map fun i => slice b (8 * i) 8

/-- 1 to 64 operations of 8 octets. -/
def recordWhole (b : List Byte) : Bool := b.length % 8 == 0 && 8 ≤ b.length && b.length ≤ 512

theorem regRecord_open (hf : (s.sec_.sess.find? fun x => x.id = id) = some x) (hj : s.hst.jobs.all (fun j => j.id != id) = true) :
    regRecord s id b = if recordWhole b then regRun s ⟨id, x.place, recordOps b, []⟩ else s := by
  have hwhole : (decide (b.length % 8 ≠ 0) || decide (b.length / 8 = 0) || decide (64 < b.length / 8)) = !recordWhole b := by
    rw [Bool.eq_iff_iff]
    simp only [recordWhole, Bool.or_eq_true, decide_eq_true_eq, Bool.not_eq_true', Bool.and_eq_false_iff, decide_eq_false_iff_not, beq_eq_false_iff_ne]
    omega
  have hfree : ¬ (s.hst.jobs.any fun y => y.id = id) = true := by
    simpa using hj
  unfold regRecord
  rw [hf]
  dsimp only
  rw [hwhole, ite_bnot]
  exact congrArg (fun r => if recordWhole b then r else s) (if_neg hfree)

theorem regRun_waits {j : RegJob} (h : (regOps j.place j.id j.rest (s, j.out)).2.2.2 = true) :
    regRun s j = let r := regOps j.place j.id j.rest (s, j.out)
      { r.1 with hst := { r.1.hst with jobs := ⟨j.id, j.place, r.2.1, r.2.2.1⟩ :: r.1.hst.jobs } } := if_pos h

theorem regRun_answers {j : RegJob} (h : (regOps j.place j.id j.rest (s, j.out)).2.2.2 = false) :
    regRun s j = let r := regOps j.place j.id j.rest (s, j.out)
      sendRecord r.1 j.id 5 r.2.2.1 := if_neg (ne_true_of_eq_false h)

/-! ### A session ends by its times (R487) -/

/-- A session has been idle for `idle`, or open for `most`. -/
def sessOver (idle most now id : Nat) (x : SessSt) : Bool := x.id = id && (x.lastAt + idle ≤ now || x.openAt + most ≤ now)

theorem day_ticks : usTicks (86400 * 1000000) = 21600000000000 := rfl

theorem exec_sessIdleTimeout (s : State) (id t : Nat) : exec (.sessIdleTimeout id t) s =
    done (closeSess (s.at t) (sessOver (250000000 * u16 (s.sec 18) 4) 21600000000000 (max s.tim.cnt t) id)) := by
  rw [← lockout_ticks, ← day_ticks]
  rfl

end Records

/-- Settles O28: by the session that a record names, its tag and its SEQ. -/
theorem hostChannelRecords : Obligations.HostChannelRecords := by
  unfold Obligations.HostChannelRecords
  refine ⟨?_, ?_, ?_⟩
  · intro s id seq t ct tag b x S here none_ fresh again T ends reg close
    have hreg : ∀ u, takeRecord S id 4 seq ct tag (fun s b => regRecord s id b) = u → reg u := fun u hu => congrArg done hu
    have hclose : ∀ u, takeRecord S id 6 seq ct tag (fun s _ => closeSess s fun y => y.id = id) = u → close u := fun u hu => congrArg done hu
    have htake : ∀ typ f, here = true → takeRecord S id typ seq ct tag f = recordHeard S x id typ seq ct tag f := fun typ f hh => by
      obtain ⟨hx, hon⟩ := Bool.and_eq_true_iff.mp hh
      exact (takeRecord_open (s := S) (eq_of_beq hx)).trans (if_pos (show hcOn S x.port = true from hon))
    have hnone : ∀ typ f, none_ = true → takeRecord S id typ seq ct tag f = S := fun typ f hn => by
      rcases Bool.or_eq_true_iff.mp hn with hn | hn
      · exact takeRecord_none (Option.isNone_iff_eq_none.mp hn)
      · obtain ⟨hx, hoff⟩ := Bool.and_eq_true_iff.mp hn
        exact (takeRecord_open (s := S) (eq_of_beq hx)).trans (if_neg (show ¬ hcOn S x.port = true from ne_true_of_eq_false ((Bool.not_eq_true' _).mp hoff)))
    have hfresh : seqFresh x seq = fresh := by
      simp only [fresh, seqFresh, bne, beq_eq_decide, decide_not]
    have hagain : seqAgain x seq = again := by
      rw [seqAgain, hfresh]
    clear_value fresh again
    subst hfresh hagain
    refine ⟨fun hn => ⟨hreg _ (hnone _ _ hn), hclose _ (hnone _ _ hn)⟩, fun hh ho => hreg _ ((htake _ _ hh).trans ?_),
      fun hh ho => hclose _ ((htake _ _ hh).trans ?_), fun hh ho hf => hreg _ ((htake _ _ hh).trans ?_),
      fun hh ho hf => hclose _ ((htake _ _ hh).trans ?_), fun hh ho hf => hreg _ ((htake _ _ hh).trans ?_),
      fun hh ho hf => hclose _ ((htake _ _ hh).trans ?_)⟩
    · exact recordHeard_bad ho
    · exact recordHeard_bad ho
    · exact recordHeard_fresh ho hf
    · exact recordHeard_fresh ho hf
    · exact recordHeard_stale ho hf
    · exact recordHeard_stale ho hf
  · intro s id b x hx hj r whole
    rw [regRecord_open hx hj]
    exact ⟨fun hw hr => (if_pos hw).trans (regRun_answers hr), fun hw hr => (if_pos hw).trans (regRun_waits hr),
      fun hw => if_neg (ne_true_of_eq_false hw)⟩
  · intro s id t
    exact exec_sessIdleTimeout s id t

end Sys2Proof.Proofs
end

section
/-! PROOFS. O29, refuted. As in O59, the class-S fault that a boundary-scan entry raises closes the host-channel sessions, and one whose place
lies so far behind the eighth that its SEC_SESS register would be ERR_STATUS takes FAIL_SILENT away again. -/

namespace Sys2Proof.Proofs

open Sys2Proof Sys2Proof.Machine Sys2Proof.Laws

/-- The device with the far session, at its boundary-scan entry. -/
def farScan : State :=
  { farSession.at 0 with err := { (farSession.at 0).err with jtag := true }, saf := { (farSession.at 0).saf with cmd := 0 } }.wrs
    [(SAF_OUT_COMMAND, 0), (SAF_STATUS_OUT_ON, 0)]

/-- Its class-S fault, whatever its mechanism, leaves it able to speak. -/
theorem classS_farScan : ∀ m < 16, (classS farScan.draw.2 ⟨m, 0, 0, none, 0, false, false, false⟩ 7).flag ERR_STATUS_FAIL_SILENT = false := by
  decide +kernel

/-- Refutes O29: its clause on EXTEST says of every state that the fault sets FAIL_SILENT. -/
theorem not_entropyAuditAndJtag : ¬ Obligations.EntropyAuditAndJtag := by
  unfold Obligations.EntropyAuditAndJtag
  rintro ⟨-, -, -, -, hscan⟩
  obtain ⟨-, -, hsilent⟩ := hscan farSession 0
  have hspeaks : (classOther farScan).flag ERR_STATUS_FAIL_SILENT = false := classS_farScan _ (Nat.mod_lt farScan.draw.1 (by decide))
  exact Bool.false_ne_true (hspeaks.symm.trans hsilent)

end Sys2Proof.Proofs
end

section
/-! PROOFS. What a start of the main die leaves standing: its power state, its straps, and that it is released (R465, R551). -/

namespace Sys2Proof.Proofs

open Sys2Proof Sys2Proof.Machine Sys2Proof.Laws

/-- The power state, the straps, and whether the main die is released. -/
def bootView (s : State) : Nat × Nat × Bool := (s.rd RST_PWR_STS_STATE, s.rd GLB_STRAP_BOOT, s.clk.released)

/-- A field of the clocks, or of a block behind RST: neither the power state nor a strap. -/
abbrev beyondBoot (f : Fld) : Prop := 0x10000 * 8 ≤ f.key ∧ (f.key < 0x20000 * 8 ∨ 0x20010 * 8 ≤ f.key)

section View

variable {s : State} {f : Fld} {p q c n d : Nat}

theorem beyondBoot.high (h : 0x20010 * 8 ≤ f.key) : beyondBoot f := ⟨by omega, Or.inr h⟩

/-! ### Registers, reports and the audit -/

theorem beyondBoot.ne_state (h : beyondBoot f) : RST_PWR_STS_STATE.key ≠ f.key := fun he => by
  have hk : RST_PWR_STS_STATE.key = 0x2000C * 8 + 29 := rfl
  omega

theorem beyondBoot.ne_boot (h : beyondBoot f) : GLB_STRAP_BOOT.key ≠ f.key := fun he => by
  have hk : GLB_STRAP_BOOT.key = 0x10 * 8 := rfl
  omega

theorem bootView_ext {u : State} (hs : u.rd RST_PWR_STS_STATE = s.rd RST_PWR_STS_STATE) (hb : u.rd GLB_STRAP_BOOT = s.rd GLB_STRAP_BOOT)
    (hc : u.clk = s.clk) : bootView u = bootView s := by
  rw [bootView, hs, hb, hc]
  rfl

theorem bootView_wr (h : beyondBoot f) (v : Nat) : bootView (s.wr f v) = bootView s :=
  bootView_ext (rd_wr_ne s f _ v h.ne_state) (rd_wr_ne s f _ v h.ne_boot) rfl

theorem bootView_incSat (h : beyondBoot f) (m : Nat) : bootView (s.incSat f m) = bootView s := bootView_wr h _
theorem bootView_wrb (h : beyondBoot f) (b : Bool) : bootView (s.wrb f b) = bootView s := bootView_wr h _
theorem bootView_wrBit (h : beyondBoot f) (i : Nat) (b : Bool) : bootView (s.wrBit f i b) = bootView s := bootView_wr h _

/-- What each step of a fold over a list keeps, the fold keeps. -/
theorem foldl_keeps_mem {α β γ : Type} (view : γ → β) (g : γ → α → γ) (l : List α) (h : ∀ x ∈ l, ∀ s, view (g s x) = view s) (s : γ) :
    view (l.foldl g s) = view s := by
  induction l generalizing s with
  | nil => rfl
  | cons x r ih => exact (ih (fun y hy => h y (List.mem_cons_of_mem x hy)) (g s x)).trans (h x List.mem_cons_self s)

theorem bootView_wrs {l : List (Fld × Nat)} (h : ∀ x ∈ l, beyondBoot x.1) : bootView (s.wrs l) = bootView s :=
  foldl_keeps_mem bootView _ l (fun x hx _ => bootView_wr (h x hx) x.2) s

theorem condFields_beyondBoot (c u : Nat) : ∀ f ∈ condFields c u, beyondBoot f := by
  unfold condFields
  repeat' split
  all_goals
    simp only [List.forall_mem_cons, List.not_mem_nil, false_implies, implies_true, and_true, beyondBoot, IMG_COND_LAST_CODE,
      SEQ_COND_LAST_CODE, SLV_LANE_COND_LAST_CODE, SLV_SEL_COND_LAST_CODE, OCE_COND_LAST_CODE, GNS_COND_LAST_CODE, TIM_COND_LAST_CODE,
      NET_COND_LAST_CODE, CAN_COND_LAST_CODE, FLD_COND_LAST_CODE, SAF_COND_LAST_CODE, ERR_COND_LAST_CODE, JNL_COND_LAST_CODE,
      RED_COND_LAST_CODE, PST_COND_LAST_CODE, CLK_COND_LAST_CODE, SEC_COND_LAST_CODE, REC_COND_LAST_CODE, BKG_COND_LAST_CODE,
      HST_COND_LAST_CODE] <;> omega

theorem reportKeys_beyondBoot (c u : Nat) : ∀ k ∈ reportKeys c u, beyondBoot ⟨k, 1⟩ := by
  intro k hk
  rcases List.mem_append.mp hk with hk | hk
  · obtain ⟨f, hf, rfl⟩ := List.mem_map.mp hk
    exact condFields_beyondBoot c u f hf
  · have hall : ∀ k ∈ [HST_SRC_PEND_LO_PEND, HST_SRC_PEND_HI_PEND, REC_LOG_HEAD_ISEQ, REC_LOG_STS_FILL, REC_LOG_STS_UNMIRRORED,
        REC_EVT_LOG_HALF, REC_LOG_LOST_LOST, REC_STATUS_LOG_FULL, REC_COND_LAST_CODE, REC_EVT_LOG_FULL].map (·.key), beyondBoot ⟨k, 1⟩ := by
      decide
    exact hall k hk

theorem bootView_report (c u d : Nat) : bootView (report s c u d) = bootView s :=
  bootView_ext (report_rd _ _ _ _ _ fun h => (reportKeys_beyondBoot c u _ h).ne_state rfl)
    (report_rd _ _ _ _ _ fun h => (reportKeys_beyondBoot c u _ h).ne_boot rfl) (report_clk s c u d)

theorem bootView_reportMarks (c u : Nat) : bootView (reportMarks s c u) = bootView s :=
  bootView_ext (reportMarks_rd _ _ _ _ fun h => (reportKeys_beyondBoot c u _ h).ne_state rfl)
    (reportMarks_rd _ _ _ _ fun h => (reportKeys_beyondBoot c u _ h).ne_boot rfl) (by rw [reportMarks_only])

theorem bootView_logEntry (s : State) (e : Incident) : bootView (logEntry s e) = bootView s :=
  bootView_ext (logEntry_rd _ _ _ (by decide)) (logEntry_rd _ _ _ (by decide)) (logEntry_clk s e)

theorem bootView_logEntries (l : List Incident) (s : State) : bootView (l.foldl logEntry s) = bootView s :=
  foldl_keeps bootView _ bootView_logEntry l s

theorem bootView_audit (c d : Nat) : bootView (audit s c d) = bootView s :=
  bootView_ext (audit_rd _ _ _ _ (by decide)) (audit_rd _ _ _ _ (by decide)) rfl

/-! ### Frames of the cascade head (R418) -/

theorem bootView_updPort (g : PortSt → PortSt) : bootView (updPort s p g) = bootView s := rfl

theorem bootView_setQueue (l : List TxFrame) : bootView (setQueue s p q l) = bootView s :=
  bootView_wr (s := updPort s p _) (.high (by simp only [NET_TXQ_STS_FILL]; omega)) _

theorem bootView_netCount (i : Nat) : bootView (netCount s p i) = bootView s :=
  bootView_incSat (.high (by simp only [NET_CNT_COUNT]; omega)) _

theorem bootView_startFrame (g : TxFrame) (rest : List TxFrame) : bootView (startFrame s p q g rest) = bootView s := by
  have hlate : ∀ (u : State) i v, bootView (u.wr (NET_FDEF_STS_LATE p i) v) = bootView u := fun u i v =>
    bootView_wr (.high (by simp only [NET_FDEF_STS_LATE]; omega)) v
  have hcnt : ∀ (u : State) m, bootView (u.incSat (NET_TXQ_STS_LATE_CNT p q) m) = bootView u := fun u m =>
    bootView_incSat (.high (by simp only [NET_TXQ_STS_LATE_CNT]; omega)) m
  unfold startFrame
  cases g.def_ <;> cases g.late
  · exact bootView_setQueue rest
  · exact (hcnt _ _).trans (bootView_setQueue rest)
  · exact (hlate _ _ _).trans (bootView_setQueue rest)
  · exact (hlate _ _ _).trans ((hcnt _ _).trans (bootView_setQueue rest))

theorem bootView_netSelect (fuel : Nat) : bootView (netSelect s p fuel) = bootView s := by
  have hdrop : ∀ (u : State) q m, bootView (u.incSat (NET_TXQ_STS_DROP_CNT p q) m) = bootView u := fun u q m =>
    bootView_incSat (.high (by simp only [NET_TXQ_STS_DROP_CNT]; omega)) m
  induction fuel generalizing s with
  | zero => rfl
  | succ n ih =>
    unfold netSelect
    dsimp only
    split
    · rfl
    split
    · rfl
    split
    · split
      · rw [ih, bootView_netCount, bootView_setQueue]
      · rfl
    split
    · rfl
    next c q h rest _ =>
      have hover : ∀ (b : Bool) g, bootView (netSelect (
          let x := updPort ((setQueue s p q rest).incSat (NET_TXQ_STS_DROP_CNT p q) 255) p g
          if b then x else report x 0x0706 p) p n) = bootView s := by
        intro b g
        rw [ih, apply_ite bootView, bootView_report, ite_self]
        exact (bootView_updPort _).trans <| (hdrop _ q 255).trans (bootView_setQueue rest)
      rw [apply_ite bootView, hover, bootView_startFrame, ite_self]

theorem bootView_netTry : bootView (netTry s p) = bootView s := bootView_netSelect 256

theorem bootView_netHand (g : TxFrame) : bootView (netHand s p q g) = bootView s := by
  unfold netHand
  dsimp only
  split
  · rfl
  split
  · rw [apply_ite bootView, bootView_report, ite_self]
    exact (bootView_updPort _).trans (bootView_netCount 7)
  · rw [bootView_netTry, apply_ite bootView, bootView_report, ite_self]
    exact (bootView_setQueue _).trans (bootView_updPort _)

theorem bootView_pstOut (typ dst cyc : Nat) (e : Emit) : bootView (pstOut s typ dst cyc e) = bootView s := by
  have hhead : ∀ u : State, bootView (headSend u typ (ownAddr s) dst cyc 0) = bootView u := fun u => bootView_netHand _
  have hemit : ∀ (b : Prop) [Decidable b], bootView (if b then s.emit e else s) = bootView s := fun b _ => by
    rw [apply_ite bootView]
    exact ite_self _
  unfold pstOut
  dsimp only
  split
  · rfl
  split
  · rfl
  split
  · rw [apply_ite bootView, hhead, ite_self, hemit]
  split
  · rw [apply_ite bootView]
    refine (congrArg₂ (ite _) ?_ rfl).trans (ite_self _)
    exact bootView_netHand _
  · rw [apply_ite bootView, bootView_report]
    exact ite_self _

theorem bootView_pstSend (typ sub dst cyc : Nat) (ws : List Nat) : bootView (pstSend s typ sub dst cyc ws) = bootView s := bootView_pstOut _ _ _ _

/-! ### A class-S fault (R368, R369, R373) -/

theorem bootView_faultEntry (cyc : Option Nat) (code unit : Nat) : bootView (faultEntry s cyc code unit) = bootView s := by
  unfold faultEntry
  dsimp only
  split
  · rw [apply_ite bootView, bootView_logEntry, bootView_reportMarks]
    exact (congrArg (ite _ _) (bootView_reportMarks code unit)).trans (ite_self _)
  · rw [bootView_logEntry, bootView_reportMarks]

theorem bootView_noteFault (g : FaultIn) (cls : Nat) (again : Bool) : bootView (noteFault s g cls again) = bootView s := by
  have hcount : ∀ h : Fld, h = ERR_CNT_C_COUNT ∨ h = ERR_CNT_T_COUNT ∨ h = ERR_CNT_P_COUNT → ∀ m, bootView (s.incSat h m) = bootView s := by
    rintro h (rfl | rfl | rfl) m <;> exact bootView_incSat (by decide) m
  have hlast : ∀ (u : State) a b c d e i j k l, bootView (u.wrs [(ERR_LAST_CLASS, a), (ERR_LAST_MECH, b), (ERR_LAST_UNIT, c),
      (ERR_LAST_INDEX, d), (ERR_LAST_INJECTED, e), (ERR_LAST_MOWER, i), (ERR_LAST_IN_REPLAY, j), (ERR_LAST_CYC_CYC, k),
      (ERR_LAST_ADDR_ADDR, l)]) = bootView u := fun u a b c d e i j k l => bootView_wrs (by
    simp only [List.forall_mem_cons, List.not_mem_nil, false_implies, implies_true, and_true]
    decide)
  unfold noteFault
  dsimp only
  rw [apply_ite bootView, bootView_audit, ite_self, bootView_faultEntry, apply_ite bootView, hlast, ite_self]
  split
  · exact hcount _ (by simp) _
  · exact hcount _ (by simp) _
  · exact hcount _ (by simp) _
  · rfl

end View

/-! ### The device falls silent (R368, R373) -/

section Silent

variable {s : State} {p c n d : Nat}

theorem bootView_jnlCount (s : State) : bootView (jnlCount s) = bootView s := bootView_wr (by decide) _

theorem bootView_jnlPut (r : JnlRec) : bootView (jnlPut s r) = bootView s := by
  have hgap : ∀ (u : State) m, bootView (u.incSat JNL_CNT_MIRROR_GAP m) = bootView u := fun u m => bootView_incSat (by decide) m
  have hhead : ∀ (u : State) v, bootView (u.wr JNL_HEAD_CYC v) = bootView u := fun u v => bootView_wr (by decide) v
  have hjnl : ∀ (u : State) j, bootView { u with jnl := j } = bootView u := fun _ _ => rfl
  unfold jnlPut
  simp only [bootView_jnlCount, apply_ite bootView, bootView_report, hhead, hjnl, hgap, ite_self]

theorem bootView_silentMarker (s : State) : bootView (silentMarker s) = bootView s := by
  unfold silentMarker
  split <;> exact bootView_jnlPut _

theorem bootView_updCyc (g : Cyc → Cyc) : bootView (updCyc s n g) = bootView s := rfl

theorem bootView_releaseEntries (k : Cyc) : bootView (releaseEntries s k) = bootView s := bootView_logEntries _ s

/-- The cycles in flight lose their entries and what the field knows of them. -/
theorem bootView_cyclesForgotten (l : List Cyc) (s : State) :
    bootView (l.foldl (fun s c => if c.committed || c.missed then s else fldForget (releaseEntries s c) c.n) s) = bootView s :=
  foldl_keeps bootView _ (fun u k => by
    rw [apply_ite bootView]
    exact (congrArg (ite _ _) (bootView_releaseEntries k)).trans (ite_self _)) l s

theorem bootView_releaseLate (s : State) : bootView (releaseLate s) = bootView s := bootView_logEntries _ _

theorem bootView_netFlush (s : State) (p : Nat) : bootView (netFlush s p) = bootView s :=
  foldl_keeps bootView _ (fun _ _ => bootView_setQueue _) _ s

theorem bootView_canMonitor (s : State) (c : Nat) : bootView (canMonitor s c) = bootView s := by
  have hst : ∀ v, bootView (s.wr (CAN_STATUS_STATE c) v) = bootView s := bootView_wr (.high (by simp only [CAN_STATUS_STATE]; omega))
  unfold canMonitor
  rw [apply_ite bootView]
  exact (congrArg (ite _ _) (hst 5)).trans (ite_self _)

theorem bootView_quietOutputs (s : State) : bootView (quietOutputs s) = bootView s := by
  have hpark : ∀ u, bootView (parkPins u true) = bootView u := fun _ => rfl
  unfold quietOutputs
  dsimp only
  rw [hpark, foldl_keeps bootView _ bootView_canMonitor, foldl_keeps bootView _ bootView_netFlush]

theorem bootView_closeSess (g : SessSt → Bool) : bootView (closeSess s g) = bootView s := by
  have hclosed : ∀ (u : State) (x : SessSt), bootView (u.wrs [(SEC_SESS_OPEN x.place, 0), (SEC_SESS_SLOT x.place, 0), (SEC_SESS_PORT x.place, 0),
      (SEC_SESS_SESSION_ID x.place, 0)]) = bootView u := fun u x => bootView_wrs (by
    simp only [List.forall_mem_cons, List.not_mem_nil, false_implies, implies_true, and_true, beyondBoot, SEC_SESS_OPEN, SEC_SESS_SLOT, SEC_SESS_PORT,
      SEC_SESS_SESSION_ID]
    omega)
  have hcount : ∀ (u : State) v, bootView (u.wr SEC_STATUS_SESSIONS v) = bootView u := fun u v => bootView_wr (by decide) v
  unfold closeSess
  dsimp only
  refine (foldl_keeps bootView _ (fun u x => ?_) _ _).trans (hcount _ _)
  rw [bootView_audit, bootView_report, hclosed]

theorem bootView_failSilent (cause : Nat) : bootView (failSilent s cause) = bootView s := by
  have hset : ∀ v, bootView (s.wrs [(ERR_STATUS_FAIL_SILENT, 1), (ERR_STATUS_S_CAUSE, v)]) = bootView s := fun v => bootView_wrs (by
    simp only [List.forall_mem_cons, List.not_mem_nil, false_implies, implies_true, and_true]
    decide)
  unfold failSilent
  rw [apply_ite bootView]
  refine (congrArg (ite _ _) ?_).trans (ite_self _)
  dsimp only
  rw [bootView_pstSend, bootView_closeSess, bootView_quietOutputs]
  exact (bootView_releaseLate _).trans ((bootView_cyclesForgotten _ _).trans ((bootView_silentMarker _).trans (hset cause)))

theorem bootView_classOther (s : State) : bootView (classOther s) = bootView s :=
  (bootView_failSilent 7).trans (bootView_noteFault _ 4 _)

end Silent

/-! ### What a domain's move to its fallback takes with it (R127, R161, R454) -/

section Lost

variable {s : State} {p c n d : Nat}

theorem bootView_loseAll (s : State) : bootView (loseAll s) = bootView s :=
  foldl_keeps bootView releaseCh (fun _ _ => rfl) _ _

theorem bootView_gclkLoss (s : State) : bootView (gclkLoss s) = bootView s := by
  have hmark : ∀ u, bootView (gclkMark u) = bootView u := fun u => bootView_wrb (by decide) _
  unfold gclkLoss
  rw [apply_ite bootView, hmark, bootView_report, bootView_loseAll]
  exact ite_self _

theorem bootView_allLost (s : State) : bootView (allLost s) = bootView s := by
  have hset : ∀ u : State, bootView (u.wr GNS_STATUS_ALL_LOST 1) = bootView u := fun u => bootView_wr (by decide) 1
  have hgn : ∀ (u : State) g, bootView (u.gn g) = bootView u := fun _ _ => rfl
  unfold allLost
  dsimp only
  rw [apply_ite bootView, hgn, bootView_report, hset, ite_self, bootView_loseAll]

theorem bootView_timRefLoss (s : State) : bootView (timRefLoss s) = bootView s := by
  have hst : ∀ u : State, bootView (u.wr TIM_QUAL_STATE 4) = bootView u := fun u => bootView_wr (by decide) 4
  have hfault : ∀ u : State, bootView (u.wrs [(TIM_QUAL_CLK_FAULT, 1), (TIM_STATUS_STEP_ARMED, 0)]) = bootView u := fun u => bootView_wrs (by decide)
  have hfree : ∀ u, bootView (enterFreerun u) = bootView u := fun u => (bootView_report _ _ _).trans (hst u)
  unfold timRefLoss
  dsimp only
  rw [bootView_report, hst, hfault, apply_ite bootView, hfree, ite_self]
  rfl

theorem bootView_pcieDown (s : State) : bootView (pcieDown s) = bootView s := by
  have hset : ∀ u : State, bootView (u.wrs [(HST_STATUS_LINK_UP, 0), (HST_STATUS_GEN, 0), (HST_STATUS_WIDTH, 0)]) = bootView u :=
    fun u => bootView_wrs (by decide)
  unfold pcieDown
  rw [apply_ite bootView, bootView_report, hset, ite_self]

theorem bootView_linkDown (code : Nat) : bootView (linkDown s p code) = bootView s := by
  have hset : ∀ u : State, bootView (u.wrs [(NET_STATUS_LINK p, 0), (NET_STATUS_SPEED p, 0)]) = bootView u := fun u => bootView_wrs (by
    simp only [List.forall_mem_cons, List.not_mem_nil, false_implies, implies_true, and_true, beyondBoot, NET_STATUS_LINK, NET_STATUS_SPEED]
    omega)
  unfold linkDown
  dsimp only
  rw [bootView_netTry, bootView_report, apply_ite bootView, bootView_netCount, ite_self, bootView_updPort, hset]

/-! ### A cascade link, a partner or a master is lost (R402, R421, R428) -/

theorem bootView_devAbort (s : State) : bootView (devAbort s) = bootView s := by
  have hpend : ∀ (u : State) v, bootView (putPend u v) = bootView u := fun u v => bootView_wrs (by
    simp only [List.forall_mem_cons, List.not_mem_nil, false_implies, implies_true, and_true]
    decide)
  have hheld : ∀ u, bootView (mcRelease u) = bootView u := fun u => (bootView_wr (s := u) (by decide) 0 : bootView (u.wr PST_MC_STS_HELD 0) = _)
  unfold devAbort
  split
  · rfl
  · dsimp only
    rw [hheld]
    refine foldl_keeps bootView _ (fun u g => ?_) _ s
    rw [apply_ite bootView, hpend]
    exact ite_self _

theorem bootView_devUnvoted (s : State) : bootView (devUnvoted s) = bootView s := by
  unfold devUnvoted
  split
  · rw [apply_ite bootView, bootView_devAbort, ite_self]
  · rfl

theorem bootView_masterLost (s : State) : bootView (masterLost s) = bootView s := by
  have hset : ∀ u : State, bootView (u.wr PST_STATUS_MASTER_OK 0) = bootView u := fun u => bootView_wr (by decide) 0
  unfold masterLost
  dsimp only
  rw [apply_ite bootView, bootView_devUnvoted, bootView_pstSend, bootView_report, hset]
  exact ite_self _

theorem bootView_takeOver (s : State) : bootView (takeOver s) = bootView s := by
  have hset : ∀ u : State, bootView (u.wrs [(PST_STATUS_ACTING_MASTER, 1), (PST_MC_STS_STATE, 0)]) = bootView u := fun u => bootView_wrs (by decide)
  unfold takeOver
  dsimp only
  rw [apply_ite bootView, bootView_devUnvoted, bootView_pstSend, bootView_report, hset, ite_self]

theorem bootView_dropCycles (s : State) : bootView (dropCycles s) = bootView s := bootView_cyclesForgotten _ s

theorem bootView_askCkpt (dst : Nat) : bootView (askCkpt s dst) = bootView s := by
  unfold askCkpt
  rw [apply_ite bootView, bootView_pstSend, ite_self]

theorem bootView_beginResync (s : State) : bootView (beginResync s) = bootView s := by
  have hset : ∀ u : State, bootView (u.wrs [(RED_STATUS_SYNC, 1), (RED_RESYNC_CONFIRM, 0), (RED_RESYNC_LAG, 0)]) = bootView u :=
    fun u => bootView_wrs (by decide)
  have htry : ∀ u : State, bootView (u.incSat RED_RESYNC_ATTEMPTS 255) = bootView u := fun u => bootView_incSat (by decide) 255
  have hsync : ∀ u : State, bootView (u.wr RED_STATUS_SYNC 0) = bootView u := fun u => bootView_wr (by decide) 0
  unfold beginResync
  dsimp only
  rw [apply_ite bootView, bootView_askCkpt, hset, htry, hsync, bootView_dropCycles]
  exact ite_self _

theorem bootView_attemptFailed (s : State) : bootView (Machine.attemptFailed s) = bootView s := by
  have hfail : ∀ u : State, bootView (u.incSat RED_CNT_RESYNC_FAIL 255) = bootView u := fun u => bootView_incSat (by decide) 255
  have hsync : ∀ u : State, bootView (u.wr RED_STATUS_SYNC 0) = bootView u := fun u => bootView_wr (by decide) 0
  unfold Machine.attemptFailed
  dsimp only
  rw [apply_ite bootView, bootView_report, hsync, bootView_dropCycles, bootView_beginResync, hfail]
  exact (congrArg₂ (ite _) (hfail s) rfl).trans (ite_self _)

theorem bootView_settleAgree (s : State) (n : Nat) : bootView (settleAgree s n false false) = bootView s := by
  have hmove : bootView (moveSamples s n) = bootView s := rfl
  have htaken : ∀ (u : State) v, bootView (u.wr SEQ_SP_TAKEN_TAKEN v) = bootView u := fun u v => bootView_wr (by decide) v
  unfold settleAgree
  dsimp only
  split
  · exact hmove
  split
  · exact hmove
  · rw [if_neg Bool.false_ne_true, if_neg Bool.false_ne_true, bootView_updCyc, apply_ite bootView, htaken, ite_self]
    exact hmove

theorem bootView_settled (l : List Cyc) (s : State) : bootView (l.foldl (fun s c => settleAgree s c.n false false) s) = bootView s := by
  induction l generalizing s with
  | nil => rfl
  | cons c r ih =>
    rw [List.foldl_cons, ih]
    exact bootView_settleAgree s c.n

theorem bootView_partnerLost (s : State) : bootView (partnerLost s) = bootView s := by
  have hset : bootView (s.wr RED_STATUS_PARTNER_OK 0) = bootView s := bootView_wr (by decide) 0
  have hlead : ∀ (b : Prop) [Decidable b] (u : State) g, bootView (if b then u.rs g else u) = bootView u := fun b _ u g => by
    rw [apply_ite bootView]
    exact ite_self _
  have hfail : ∀ (b : Prop) [Decidable b] (u : State), bootView (if b then Machine.attemptFailed u else u) = bootView u := fun b _ u => by
    rw [apply_ite bootView, bootView_attemptFailed, ite_self]
  unfold partnerLost
  rw [apply_ite bootView]
  refine (congrArg (ite _ _) ?_).trans (ite_self _)
  dsimp only
  rw [bootView_takeOver, hfail, bootView_settled, hlead, bootView_report]
  exact hset

theorem bootView_pairLinkLost (s : State) : bootView (pairLinkLost s) = bootView s := by
  have hset : ∀ u : State, bootView (u.wrs [(RED_STATUS_PAIRED, 0), (RED_PTAG_LO_VALUE, 0), (RED_PTAG_HI_VALUE, 0)]) = bootView u :=
    fun u => bootView_wrs (by decide)
  unfold pairLinkLost
  rw [apply_ite bootView, hset, bootView_partnerLost, ite_self]

theorem bootView_linkLoss (s : State) (p : Nat) : bootView (linkLoss s p) = bootView s := by
  have hset : ∀ u : State, bootView (u.wrs [(PST_PORT_STS_STATE p, 1), (PST_PORT_STS_LANE0_OK p, 0), (PST_PORT_STS_LANE1_OK p, 0),
      (PST_PORT_VER_MAJOR p, 0), (PST_PORT_VER_MINOR p, 0)]) = bootView u := fun u => bootView_wrs (by
    simp only [List.forall_mem_cons, List.not_mem_nil, false_implies, implies_true, and_true, beyondBoot, PST_PORT_STS_STATE, PST_PORT_STS_LANE0_OK,
      PST_PORT_STS_LANE1_OK, PST_PORT_VER_MAJOR, PST_PORT_VER_MINOR]
    omega)
  have hcnt : ∀ u : State, bootView (u.incSat (PST_PORT_CNT_RETRAIN p) 255) = bootView u := fun u =>
    bootView_incSat (.high (by simp only [PST_PORT_CNT_RETRAIN]; omega)) 255
  have hport : ∀ (u : State) g, bootView (updPst u p g) = bootView u := fun _ _ => rfl
  unfold linkLoss
  dsimp only
  rw [apply_ite bootView, apply_ite bootView, bootView_masterLost, ite_self, bootView_pairLinkLost, bootView_report, hport, hset, hcnt, ite_self]

end Lost

/-! ### A clock domain starts, moves or stays behind (R453 to R459) -/

section Domain

variable {s : State} {d : Nat}

theorem bootView_updDom (g : DomSt → DomSt) : bootView (updDom s d g) = bootView s := rfl

theorem bootView_clkMarks (s : State) : bootView (clkMarks s) = bootView s := bootView_wrs (by
  simp only [List.forall_mem_cons, List.not_mem_nil, false_implies, implies_true, and_true]
  decide)

theorem bootView_pllStop {x : Nat} (hx : x < 5) : bootView (pllStop s x) = bootView s :=
  (bootView_clkMarks _).trans (bootView_wrs (by
    simp only [List.forall_mem_cons, List.not_mem_nil, false_implies, implies_true, and_true, beyondBoot, CLK_PLL_CFG_EN, CLK_PLL_CFG_LOCKED]
    omega))

theorem bootView_noClock_class (b : Prop) [Decidable b] (s : State) : bootView (if b then classOther s else s) = bootView s := by
  rw [apply_ite bootView, bootView_classOther, ite_self]

theorem bootView_onFallback (s : State) (d : Nat) : bootView (onFallback s d) = bootView s := by
  have hdown : ∀ (u : State) (p : Nat), bootView (if u.flag (NET_STATUS_LINK p) then linkDown u p 0x0702 else u) = bootView u := fun u p => by
    rw [apply_ite bootView, bootView_linkDown, ite_self]
  unfold onFallback
  split
  · exact bootView_noClock_class _ s
  · exact bootView_noClock_class _ s
  · exact bootView_noClock_class _ s
  · exact bootView_noClock_class _ s
  · exact bootView_gclkLoss s
  · exact bootView_allLost s
  · exact bootView_timRefLoss s
  · exact foldl_keeps bootView _ hdown _ s
  · exact (bootView_linkLoss _ 1).trans (bootView_linkLoss s 0)
  · exact bootView_pcieDown s
  · rfl

variable (hd : d < 12)

include hd

theorem bootView_setDom (st : Nat) (primary : Bool) : bootView (setDom s d st primary) = bootView s :=
  (bootView_wrBit (by decide) d _).trans (bootView_wr (by simp only [beyondBoot, CLK_DOM_STS_STATE]; omega) st)

theorem bootView_rampStep : bootView (s.wr (CLK_DOM_STS_RAMP_STEP d) 0) = bootView s :=
  bootView_wr (by simp only [beyondBoot, CLK_DOM_STS_RAMP_STEP]; omega) 0

theorem bootView_noClock : bootView (noClock s d) = bootView s := by
  unfold noClock
  dsimp only
  rw [bootView_noClock_class, bootView_report, bootView_setDom hd]

theorem bootView_toFallback : bootView (toFallback s d) = bootView s := by
  have hlost : ∀ u : State, bootView (if d = 4 then gclkLoss u else if d = 5 then allLost u else u) = bootView u := fun u => by
    rw [apply_ite bootView, apply_ite bootView, bootView_gclkLoss, bootView_allLost, ite_self, ite_self]
  unfold toFallback
  dsimp only
  rw [apply_ite bootView, bootView_noClock (d := 1) (by decide), hlost, bootView_rampStep hd, bootView_updDom, apply_ite bootView,
    bootView_onFallback, bootView_report, bootView_setDom hd, hlost, bootView_rampStep hd, bootView_updDom, apply_ite bootView,
    bootView_noClock hd, hlost, bootView_rampStep hd, bootView_updDom, bootView_report, bootView_setDom hd, hlost, bootView_rampStep hd,
    bootView_updDom, ite_self, ite_self, ite_self]

theorem bootView_moveDom (primary ret : Bool) : bootView (moveDom s d primary ret) = bootView s := by
  unfold moveDom
  dsimp only
  rw [apply_ite bootView, bootView_rampStep hd, bootView_setDom hd, bootView_updDom, apply_ite bootView, bootView_report, bootView_setDom hd,
    bootView_updDom, ite_self, ite_self]

theorem bootView_startDom : bootView (startDom s d) = bootView s := by
  unfold startDom
  dsimp only
  rw [apply_ite bootView, bootView_moveDom hd, bootView_toFallback hd, ite_self, bootView_updDom]

end Domain

/-! ### The release (R465, R551) -/

section Release

variable {s : State}

/-- A domain's start at the release. -/
def releaseDom (solv : Bool) (s : State) (d : Nat) : State :=
  let off : Bool := ((d = 4 || d = 5) && !s.hasGnss) || (d = 3 && s.isNode && !solv)
  if d = 0 then s
  else if off then pllStop (setDom s d 5 true) (if d = 3 then 3 else 0)
  else if (d = 3 || d = 5 || d = 1) && !sourceOk s (primaryOf d) then setDom s d 4 true
  else startDom s d

theorem bootView_releaseDom (solv : Bool) {d : Nat} (hd : d < 12) (s : State) : bootView (releaseDom solv s d) = bootView s := by
  have hx : (if d = 3 then 3 else 0) < 5 := by split <;> decide
  unfold releaseDom
  dsimp only
  rw [apply_ite bootView, apply_ite bootView, apply_ite bootView, bootView_pllStop hx, bootView_setDom hd, bootView_setDom hd,
    bootView_startDom hd, ite_self, ite_self, ite_self]

/-- The release, up to its sources' reports and its domains. -/
def releasedFrom (s : State) (straps : Nat) : State :=
  ((otpChecks (logStart s)).wrs [(GLB_STRAP_BOOT, straps % 8), (GLB_STRAP_MASTER_EN, straps / 8 % 2), (RST_PWR_STS_STATE, 1)]).ck
    fun x => { x with released := true }

/-- A device that boots over Piste trains its ports. -/
def portsTrain (s : State) : State :=
  [0, 1].foldl (fun s p => updPst (s.wr (PST_PORT_STS_STATE p) 1) p fun x => { x with stepAt := s.tim.cnt }) s

/-- The sources and PLLs that a start goes without. -/
def lackingSources (s : State) : List Nat :=
  (if xaFitted s && !sourceOk s 2 then [2] else []) ++ ([3, 5, 8, 10, 7].filter fun k => !sourceOk s k)

theorem dieRelease_eq (s : State) (straps : Nat) (solv : Bool) : dieRelease s straps solv =
    let u := releasedFrom s straps
    let v := if straps % 8 = 4 then portsTrain u else u
    (List.range 12).foldl (releaseDom solv) ((lackingSources v).foldl (fun s k => report s 0x0F05 k) v) := rfl

theorem bootView_portsTrain (s : State) : bootView (portsTrain s) = bootView s := by
  have hport : ∀ (u : State) p, bootView (u.wr (PST_PORT_STS_STATE p) 1) = bootView u := fun u p =>
    bootView_wr (.high (by simp only [PST_PORT_STS_STATE]; omega)) 1
  have hpst : ∀ (u : State) p g, bootView (updPst u p g) = bootView u := fun _ _ _ => rfl
  unfold portsTrain
  rw [List.foldl_cons, List.foldl_cons, List.foldl_nil, hpst, hport, hpst, hport]

/-- What the straps and the power state read once they are sampled. -/
theorem sampled_rd (u : State) (boot master : Nat) :
    let v := u.wrs [(GLB_STRAP_BOOT, boot % 8), (GLB_STRAP_MASTER_EN, master), (RST_PWR_STS_STATE, 1)]
    v.rd RST_PWR_STS_STATE = 1 ∧ v.rd GLB_STRAP_BOOT = boot % 8 := by
  let v := u.wr GLB_STRAP_BOOT (boot % 8)
  have hboot : v.rd GLB_STRAP_BOOT = boot % 8 := (rd_wr_same u _ _ (by decide)).trans (Nat.mod_eq_of_lt (Nat.mod_lt boot (by decide)))
  exact ⟨rd_wr_same (v.wr GLB_STRAP_MASTER_EN master) RST_PWR_STS_STATE 1 (by decide),
    (rd_wr_ne (v.wr GLB_STRAP_MASTER_EN master) RST_PWR_STS_STATE GLB_STRAP_BOOT 1 (by decide)).trans
      ((rd_wr_ne v GLB_STRAP_MASTER_EN GLB_STRAP_BOOT master (by decide)).trans hboot)⟩

theorem bootView_releasedFrom (s : State) (straps : Nat) : bootView (releasedFrom s straps) = (1, straps % 8, true) := by
  have hck : ∀ u : State, bootView (u.ck fun x => { x with released := true }) = (u.rd RST_PWR_STS_STATE, u.rd GLB_STRAP_BOOT, true) := fun _ => rfl
  obtain ⟨hpwr, hboot⟩ := sampled_rd (otpChecks (logStart s)) straps (straps / 8 % 2)
  unfold releasedFrom
  rw [hck, hpwr, hboot]

theorem bootView_dieRelease (s : State) (straps : Nat) (solv : Bool) : bootView (dieRelease s straps solv) = (1, straps % 8, true) := by
  rw [dieRelease_eq]
  dsimp only
  rw [foldl_keeps_mem bootView _ _ fun d hd u => bootView_releaseDom solv (List.mem_range.mp hd) u,
    foldl_keeps bootView _ fun u k => bootView_report 0x0F05 k 0, apply_ite bootView, bootView_portsTrain, ite_self, bootView_releasedFrom]

end Release

end Sys2Proof.Proofs
end

section
/-! PROOFS. O57: resets of the main die and its release (R464, R465, R471, R551). -/

namespace Sys2Proof.Proofs

open Sys2Proof Sys2Proof.Machine Sys2Proof.Laws

/-! ### What POR, PIN and SYS return and keep (R464) -/

theorem reset_letters : ∀ k < 3, (∀ f ∈ [IMG_STATUS_STATE, SEQ_STATUS_STATE, RST_PWR_STS_STATE], bit (resetLetters f.key) k = true ∧ resetValue f.key = 0)
    ∧ (∀ f ∈ [RED_CKPT_NAND_CYC, JNL_NAND_PTR_PTR], bit (resetLetters f.key) k = false) ∧ (k ≠ 0 → bit (resetLetters RST_CNT_PIN_CNT.key) k = false) := by
  decide +kernel

section Resets

variable {s : State} {k : Nat}

theorem mainReset_zero (hk : k < 3) {f : Fld} (hf : f ∈ [IMG_STATUS_STATE, SEQ_STATUS_STATE, RST_PWR_STS_STATE]) : (mainReset s k).rd f = 0 := by
  have hclk : ∀ f ∈ [IMG_STATUS_STATE, SEQ_STATUS_STATE, RST_PWR_STS_STATE], f.key ∉ clkKeys := by decide
  obtain ⟨hl, hv⟩ := (reset_letters k hk).1 f hf
  rw [mainReset_rd s (by omega) (hclk f hf), if_pos hl, hv]
  rfl

theorem mainReset_kept (hk : k < 3) {f : Fld} (hf : f.key ∉ clkKeys) (hl : bit (resetLetters f.key) k = false) : (mainReset s k).rd f = s.rd f := by
  rw [mainReset_rd s (by omega) hf, if_neg (ne_true_of_eq_false hl)]

theorem sysWrite_keyed {key : Nat} (s : State) : sysWrite s (key % 65536 * 65536 + 1) =
    if asleep s then s
    else if key % 65536 == 0x5359 then ((mainReset s 2).incSat RST_CNT_SYS_CNT 255).wr RST_CAUSE_CAUSE 4
    else refuse s 0x0F0E := by
  have hgo : bit (key % 65536 * 65536 + 1) 0 = true := decide_eq_true (by omega)
  have hkey : (key % 65536 * 65536 + 1) / 65536 % 65536 = key % 65536 := by omega
  unfold sysWrite
  rw [hgo, hkey, Bool.not_true, Bool.false_or]
  simp only [beq_iff_eq, ite_not]

theorem exec_sysReset {p : Path} {key t : Nat} (hl : s.lets p 0x20004) :
    exec (.sysReset p key t) s = done (sysWrite (s.taken p t) (key % 65536 * 65536 + 1)) := congrArg done (hostDo_lets s p _ _ t _ hl)

/-! ### Rails and PHYs (R465, R471) -/

theorem exec_phyResetRelease {t : Nat} : exec (.phyResetRelease t) s =
    done (if s.clk.released && (2500000 ≤ max s.tim.cnt t : Bool) then (s.at t).ck fun x => { x with phyRst := true } else s.at t) := rfl

/-! ### The release of the main die (R465, R501, R551) -/

/-- The release goes on from the NAND's layout. -/
def releaseGo (s : State) (clean : Bool) : State :=
  bootSeek (if clean || s.sec_.nand.isEmpty then s else auditFrom (report s 0x1015) (List.replicate 8 0) 0x1015 0)

theorem exec_mainDieRelease {straps blocks page block bad t : Nat} {solv clean : Bool} :
    exec (.mainDieRelease straps solv blocks page block bad clean t) s =
      done (if mayRelease (s.at t) then
        releaseGo (nandLayout (dieRelease (nandFresh (s.at t) blocks page block) straps solv) blocks page block bad) clean else s.at t) :=
  congrArg done (ite_bnot _ _ _)

theorem mayRelease_not (h : s.clk.off.isSome = true ∨ s.clk.released = true ∨ s.clk.rails = false) : mayRelease s = false := by
  unfold mayRelease
  rcases h with h | h | h
  · rw [Option.isNone_eq_false_iff.mpr h]
    simp
  · simp [h]
  · simp [h]

/-- The places for journal records are drawn where the NAND is a new one. -/
def nandDrawn (s : State) (blocks page block : Nat) : State :=
  let u := s.draw.2
  if u.rcd.geom = [blocks, page, block] || blocks = 0 then u
  else u.rc fun r => { r with geom := [blocks, page, block], blockKib := block, jnlBlocks := s.draw.1 % (jnlMost blocks block + 1) }

/-- The NAND's parameters are entered. -/
def nandEntered (s : State) (blocks page block bad : Nat) : State :=
  ((nandDrawn s blocks page block).wrs [(BKG_NAND_GEOM_BLOCKS, blocks), (BKG_NAND_GEOM_PAGE_KIB, page), (BKG_NAND_STS_BAD, bad),
    (BKG_NAND_STS_SPARE, blocks * 2 / 100 - bad)]).wrb JNL_STATUS_NAND_OK (blocks ≠ 0)

theorem nandLayout_eq (s : State) (blocks page block bad : Nat) :
    nandLayout s blocks page block bad = sparesLow (nandRecords (nandEntered s blocks page block bad)) := rfl

theorem sparesLow_records_rd {f : Fld} (hf : f.key ∉ [BKG_STATUS_SPARES_LOW.key, JNL_CNT_NAND_RECORDS.key]) (hr : f.key ∉ reportKeys 0x110B 0)
    (s : State) : (sparesLow (nandRecords s)).rd f = s.rd f := by
  simp only [List.mem_cons, List.not_mem_nil, or_false, not_or] at hf
  have hrec : (nandRecords s).rd f = s.rd f := rd_wr_ne _ _ _ _ hf.2
  unfold sparesLow
  rw [apply_ite (fun u : State => u.rd f), report_rd _ _ _ _ _ hr, rd_wr_ne _ _ _ _ hf.1, ite_self, hrec]

theorem sparesLow_records_rcd (s : State) : (sparesLow (nandRecords s)).rcd = s.rcd := by
  unfold sparesLow
  rw [apply_ite State.rcd, report_rcd]
  exact ite_self _

theorem nandEntered_geom {blocks page block bad : Nat} (hb : blocks ≠ 0) (hg : s.rcd.geom ≠ [blocks, page, block]) :
    (nandEntered s blocks page block bad).rcd.geom = [blocks, page, block] := by
  have hnew : ¬ (s.draw.2.rcd.geom = [blocks, page, block] || blocks = 0) = true := by
    rw [Bool.or_eq_true, not_or]
    exact ⟨fun h => hg (of_decide_eq_true h), fun h => hb (of_decide_eq_true h)⟩
  have hdrawn : (nandDrawn s blocks page block).rcd.geom = [blocks, page, block] := by
    unfold nandDrawn
    dsimp only
    rw [if_neg hnew]
    rfl
  unfold nandEntered State.wrb
  rw [← hdrawn]
  exact congrArg RecSt.geom (wrs_rcd _ _)

theorem nandEntered_rd (blocks page block bad : Nat) :
    (nandEntered s blocks page block bad).rd BKG_NAND_GEOM_BLOCKS = blocks % 2 ^ 24
      ∧ (nandEntered s blocks page block bad).rd JNL_STATUS_NAND_OK = b2n (blocks ≠ 0) % 2 := by
  unfold nandEntered
  generalize nandDrawn s blocks page block = u
  refine ⟨(rd_wr_ne _ _ _ _ (by decide)).trans ?_, rd_wr_same _ _ _ (by decide)⟩
  let v := u.wr BKG_NAND_GEOM_BLOCKS blocks
  refine (rd_wrs_ne v [(BKG_NAND_GEOM_PAGE_KIB, page), (BKG_NAND_STS_BAD, bad), (BKG_NAND_STS_SPARE, blocks * 2 / 100 - bad)] _ ?_).trans
    (rd_wr_same u _ _ (by decide))
  simp only [List.forall_mem_cons, List.not_mem_nil, false_implies, implies_true, and_true]
  decide

end Resets

/-- Settles O57: the resets by what each register's Reset column says; the release by the view of it that all its parts leave standing. -/
theorem resetsAndRelease : Obligations.ResetsAndRelease := by
  unfold Obligations.ResetsAndRelease
  refine ⟨?_, ?_, ?_, ?_, ?_⟩
  · intro s k hk u
    have hk5 : k ≠ 5 := by omega
    obtain ⟨himg, hseq, hsaf, hjnl, hring, -, -⟩ := mainReset_parts s k
    obtain ⟨-, hkept, hpin⟩ := reset_letters k hk
    refine ⟨congrArg ImgSt.secs himg, mainReset_zero hk (by decide), mainReset_zero hk (by decide), congrArg SeqSt.cycs hseq, ?_,
      mainReset_zero hk (by decide), (congrArg ImgSt.slotA himg :), (congrArg ImgSt.slotB himg :), (congrArg JnlSt.nand hjnl :), hring,
      mainReset_kept hk (by decide) (hkept _ (by decide)), mainReset_kept hk (by decide) (hkept _ (by decide)),
      fun h0 => mainReset_kept hk (by decide) (hpin h0)⟩
    refine (congrArg SafSt.conf hsaf).trans ?_
    split <;> rfl
  · intro s
    exact ⟨rfl, fun ha => congrArg done (if_neg (ne_true_of_eq_false ha)), fun ha => congrArg done (if_pos ha)⟩
  · intro s p key t hl S keyed
    rw [exec_sysReset hl, sysWrite_keyed]
    refine ⟨fun ha hkey => ?_, fun ha hkey => ?_, fun ha => congrArg done (if_pos ha)⟩
    · exact congrArg done ((if_neg (ne_true_of_eq_false ha)).trans (if_pos hkey))
    · exact congrArg done ((if_neg (ne_true_of_eq_false ha)).trans (if_neg (ne_true_of_eq_false hkey)))
  · intro s t src S out st started low
    rw [exec_phyResetRelease]
    refine ⟨fun ho => ⟨congrArg done (if_pos ho), congrArg done (if_pos ho)⟩, fun ho => congrArg done (if_neg (ne_true_of_eq_false ho)),
      fun ho h5 => congrArg done ((if_neg (ne_true_of_eq_false ho)).trans (if_pos h5)), fun ho h5 hr => ?_, fun ho h5 hr => ?_,
      fun hr ht => ?_, fun hn => ?_⟩
    · exact congrArg done ((if_neg (ne_true_of_eq_false ho)).trans ((if_neg h5).trans (if_pos hr)))
    · exact congrArg done ((if_neg (ne_true_of_eq_false ho)).trans ((if_neg h5).trans (if_neg (ne_true_of_eq_false hr))))
    · exact congrArg done (if_pos (by rw [hr, decide_eq_true ht]; rfl))
    · refine congrArg done (if_neg ?_)
      rcases hn with hn | hn
      · rw [hn, Bool.false_and]
        decide
      · rw [decide_eq_false (Nat.not_le.mpr hn), Bool.and_false]
        decide
  · intro s straps blocks page block bad t solv clean S L fine gives
    have hview := bootView_dieRelease S straps solv
    refine ⟨fun hm hf => ?_, fun hm hf => ?_, fun hm => ?_, fun h => mayRelease_not (s := S) h, congrArg (·.2.2) hview, congrArg (·.1) hview,
      congrArg (·.2.1) hview, fun hb hg => ?_⟩
    · exact (exec_mainDieRelease).trans (congrArg done ((if_pos hm).trans (congrArg bootSeek (if_pos hf))))
    · exact (exec_mainDieRelease).trans (congrArg done ((if_pos hm).trans (congrArg bootSeek (if_neg (ne_true_of_eq_false hf)))))
    · exact (exec_mainDieRelease).trans (congrArg done (if_neg (ne_true_of_eq_false hm)))
    · obtain ⟨hblocks, hok⟩ := nandEntered_rd (s := S) blocks page block bad
      rw [nandLayout_eq, sparesLow_records_rcd]
      refine ⟨(sparesLow_records_rd (by decide) (by decide) _).trans hblocks, ?_, nandEntered_geom (s := S) hb hg⟩
      unfold State.flag
      rw [sparesLow_records_rd (by decide) (by decide), hok, decide_eq_true hb]
      rfl

end Sys2Proof.Proofs
end
